-- ==== Sys2Proof/Word.lean ====
section
/-!
DEFINITION. The word types of the T6144's register space and the carrier of its sparse stores.
-/
namespace Sys2Proof

/-- A register of the control space (R16: registers are 32 bits wide). -/
abbrev Word := BitVec 32

/-- One byte of a memory of the device. -/
abbrev Byte := BitVec 8

/-- A store in canonical form: keys strictly rising, no entry equal to the value an unlisted key reads as
(that value is named where the store is read). -/
abbrev Sparse (α : Type) := List (Nat × α)

/-- The value of a word in which only bit `b` may be set, set exactly when `p` holds. -/
def bitIf (p : Bool) (b : Nat) : Nat := if p then 2 ^ b else 0

end Sys2Proof
end

