-- ==== Sys2Proof/Syntax.lean ====
section
/-!
DEFINITION. The commands that the T6144 takes, one constructor per row of the operation table, with what the environment
supplies in each as operands.
-/
namespace Sys2Proof

/-- What the environment decides about one bundle of an effect core: FAB cycles since the bundle before (stalls and copies
included), uncorrectable errors in the fetched bundle and in the words that the X and Y slots load, and the number of the
SRAM array that an erroneous word lies in. -/
structure EcEnv where
  cycles : Nat
  fetchBad : Bool
  xBad : Bool
  yBad : Bool
  array : Nat
deriving DecidableEq, Repr

/-- The measured quantities of one sub-block of one ADC: decimation outputs in 2^-44, coarse level, modulator overload. -/
structure AdcIn where
  raw : List Int
  coarse : Int
  overload : Bool
deriving DecidableEq, Repr

/-- What the environment decides about one block tick: the SAFE count, TIME cycles since the advance before, PVDD in mV, and
the sub-block that each ADC has completed. -/
structure TickEnv where
  safe : Nat
  cycles : Nat
  pvdd : Nat
  adc : List AdcIn
deriving DecidableEq, Repr

/-- A write transaction of the control interconnect (R511): the size of each access in bytes, and what each of its accesses
writes. -/
structure WriteData where
  bytes : Nat
  values : List Word
deriving DecidableEq, Repr

/-- A transaction in the DRAM window (R511, R514): the size of each access in bytes, the number of accesses of a read, and what
each access of a write writes. -/
structure WindowData where
  bytes : Nat
  count : Nat
  values : List Word
deriving DecidableEq, Repr

/-- What a port finds on its line as its link comes up: alignment of the partner's RS-FEC, and low-power idle. -/
structure LineIn where
  fec : Bool
  lpi : Bool
deriving DecidableEq, Repr

/-- A command of the T6144: what the operation table lists, with the row's operands. -/
inductive Instr where
  /-- POWER_ON (R542). VDD_AON rises through its power-on threshold; the whole device resets with cause POWER_ON and the
  factory trim code is loaded. -/
  | powerOn
  /-- RESET_N_LOW (R543). RESET_N is driven low and the device enters reset with cause PIN. -/
  | resetNLow
  /-- PGOOD_CHANGE (R617). PGOOD changes level; while it is low the device is held in reset. -/
  | pgoodChange (high : Bool)
  /-- RESET_RELEASE (R543). Reset is released 1.0 ms after both PGOOD and RESET_N are high; STRAP_HOME is sampled and
  the boot ledger begins. -/
  | resetRelease (strapHome : Bool) (testEn : Bool) (safe : Nat)
  /-- SOFTWARE_RESET (R542). SV writes PSEQ.CMD.RESET and the device resets with cause SOFTWARE. -/
  | softwareReset
  /-- REF_WINDOW_END (R523). A window of 32,000 SAFE cycles ends, and the reference and every running domain are counted
  against SAFE. -/
  | refWindowEnd (ref : Nat) (doms : List Nat)
  /-- TRIM_WINDOW_END (R527). A trim window ends and the safelight trim code is discarded, coarse-corrected or stepped
  by one towards zero error. -/
  | trimWindowEnd (counted : Nat)
  /-- PLL_LOCK (R522). A PLL holds its phase detector within the lock window for 1,024 reference cycles and becomes
  locked. -/
  | pllLock (pll : Nat)
  /-- PLL_UNLOCK (R522). A PLL loses lock and the clock-fault handling of the table Clock faults begins. -/
  | pllUnlock (pll : Nat)
  /-- CLOCK_FAULT_RESET (R533). 640,000 SAFE cycles after a clock fault, the power sequencer resets the device with
  cause CLOCK_FAULT. -/
  | clockFaultReset
  /-- DOM_SWITCH_GO (R528). SV sets CLK.DOM_CTRL.GO to move a domain to another source, or the request is refused. -/
  | domSwitchGo (src : Nat)
  /-- DIVIDER_STEP (R528). A 1 us step of a domain source switch completes: the divider moves one power of two, or the
  glitch-free multiplexer changes source. -/
  | dividerStep (dom : Nat) (edge : Bool)
  /-- ISLAND_START (R539). The next FAB power island is started at 50 us spacing: switch closed, isolation released and
  its clock ramped. -/
  | islandStart
  /-- BOOT_STEP_END (R547). A step of the boot ledger completes and the next step begins. -/
  | bootStepEnd (flashLog2 : Nat)
  /-- TRAINING_COMPLETE (R488). DRAM training of both channels completes, or fails. -/
  | trainingComplete (r0 : Option (Nat × Nat)) (r1 : Option (Nat × Nat))
  /-- TRAINING_RETRY (R489). 100 ms after a training failure the channel is trained once more; a second failure stops
  boot until reset. -/
  | trainingRetry (r0 : Option (Nat × Nat)) (r1 : Option (Nat × Nat))
  /-- IMAGE_APPLY (R569). The preferred copy's body has been read; it is hashed, checked record by record and applied,
  or the other candidate is tried. -/
  | imageApply
  /-- AUDIO_START (R550). Audio starts at the tick of the agreed first block, or a joining unit starts its grid at the
  partner's named block and enters RESYNC. -/
  | audioStart
  /-- NO_PARTNER_TIMEOUT (R307). No heartbeat frame arrives within 1.0 s of reset release, so the unit has no partner
  and goes ALONE. -/
  | noPartnerTimeout
  /-- HELLO_TIMEOUT (R551). A waiting unit has no completed handshake 2.0 s after its step 9 ends; it enters ALONE and
  starts at its own proposal. -/
  | helloTimeout
  /-- WDT_KICK (R545). SV writes 0x0000_5AC3 to PSEQ.WDT_KICK and the watchdog restarts. -/
  | wdtKick
  /-- WATCHDOG_EXPIRY (R545). The watchdog expires; an acting unit releases TOKEN at once and the device resets. -/
  | watchdogExpiry
  /-- THERMAL_WARN (R546). The junction crosses 100 C upward, which sets THERMAL_WARN, or falls below 97 C, which clears
  it. -/
  | thermalWarn (temp : Int)
  /-- THERMAL_SHUTDOWN (R546). The junction reaches 125 C; an acting unit releases the token and the device resets until
  the junction is below 100 C. -/
  | thermalShutdown
  /-- BLOCK_TICK (R24). The media clock reaches the tick of the next block; the block number advances by one and the
  delay lists, merges and tick-bound actions run. -/
  | blockTick (env : TickEnv)
  /-- SUB_BLOCK_BOUNDARY (R244). A sub-block boundary passes and the delay-list entries keyed to it are handed to their
  owners. -/
  | subBlockBoundary (cycles : Nat) (adc : List AdcIn)
  /-- LATCHED_READ (R537). A read of the low word of a wide register latches its other words from the same source cycle
  into the reading master's latch. -/
  | latchedRead (master : Nat) (addr : Word)
  /-- COUNTER_READ_CLEAR (R17). A read of an RC register returns its value and clears it to its reset value in the same
  access. -/
  | counterReadClear (master : Nat) (addr : Word)
  /-- W1C_WRITE (R17). A write to a W1C register clears each bit written as 1. -/
  | w1cWrite (master : Nat) (addr : Word) (value : Word)
  /-- REGISTER_WRITE (R17). A write to a register that has no row of its own takes effect under its access code, with
  reserved bits handled under R18. -/
  | registerWrite (master : Nat) (addr : Word) (data : WriteData)
  /-- LAY_DATA_READ (R104). A read of PAN.LAY_DATA returns the stored LAYOUT body word and advances PAN.LAY_ADDR by 4.
  -/
  | layDataRead (master : Nat)
  /-- MEM_DATA_READ (R299). A read of EC.MEM_DATA returns the effect-core memory word at EC.MEM_ADDR and advances the
  address by 1. -/
  | memDataRead (master : Nat) (core : Nat)
  /-- SHEET_DATA_READ (R601). A read of CTL.SHEET_DATA returns the contact-sheet word at CTL.SHEET_ADDR and adds 4. -/
  | sheetDataRead (master : Nat)
  /-- FX_REGISTER_WRITE (R153). A write to an FX register goes into the open staged set for the instance currently
  selected, and is mirrored to the twin. -/
  | fxRegisterWrite (master : Nat) (addr : Word) (value : Word)
  /-- NODE_GAIN_WRITE (R153). A write of XP.NODE_GAIN stages a node word from the selected lane and bus, the written
  gain, XP.RAMP_CTRL.LEN and NO_COUNT. -/
  | nodeGainWrite (master : Nat) (value : Word)
  /-- KF_PUSH (R94). Writing 1 to OBJ.KF_PUSH appends the staged keyframe record to the staged set, or overflows it at
  the 65th push. -/
  | kfPush (master : Nat)
  /-- FIX_COMMIT (R157). Writing 1 to FIX.COMMIT.COMMIT requests a fix for the block in FIX.BLOCK_LO and FIX.BLOCK_HI.
  -/
  | fixCommit (master : Nat)
  /-- FIX_DISCARD (R156). Writing 1 to FIX.COMMIT.DISCARD empties the open staged set and clears OVERFLOW. -/
  | fixDiscard (master : Nat)
  /-- FIX_REGISTER (R158). At the first block tick after a fix request, it is registered, checked, sealed with the
  staged set and relayed, and a new staged set opens. -/
  | fixRegister
  /-- FIX_ACT (R162). A registered fix comes due at its acting block and its values take effect in every section of that
  block. -/
  | fixAct
  /-- INSTANCE_DISPATCH (R246). A ready instance is dispatched to a free unit of its class, or placed on an effect core
  by interrupt or pre-emption. -/
  | instanceDispatch (cls : Nat) (time : Nat)
  /-- INSTANCE_COMPLETE (R291). An instance's unit finishes its work and the results are held in the release buffer. -/
  | instanceComplete (node : Nat) (work : List Nat)
  /-- INSTANCE_RELEASE (R240). A completed instance is released once all lower-SEQ members of its flow are released, and
  its successors become ready. -/
  | instanceRelease (node : Nat) (time : Nat)
  /-- DEADLINE_MISS (R250). An instance is not released by its deadline and is abandoned; OVERLOAD is set and the miss
  is counted. -/
  | deadlineMiss (node : Nat) (work : List Nat) (missing : List (Nat × Nat × Nat))
  /-- NOP (R276). Compute operation NOP issues with no effect beyond its move slots. -/
  | nop (core : Nat) (env : EcEnv)
  /-- ADD (R279). Compute operation ADD adds two d registers, saturating when S is set. -/
  | add (core : Nat) (env : EcEnv)
  /-- SUB (R279). Compute operation SUB subtracts two d registers, saturating when S is set. -/
  | sub (core : Nat) (env : EcEnv)
  /-- ADDI (R279). Compute operation ADDI adds a signed immediate to a d register. -/
  | addi (core : Nat) (env : EcEnv)
  /-- AND (R273). Compute operation AND forms the bitwise and of two d registers. -/
  | and (core : Nat) (env : EcEnv)
  /-- OR (R273). Compute operation OR forms the bitwise or of two d registers. -/
  | or (core : Nat) (env : EcEnv)
  /-- XOR (R273). Compute operation XOR forms the bitwise exclusive or of two d registers. -/
  | xor (core : Nat) (env : EcEnv)
  /-- ASR (R273). Compute operation ASR shifts a d register right arithmetically, truncating. -/
  | asr (core : Nat) (env : EcEnv)
  /-- LSL (R279). Compute operation LSL shifts a d register left, saturating when S is set. -/
  | lsl (core : Nat) (env : EcEnv)
  /-- LSR (R273). Compute operation LSR shifts a d register right logically. -/
  | lsr (core : Nat) (env : EcEnv)
  /-- ABS (R279). Compute operation ABS takes the magnitude of a d register. -/
  | abs (core : Nat) (env : EcEnv)
  /-- NEG (R279). Compute operation NEG negates a d register. -/
  | neg (core : Nat) (env : EcEnv)
  /-- MIN (R273). Compute operation MIN takes the signed minimum of two d registers. -/
  | min (core : Nat) (env : EcEnv)
  /-- MAX (R273). Compute operation MAX takes the signed maximum of two d registers. -/
  | max (core : Nat) (env : EcEnv)
  /-- CMP (R273). Compute operation CMP sets sr.EQ and sr.LT from two d registers. -/
  | cmp (core : Nat) (env : EcEnv)
  /-- MOV (R273). Compute operation MOV copies a d register. -/
  | mov (core : Nat) (env : EcEnv)
  /-- MUL (R279). Compute operation MUL writes the exact product of two d registers to an accumulator. -/
  | mul (core : Nat) (env : EcEnv)
  /-- MAC (R279). Compute operation MAC adds the product of two d registers to an accumulator. -/
  | mac (core : Nat) (env : EcEnv)
  /-- MSU (R279). Compute operation MSU subtracts the product of two d registers from an accumulator. -/
  | msu (core : Nat) (env : EcEnv)
  /-- CLRA (R273). Compute operation CLRA clears an accumulator. -/
  | clra (core : Nat) (env : EcEnv)
  /-- ADDA (R279). Compute operation ADDA adds one accumulator to another. -/
  | adda (core : Nat) (env : EcEnv)
  /-- SHA (R280). Compute operation SHA shifts an accumulator left, or right with half-up rounding. -/
  | sha (core : Nat) (env : EcEnv)
  /-- RND (R280). Compute operation RND stores an accumulator into a d register rounded half-up by k bits. -/
  | rnd (core : Nat) (env : EcEnv)
  /-- LDA (R273). Compute operation LDA loads an accumulator from a sign-extended, shifted d register. -/
  | lda (core : Nat) (env : EcEnv)
  /-- MAXS (R274). Compute operation MAXS keeps a running maximum and its index. -/
  | maxs (core : Nat) (env : EcEnv)
  /-- MINS (R274). Compute operation MINS keeps a running minimum and its index. -/
  | mins (core : Nat) (env : EcEnv)
  /-- MAXAS (R274). Compute operation MAXAS keeps a running maximum magnitude and its index. -/
  | maxas (core : Nat) (env : EcEnv)
  /-- MOVC (R270). Compute operation MOVC reads a control register into a d register. -/
  | movc (core : Nat) (env : EcEnv)
  /-- MOVTC (R270). Compute operation MOVTC writes a d register to a control register. -/
  | movtc (core : Nat) (env : EcEnv)
  /-- LDI (R270). A format-B bundle writes its 32-bit immediate to the named register. -/
  | ldi (core : Nat) (env : EcEnv)
  /-- CNOP (R275). Control operation CNOP issues with no control effect. -/
  | cnop (core : Nat) (env : EcEnv)
  /-- BR (R275). Control operation BR continues at TARGET when COND holds, after two delay slots. -/
  | br (core : Nat) (env : EcEnv)
  /-- CALL (R275). Control operation CALL sets lr and continues at TARGET when COND holds, after two delay slots. -/
  | call (core : Nat) (env : EcEnv)
  /-- RET (R275). Control operation RET continues at lr when COND holds, after two delay slots. -/
  | ret (core : Nat) (env : EcEnv)
  /-- LOOP (R275). Control operation LOOP starts a hardware loop at a level for d[REG] iterations. -/
  | loop (core : Nat) (env : EcEnv)
  /-- LBRK (R275). Control operation LBRK ends the loop at the named level. -/
  | lbrk (core : Nat) (env : EcEnv)
  /-- BMOV (R282). Control operation BMOV starts a block move, stalling at a fifth outstanding move. -/
  | bmov (core : Nat) (env : EcEnv)
  /-- WAITM (R278). Control operation WAITM stalls until every block move of the instance has completed. -/
  | waitm (core : Nat) (env : EcEnv)
  /-- DONE (R291). Control operation DONE ends the instance after its delay slots, writes and block moves. -/
  | done (core : Nat) (env : EcEnv)
  /-- BLOCK_MOVE_COMPLETE (R284). A block move completes, releasing any interlocked load or store and any WAITM stall.
  -/
  | blockMoveComplete (core : Nat) (bank : Nat) (index : Nat)
  /-- SPK_MUTE (R184). A write of SPK.MUTE requests a mute or unmute of the selected chain with a ramp and acting time.
  -/
  | spkMute (master : Nat) (value : Word)
  /-- SAP_HOLD (R442). A write of SAP.P_HOLD requests an output or input hold or release of the selected port. -/
  | sapHold (master : Nat) (value : Word)
  /-- TG_PAUSE (R222). A write of MEAS.TG_PAUSE requests a pause or resume of the selected tone generator. -/
  | tgPause (master : Nat) (value : Word)
  /-- REQUEST_REGISTER (R32). At the first tick after a mute, hold or pause request, it is registered, entered in DL1 at
  its acting boundary and relayed. -/
  | requestRegister
  /-- REQUEST_ACT (R35). A DL1 request comes due at its boundary and starts its ramp or hold. -/
  | requestAct
  /-- STOP_CMD_STOP (R255). SCHED.STOP_CMD.STOP requests a stop bath of the function in SCHED.STOP_TARGET. -/
  | stopCmdStop (master : Nat) (timed : Bool)
  /-- STOP_CMD_START (R259). SCHED.STOP_CMD.START requests a START of the function in SCHED.STOP_TARGET. -/
  | stopCmdStart (master : Nat) (timed : Bool)
  /-- STOP_REGISTER (R255). At the first tick after a stop-bath or START request, it is checked, registered in DL3 at
  its acting block and relayed. -/
  | stopRegister
  /-- STOP_BATH_ACT (R256). A stop bath acts at its tick and fades the function's window to zero. -/
  | stopBathAct
  /-- STOP_CLEAR (R257). In the block after the fade, the function is not dispatched and its state is cleared and queues
  flushed. -/
  | stopClear
  /-- STOP_DONE (R258). At the tick of a+2 the function becomes IDLE and EV_STOP_DONE is raised. -/
  | stopDone
  /-- START_ACT (R260). A START acts on an IDLE function, which resumes from its cleared state with a one-block fade-in.
  -/
  | startAct
  /-- CROSSFADE_END (R214). A filter crossfade reaches K_x + L and the old slot leaves the chain. -/
  | crossfadeEnd (chain : Nat)
  /-- TG_START (R221). A tone generator's run starts at its start block with phase 0. -/
  | tgStart (gen : Nat)
  /-- SWEEP_START (R220). The next sweep of a LOG_SWEEP run starts from phase 0 and the initial increment. -/
  | sweepStart (gen : Nat)
  /-- CAPTURE_START (R226). Capture begins writing frames at frame m0. -/
  | captureStart
  /-- CAPTURE_END (R226). A ONE_SHOT capture has written its last frame and sets DONE. -/
  | captureEnd
  /-- CONV_LOAD_DATA (R210). A write of CONV.LOAD_DATA stores a word into the selected slot at once, or is dropped for a
  slot in use. -/
  | convLoadData (master : Nat) (value : Word)
  /-- CONV_LOAD_COMMIT (R211). Writing 1 to CONV.LOAD_COMMIT stages the load of the selected slot into the open staged
  set. -/
  | convLoadCommit (master : Nat)
  /-- DECONV_GO (R228). Writing 1 to MEAS.DECONV_GO starts the deconvolution job at MEAS.DECONV_DESC. -/
  | deconvGo (master : Nat)
  /-- DECONV_JOB_DONE (R228). A deconvolution job finishes and writes its STATUS and SHIFT. -/
  | deconvJobDone (shift : Nat) (saturated : Bool)
  /-- TWIN_LINK_UP (R301). Both twin-link lanes have received 1,024 valid characters and are deskewed, so the link is
  up. -/
  | twinLinkUp
  /-- TWIN_LINK_DOWN (R301). Eight consecutive code errors or loss of signal bring the twin link down. -/
  | twinLinkDown (lane0 : Bool) (lane1 : Bool)
  /-- LINK_LOSS_RESYNC (R334). At the first tick after link loss a non-divergent LATENT unit goes to RESYNC and stops
  emitting. -/
  | linkLossResync
  /-- LINK_RESEND_TIMEOUT (R303). A reliable frame goes 50 us without acknowledgement and is resent go-back-N. -/
  | linkResendTimeout
  /-- LEASE_FRAME (R314). A LEASE frame is received on the twin link; a valid renewal resets the lease count. -/
  | leaseFrame (frame : List Byte) (safe : Nat)
  /-- ADC_SUB_FRAME (R328). A forwarded sub-block of the holder's ADC samples is received. -/
  | adcSubFrame (frame : List Byte)
  /-- SLICE_FRAME (R337). A slice part of recursive state is received from the holder. -/
  | sliceFrame (frame : List Byte)
  /-- HASH_FRAME (R332). A HASH frame is received and a block with both hash frames is compared. -/
  | hashFrame (frame : List Byte)
  /-- STAGE_MIRROR_FRAME (R325). Mirror entries of the holder's staged writes are received and added to the mirrored
  set. -/
  | stageMirrorFrame (frame : List Byte)
  /-- FIX_SEAL_FRAME (R325). A fix seal is received and checked against the mirrored set; a match registers the fix, a
  mismatch puts the unit in SUSPECT. -/
  | fixSealFrame (frame : List Byte) (firstHalf : Bool)
  /-- REQ_RELAY_FRAME (R327). A relayed request, alignment or slip is received and entered at its boundary, late ones
  with a lapse. -/
  | reqRelayFrame (frame : List Byte)
  /-- HEALTH_FRAME (R344). The partner's health record is received and stored in TWIN.PEER_HEALTH. -/
  | healthFrame (frame : List Byte)
  /-- BULK_PIECE_FRAME (R335). A closed-form state piece with its capture block is received and assembled. -/
  | bulkPieceFrame (frame : List Byte)
  /-- NAK_FRAME (R303). A NAK is received and reliable frames from the expected SEQ are resent. -/
  | nakFrame (frame : List Byte)
  /-- HELLO (R308). A CONTROL HELLO is received and the handshake decides roles, compatibility and the first block. -/
  | hello (frame : List Byte)
  /-- HELLO_REPLY (R550). A CONTROL HELLO_REPLY is received, naming the join block for a joining unit. -/
  | helloReply (frame : List Byte)
  /-- HANDOVER (R320). A CONTROL HANDOVER naming h is received and acknowledged by the partner. -/
  | handover (frame : List Byte)
  /-- HANDOVER_ACK (R320). A CONTROL HANDOVER_ACK is received by the acting unit. -/
  | handoverAck (frame : List Byte)
  /-- RELEASE (R317). A CONTROL RELEASE is received; the partner begins to act at the named block. -/
  | release (frame : List Byte)
  /-- TAKEBACK (R343). A CONTROL TAKEBACK is received; the holder answers with a hand-over at c+8 or refuses. -/
  | takeback (frame : List Byte)
  /-- TAKEBACK_REFUSED (R343). A CONTROL TAKEBACK_REFUSED is received by the home unit. -/
  | takebackRefused (frame : List Byte)
  /-- EMIT (R324). A CONTROL EMIT is received, naming a block from which emission moves. -/
  | emit (frame : List Byte)
  /-- RESYNC_REQUEST (R334). A CONTROL RESYNC_REQUEST asks the holder to begin the bulk phase. -/
  | resyncRequest (frame : List Byte)
  /-- BULK_END (R335). A CONTROL BULK_END gives the number of pieces sent. -/
  | bulkEnd (frame : List Byte)
  /-- DIVERGENT (R346). A CONTROL DIVERGENT message enters or leaves declared-divergent mode. -/
  | divergent (frame : List Byte)
  /-- HEARTBEAT_FRAME (R305). A heartbeat frame is received; a valid renewal resets the lease count and its flags are
  noted. -/
  | heartbeatFrame (word : BitVec 64) (safe : Nat)
  /-- HEARTBEAT_TIMER (R305). While audio is not running, a heartbeat frame is sent every 21,333 SAFE cycles. -/
  | heartbeatTimer (safe : Nat)
  /-- LEASE_EXPIRY (R315). A standby unit's lease count reaches TWIN.LEASE_LIMIT. -/
  | leaseExpiry
  /-- TAKEOVER (R315). At the first tick after lease expiry the standby unit takes the token and begins to act. -/
  | takeover
  /-- OWN_LEASE_GUARD (R312). An acting unit's own last renewal is older than the guard, so it releases TOKEN and stops
  acting. -/
  | ownLeaseGuard
  /-- TWIN_CMD_RELEASE (R317). TWIN.CMD.RELEASE makes the acting unit release the token. -/
  | twinCmdRelease (master : Nat)
  /-- TWIN_CMD_HANDOVER (R319). TWIN.CMD.HANDOVER requests a hand-over at the block in TWIN.HANDOVER_LO and
  TWIN.HANDOVER_HI. -/
  | twinCmdHandover (master : Nat)
  /-- TWIN_CMD_RESTART (R346). TWIN.CMD.RESTART restarts the unit from NVM, a holder with a LATENT partner releasing
  first. -/
  | twinCmdRestart (master : Nat)
  /-- TWIN_CMD_RESYNC (R338). TWIN.CMD.RESYNC restarts resync from the bulk phase. -/
  | twinCmdResync (master : Nat)
  /-- HANDOVER_REGISTER (R319). At the first tick after a hand-over request it is checked, refused or accepted and
  CONTROL HANDOVER is sent. -/
  | handoverRegister
  /-- HANDOVER_COMMIT (R320). At the tick of h-1 the holder sets FLAGS.HANDOVER if acknowledged, or cancels. -/
  | handoverCommit
  /-- HANDOVER_SWITCH (R320). At the tick of h the old holder stops acting and the partner begins if it saw
  FLAGS.HANDOVER. -/
  | handoverSwitch
  /-- EMISSION_CHANGE (R324). At block e, packets from index Be move between the units' network legs. -/
  | emissionChange
  /-- HASH_COMPARE_TIMEOUT (R331). A block whose peer hash frame is absent at n + SEAL_BLOCKS + 2 is not compared. -/
  | hashCompareTimeout
  /-- BULK_INSTALL (R335). At the first tick after the last piece is replayed, the standby replaces its closed-form
  state. -/
  | bulkInstall
  /-- SETTLE_EXPIRY (R336). A resync settle wait of SETTLE_k or OUT_SETTLE blocks ends. -/
  | settleExpiry
  /-- SLICE_INSTALL (R337). A whole slice is installed at block s before its units' block-s instances are dispatched. -/
  | sliceInstall
  /-- SLICE_TIMEOUT (R337). A slice has not arrived whole by 1/8 of the block period, so it is discarded and retried at
  s+1. -/
  | sliceTimeout
  /-- SELF_TEST_DONE (R339). The SUSPECT self-test completes; a pass enters RESYNC, a failure stays SUSPECT. -/
  | selfTestDone (bist : Bool) (clocks : Bool)
  /-- HEALTH_SEND (R344). After each second of SAFE time the unit sends its health record at the next block tick. -/
  | healthSend
  /-- SPARE_ROW_TEST (R345). Once per second a standby unit self-tests one spare SRAM row. -/
  | spareRowTest (pass : Bool)
  /-- TAKEBACK_HOLDOFF (R343). A home unit has been LATENT for HOLDOFF seconds and sends CONTROL TAKEBACK. -/
  | takebackHoldoff
  /-- FRAME_RECEIVE (R363). A frame on a media port is classified into a queue, admitted under its quota and stored with
  its length word. -/
  | frameReceive (port : Nat) (frame : List Byte) (codeError : Bool) (poison : Bool) (offset : Nat) (stamp : Nat)
  /-- NET_LINK_CHANGE (R350). A port's link goes down or comes up. -/
  | netLinkChange (port : Nat) (up : Bool) (line : LineIn)
  /-- TX_PACKET_SEND (R385). A transmit packet's due instant passes and it is sent in due order on each emitted leg. -/
  | txPacketSend (port : Nat)
  /-- LPI_ENTER (R356). MGMT's transmit path has been idle for LPI_IDLE and signals LPI. -/
  | lpiEnter
  /-- LPI_WAKE (R356). A frame queued during LPI is sent once the wake time Tw has passed. -/
  | lpiWake
  /-- PTP_ANNOUNCE (R395). An Announce message is received and used by the best master clock algorithm. -/
  | ptpAnnounce (port : Nat)
  /-- PTP_SYNC (R395). A Sync message is received and timestamped for the offset estimate. -/
  | ptpSync (port : Nat)
  /-- PTP_FOLLOW_UP (R395). A Follow_Up message completes a two-step Sync measurement. -/
  | ptpFollowUp (port : Nat)
  /-- PTP_DELAY_REQ (R395). A Delay_Req message is received by a leader and answered. -/
  | ptpDelayReq (port : Nat)
  /-- PTP_DELAY_RESP (R395). A Delay_Resp message is received and completes a path-delay measurement. -/
  | ptpDelayResp (port : Nat)
  /-- SYNC_SEND (R396). A leader sends one-step Sync at its interval with originTimestamp written on the fly. -/
  | syncSend (dom : Nat) (stamp : Nat)
  /-- ANNOUNCE_SEND (R409). A leader sends Announce at its interval. -/
  | announceSend (dom : Nat)
  /-- DELAY_REQ_SEND (R403). A follower sends Delay_Req at its delay-request interval. -/
  | delayReqSend (dom : Nat) (stamp : Nat)
  /-- ANNOUNCE_TIMEOUT (R403). The announce receipt timeout expires and the domain leaves QUALIFIED. -/
  | announceTimeout (dom : Nat)
  /-- SYNC_TIMEOUT (R403). Four Sync intervals pass without a measurement, or 16 delay-request intervals without a path
  delay, and the domain leaves QUALIFIED. -/
  | syncTimeout (dom : Nat)
  /-- EPOCH_HALF_ENTER (R393). CNT enters a half whose epoch entry may be unarmed; the hardware loads the expected value
  and flags STALE. -/
  | epochHalfEnter (cycles : Nat)
  /-- EPOCH_WRITE (R393). A write of PTP.EPOCH0 or PTP.EPOCH1 arms the entry, or is ignored with BAD_WRITE. -/
  | epochWrite (master : Nat) (entry : Nat) (value : Word)
  /-- INC_WRITE (R389). A write of PTP.INC_FRAC makes the new INC take effect at the next TIME cycle. -/
  | incWrite (master : Nat) (value : Word)
  /-- PTP_STEP (R391). PTP.STEP_CMD.STEP steps the time counter before audio, or is refused and counted. -/
  | ptpStep (master : Nat)
  /-- PPS_EDGE (R410). An edge of the selected polarity on PPS_IN is timestamped and counted towards qualification. -/
  | ppsEdge (stamp : Nat)
  /-- PPS_TIMEOUT (R410). 2.0 s pass without a PPS_IN edge, so PPS_IN is lost. -/
  | ppsTimeout
  /-- SERIAL_FRAME (R434). A serial frame starts; it takes its media sample index with slip correction and its words are
  received or sent. -/
  | serialFrame (group : Nat) (time : Int) (bclks : Nat) (words : List Nat)
  /-- FRAME_ABSENT_TIMEOUT (R438). No frame starts within 2.5 C MEDIA cycles of the previous, which is a clock fault. -/
  | frameAbsentTimeout (group : Nat)
  /-- RATE_WINDOW_END (R436). A 16-block rate window ends and F and D are reported, with RATE_HIGH and rate faults
  decided. -/
  | rateWindowEnd (group : Nat)
  /-- SAP_ALIGN (R433). At the first tick after stability, a follower clock group aligns and assigns the first frame's
  index. -/
  | sapAlign (group : Nat) (time : Int)
  /-- COMPLIANCE_CHECK (R465). Once per millisecond each bound DAC is checked for OPEN and OVER. -/
  | complianceCheck (dac : Nat) (flow : Bool) (microamps : Nat) (millivolts : Int)
  /-- COMPLIANCE_MUTE_END (R465). 100 ms after a compliance condition clears, the DAC output stage resumes. -/
  | complianceMuteEnd (dac : Nat)
  /-- MIC_MEASURE (R466). Once per millisecond the headset port measures R_mic. -/
  | micMeasure (port : Nat) (ohms : Nat)
  /-- HS_DET_CHANGE (R467). HSn_DET changes between plug and no plug. -/
  | hsDetChange (port : Nat) (plug : Bool)
  /-- HS_INSERT_CONFIRM (R467). HSn_DET has shown a plug for 100 ms and an insertion is confirmed. -/
  | hsInsertConfirm (port : Nat)
  /-- HS_REMOVE_CONFIRM (R467). HSn_DET has shown no plug for 10 ms and a removal is confirmed. -/
  | hsRemoveConfirm (port : Nat)
  /-- HS_CLASSIFY_END (R467). The 50 ms classification after insertion ends and the accessory type is set. -/
  | hsClassifyEnd (port : Nat)
  /-- HS_BUTTON_FADE (R470). With MUTE_ON_BUTTON, at the tick after a press or release the ADC lane fades out or in. -/
  | hsButtonFade (port : Nat)
  /-- HS_OUTPUT_RESUME (R471). At the first tick after a confirmed insertion the headphone DAC output resumes. -/
  | hsOutputResume (port : Nat)
  /-- AMP_CURRENT_LIMIT (R476). The current limit cuts a PWM pulse short and the consecutive limited-cycle count
  advances. -/
  | ampCurrentLimit (amp : Nat) (previous : Bool)
  /-- AMP_RETRY_WAIT_END (R477). The 100 ms hiccup wait after a trip ends. -/
  | ampRetryWaitEnd (amp : Nat)
  /-- AMP_RESUME (R477). At the next tick the class-D channel resumes from 50 % duty. -/
  | ampResume (amp : Nat)
  /-- AMP_CLEAN_SECOND (R477). A channel runs 1.0 s without a trip and its try count returns to 0. -/
  | ampCleanSecond (amp : Nat)
  /-- AMP_DC_WINDOW (R478). A 50 ms window of the differential output average ends; two windows above 2.0 V latch the
  channel. -/
  | ampDcWindow (amp : Nat) (millivolts : Int)
  /-- AMP_CLEAR (R479). AMP.CMD.CLEAR resets the try count and resumes a latched channel at the next tick. -/
  | ampClear (master : Nat)
  /-- PVDD_LOW (R627). PVDD falls below 11.0 V and both class-D channels go to high impedance. -/
  | pvddLow
  /-- PVDD_RECOVER (R627). PVDD has stayed above 11.5 V for 10 ms and the channels resume at the next tick. -/
  | pvddRecover
  /-- REFRESH_DUE (R491). A rank's refresh interval expires and a refresh is issued or postponed within its limit. -/
  | refreshDue (channel : Nat) (rank : Nat) (waiting : Bool) (offsets : List Int)
  /-- ZQ_CALIBRATION (R490). Every ZQ_MS milliseconds ZQCS is issued to each rank after a refresh. -/
  | zqCalibration (channel : Nat)
  /-- DRAM_HOT_CHANGE (R492). DRAM_HOT changes level and the refresh mode is judged again. -/
  | dramHotChange (low : Bool)
  /-- DRAM_TEMP_READ (R492). Every 100 ms the supervisor reads the I2C temperature sensor and judges the refresh mode.
  -/
  | dramTempRead (reading : Option Int)
  /-- PARITY_ALERT (R496). ALERT_n signals a command parity error and the retry buffer is replayed. -/
  | parityAlert (channel : Nat) (again : Bool)
  /-- ALERT_TIMEOUT (R497). ALERT_n stays low for more than 10 us and the channel fails. -/
  | alertTimeout (channel : Nat)
  /-- DRAM_READ_COMPLETE (R499). A DRAM read returns; single errors are corrected and uncorrectable words are read again
  or delivered poisoned. -/
  | dramReadComplete (addr : Nat) (port : Nat) (first : Nat) (second : Nat) (safe : Nat)
  /-- ECC_WRITE_BACK (R498). A corrected DRAM word is written back within 1 ms unless a requester writes it first. -/
  | eccWriteBack (addr : Nat)
  /-- SCRUB_READ (R506). The SRAM scrubber reads a word and corrects and writes back a correctable error. -/
  | scrubRead (array : Nat) (word : Nat) (first : Nat) (second : Nat) (last : Bool) (safe : Nat)
  /-- DRAM_SCRUB_READ (R508). The DRAM scrubber reads one 64-byte line every 256 ns on port 7. -/
  | dramScrubRead (errors : List (Nat × Nat × Nat)) (safe : Nat)
  /-- REMAP_WRITE (R512). A write of SYS.REMAP by SV switches the low window between boot ROM and working SRAM. -/
  | remapWrite (master : Nat) (value : Word)
  /-- DRAM_WINDOW_ACCESS (R514). An access at 0x8000_0000 + x reaches DRAM at the master's window base, host-region
  limited for the control-message engine. -/
  | dramWindowAccess (master : Nat) (offset : BitVec 31) (write : Bool) (data : WindowData)
  /-- GATE_WRITE (R534). SV writes a clock gate register, gating or ungating peripherals. -/
  | gateWrite (gate : Nat) (value : Word)
  /-- NVM_ERASE (R571). NVM.CMD OP 0b01 erases the 4 KiB sector holding PAGE, or is refused. -/
  | nvmErase (master : Nat) (page : BitVec 20)
  /-- NVM_PROGRAM (R571). NVM.CMD OP 0b10 programs the page buffer to PAGE, or is refused. -/
  | nvmProgram (master : Nat) (page : BitVec 20)
  /-- NVM_CHECK (R572). NVM.CMD OP 0b11 starts a CHECK of the copy holding PAGE. -/
  | nvmCheck (master : Nat) (page : BitVec 20)
  /-- NVM_OP_DONE (R572). A flash erase, program or CHECK completes and BUSY, FAIL and CHECK results are set. -/
  | nvmOpDone (fail : Bool)
  /-- NVM_DATA_WRITE (R571). A write of NVM.DATA stores the word in the page buffer and adds 4 to NVM.ADDR. -/
  | nvmDataWrite (master : Nat) (value : Word)
  /-- NVM_DATA_READ (R572). A read of NVM.DATA returns the flash word, or 0 where the control-message engine may not
  read, and adds 4. -/
  | nvmDataRead (master : Nat)
  /-- FAULT_LOG_WRITE (R575). The supervisor writes a fault-log entry within its rate, erasing a sector first when
  needed. -/
  | faultLogWrite (safe : Nat)
  /-- TCM_READ (R586). A TCM READ request reads COUNT words and is answered. -/
  | tcmRead
  /-- TCM_WRITE (R586). A TCM WRITE request writes COUNT words, staging FX writes. -/
  | tcmWrite
  /-- TCM_STAGE (R587). A TCM STAGE request appends node words to the open staged set. -/
  | tcmStage
  /-- TCM_FIX (R588). A TCM FIX request asks for a fix at a named block; its reply follows registration. -/
  | tcmFix
  /-- TCM_STOP_BATH (R588). A TCM STOP_BATH request asks for a stop bath of a target function. -/
  | tcmStopBath
  /-- TCM_START (R588). A TCM START request asks for a START of a target function. -/
  | tcmStart
  /-- SNAPSHOT_TAKE (R600). A TCM SNAPSHOT TAKE requests a contact sheet, or gets BUSY. -/
  | snapshotTake
  /-- SNAPSHOT_READ (R601). A TCM SNAPSHOT READ returns bytes of the latest contact sheet. -/
  | snapshotRead
  /-- TCM_HEALTH (R591). A TCM HEALTH request returns the own and partner health records. -/
  | tcmHealth
  /-- WRITE_FRAME (R581). An SPI WRITE_FRAME transaction delivers one TCM frame to the SPI input queue. -/
  | writeFrame (frame : List Byte)
  /-- READ_FRAME (R581). An SPI READ_FRAME transaction returns the oldest frame of the SPI output queue. -/
  | readFrame (clocked : Nat)
  /-- SNAPSHOT_REGISTER (R600). At the first tick after a TAKE, the contact sheet is registered for capture at the next
  tick. -/
  | snapshotRegister
  /-- SHEET_CAPTURE (R600). At the tick of k the contact sheet is captured and EV_SHEET_TAKEN is raised. -/
  | sheetCapture
  /-- EVC_SRC_WRITE (R598). A write of EVC.SRC sets the selected counter's source and enable and zeroes it. -/
  | evcSrcWrite (master : Nat) (value : Word)
  /-- EVC_SNAP (R599). EVC.CMD.SNAP requests a snapshot of all 64 counters at the next tick. -/
  | evcSnap (master : Nat)
  /-- EVC_CLEAR_SEL (R598). EVC.CMD.CLEAR_SEL sets the selected counter to 0 at once. -/
  | evcClearSel (master : Nat)
  /-- COUNTER_SNAPSHOT (R599). At tick k all counters are copied to their snapshot registers and CLEAR_ON_SNAP counters
  are cleared. -/
  | counterSnapshot
  /-- HEARTBEATS_MISSING (R307). An EXPOSED unit sees heartbeats from its partner missing on both paths for the lease
  term and goes to ALONE. -/
  | heartbeatsMissing
  /-- ALERT_N_RETURN (R496). ALERT_n returns high after a command parity error, and the controller precharges all banks
  and replays the retry buffer. -/
  | alertNReturn (channel : Nat)
  /-- THERMAL_RESET_RELEASE (R546). The junction of a device held in thermal reset falls below 100 C and the device may
  leave reset. -/
  | thermalResetRelease
  /-- LLDP_FRAME (R356). An LLDP frame arrives on MGMT and the supervisor negotiates the EEE transmit wake time Tw from
  its EEE TLV and reports it in NET.EEE. -/
  | lldpFrame (frame : List Byte)
deriving DecidableEq, Repr

end Sys2Proof
end

