-- ==== Sys2Proof/Decode.lean ====
section
/-!
DEFINITION. Commands as words. The operation table (opcode_table.json) gives no row any bits: the part is a block that takes
commands from its pins, links and clocks, so no word spells a command.
-/
namespace Sys2Proof

/-- The command that a word of the operation table's bits spells: none, since the table gives no row any bits. -/
def decodeTableWord (_nbits _w : Nat) : Option Instr := none

end Sys2Proof
end

