-- ==== Sys2Proof/Machine/Arith.lean ====
section
/-!
DEFINITION. Exact arithmetic of the audio and geometry rules: rounding and saturation (R37, R38), the sine table of R80,
roots and trigonometric comparisons, and the decibel laws evaluated on exact integers.
-/
namespace Sys2Proof.Machine

/-- Round-half-up by `k` bits (R37). -/
def rhuBits (k : Nat) (x : Int) : Int := if k = 0 then x else (x + 2 ^ (k - 1)) / 2 ^ k

/-- Convergent rounding by `k` bits: an exact tie goes to the even result (R37). -/
def convBits (k : Nat) (x : Int) : Int :=
  if k = 0 then x
  else
    let q := x / 2 ^ k
    let r := x % 2 ^ k
    let half : Int := 2 ^ (k - 1)
    if r < half then q else if half < r then q + 1 else if q % 2 = 0 then q else q + 1

/-- Saturation to an `n`-bit two's-complement range (R38). -/
def satBits (n : Nat) (x : Int) : Int :=
  if x < -(2 ^ (n - 1)) then -(2 ^ (n - 1)) else if x > 2 ^ (n - 1) - 1 then 2 ^ (n - 1) - 1 else x

/-- Saturation to a fabric sample, Q4.28 (R36). -/
def satSample (x : Int) : Int := satBits 32 x

/-- Saturation to a gain, Q3.21 (R36). -/
def satGain (x : Int) : Int := satBits 24 x

/-- rhu of R76: num / den rounded half-up, den > 0. -/
def rhu (num den : Int) : Int := (2 * num + den) / (2 * den)

/-- The value of an `n`-bit two's-complement pattern. -/
def signExt (n : Nat) (x : Nat) : Int :=
  let v := x % 2 ^ n
  if v < 2 ^ (n - 1) then (v : Int) else (v : Int) - 2 ^ n

/-- The `n`-bit pattern of a value. -/
def pattern (n : Nat) (x : Int) : Nat := (x % 2 ^ n).toNat

/-- Bits [hi:lo] of a word. -/
def bits (hi lo : Nat) (w : Nat) : Nat := (w >>> lo) % 2 ^ (hi + 1 - lo)

/-- Bit `b` of a word. -/
def bit (b : Nat) (w : Nat) : Bool := (w >>> b) % 2 = 1

/-- Integer square root by digits: the largest r with r² ≤ n, over `fuel` result bits. -/
def isqrtGo (n : Nat) : Nat → Nat → Nat
  | 0, r => r
  | k + 1, r =>
    let r' := r + 2 ^ k
    if r' * r' ≤ n then isqrtGo n k r' else isqrtGo n k r

/-- The largest r with r² ≤ n. -/
def isqrt (n : Nat) : Nat := isqrtGo n (Nat.log2 n / 2 + 1) 0

/-- √n rounded to the nearest integer: (2k − 1)² ≤ 4n < (2k + 1)² (R82). -/
def roundSqrt (n : Nat) : Nat := (isqrt (4 * n) + 1) / 2

/-- Working precision of the trigonometric evaluations, in fraction bits. -/
def trigBits : Nat := 160

/-- π in `trigBits` fraction bits. -/
def piFix : Int := 4591442807048218921384805199743311128454155024418

/-- One term after another of the alternating series with term(k+2) = −term(k)·x²/((k+1)(k+2)). -/
def trigSeries (x2 : Int) : Nat → Nat → Int → Int → Int
  | 0, _, _, acc => acc
  | n + 1, k, term, acc =>
    let t := -(term * x2 / 2 ^ trigBits) / (((k + 1) * (k + 2) : Nat) : Int)
    trigSeries x2 n (k + 2) t (acc + t)

/-- sin(num·π/den) with `trigBits` fraction bits, for an angle from 0 to π/2. -/
def sinFix (num den : Nat) : Int :=
  let x := piFix * num / den
  trigSeries (x * x / 2 ^ trigBits) 24 1 x x

/-- cos(num·π/den) with `trigBits` fraction bits, for an angle from 0 to π/2. -/
def cosFix (num den : Nat) : Int :=
  let x := piFix * num / den
  trigSeries (x * x / 2 ^ trigBits) 24 0 (2 ^ trigBits) (2 ^ trigBits)

/-- Entry j of the quarter-wave table of R80: round(sin(j·π/11520)·2²²), j from 0 to 5760. -/
def sinTable (j : Nat) : Int := rhuBits (trigBits - 22) (sinFix j 11520)

/-- S(a) of R103: sine of an angle in 1/64 degree, −11520 ≤ a ≤ 11520, with 22 fraction bits. -/
def sinU (a : Int) : Int :=
  let m := a.natAbs
  let v := if m ≤ 5760 then sinTable m else sinTable (11520 - m)
  if a < 0 then -v else v

/-- wrap of R115: an angle in 1/64 degree into −11520 to 11519. -/
def wrapAz (a : Int) : Int := (a + 11520) % 23040 - 11520

/-- C(a) of R103. -/
def cosU (a : Int) : Int := sinU (wrapAz (a + 5760))

/-- Largest t in [0, hi] with `p t`, for a predicate true up to some point, by binary search over `k` bits. -/
def searchMax (p : Nat → Bool) : Nat → Nat → Nat
  | 0, r => r
  | k + 1, r => if p (r + 2 ^ k) then searchMax p k (r + 2 ^ k) else searchMax p k r

/-- Nearest multiple of 1/64 degree to atan(opp/adj) for squares opp2, adj2 of the two legs, not both 0: the angle lies
at or above (2k − 1)/2 units exactly when opp²·cos² ≥ adj²·sin² there (R80: decided by comparison). -/
def atanSq (opp2 adj2 : Nat) : Nat :=
  searchMax (fun k => k ≤ 5760 &&
    decide (opp2 * (cosFix (2 * k - 1) 23040).natAbs ^ 2 ≥ adj2 * (sinFix (2 * k - 1) 23040).natAbs ^ 2)) 13 0

/-- Azimuth atan2(−x, y) in 1/64 degree of R80; 0 where x = y = 0; an azimuth of +11520 is written −11520. -/
def azimuthOf (x y : Int) : Int :=
  if x = 0 ∧ y = 0 then 0
  else
    let a : Int := atanSq (x * x).natAbs (y * y).natAbs
    let q : Int := if y < 0 then 11520 - a else a
    let r := if x > 0 then -q else q
    if r = 11520 then -11520 else r

/-- Elevation atan2(z, √(x² + y²)) in 1/64 degree of R80; 0 at the origin. -/
def elevationOf (x y z : Int) : Int :=
  if x = 0 ∧ y = 0 ∧ z = 0 then 0
  else
    let a : Int := atanSq (z * z).natAbs (x * x + y * y).natAbs
    if z < 0 then -a else a

/-- Lookup in a list with a default. -/
def nth {α : Type} (d : α) (l : List α) (i : Nat) : α := l.getD i d

/-- `f` applied over 0, 1, …, n − 1 in that order. -/
def loopN {α : Type} (n : Nat) (f : Nat → α → α) (a : α) : α := (List.range n).foldl (fun acc i => f i acc) a

/-- The sum of a list of integers. -/
def sumInt (l : List Int) : Int := l.foldl (· + ·) 0

/-- Little-endian value of bytes. -/
def le : List Nat → Nat
  | [] => 0
  | b :: t => b + 256 * le t

/-- Big-endian value of bytes. -/
def be (l : List Nat) : Nat := l.foldl (fun a b => a * 256 + b) 0

/-- Little-endian bytes of a value. -/
def leBytes : Nat → Nat → List Nat
  | 0, _ => []
  | n + 1, v => v % 256 :: leBytes n (v / 256)

/-- Big-endian bytes of a value. -/
def beBytes (n v : Nat) : List Nat := (leBytes n v).reverse

/-- `n` bytes from offset `o`; missing bytes are absent. -/
def slice (o n : Nat) (l : List Nat) : List Nat := (l.drop o).take n

/-- A PCM input word of `w` bits as a Q4.28 sample (R39). -/
def pcmIn (w : Nat) (v : Int) : Int := if w ≤ 29 then v * 2 ^ (29 - w) else rhuBits (w - 29) v

/-- A Q4.28 sample as a PCM output word of `w` bits (R40). -/
def pcmOut (w : Nat) (x : Int) : Int := satBits w (if w ≤ 29 then rhuBits (29 - w) x else x * 2 ^ (w - 29))

end Sys2Proof.Machine
end

