-- ==== Sys2Proof/Machine/State/Effect.lean ====
section
/-!
DEFINITION. State of the effect cores and the bundle format (chapter 08).
-/
namespace Sys2Proof.Machine

/-- A move slot (chapter 08, table "Move slot fields"). -/
structure MoveSlot where
  /-- 0 none, 1 load, 2 store, 3 address update only. -/
  kind : Nat
  reg : Nat
  /-- Address register within the slot's four, and modifier likewise. -/
  p : Nat
  m : Nat
  u : Nat
  disp : Int
deriving DecidableEq, Repr

/-- A compute slot (R273). -/
structure Compute where
  op : Nat
  sat : Bool
  d : Nat
  sa : Nat
  sb : Nat
  imm : Nat
deriving DecidableEq, Repr

/-- A control slot (R275). -/
structure Control where
  op : Nat
  cond : Nat
  reg : Nat
  target : Nat
deriving DecidableEq, Repr

/-- A decoded bundle (R273). -/
inductive Bundle where
  | a (c : Compute) (x y : MoveSlot)
  | b (code imm : Nat)
  | c (k : Control) (x y : MoveSlot)
  | illegal
deriving DecidableEq, Repr

/-- A load on its way to a d register: bundles left until it is visible (R276). -/
structure LoadWait where
  left : Nat
  reg : Nat
  val : BitVec 32
deriving DecidableEq, Repr

/-- An outstanding block move (R282). -/
structure BlockMove where
  ext : Nat
  yMem : Bool
  word : Nat
  len : Nat
  out : Bool
deriving DecidableEq, Repr

/-- An active hardware loop (R275). -/
structure LoopCtx where
  level : Nat
  first : Nat
  last : Nat
deriving DecidableEq, Repr

/-- One context of a core (R293). -/
structure EcCtx where
  node : Nat
  block : Nat
  sub : Nat
  prog : Nat
  /-- 0 BACKGROUND, 1 NORMAL, 2 URGENT. -/
  prio : Nat
  /-- Register bank of the context, 0 to 2 (R293). -/
  bank : Nat
  /-- d0 to d15, 32 bits each. -/
  d : List (BitVec 32)
  /-- Accumulators, 80 bits, signed value. -/
  acc : List Int
  /-- p0 to p7, 16 bits each; m0 to m7, 32 bits each. -/
  p : List Nat
  m : List Nat
  /-- sr.EQ, sr.LT and sr.SAT. -/
  eq : Bool
  lt : Bool
  sat : Bool
  /-- lr, 13 bits; lc0 and lc1, 16 bits; the address of the next bundle, 13 bits. -/
  lr : Nat
  lc0 : Nat
  lc1 : Nat
  pc : Nat
  /-- BM_EXT, 64 bits; BM_LOC and BM_LEN. -/
  bmExt : Nat
  bmLoc : Nat
  bmLen : Nat
  /-- FAB cycles since dispatch. -/
  cyc : Nat
  /-- FAB cycles since dispatch that the context ran, time pre-empted excluded. -/
  ran : Nat
  /-- Loads issued whose registers do not show them yet (R276). -/
  loads : List LoadWait
  /-- Delay slots owed and what follows them: a bundle address, or the end of the instance. -/
  delay : Option (Nat × Option Nat)
  /-- Active loops, the latest begun first. -/
  loops : List LoopCtx
  /-- Outstanding block moves, at most 4 (R283). -/
  moves : List BlockMove
  /-- OUTPUT and SCRATCH words stored by this instance: memory × 2^13 + word (R288). -/
  written : List Nat
  /-- The next bundle waits for a block move (R278). -/
  stalled : Bool
  /-- DONE and its delay slots have executed (R291). -/
  ended : Bool
deriving DecidableEq, Repr

/-- One effect core (R263, R293): the running context first, then the pre-empted ones, latest first. -/
structure EcCore where
  ctxs : List EcCtx
  last : Nat
  peak : Nat
  faultInfo : Nat
  faultPc : Nat
deriving DecidableEq, Repr

/-- A region of a program (R285). -/
structure EcRegion where
  yMem : Bool
  base : Nat
  len : Nat
  /-- 0 INPUT, 1 OUTPUT, 2 SCRATCH, 3 CONST, 4 PERSISTENT. -/
  kind : Nat
  /-- First source or lane of an INPUT or OUTPUT region; its source is the bus outputs. -/
  lane : Nat
  fromBus : Bool
  /-- Initial words of CONST and PERSISTENT. -/
  init : List Nat
deriving DecidableEq, Repr

/-- A program of the ECPROG record (R285). -/
structure EcProg where
  textAddr : Nat
  entry : Nat
  subBlock : Bool
  coreMask : Nat
  text : List Nat
  param : Nat
  grantBase : Nat
  grantLen : Nat
  regions : List EcRegion
deriving DecidableEq, Repr

/-- The effect cores. -/
structure Effect where
  /-- By core number. -/
  cores : Sparse EcCore
  /-- Data memories: core × 2^14 + memory × 2^13 + word. -/
  data : Sparse Nat
  /-- Program memories: core × 2^13 + bundle. -/
  text : Sparse Nat
  /-- Programs of the ECPROG record in effect (R285). -/
  progs : List EcProg
  /-- EC.PROG_ERR (R287). -/
  progErr : Nat
  /-- Words of the data memories that carry a poison mark, by the same keys (R269, R500). -/
  poison : List Nat
deriving DecidableEq, Repr

end Sys2Proof.Machine
end

