-- ==== Sys2Proof/Machine/Operands.lean ====
section
/-!
DEFINITION. Operand forms of the effect cores: bundle decoding (R273), effective addresses and address updates (R271, R272).
-/
namespace Sys2Proof.Machine

/-- A move slot from its 18 bits. -/
def decodeMove (w : Nat) : MoveSlot :=
  ⟨bits 17 16 w, bits 15 12 w, bits 11 10 w, bits 9 8 w, bits 7 6 w, signExt 6 (bits 5 0 w)⟩

/-- A bundle from its 64 bits (R273). Reserved operation codes are illegal bundles. -/
def decodeBundle (w : Nat) : Bundle :=
  let slot := bits 61 36 w
  let x := decodeMove (bits 35 18 w)
  let y := decodeMove (bits 17 0 w)
  match bits 63 62 w with
  | 0 =>
    let op := bits 25 20 slot
    if op ≤ 0x1C then
      .a ⟨op, bit 19 slot, bits 18 15 slot, bits 14 11 slot, bits 10 7 slot, bits 6 0 slot⟩ x y
    else .illegal
  | 1 => .b (bits 61 56 w) (bits 31 0 w)
  | 2 =>
    let op := bits 25 21 slot
    if op ≤ 0x08 then .c ⟨op, bits 20 17 slot, bits 16 13 slot, bits 12 0 slot⟩ x y else .illegal
  | _ => .illegal

/-- A move slot's 18 bits. -/
def encodeMove (s : MoveSlot) : Nat :=
  s.kind * 2 ^ 16 + s.reg * 2 ^ 12 + s.p * 2 ^ 10 + s.m * 2 ^ 8 + s.u * 2 ^ 6 + pattern 6 s.disp

/-- The 64 bits of a bundle (R273). -/
def encodeBundle : Bundle → Nat
  | .a c x y =>
    (c.op * 2 ^ 20 + bitIf c.sat 19 + c.d * 2 ^ 15 + c.sa * 2 ^ 11 + c.sb * 2 ^ 7 + c.imm) * 2 ^ 36
      + encodeMove x * 2 ^ 18 + encodeMove y
  | .b code imm => 2 ^ 62 + code * 2 ^ 56 + imm
  | .c k x y =>
    2 ^ 63 + (k.op * 2 ^ 21 + k.cond * 2 ^ 17 + k.reg * 2 ^ 13 + k.target) * 2 ^ 36 + encodeMove x * 2 ^ 18 + encodeMove y
  | .illegal => 3 * 2 ^ 62

/-- The signed 7-bit immediate. -/
def immSigned (imm : Nat) : Int := signExt 7 imm

/-- Effective address of a move slot (R271). -/
def effAddr (p : Nat) (disp : Int) : Nat := (((p : Int) + disp) % 65536).toNat

/-- The low k bits reversed (R272). -/
def revBits : Nat → Nat → Nat
  | 0, _ => 0
  | k + 1, v => (v % 2) * 2 ^ k + revBits k (v / 2)

/-- ceil(log2 n) for n ≥ 1. -/
def ceilLog2 (n : Nat) : Nat := if n ≤ 1 then 0 else Nat.log2 (n - 1) + 1

/-- The update of an address register by its modifier (R272); none where the modifier is not valid. -/
def updateBy (p m : Nat) : Option Nat :=
  let step := signExt 16 (bits 15 0 m)
  let len := bits 28 16 m
  match bits 30 29 m with
  | 0 => some (((p : Int) + step) % 65536).toNat
  | 1 =>
    if len = 0 then none
    else
      let k := ceilLog2 len
      let base := p / 2 ^ k * 2 ^ k
      some (base + ((((p - base : Nat) : Int) + step) % len).toNat)
  | 2 =>
    if 2 ≤ len ∧ len ≤ 4096 ∧ 2 ^ Nat.log2 len = len then
      let k := Nat.log2 len
      let base := p / 2 ^ k * 2 ^ k
      let o := p - base
      some (base + revBits k ((revBits k o + revBits k (pattern k step)) % 2 ^ k))
    else none
  | _ => none

/-- The update field of a move slot (R271). -/
def updateAddr (u p m : Nat) : Option Nat :=
  match u with
  | 0 => some p
  | 1 => updateBy p m
  | 2 => some ((p + 1) % 65536)
  | _ => some ((p + 65535) % 65536)

end Sys2Proof.Machine
end

