-- ==== Sys2Proof/Machine/Flags.lean ====
section
/-!
DEFINITION. Status, saturation and compute results of the effect cores (R270, R274, R279, R280).
-/
namespace Sys2Proof.Machine

/-- A result narrowed to `n` bits: saturated with S = 1, wrapped with S = 0; answers whether saturation changed it (R279). -/
def narrow (n : Nat) (s : Bool) (x : Int) : Int × Bool :=
  if s then (satBits n x, decide (satBits n x ≠ x)) else (signExt n (pattern n x), false)

/-- Shift of an accumulator: left if positive, right with half-up rounding if negative (R280). -/
def shiftAcc (a : Int) (k : Int) : Int := if 0 ≤ k then a * 2 ^ k.toNat else rhuBits (-k).toNat a

/-- sr as a word (chapter 08, table "sr fields"). -/
def srWord (c : EcCtx) : Nat :=
  bitIf c.eq 0 + bitIf c.lt 1 + bitIf c.sat 2 + bitIf (c.loops.any (fun l => decide (l.level = 0))) 3
    + bitIf (c.loops.any (fun l => decide (l.level = 1))) 4

/-- A condition code on the flags (chapter 08, table "Control slot fields"); reserved codes never hold. -/
def condHolds (cond : Nat) (c : EcCtx) : Bool :=
  match cond with
  | 0 => true
  | 1 => c.eq
  | 2 => !c.eq
  | 3 => c.lt
  | 4 => !c.lt
  | 5 => !c.lt && !c.eq
  | 6 => c.lt || c.eq
  | 7 => c.sat
  | _ => false

/-- d register, as a signed value. -/
def EcCtx.dr (c : EcCtx) (i : Nat) : Int := (c.d.getD i 0).toInt

/-- Accumulator. -/
def EcCtx.ar (c : EcCtx) (i : Nat) : Int := c.acc.getD (i % 4) 0

/-- A d register written. -/
def EcCtx.setD (c : EcCtx) (i : Nat) (v : Int) : EcCtx := { c with d := c.d.set i (BitVec.ofInt 32 v) }

/-- An accumulator written. -/
def EcCtx.setA (c : EcCtx) (i : Nat) (v : Int) : EcCtx := { c with acc := c.acc.set (i % 4) v }

/-- sr.SAT set when a saturation acted; it is sticky. -/
def EcCtx.noteSat (c : EcCtx) (b : Bool) : EcCtx := { c with sat := c.sat || b }

/-- A narrowed result written to a d register. -/
def EcCtx.putD (c : EcCtx) (s : Bool) (i : Nat) (v : Int) : EcCtx :=
  let (x, b) := narrow 32 s v
  (c.setD i x).noteSat b

/-- A narrowed result written to an accumulator. -/
def EcCtx.putA (c : EcCtx) (s : Bool) (i : Nat) (v : Int) : EcCtx :=
  let (x, b) := narrow 80 s v
  (c.setA i x).noteSat b

/-- Register of a code, as MOVC reads it (R270). -/
def readCode (c : EcCtx) (code : Nat) : Nat :=
  if 0x10 ≤ code ∧ code < 0x18 then c.p.getD (code - 0x10) 0
  else if 0x18 ≤ code ∧ code < 0x20 then c.m.getD (code - 0x18) 0
  else match code with
    | 0x20 => srWord c
    | 0x21 => c.lr
    | 0x22 => c.lc0
    | 0x23 => c.lc1
    | 0x24 => c.cyc % 2 ^ 32
    | 0x25 => c.bmExt % 2 ^ 32
    | 0x26 => c.bmExt / 2 ^ 32
    | 0x27 => c.bmLoc
    | 0x28 => c.bmLen
    | _ => 0

/-- A write through a register code (R270): read-only codes ignore it and reserved bits stay 0. `ldi` allows the
d registers and cannot clear sr.SAT, which only a MOVTC clears. -/
def writeCode (ldi : Bool) (c : EcCtx) (code v : Nat) : EcCtx :=
  if code < 0x10 then (if ldi then c.setD code v else c)
  else if code < 0x18 then { c with p := c.p.set (code - 0x10) (v % 65536) }
  else if code < 0x20 then { c with m := c.m.set (code - 0x18) (v % 2 ^ 31) }
  else match code with
    | 0x20 => { c with eq := bit 0 v, lt := bit 1 v, sat := bit 2 v || (ldi && c.sat) }
    | 0x21 => { c with lr := v % 8192 }
    | 0x25 => { c with bmExt := c.bmExt / 2 ^ 32 * 2 ^ 32 + v % 2 ^ 32 }
    | 0x26 => { c with bmExt := c.bmExt % 2 ^ 32 + (v % 2 ^ 32) * 2 ^ 32 }
    | 0x27 => { c with bmLoc := bitIf (bit 15 v) 15 + v % 8192 }
    | 0x28 => { c with bmLen := v % 8192 + bitIf (bit 16 v) 16 }
    | _ => c

/-- The effect of a compute slot on the context, sources read from `o`, the context as the bundle found it (R273, R274,
R279, R280). -/
def computeEffect (k : Compute) (o c : EcCtx) : EcCtx :=
  let a := o.dr k.sa
  let b := o.dr k.sb
  let u := fun i => (o.d.getD i 0)
  match k.op with
  | 0x01 => c.putD k.sat k.d (a + b)
  | 0x02 => c.putD k.sat k.d (a - b)
  | 0x03 => c.putD k.sat k.d (a + immSigned k.imm)
  | 0x04 => c.setD k.d (u k.sa &&& u k.sb).toInt
  | 0x05 => c.setD k.d (u k.sa ||| u k.sb).toInt
  | 0x06 => c.setD k.d (u k.sa ^^^ u k.sb).toInt
  | 0x07 => c.setD k.d (a / 2 ^ (k.imm % 32))
  | 0x08 => c.putD k.sat k.d (a * 2 ^ (k.imm % 32))
  | 0x09 => c.setD k.d ((u k.sa).toNat / 2 ^ (k.imm % 32) : Nat)
  | 0x0A => c.putD k.sat k.d a.natAbs
  | 0x0B => c.putD k.sat k.d (-a)
  | 0x0C => c.setD k.d (min a b)
  | 0x0D => c.setD k.d (max a b)
  | 0x0E => { c with eq := decide (a = b), lt := decide (a < b) }
  | 0x0F => c.setD k.d a
  | 0x10 => c.putA k.sat k.d (a * b)
  | 0x11 => c.putA k.sat k.d (o.ar k.d + a * b)
  | 0x12 => c.putA k.sat k.d (o.ar k.d - a * b)
  | 0x13 => c.setA k.d 0
  | 0x14 => c.putA k.sat k.d (o.ar k.d + o.ar k.sa)
  | 0x15 => c.putA k.sat k.d (shiftAcc (o.ar k.d) (immSigned k.imm))
  | 0x16 => c.putD k.sat k.d (rhuBits (k.imm % 64) (o.ar k.sa))
  | 0x17 => c.putA false k.d (a * 2 ^ (k.imm % 64))
  | 0x18 => if a > o.dr k.d then (c.setD k.d a).setD (k.d + 1) b else c
  | 0x19 => if a < o.dr k.d then (c.setD k.d a).setD (k.d + 1) b else c
  | 0x1A =>
    let m : Int := min a.natAbs (2 ^ 31 - 1)
    if m > o.dr k.d then (c.setD k.d m).setD (k.d + 1) b else c
  | 0x1B => c.setD k.d (readCode o (k.imm % 64))
  | 0x1C => writeCode false c (k.imm % 64) (u k.sa).toNat
  | _ => c

end Sys2Proof.Machine
end

