-- ==== Sys2Proof/Machine/State/Analog.lean ====
section
/-!
DEFINITION. State of the converters, the headset ports and the class-D stage (chapter 13).
-/
namespace Sys2Proof.Machine

/-- One ADC channel (R453 to R460). -/
structure AdcState where
  /-- State s of the DC blocker, signed 48 bits (R455). -/
  dc : Int
  /-- Blocker outputs of the block so far, latest first. -/
  blk : List Int
  /-- ADC.LEVEL_PEAK, ADC.LEVEL_RMS and ADC.LEVEL_COARSE, in 1/256 dB (R458 to R460). -/
  peak : Int
  rms : Int
  coarse : Int
  /-- STATUS.OVERLOAD and STATUS.SWITCHED. -/
  overload : Bool
  switched : Bool
  /-- An overload occurred in the block so far; the block before had one. -/
  ovNow : Bool
  ovRun : Bool
deriving DecidableEq, Repr

/-- Generator settings of a DAC from an output index on (R463). -/
structure GenVer where
  o0 : Int
  mode : Nat
  sweep : Bool
  inc : Nat
  step : Int
  stop : Nat
  amp : Int
  restart : Bool
deriving DecidableEq, Repr

/-- One DAC (R461 to R465). -/
structure DacState where
  phi : Nat
  inc : Nat
  /-- Settings by output index, oldest first. -/
  vers : List GenVer
  /-- State that a slice sets from an output index on: index, φ, inc (R337, R341). -/
  setAt : Option (Int × Nat × Nat)
  /-- Output indices whose samples were not in the queue at their edge (R461): first index and number. -/
  gaps : List (Nat × Nat)
  /-- OPEN and OVER were found at the latest check; hold now. -/
  openSeen : Bool
  overSeen : Bool
  openNow : Bool
  overNow : Bool
  /-- STATUS.OPEN_EV and STATUS.OVER_EV. -/
  openEv : Bool
  overEv : Bool
  /-- A condition has cleared less than 100 ms ago. -/
  tail : Bool
deriving DecidableEq, Repr

/-- One class-D channel (R472 to R479). -/
structure AmpState where
  tries : Nat
  waiting : Bool
  latched : Bool
  /-- High impedance since a trip, a latch or a low PVDD; a resume is due at the next block tick. -/
  off : Bool
  resume : Bool
  /-- Consecutive limited cycles. -/
  limited : Nat
  /-- Consecutive windows above 2.0 V. -/
  dcRun : Nat
  /-- STATUS.TRIP, STATUS.DC_FAULT and STATUS.CLIP. -/
  trip : Bool
  dcFault : Bool
  clip : Bool
  /-- A clip was counted in the current block. -/
  clipped : Bool
deriving DecidableEq, Repr

/-- One headset port (R466 to R471). -/
structure HsState where
  /-- HSn_DET shows a plug. -/
  det : Bool
  /-- STATE: 1 EMPTY, 2 INSERTING, 3 CLASSIFYING, 4 PLUGGED. -/
  st : Nat
  /-- TYPE: 0 NONE, 1 THREE_POLE, 2 FOUR_POLE, 3 MIC_FAULT. -/
  type : Nat
  /-- BUTTON: 0 none, 1 to 4. -/
  button : Nat
  /-- STATUS.INSERT, REMOVE, PRESS and TYPE_CHANGE (R467 to R470). -/
  insert : Bool
  remove : Bool
  press : Bool
  typeChange : Bool
  /-- HSD.MIC_OHMS, the latest R_mic (R466), 16 bits. -/
  ohms : Nat
  /-- Every measurement of the classification so far was below 100 Ω, was from 1,500 to 12,000 Ω; how many. -/
  allLow : Bool
  allFour : Bool
  classified : Nat
  /-- Consecutive measurements from 1,500 to 12,000 Ω, above 12,000 Ω, in a button window, at 1,500 Ω or above. -/
  fourRun : Nat
  highRun : Nat
  window : Nat
  windowRun : Nat
  upRun : Nat
  /-- The lane fade: 0 none, 1 a fade-out is due, 2 faded out or fading, 3 a fade-in is due. -/
  fadeDue : Nat
  /-- First lane sample of the latest fade, `true` for a fade-out. -/
  fade : Option (Nat × Bool)
  /-- The output stage of DAC(6+n) sources current; a resume is due. -/
  outOn : Bool
  outDue : Bool
deriving DecidableEq, Repr

/-- The analog blocks, each store keyed by instance. -/
structure Analog where
  adc : Sparse AdcState
  dac : Sparse DacState
  amp : Sparse AmpState
  hs : Sparse HsState
  /-- PVDD at the latest block, in mV. -/
  pvdd : Nat
  /-- PVDD is below its threshold (R627). -/
  pvddLow : Bool
  /-- ADC.CFG.VALID and ADC.RECORD_ERR (R452). -/
  valid : Bool
  recordErr : Nat
deriving DecidableEq, Repr

/-- Each analog block at reset. -/
def AdcState.reset : AdcState := ⟨0, [], -40960, -40960, -40960, false, false, false, false⟩
def DacState.reset : DacState := ⟨0, 0, [], none, [], false, false, false, false, false, false, false⟩
def AmpState.reset : AmpState := ⟨0, false, false, false, false, 0, 0, false, false, false, false⟩
def HsState.reset : HsState :=
  ⟨false, 1, 0, 0, false, false, false, false, 65535, false, false, 0, 0, 0, 0, 0, 0, 0, none, false, false⟩
def Analog.reset : Analog := ⟨[], [], [], [], 0, false, false, 0⟩

end Sys2Proof.Machine
end

