-- ==== Sys2Proof/Config.lean ====
section
/-!
DEFINITION. What one device fixes and no rule of the spec states: free values (opaque, no body), so that no proof can
see them, and a statement about them holds whatever they are.
-/
namespace Sys2Proof.Config

/-- The n-th draw of the on-die noise source that CTL.SESSION is made of (R584): free value. -/
opaque sessionDraw : Nat → Nat
/-- The die identifier in fuses, CTL.DIE_ID_LO and CTL.DIE_ID_HI (18_register_index.md): free value. -/
opaque dieId : Nat
/-- The MAC address of MGMT, in fuses (R355): free value. -/
opaque macAddress : Nat
/-- SYS.STEPPING, in fuses (R610): free value. -/
opaque stepping : Nat
/-- The factory trim code of the SAFE oscillator, in fuses (R525): free value. -/
opaque factoryTrim : Nat
/-- The fused SHA-256 of a public key, `none` where no key hash is fused (R560): free value. -/
opaque fusedKeyHash : Option (List Nat)
/-- A byte of the boot ROM at a byte offset (R512): its contents are Sacen firmware, which the manual does not give. -/
opaque bootRom : Nat → Nat
/-- The words a deconvolution writes: job number, word index (R228: the arithmetic is a program of the image). -/
opaque deconvWord : Nat → Nat → Nat
/-- INVERSE distance gain for d_ref at d_eff = 0, which R91 does not give: free value, before saturation. -/
opaque gainAtZero : Int → Int
/-- TW_RX, the receive wake time in µs that the supervisor advertises (R356 states no value): free value. -/
opaque wakeRx : Nat
/-- Base of the FAB SRAM among the external byte addresses of a block move (R282 names it, no rule gives its address):
free value. -/
opaque fabSramBase : Nat
/-- The array number that MC.SRAM_INFO gives an on-chip memory (R507, numbering not given): 2k and 2k + 1 the X and Y memory
of core k, 128 + k its program memory, 192 the FAB SRAM: free values. -/
opaque sramArray : Nat → Nat
/-- A value that the manual leaves open, numbered by the counter `State.free` that the step advances. -/
opaque freeValue : Nat → Nat

end Sys2Proof.Config
end

