-- ==== Sys2Proof/Machine/State/Control.lean ====
section
/-!
DEFINITION. State of the grid (chapter 01), of events, event counters, contact sheet and control messages (chapter 17)
and of the control interconnect (chapter 14).
-/
namespace Sys2Proof.Machine

/-- The block grid and the guarantee (R20 to R26, R55). -/
structure Grid where
  /-- Audio runs (R24). -/
  running : Bool
  /-- Block number of the block whose tick most recently passed, 59 bits (R26). -/
  block : Nat
  /-- Current sub-block number, 0 to 3 (R26). -/
  sub : Nat
  /-- SYS.DET_STATUS bits [2] to [6], W1C. -/
  memPoison : Bool
  /-- Block of the latest delivery of a poisoned word, plus 1. -/
  poisonIn : Nat
  overload : Bool
  lateFix : Bool
  latePacket : Bool
  sapSubst : Bool
  /-- SYS.DET_STATUS.CONDITIONS_MET: every device-side condition held in the current block (R55). -/
  met : Bool
  /-- CONDITIONS_MET of the block before; true for the block whose tick starts audio (R55). -/
  prevMet : Bool
  /-- Block of the most recent lapse, SYS.DET_LAPSE (R55). -/
  lapse : Nat
deriving DecidableEq, Repr

/-- One 16-byte event record (R593). -/
structure EvRec where
  eseq : Nat
  code : Nat
  arg : Nat
  block : Nat
deriving DecidableEq, Repr

/-- Events: records, pending bits, actions and delivery (R592 to R596). -/
structure Events where
  /-- ESEQ of the latest record, 32 bits. -/
  eseq : Nat
  /-- The latest 64 records, oldest first. -/
  log : List EvRec
  /-- How many of the latest records were raised at the tick of the current block (R593 orders those). -/
  atTick : Nat
  /-- CTL.PEND0 to CTL.PEND7 (R594). -/
  pend : BitVec 256
  /-- CTL.IRQ_EN0 to CTL.IRQ_EN7 (R596). -/
  irqEn : BitVec 256
  /-- Actions of an event code from the EVENTS record: [0] LOG, [1] SEND. -/
  actions : Sparse Nat
  /-- Records waiting for delivery, oldest first, at most 256 (R595). -/
  sendQ : List EvRec
  /-- Fault-log entries asked of the supervisor and not yet written: KIND and ARG (R594). -/
  logQ : List (Nat × Nat)
  /-- Records lost and not yet reported by EV_EVENT_LOST (R595). -/
  lost : Nat
  /-- SEQ of the next EVENT frame (R577: count of EVENT frames mod 2^32). -/
  frameSeq : Nat
  /-- Codes of the events that are raised at most once per block and were raised in this block. -/
  once : List Nat
deriving DecidableEq, Repr

/-- The 64 event counters (R597 to R599), each store keyed by the counter's number. -/
structure Evc where
  /-- 48-bit counts. -/
  cnt : Sparse Nat
  /-- EVC.SRC: SOURCE [8:0], ENABLE [15], CLEAR_ON_SNAP [16]. -/
  src : Sparse Nat
  /-- Snapshots. -/
  snap : Sparse Nat
  /-- A snapshot is asked for and acts at the next tick (R599). -/
  snapPending : Bool
  /-- Block of the latest snapshot. -/
  snapBlk : Nat
  /-- The block that is ending has been counted in sources 0x103 to 0x105; set between its end and the next tick. -/
  ended : Bool
deriving DecidableEq, Repr

/-- Where the reply to a control message goes (R580, R581), with the request it answers. -/
structure ReplyTo where
  /-- The SPI target port; otherwise MGMT. -/
  spi : Bool
  /-- Source address and port of the request on MGMT. -/
  addr : Nat
  port : Nat
  /-- TYPE, KEY_ID, AUTH and SEQ of the request (R577). -/
  type : Nat
  key : Nat
  auth : Bool
  seq : Nat
deriving DecidableEq, Repr

/-- A received TCM frame that waits for the control-message engine (R582). -/
structure InFrame where
  spi : Bool
  addr : Nat
  port : Nat
  bytes : List Nat
deriving DecidableEq, Repr

/-- A frame that waits to leave on MGMT: destination address and UDP port, payload bytes. -/
structure OutFrame where
  addr : Nat
  port : Nat
  bytes : List Nat
deriving DecidableEq, Repr

/-- One key of the KEYS record. -/
structure Key where
  bytes : List Nat
  /-- RIGHTS is FULL; otherwise READ. -/
  full : Bool
deriving DecidableEq, Repr

/-- What is kept for one key: LAST and the 16 latest replies (R585). -/
structure KeyMemo where
  last : Option Nat
  /-- Request SEQ and the reply frame sent for it. -/
  replies : List (Nat × List Nat)
deriving DecidableEq, Repr

/-- A snapshot request that is accepted in block `got`: `reg` once registered at a tick, at block c (R600). -/
structure SheetReq where
  clear : Bool
  got : Nat
  reply : ReplyTo
  reg : Option Nat
deriving DecidableEq, Repr

/-- The contact sheet (R600, R601). -/
structure Sheet where
  valid : Bool
  bytes : List Nat
  block : Nat
  cleared : Bool
  pending : Option SheetReq
deriving DecidableEq, Repr

/-- Control messages (R577 to R591). -/
structure Tcm where
  /-- CTL.SESSION (R584). -/
  session : Nat
  /-- Sessions drawn so far, the index of the next free value. -/
  draws : Nat
  /-- Keys, SPI_PLAIN and UDP_PORT of the KEYS record (R603). -/
  keys : List Key
  spiPlain : Bool
  udpPort : Nat
  /-- CTL.CFG.VALID and CTL.RECORD_ERR (R603). -/
  valid : Bool
  recordErr : Nat
  /-- Frames received and not yet handled, in the order of reception of both transports (R583). -/
  input : List InFrame
  /-- The SPI output queue, oldest first, at most 16 frames (R582): an EVENT frame is marked true. -/
  spiOut : List (Bool × List Nat)
  /-- Frames that wait to leave on MGMT, oldest first. -/
  mgmtOut : List OutFrame
  /-- LAST and kept replies of each key (R585). -/
  memo : Sparse KeyMemo
  /-- CTL.STATUS W1C bits. -/
  authFail : Bool
  stale : Bool
  evtLost : Bool
  /-- The bytes that CTL_MISO carried in the latest READ_FRAME (R581). -/
  miso : List Nat
deriving DecidableEq, Repr

/-- The control interconnect (chapter 14): what each master last read, latched high words, bus errors. -/
structure Bus where
  /-- Word answered to each master's latest read, keyed by master. -/
  rdata : Sparse Nat
  /-- Whether each master's latest access met a bus error (R513), keyed by master; 1 when it did. -/
  rerr : Sparse Nat
  /-- Words answered to each master's latest burst read of the DRAM window, keyed by master (R511). -/
  burst : Sparse (List Nat)
  /-- High words latched by a read of the low word, keyed by register address × 2^16 + master (R537). -/
  latch : Sparse Nat
  /-- SYS.BUS_ERR_ADDR and SYS.BUS_ERR_INFO. -/
  errAddr : Nat
  errInfo : Nat
  /-- Registers that hold what was written (RW) or the value in effect (FX), by address × 2^16 + instance. -/
  regs : Sparse Nat
  /-- RC counters, same keys. -/
  ctr : Sparse Nat
  /-- What each counter has counted since reset, reads not clearing it (the health record counts so, R344). -/
  total : Sparse Nat
deriving DecidableEq, Repr

end Sys2Proof.Machine
end

