-- ==== Sys2Proof/Machine/State/Clock.lean ====
section
/-!
DEFINITION. State of clocks, reset and the boot ledger (chapter 15), and of the NVM controller with its flash
(chapter 16).
-/
namespace Sys2Proof.Machine

/-- One clock domain (R517, R528): SAFE, CTRL, FAB, MEM, NET, TIME, MEDIA by code. -/
structure Dom where
  /-- Source: 0 SAFE, 1 own PLL, 2 stopped. -/
  src : Nat
  /-- Divider: log2. -/
  div : Nat
  /-- A switch is in progress: the source asked for; the multiplexer has changed. -/
  dest : Option Nat
  moved : Bool
  /-- DOM_CTRL.RESULT and DOM_CTRL.FORCED. -/
  result : Nat
  forced : Bool
  /-- Latest measured frequency in kHz, and whether the latest window counted an edge (R524). -/
  freq : Nat
deriving DecidableEq, Repr

/-- One PLL (R519, R522): its registers stand in the register store. -/
structure Pll where
  locked : Bool
  losses : Nat
deriving DecidableEq, Repr

/-- Clocks, reset and boot. -/
structure Clk where
  /-- SAFE cycles since power-on, at the latest of reset, reset release, PGOOD going high and the latest watchdog kick. -/
  safe : Nat
  resetAt : Nat
  relAt : Nat
  pgoodAt : Nat
  kickAt : Nat
  /-- Levels of RESET_N and PGOOD. -/
  resetN : Bool
  pgood : Bool
  /-- The device is in reset; it waits for the junction to cool (R546); TEST_EN was high at release (R631). -/
  inReset : Bool
  hotHold : Bool
  testMode : Bool
  /-- PSEQ.RESET_CAUSE and PSEQ.RESET_CNT. -/
  cause : Nat
  resets : Nat
  /-- PSEQ.BOOT_STEP: step, copy, retry, audio; PSEQ.BOOT_TIME; PSEQ.ISLANDS. -/
  step : Nat
  copyB : Bool
  retry : Bool
  audio : Bool
  bootMs : Nat
  islands : Nat
  /-- The reference (R523, R524): passing windows in a row, qualified, failing windows in a row, latest count. -/
  refRun : Nat
  refOk : Bool
  refBad : Nat
  refCount : Nat
  /-- By domain code and by PLL number. -/
  dom : Sparse Dom
  pll : Sparse Pll
  /-- Trim code, source of the latest window, first window done, latest error in ppm. -/
  trim : Nat
  trimSrc : Nat
  trimDone : Bool
  trimErr : Int
  /-- CLK.STATUS events. -/
  refLoss : Bool
  pllUnlock : Bool
  switchForced : Bool
  /-- SAFE time of the first clock fault; the reset of R533 is due 640,000 cycles later. -/
  faultAt : Option Nat
  /-- The clock section in effect. -/
  valid : Bool
  recordErr : Nat
  rate : Nat
  trimSrcCfg : Nat
  trimGroup : Nat
  wdtMs : Nat
  /-- PSEQ.TEMP in 0.25 °C, and HEALTH.THERMAL_WARN. -/
  temp : Int
  warn : Bool
deriving DecidableEq, Repr

/-- Domain from reset (table "Clock domains"). -/
def Dom.reset : Dom := ⟨2, 0, none, false, 0, false, 0⟩
def Pll.reset : Pll := ⟨false, 0⟩

/-- Clocks right after power-on reset: SAFE and CTRL run from SAFE, the others stand still. -/
def Clk.reset : Clk where
  safe := 0
  resetAt := 0
  relAt := 0
  pgoodAt := 0
  kickAt := 0
  resetN := true
  pgood := false
  inReset := true
  hotHold := false
  testMode := false
  cause := 1
  resets := 0
  step := 1
  copyB := false
  retry := false
  audio := false
  bootMs := 0
  islands := 0
  refRun := 0
  refOk := false
  refBad := 0
  refCount := 0
  dom := [(0, { Dom.reset with src := 0 }), (1, { Dom.reset with src := 0 })]
  pll := []
  trim := Config.factoryTrim % 1024
  trimSrc := 0
  trimDone := false
  trimErr := 0
  refLoss := false
  pllUnlock := false
  switchForced := false
  faultAt := none
  valid := false
  recordErr := 0
  rate := 0
  trimSrcCfg := 0
  trimGroup := 0
  wdtMs := 0
  temp := 0
  warn := false

/-- The NVM controller and the flash (chapter 16). -/
structure Nvm where
  /-- Flash bytes; a byte that is not listed is erased, 0xFF. -/
  flash : List Host.Cell
  /-- log2 of the flash size, 0 before boot step 6. -/
  log2 : Nat
  /-- NVM.IMAGE_STATUS.A_HDR_OK, B_HDR_OK, A_BODY_OK and B_BODY_OK. -/
  aHdr : Bool
  bHdr : Bool
  aBody : Bool
  bBody : Bool
  /-- Applied copy is B; an image is applied; EV_IMAGE_TIE; RECOVERY; the fuses hold a key hash (read at step 6). -/
  copyB : Bool
  applied : Bool
  tie : Bool
  recovery : Bool
  keyFused : Bool
  /-- NVM.IMAGE_ERR: code, record, copy B, VALID; NVM.IMAGE_ERR_INDEX. -/
  errCode : Nat
  errRecord : Nat
  errCopyB : Bool
  errValid : Bool
  errIndex : Nat
  /-- NVM.GEN_A and NVM.GEN_B. -/
  genA : Nat
  genB : Nat
  /-- NVM.HASH0 to NVM.HASH7: body hash of the applied image, 32 bytes. -/
  hash : List Nat
  /-- NVM.ADDR, 28 bits. -/
  addr : Nat
  /-- Page buffer of 64 words. -/
  page : Sparse Nat
  /-- Operation in progress: 0 none, 1 erase, 2 program, 3 CHECK; its page address. -/
  op : Nat
  opAddr : Nat
  /-- NVM.PROG_STATUS.REFUSED, FAIL, CHECK_DONE and CHECK_PASS (R571, R572). -/
  refused : Bool
  fail : Bool
  checkDone : Bool
  checkPass : Bool
  /-- NVM.FLOG_HEAD and NVM.FLOG_SEQ (R575). -/
  flogHead : Nat
  flogSeq : Nat
  /-- SAFE times of the entries written in the latest second, and entries dropped and not yet reported. -/
  flogTimes : List Nat
  flogDrops : Nat
deriving DecidableEq, Repr

/-- The NVM controller right after reset, with the flash `f`. -/
def Nvm.reset (f : List Host.Cell) : Nvm where
  flash := f
  log2 := 0
  aHdr := false
  bHdr := false
  aBody := false
  bBody := false
  copyB := false
  applied := false
  tie := false
  recovery := false
  keyFused := false
  errCode := 0
  errRecord := 0
  errCopyB := false
  errValid := false
  errIndex := 0
  genA := 0
  genB := 0
  hash := []
  addr := 0
  page := []
  op := 0
  opAddr := 0
  refused := false
  fail := false
  checkDone := false
  checkPass := false
  flogHead := 0x0FFF0000
  flogSeq := 0
  flogTimes := []
  flogDrops := 0

end Sys2Proof.Machine
end

