-- ==== Sys2Proof/Machine/State/Net.lean ====
section
/-!
DEFINITION. State of the network ports, streams and packet queues (chapter 10).
-/
namespace Sys2Proof.Machine

/-- A port entry of the NET record (R368); MAC and addresses as numbers, first octet highest. -/
structure NetPortCfg where
  mode : Nat
  eee : Bool
  maxFrame : Nat
  mac : Nat
  svCells : Nat
  addr : Nat
  addr2 : Nat
  pfx : Nat
  gateway : Nat
  lpiIdle : Nat
deriving DecidableEq, Repr

/-- Leg fields. -/
structure LegCfg where
  on : Bool
  port : Nat
  udpPort : Nat
  dst : Nat
  src : Nat
  vlan : Nat
deriving DecidableEq, Repr

/-- A receive stream entry; type 1 L16, 2 L24, 3 AM824, 4 OPS. -/
structure RxCfg where
  type : Nat
  channels : Nat
  ptime : Nat
  depth : Nat
  pt : Nat
  group : Nat
  ssrcCheck : Bool
  ssrc : Nat
  firstChan : Nat
  cellsA : Nat
  cellsB : Nat
  legA : LegCfg
  legB : LegCfg
  tsOffset : Nat
deriving DecidableEq, Repr

/-- A transmit stream entry. -/
structure TxCfg where
  type : Nat
  channels : Nat
  ptime : Nat
  pt : Nat
  dscp : Nat
  ttl : Nat
  ssrc : Nat
  firstChan : Nat
  seqBase : Nat
  srcPort : Nat
  cells : Nat
  legA : LegCfg
  legB : LegCfg
deriving DecidableEq, Repr

/-- A frame stored in cells of the pool (R357). -/
structure Stored where
  /-- The length word (R358). -/
  word : Nat
  /-- The stored frame, destination address onwards, without its FCS. -/
  frame : List Nat
  /-- Numbers of the cells that the packet occupies, as the link table chains them. -/
  chain : List Nat
  /-- A cell word of it is poisoned (R362). -/
  poison : Bool
  /-- Counter value at the frame's timestamp point (R394); 0 for a frame to send. -/
  stamp : Nat
deriving DecidableEq, Repr

/-- A queue of the pool with its consumer's read position and mark (R360): the packets not yet released, oldest first; how many
of them have been read. -/
structure Queue (α : Type) where
  items : List α
  pos : Nat
  mark : Option Nat
deriving DecidableEq, Repr

/-- A stored packet of a receive stream's leg. -/
structure Packet where
  store : Stored
  /-- The merge still waits for it or uses it: false for one that is not intact, late, early or finished with. -/
  live : Bool
  /-- Extended media time of the packet's first sample (R370). -/
  t : Int
  /-- RTP sequence number, 16 bits. -/
  seq : Nat
  /-- Block in which the length word was written. -/
  block : Nat
deriving DecidableEq, Repr

/-- The packet chosen for a timestamp (R376): none where the copies gave none; which legs supplied it; a difference. -/
structure Chosen where
  t : Int
  payload : Option (List Nat)
  a : Bool
  b : Bool
  differ : Bool
deriving DecidableEq, Repr

/-- A receive stream. -/
structure RxState where
  /-- Queues of the two legs. -/
  qA : Queue Packet
  qB : Queue Packet
  chosen : List Chosen
  /-- OPS packets already decided: extended timestamp and sequence number. -/
  done : List (Int × Nat)
  /-- Timestamps of packets that held a poisoned word (R362). -/
  poison : List Int
  /-- Packet times already counted in RX_MISS_CNT, by first media index (R649). -/
  missed : List Int
  /-- T_ref of the timestamp rule, and the run of missing samples (R377). -/
  tRef : Int
  missRun : Bool
  /-- Sequence number of the latest intact packet on each leg. -/
  seqA : Option Nat
  seqB : Option Nat
  /-- NET.RX_MARGIN: least margin in samples, 16 bits. -/
  margin : Nat
  /-- NET.RX_STATUS events. -/
  status : Nat
  /-- First due or release block admitted (R260), and a stream that refills after its START. -/
  minBlock : Nat
  fresh : Bool
deriving DecidableEq, Repr

/-- A transmit stream: next packet numbers of the two legs, fades by output index. -/
structure TxState where
  nextA : Nat
  nextB : Nat
  fades : List (Int × Bool)
deriving DecidableEq, Repr

/-- A port. -/
structure PortNet where
  link : Bool
  fecLock : Bool
  linkChange : Bool
  txLpi : Bool
  rxLpi : Bool
  /-- Octet counters, 64 bits (R354). -/
  rxOctets : Nat
  txOctets : Nat
  /-- PTP queue: frames received and not yet handled. -/
  ptpQ : Queue Stored
  /-- Frames of the supervisor that wait to leave. -/
  svOut : Queue Stored
  /-- The frame sent latest, without its FCS. -/
  sent : List Nat
deriving DecidableEq, Repr

/-- The network. -/
structure Net where
  valid : Bool
  recordErr : Nat
  port : Sparse PortNet
  rx : Sparse RxState
  tx : Sparse TxState
  /-- Fewest free cells since the last read. -/
  poolMin : Nat
  /-- Events raised in this block at most once per stream: code × 2^16 + stream. -/
  once : List Nat
  /-- NET.EEE: Tw negotiated for transmit and advertised for receive. -/
  twTx : Nat
  twRx : Nat
  /-- Transmit wake time that the link partner's latest EEE TLV gave (R356). -/
  peerTw : Nat
deriving DecidableEq, Repr

def Queue.empty {α : Type} : Queue α := ⟨[], 0, none⟩
def RxState.reset : RxState := ⟨Queue.empty, Queue.empty, [], [], [], [], 0, false, none, none, 0xFFFF, 0, 0, false⟩
def TxState.reset : TxState := ⟨0, 0, []⟩
def PortNet.reset : PortNet := ⟨false, false, false, false, false, 0, 0, Queue.empty, Queue.empty, []⟩
def Net.reset : Net := ⟨false, 0, [], [], [], 65536, [], 0, 0, 0⟩
def LegCfg.none : LegCfg := ⟨false, 0, 0, 0, 0, 0xFFFF⟩

end Sys2Proof.Machine
end

