-- ==== Sys2Proof/Machine/State/Objects.lean ====
section
/-!
DEFINITION. State of the object engine (chapter 02) and of the panning engine (chapter 03).
-/
namespace Sys2Proof.Machine

/-- Three components: x, y, z or azimuth, elevation, distance, or width, height, depth. -/
structure V3 where
  x : Int
  y : Int
  z : Int
deriving DecidableEq, Repr

/-- One interpolation segment (R76): start instant, start value, end instant, end value. -/
structure Seg where
  ts : Int
  vs : V3
  te : Int
  ve : V3
deriving DecidableEq, Repr

/-- A keyframe: one OPS record that passed R68 (R65). -/
structure Keyframe where
  obj : Nat
  coord : Bool
  interp : Bool
  jump : Bool
  hasPos : Bool
  hasGain : Bool
  hasExt : Bool
  hasZone : Bool
  hasLock : Bool
  t : Nat
  pos : V3
  gain : Int
  zone : Nat
  ext : V3
  lockTol : Nat
  interpLen : Nat
deriving DecidableEq, Repr

/-- A zone and lock setting that is pending (R78). -/
structure ZoneLock where
  t : Nat
  zone : Option Nat
  /-- `some (on, tolerance)` where the keyframe sets the lock. -/
  lock : Option (Bool × Nat)
deriving DecidableEq, Repr

/-- What the object engine hands the panning engine at a boundary (R62). -/
structure Handed where
  b : Int
  pos : V3
  w : Int
  h : Int
  gain : Int
  zone : Nat
  lock : Bool
  lockTol : Nat
deriving DecidableEq, Repr

/-- One of the 64 pan slots of an object (R122, R126): speaker, start value, target. -/
structure PanSlot where
  spk : Nat
  start : Int
  target : Int
deriving DecidableEq, Repr

/-- State of one object (R59 to R93) and its panning state (R122 to R128). -/
structure ObjState where
  queue : List Keyframe
  /-- Stamp of the most recently popped keyframe. -/
  popped : Option Nat
  /-- Position, gain and extent segments (R77). -/
  pos : Seg
  gain : Seg
  ext : Seg
  /-- Coordinate system of the position segment: Cartesian. -/
  cart : Bool
  /-- Zone and lock settings that wait for their stamps (R75). -/
  pendingZL : List ZoneLock
  /-- Zone mask, lock and lock tolerance in effect. -/
  zone : Nat
  lock : Bool
  lockTol : Nat
  /-- Emission instant at the latest boundary, in 2^-14 samples. -/
  e : Int
  /-- Latest evaluated boundary. -/
  b : Int
  /-- Air coefficient at the latest boundary, Q3.21. -/
  air : Int
  /-- Air-filter state, Q4.28. -/
  y : Int
  /-- Runs of glide and delay clamps that are counted once (R89, R90). -/
  glideRun : Bool
  clampRun : Bool
  /-- Reported at the latest boundary: D(b), d_em, p_em, handed gain, width and height. -/
  dly : Int
  dEm : Int
  pEm : V3
  handedGain : Int
  width : Int
  height : Int
  /-- Values handed at the boundaries of the section run last, oldest first. -/
  handed : List Handed
  /-- Pan slots by slot number 0 to 63; a slot that is free is not listed. -/
  slots : Sparse PanSlot
  /-- Pan ramps of the sub-blocks of the section run last: first sample, slots (R125). -/
  panSub : List (Int × List PanSlot)
  /-- Latest boundary that panning evaluated; reported by PAN.ST_DIR and PAN.ST_COUNT (R131). -/
  panB : Int
  panDir : Nat
  panCount : Nat
  /-- Runs of boundaries in which panning conditions hold: their event codes. -/
  panRuns : List Nat
deriving DecidableEq, Repr

/-- Zero of all three components. -/
def V3.zero : V3 := ⟨0, 0, 0⟩

/-- An object before it has been started. -/
def ObjState.empty : ObjState where
  queue := []
  popped := none
  pos := ⟨0, V3.zero, 0, V3.zero⟩
  gain := ⟨0, V3.zero, 0, V3.zero⟩
  ext := ⟨0, V3.zero, 0, V3.zero⟩
  cart := false
  pendingZL := []
  zone := 0
  lock := false
  lockTol := 0
  e := 0
  b := 0
  air := 0
  y := 0
  glideRun := false
  clampRun := false
  dly := 0
  dEm := 0
  pEm := V3.zero
  handedGain := 0
  width := 0
  height := 0
  handed := []
  slots := []
  panSub := []
  panB := 0
  panDir := 0
  panCount := 0
  panRuns := []

end Sys2Proof.Machine
end

