-- ==== Sys2Proof/Machine/State/Serial.lean ====
section
/-!
DEFINITION. State of the serial audio ports (chapter 12).
-/
namespace Sys2Proof.Machine

/-- A group entry of the PORTS record (R445). -/
structure GrpCfg where
  mode : Nat
  flags : Nat
  frameBits : Nat
  rateTol : Nat
deriving DecidableEq, Repr

/-- A port entry of the PORTS record (R445). -/
structure PortCfg where
  dir : Nat
  flags : Nat
  slots : Nat
  width : Nat
  offset : Nat
  word : Nat
  agroup : Option Nat
  mask : Nat
  laneBase : Nat
deriving DecidableEq, Repr

/-- One clock group (R430 to R444). Times are stamps in MEDIA cycles from the edge of sample 0. -/
structure GrpState where
  aligned : Bool
  /-- Aligned at least once since the image was applied (R650). -/
  ever : Bool
  /-- Intervals in a row within tolerance (R440). -/
  stable : Nat
  /-- Index that the next frame takes before correction. -/
  next : Nat
  /-- Index and phase of the latest frame that took one. -/
  idx : Nat
  phase : Int
  /-- Start of the latest frame and of the one before it, and the index that the latest one took. -/
  last : Option Int
  before : Option Int
  lastIdx : Option Nat
  /-- The latest starts that took an index. -/
  hist : List (Int × Nat)
  /-- Window of R436: starts counted, last start of this window and of the one before; what is reported. -/
  winF : Nat
  winLast : Option Int
  winPrev : Option Int
  /-- SAP.G_FRAMES, SAP.G_DRIFT and RATE_HIGH of the latest window. -/
  frames : Nat
  drift : Int
  rateHigh : Bool
  /-- SAP.G_STATUS events. -/
  clockLoss : Bool
  slip : Bool
  rateChange : Bool
  resync : Bool
  /-- Block of the latest EV_SAP_SLIP, plus 1. -/
  slipBlock : Nat
  /-- The FSYNC ball in the latest frame that this unit led: bit p is the level in BCLK period p (R424). -/
  fsync : Nat
  /-- A window of R436 is being counted. -/
  won : Bool
deriving DecidableEq, Repr

/-- One port: holds by index (0 release, 1 hold at 0, 2 hold at high impedance), stop fades by output index, and the
words of the latest transmit frame. -/
structure PortState where
  holds : List (Int × Nat)
  fades : List (Int × Bool)
  words : List Nat
  /-- The data ball in the latest transmit frame, bit p of the frame as bit p: driven bits, and the bits at high impedance. -/
  ball : Nat
  hiz : Nat
deriving DecidableEq, Repr

/-- The serial ports. -/
structure Sap where
  valid : Bool
  recordErr : Nat
  grp : Sparse GrpState
  port : Sparse PortState
  agEvent : Nat
deriving DecidableEq, Repr

def GrpState.reset : GrpState :=
  ⟨false, false, 0, 0, 0, 0, none, none, none, [], 0, none, none, 0, 0, false, false, false, false, false, 0, 0, false⟩
def PortState.reset : PortState := ⟨[], [], [], 0, 0⟩
def Sap.reset : Sap := ⟨false, 0, [], [], 0⟩

end Sys2Proof.Machine
end

