-- ==== Sys2Proof/Machine/State/Time.lean ====
section
/-!
DEFINITION. State of the time counter, PTP and the media clock (chapter 11).
-/
namespace Sys2Proof.Machine

/-- A domain entry of the PTP record (R399). -/
structure DomCfg where
  profile : Nat
  domain : Nat
  portP : Nat
  portS : Option Nat
  logSync : Int
  logAnnounce : Int
  logDelayReq : Int
  timeout : Nat
  vlan : Nat
  dscp : Nat
deriving DecidableEq, Repr

/-- The PTP record (R399). -/
structure PtpCfg where
  leaderEn : Bool
  revertive : Bool
  ppsFalling : Bool
  preferred : Nat
  lockNs : Nat
  unlockNs : Nat
  slewPpb : Nat
  prio1 : Nat
  prio2 : Nat
  clockClass : Nat
  accuracy : Nat
  variance : Nat
  utcOffset : Nat
  /-- Ingress and egress latency of media ports 0 to 3. -/
  ingress : List Nat
  egress : List Nat
  /-- The two domain entries. -/
  doms : List DomCfg
deriving DecidableEq, Repr

/-- What a leader announces, as one rank that is lower for a better leader, with its grandmaster and its port identity. -/
structure Foreign where
  ident : Nat
  rank : Nat
  gm : Nat
  /-- Ingress times of its latest Announce messages in 2^-16 ns. -/
  last : Int
  before : Option Int
deriving DecidableEq, Repr

/-- One domain slot (R401 to R405). Times are in 2^-16 ns. -/
structure Domain where
  /-- 0 DISABLED, 1 LISTENING, 2 QUALIFYING, 3 QUALIFIED, 4 LEADER. -/
  st : Nat
  /-- The domain runs on its secondary port. -/
  second : Bool
  /-- The leader sends two-step Sync. -/
  twoStep : Bool
  /-- Leaders that have announced themselves (R402). -/
  foreign : List Foreign
  /-- Identity of the chosen leader and its grandmaster. -/
  leader : Option Nat
  gm : Nat
  /-- Offset and path delay in 2^-16 ns, none until measured; rate in 2^-8 ppb (R404). -/
  offset : Option Int
  rate : Int
  path : Option Int
  /-- Egress time of the Delay_Req that measured the path delay. -/
  pathAt : Int
  /-- Consecutive good Sync intervals (R403), and those within LOCK_NS (R408). -/
  run : Nat
  lockRun : Nat
  /-- A Sync interval measured more than UNLOCK_NS since the latest tick. -/
  unlock : Bool
  /-- Latest Sync: sequence and ingress time, waiting for its Follow_Up; t1 and t2 of the latest measurement. -/
  sync : Option (Nat × Int × Int)
  t1 : Int
  t2 : Int
  measured : Bool
  /-- Sync interval of the latest offset measurement (R397). -/
  slot : Option Int
  /-- INC that would match the domain's rate by the latest rate estimate (R407), in 2^-32 ns. -/
  fit : Option Nat
  /-- Delay_Req sent: sequence and egress time. -/
  req : Option (Nat × Int)
  /-- Sequence numbers of the next Sync, Announce and Delay_Req sent. -/
  syncSeq : Nat
  annSeq : Nat
  reqSeq : Nat
deriving DecidableEq, Repr

/-- Time and media clock. -/
structure Time where
  valid : Bool
  recordErr : Nat
  /-- CNT:FRAC, 64 bits, in 2^-32 ns (R388). -/
  cnt : Nat
  /-- INC in 2^-32 ns (R389). -/
  inc : Nat
  /-- PTP.EPOCH0 and PTP.EPOCH1, 32 bits each; armed (R393). -/
  epoch0 : Nat
  epoch1 : Nat
  armed0 : Bool
  armed1 : Bool
  /-- PTP.STATUS.STALE and BAD_WRITE (R393). -/
  stale : Bool
  badWrite : Bool
  /-- The two domain slots. -/
  dom0 : Domain
  dom1 : Domain
  /-- Domain selected at the latest tick (R406). -/
  sel : Option Nat
  /-- PTP.STATUS.LOCK and HOLDOVER; sample periods of holdover (R408, R415, R416). -/
  lock : Bool
  holdover : Bool
  heldFor : Nat
  /-- INC in Sync intervals in which the unit was locked, latest first, at most 64 (R416). -/
  incs : List Nat
  /-- PTP.STATUS events. -/
  lockChange : Bool
  switched : Bool
  gmChange : Bool
  ppsLoss : Bool
  /-- PPS_IN: time of the latest edge, good edges in a row, qualified, local time less PPS time in ns. -/
  ppsAt : Option Nat
  ppsRun : Nat
  ppsOk : Bool
  ppsOffset : Int
  /-- TOD_SEC has been written and names the next edge's second (R410). -/
  todSet : Bool
  /-- T_tick of the latest tick, media phase error in 1/16 ns, consecutive blocks beyond 1,000 ns. -/
  tick : Nat
  mediaErr : Int
  mediaRun : Nat
deriving DecidableEq, Repr

def PtpCfg.none : PtpCfg := ⟨false, false, false, 0, 20, 21, 1000, 0, 0, 0, 0, 0, 0, [], [], []⟩
def Domain.reset : Domain :=
  ⟨0, false, false, [], none, 0, none, 0, none, 0, 0, 0, false, none, 0, 0, false, none, none, none, 0, 0, 0⟩
def Time.reset : Time where
  valid := false
  recordErr := 0
  cnt := 0
  inc := 4 * 2 ^ 32
  epoch0 := 0
  epoch1 := 0
  armed0 := false
  armed1 := false
  stale := false
  badWrite := false
  dom0 := Domain.reset
  dom1 := Domain.reset
  sel := none
  lock := false
  holdover := false
  heldFor := 0
  incs := []
  lockChange := false
  switched := false
  gmChange := false
  ppsLoss := false
  ppsAt := none
  ppsRun := 0
  ppsOk := false
  ppsOffset := 0
  todSet := false
  tick := 0
  mediaErr := 0
  mediaRun := 0

end Sys2Proof.Machine
end

