-- ==== Sys2Proof/Machine/State/Matrix.lean ====
section
/-!
DEFINITION. State of the crosspoint matrix and of fix sets (chapter 04).
-/
namespace Sys2Proof.Machine

/-- A node entry of a gain set (R137), keyed by its node number 5120·lane + bus (R133). -/
structure NodeEnt where
  gain : Int
  ramp : Nat
  noCount : Bool
deriving DecidableEq, Repr

/-- A ramp from `s` to `t` starting at sample `b0`, of length `len` = 2^p samples; 0: a step (R142). -/
structure Ramp where
  s : Int
  t : Int
  b0 : Int
  len : Nat
deriving DecidableEq, Repr

/-- Node words, FX register writes, keyframes and filter commits staged together (R153, R154). -/
structure Staged where
  /-- Node words, the latest per node (R155), in order of first write. -/
  nodes : List Nat
  /-- FX register writes by address × 2^16 + instance. -/
  regs : List (Nat × Nat)
  /-- Pushed keyframe records of 40 bytes. -/
  kfs : List (List Nat)
  /-- Writes counted under R154, superseded ones included. -/
  nodeCount : Nat
  regCount : Nat
  overflow : Bool
  /-- The mirror entries of the set, in staging order (R325). -/
  bytes : List Nat
deriving DecidableEq, Repr

/-- A registered fix that has not acted (R157, R159). -/
structure Fix where
  /-- Block the request named. -/
  named : Nat
  /-- Acting block. -/
  act : Nat
  /-- The fix acts later than the block that its request named (R161). -/
  late : Bool
  /-- The staged set that the fix carries. -/
  set : Staged
  /-- Registration block. -/
  reg : Nat
deriving DecidableEq, Repr

/-- A fix request that waits for the next block tick (R157). -/
structure FixReq where
  block : Nat
  /-- Block in which the request was received. -/
  got : Nat
  /-- Where the reply goes, for a TCM FIX. -/
  reply : Option ReplyTo
deriving DecidableEq, Repr

/-- The matrix (R132 to R152) and fixes (R153 to R165). -/
structure Matrix where
  setA : Sparse NodeEnt
  setB : Sparse NodeEnt
  /-- XP.SET_STATUS.LIVE: set B is in effect. -/
  liveB : Bool
  /-- Running node ramps by node number (R145). -/
  ramps : Sparse Ramp
  /-- Bus factors by bus, as ramps (R152); a bus that is not listed has factor 2^21. -/
  factors : Sparse Ramp
  /-- First sample of the latest matrix section. -/
  first : Nat
  /-- Node ramps running in the latest matrix section. -/
  rampCount : Nat
  /-- XP.SAT_LAST. -/
  satLast : Nat
  /-- Buses counted in XP.SAT_CNT in the current block (R149). -/
  satBuses : List Nat
  /-- The open staged set (R153). -/
  open_ : Staged
  /-- Registered fixes, at most 16 (R158). -/
  pending : List Fix
  /-- Fix requests that wait for the next tick (R157). -/
  requests : List FixReq
  /-- Acting block of the fix whose node writes stand in the staged gain set (R163). -/
  prepared : Option Nat
  /-- Node writes of the fix that acted last and are not yet replayed onto the other set (R163). -/
  replay : List Nat
  /-- FIX.RESULT: code and sequence; block of the fix that acted last. -/
  result : Nat
  resultSeq : Nat
  acted : Nat
deriving DecidableEq, Repr

end Sys2Proof.Machine
end

