-- ==== Sys2Proof/Machine/State/Twin.lean ====
section
/-!
DEFINITION. State of twin operation (chapter 09).
-/
namespace Sys2Proof.Machine

/-- The TWIN record in effect (R340). -/
structure TwinCfg where
  valid : Bool
  pair : Bool
  groups : Nat
  sealBlocks : Nat
  holdoff : Nat
  flags : Nat
  explain : Nat
  outSettle : Nat
  /-- Items: kind, group, index. -/
  items : List (Nat × Nat × Nat)
  /-- Levels: settle, first slice, slices. -/
  levels : List (Nat × Nat × Nat)
  /-- Slices: first unit, units. -/
  slices : List (Nat × Nat)
  /-- Units: kind, sub, index. -/
  units : List (Nat × Nat × Nat)
deriving DecidableEq, Repr

/-- A frame of the reliable stream that is not acknowledged (R303). -/
structure RelFrame where
  seq : Nat
  type : Nat
  payload : List Nat
deriving DecidableEq, Repr

/-- One bulk piece (R335). -/
structure Piece where
  num : Nat
  capture : Nat
  kind : Nat
  count : Nat
  records : List Nat
deriving DecidableEq, Repr

/-- One slice part received (R337). -/
structure SlicePart where
  slice : Nat
  part : Nat
  parts : Nat
  block : Nat
  bytes : List Nat
deriving DecidableEq, Repr

/-- Hashes of a block with the latest lapse block (R331). -/
structure BlockHash where
  block : Nat
  lapse : Option Nat
  hashes : List Nat
deriving DecidableEq, Repr

/-- A hand-over on the acting unit (R319, R320): 1 sent, 2 acknowledged, 3 committed. -/
structure HandOver where
  h : Nat
  step : Nat
deriving DecidableEq, Repr

/-- Twin operation. -/
structure Twin where
  /-- The unit acts (R310). -/
  acts : Bool
  /-- TWIN.STATE.STATE: 0 ALONE, 1 LATENT, 2 EXPOSED, 3 SUSPECT, 4 RESYNC. -/
  st : Nat
  /-- The unit has not yet entered a state: heartbeat frames carry 0xF. -/
  starting : Bool
  /-- A handshake is in progress (R308). -/
  handshake : Bool
  /-- SAFE time at which the unit's step 9 ended (R551). -/
  shakeAt : Nat
  /-- STRAP_HOME sampled at reset release (R629). -/
  home : Bool
  /-- TWIN.RECORD_ERR (R342). -/
  recordErr : Nat
  /-- Proposed first block and HELLO received (R550). -/
  proposal : Nat
  hello : List Nat
  /-- Partner: state code, 7 none; strap; tenure; die identifier; degraded. -/
  peer : Nat
  peerHome : Bool
  peerTenure : Nat
  peerDie : Nat
  peerDegraded : Bool
  /-- TWIN.HEALTH: the unit's latest health record (R344). -/
  health : List Nat
  /-- TWIN.PEER_HEALTH: the partner's latest health record (R344). -/
  peerHealth : List Nat
  /-- The partner runs another image and the image allows it (R309). -/
  divergent : Bool
  /-- The unit joined with an incompatible or refused partner and stays SUSPECT (R309, R346). -/
  barred : Bool
  /-- Own tenure number (R306). -/
  tenure : Nat
  /-- SAFE times of the latest valid renewal received, of the own latest renewal sent, of the latest valid heartbeat. -/
  leaseAt : Nat
  renewAt : Nat
  hbAt : Option Nat
  /-- SAFE time of the latest frame accepted on the twin link (R307). -/
  linkAt : Nat
  /-- The lease has expired and the token is taken at the next tick (R315). -/
  expired : Bool
  /-- Block of a RELEASE received (R317). -/
  releaseAt : Option Nat
  /-- The unit has found another holder with an earlier tenure and stops at the next tick (R322). -/
  dual : Bool
  /-- Both units act and EV_TWIN_DUAL_HOLDER has been raised for it (R322). -/
  dualRun : Bool
  /-- Twin link: lanes, up, the partner's LINK_DOWN, a loss that the next tick handles. -/
  lane0 : Bool
  lane1 : Bool
  linkUp : Bool
  peerDown : Bool
  lost : Bool
  /-- Reliable frames sent and not yet acknowledged (R303). -/
  txq : List RelFrame
  /-- SEQ of the next frame sent and of the next frame expected, 16 bits. -/
  txSeq : Nat
  rxSeq : Nat
  /-- Latest frame sent of each unreliable type, as the characters of lane 0 and lane 1 (R301). -/
  sent : Sparse (List Nat × List Nat)
  /-- Heartbeat line: frames sent, and the latest frame. -/
  hbSeq : Nat
  hbWord : Nat
  /-- A heartbeat or LEASE frame sent next carries RELEASE. -/
  releasing : Bool
  /-- Emission on paths A and B from the block that emitLog names (R324). -/
  emitA : Bool
  emitB : Bool
  /-- Emission by first output index from which it holds, oldest first (R324). -/
  emitLog : List (Nat × Bool × Bool)
  /-- Emission change: block e, network A, network B. -/
  emitAt : Option (Nat × Bool × Bool)
  /-- A hand-over request that waits for its tick; the hand-over; CMD_RESULT. -/
  hoWait : Option Nat
  handover : Option HandOver
  /-- TWIN.CMD_RESULT: code and count. -/
  cmdCode : Nat
  cmdSeq : Nat
  /-- Standby: hand-over acknowledged, and FLAGS.HANDOVER seen. -/
  hoAck : Option Nat
  hoSeen : Bool
  /-- Registration. -/
  matchRun : Nat
  mismatch : Nat
  mismatchBlk : Nat
  ownHash : List BlockHash
  peerHash : List BlockHash
  compared : Option (BlockHash × BlockHash)
  /-- SAFE seconds are not kept: blocks of unexplained and explained divergences. -/
  unexpl : List Nat
  expl : List Nat
  /-- Degraded; spare-row test failed; clock fault seen (R345). -/
  degraded : Bool
  bistFail : Bool
  clockFault : Bool
  /-- Resync: phase of TWIN.RESYNC, level, next slice, block at which a wait ends. -/
  phase : Nat
  level : Nat
  slice : Nat
  waitEnd : Nat
  /-- Bulk pieces received, and the block at which BULK_END came (R335). -/
  pieces : List Piece
  bulkEnd : Option Nat
  /-- Holder: level, slice and installing block of the next slice to send (R337); after the last, LEVEL_COUNT and the block at
  which OUT_SETTLE ends (R338). -/
  plan : Option (Nat × Nat × Nat)
  /-- Frames of the holder's staged writes, seals and requests since the first bulk piece: block of receipt, type, whether in
  the first half of the block, payload (R335). -/
  relayLog : List (Nat × Nat × Bool × List Nat)
  /-- Slice parts received (R337). -/
  parts : List SlicePart
  /-- Sub-block periods whose holder ADC samples have been received, latest first; a run of misses. -/
  adcGot : List Nat
  adcMissRun : Bool
  /-- TWIN.STATUS.ADC_MISS, and a slice that came too late. -/
  adcMiss : Bool
  sliceLate : Bool
  /-- The unit used its own ADC samples in the current block (R328). -/
  localAdc : Bool
  /-- Block of entry into LATENT, for the take-back hold-off (R343). -/
  latentAt : Nat
  /-- Serial decisions relayed by the holder: kind (6 alignment, 7 slip), flags, group, boundary, index (R444). -/
  serial : List (Nat × Nat × Nat × Nat × Nat)
  /-- No partner was found at start (R307). -/
  noPartner : Bool
  /-- Totals at the latest health record: corrected words, link frames and heartbeat frames rejected (R344). -/
  healthBase : Nat × Nat × Nat
  /-- What the latest record counted in its second, in the same order. -/
  healthDelta : Nat × Nat × Nat
deriving DecidableEq, Repr

/-- No TWIN record. -/
def TwinCfg.none : TwinCfg := ⟨false, false, 0, 0, 0, 0, 0, 0, [], [], [], []⟩

/-- Twin operation at reset. -/
def Twin.reset : Twin where
  acts := false
  st := 0
  starting := true
  handshake := false
  shakeAt := 0
  home := false
  recordErr := 0
  proposal := 0
  hello := []
  peer := 7
  peerHome := false
  peerTenure := 0
  peerDie := 0
  peerDegraded := false
  health := []
  peerHealth := []
  divergent := false
  barred := false
  tenure := 0
  leaseAt := 0
  renewAt := 0
  hbAt := none
  linkAt := 0
  expired := false
  releaseAt := none
  dual := false
  dualRun := false
  lane0 := false
  lane1 := false
  linkUp := false
  peerDown := false
  lost := false
  txq := []
  txSeq := 0
  rxSeq := 0
  sent := []
  hbSeq := 0
  hbWord := 0
  releasing := false
  emitA := false
  emitB := false
  emitLog := []
  emitAt := none
  hoWait := none
  handover := none
  cmdCode := 0
  cmdSeq := 0
  hoAck := none
  hoSeen := false
  matchRun := 0
  mismatch := 0
  mismatchBlk := 0
  ownHash := []
  peerHash := []
  compared := none
  unexpl := []
  expl := []
  degraded := false
  bistFail := false
  clockFault := false
  phase := 0
  level := 0
  slice := 0
  waitEnd := 0
  pieces := []
  bulkEnd := none
  plan := none
  relayLog := []
  parts := []
  adcGot := []
  adcMissRun := false
  adcMiss := false
  sliceLate := false
  localAdc := false
  latentAt := 0
  serial := []
  noPartner := false
  healthBase := (0, 0, 0)
  healthDelta := (0, 0, 0)

end Sys2Proof.Machine
end

