-- ==== Sys2Proof/Machine/State/Image.lean ====
section
/-!
DEFINITION. The records of the applied image, parsed (chapter 16 and the chapters that own the records).
-/
namespace Sys2Proof.Machine

/-- An entry of the OBJECTS record (chapter 16). -/
structure ObjCfg where
  src : Nat
  out : Nat
  /-- log2 of the delay-ring length L. -/
  ring : Nat
  /-- OBJ.OBJ_CTRL, COORD and LOCK, zone mask, distances, delay and initial values of the OBJECTS entry. -/
  ctrl : Nat
  cart : Bool
  lock : Bool
  zone : Nat
  distRef : Nat
  distMin : Nat
  distMax : Nat
  baseDelay : Nat
  pos : V3
  gain : Int
  ext : V3
  lockTol : Nat
deriving DecidableEq, Repr

/-- A speaker of the layout, with its unit vector (R103, R104). -/
structure Speaker where
  az : Int
  el : Int
  dist : Int
  sub : Bool
  virt : Bool
  spread : Nat
  u : V3
deriving DecidableEq, Repr

/-- A real speaker has neither flag (R101). -/
def Speaker.real (s : Speaker) : Bool := !s.sub && !s.virt

/-- The LAYOUT record (R104). -/
structure Layout where
  amplitude : Bool
  speakers : List Speaker
  /-- Neighbours of each speaker, unused entries left out. -/
  nbrs : List (List Nat)
  /-- Spread lists: speaker and weight. -/
  spreads : List (List (Nat × Int))
  /-- Triangles: three speakers each (R104). -/
  tris : List (Nat × Nat × Nat)
  /-- Candidate triangles of each of the 2,048 cells. -/
  lookup : List (List Nat)
  /-- Zone masks, bit k of a mask excludes SPKk. -/
  zones : List Nat
  /-- The record body, read through PAN.LAY_DATA. -/
  body : List Nat
deriving DecidableEq, Repr

/-- The configuration in effect: what the applied image gives (R567, R569). Empty before an image is applied. -/
structure Image where
  /-- An image is applied. -/
  applied : Bool
  /-- RATE of the CLOCKS record: 0: 44.1, 1: 48, 2: 88.2, 3: 96 kHz. -/
  rate : Nat
  /-- Objects of the OBJECTS record. -/
  objs : List ObjCfg
  /-- The LAYOUT record in effect (R104). -/
  layout : Layout
  /-- Returns: general bus and input lane (R135). -/
  returns : List (Nat × Nat)
  /-- Lane of each tone generator; none: unplaced (R217). -/
  tgLanes : List (Option Nat)
  /-- Bus bound to each general-bus dynamics instance and to each direct channel (R167). -/
  genBus : List (Option Nat)
  dirBus : List (Option Nat)
  /-- ALIGN_MAX of each speaker chain (R180). -/
  alignMax : List Nat
  /-- Number of filter slots (R206). -/
  slots : Nat
  /-- Capture ring base and length (R224). -/
  capBase : Nat
  capBytes : Nat
  /-- Bases of the DRAM plan's regions by kind (R565). -/
  plan : List (Nat × Nat)
  /-- Lane of each ADC; none: unplaced (R449). -/
  adcLane : List (Option Nat)
  /-- Source bus of each DAC and class-D channel; none: ZERO. -/
  dacSrc : List (Option Nat)
  dacHp : List Bool
  ampSrc : List (Option Nat)
  /-- ENABLE of each headset port. -/
  hsOn : List Bool
  /-- Clock groups, serial ports and transmit lanes; a lane without a bus carries 0 (R445). -/
  grps : List GrpCfg
  ports : List PortCfg
  txLanes : List (Option Nat)
  /-- The TWIN record in effect (R340). -/
  twin : TwinCfg
  /-- Ports and streams of the NET record (R368). -/
  netPorts : List NetPortCfg
  rx : List RxCfg
  tx : List TxCfg
  /-- Channel entries; a channel without a lane is not placed, one without a bus carries 0. -/
  rxChan : List (Option Nat)
  txChan : List (Option Nat)
  /-- The PTP record in effect (R399). -/
  ptp : PtpCfg
deriving DecidableEq, Repr

/-- No layout. -/
def Layout.none : Layout := ⟨false, [], [], [], [], [], [], []⟩

/-- No image applied. -/
def Image.none : Image where
  applied := false
  rate := 0
  objs := []
  layout := Layout.none
  returns := []
  tgLanes := []
  genBus := []
  dirBus := []
  alignMax := []
  slots := 0
  capBase := 0
  capBytes := 0
  plan := []
  adcLane := []
  dacSrc := []
  dacHp := []
  ampSrc := []
  hsOn := []
  grps := []
  ports := []
  txLanes := []
  twin := TwinCfg.none
  netPorts := []
  rx := []
  tx := []
  rxChan := []
  txChan := []
  ptp := PtpCfg.none

end Sys2Proof.Machine
end

