-- ==== Sys2Proof/Machine/State/Memory.lean ====
section
/-!
DEFINITION. State of DRAM, on-chip memory and the DRAM controller (chapter 14).
-/
namespace Sys2Proof.Machine

/-- One DRAM channel (R483 to R497). -/
structure Channel where
  /-- Last completed training step, 0 to 6 (R488). -/
  step : Nat
  /-- Trained; the latest attempt failed, in which step and byte lane (R489). -/
  trained : Bool
  failed : Bool
  failStep : Nat
  failLane : Nat
  /-- Training attempts that failed (R489). -/
  fails : Nat
  /-- Refresh at double rate (R492). -/
  doubleRate : Bool
  /-- Refreshes postponed of rank 0 and rank 1 (R493). -/
  owed0 : Nat
  owed1 : Nat
  /-- The channel has failed until reset (R497). -/
  dead : Bool
  /-- The retry buffer: codes of the last 16 commands, oldest first: 0 refresh, 1 ZQCS, 2 read, 3 write (R496). -/
  retry : List Nat
  /-- A parity alert is active, and consecutive replays in which the same command failed. -/
  alert : Bool
  streak : Nat
  /-- Read sample point of each byte lane in 1/64 unit interval: rank × 16 + lane (R490). -/
  points : Sparse Int
deriving DecidableEq, Repr

/-- The memories and their controller. -/
structure Mem where
  /-- DRAM bytes by DRAM byte address. -/
  dram : List Host.Cell
  /-- Words of 8 bytes that hold an uncorrectable error or a carried poison mark: byte address / 8 (R500). -/
  poison : List Nat
  /-- Corrected words that wait for their write-back: byte address / 8 (R498). -/
  writeBack : List Nat
  /-- Working SRAM bytes by offset (R512). -/
  sram : List Host.Cell
  /-- FAB SRAM bytes that block moves write, by offset (R282), and its 4-byte words that carry a poison mark (R500). -/
  fab : List Host.Cell
  fabPoison : List Nat
  /-- Geometry and modes of the DRAM section (R486). -/
  valid : Bool
  density : Nat
  ranks : Nat
  qosTarget : Bool
  tempI2c : Bool
  i2cAddr : Nat
  zqMs : Nat
  /-- The DRAM section in effect, its timings, port priorities and latency targets with it (R486, R503 to R505). -/
  setup : List Nat
  /-- MC.RECORD_ERR (R487). -/
  recordErr : Nat
  /-- The two channels MC0 and MC1. -/
  ch0 : Channel
  ch1 : Channel
  /-- DRAM_HOT ball is low. -/
  hotLow : Bool
  /-- Latest I2C reading, signed 0.25 °C. -/
  temp : Int
  /-- Consecutive failed I2C reads. -/
  tempFails : Nat
  /-- MC.ECC_ADDR, MC.ECC_INFO and SRAM.ECC_INFO of the latest errors (R499, R507). -/
  eccAddr : Nat
  eccInfo : Nat
  sramInfo : Nat
  /-- Completed scrub passes of DRAM and SRAM (R506, R508). -/
  dramPasses : Nat
  sramPasses : Nat
  /-- Position of the DRAM scrubber: 64-byte line per channel (R508). -/
  scrubLine : Nat
  /-- SAFE times of the poisoned deliveries of the last 32,000,000 SAFE cycles (R502). -/
  poisonTimes : List Nat
  /-- Next spare row to test and spare rows failed (R509). -/
  bistNext : Nat
  bistFailed : Nat
  /-- Spare rows tested since reset. -/
  bistRows : Nat
  /-- Host region (R514). -/
  hostBase : Nat
  hostLen : Nat
deriving DecidableEq, Repr

/-- A channel right after reset. -/
def Channel.reset : Channel := ⟨0, false, false, 0, 0, 0, false, 0, 0, false, [], false, 0, []⟩

/-- The memories right after reset. -/
def Mem.reset : Mem where
  dram := []
  poison := []
  writeBack := []
  sram := []
  fab := []
  fabPoison := []
  valid := false
  density := 0
  ranks := 1
  qosTarget := false
  tempI2c := false
  i2cAddr := 0
  zqMs := 0
  setup := []
  recordErr := 0
  ch0 := Channel.reset
  ch1 := Channel.reset
  hotLow := false
  temp := 0
  tempFails := 0
  eccAddr := 0
  eccInfo := 0
  sramInfo := 0
  dramPasses := 0
  sramPasses := 0
  scrubLine := 0
  poisonTimes := []
  bistNext := 0
  bistFailed := 0
  bistRows := 0
  hostBase := 0
  hostLen := 0

end Sys2Proof.Machine
end

