-- ==== Sys2Proof/Machine/State/Chains.lean ====
section
/-!
DEFINITION. State of the output chains (chapter 05), of convolution, tone generators, capture and deconvolution
(chapter 06), and the sample stores of lanes, buses and chain stages.
-/
namespace Sys2Proof.Machine

/-- Parameters of a dynamics stage (R172 to R177), in effect from one stage index on (R178). -/
structure DynVer where
  /-- First stage index. -/
  k0 : Int
  /-- SPK.CTRL, THRESH, RATIO, KNEE, ATTACK, RELEASE and MAKEUP from that index on. -/
  ctrl : Nat
  thresh : Int
  ratio : Nat
  knee : Nat
  attack : Nat
  release : Nat
  makeup : Nat
deriving DecidableEq, Repr

/-- State of one output chain, by selection number (R166). -/
structure Chain where
  /-- Signed trim t as a ramp over bus samples (R171). -/
  trim : Ramp
  /-- Envelope e of R174, a signed 48-bit integer. -/
  env : Int
  /-- Parameter versions by first stage index, oldest first. -/
  vers : List DynVer
  /-- Alignment delays by the index from which their crossfade runs, oldest first (R182). -/
  aligns : List (Int × Nat)
  /-- Mute ramps by output index, oldest first (R184). -/
  mutes : List Ramp
  /-- Registered mute requests that have not acted. -/
  mutePending : Nat
  /-- Fades of the stop bath and of START by first output index: `true` fades out (R256, R260). -/
  fades : List (Int × Bool)
  /-- Output window still owed by a stopped chain (R646). -/
  tail : Bool
  /-- First indices of windows of B zeros in place of abandoned instances (R251): at the alignment, at the output. -/
  zeroAlign : List Int
  zeroOut : List Int
  /-- SPK.GR, SPK.ENV and SPK.GAIN_NOW of the latest section. -/
  gr : Int
  envDb : Int
  gainNow : Int
  /-- A mute ramp covered the latest section. -/
  muteRamping : Bool
  /-- Block in which a saturation of the chain was last counted, plus 1 (R194). -/
  satBlock : Nat
  /-- The block counted before that, plus 1. -/
  satPrev : Nat
deriving DecidableEq, Repr

/-- State of the convolution of one speaker chain (R206 to R216). -/
structure ConvState where
  /-- Slot in effect; 0xFFF: none. -/
  slot : Nat
  /-- Slot being left, during a crossfade. -/
  old : Nat
  /-- First index and length of the crossfade (R213). -/
  xfAt : Int
  xfLen : Nat
  /-- The crossfade has ended: `old` is no longer used (R214). -/
  xfDone : Bool
  /-- The crossfade before: slot left, first index and length. -/
  prevOld : Nat
  prevAt : Int
  prevLen : Nat
deriving DecidableEq, Repr

/-- A filter slot (R206 to R212); its bytes stand in DRAM. -/
structure Slot where
  /-- 0 FREE, 1 LOADING, 2 READY, 3 IN_USE. -/
  state : Nat
  /-- A commit of this slot is registered. -/
  committed : Bool
deriving DecidableEq, Repr

/-- State of one tone generator (R217 to R222). -/
structure ToneGen where
  /-- Mode of the run: 0 OFF, 1 SINE, 2 LOG_SWEEP. -/
  mode : Nat
  /-- The run waits for its start block. -/
  armed : Bool
  /-- The run is in progress; it has ended (R221). -/
  running : Bool
  done : Bool
  /-- 64-bit phase and increment, in 2^-64 turn. -/
  phase : Nat
  inc : Nat
  /-- Start block m (R221), and lane samples by which pauses moved the schedule (R222). -/
  m : Nat
  delay : Nat
  /-- Sweeps completed. -/
  sweeps : Nat
  /-- First lane sample of the fade-out of a fix that wrote MODE = OFF (R221). -/
  offAt : Option Nat
  /-- 0 running, 1 fades out in this window, 2 stands still, 3 fades in in this window (R222). -/
  pause : Nat
  pausePending : Nat
deriving DecidableEq, Repr

/-- The measurement capture (R223 to R226). -/
structure Capture where
  running : Bool
  done : Bool
  /-- MEAS.CAP_STATE.LATE_START and WRAPPED. -/
  late : Bool
  wrapped : Bool
  /-- First frame; first frame not written, in ONE_SHOT mode. -/
  m0 : Nat
  stop : Option Nat
  /-- Newest complete frame. -/
  last : Option Nat
  /-- Ring base and length in bytes (R224). -/
  base : Nat
  bytes : Nat
  /-- Start requested and not yet reached. -/
  armed : Bool
  /-- Tap samples of the frames written last, for the registration hash (R330): frame, and its taps with their samples. -/
  taps : List (Nat × List (Nat × List Int))
deriving DecidableEq, Repr

/-- The deconvolution job interface (R227 to R229). -/
structure Deconv where
  busy : Bool
  done : Bool
  status : Nat
  desc : Nat
  job : Nat
deriving DecidableEq, Repr

/-- Samples by absolute index: each store is keyed by owner × 2^64 + index, a missing sample is 0. -/
structure Samples where
  /-- Input bus, by lane. -/
  lane : Sparse Int
  /-- Matrix bus outputs, by bus. -/
  bus : Sparse Int
  /-- Trim output of each chain, by selection number. -/
  trim : Sparse Int
  /-- Dynamics output by stage index. -/
  dyn : Sparse Int
  /-- Alignment output a[k'], the convolution's input. -/
  align : Sparse Int
  /-- Chain outputs by output index: what leaves at egress. -/
  out : Sparse Int
  /-- Samples delivered to the DAC modulators by output index (R462), by DAC. -/
  dac : Sparse Int
  /-- Received words of a serial port whose START is pending, by input lane (R260). -/
  wait : Sparse Int
deriving DecidableEq, Repr

end Sys2Proof.Machine
end

