-- ==== Sys2Proof/Machine/State/Sched.lean ====
section
/-!
DEFINITION. State of the dataflow scheduler and of the stop bath (chapter 07).
-/
namespace Sys2Proof.Machine

/-- A graph edge: predecessor node and STREAM (R234). -/
structure GEdge where
  pred : Nat
  stream : Bool
deriving DecidableEq, Repr

/-- A node of the GRAPH record (R234). -/
structure GNode where
  /-- 0 engine section, 1 effect-core program, 2 transfer. -/
  kind : Nat
  /-- Execution class and flags of the node (R234). -/
  cls : Nat
  urgent : Bool
  subBlock : Bool
  background : Bool
  /-- DEADLINE, in 1/256 of the period; FLOW and SEQ. -/
  deadline : Nat
  flow : Option Nat
  seq : Nat
  /-- TARGET, WCET, CORE_MASK and predecessors. -/
  target : Nat
  wcet : Nat
  coreMask : Nat
  preds : List GEdge
deriving DecidableEq, Repr

/-- A release buffer (R240): samples by the keys of their stores, boundaries handed to panning and pan ramps by object. -/
structure Held where
  lane : List (Nat × Int)
  bus : List (Nat × Int)
  align : List (Nat × Int)
  out : List (Nat × Int)
  handed : List (Nat × List Handed)
  pan : List (Nat × List (Int × List PanSlot))
deriving DecidableEq, Repr

/-- A release buffer that holds nothing. -/
def Held.none : Held := ⟨[], [], [], [], [], []⟩

/-- An instance in flight (R238): dispatched and not yet released or abandoned. -/
structure Inst where
  node : Nat
  block : Nat
  sub : Nat
  complete : Bool
  /-- Core of an effect-core instance. -/
  core : Nat
  /-- Outputs that wait for the release of a complete instance. -/
  held : Held
deriving DecidableEq, Repr

/-- Latest instance of a graph node (SCHED.NODE_STATE and the readiness rule R233). -/
structure NodeStat where
  block : Nat
  sub : Nat
  /-- An instance of the node has been dispatched or skipped since audio started. -/
  any : Bool
  /-- The latest instance has been released. -/
  released : Bool
  /-- SCHED.NODE_STATE: start, release, missed, pre-empted, skipped. -/
  start : Nat
  release : Nat
  missed : Bool
  preempted : Bool
  skipped : Bool
  /-- Functions that its latest section processed (objects, buses or chains). -/
  work : List Nat
deriving DecidableEq, Repr

/-- Stop state of one function (R254 to R261). -/
structure FnState where
  /-- 0 RUNNING, 1 PENDING_STOP, 2 FADING, 3 CLEARING, 4 IDLE, 5 PENDING_START. -/
  st : Nat
  /-- The pending START waits for the stop to end (R259). -/
  deferred : Bool
  /-- Acting block of the stop bath. -/
  act : Nat
  /-- Block at which the latest START acted. -/
  since : Nat
deriving DecidableEq, Repr

/-- What a mute, hold or pause request asks for (R30). -/
inductive ReqKind where
  /-- Mute or unmute of a chain with a ramp code (R184). -/
  | mute (chain : Nat) (mute : Bool) (ramp : Nat)
  /-- Hold or release of a serial port, input or output side (R442). -/
  | hold (port : Nat) (hold : Bool) (hiz : Bool)
  /-- Pause or resume of a tone generator (R222). -/
  | pause (tg : Nat) (pause : Bool)
deriving DecidableEq, Repr

/-- A request that waits for registration or for its acting boundary (R31, R32). -/
structure Request where
  kind : ReqKind
  /-- Media sample index named, `none` for time zero. -/
  time : Option Nat
  /-- Acting block, or acting sub-block period on the direct path. -/
  act : Nat
  /-- Acting boundary on the function's own index. -/
  at_ : Int
  /-- Acts at sub-block boundaries (direct path). -/
  direct : Bool
  /-- Block, or sub-block period on the direct path, in which the request was received. -/
  got : Nat
deriving DecidableEq, Repr

/-- A stop-bath or START request (R255, R259). -/
structure StopReq where
  start : Bool
  kind : Nat
  index : Nat
  time : Option Nat
  act : Nat
  /-- Block in which the request was received. -/
  got : Nat
  /-- Where the reply goes, for a TCM STOP_BATH or START. -/
  reply : Option ReplyTo
deriving DecidableEq, Repr

/-- The scheduler. -/
structure Sched where
  valid : Bool
  flows : Nat
  graph : List GNode
  graphErr : Nat
  inFlight : List Inst
  stat : Sparse NodeStat
  /-- SCHED.INFLIGHT_PEAK, SCHED.LOAD, SCHED.LOAD_PEAK, SCHED.MISS_LAST. -/
  peak : Nat
  load : Nat
  loadNow : Nat
  loadPeak : Nat
  missLast : Nat
  /-- Requests accepted and not yet registered, in control-message order. -/
  reqWait : List Request
  /-- Stop-bath and START requests accepted and not yet registered. -/
  stopWait : List StopReq
  /-- DL1 and DL3 by registration order; DL0 is the list of pending fixes, and DL2 follows from the engines' state. -/
  dl1 : List Request
  dl3 : List StopReq
  /-- Block in which the tone-generator sections ran latest, plus 1. -/
  tgRan : Nat
  /-- Stop state by kind × 2^16 + index; a function that is not listed is RUNNING. -/
  fn : Sparse FnState
deriving DecidableEq, Repr

end Sys2Proof.Machine
end

