-- ==== Sys2Proof/Machine/State.lean ====
section
/-!
DEFINITION. The state of the T6144, and the state right after reset.
-/
namespace Sys2Proof.Machine

/-- Why a command stops the model. -/
inductive Fault where
  /-- The command names an instance that the hardware does not have (a port, a core, an object above the last): no such
  command can be given to the part, so stopping is safe. Raised by every command with a numbered instance. -/
  | noSuchInstance (what : String) (index : Nat)
deriving DecidableEq, Repr

/-- Why the model refuses a command. -/
inductive Refusal where
  /-- No meaning has been given to the command: raised by the dispatch alone; safe. -/
  | notModelled (mnemonic : String)
deriving DecidableEq, Repr

structure State where
  grid : Grid
  ev : Events
  evc : Evc
  tcm : Tcm
  sheet : Sheet
  bus : Bus
  img : Image
  obj : Sparse ObjState
  mx : Matrix
  chain : Sparse Chain
  conv : Sparse ConvState
  slot : Sparse Slot
  tg : Sparse ToneGen
  cap : Capture
  deconv : Deconv
  smp : Samples
  sched : Sched
  ec : Effect
  mem : Mem
  twin : Twin
  ana : Analog
  sap : Sap
  net : Net
  time : Time
  clk : Clk
  nvm : Nvm
  /-- Number of the next free value (Config.freeValue): the model's own field. -/
  free : Nat
  /-- Commands that wait, first in first out. -/
  pending : List Instr
deriving DecidableEq, Repr

/-! ### Reset -/

/-- Each block right after reset: nothing staged, queued, running or recorded. -/
def Grid.reset : Grid := ⟨false, 0, 0, false, 0, false, false, false, false, false, true, 0⟩
def Events.reset : Events := ⟨0, [], 0, 0#256, 0#256, [], [], [], 0, 0, []⟩
def Evc.reset : Evc := ⟨[], [], [], false, 0, false⟩
def Sheet.reset : Sheet := ⟨false, [], 0, false, none⟩
def Bus.reset : Bus := ⟨[], [], [], [], 0, 0, [], [], []⟩
def Staged.empty : Staged := ⟨[], [], [], 0, 0, false, []⟩
def Matrix.reset : Matrix := ⟨[], [], false, [], [], 0, 0, 0, [], Staged.empty, [], [], none, [], 0, 0, 0⟩
def Capture.reset : Capture := ⟨false, false, false, false, 0, none, none, 0, 0, false, []⟩
def Deconv.reset : Deconv := ⟨false, false, 0, 0, 0⟩
def Samples.empty : Samples := ⟨[], [], [], [], [], [], [], []⟩
def Sched.reset : Sched := ⟨false, 0, [], 0, [], [], 0, 0, 0, 0, 0, [], [], [], [], 0, []⟩
def Effect.reset : Effect := ⟨[], [], [], [], 0, []⟩

/-- Control messages right after reset, after `draws` session draws. -/
def Tcm.reset (draws : Nat) : Tcm := ⟨0, draws, [], false, 0, false, 0, [], [], [], [], false, false, false, []⟩

/-- The device as a reset leaves it: `clk` and `nvm` keep what a reset does not touch (R542). -/
def State.fresh (clk : Clk) (nvm : Nvm) (draws free : Nat) (pending : List Instr) : State where
  grid := Grid.reset
  ev := Events.reset
  evc := Evc.reset
  tcm := Tcm.reset draws
  sheet := Sheet.reset
  bus := Bus.reset
  img := Image.none
  obj := []
  mx := Matrix.reset
  chain := []
  conv := []
  slot := []
  tg := []
  cap := Capture.reset
  deconv := Deconv.reset
  smp := Samples.empty
  sched := Sched.reset
  ec := Effect.reset
  mem := Mem.reset
  twin := Twin.reset
  ana := Analog.reset
  sap := Sap.reset
  net := Net.reset
  time := Time.reset
  clk := clk
  nvm := nvm
  free := free
  pending := pending

/-- The machine right after power-on reset, with an erased flash: VDD_AON is up, PGOOD is low and the device is in reset. -/
def State.reset : State := State.fresh Clk.reset (Nvm.reset []) 0 0 []

end Sys2Proof.Machine
end

