-- ==== Sys2Proof/Machine/Ops.lean ====
section
/-!
DEFINITION. The shared operations: sparse stores, registers and counters, events, the grid and the guarantee.
-/
namespace Sys2Proof.Machine

/-! ### Sparse stores -/

/-- What a store holds at a key; `d` is what an unlisted key reads as. -/
def sget {α : Type} (d : α) (k : Nat) : Sparse α → α
  | [] => d
  | (j, v) :: t => if j = k then v else sget d k t

/-- The store without a key. -/
def sdel {α : Type} (k : Nat) (m : Sparse α) : Sparse α := m.filter (fun c => decide (c.1 ≠ k))

/-- The store with a key listed. -/
def sput {α : Type} (k : Nat) (v : α) : Sparse α → Sparse α
  | [] => [(k, v)]
  | (j, w) :: t => if k < j then (k, v) :: (j, w) :: t else if j = k then (k, v) :: t else (j, w) :: sput k v t

/-- The store after a write: the value an unlisted key reads as is not listed. -/
def sset {α : Type} [DecidableEq α] (d : α) (k : Nat) (v : α) (m : Sparse α) : Sparse α :=
  if v = d then sdel k m else sput k v m

/-- The store after applying `f` at a key. -/
def smod {α : Type} [DecidableEq α] (d : α) (k : Nat) (f : α → α) (m : Sparse α) : Sparse α :=
  sset d k (f (sget d k m)) m

/-- The cells that values at consecutive keys take: the value an unlisted key reads as is not listed. -/
def cellsAt {α : Type} [DecidableEq α] (d : α) : Nat → List α → Sparse α
  | _, [] => []
  | k, v :: t => if v = d then cellsAt d (k + 1) t else (k, v) :: cellsAt d (k + 1) t

/-- Writes of consecutive keys. -/
def ssetList {α : Type} [DecidableEq α] (d : α) (k : Nat) (l : List α) (m : Sparse α) : Sparse α :=
  m.filter (fun c => decide (c.1 < k)) ++ cellsAt d k l ++ m.filter (fun c => decide (k + l.length ≤ c.1))

/-- Insertion after every element that is not after `x` in the order `le`. -/
def insertBy {α : Type} (le : α → α → Bool) (x : α) : List α → List α
  | [] => [x]
  | y :: t => if le y x then y :: insertBy le x t else x :: y :: t

/-- A stable sort by `le`. -/
def sortBy {α : Type} (le : α → α → Bool) (l : List α) : List α := l.foldl (fun acc x => insertBy le x acc) []

/-- `n` consecutive values from key `k` on, of a store whose keys before `k` have been passed. -/
def valuesAt {α : Type} (d : α) : Nat → Nat → Sparse α → List α
  | 0, _, _ => []
  | n + 1, k, m =>
    match m with
    | [] => d :: valuesAt d n (k + 1) []
    | (j, v) :: t => if j = k then v :: valuesAt d n (k + 1) t else d :: valuesAt d n (k + 1) ((j, v) :: t)

/-- `n` consecutive values. -/
def sgetList {α : Type} (d : α) (k n : Nat) (m : Sparse α) : List α :=
  valuesAt d n k (m.dropWhile (fun c => decide (c.1 < k)))

/-! ### Sample stores -/

/-- Key of sample `i` of owner `o`; a negative index has no sample. -/
def skey (o : Nat) (i : Int) : Nat := o * 2 ^ 64 + i.toNat

/-- Sample `i` of owner `o`; a sample that no one wrote is 0. -/
def smpGet (m : Sparse Int) (o : Nat) (i : Int) : Int := if i < 0 then 0 else sget 0 (skey o i) m

/-- Samples of owner `o` written from index `i` on. -/
def smpPut (o : Nat) (i : Int) (l : List Int) (m : Sparse Int) : Sparse Int :=
  if i < 0 then m else ssetList 0 (skey o i) l m

/-- The store without the samples before index `i` of every owner. -/
def smpPrune (i : Int) (m : Sparse Int) : Sparse Int := m.filter (fun e => decide (i ≤ ((e.1 % 2 ^ 64 : Nat) : Int)))

/-- The store without the samples of owner `o`. -/
def smpDrop (o : Nat) (m : Sparse Int) : Sparse Int := m.filter (fun e => e.1 / 2 ^ 64 ≠ o)

/-- The samples [i, i+n) of owner `o`. -/
def smpList (m : Sparse Int) (o : Nat) (i : Int) (n : Nat) : List Int :=
  (List.range n).map (fun (q : Nat) => smpGet m o (i + (q : Int)))

/-! ### Registers and counters -/

/-- Key of a register's instance. -/
def rkey (addr inst : Nat) : Nat := addr * 2 ^ 16 + inst

/-- Reset value of a register that holds what was written or the value in effect (18_register_index.md); 0 unless
listed. -/
def regReset (addr : Nat) : Nat :=
  if addr = 0x10050004 then 0x0055C000       -- OBJ.SOUND_SPEED
  else if addr = 0x10050010 then 0x10        -- OBJ.OBJ_CTRL
  else if addr = 0x10050014 ∨ addr = 0x10050018 then 0x4000
  else if addr = 0x1005001C then 0x007FFFFF
  else if 0x10050070 ≤ addr ∧ addr ≤ 0x1005008C then 0x00200000
  else if addr = 0x10070010 then 5           -- XP.RAMP_CTRL
  else if addr = 0x10080010 then 0x14        -- SPK.CTRL
  else if addr = 0x10080014 then 0x00200000  -- SPK.TRIM
  else if addr = 0x10080024 ∨ addr = 0x10080028 then 0x80000000
  else if addr = 0x10090008 then 0xFFF       -- CONV.FILTER
  else if addr = 0x100B0084 then 3           -- NET.RX_CTRL
  else if addr = 0x100C0020 then 4           -- PTP.INC_NS
  else if addr = 0x10100008 then 2           -- AMP.CTRL
  else if addr = 0x10170028 then 0x40000000  -- MEAS.TG_RATIO_HI
  else if addr = 0x10030008 then 1           -- TWIN.CTRL
  else 0

/-- The stored value of a register: what was written, or for an FX register the value in effect (R17). -/
def rget (addr inst : Nat) (s : State) : Nat := sget (regReset addr) (rkey addr inst) s.bus.regs

/-- A register's stored value set. -/
def rset (addr inst v : Nat) (s : State) : State :=
  { s with bus := { s.bus with regs := sset (regReset addr) (rkey addr inst) v s.bus.regs } }

/-- Value of a counter (R17: RC). -/
def cget (addr inst : Nat) (s : State) : Nat := sget 0 (rkey addr inst) s.bus.ctr

/-- A counter set. -/
def cset (addr inst v : Nat) (s : State) : State :=
  { s with bus := { s.bus with ctr := sset 0 (rkey addr inst) v s.bus.ctr } }

/-- A counter advanced; counters saturate at 0xFFFF_FFFF. -/
def count (addr inst n : Nat) (s : State) : State :=
  let s := cset addr inst (min (cget addr inst s + n) 0xFFFFFFFF) s
  { s with bus := { s.bus with total := smod 0 addr (· + n) s.bus.total } }

/-- What a counter has counted since reset. -/
def total (addr : Nat) (s : State) : Nat := sget 0 addr s.bus.total

/-! ### Grid -/

/-- The rate class in effect is 2× (R21). -/
def State.dbl (s : State) : Bool := 2 ≤ s.img.rate

/-- Block length B (R21). -/
def State.B (s : State) : Nat := if s.dbl then 64 else 32

/-- Sub-block length S (R21). -/
def State.S (s : State) : Nat := if s.dbl then 16 else 8

/-- log2 B. -/
def State.lgB (s : State) : Nat := if s.dbl then 6 else 5

/-- The sample rate fs in Hz (R4). -/
def State.fs (s : State) : Nat := match s.img.rate with | 0 => 44100 | 1 => 48000 | 2 => 88200 | _ => 96000

/-- A capacity that halves at 2× rates (R25). -/
def State.half (s : State) (n : Nat) : Nat := if s.dbl then n / 2 else n

/-- First lane and bus sample index that the sections run in block `a` process: B(a − 1) (R646). -/
def State.j0 (s : State) (a : Nat) : Int := (s.B : Int) * ((a : Int) - 1)

/-! ### Event counters -/

/-- One occurrence of a counter source, `n` times (R597): 48-bit counters, saturating. -/
def evcOccur (src n : Nat) (s : State) : State :=
  let hit := (List.range 64).filter (fun k => let w := sget 0 k s.evc.src; bit 15 w && decide (w % 512 = src))
  { s with evc := { s.evc with cnt := hit.foldl (fun m k => sset 0 k (min (sget 0 k m + n) (2 ^ 48 - 1)) m) s.evc.cnt } }

/-! ### Events -/

/-- The order of records raised at one block tick: increasing CODE, then increasing ARG (R593). -/
def evLe (a b : EvRec) : Bool := decide (a.code < b.code) || (decide (a.code = b.code) && decide (a.arg ≤ b.arg))

/-- Insertion of a record after every record that is not after it in that order. -/
def evInsert (r : EvRec) : List EvRec → List EvRec
  | [] => [r]
  | x :: t => if evLe x r then x :: evInsert r t else r :: x :: t

/-- Records renumbered from ESEQ `n` on, modulo 2^32. -/
def evRenumber : Nat → List EvRec → List EvRec
  | _, [] => []
  | n, r :: t => { r with eseq := n % 2 ^ 32 } :: evRenumber (n + 1) t

/-- The last `n` elements of a list. -/
def lastN {α : Type} (n : Nat) (l : List α) : List α := l.drop (l.length - n)

/-- Raising an event (R593, R594). `tick` says that it is raised at the block tick, where R593 orders the records of one
tick by code and argument. -/
def raiseAt (tick : Bool) (code arg : Nat) (s : State) : State :=
  let e := s.ev
  let r : EvRec := ⟨0, code, arg % 65536, s.grid.block⟩
  let t := if tick then min e.atTick e.log.length else 0
  let base := e.eseq + 2 ^ 32 - t + 1
  let cur := evRenumber base (evInsert r (lastN t e.log))
  let log := lastN 64 (e.log.take (e.log.length - t) ++ cur)
  let act := sget 0 code e.actions
  let room := decide (e.sendQ.length < 256)
  let sent := bit 1 act
  let old := e.sendQ.filter (fun x => !((e.log.drop (e.log.length - t)).any (fun y => decide (y.eseq = x.eseq))))
  let q := old ++ (cur.filter (fun x => bit 1 (sget 0 x.code e.actions))).take (256 - old.length)
  let s := { s with ev := { e with
    eseq := (e.eseq + 1) % 2 ^ 32
    log := log
    atTick := if tick then t + 1 else 0
    pend := e.pend ||| (1#256 <<< (code % 256))
    sendQ := q
    logQ := if bit 0 act then e.logQ ++ [(0x0100 + code, arg % 65536)] else e.logQ
    lost := if sent && !room then e.lost + 1 else e.lost } }
  let s := if sent && !room
    then { count 0x10140034 0 1 s with tcm := { s.tcm with evtLost := true } } else s
  evcOccur code 1 s

/-- A fault-log entry is asked for (R574): KIND and DATA. -/
def logEntry (kind data : Nat) (s : State) : State := { s with ev := { s.ev with logQ := s.ev.logQ ++ [(kind, data)] } }

/-- Raising an event inside a block. -/
def raise (code arg : Nat) (s : State) : State := raiseAt false code arg s

/-- Raising an event at the block tick. -/
def raiseTick (code arg : Nat) (s : State) : State := raiseAt true code arg s

/-- Raising an event that is raised at most once per block. -/
def raiseOnce (code arg : Nat) (s : State) : State :=
  if s.ev.once.contains code then s
  else raise code arg { s with ev := { s.ev with once := code :: s.ev.once } }

/-! ### The guarantee (R55) -/

/-- A condition of the guarantee fails in the current block (R55): CONDITIONS_MET is cleared, the block recorded, and
EV_DET_LAPSE raised when the condition held in the block before; `tick` says that it fails at the block tick. -/
def lapseAt (tick : Bool) (s : State) : State :=
  if !s.grid.running then s
  else if s.grid.met then
    let s' := { s with grid := { s.grid with met := false, lapse := s.grid.block } }
    if s.grid.prevMet then raiseAt tick 0x00 0 s' else s'
  else { s with grid := { s.grid with lapse := s.grid.block } }

/-- A condition fails inside a block. -/
def lapse (s : State) : State := lapseAt false s

/-- A condition fails at the block tick. -/
def lapseTick (s : State) : State := lapseAt true s

/-! ### Outcomes -/

/-- The command acts on a numbered instance: `what` names the kind, `n` is how many there are. -/
def withInstance (what : String) (i n : Nat) (t : State) : Host.Outcome State Fault Refusal :=
  if i < n then .next t else .fault (.noSuchInstance what i)

end Sys2Proof.Machine
end

