-- ==== Sys2Proof/Machine/Memory.lean ====
section
/-!
DEFINITION. DRAM, working SRAM and the rules of the control interconnect (chapter 14).
-/
namespace Sys2Proof.Machine

/-! ### Byte stores -/

/-- A byte of a memory; a byte that nothing has written reads as 0 (DESIGN CHOICE, assumption 1). -/
def byteAt (a : Nat) (m : List Host.Cell) : Byte := sget 0 a m

/-- A byte written. -/
def putByte (a : Nat) (v : Byte) (m : List Host.Cell) : List Host.Cell := sset 0 a v m

/-- Bytes written from an address on. -/
def putBytes (a : Nat) (l : List Nat) (m : List Host.Cell) : List Host.Cell := ssetList 0 a (l.map (BitVec.ofNat 8)) m

/-- `n` bytes as numbers. -/
def getBytes (a n : Nat) (m : List Host.Cell) : List Nat := (sgetList 0 a n m).map BitVec.toNat

/-- The little-endian word at an address (R14). -/
def wordAt (a : Nat) (m : List Host.Cell) : Nat := le (getBytes a 4 m)

/-- A little-endian word written. -/
def putWord (a v : Nat) (m : List Host.Cell) : List Host.Cell := putBytes a (leBytes 4 v) m

/-- A byte store is canonical: addresses strictly rising, and no entry equal to what an unlisted address reads as. -/
def Memory.wf (unlisted : Byte) : List Host.Cell → Bool
  | [] => true
  | [c] => decide (c.2 ≠ unlisted)
  | c :: d :: t => decide (c.2 ≠ unlisted) && decide (c.1 < d.1) && Memory.wf unlisted (d :: t)

/-! ### DRAM -/

/-- Bytes per channel of the geometry in effect (R484): density × ranks × 8 devices. -/
def channelBytes (s : State) : Nat := 2 ^ 32 * 2 ^ s.mem.density * s.mem.ranks

/-- Total DRAM capacity. -/
def dramBytes (s : State) : Nat := 2 * channelBytes s

/-- Channel of a DRAM byte address (R485). -/
def channelOf (a : Nat) : Nat := a / 256 % 2

/-- Address within the channel: bit 8 removed (R485). -/
def inChannel (a : Nat) : Nat := a / 512 * 256 + a % 256

/-- The highest 8 KiB of each rank is reserved (R485). -/
def dramReserved (s : State) (a : Nat) : Bool :=
  let r := channelBytes s / s.mem.ranks
  decide (r - 8192 ≤ inChannel a % r)

/-- A channel's state. -/
def chanGet (i : Nat) (s : State) : Channel := if i = 0 then s.mem.ch0 else s.mem.ch1

/-- A channel's state set. -/
def chanSet (i : Nat) (c : Channel) (s : State) : State :=
  if i = 0 then { s with mem := { s.mem with ch0 := c } } else { s with mem := { s.mem with ch1 := c } }

/-- MEM_POISON set and the lapse recorded (R499). -/
def setPoison (s : State) : State :=
  lapse { s with grid := { s.grid with memPoison := true, poisonIn := s.grid.block + 1 } }

/-- A poisoned word is delivered from DRAM on a QoS port (R499, R502); the fault log takes its address (R574). -/
def deliverPoison (addr port now : Nat) (s : State) : State :=
  let s := count 0x10120034 0 1 s
  let s := { s with mem := { s.mem with
    eccAddr := addr / 8 * 8
    eccInfo := port % 8 + channelOf addr * 8 + 2 ^ 31
    poisonTimes := (now :: s.mem.poisonTimes).filter (fun t => decide (now < t + 32000000)) } }
  raise 0x7D (channelOf addr) (logEntry 7 (addr / 8 * 8) (setPoison s))

/-- The word of 8 bytes at an address is delivered poisoned: marked, or its channel has failed (R497, R500). -/
def isPoisoned (s : State) (a : Nat) : Bool := s.mem.poison.contains (a / 8) || (chanGet (channelOf a) s).dead

/-- A DRAM byte as a requester reads it: reserved addresses and poisoned words read as 0 (R485, R500). -/
def dramByte (s : State) (a : Nat) : Nat :=
  if dramReserved s a || isPoisoned s a then 0 else (byteAt a s.mem.dram).toNat

/-- `n` DRAM bytes as a requester reads them. -/
def dramRead (s : State) (a n : Nat) : List Nat :=
  ((getBytes a n s.mem.dram).zipIdx).map (fun ((b : Nat), (i : Nat)) =>
    if dramReserved s (a + i) || isPoisoned s (a + i) then 0 else b)

/-- Little-endian word read from DRAM. -/
def dramWord (s : State) (a : Nat) : Nat := le ((List.range 4).map (fun i => dramByte s (a + i)))

/-- A write of `l` within one 8-byte word (R485, R497, R501): reserved addresses and failed channels drop it, a full write
over a poisoned word clears the poison, a partial write stores zeros in the remaining bytes and counts the word. -/
def dramWriteIn (a : Nat) (l : List Nat) (s : State) : State :=
  if dramReserved s a || (chanGet (channelOf a) s).dead then s
  else
    let w := a / 8
    let marked := s.mem.poison.contains w
    let base := if marked then putBytes (8 * w) (List.replicate 8 0) s.mem.dram else s.mem.dram
    let s' := { s with mem := { s.mem with
      dram := putBytes a l base
      poison := s.mem.poison.filter (· ≠ w)
      writeBack := s.mem.writeBack.filter (· ≠ w) } }
    if marked && decide (l.length < 8) then count 0x10120034 0 1 s' else s'

/-- A write of bytes from an address on, split at 8-byte words. -/
def dramWrite : Nat → Nat → List Nat → State → State
  | 0, _, _, s => s
  | fuel + 1, a, l, s =>
    if l.isEmpty then s
    else
      let n := 8 - a % 8
      dramWrite fuel (a + n) (l.drop n) (dramWriteIn a (l.take n) s)

/-- Bytes written to DRAM. -/
def dramPut (a : Nat) (l : List Nat) (s : State) : State := dramWrite (l.length + 1) a l s

/-- Bytes of whole 8-byte words written at once, in a region without reserved addresses (R501, R565). -/
def dramFill (a : Nat) (l : List Nat) (s : State) : State :=
  if s.mem.ch0.dead || s.mem.ch1.dead then dramPut a l s
  else
    let out := fun (w : Nat) => decide (w < a / 8) || decide ((a + l.length) / 8 ≤ w)
    { s with mem := { s.mem with
      dram := putBytes a l s.mem.dram, poison := s.mem.poison.filter out, writeBack := s.mem.writeBack.filter out } }

/-- `n` bytes of whole words set to 0 at once. -/
def dramZero (a n : Nat) (s : State) : State :=
  if s.mem.ch0.dead || s.mem.ch1.dead then dramPut a (List.replicate n 0) s
  else
    let out := fun (w : Nat) => decide (w < a / 8) || decide ((a + n) / 8 ≤ w)
    { s with mem := { s.mem with
      dram := s.mem.dram.filter (fun c => decide (c.1 < a) || decide (a + n ≤ c.1))
      poison := s.mem.poison.filter out, writeBack := s.mem.writeBack.filter out } }

/-- Base of a region of the DRAM plan by its kind (R565). -/
def planBase (kind : Nat) (s : State) : Nat := ((s.img.plan.find? (fun r => decide (r.1 = kind))).map Prod.snd).getD 0

/-! ### External addresses of block moves -/

/-- External bytes lie in DRAM. -/
def inDram (a n : Nat) (s : State) : Bool := decide (a + n ≤ dramBytes s)

/-- External bytes lie in the 64 MiB of FAB SRAM (R282, R506), wherever it stands. -/
def inFab (a n : Nat) : Bool := decide (Config.fabSramBase ≤ a) && decide (a + n ≤ Config.fabSramBase + 2 ^ 26)

/-- Offset of an external address in FAB SRAM. -/
def fabOff (a : Nat) : Nat := a - Config.fabSramBase

/-! ### Poisoned and corrected reads -/

/-- A correctable error: the word is counted and waits for its write-back (R498). -/
def correctRead (addr : Nat) (s : State) : State :=
  count 0x10120030 0 1 { s with mem := { s.mem with writeBack := (addr / 8) :: s.mem.writeBack.filter (· ≠ addr / 8) } }

/-- A poison mark set on the word of 8 bytes at an address. -/
def markPoison (addr : Nat) (s : State) : State :=
  { s with mem := { s.mem with poison := if s.mem.poison.contains (addr / 8) then s.mem.poison
                                         else (addr / 8) :: s.mem.poison } }

/-- An SRAM word delivered poisoned (R507): array and word, which the fault log takes as MC.SRAM_INFO has them (R574). -/
def sramPoison (array word now : Nat) (s : State) : State :=
  let s := count 0x1012004C 0 1 s
  let s := { s with mem := { s.mem with
    sramInfo := array % 256 + (word % 2 ^ 22) * 256 + 2 ^ 31
    poisonTimes := (now :: s.mem.poisonTimes).filter (fun t => decide (now < t + 32000000)) } }
  raise 0x7E array (logEntry 7 (array % 256 + (word % 2 ^ 22) * 256) (setPoison s))

/-- More than 16 poisoned deliveries within one second (R502). -/
def poisonBurst (s : State) : Bool := decide (16 < s.mem.poisonTimes.length)

/-! ### Refresh and temperature -/

/-- Refreshes of a rank that may be postponed (R493). -/
def refreshLimit (c : Channel) : Nat := if c.doubleRate then 4 else 8

/-- Refreshes postponed of a rank. -/
def owedOf (rank : Nat) (c : Channel) : Nat := if rank = 0 then c.owed0 else c.owed1

/-- Refreshes postponed of a rank set. -/
def setOwed (rank n : Nat) (c : Channel) : Channel := if rank = 0 then { c with owed0 := n } else { c with owed1 := n }

/-- A command enters the retry buffer, which keeps the last 16 (R496). -/
def pushRetry (code : Nat) (c : Channel) : Channel := { c with retry := lastN 16 (c.retry ++ [code]) }

/-- A move of at most 1/64 unit interval towards the centre. -/
def oneStep (x : Int) : Int := if x > 0 then 1 else if x < 0 then -1 else 0

/-- Each byte lane's read sample point moves towards the centre (R490): `off` gives centre less point, by lane. -/
def centre (rank : Nat) (off : List Int) (c : Channel) : Channel :=
  { c with points := (off.zipIdx).foldl (fun m (x, lane) => smod 0 (rank * 16 + lane) (· + oneStep x) m) c.points }

/-- Owed refreshes issued back to back (R494). -/
def issueOwed (rank : Nat) (c : Channel) : Channel :=
  setOwed rank 0 ((List.range (owedOf rank c)).foldl (fun c _ => pushRetry 0 c) c)

/-- A rank's refresh interval expires (R491, R493): while the rank has reads or writes waiting and is below its limit the
refresh is postponed, otherwise it is issued, with the owed ones when nothing waits. -/
def refreshDue (rank : Nat) (waiting : Bool) (off : List Int) (c : Channel) : Channel :=
  if waiting && decide (owedOf rank c < refreshLimit c) then setOwed rank (owedOf rank c + 1) c
  else centre rank off (pushRetry 0 (if waiting then c else issueOwed rank c))

/-- Double rate entered (R494) or left. -/
def setDouble (on : Bool) (c : Channel) : Channel :=
  if on then (if c.doubleRate then c else { issueOwed 1 (issueOwed 0 c) with doubleRate := true })
  else { c with doubleRate := false }

/-- The refresh mode of both channels. -/
def refreshMode (on : Bool) (s : State) : State :=
  { s with mem := { s.mem with ch0 := setDouble on s.mem.ch0, ch1 := setDouble on s.mem.ch1 } }

/-- DRAM_HOT at a level: low means above 85 °C (R492). -/
def hotChange (low : Bool) (s : State) : State :=
  let s := { s with mem := { s.mem with hotLow := low } }
  if s.mem.tempI2c then s else refreshMode low s

/-- An I2C temperature read: its value in 0.25 °C, or none where it failed (R491, R492). -/
def tempRead (r : Option Int) (s : State) : State :=
  if !s.mem.tempI2c then s
  else match r with
    | some t =>
      let s := { s with mem := { s.mem with temp := t, tempFails := 0 } }
      if t > 340 then refreshMode true s else if t ≤ 332 then refreshMode false s else s
    | none =>
      let n := s.mem.tempFails + 1
      let s := { s with mem := { s.mem with tempFails := min n 3 } }
      if n = 3 then raise 0x7A 0 (refreshMode true s) else if 3 ≤ n then refreshMode true s else s

/-- A failed channel (R497): once. -/
def channelFail (i : Nat) (s : State) : State :=
  let c := chanGet i s
  if c.dead then s else raise 0x7C i (chanSet i { c with dead := true } s)

/-! ### The control interconnect -/

/-- A target of the crossbar (R510, R515). -/
inductive Target where
  | rom | sram | regs | nvm | window | unmapped
deriving DecidableEq, Repr

/-- Target of a control address (R512, R515); `remap` is SYS.REMAP. -/
def targetOf (remap : Bool) (a : Nat) : Target :=
  if a < 0x00100000 then
    if remap then (if a < 0x40000 then .sram else .unmapped) else (if a < 0x20000 then .rom else .unmapped)
  else if 0x00100000 ≤ a ∧ a < 0x00120000 then .rom
  else if 0x00200000 ≤ a ∧ a < 0x00240000 then .sram
  else if 0x10130000 ≤ a ∧ a < 0x10140000 then .nvm
  else if 0x10000000 ≤ a ∧ a < 0x10180000 then .regs
  else if 0x80000000 ≤ a ∧ a < 0x100000000 then .window
  else .unmapped

/-- The master has a path for this access (R510): 0 SV, 1 boot loader, 2 control-message engine, 3 twin link,
4 JTAG debug. -/
def hasPath (master : Nat) (t : Target) (write : Bool) : Bool :=
  match master, t with
  | 0, .rom => !write
  | 0, _ => true
  | 1, .sram => write
  | 1, .regs => write
  | 1, .nvm => true
  | 1, .window => write
  | 2, .regs => true
  | 2, .nvm => true
  | 2, .window => true
  | 3, .regs => write
  | 3, .window => true
  | 4, .sram => !write
  | 4, .regs => true
  | 4, .window => !write
  | _, _ => false

/-- A bus error (R513): recorded and counted; causes 0 size, 1 no path, 2 unmapped, 3 outside DRAM, 4 outside host
region. -/
def busError (master addr cause : Nat) (write : Bool) (s : State) : State :=
  let s := { s with bus := { s.bus with
    errAddr := addr % 2 ^ 32
    errInfo := master + cause * 8 + bitIf write 6 + 2 ^ 31 } }
  raise 0x7F 0 (count 0x1000030C 0 1 s)

/-- Window base of a master (R514). -/
def windowBase (master : Nat) (s : State) : Nat := rget 0x10120014 master s + rget 0x10120018 master s * 2 ^ 32

/-- DRAM address of a window access. -/
def windowAddr (master addr : Nat) (s : State) : Nat := windowBase master s + addr % 0x80000000

/-- The working-SRAM or ROM offset of an address. -/
def localOffset (a : Nat) : Nat := a % 0x00100000

/-- A window word read (R513, R514): value, bus-error cause, state. -/
def windowRead (master addr : Nat) (s : State) : Nat × Option Nat × State :=
  let a := windowAddr master addr s
  if a + 4 ≤ dramBytes s then (dramWord s a, none, s) else (0, some 3, s)

/-- A window word written (R513, R514). -/
def windowWrite (master addr v : Nat) (s : State) : Option Nat × State :=
  let a := windowAddr master addr s
  if dramBytes s < a + 4 then (some 3, s)
  else if master = 2 && !(decide (s.mem.hostBase ≤ a) && decide (a + 4 ≤ s.mem.hostBase + s.mem.hostLen)) then (some 4, s)
  else (none, dramPut a (leBytes 4 v) s)

/-! ### Registers -/

/-- MC.CH_STATUS. -/
def chStatus (c : Channel) : Nat :=
  c.step + bitIf c.trained 3 + bitIf c.failed 4 + c.failStep * 2 ^ 5 + c.failLane * 2 ^ 8 + bitIf c.doubleRate 12
    + c.owed0 * 2 ^ 13 + c.owed1 * 2 ^ 17 + bitIf c.dead 21

/-- The RO registers of the MC block; `ch` is the selected channel. -/
def mcReg (off ch : Nat) (s : State) : Nat :=
  let m := s.mem
  match off with
  | 0x00 => if m.valid then m.density + bitIf (decide (m.ranks = 2)) 2 + bitIf m.qosTarget 3 + bitIf m.tempI2c 4 + 2 ^ 31 else 0
  | 0x04 => m.recordErr
  | 0x0C => chStatus (chanGet (ch % 2) s)
  | 0x10 => pattern 16 m.temp
  | 0x1C => m.hostBase % 2 ^ 32
  | 0x20 => m.hostBase / 2 ^ 32
  | 0x24 => m.hostLen / 2 ^ 20
  | 0x38 => m.eccAddr % 2 ^ 32
  | 0x3C => m.eccAddr / 2 ^ 32
  | 0x40 => m.eccInfo
  | 0x50 => m.sramInfo
  | 0x54 => m.dramPasses % 65536 + (m.sramPasses % 65536) * 65536
  | 0x58 => m.bistNext % 2048 + (m.bistFailed % 2048) * 2048
  | _ => 0

end Sys2Proof.Machine
end

