-- ==== Sys2Proof/Machine/Objects.lean ====
section
/-!
DEFINITION. The object engine (chapter 02): OPS records, keyframe queues, segments, emission delay, distance gain, air
absorption and the object section.
-/
namespace Sys2Proof.Machine

/-! ### Components -/

/-- A component-wise map of two triples. -/
def V3.zip (f : Int → Int → Int) (a b : V3) : V3 := ⟨f a.x b.x, f a.y b.y, f a.z b.z⟩

/-- Polar to Cartesian (R80): azimuth, elevation, distance to x, y, z, each product rounded once. -/
def toCart (p : V3) : V3 :=
  ⟨rhuBits 44 (-(p.z * cosU p.y * sinU p.x)), rhuBits 44 (p.z * cosU p.y * cosU p.x), rhuBits 22 (p.z * sinU p.y)⟩

/-- Distance of a Cartesian point: √(x² + y² + z²) rounded, saturated to 0x7F_FFFF (R80, R82). -/
def distOf (p : V3) : Int := min (roundSqrt (p.x * p.x + p.y * p.y + p.z * p.z).natAbs : Nat) 0x7FFFFF

/-- Cartesian to polar (R80). -/
def toPolar (p : V3) : V3 := ⟨azimuthOf p.x p.y, elevationOf p.x p.y p.z, distOf p⟩

/-! ### OPS records -/

/-- A 40-byte OPS record read as a keyframe, and whether a reserved bit is set (R65, R68). -/
def parseRecord (r : List Nat) : Keyframe × Bool :=
  let u := fun o n => be (slice o n r)
  let f := u 2 2
  let i32 := fun o => signExt 32 (u o 4)
  ({ obj := u 0 2 % 1024
     coord := bit 0 f, interp := bit 1 f, jump := bit 2 f
     hasPos := bit 3 f, hasGain := bit 4 f, hasExt := bit 5 f, hasZone := bit 6 f, hasLock := bit 7 f
     t := u 4 8
     pos := ⟨i32 12, i32 16, i32 20⟩
     gain := signExt 24 (u 24 3)
     zone := u 27 1 % 64
     ext := ⟨u 28 2, u 30 2, u 32 2⟩
     lockTol := u 34 2
     interpLen := u 36 2 },
   decide (u 0 2 / 1024 ≠ 0) || decide (f / 256 ≠ 0) || decide (u 27 1 / 64 ≠ 0) || decide (u 38 2 ≠ 0))

/-- A record is rejected alone under R68. -/
def recordRejected (s : State) (k : Keyframe) (reserved : Bool) : Bool :=
  reserved || decide (s.img.objs.length ≤ k.obj)
    || !(k.hasPos || k.hasGain || k.hasExt || k.hasZone || k.hasLock)
    || (k.hasPos && !k.coord && !(decide (-11520 ≤ k.pos.x) && decide (k.pos.x ≤ 11519) && decide (-5760 ≤ k.pos.y)
          && decide (k.pos.y ≤ 5760) && decide (0 ≤ k.pos.z) && decide (k.pos.z ≤ 0x7FFFFF)))
    || (k.hasPos && k.coord && !([k.pos.x, k.pos.y, k.pos.z].all (fun c => decide (satBits 24 c = c))))
    || (k.hasExt && (decide (k.ext.x > 23040) || decide (k.ext.y > 11520)))
    || (k.hasLock && decide (k.lockTol > 11520))

/-- Insertion in stamp order. -/
def kfInsert (k : Keyframe) : List Keyframe → List Keyframe
  | [] => [k]
  | q :: t => if k.t < q.t then k :: q :: t else q :: kfInsert k t

/-- State of an object. -/
def objGet (k : Nat) (s : State) : ObjState := sget ObjState.empty k s.obj

/-- State of an object set. -/
def objSet (k : Nat) (o : ObjState) (s : State) : State := { s with obj := sset ObjState.empty k o s.obj }

/-- Counter and event of a keyframe rule, raised at the tick with the object as argument. -/
def kfNote (ctr code obj : Nat) (s : State) : State := raiseTick code obj (count ctr 0 1 s)

/-- Entry of a keyframe for block `r`: the table "Keyframe entry" (R74) and lateness (R75). -/
def enterKeyframe (r : Nat) (k : Keyframe) (s : State) : State :=
  let o := objGet k.obj s
  let late := fun s => if k.t + 4 * s.S ≤ s.B * r then kfNote 0x100500C0 0x18 k.obj s else s
  if (o.popped.map (fun p => decide (k.t ≤ p))).getD false then kfNote 0x100500C4 0x14 k.obj s
  else if k.t > s.B * r + 16777216 then kfNote 0x100500D0 0x15 k.obj s
  else if o.queue.any (fun q => decide (q.t = k.t)) then
    late (kfNote 0x100500C8 0x16 k.obj
      (objSet k.obj { o with queue := o.queue.map (fun q => if q.t = k.t then k else q) } s))
  else if 8 ≤ o.queue.length then
    let s' := kfNote 0x100500CC 0x17 k.obj s
    let kept := (kfInsert k o.queue).take 8
    let s' := objSet k.obj { o with queue := kept } s'
    if kept.any (fun q => decide (q.t = k.t)) then late s' else s'
  else late (objSet k.obj { o with queue := kfInsert k o.queue } s)

/-- Stop state of a function (R254); RUNNING unless listed. -/
def fnGet (kind index : Nat) (s : State) : FnState := sget ⟨0, false, 0, 0⟩ (kind * 65536 + index) s.sched.fn

/-- The pending START of a function: the first registered one that acts after its stop bath (R259). -/
def pendingStart (kind index : Nat) (s : State) : Option StopReq :=
  let f := fnGet kind index s
  if f.st = 0 then none
  else s.sched.dl3.find? (fun r => r.start && decide (r.kind = kind) && decide (r.index = index) && decide (f.act < r.act))

/-- Block at which the pending START of a function acts (R259, R260). -/
def startsAt (kind index : Nat) (s : State) : Option Nat := (pendingStart kind index s).map StopReq.act

/-- Stop state of a function set. -/
def fnSet (kind index : Nat) (f : FnState) (s : State) : State :=
  { s with sched := { s.sched with fn := sset ⟨0, false, 0, 0⟩ (kind * 65536 + index) f s.sched.fn } }

/-- The function's operations are not dispatched: CLEARING, from the tick after the fade's block, IDLE or waiting for START
(R257, R258). -/
def stopped (kind index : Nat) (s : State) : Bool :=
  let f := fnGet kind index s
  decide (3 ≤ f.st) || (decide (f.st = 2) && decide (f.act + 1 ≤ s.grid.block))

/-- Data for an idle or clearing function is discarded and counted (R258). -/
def idleDrop (n : Nat) (s : State) : State := count 0x10040064 0 n s

/-- Entry of a record for block `r`: rejected alone (R68), discarded for a stopped object (R258), or entered. -/
def enterRecord (r : Nat) (bytes : List Nat) (s : State) : State :=
  let (k, reserved) := parseRecord bytes
  if recordRejected s k reserved then kfNote 0x100500DC 0x12 k.obj s
  else if stopped 4 k.obj s then idleDrop 1 s
  else enterKeyframe r k s

/-! ### Segments -/

/-- Value of a segment at sample index `i` (R76); for a polar position the azimuth takes the shorter arc. -/
def segValue (polar : Bool) (g : Seg) (i : Int) : V3 :=
  if i < g.ts then g.vs
  else if g.te ≤ i then g.ve
  else
    let step := fun (d : Int) => rhu (d * (i - g.ts)) (g.te - g.ts)
    let lin := V3.zip (fun a b => a + step (b - a)) g.vs g.ve
    if polar then { lin with x := wrapAz (g.vs.x + step (wrapAz (g.ve.x - g.vs.x))) } else lin

/-- The segment that a popped keyframe forms (R77). -/
def nextSeg (k : Keyframe) (polar : Bool) (g : Seg) (v : V3) : Seg :=
  if k.interp then ⟨k.t, v, k.t, v⟩
  else if k.jump then ⟨k.t, segValue polar g k.t, (k.t : Int) + k.interpLen, v⟩
  else ⟨g.te, g.ve, k.t, v⟩

/-- A start value converted when the coordinate system changes (R79). -/
def convertStart (fromCart toCart' : Bool) (v : V3) : V3 :=
  if fromCart = toCart' then v else if toCart' then toCart v else toPolar v

/-- The head of the queue pops at boundary `b` (R77). -/
def popsAt (k : Keyframe) (o : ObjState) (b : Int) : Bool :=
  if k.interp || k.jump then decide ((k.t : Int) ≤ b)
  else if k.hasPos || k.hasGain || k.hasExt then
    (!k.hasPos || decide (o.pos.te ≤ b)) && (!k.hasGain || decide (o.gain.te ≤ b)) && (!k.hasExt || decide (o.ext.te ≤ b))
  else decide ((k.t : Int) ≤ b)

/-- The object after keyframe `k` has been popped (R77). -/
def popOne (k : Keyframe) (rest : List Keyframe) (o : ObjState) : ObjState :=
  let pos :=
    if k.hasPos then
      let g := nextSeg k (!o.cart) o.pos k.pos
      if k.interp then g else { g with vs := convertStart o.cart k.coord g.vs }
    else o.pos
  let zl : List ZoneLock :=
    if k.hasZone || k.hasLock || k.hasPos then
      [⟨k.t, if k.hasZone then some k.zone else none,
        if k.hasLock then some (true, k.lockTol) else if k.hasPos then some (false, k.lockTol) else none⟩]
    else []
  { o with
    queue := rest
    popped := some k.t
    pos := pos
    cart := if k.hasPos then k.coord else o.cart
    gain := if k.hasGain then nextSeg k false o.gain ⟨k.gain, 0, 0⟩ else o.gain
    ext := if k.hasExt then nextSeg k false o.ext k.ext else o.ext
    pendingZL := o.pendingZL ++ zl }

/-- Popping at boundary `b`; the queue holds at most 8 keyframes. -/
def popLoop (b : Int) : Nat → ObjState → ObjState
  | 0, o => o
  | n + 1, o =>
    match o.queue with
    | [] => o
    | k :: rest => if popsAt k o b then popLoop b n (popOne k rest o) else o

/-- Insertion of a setting in stamp order, after settings of the same stamp. -/
def zlInsert (z : ZoneLock) : List ZoneLock → List ZoneLock
  | [] => [z]
  | x :: t => if z.t < x.t then z :: x :: t else x :: zlInsert z t

/-- Zone and lock settings due at boundary `b`, in stamp order (R78). -/
def settle (b : Int) (o : ObjState) : ObjState :=
  let due := (o.pendingZL.filter (fun z => decide ((z.t : Int) ≤ b))).foldl (fun l z => zlInsert z l) []
  let o := { o with pendingZL := o.pendingZL.filter (fun z => !decide ((z.t : Int) ≤ b)) }
  due.foldl (fun o z =>
    let o := match z.zone with | some m => { o with zone := m } | none => o
    match z.lock with
    | some (true, tol) => { o with lock := true, lockTol := tol }
    | some (false, _) => { o with lock := false }
    | none => o) o

/-! ### Distance, emission and gain -/

/-- log2 L of an object's delay ring. -/
def ringLog (s : State) (k : Nat) : Nat := ((s.img.objs[k]?).map ObjCfg.ring).getD 12

/-- Delay-ring lengths of the objects before object `k`, summed. -/
def ringsBefore (s : State) (k : Nat) : Nat := ((s.img.objs.take k).map (fun c => 2 ^ c.ring)).foldl (· + ·) 0

/-- DRAM address of an object's history ring, of 16 L / S bytes (R83, R565). -/
def histBase (s : State) (k : Nat) : Nat := planBase 2 s + 16 * (ringsBefore s k / s.S)

/-- DRAM address of the history entry for boundary `b` (R83). -/
def histAddr (s : State) (k : Nat) (b : Int) : Nat :=
  histBase s k + 16 * ((b / (s.S : Int)) % ((2 ^ ringLog s k / s.S : Nat) : Int)).toNat

/-- The 16 bytes of a history entry: x, y, z and d as sign-extended words (R83, R14). -/
def histBytes (p : V3) (d : Int) : List Nat := [p.x, p.y, p.z, d].flatMap (fun v => leBytes 4 (pattern 32 v))

/-- The history entry for boundary `b`, as DRAM delivers it (R83, R500). -/
def histEntry (s : State) (k : Nat) (b : Int) : V3 × Int :=
  let w := fun o => signExt 32 (dramWord s (histAddr s k b + o))
  (⟨w 0, w 4, w 8⟩, w 12)

/-- Every entry of an object's history ring holds one position and distance (R83). -/
def histFill (k : Nat) (p : V3) (d : Int) (s : State) : State :=
  dramFill (histBase s k) ((List.replicate (2 ^ ringLog s k / s.S) (histBytes p d)).flatten) s

/-- Position and distance at the instant `tau` in 2^-14 samples, the history holding the boundaries to `b` (R83): the oldest
entry before all of them. -/
def histAt (s : State) (k : Nat) (b tau : Int) : V3 × Int :=
  let S : Int := s.S
  let m := tau / (S * 2 ^ 14) * S
  let old := b - 2 ^ ringLog s k + S
  if m < old then histEntry s k old
  else if b ≤ m then histEntry s k b
  else
    let h := histEntry s k m
    let n := histEntry s k (m + S)
    let f := fun (x y : Int) => x + rhu ((y - x) * (tau - m * 2 ^ 14)) (S * 2 ^ 14)
    (V3.zip f h.1 n.1, f h.2 n.2)

/-- g(τ) of R84 at the scale 2^28; `d` gives the distance at an instant. -/
def gOf (c fs : Int) (bq : Int) (d : Int → Int) (tau : Int) : Int := c * (bq - tau) - fs * d tau * 2 ^ 14

/-- The first piece in which g changes sign, solved linearly (R84). -/
def solvePiece (g : Int → Int) : Int → List Int → Int
  | ta, [] => ta
  | ta, tb :: rest => if g tb < 0 then ta + rhu (g ta * (tb - ta)) (g ta - g tb) else solvePiece g tb rest

/-- The emission instant at boundary `b` from the instant at b − S, and whether it was clamped (R84). -/
def solveEmission (S : Nat) (c fs : Int) (b e : Int) (d : Int → Int) : Int × Bool :=
  let bq := b * 2 ^ 14
  let sq : Int := (S : Int) * 2 ^ 14
  let lo := e + sq / 2
  let hi := min (e + 2 * sq) bq
  let g := gOf c fs bq d
  if g lo < 0 then (lo, true)
  else if g hi > 0 then (hi, true)
  else if g hi = 0 then (hi, false)
  else
    let k := lo / sq + 1
    let cuts := ([0, 1, 2].map (fun (n : Nat) => (k + (n : Int)) * sq)).filter (fun t => decide (t < hi))
    (solvePiece g lo (cuts ++ [hi]), false)

/-- Parameters of an object in effect: OBJ_CTRL, d_ref, d_min, d_max, BASE_DELAY, sound speed. -/
structure ObjPar where
  ctrl : Nat
  dref : Int
  dmin : Int
  dmax : Int
  base : Int
  c : Int
  dmaxDelay : Int
  fs : Int
  S : Nat
deriving DecidableEq, Repr

/-- DMAX of R87: 2.0 s in samples or L − 2B, whichever is smaller, in 2^-14 samples. -/
def delayMax (s : State) (k : Nat) : Int :=
  min ((2 * s.fs : Nat) : Int) ((2 ^ ringLog s k : Nat) - (2 * s.B : Nat) : Int) * 2 ^ 14

/-- The parameters in effect for object `k`. -/
def objPar (s : State) (k : Nat) : ObjPar where
  ctrl := rget 0x10050010 k s
  dref := signExt 24 (rget 0x10050014 k s)
  dmin := signExt 24 (rget 0x10050018 k s)
  dmax := signExt 24 (rget 0x1005001C k s)
  base := signExt 32 (rget 0x10050020 k s)
  c := (rget 0x10050004 0 s % 2 ^ 24 : Nat)
  dmaxDelay := delayMax s k
  fs := s.fs
  S := s.S

/-- The total delay D(b) for an emission instant `e`, before the clamp (R85 to R87). -/
def delayRaw (p : ObjPar) (b e : Int) : Int := p.base + (if bit 2 p.ctrl then b * 2 ^ 14 - e else 0)

/-- The total delay clamped to [2.0, DMAX] (R87). -/
def delayOf (p : ObjPar) (b e : Int) : Int := max (2 * 2 ^ 14) (min (delayRaw p b e) p.dmaxDelay)

/-- d_eff of R91: DEPTH is in 2^-8 m. -/
def dEff (p : ObjPar) (dEm depth : Int) : Int := max (dEm - depth * 32) p.dmin

/-- The distance gain g_d (R91); d_eff = 0 needs a d_min below 0, which R13 admits and R91 does not reject. -/
def distGain (p : ObjPar) (de : Int) : Int :=
  match p.ctrl % 4 with
  | 1 =>
    satGain (if de = 0 then Config.gainAtZero p.dref
      else if de < 0 then rhu (-(p.dref * 2 ^ 21)) (-de) else rhu (p.dref * 2 ^ 21) de)
  | 2 =>
    if de ≤ p.dref then 2 ^ 21
    else if p.dmax ≤ de then 0
    else satGain (rhu ((p.dmax - de) * 2 ^ 21) (p.dmax - p.dref))
  | _ => 2 ^ 21

/-- Entry j of the air table in effect. -/
def airEntry (s : State) (j : Nat) : Int := signExt 24 (rget (0x10050070 + 4 * j) 0 s)

/-- The air coefficient of R93. -/
def airCoef (s : State) (de : Int) : Int :=
  if de < 65536 then airEntry s 0
  else
    let j := Nat.log2 (de.toNat / 65536)
    if 7 ≤ j then airEntry s 7
    else
      let d0 : Int := 65536 * 2 ^ j
      airEntry s j + rhu ((airEntry s (j + 1) - airEntry s j) * (de - d0)) d0

/-- The emission instant that sound standing at distance `d` at boundary `b` left at (R84 on START), and b itself with
DELAY_EN = 0 (R86). -/
def emissionAt (p : ObjPar) (b d : Int) : Int :=
  if bit 2 p.ctrl then b * 2 ^ 14 - rhu (p.fs * d * 2 ^ 14) p.c else b * 2 ^ 14

/-- One boundary of object `k`: steps 2 to 7 of R61. Answers the object, whether the emission instant and the delay were
clamped, and the state with the history entry written. -/
def evalBoundary (k : Nat) (p : ObjPar) (b : Int) (o : ObjState) (s : State) : ObjState × Bool × Bool × State :=
  let o := settle b (popLoop b 8 o)
  let raw := segValue (!o.cart) o.pos b
  let pb := if o.cart then raw else toCart raw
  let g := (segValue false o.gain b).x
  let ex := segValue false o.ext b
  let s := dramPut (histAddr s k b) (histBytes pb (distOf pb)) s
  let (e, glide) := if bit 2 p.ctrl then solveEmission p.S p.c p.fs b o.e (fun tau => (histAt s k b tau).2)
    else (b * 2 ^ 14, false)
  let (pEm, dEm) := histAt s k b e
  let de := dEff p dEm ex.z
  let gain := satGain (rhuBits 21 (g * distGain p de))
  ({ o with
     e := e
     b := b
     air := airCoef s de
     dly := delayOf p b e
     dEm := dEm
     pEm := pEm
     handedGain := gain
     width := ex.x
     height := ex.y
     handed := o.handed ++ [⟨b, if bit 4 p.ctrl then pEm else pb, ex.x, ex.y, gain, o.zone, o.lock, o.lockTol⟩] },
   glide, decide (delayRaw p b e > p.dmaxDelay), s)

/-- Counts and events of clamped boundaries, the event on the first boundary of a run (R84, R87). -/
def noteClamps (k : Nat) (glide clamp : Bool) (o : ObjState) (s : State) : ObjState × State :=
  let s := if glide then count 0x100500E4 0 1 s else s
  let s := if glide && !o.glideRun then raise 0x19 k s else s
  let s := if clamp then count 0x100500E0 0 1 s else s
  let s := if clamp && !o.clampRun then raise 0x1A k s else s
  ({ o with glideRun := glide, clampRun := clamp }, s)

/-- Cubic Lagrange weights for a 14-bit fraction, Q3.21 (R90). -/
def lagrange (phi : Int) : List Int :=
  let o : Int := 2 ^ 14
  let r := fun (num den : Int) => rhu (num * 2 ^ 21) (den * 2 ^ 42)
  [r (-(phi * (phi - o) * (phi - 2 * o))) 6, r ((phi + o) * (phi - o) * (phi - 2 * o)) 2,
   r (-((phi + o) * phi * (phi - 2 * o))) 2, r ((phi + o) * phi * (phi - o)) 6]

/-- DRAM address of sample `i` in an object's delay ring (R89, R565). -/
def ringAddr (s : State) (k : Nat) (i : Int) : Nat :=
  planBase 1 s + 4 * (ringsBefore s k + (i % 2 ^ ringLog s k).toNat)

/-- Sample `i` of an object's delay ring, as DRAM delivers it (R89, R500). -/
def ringSample (s : State) (k : Nat) (i : Int) : Int := signExt 32 (dramWord s (ringAddr s k i))

/-- Source samples from index `i` on written to the delay ring; they do not wrap within a block, because L is a multiple
of B. -/
def ringPut (k : Nat) (i : Int) (l : List Int) (s : State) : State :=
  dramPut (ringAddr s k i) (l.flatMap (fun v => leBytes 4 (pattern 32 v))) s

/-- An object's delay ring holds zeros. -/
def ringZero (k : Nat) (s : State) : State := dramZero (ringAddr s k 0) (4 * 2 ^ ringLog s k) s

/-- The fractional read at q = m + φ, in 2^-14 samples, from the delay ring (R90). -/
def ringRead (s : State) (k : Nat) (q : Int) : Int :=
  let m := q / 2 ^ 14
  let w := lagrange (q % 2 ^ 14)
  let x := (List.range 4).map (fun (j : Nat) => ringSample s k (m - 1 + (j : Int)))
  satSample (rhuBits 21 (sumInt (List.zipWith (· * ·) w x)))

/-- One output sample: delay read, or the source sample itself where the delay line is bypassed, and air filter (R87 to R92).
Answers the sample and the filter state. -/
def objSample (p : ObjPar) (src : Int → Int) (s : State) (k : Nat) (d0 d1 a : Int) (b i y : Int) : Int × Int :=
  let d := d0 + rhu ((d1 - d0) * (i - b)) p.S
  let x := if !bit 2 p.ctrl && decide (p.base = 0) then src i else ringRead s k (i * 2 ^ 14 - d)
  if bit 3 p.ctrl then
    let y' := satSample (y + rhuBits 21 (a * (x - y)))
    (y', y')
  else (x, x)

/-- The samples of one sub-block [b, b+S). -/
def objSub (p : ObjPar) (src : Int → Int) (s : State) (k : Nat) (d0 d1 a b : Int) : Nat → Int → List Int → List Int × Int
  | 0, y, acc => (acc.reverse, y)
  | n + 1, y, acc =>
    let i := b + (p.S - (n + 1) : Nat)
    let (v, y') := objSample p src s k d0 d1 a b i y
    objSub p src s k d0 d1 a b n y' (v :: acc)

/-- Fade-out of sample q of a window of 2^lg samples (R256). -/
def fadeOut (lg : Nat) (q : Nat) (x : Int) : Int := x + (-x * q) / 2 ^ lg

/-- Fade-in of sample q (R260). -/
def fadeIn (lg : Nat) (q : Nat) (x : Int) : Int := (x * q) / 2 ^ lg

/-- A window faded. -/
def fadeList (out : Bool) (lg : Nat) (l : List Int) : List Int :=
  (List.range l.length).map (fun q => (if out then fadeOut lg q else fadeIn lg q) (nth 0 l q))

/-- What the stop state of a function makes of its window of block `a` (R256, R257, R260): `ins` says that START fades in. -/
def fnShape (f : FnState) (ins : Bool) (lg a : Nat) (l : List Int) : List Int :=
  if f.st = 2 && decide (f.act = a) then fadeList true lg l
  else if 3 ≤ f.st || (f.st = 2 && decide (f.act < a)) then l.map (fun _ => 0)
  else if ins && decide (f.since = a) && decide (a ≠ 0) then fadeList false lg l
  else l

/-- The four sub-blocks of an object's section; `n` counts the sub-blocks left. -/
def objSubs (k : Nat) (p : ObjPar) (src : Int → Int) : Nat → Int → ObjState → List Int → State → ObjState × List Int × State
  | 0, _, o, acc, s => (o, acc, s)
  | n + 1, b, o, acc, s =>
    let d0 := delayOf p b o.e
    let a := o.air
    let (o', glide, clamp, s) := evalBoundary k p (b + p.S) o s
    let (o', s) := noteClamps k glide clamp o' s
    let (ys, y) := objSub p src s k d0 o'.dly a b p.S o.y []
    objSubs k p src n (b + p.S) { o' with y := y } (acc ++ ys) s

/-- The object section of block `a` for object `k` (R61, R87 to R92): evaluates the boundaries B(a−1)+S to Ba and writes
the output lane's samples [B(a−1), Ba). A stopped object is skipped (R257). -/
def objSection (a k : Nat) (s : State) : State :=
  match s.img.objs[k]? with
  | none => s
  | some cfg =>
    if stopped 4 k s then s
    else
      let j := s.j0 a
      let src := smpGet s.smp.lane cfg.src
      let s := ringPut k j (smpList s.smp.lane cfg.src j s.B) s
      let (o, ys, s) := objSubs k (objPar s k) src 4 j { objGet k s with handed := [] } [] s
      let ys := fnShape (fnGet 4 k s) false s.lgB a ys
      objSet k o { s with smp := { s.smp with lane := smpPut cfg.out j ys s.smp.lane } }

/-- The initial state of an object at boundary `b0` (R81, R651): a delay clamped at b0 counts and begins a run (R87). -/
def objInit (k : Nat) (b0 : Int) (s : State) : State :=
  match s.img.objs[k]? with
  | none => s
  | some cfg =>
    let p := objPar s k
    let pb := if cfg.cart then cfg.pos else toCart cfg.pos
    let d := distOf pb
    let e := emissionAt p b0 d
    let de := dEff p d cfg.ext.z
    let o : ObjState := { ObjState.empty with
      pos := ⟨b0, cfg.pos, b0, cfg.pos⟩
      gain := ⟨b0, ⟨cfg.gain, 0, 0⟩, b0, ⟨cfg.gain, 0, 0⟩⟩
      ext := ⟨b0, cfg.ext, b0, cfg.ext⟩
      cart := cfg.cart
      zone := cfg.zone
      lock := cfg.lock
      lockTol := cfg.lockTol
      e := e
      b := b0
      panB := b0
      air := airCoef s de
      dly := delayOf p b0 e
      dEm := d
      pEm := pb
      handedGain := satGain (rhuBits 21 (cfg.gain * distGain p de))
      width := cfg.ext.x
      height := cfg.ext.y }
    let (o, s) := noteClamps k false (decide (delayRaw p b0 e > p.dmaxDelay)) o s
    objSet k o (histFill k pb d (ringZero k s))

/-- A change of DELAY_EN from 0 to 1 by a fix that acts at block `a` (R98): the delay read steps. The emission instant at the
block's first boundary is that of R84 on START for the distance there. DEDUCED (assumption 16): R98 gives the step and no
formula for it. -/
def delayStep (a k : Nat) (s : State) : State :=
  let o := objGet k s
  objSet k { o with e := emissionAt (objPar s k) (s.j0 a) (histEntry s k o.b).2 } s

/-- The cleared state of a stopped object: no queue, segments, history, ring or slots (R254, R257). Its pan slots ramp to 0
over the first sub-block after the fade, whose lane samples are 0 (R127). PAN.ST_BOUNDARY, PAN.ST_DIR and PAN.ST_COUNT read 0
from then on. DESIGN CHOICE (assumption 98): R254 holds the slots at 0 and states no value for these registers. -/
def objClear (k : Nat) (s : State) : State :=
  let ends := (objGet k s).slots.map (fun e => { e.2 with start := e.2.target, target := 0 })
  let s := dramZero (histBase s k) (16 * (2 ^ ringLog s k / s.S)) (ringZero k s)
  objSet k { ObjState.empty with panSub := [((s.B : Int) * s.grid.block - s.B, ends)] } s

/-! ### Registers -/

/-- OBJ.ST_QUEUE (chapter 02). -/
def objQueueWord (o : ObjState) : Nat :=
  o.queue.length % 16 + bitIf (decide (o.b < o.pos.te)) 4 + bitIf (decide (o.b < o.gain.te)) 5
    + bitIf (decide (o.b < o.ext.te)) 6 + bitIf o.cart 7 + (o.zone % 64) * 256 + bitIf o.lock 14 + bitIf o.glideRun 15

/-- The RO registers of the OBJ block for object `k`; per-object registers of an inactive object read 0 (R96). -/
def objReg (off k : Nat) (s : State) : Nat :=
  if off = 0 then if s.img.applied then s.img.objs.length + 2 ^ 31 else 0
  else
    match s.img.objs[k]? with
    | none => 0
    | some cfg =>
      let o := objGet k s
      match off with
      | 0x24 => cfg.src + cfg.out * 65536
      | 0x28 => cfg.ring
      | 0x40 => pattern 32 o.b
      | 0x44 => pattern 32 (o.b / 2 ^ 32)
      | 0x48 => pattern 32 o.pEm.x
      | 0x4C => pattern 32 o.pEm.y
      | 0x50 => pattern 32 o.pEm.z
      | 0x54 => pattern 32 o.handedGain
      | 0x58 => pattern 32 o.dly
      | 0x5C => pattern 32 o.dEm
      | 0x60 => pattern 16 o.width + pattern 16 o.height * 65536
      | 0x64 => objQueueWord o
      | _ => 0

end Sys2Proof.Machine
end

