-- ==== Sys2Proof/Machine/Panning.lean ====
section
/-!
DEFINITION. The panning engine (chapter 03): layout geometry, gains for one direction, extent, channel lock, pan slots.
-/
namespace Sys2Proof.Machine

/-- The unit vector of a direction in Q2.22 (R103). -/
def unitVec (az el : Int) : V3 :=
  ⟨rhuBits 22 (-(cosU el * sinU az)), rhuBits 22 (cosU el * cosU az), sinU el⟩

/-- Dot product. -/
def dot (a b : V3) : Int := a.x * b.x + a.y * b.y + a.z * b.z

/-- Triple product a · (b × c) (R104). -/
def det3 (a b c : V3) : Int :=
  a.x * (b.y * c.z - b.z * c.y) + a.y * (b.z * c.x - b.x * c.z) + a.z * (b.x * c.y - b.y * c.x)

/-- The unit vector of speaker `k`. -/
def spkVec (l : Layout) (k : Nat) : V3 := ((l.speakers[k]?).map Speaker.u).getD V3.zero

/-- The direction cell of R107. -/
def cellOf (az el : Int) : Nat := 128 * (min ((el + 5760) / 720) 15).toNat + ((az + 11520) / 180).toNat

/-- The three triple products of a direction against a triangle (R108). -/
def tripleOf (l : Layout) (t : Nat) (u : V3) : Int × Int × Int :=
  let (v0, v1, v2) := nth (0, 0, 0) l.tris t
  let a := spkVec l v0
  let b := spkVec l v1
  let c := spkVec l v2
  (det3 u b c, det3 a u c, det3 a b u)

/-- Smallest of three. -/
def min3 (e : Int × Int × Int) : Int := min e.1 (min e.2.1 e.2.2)

/-- First candidate that contains the direction; otherwise the one whose smallest product is largest, with its negative
products replaced by 0 (R108, R109). Answers the triangle, its products and whether it is a fallback. -/
def findTriangle (l : Layout) (cell : Nat) (u : V3) : Nat × (Int × Int × Int) × Bool :=
  let cands := (nth [] l.lookup cell).map (fun t => (t, tripleOf l t u))
  match cands.find? (fun c => decide (0 ≤ min3 c.2)) with
  | some c => (c.1, c.2, false)
  | none =>
    match cands with
    | [] => (0, (0, 0, 0), true)
    | c :: rest =>
      let best := rest.foldl (fun b c => if min3 c.2 > min3 b.2 then c else b) c
      (best.1, (max best.2.1 0, max best.2.2.1 0, max best.2.2.2 0), true)

/-- A vector of one exact value per speaker: values that are not listed are 0. -/
abbrev Gains := Sparse Int

/-- A value added to a speaker's. -/
def gAdd (k : Nat) (v : Int) (g : Gains) : Gains := smod 0 k (· + v) g

/-- SPKk is a VIRTUAL speaker. -/
def isVirt (l : Layout) (k : Nat) : Bool := ((l.speakers[k]?).map Speaker.virt).getD false

/-- The VIRTUAL step (R111). Weights are Q3.21, so the answer is in units of 2^−21 of the values given: the sums are exact. -/
def virtualStep (l : Layout) (g : Gains) : Gains :=
  g.foldl (fun acc (k, v) =>
    if isVirt l k then
      (nth [] l.spreads (((l.speakers[k]?).map Speaker.spread).getD 0)).foldl (fun a (j, w) => gAdd j (v * w) a) acc
    else gAdd k (v * 2 ^ 21) acc) []

/-- E(m) of the table "Equal-share weights" (R112): round(2²¹/√m), or round(2²¹/m) under amplitude normalisation. -/
def shareWeight (amplitude : Bool) (m : Nat) : Int :=
  if amplitude then rhu (2 ^ 21) m else (roundSqrt (2 ^ 42 / m) : Nat)

/-- SPKk is in the excluded set of a mask (R112). -/
def inMask (x : Nat) (k : Nat) : Bool := bit k x

/-- The zone step (R112). Answers the gains, in units of 2^−21 of the values given, and whether a value was lost. -/
def zoneStep (l : Layout) (x : Nat) (g : Gains) : Gains × Bool :=
  g.foldl (fun (acc, lost) (k, v) =>
    if !inMask x k then (gAdd k (v * 2 ^ 21) acc, lost)
    else
      let nb := (nth [] l.nbrs k).filter (fun j => !inMask x j)
      if nb.isEmpty then (acc, lost || decide (0 < v))
      else (nb.foldl (fun a j => gAdd j (v * shareWeight l.amplitude nb.length) a) acc, lost)) ([], false)

/-- Normalisation to Q2.30 (R114): m with m − ½ ≤ 2³⁰·V/‖V‖ < m + ½, decided on exact integers. -/
def normalise (amplitude : Bool) (g : Gains) : Gains :=
  let norm1 := sumInt (g.map Prod.snd)
  let norm2 := sumInt (g.map (fun e => e.2 * e.2))
  if norm2 = 0 then []
  else
    (g.map (fun (k, v) =>
      (k, if amplitude then rhu (v * 2 ^ 30) norm1
          else ((isqrt ((4 * v * v * 2 ^ 60).toNat / norm2.toNat) + 1) / 2 : Nat)))).filter (fun e => decide (e.2 ≠ 0))

/-- What panning notes about a boundary: fallback, zone loss. -/
structure PanNote where
  miss : Bool
  loss : Bool
deriving DecidableEq, Repr

/-- Gains for one direction, normalised (R110 to R114). -/
def directionGains (l : Layout) (x : Nat) (az el : Int) : Gains × PanNote :=
  let (t, e, fb) := findTriangle l (cellOf az el) (unitVec az el)
  let (v0, v1, v2) := nth (0, 0, 0) l.tris t
  let g := gAdd v2 e.2.2 (gAdd v1 e.2.1 (gAdd v0 e.1 []))
  let (g, lost) := zoneStep l x (virtualStep l g)
  (normalise l.amplitude g, ⟨fb, lost⟩)

/-- The extent pattern: a_j and h_j (R115). -/
def extentPattern : List (Int × Int) :=
  [(0, 0), (2048, 0), (1024, 1774), (-1024, 1774), (-2048, 0), (-1024, -1774), (1024, -1774), (4034, 711),
   (2633, 3138), (0, 4096), (-2633, 3138), (-4034, 711), (-3547, -2048), (-1401, -3849), (1401, -3849), (3547, -2048)]

/-- Direction j of an extent (R115). -/
def extentDir (az el w h : Int) (p : Int × Int) : Int × Int :=
  let a := wrapAz (az + rhu (p.1 * w) 8192)
  let e := el + rhu (p.2 * h) 8192
  if e > 5760 then (wrapAz (a + 11520), 11520 - e)
  else if e < -5760 then (wrapAz (a + 11520), -11520 - e)
  else (a, e)

/-- Order of truncation: larger value first, the lower speaker on equal values (R117). -/
def gainBefore (a b : Nat × Int) : Bool := decide (a.2 > b.2) || (decide (a.2 = b.2) && decide (a.1 ≤ b.1))

/-- Insertion into a list ordered by `gainBefore`. -/
def gainInsert (e : Nat × Int) : List (Nat × Int) → List (Nat × Int)
  | [] => [e]
  | x :: t => if gainBefore x e then x :: gainInsert e t else e :: x :: t

/-- The 32 largest entries (R117), and whether any was dropped. -/
def truncate32 (g : Gains) : Gains × Bool :=
  if g.length ≤ 32 then (g, false)
  else
    let keep := ((g.foldl (fun l e => gainInsert e l) []).take 32).map Prod.fst
    (g.filter (fun e => keep.contains e.1), true)

/-- Channel lock (R119): the nearest speaker that is neither SUB, VIRTUAL nor excluded, when it lies within tolerance. -/
def lockSpeaker (l : Layout) (x : Nat) (u : V3) (tol : Nat) : Option Nat :=
  let cand := (List.range l.speakers.length).filter (fun k =>
    !inMask x k && (((l.speakers[k]?).map Speaker.real).getD false))
  match cand with
  | [] => none
  | c :: rest =>
    let best := rest.foldl (fun b k => if dot u (spkVec l k) > dot u (spkVec l b) then k else b) c
    if dot u (spkVec l best) ≥ 2 ^ 22 * cosU tol then some best else none

/-- Result of panning one boundary: the vector n, its status words and notes. -/
structure PanOut where
  n : Gains
  cell : Nat
  tri : Nat
  fallback : Bool
  locked : Bool
  miss : Bool
  loss : Bool
  trunc : Bool
  zoneIdx : Bool
deriving DecidableEq, Repr

/-- The final direction vector n at one boundary (R106 to R120). `gx` is the global exclusion mask. -/
def panBoundary (l : Layout) (gx : Nat) (hd : Handed) : PanOut :=
  let az := azimuthOf hd.pos.x hd.pos.y
  let el := elevationOf hd.pos.x hd.pos.y hd.pos.z
  let u := unitVec az el
  let bad := decide (l.zones.length ≤ hd.zone)
  let x := (if bad then nth 0 l.zones 0 else nth 0 l.zones hd.zone) ||| gx
  let cell := cellOf az el
  match (if hd.lock then lockSpeaker l x u hd.lockTol else none) with
  | some k => ⟨[(k, 2 ^ 30)], cell, 0, false, true, false, false, false, bad⟩
  | none =>
    let (tri, _, fb) := findTriangle l cell u
    let dirs := if hd.w = 0 ∧ hd.h = 0 then [(az, el)] else extentPattern.map (extentDir az el hd.w hd.h)
    let outs := dirs.map (fun d => directionGains l x d.1 d.2)
    let sum := outs.foldl (fun acc o => o.1.foldl (fun a e => gAdd e.1 e.2 a) acc) []
    let (kept, trunc) := truncate32 sum
    ⟨normalise l.amplitude kept, cell, tri, fb, false, outs.any (fun o => o.2.miss), outs.any (fun o => o.2.loss),
     trunc, bad⟩

/-- The pan gains G × n, half-up, saturated (R121); zero gains are left out. -/
def panGains (g : Int) (n : Gains) : Gains :=
  (n.map (fun (k, v) => (k, satGain (rhuBits 30 (g * v))))).filter (fun e => decide (e.2 ≠ 0))

/-- Lowest slot number that is not taken. -/
def freeSlot (taken : List Nat) : Nat → Nat → Nat
  | 0, i => i
  | n + 1, i => if taken.contains i then freeSlot taken n (i + 1) else i

/-- Pan slots for [b, b+S) when the gains at b + S are `g` (R125, R126). -/
def assignSlots (g : Gains) (slots : Sparse PanSlot) : Sparse PanSlot :=
  let next := fun (e : Nat × PanSlot) => (e.1, PanSlot.mk e.2.spk e.2.target (sget 0 e.2.spk g))
  let held := (slots.map next).filter (fun e => !(decide (e.2.start = 0) && decide (e.2.target = 0)))
  let new := g.filter (fun e => !(held.any (fun h => decide (h.2.spk = e.1))))
  new.foldl (fun acc e => sput (freeSlot (acc.map Prod.fst) 64 0) ⟨e.1, 0, e.2⟩ acc) held

/-- The global exclusion mask in effect: PAN.GX_MASK0 to PAN.GX_MASK31 (R130). -/
def gxMask (s : State) : Nat :=
  (List.range 32).foldl (fun m w => m + rget (0x10060100 + 4 * w) 0 s * 2 ^ (32 * w)) 0

/-- A panning condition of a run: the event is raised on the run's first boundary only (R118). -/
def panRun (code k : Nat) (on : Bool) (o : ObjState) (s : State) : ObjState × State :=
  if on then
    if o.panRuns.contains code then (o, s) else ({ o with panRuns := code :: o.panRuns }, raise code k s)
  else ({ o with panRuns := o.panRuns.filter (· ≠ code) }, s)

/-- Panning of one handed boundary: gains, slots, status, counts and events (R106 to R126). -/
def panStep (k : Nat) (hd : Handed) (o : ObjState) (s : State) : ObjState × State :=
  let r := panBoundary s.img.layout (gxMask s) hd
  let g := panGains hd.gain r.n
  let silent := r.n.isEmpty
  let slots := assignSlots g o.slots
  let note := fun (on : Bool) (ctr code : Nat) (s : State) => if on then raise code k (count ctr 0 1 s) else s
  let s := note r.miss 0x10060040 0x21 s
  let s := note r.trunc 0x10060044 0x24 s
  let s := note r.loss 0x10060048 0x22 s
  let s := note r.zoneIdx 0x10060050 0x23 s
  let s := if silent then count 0x1006004C 0 1 s else s
  let (o, s) := panRun 0x25 k silent o s
  ({ o with
     slots := slots
     panSub := o.panSub ++ [(hd.b - s.S, slots.map Prod.snd)]
     panB := hd.b
     panDir := r.cell + r.tri * 2 ^ 12 + bitIf r.fallback 24 + bitIf r.locked 25
     panCount := g.length + slots.length * 256 + bitIf r.trunc 16 + bitIf silent 17 + bitIf r.loss 18 }, s)

/-- The panning section for object `k`: every boundary the object section handed (R106 to R128). -/
def panSection (k : Nat) (s : State) : State :=
  if stopped 4 k s || decide (s.img.objs.length ≤ k) then s
  else
    let o := objGet k s
    let (o, s) := o.handed.foldl (fun (o, s) hd => panStep k hd o s) ({ o with panSub := [], handed := [] }, s)
    objSet k o s

/-- Gain of a pan slot at sample `i` of its sub-block: a ramp of length S under R142 (R125). -/
def slotGain (S : Nat) (b i : Int) (p : PanSlot) : Int := p.start + ((p.target - p.start) * (i - b)) / S

/-- Pan gain from object `k`'s output lane to speaker bus `spk` at sample `i` (R125). -/
def panGainAt (s : State) (o : ObjState) (spk : Nat) (i : Int) : Int :=
  match o.panSub.find? (fun e => decide (e.1 ≤ i) && decide (i < e.1 + s.S)) with
  | none => 0
  | some (b, sl) => sumInt ((sl.filter (fun p => decide (p.spk = spk))).map (slotGain s.S b i))

/-! ### Registers -/

/-- The RO registers of the PAN block for object `k`; slots are read from the latched list. -/
def panReg (off k : Nat) (s : State) : Nat :=
  let l := s.img.layout
  let o := objGet k s
  let live := decide (k < s.img.objs.length)
  match off with
  | 0x00 => if s.img.applied then l.speakers.length + bitIf l.amplitude 12 + 2 ^ 31 else 0
  | 0x04 => if s.img.applied then l.tris.length + l.zones.length * 2 ^ 16 + l.spreads.length * 2 ^ 24 else 0
  | 0x14 => if live then pattern 32 o.panB else 0
  | 0x18 => if live then pattern 32 (o.panB / 2 ^ 32) else 0
  | 0x1C => if live then o.panDir else 0
  | 0x20 => if live then o.panCount else 0
  | _ => 0

/-- PAN.SLOT_SPK and PAN.SLOT_TARGET of a slot. -/
def panSlotWords (o : ObjState) (slot : Nat) : Nat × Nat :=
  match o.slots.find? (fun e => decide (e.1 = slot)) with
  | some (_, p) => (p.spk + 2 ^ 31, pattern 32 p.target)
  | none => (0, 0)

end Sys2Proof.Machine
end

