-- ==== Sys2Proof/Machine/Matrix.lean ====
section
/-!
DEFINITION. The crosspoint matrix (chapter 04): nodes, ramps, accumulation, bus factors and the matrix section.
-/
namespace Sys2Proof.Machine

/-! ### Ramps -/

/-- Ramp length of a ramp code (R141): 0 for a step. -/
def rampLen (code : Nat) : Nat := if code = 0 then 0 else 2 ^ (code + 2)

/-- Value of a ramp at sample `i` (R142). -/
def Ramp.at_ (r : Ramp) (i : Int) : Int :=
  if i < r.b0 then r.s
  else if r.len = 0 ∨ r.b0 + r.len ≤ i then r.t
  else r.s + ((r.t - r.s) * (i - r.b0)) / r.len

/-- A settled value. -/
def Ramp.settled (v : Int) : Ramp := ⟨v, v, 0, 0⟩

/-- The ramp covers a sample of [i, i+n) before its end. -/
def Ramp.runs (r : Ramp) (i : Int) (n : Nat) : Bool :=
  decide (r.len ≠ 0) && decide (r.b0 < i + n) && decide (i < r.b0 + r.len)

/-- A new ramp from the value reached at `b0` (R144, R35). -/
def Ramp.retarget (r : Ramp) (t : Int) (b0 : Int) (code : Nat) : Ramp :=
  let v := r.at_ b0
  if v = t then Ramp.settled t else ⟨v, t, b0, rampLen code⟩

/-- Value at `i` of a list of ramps, oldest first: the last one that has begun. -/
def rampsAt (l : List Ramp) (i : Int) : Int :=
  match (l.reverse.find? (fun r => decide (r.b0 ≤ i))), l with
  | some r, _ => r.at_ i
  | none, r :: _ => r.s
  | none, [] => 0

/-! ### Nodes -/

/-- A node without an entry (R137). -/
def NodeEnt.none : NodeEnt := ⟨0, 0, false⟩

/-- Fields of a 64-bit node word (R137). -/
def wordLane (w : Nat) : Nat := bits 12 0 w
def wordBus (w : Nat) : Nat := bits 25 13 w
def wordGain (w : Nat) : Int := signExt 24 (bits 49 26 w)
def wordRamp (w : Nat) : Nat := bits 53 50 w
def wordNoCount (w : Nat) : Bool := bit 54 w

/-- Node number of a node word (R133). -/
def wordNode (w : Nat) : Nat := 5120 * wordLane w + wordBus w

/-- A node word built from its fields (R137). -/
def nodeWord (lane bus : Nat) (gain : Int) (ramp : Nat) (noCount : Bool) : Nat :=
  lane % 8192 + (bus % 8192) * 2 ^ 13 + pattern 24 gain * 2 ^ 26 + (ramp % 16) * 2 ^ 50 + bitIf noCount 54

/-- Number of lanes at the rate in effect (R132). -/
def laneCount (s : State) : Nat := s.half 6144

/-- The bus exists at the rate in effect (R132). -/
def busExists (s : State) (k : Nat) : Bool :=
  if s.dbl then decide (k < 512) || (decide (1024 ≤ k) && decide (k < 3072)) else decide (k < 5120)

/-- The bus is a speaker bus. -/
def isSpeakerBus (s : State) (k : Nat) : Bool := decide (k < s.half 1024)

/-- Number of speaker chains. -/
def chainCount (s : State) : Nat := s.half 1024

/-- The gain set in effect (R136). -/
def liveSet (m : Matrix) : Sparse NodeEnt := if m.liveB then m.setB else m.setA

/-- The staged gain set. -/
def stagedSet (m : Matrix) : Sparse NodeEnt := if m.liveB then m.setA else m.setB

/-- The staged gain set replaced. -/
def setStaged (e : Sparse NodeEnt) (m : Matrix) : Matrix := if m.liveB then { m with setA := e } else { m with setB := e }

/-- Capacity C of R138. -/
def nodeCapacity (s : State) : Nat := s.half 2097152 - 64 * s.img.objs.length

/-- Node entries of a bus, with their lanes: node number 5120·lane + bus. -/
def busEntries (k : Nat) (e : Sparse NodeEnt) : List (Nat × NodeEnt) :=
  (e.filter (fun x => decide (x.1 % 5120 = k))).map (fun x => (x.1 / 5120, x.2))

/-- Gain of a node at sample `i`: its running ramp, or its target (R142). -/
def nodeGainAt (m : Matrix) (node : Nat) (e : NodeEnt) (i : Int) : Int :=
  match m.ramps.find? (fun x => decide (x.1 = node)) with
  | some (_, r) => r.at_ i
  | none => e.gain

/-- A node word written into a gain set: it occupies an entry while its target is not 0 or its ramp runs (R139). -/
def writeNode (w : Nat) (running : Bool) (e : Sparse NodeEnt) : Sparse NodeEnt :=
  if wordGain w = 0 && !running then sdel (wordNode w) e
  else sput (wordNode w) ⟨wordGain w, wordRamp w, wordNoCount w⟩ e

/-! ### Bus factor -/

/-- A(N) of R150, and 2²¹ for OFF or N = 0. -/
def autoFactor (mode n : Nat) : Int :=
  if n = 0 then 2 ^ 21
  else match mode with
    | 1 => rhu (2 ^ 21) n
    | 2 => (roundSqrt (2 ^ 42 / n) : Nat)
    | _ => 2 ^ 21

/-- N of a bus in a gain set (R151). -/
def contributors (k : Nat) (e : Sparse NodeEnt) : Nat :=
  ((busEntries k e).filter (fun x => decide (x.2.gain ≠ 0) && !x.2.noCount)).length

/-- The bus factor as a ramp. -/
def factorOf (s : State) (k : Nat) : Ramp := sget (Ramp.settled (2 ^ 21)) k s.mx.factors

/-- XP.BUS_CFG in effect. -/
def busCfg (s : State) (k : Nat) : Nat := rget 0x10070044 k s

/-- First direct-path sample of a fix acting at block `a`: Ba − 2S (R190). -/
def directB0 (s : State) (a : Nat) : Int := (s.B : Int) * a - 2 * s.S

/-- The bus is bound to a direct channel (R166). -/
def directChannel (s : State) (k : Nat) : Option Nat := s.img.dirBus.findIdx? (fun b => decide (b = some k))

/-- The general-bus dynamics instance bound to a bus. -/
def genInstance (s : State) (k : Nat) : Option Nat := s.img.genBus.findIdx? (fun b => decide (b = some k))

/-- Ramp start of a fix acting at block `a`, for the ramps of bus `k` (R162, R190). -/
def rampStart (s : State) (a k : Nat) : Int := if (directChannel s k).isSome then directB0 s a else s.j0 a

/-! ### Accumulation -/

/-- acc of R147 for bus `k` at sample `i`: rounded products of the set in effect and of the pan slots, summed exactly. -/
def accumulate (s : State) (k : Nat) (ents : List (Nat × NodeEnt)) (pans : List (Nat × ObjState × Nat)) (i : Int) : Int :=
  sumInt (ents.map (fun x => rhuBits 9 (smpGet s.smp.lane x.1 i * nodeGainAt s.mx (5120 * x.1 + k) x.2 i)))
    + sumInt (pans.map (fun x => rhuBits 9 (smpGet s.smp.lane x.1 i * panGainAt s x.2.1 k i)))

/-- Bus output before and after saturation (R148). -/
def busOut (acc f : Int) : Int × Bool :=
  let y := (acc * f + 2 ^ 32) / 2 ^ 33
  (satSample y, decide (satSample y ≠ y))

/-- Objects whose pan slots feed bus `k`: output lane, state, object. -/
def panSources (s : State) (k : Nat) : List (Nat × ObjState × Nat) :=
  if isSpeakerBus s k then
    (s.img.objs.zipIdx).filterMap (fun (c, n) =>
      let o := objGet n s
      if o.panSub.any (fun e => e.2.any (fun p => decide (p.spk = k))) then some (c.out, o, n) else none)
  else []

/-- The samples [i, i+n) of bus `k`, and whether one saturated. -/
def busSamples (s : State) (k : Nat) (i : Int) (n : Nat) : List Int × Bool :=
  let ents := busEntries k (liveSet s.mx)
  let pans := panSources s k
  let f := factorOf s k
  let ys := (List.range n).map (fun (q : Nat) => busOut (accumulate s k ents pans (i + (q : Int))) (f.at_ (i + (q : Int))))
  (ys.map Prod.fst, ys.any Prod.snd)

/-- The bus has no chain or instance bound, so that its stop fade acts on the bus output (R254). -/
def plainBus (s : State) (k : Nat) : Bool := !isSpeakerBus s k && (genInstance s k).isNone && (directChannel s k).isNone

/-- A bus that saturates counts once in a block, though a direct bus has several sections in it; the event is raised once per
block, with the block's first such bus: DEDUCED (assumption 102) (R149). -/
def noteBusSat (k : Nat) (s : State) : State :=
  if s.mx.satBuses.contains k then s
  else raiseOnce 0x28 k { count 0x10070060 0 1 s with mx := { s.mx with satLast := k, satBuses := k :: s.mx.satBuses } }

/-- The matrix section of block `a` for bus `k` (R147 to R149, R135): output samples [B(a−1), Ba), returns one block on. -/
def matrixSection (a k : Nat) (s : State) : State :=
  if !busExists s k || (directChannel s k).isSome then s
  else
    let j := s.j0 a
    let (ys, sat) := busSamples s k j s.B
    let ys := if plainBus s k then fnShape (fnGet 5 k s) true s.lgB a ys else ys
    let s := { s with smp := { s.smp with bus := smpPut k j ys s.smp.bus } }
    let s := (s.img.returns.filter (fun r => decide (r.1 = k) && (genInstance s k).isNone)).foldl
      (fun s r => { s with smp := { s.smp with lane := smpPut r.2 (j + s.B) ys s.smp.lane } }) s
    if sat then noteBusSat k s else s

/-- What the matrix section of block `a` reports: first sample and ramps running (R145). -/
def matrixReport (a : Nat) (s : State) : State :=
  let j := s.j0 a
  { s with mx := { s.mx with
    first := j.toNat
    rampCount := (s.mx.ramps.filter (fun r => r.2.runs j s.B)).length } }

/-- Nodes that the prepared fix writes (R163). -/
def preparedNodes (m : Matrix) : List Nat :=
  match m.pending.find? (fun f => decide (m.prepared = some f.act)) with
  | some f => f.set.nodes.map wordNode
  | none => []

/-- Ramps whose last sample has been evaluated end, and settled nodes with target 0 leave both sets (R139): at the tick
of block `a`, whose matrix section starts at B(a−1). What a prepared fix has written into the staged gain set stands
(R163). -/
def matrixTick (a : Nat) (s : State) : State :=
  let past := fun (node : Nat) (r : Ramp) =>
    decide (r.b0 + r.len ≤ (if (directChannel s (node % 5120)).isSome then directB0 s a else s.j0 a))
  let gone := (s.mx.ramps.filter (fun x => past x.1 x.2)).map Prod.fst
  let clean := fun (new : List Nat) (e : Sparse NodeEnt) =>
    e.filter (fun x => !(decide (x.2.gain = 0) && gone.contains x.1 && !new.contains x.1))
  let new := preparedNodes s.mx
  { s with mx := { s.mx with
    satBuses := []
    ramps := s.mx.ramps.filter (fun x => !past x.1 x.2)
    setA := clean (if s.mx.liveB then new else []) s.mx.setA
    setB := clean (if s.mx.liveB then [] else new) s.mx.setB } }

/-! ### Registers -/

/-- XP.NODE_INFO and XP.NODE_NOW of a node at the latest matrix section. -/
def nodeNow (s : State) (lane bus : Nat) : Int :=
  let n := 5120 * lane + bus
  nodeGainAt s.mx n (sget NodeEnt.none n (liveSet s.mx)) s.mx.first

/-- XP.NODE_INFO. -/
def nodeInfo (s : State) (lane bus : Nat) : Nat :=
  let n := 5120 * lane + bus
  match (liveSet s.mx).find? (fun x => decide (x.1 = n)) with
  | some (_, e) => e.ramp + bitIf e.noCount 4 + 2 ^ 5
      + bitIf (s.mx.ramps.any (fun x => decide (x.1 = n) && x.2.runs s.mx.first s.B)) 6
  | none => 0

/-- The RO registers of the XP block; `lane` and `bus` are the selected node, `sel` the selected bus. -/
def xpReg (off lane bus sel : Nat) (s : State) : Nat :=
  match off with
  | 0x00 => if s.img.applied then laneCount s + (s.half 5120) * 2 ^ 13 + 2 ^ 31 else 0
  | 0x04 => bitIf s.mx.liveB 0
  | 0x08 => (liveSet s.mx).length
  | 0x0C => if s.img.applied then nodeCapacity s else 0
  | 0x14 => s.mx.rampCount
  | 0x30 => pattern 32 (nodeNow s lane bus)
  | 0x34 => nodeInfo s lane bus
  | 0x48 => if busExists s sel then pattern 32 ((factorOf s sel).at_ s.mx.first) else 0
  | 0x4C => if busExists s sel then contributors sel (liveSet s.mx)
              + bitIf ((factorOf s sel).runs s.mx.first s.B) 16 else 0
  | 0x64 => s.mx.satLast
  | _ => 0

end Sys2Proof.Machine
end

