-- ==== Sys2Proof/Machine/Chains.lean ====
section
/-!
DEFINITION. The output chains (chapter 05): trim, dynamics, alignment, mute, the speaker section and the direct section.
-/
namespace Sys2Proof.Machine

/-! ### Exact level and gain -/

/-- 2²⁸ · 10^(k/5120) ≤ u, as integers (R173). -/
def levelAtLeast (u : Nat) (k : Int) : Bool :=
  if 0 ≤ k then decide (2 ^ (28 * 5120) * 10 ^ k.toNat ≤ u ^ 5120)
  else decide (2 ^ (28 * 5120) ≤ u ^ 5120 * 10 ^ (-k).toNat)

/-- The level ℓ(u) in 1/256 dB (R173). -/
def levelOf (u : Nat) : Int :=
  if u = 0 then -40960
  else -40960 + (searchMax (fun r => decide (r ≤ 45584) && levelAtLeast u ((r : Int) - 40960)) 16 0 : Nat)

/-- The integer nearest to 2²¹ · 10^(G/5120), a tie rounding up (R176). -/
def linearGain (g : Int) : Int :=
  (searchMax (fun n =>
    if 0 ≤ g then decide ((2 * n - 1) ^ 5120 ≤ 2 ^ (22 * 5120) * 10 ^ g.toNat)
    else decide ((2 * n - 1) ^ 5120 * 10 ^ (-g).toNat ≤ 2 ^ (22 * 5120))) 23 0 : Nat)

/-! ### Chain state -/

/-- A chain before an image is applied. -/
def Chain.empty : Chain where
  trim := Ramp.settled (2 ^ 21)
  env := -40960 * 2 ^ 24
  vers := []
  aligns := []
  mutes := []
  mutePending := 0
  fades := []
  tail := false
  zeroAlign := []
  zeroOut := []
  gr := 0
  envDb := 0
  gainNow := 2 ^ 21
  muteRamping := false
  satBlock := 0
  satPrev := 0

/-- State of a chain by selection number. -/
def chGet (sel : Nat) (s : State) : Chain := sget Chain.empty sel s.chain

/-- State of a chain set. -/
def chSet (sel : Nat) (c : Chain) (s : State) : State := { s with chain := sset Chain.empty sel c s.chain }

/-- The selection number is that of a speaker chain, an instance or a direct channel at the rate in effect (R166). -/
def isSpk (s : State) (sel : Nat) : Bool := decide (sel < chainCount s)
def isGen (s : State) (sel : Nat) : Bool := decide (1024 ≤ sel) && decide (sel < 1024 + s.half 512)
def isDir (s : State) (sel : Nat) : Bool := decide (1536 ≤ sel) && decide (sel < 1536 + s.half 64)

/-- Bus of a chain, where it exists and is bound (R167). -/
def chainBus (s : State) (sel : Nat) : Option Nat :=
  if isSpk s sel then some sel
  else if isGen s sel then nth none s.img.genBus (sel - 1024)
  else if isDir s sel then nth none s.img.dirBus (sel - 1536)
  else none

/-- Dynamics parameters in effect in the registers, from stage index `k0` on. -/
def dynVer (s : State) (sel : Nat) (k0 : Int) : DynVer where
  k0 := k0
  ctrl := rget 0x10080010 sel s
  thresh := signExt 16 (rget 0x10080018 sel s)
  ratio := rget 0x1008001C sel s % 2 ^ 16
  knee := rget 0x10080020 sel s % 2 ^ 12
  attack := rget 0x10080024 sel s
  release := rget 0x10080028 sel s
  makeup := rget 0x1008002C sel s % 2 ^ 12

/-- The signed trim (R170). -/
def trimTarget (s : State) (sel : Nat) : Int :=
  let t := signExt 24 (rget 0x10080014 sel s)
  if bit 1 (rget 0x10080010 sel s) then -t else t

/-- Look-ahead of a parameter version. -/
def DynVer.la (v : DynVer) : Nat := bits 8 2 v.ctrl

/-- The version in effect at a stage index. -/
def verAt (l : List DynVer) (k : Int) : DynVer :=
  match l.reverse.find? (fun v => decide (v.k0 ≤ k)), l with
  | some v, _ => v
  | none, v :: _ => v
  | none, [] => ⟨0, 0, 0, 0, 0, 2 ^ 31, 2 ^ 31, 0⟩

/-- The gain reduction of R175. -/
def gainReduction (v : DynVer) (e : Int) : Int :=
  let t := v.thresh
  let h : Int := v.knee
  let s : Int := v.ratio
  if h = 0 ∨ e ≥ t + h then (if e > t then rhu (s * (e - t)) (2 ^ 15) else 0)
  else if e ≤ t - h then 0
  else rhu (s * (e - t + h) ^ 2) (2 ^ 17 * h)

/-- One update of the envelope (R174). -/
def envStep (v : DynVer) (e : Int) (u : Nat) : Int :=
  let l := levelOf u * 2 ^ 24
  let alpha : Int := if l > e then v.attack else v.release
  e + rhu (alpha * (l - e)) (2 ^ 31)

/-- Result of a dynamics run: samples, envelope, first-index report, saturation by index. -/
structure DynOut where
  z : List Int
  env : Int
  gr : Int
  envDb : Int
  gain : Int
  sat : List Bool
deriving DecidableEq, Repr

/-- The dynamics stage over the indices from `k` on (R172 to R177). `w` reads the input; `pad` is P of a speaker chain,
none where P is the look-ahead. -/
def dynRun (w : Int → Int) (pad : Option Nat) (vers : List DynVer) : Nat → Int → DynOut → DynOut
  | 0, _, acc => { acc with z := acc.z.reverse, sat := acc.sat.reverse }
  | n + 1, k, acc =>
    let v := verAt vers k
    let p : Int := (pad.getD v.la : Nat)
    let e := envStep v acc.env (w (k - p + v.la)).natAbs
    let db := rhu e (2 ^ 24)
    let gr := gainReduction v db
    let g : Int := if bit 0 v.ctrl then linearGain ((v.makeup : Int) - gr) else 2 ^ 21
    let y := rhu (g * w (k - p)) (2 ^ 21)
    let z := satSample y
    let first := acc.z.isEmpty
    dynRun w pad vers n (k + 1)
      { z := z :: acc.z, env := e
        gr := if first then gr else acc.gr
        envDb := if first then db else acc.envDb
        gain := if first then g else acc.gain
        sat := decide (y ≠ z) :: acc.sat }

/-- Trim and polarity over a list of bus samples from index `j` on (R170, R171). -/
def trimRun (t : Ramp) (j : Int) (xs : List Int) : List Int × Bool :=
  let ys := (xs.zipIdx).map (fun ((x : Int), (q : Nat)) => rhu (t.at_ (j + (q : Int)) * x) (2 ^ 21))
  (ys.map satSample, ys.any (fun y => decide (satSample y ≠ y)))

/-- The delay before, the delay in effect and the start of its crossfade, at index `k`. -/
def alignPair (l : List (Int × Nat)) (k : Int) : Nat × Nat × Int :=
  match l with
  | [] => (0, 0, 0)
  | (b, a) :: rest => rest.foldl (fun acc v => if v.1 ≤ k then (acc.2.1, v.2, v.1) else acc) (a, a, b)

/-- Alignment output at index `k` (R181, R182), and whether it saturated. -/
def alignOut (z : Int → Int) (B : Nat) (l : List (Int × Nat)) (k : Int) : Int × Bool :=
  let (a1, a2, b) := alignPair l k
  if k < b + B ∧ a1 ≠ a2 then
    let q := k - b
    let y := rhu ((B - q) * z (k - a1) + q * z (k - a2)) B
    (satSample y, decide (satSample y ≠ y))
  else (z (k - a2), false)

/-- The stop-bath fade of an output index: `fades` lists windows of B indices, oldest first; from a fade-out on the
output is 0 until a fade-in (R256, R260). -/
def fadeAt (B lg : Nat) (fades : List (Int × Bool)) (o : Int) (x : Int) : Int :=
  match fades.reverse.find? (fun f => decide (f.1 ≤ o)) with
  | none => x
  | some (b, true) => if o < b + B then fadeOut lg (o - b).toNat x else 0
  | some (b, false) => if o < b + B then fadeIn lg (o - b).toNat x else x

/-- Output mute over output indices from `o` on (R185), then the stop-bath fade. -/
def muteRun (s : State) (c : Chain) (o : Int) (xs : List Int) : List Int × Bool :=
  let ys := (xs.zipIdx).map (fun ((x : Int), (q : Nat)) =>
    let i := o + (q : Int)
    (i, rhu (rampsAt c.mutes i * x) (2 ^ 21)))
  (ys.map (fun y => fadeAt s.B s.lgB c.fades y.1 (satSample y.2)), ys.any (fun y => decide (satSample y.2 ≠ y.2)))

/-- A block of the chain with a saturation is already counted. -/
def Chain.satIn (c : Chain) (b : Nat) : Bool := decide (c.satBlock = b + 1) || decide (c.satPrev = b + 1)

/-- A saturation of the chain that belongs to block `b`, the current one or the one before, is counted once, and raises its
event once per such block (R194). -/
def noteSpkSat (sel b : Nat) (sat : Bool) (s : State) : State :=
  let c := chGet sel s
  if sat && !c.satIn b then
    let first := !s.chain.any (fun e => e.2.satIn b)
    let c := if c.satBlock < b + 1 then { c with satBlock := b + 1, satPrev := c.satBlock } else { c with satPrev := b + 1 }
    let s := count 0x10080060 0 1 (chSet sel c s)
    let s := { s with bus := { s.bus with regs := sset 0 (rkey 0x10080064 0) sel s.bus.regs } }
    if first then raise 0x2B sel s else s
  else s

/-- Versions and ramps that no later index can use are dropped. -/
def trimVers (k : Int) : List DynVer → List DynVer
  | a :: b :: t => if b.k0 ≤ k then trimVers k (b :: t) else a :: b :: t
  | l => l

/-- Indices from `j` on that lie in a window of zeros carry 0 (R251). -/
def zeroed (B : Nat) (zeros : List Int) (j : Int) (l : List Int) : List Int :=
  (l.zipIdx).map (fun ((x : Int), (q : Nat)) =>
    if zeros.any (fun w => decide (w ≤ j + (q : Int)) && decide (j + (q : Int) < w + B)) then 0 else x)

/-- Trim, dynamics and alignment of chain `sel` for bus samples [B(a−1), Ba): writes the stores by index. The convolution
follows (R169 to R182). The stages work here on stage indices [B(a−1), Ba). Behind a speaker chain's trim that is the work
that R194 and R646 place in block a − 1; of an instance, the indices below B(a−1) + La are. -/
def spkDynamics (a sel : Nat) (s : State) : State :=
  match chainBus s sel with
  | none => s
  | some busNo =>
    let st := (fnGet 5 busNo s).st
    let c := chGet sel s
    if (decide (3 ≤ st) && !c.tail) || isDir s sel then s
    else
      let j := s.j0 a
      let xs := smpList s.smp.bus busNo j s.B
      let (ws, sat1) := if isSpk s sel then trimRun c.trim j xs else (xs, false)
      let trimS := smpPut sel j ws s.smp.trim
      let d := dynRun (fun k => smpGet trimS sel k) (if isSpk s sel then some s.B else none) c.vers s.B j
        ⟨[], c.env, 0, 0, 2 ^ 21, []⟩
      let dynS := smpPut sel j d.z s.smp.dyn
      let al := (List.range s.B).map (fun (q : Nat) =>
        if isSpk s sel then alignOut (fun k => smpGet dynS sel k) s.B c.aligns (j + (q : Int))
        else (smpGet dynS sel (j + (q : Int)), false))
      let s' := { s with smp := { s.smp with
        trim := trimS, dyn := dynS,
        align := if isSpk s sel then smpPut sel j (zeroed s.B c.zeroAlign j (al.map Prod.fst)) s.smp.align
          else s.smp.align } }
      let c := { c with env := d.env, gr := d.gr, envDb := d.envDb, gainNow := d.gain, vers := trimVers j c.vers }
      let before := if isSpk s sel then s.B else (verAt c.vers j).la
      noteSpkSat sel a (sat1 || (d.sat.drop before).any id)
        (noteSpkSat sel (a - 1) ((d.sat.take before).any id || al.any Prod.snd) (chSet sel c s'))

/-- Output of a general-bus dynamics instance: the stop fade, the store, and the returns of its bus (R135, R168). -/
def genOutput (a sel : Nat) (s : State) : State :=
  match chainBus s sel with
  | none => s
  | some busNo =>
    let j := s.j0 a
    let c := chGet sel s
    let ys := ((zeroed s.B c.zeroOut j (smpList s.smp.dyn sel j s.B)).zipIdx).map (fun ((x : Int), (q : Nat)) =>
      fadeAt s.B s.lgB c.fades (j + (q : Int)) x)
    let s := { s with smp := { s.smp with out := smpPut sel j ys s.smp.out } }
    (s.img.returns.filter (fun r => decide (r.1 = busNo))).foldl
      (fun s r => { s with smp := { s.smp with lane := smpPut r.2 (j + s.B) ys s.smp.lane } }) s

/-- The latest mute ramp that has begun before index o + n covers the indices from `o` on (R35, R197). -/
def mutesRun (c : Chain) (o : Int) (n : Nat) : Bool :=
  (((c.mutes.filter (fun r => decide (r.b0 < o + n))).getLast?).map (fun r => r.runs o n)).getD false

/-- Mute and output of a speaker chain whose convolution output over [B(a−1), Ba) is `cs` (R184, R185): the output
indices are 2B above (R169). -/
def spkOutput (a sel : Nat) (cs : List Int) (s : State) : State :=
  let o := s.j0 a + 2 * s.B
  let c := chGet sel s
  let (ys, sat) := muteRun s c o cs
  noteSpkSat sel (a - 1) sat (chSet sel { c with muteRamping := mutesRun c o s.B }
    { s with smp := { s.smp with out := smpPut sel o (zeroed s.B c.zeroOut o ys) s.smp.out } })

/-! ### The direct path -/

/-- The direct section of sub-block period `q` for direct channel `ch` (R189): bus samples [S(q−2), S(q−1)). The lane
samples come from `lane`. -/
def directSection (q ch : Nat) (s : State) : State :=
  let sel := 1536 + ch
  match chainBus s sel with
  | none => s
  | some busNo =>
    if stopped 5 busNo s && !(chGet sel s).tail then s
    else
      let j : Int := (s.S : Int) * ((q : Int) - 2)
      let c := chGet sel s
      let (bs, sat0) := busSamples s busNo j s.S
      let (ws, sat1) := trimRun c.trim j bs
      let trimS := smpPut sel j ws s.smp.trim
      let d := dynRun (fun k => smpGet trimS sel k) (some 0) c.vers s.S j ⟨[], c.env, 0, 0, 2 ^ 21, []⟩
      let o := j + 5 * s.S
      let (ys, sat2) := muteRun s c o d.z
      let s' := { s with smp := { s.smp with
        bus := smpPut busNo j bs s.smp.bus, trim := trimS, dyn := smpPut sel j d.z s.smp.dyn,
        out := smpPut sel o ys s.smp.out } }
      let s' := chSet sel { c with
        env := d.env, gr := d.gr, envDb := d.envDb, gainNow := d.gain, vers := trimVers j c.vers,
        muteRamping := mutesRun c o s.S } s'
      noteSpkSat sel s.grid.block (sat1 || d.sat.any id || sat2) (if sat0 then noteBusSat busNo s' else s')

/-! ### Start -/

/-- Initial state of a chain (R195): `muted` is the mute target. -/
def chainInit (sel : Nat) (muted : Bool) (s : State) : State :=
  let c : Chain := { Chain.empty with
    trim := Ramp.settled (trimTarget s sel)
    vers := [dynVer s sel 0]
    aligns := [(0, rget 0x10080030 sel s)]
    mutes := [Ramp.settled (if muted then 0 else 2 ^ 21)] }
  chSet sel c { s with smp := { s.smp with
    trim := smpDrop sel s.smp.trim, dyn := smpDrop sel s.smp.dyn, align := smpDrop sel s.smp.align } }

/-- The mute target in effect (R184): the target of the latest mute ramp. -/
def muteTarget (c : Chain) : Int := (c.mutes.getLast?.map Ramp.t).getD (2 ^ 21)

/-- The chain or direct channel bound to a bus. -/
def chainOfBus (s : State) (k : Nat) : Option Nat :=
  if isSpeakerBus s k then some k
  else match genInstance s k with
    | some g => some (1024 + g)
    | none => (directChannel s k).map (1536 + ·)

/-- Chain state cleared and restarted with its mute target kept (R195, R257, R260). -/
def chainRestart (sel : Nat) (s : State) : State :=
  let c := chGet sel s
  let s := chainInit sel (decide (muteTarget c = 0)) s
  chSet sel { chGet sel s with fades := c.fades, mutePending := c.mutePending, satBlock := c.satBlock, satPrev := c.satPrev } s

/-! ### Registers -/

/-- The chain as registers show it: cleared from the block after its stop fade on, though the section that makes its last
window works on (R257, assumption 13). -/
def chainSeen (sel : Nat) (s : State) : Chain :=
  let c := chGet sel s
  if ((chainBus s sel).map (fun b => stopped 5 b s)).getD false then
    { Chain.empty with mutes := c.mutes, mutePending := c.mutePending }
  else c

/-- The RO registers of the SPK block for a selected chain. -/
def spkReg (off sel : Nat) (s : State) : Nat :=
  let c := chainSeen sel s
  let b := if s.img.applied then chainBus s sel else none
  match off with
  | 0x00 => if s.img.applied then
      chainCount s + ((s.img.genBus.filter Option.isSome).length % 1024) * 2 ^ 11
        + ((s.img.dirBus.filter Option.isSome).length % 128) * 2 ^ 21 + 2 ^ 31 else 0
  | 0x08 => match b with | some k => k + 2 ^ 31 | none => 0
  | 0x34 => nth 0 s.img.alignMax sel
  | 0x4C => bitIf (decide (muteTarget c = 0)) 0 + bitIf c.muteRamping 1 + bitIf (decide (c.mutePending ≠ 0)) 2
  | 0x50 => pattern 16 c.gr
  | 0x54 => pattern 32 c.envDb
  | 0x58 => pattern 32 c.gainNow
  | 0x64 => sget 0 (rkey 0x10080064 0) s.bus.regs
  | _ => 0

end Sys2Proof.Machine
end

