-- ==== Sys2Proof/Machine/Convolution.lean ====
section
/-!
DEFINITION. Room-correction convolution and tone generators (chapter 06).
-/
namespace Sys2Proof.Machine

/-! ### The reference transforms (R200 to R202) -/

/-- A complex number with exact integer components. -/
structure Cx where
  re : Int
  im : Int
deriving DecidableEq, Repr

/-- T of R201 with its symmetries: round(2³⁰ · sin(2πj/4096)) for any j. -/
def sinQ30 (j : Nat) : Int :=
  let k := j % 4096
  let q := fun n => rhuBits (trigBits - 30) (sinFix n 2048)
  if k ≤ 1024 then q k else if k ≤ 2048 then q (2048 - k) else if k ≤ 3072 then -(q (k - 2048)) else -(q (4096 - k))

/-- W × v rounded (R201): `inv` selects the sign of the exponent; j in 1/4096 turn. -/
def twiddle (inv : Bool) (j : Nat) (v : Cx) : Cx :=
  let c := sinQ30 (j + 1024)
  let s := if inv then sinQ30 j else -(sinQ30 j)
  ⟨rhu (c * v.re - s * v.im) (2 ^ 30), rhu (c * v.im + s * v.re) (2 ^ 30)⟩

/-- Elements at even and odd places. -/
def evens {α : Type} : List α → List α
  | a :: _ :: t => a :: evens t
  | l => l

/-- Elements at odd places. -/
def odds {α : Type} : List α → List α
  | _ :: b :: t => b :: odds t
  | _ => []

/-- Decimation-in-time transform of 2^n points: FWD halves at each stage with 48-bit components, INV does not and has
64-bit components; every value saturates at its width (R201, R204). -/
def transform (inv : Bool) : Nat → List Cx → List Cx
  | 0, l => l
  | n + 1, l =>
    let e := transform inv n (evens l)
    let o := transform inv n (odds l)
    let w := if inv then 64 else 48
    let fin := fun (x : Int) => satBits w (if inv then x else rhu x 2)
    let ts := (o.zipIdx).map (fun (v, k) => twiddle inv (k * (4096 / 2 ^ (n + 1))) v)
    let f := fun (g : Int → Int → Int) (u t : Cx) => Cx.mk (fin (g u.re t.re)) (fin (g u.im t.im))
    List.zipWith (f (· + ·)) e ts ++ List.zipWith (f (· - ·)) e ts

/-! ### Partitions and slots -/

/-- Stage s: N, O, P and the index of its first exponent, at the rate class (R199). -/
def convStage (dbl : Bool) : Nat → Nat × Nat × Nat × Nat
  | 0 => if dbl then (64, 0, 4, 0) else (32, 0, 8, 0)
  | 1 => (128, 256, 6, if dbl then 4 else 8)
  | 2 => (512, 1024, 6, if dbl then 10 else 14)
  | _ => (2048, 4096, 14, if dbl then 16 else 20)

/-- A slot before anything has been loaded. -/
def Slot.empty : Slot := ⟨0, false⟩

/-- A filter slot. -/
def slotGet (i : Nat) (s : State) : Slot := sget Slot.empty i s.slot

/-- A filter slot set. -/
def slotSet (i : Nat) (v : Slot) (s : State) : State := { s with slot := sset Slot.empty i v s.slot }

/-- DRAM address of slot `i`: 262,144 bytes of spectra, then the header (R206, R210, R565). -/
def slotAddr (s : State) (i : Nat) : Nat := planBase 5 s + 262400 * i

/-- A header byte of a slot, as it stood when the header was checked (R207, R211). -/
def slotByte (s : State) (i o : Nat) : Nat := (byteAt (slotAddr s i + 262144 + o) s.mem.dram).toNat

/-- Partitions used in stage `st` (R207). -/
def slotParts (s : State) (i st : Nat) : Nat := slotByte s i (4 + st)

/-- Exponent of a partition. -/
def slotExpo (s : State) (i q : Nat) : Int := signExt 8 (slotByte s i (16 + q))

/-- The bins of a partition of `n` bins from bin `b` on (R207). The head stands in SRAM banks; the tail is read from DRAM,
where a poisoned word is 0 (R205). -/
def slotBins (s : State) (i st b n : Nat) : List Cx :=
  let a := slotAddr s i + 8 * b
  let l := if 2 ≤ st then dramRead s a (8 * n) else getBytes a (8 * n) s.mem.dram
  (List.range n).map (fun k => ⟨signExt 32 (le (slice (8 * k) 4 l)), signExt 32 (le (slice (8 * k + 4) 4 l))⟩)

/-- CRC-32 of IEEE 802.3, one byte. -/
def crc32Byte (crc b : Nat) : Nat :=
  (List.range 8).foldl (fun c _ => if c % 2 = 1 then (c / 2) ^^^ 0xEDB88320 else c / 2) (crc ^^^ b)

/-- CRC-32 of IEEE 802.3 over bytes. -/
def crc32 (l : List Nat) : Nat := (l.foldl crc32Byte 0xFFFFFFFF) ^^^ 0xFFFFFFFF

/-- A slot of 128 header bytes and spectra is valid (R208): fields of the table "Filter slot header", partition order, CRC.
The last partition, past which the exponents are 0, is that of the schedule: DEDUCED (assumption 101). -/
def slotValid (dbl : Bool) (hdr spectra : List Nat) : Bool :=
  let h := nth 0 hdr
  let used := (List.range 4).map (fun i => h (4 + i))
  let expo := fun q => signExt 8 (h (16 + q))
  let most := (List.range 4).map (fun i => (convStage dbl i).2.2.1)
  let total := (convStage dbl 3).2.2.2 + 14
  decide (h 0 = 1) && decide (h 1 = if dbl then 1 else 0) && decide (h 2 = 0) && decide (h 3 = 0)
    && (List.range 4).all (fun i => decide (nth 0 used i ≤ nth 0 most i))
    && [1, 2, 3].all (fun i => decide (nth 0 used i = 0) || decide (nth 0 used (i - 1) = nth 0 most (i - 1)))
    && [12, 13, 14, 15].all (fun o => decide (h o = 0))
    && (List.range 48).all (fun q => decide (-16 ≤ expo q) && decide (expo q ≤ 15)
          && (decide (q < total) || decide (expo q = 0)))
    && decide (le (slice 8 4 hdr) = crc32 (slice 12 116 hdr ++ spectra))

/-- The content of slot `i` is valid. -/
def slotHolds (i : Nat) (s : State) : Bool :=
  slotValid s.dbl (dramRead s (slotAddr s i + 262144) 128) (dramRead s (slotAddr s i) 262144)

/-! ### One window of output -/

/-- mulh of R202. -/
def mulh (x h : Cx) (e : Int) : Cx :=
  let d : Int := 2 ^ (19 - e).toNat
  ⟨rhu (x.re * h.re - x.im * h.im) d, rhu (x.re * h.im + x.im * h.re) d⟩

/-- The spectrum X[t] of a stage: bins 0 to N in Q4.28 (R200, R201). `a` reads the stage's input. -/
def spectrum (a : Int → Int) (N : Nat) (t : Int) : List Cx :=
  let k0 := t * N
  let xs := (List.range (2 * N)).map (fun (q : Nat) => Cx.mk (a (k0 - 2 * N + q) * 2 ^ 12) 0)
  let q428 := fun (x : Int) => satSample (rhuBits 12 x)
  ((transform false (Nat.log2 (2 * N)) xs).take (N + 1)).map (fun c => ⟨q428 c.re, q428 c.im⟩)

/-- Product of one frame and one partition of bins `h` and exponent `e`: bins 0 to N; bin 0 carries bin N in its imaginary
part (R202). -/
def partProduct (h : List Cx) (e : Int) (N : Nat) (x : List Cx) : List Cx :=
  let z : Cx := ⟨0, 0⟩
  let h0 := nth z h 0
  let d : Int := 2 ^ (19 - e).toNat
  (x.zip (h ++ [z])).zipIdx.map (fun ((v : Cx × Cx), (n : Nat)) =>
    if n = 0 then ⟨rhu (v.1.re * h0.re) d, 0⟩
    else if n = N then ⟨rhu (v.1.re * h0.im) d, 0⟩
    else mulh v.1 v.2 e)

/-- out_s over the `n` indices from `k` on, which lie in one frame, with filter slot `i` (R200). -/
def stageOut (s : State) (a : Int → Int) (i st : Nat) (k : Int) (n : Nat) : List Int :=
  let (N, O, _, q0) := convStage s.dbl st
  let used := slotParts s i st
  if used = 0 then List.replicate n 0
  else
    let t := (k - O + N) / N
    let r := ((k - O + N) % N).toNat
    let zero := List.replicate (N + 1) (Cx.mk 0 0)
    let y := (List.range used).foldl (fun acc p =>
      List.zipWith (fun u v => Cx.mk (satBits 64 (u.re + v.re)) (satBits 64 (u.im + v.im))) acc
        (partProduct (slotBins s i st (O + p * N) N) (slotExpo s i (q0 + p)) N (spectrum a N (t - p)))) zero
    let full := y ++ ((y.drop 1).take (N - 1)).reverse.map (fun c => ⟨c.re, -c.im⟩)
    let u := transform true (Nat.log2 (2 * N)) full
    ((u.drop (N + r)).take n).map Cx.re

/-- Convolution output with one slot (R203), and whether it saturated; no filter passes the input. -/
def convWith (s : State) (sel slot : Nat) (k : Int) : List Int × Bool :=
  let a := fun i => smpGet s.smp.align sel i
  if slot = 0xFFF then ((List.range s.B).map (fun (q : Nat) => a (k + (q : Int))), false)
  else
    let outs := (List.range 4).map (fun st => stageOut s a slot st k s.B)
    let ys := (List.range s.B).map (fun q => rhuBits 12 (sumInt (outs.map (fun o => nth 0 o q))))
    (ys.map satSample, ys.any (fun y => decide (satSample y ≠ y)))

/-- Frames whose outputs begin at index `k` and for which a tail coefficient of a slot is delivered poisoned (R205). -/
def poisonFrames (s : State) (slots : List Nat) (k : Int) : Nat :=
  ([2, 3].filter (fun st =>
    let (N, O, _, _) := convStage s.dbl st
    decide (k % N = 0) && slots.any (fun i => decide (i ≠ 0xFFF)
      && (List.range (N * slotParts s i st)).any (fun n => isPoisoned s (slotAddr s i + 8 * (O + n)))))).length

/-- Convolution state of a chain that has no filter. -/
def ConvState.empty : ConvState := ⟨0xFFF, 0xFFF, 0, 0, true, 0xFFF, 0, 0⟩

/-- Convolution state of a chain. -/
def convGet (sel : Nat) (s : State) : ConvState := sget ConvState.empty sel s.conv

/-- Convolution state of a chain set. -/
def convSet (sel : Nat) (c : ConvState) (s : State) : State := { s with conv := sset ConvState.empty sel c s.conv }

/-- Outputs of two filters over the indices from `k` on, the first left for the second from index `at_` over `len` samples
(R213). -/
def xfade (at_ : Int) (len : Nat) (k : Int) (old new : List Int) : List Int :=
  ((List.zip old new).zipIdx).map (fun ((p : Int × Int), (q : Nat)) =>
    let i := k + (q : Int)
    if i < at_ then p.1
    else if at_ + len ≤ i then p.2
    else p.1 + ((p.2 - p.1) * (i - at_)) / len)

/-- The convolution of a speaker chain over the indices [B(a−1), Ba), with a crossfade where one runs (R213): samples,
saturation, and the slots that it read. -/
def convRun (a sel : Nat) (s : State) : List Int × Bool × List Nat :=
  let k := s.j0 a
  let c := convGet sel s
  let (new, sat) := convWith s sel c.slot k
  if c.xfAt + c.xfLen ≤ k then (new, sat, [c.slot])
  else
    let (old, satOld) := convWith s sel c.old k
    if c.prevAt + c.prevLen ≤ k then (xfade c.xfAt c.xfLen k old new, sat || satOld, [c.slot, c.old])
    else
      let (prev, satPrev) := convWith s sel c.prevOld k
      (xfade c.xfAt c.xfLen k (xfade c.prevAt c.prevLen k prev old) new, sat || satOld || satPrev, [c.slot, c.old, c.prevOld])

/-- The convolution and output section of block `a` for speaker chain `sel` (R183 to R185, R203, R205). -/
def convSection (a sel : Nat) (s : State) : State :=
  if !isSpk s sel || (decide (3 ≤ (fnGet 5 sel s).st) && !(chGet sel s).tail) then s
  else
    let (cs, sat, slots) := convRun a sel s
    let bad := poisonFrames s slots (s.j0 a)
    let s := if bad = 0 then s else setPoison (count 0x10090044 0 bad s)
    spkOutput a sel cs (noteSpkSat sel (a - 1) sat s)

/-! ### Slots in use -/

/-- Chains and crossfades that use a slot (R209). -/
def slotUsers (i : Nat) (s : State) : Nat :=
  (s.conv.filter (fun e => decide (e.2.slot = i))).length
    + (s.conv.filter (fun e => !e.2.xfDone && decide (e.2.old = i))).length

/-- State of a slot (R209): a slot that a registered fix commits is LOADING until the fix acts. -/
def slotState (i : Nat) (s : State) : Nat :=
  let sl := slotGet i s
  if sl.committed && sl.state ≠ 3 then 1 else sl.state

/-- At a block tick a slot that nothing uses any more becomes READY (R214). -/
def slotTick (s : State) : State :=
  { s with slot := s.slot.map (fun (i, sl) =>
      (i, if sl.state = 3 ∧ slotUsers i s = 0 then { sl with state := 2 } else sl)) }

/-- The chain's crossfade has ended: the old slot leaves the chain (R214). -/
def crossfadeEnd (sel : Nat) (s : State) : State :=
  let c := convGet sel s
  if c.xfDone || decide ((s.B : Int) * s.grid.block < c.xfAt + c.xfLen) then s else convSet sel { c with xfDone := true } s

/-- First index of a crossfade of a fix that acts at block `a` (R213). -/
def crossfadeStart (s : State) (a : Nat) : Int := 2048 * (((s.B * a + 2047) / 2048 : Nat) : Int) + 2048

/-! ### Tone generators (R217 to R222) -/

/-- A generator before any run. -/
def ToneGen.empty : ToneGen := ⟨0, false, false, false, 0, 0, 0, 0, 0, none, 0, 0⟩

/-- State of a tone generator. -/
def tgGet (k : Nat) (s : State) : ToneGen := sget ToneGen.empty k s.tg

/-- State of a tone generator set. -/
def tgSet (k : Nat) (g : ToneGen) (s : State) : State := { s with tg := sset ToneGen.empty k g s.tg }

/-- Registers of a generator in effect. -/
structure TgPar where
  ctrl : Nat
  amp : Int
  inc : Nat
  ratio : Nat
  len : Nat
  period : Nat
  start : Nat
deriving DecidableEq, Repr

/-- Registers of generator `k` (chapter 06, MEAS register map). -/
def tgPar (s : State) (k : Nat) : TgPar where
  ctrl := rget 0x10170014 k s
  amp := signExt 24 (rget 0x10170018 k s)
  inc := rget 0x1017001C k s + rget 0x10170020 k s * 2 ^ 32
  ratio := rget 0x10170024 k s + rget 0x10170028 k s * 2 ^ 32
  len := rget 0x1017002C k s % 2 ^ 24
  period := rget 0x10170030 k s % 2 ^ 24
  start := rget 0x10170034 k s + (rget 0x10170038 k s % 2 ^ 27) * 2 ^ 32

/-- log2 F of a fade code (R219). -/
def fadeLog (ctrl : Nat) : Nat := bits 5 2 ctrl + 2

/-- The envelope at sample q of a sweep of `n` samples (R219). -/
def sweepEnv (p : TgPar) (q : Nat) : Int :=
  if bits 5 2 p.ctrl = 0 then p.amp
  else
    let f := 2 ^ fadeLog p.ctrl
    if q < f then (p.amp * q) / f
    else if p.len ≤ q + f then (p.amp * ((p.len : Int) - 1 - q)) / f
    else p.amp

/-- The sine sample of a phase with an envelope (R218). -/
def toneSample (phase : Nat) (env : Int) : Int :=
  let j := phase / 2 ^ 52
  let f : Int := ((phase / 2 ^ 32) % 2 ^ 20 : Nat)
  let v := sinQ30 j + rhu ((sinQ30 (j + 1) - sinQ30 j) * f) (2 ^ 20)
  satSample (rhuBits 23 (env * v))

/-- The increment after one sample of a sweep (R218). -/
def sweepInc (inc ratio : Nat) : Nat := min ((2 * (inc * ratio) + 2 ^ 62) / 2 ^ 63) (2 ^ 63 - 1)

/-- One sample at lane index `i` of a generator that is not standing still. The fade of MODE = OFF runs as env × (F − 1 − q) / F
with FADE and REPEATS as the fix leaves them, and the 8-bit count of completed sweeps stays at 255: DEDUCED (assumption
104). -/
def toneStep (B : Nat) (p : TgPar) (i : Int) (g : ToneGen) : Int × ToneGen :=
  if !g.running then (0, g)
  else
    let rel := i - (B : Int) * g.m - g.delay
    if rel < 0 then (0, g)
    else
      let offEnv : Int → Int := fun e =>
        match g.offAt with
        | none => e
        | some o =>
          if i < o then e
          else
            let f : Int := if bits 5 2 p.ctrl = 0 then 0 else 2 ^ fadeLog p.ctrl
            let q := i - o
            if q < f then (e * (f - 1 - q)) / f else 0
      let ended := match g.offAt with
        | none => false
        | some o => decide (o + (if bits 5 2 p.ctrl = 0 then 0 else 2 ^ fadeLog p.ctrl : Nat) ≤ i)
      if ended then (0, { g with running := false, mode := 0 })
      else if g.mode = 1 then
        (toneSample g.phase (offEnv p.amp), { g with phase := (g.phase + g.inc) % 2 ^ 64 })
      else
        let per := max 1 (p.period * B)
        let r := rel.toNat / per
        let q := rel.toNat % per
        if r > bits 13 6 p.ctrl then (0, { g with running := false, done := true })
        else
          let g := if q = 0 then { g with phase := 0, inc := p.inc } else g
          if q < p.len then
            let x := toneSample g.phase (offEnv (sweepEnv p q))
            let g := { g with phase := (g.phase + g.inc) % 2 ^ 64, inc := sweepInc g.inc p.ratio }
            let g := if q + 1 = p.len then
                { g with sweeps := min (g.sweeps + 1) 255,
                         done := g.done || decide (r = bits 13 6 p.ctrl),
                         running := !decide (r = bits 13 6 p.ctrl) }
              else g
            (x, g)
          else (0, g)

/-- `n` samples from lane index `i` on. -/
def toneRun (B : Nat) (p : TgPar) : Nat → Int → ToneGen → List Int → List Int × ToneGen
  | 0, _, g, acc => (acc.reverse, g)
  | n + 1, i, g, acc =>
    let (x, g) := toneStep B p i g
    toneRun B p n (i + 1) g (x :: acc)

/-- One window of B lane samples from index `j` on, with pause and resume (R222): a pause fades out and then stands still,
a resume fades in. -/
def toneWindow (s : State) (p : TgPar) (j : Int) (g : ToneGen) : List Int × ToneGen :=
  if g.pause = 2 then (List.replicate s.B 0, { g with delay := g.delay + s.B })
  else
    let (xs, g) := toneRun s.B p s.B j g []
    if g.pause = 1 then (fadeList true s.lgB xs, { g with pause := 2 })
    else if g.pause = 3 then (fadeList false s.lgB xs, { g with pause := 0 })
    else (xs, g)

/-- Generator `k` writes its lane's window of block `a` (R217, R221, R646). -/
def toneSection (a k : Nat) (s : State) : State :=
  match nth none s.img.tgLanes k with
  | none => s
  | some lane =>
    let (xs, g) := toneWindow s (tgPar s k) (s.j0 a) (tgGet k s)
    tgSet k g { s with smp := { s.smp with lane := smpPut lane (s.j0 a) xs s.smp.lane } }

/-- A fix that acts at block `n` writes MODE of generator `k` (R221, R222): `old` is the mode before. -/
def toneMode (n k : Nat) (s : State) : State :=
  let p := tgPar s k
  let g := tgGet k s
  match p.ctrl % 4 with
  | 0 => if g.running then tgSet k { g with offAt := some (s.B * (n - 1)), pause := 0 } s
         else tgSet k { g with mode := 0, armed := false, pause := 0 } s
  | m => tgSet k { ToneGen.empty with
      mode := m, armed := true, inc := p.inc, m := max p.start (n - 1), pausePending := g.pausePending } s

/-- TG_START: the run of generator `k` starts with phase 0 (R221); the sections of block m + 1 produce its first sample. -/
def toneStart (k : Nat) (s : State) : State :=
  let g := tgGet k s
  if g.armed && decide (g.m + 1 ≤ s.grid.block) then
    tgSet k { g with armed := false, running := true, phase := 0, inc := (tgPar s k).inc } s
  else s

/-- Lane samples from the start of the run to the window of the current block, the pauses taken off (R220, R222). -/
def toneRel (s : State) (g : ToneGen) : Int := s.j0 s.grid.block - (s.B : Int) * g.m - g.delay

/-- SWEEP_START: the next sweep of a LOG_SWEEP run starts from phase 0 and the initial increment (R220). -/
def sweepStart (k : Nat) (s : State) : State :=
  let p := tgPar s k
  let g := tgGet k s
  let rel := toneRel s g
  if g.running && decide (g.mode = 2) && decide (0 < rel) && decide (rel % max 1 (p.period * s.B : Nat) = 0)
      && decide (g.pause ≠ 2) && decide (s.sched.tgRan ≤ s.grid.block) then
    tgSet k { g with phase := 0, inc := p.inc } s
  else s

/-- MEAS.TG_STATE (chapter 06). -/
def tgWord (g : ToneGen) : Nat :=
  bitIf g.running 0 + bitIf g.done 1 + (g.sweeps % 256) * 4 + bitIf (g.pause = 1 || g.pause = 2) 10
    + bitIf (decide (g.pausePending ≠ 0)) 11

/-- The RO registers of the CONV block for a selected chain and slot. -/
def convReg (off sel slot : Nat) (s : State) : Nat :=
  let c := convGet sel s
  let xfEnd := if c.xfDone then 0 else (c.xfAt + c.xfLen).toNat
  match off with
  | 0x00 => if s.img.applied then s.img.slots + 2 ^ 31 else 0
  | 0x0C => if isSpk s sel then c.slot + (if c.xfDone then 0xFFF else c.old) * 2 ^ 12 + bitIf (!c.xfDone) 24
            else 0xFFFFFF
  | 0x10 => xfEnd % 2 ^ 32
  | 0x14 => xfEnd / 2 ^ 32
  | 0x24 => if slot < s.img.slots then slotState slot s + bitIf (slotGet slot s).committed 2
              + (slotUsers slot s) * 8 else 0
  | 0x34 => (s.conv.filter (fun e => !e.2.xfDone)).length
  | _ => 0

end Sys2Proof.Machine
end

