-- ==== Sys2Proof/Machine/Analog.lean ====
section
/-!
DEFINITION. Converters, headset ports and the class-D stage (chapter 13).
-/
namespace Sys2Proof.Machine

/-! ### What leaves at an output index -/

/-- The sample that a destination of bus `k` carries at output index `o` (R168, R169, R428): a speaker chain's or direct
channel's output, or a general bus three blocks on, through its dynamics instance where one is bound. -/
def egress (s : State) (k : Nat) (o : Int) : Int :=
  if isSpeakerBus s k then smpGet s.smp.out k o
  else match genInstance s k, directChannel s k with
    | some g, _ => smpGet s.smp.out (1024 + g) (o - 3 * s.B)
    | none, some c => smpGet s.smp.out (1536 + c) o
    | none, none => smpGet s.smp.bus k (o - 3 * s.B)

/-! ### ADC channels -/

/-- State of an ADC and of the other analog instances, and their updates. -/
def adcGet (k : Nat) (s : State) : AdcState := sget AdcState.reset k s.ana.adc
def adcSet (k : Nat) (v : AdcState) (s : State) : State :=
  { s with ana := { s.ana with adc := sset AdcState.reset k v s.ana.adc } }
def dacGet (k : Nat) (s : State) : DacState := sget DacState.reset k s.ana.dac
def dacSet (k : Nat) (v : DacState) (s : State) : State :=
  { s with ana := { s.ana with dac := sset DacState.reset k v s.ana.dac } }
def ampGet (k : Nat) (s : State) : AmpState := sget AmpState.reset k s.ana.amp
def ampSet (k : Nat) (v : AmpState) (s : State) : State :=
  { s with ana := { s.ana with amp := sset AmpState.reset k v s.ana.amp } }
def hsGet (k : Nat) (s : State) : HsState := sget HsState.reset k s.ana.hs
def hsSet (k : Nat) (v : HsState) (s : State) : State :=
  { s with ana := { s.ana with hs := sset HsState.reset k v s.ana.hs } }

/-- The DC blocker (R455): lane sample and next state. -/
def dcStep (mode : Nat) (c : Int) (x st : Int) : Int × Int :=
  match mode with
  | 0 => (x, 0)
  | 1 => (satSample (x - convBits 16 st), satBits 48 (st + convBits 31 (c * (x * 2 ^ 16 - st))))
  | _ => (satSample (x - convBits 16 st), st)

/-- The blocker over consecutive samples. -/
def dcRun (mode : Nat) (c : Int) : List Int → Int → List Int → List Int × Int
  | [], st, acc => (acc.reverse, st)
  | x :: t, st, acc => let (y, st) := dcStep mode c x st; dcRun mode c t st (y :: acc)

/-- The decimation output, given in 2^-44 of full scale, rounded convergently and saturated to Q4.28 (R454). -/
def decimate (v : Int) : Int := satSample (convBits 16 v)

/-- The fade of a headset button on lane sample `i` (R470): over one block, then silence until the fade-in. -/
def buttonFade (s : State) (f : Option (Nat × Bool)) (i : Nat) (x : Int) : Int :=
  match f with
  | none => x
  | some (b, true) => if i < b then x else if i < b + s.B then fadeOut s.lgB (i - b) x else 0
  | some (b, false) => if i < b + s.B then fadeIn s.lgB (i - b) x else x

/-- Fade in effect on the lane of an ADC. -/
def laneFade (s : State) (k : Nat) : Option (Nat × Bool) :=
  if k = 4 ∨ k = 5 then (hsGet (k - 4) s).fade else none

/-- One sub-block of an ADC: its samples from lane index `i` on arrive (R453 to R455, R459, R460). `keep` says that the
lane takes them (R318). -/
def adcSub (k : Nat) (i : Nat) (raw : List Int) (coarse : Int) (ovl keep : Bool) (s : State) : State :=
  match nth none s.img.adcLane k with
  | none => s
  | some lane =>
    let a := adcGet k s
    let ctrl := rget 0x100E000C k s
    let (ys, dc) := dcRun (bits 10 9 ctrl) (rget 0x100E0010 k s) (raw.map decimate) a.dc []
    let f := laneFade s k
    let ls := (ys.zipIdx).map (fun ((y : Int), (q : Nat)) => buttonFade s f (i + q) y)
    let s := if keep then { s with smp := { s.smp with lane := smpPut lane i ls s.smp.lane } } else s
    adcSet k { a with
      dc := dc, blk := ys.reverse ++ a.blk, coarse := max (-40960) (min coarse 4624)
      ovNow := a.ovNow || ovl, overload := a.overload || ovl } s

/-- 2^56·10^(k/2560) ≤ m, as integers (R459). -/
def rmsAtLeast (m : Nat) (k : Int) : Bool :=
  if 0 ≤ k then decide (2 ^ (56 * 2560) * 10 ^ k.toNat ≤ m ^ 2560)
  else decide (2 ^ (56 * 2560) ≤ m ^ 2560 * 10 ^ (-k).toNat)

/-- LEVEL_RMS of a mean square (R459). -/
def rmsOf (m : Nat) : Int :=
  if m = 0 then -40960
  else -40960 + (searchMax (fun r => decide (r ≤ 45584) && rmsAtLeast m ((r : Int) - 40960)) 16 0 : Nat)

/-- The end of a block for an ADC: levels and the overload count (R459, R460). -/
def adcBlock (k : Nat) (s : State) : State :=
  if (nth none s.img.adcLane k).isNone then s
  else
    let a := adcGet k s
    let peak := (a.blk.map Int.natAbs).foldl max 0
    let ms := convBits s.lgB (sumInt (a.blk.map (fun y => y * y)))
    let s' := adcSet k { a with
      blk := [], peak := levelOf peak, rms := rmsOf ms.natAbs, ovRun := a.ovNow, ovNow := false } s
    let s' := if a.ovNow then count 0x100E0024 k 1 s' else s'
    if a.ovNow && !a.ovRun then raiseTick 0x69 k s' else s'

/-! ### DACs -/

/-- The generator settings in the registers, from output index `o` on. -/
def genVer (k : Nat) (o : Int) (restart : Bool) (s : State) : GenVer :=
  let c := rget 0x100F0008 k s
  ⟨o, c % 4, bit 2 c, rget 0x100F000C k s, signExt 32 (rget 0x100F0010 k s), rget 0x100F0014 k s,
    signExt 24 (rget 0x100F0018 k s), restart⟩

/-- One step of a sweep (R462): inc moves by the signed step towards its end and does not pass it; a step away from the
end does not move it. -/
def sweepStep (inc : Nat) (step : Int) (stop : Nat) : Nat :=
  let n := (inc : Int) + step
  if (0 < step ∧ inc < stop) then (min n stop).toNat
  else if (step < 0 ∧ stop < inc) then (max n stop).toNat
  else inc

/-- The settings in effect at an output index. -/
def genAt (l : List GenVer) (o : Int) : Option GenVer := l.reverse.find? (fun v => decide (v.o0 ≤ o))

/-- One generator sample at output index `o` over the source sample `x` (R462, R463). -/
def genSample (S : Nat) (o x : Int) (d : DacState) : Int × DacState :=
  let d := match d.setAt with
    | some (i, phi, inc) => if i = o then { d with phi := phi, inc := inc, setAt := none } else d
    | none => d
  match genAt d.vers o with
  | none => (x, d)
  | some v =>
    let d := if v.restart && decide (v.o0 = o) then { d with phi := 0, inc := v.inc }
      else if v.sweep && decide (o % S = 0) then { d with inc := sweepStep d.inc v.step v.stop } else d
    let g := toneSample (d.phi * 2 ^ 32) v.amp
    let y := match v.mode with | 1 => satSample (x + g) | 2 => g | _ => x
    (y, { d with phi := (d.phi + d.inc) % 2 ^ 32 })

/-- Generator samples over consecutive output indices. -/
def genRun (S : Nat) : List Int → Int → DacState → List Int → List Int × DacState
  | [], _, d, acc => (acc.reverse, d)
  | x :: t, o, d, acc => let (y, d) := genSample S o x d; genRun S t (o + 1) d (y :: acc)

/-- Settings that no later output index can use are dropped. -/
def trimGens (o : Int) : List GenVer → List GenVer
  | a :: b :: t => if b.o0 ≤ o then trimGens o (b :: t) else a :: b :: t
  | l => l

/-- Source samples of a bound resource. -/
def srcSamples (s : State) (src : Option Nat) (o : Int) (n : Nat) : List Int :=
  (List.range n).map (fun (q : Nat) => match src with | some b => egress s b (o + (q : Int)) | none => 0)

/-- The sample of output index `o` was not in the queue at its edge (R461). -/
def inGap (l : List (Nat × Nat)) (o : Int) : Bool := l.any (fun g => decide ((g.1 : Int) ≤ o) && decide (o < g.1 + g.2))

/-- DAC `k` takes the output indices of sub-block period `q` (R461 to R463). -/
def dacSub (q k : Nat) (s : State) : State :=
  match s.img.dacSrc[k]? with
  | none => s
  | some src =>
    let o : Int := s.S * q
    let d := dacGet k s
    let (ys, d) := genRun s.S (srcSamples s src o s.S) o d []
    let ys := (ys.zipIdx).map (fun ((y : Int), (j : Nat)) => if inGap d.gaps (o + j) then 0 else y)
    dacSet k { d with vers := trimGens o d.vers, gaps := d.gaps.filter (fun g => decide (o < g.1 + g.2)) }
      { s with smp := { s.smp with dac := smpPut k o ys s.smp.dac } }

/-- A fix that acts at block `n` wrote generator registers of DAC `k`; `restart` says that it changed MODE from OFF or
wrote GEN_INC (R463). -/
def dacFix (n k : Nat) (restart : Bool) (s : State) : State :=
  let d := dacGet k s
  dacSet k { d with vers := d.vers ++ [genVer k (s.B * (n + 2)) restart s] } s

/-- One compliance check of DAC `k` (R465): current flows, current that the stage sources in µA, ball voltage in mV. -/
def dacCheck (k : Nat) (flow : Bool) (uA : Nat) (mV : Int) (s : State) : State :=
  if (s.img.dacSrc[k]?).isNone then s
  else
    let d := dacGet k s
    let op := !flow && decide (500 ≤ uA)
    let ov := if nth false s.img.dacHp k then decide (mV < -1500) || decide (1500 < mV)
      else decide (mV < 300) || decide (1500 < mV)
    let opNow := op && (d.openSeen || d.openNow)
    let ovNow := ov && (d.overSeen || d.overNow)
    let opNew := opNow && !d.openNow
    let ovNew := ovNow && !d.overNow
    let cleared := (d.openNow || d.overNow) && !opNow && !ovNow
    let s := dacSet k { d with
      openSeen := op, overSeen := ov, openNow := opNow, overNow := ovNow
      openEv := d.openEv || opNew, overEv := d.overEv || ovNew, tail := d.tail || cleared } s
    let s := if opNew then raise 0x6B k (count 0x100F0020 k 1 s) else s
    if ovNew then raise 0x6C k (count 0x100F0020 k 1 s) else s

/-- COMPLIANCE_MUTE_END (R465): 100 ms after a condition cleared, with none holding now. -/
def dacMuteEnd (k : Nat) (s : State) : State :=
  let d := dacGet k s
  if d.openNow || d.overNow then s else dacSet k { d with tail := false } s

/-- The stage of DAC `k` sources zero current (R465, R471, R480). -/
def dacMuted (s : State) (k : Nat) : Bool :=
  let d := dacGet k s
  !s.twin.acts || (bit 3 (rget 0x100F0008 k s) && (d.openNow || d.overNow || d.tail))
    || ((k = 6 || k = 7) && nth false s.img.hsOn (k - 6) && !(hsGet (k - 6) s).outOn)

/-- `n` samples of DAC `k` from output index `o` that are not in the queue at their edge (R461): replaced by 0 and counted. -/
def dacUnderrun (k o n : Nat) (s : State) : State :=
  if n = 0 then s
  else
    let d := dacGet k s
    let s := dacSet k { d with gaps := d.gaps ++ [(o, n)] } s
    let taken := s.smp.dac.filter (fun (e : Nat × Int) => !(e.1 / 2 ^ 64 = k && inGap [(o, n)] (e.1 % 2 ^ 64 : Nat)))
    raise 0x6A k (count 0x100F0024 k n { s with smp := { s.smp with dac := taken } })

/-! ### Headset ports -/

/-- HSn is enabled by the image. -/
def hsOn (s : State) (n : Nat) : Bool := nth false s.img.hsOn n

/-- A button fade that the state of the button now asks for (R470). -/
def askFade (s : State) (n : Nat) (out : Bool) (h : HsState) : HsState :=
  if out then (if bit 0 (rget 0x10110008 n s) then { h with fadeDue := 1 } else h)
  else if h.fadeDue = 1 then { h with fadeDue := 0 }
  else match h.fade with
    | some (_, true) => { h with fadeDue := 3 }
    | _ => h

/-- HSn_DET changes (R467): a break restarts the waits. -/
def hsDet (n : Nat) (plug : Bool) (s : State) : State :=
  let h := hsGet n s
  let st := if !hsOn s n then h.st else if plug && h.st = 1 then 2 else if !plug && h.st = 2 then 1 else h.st
  hsSet n { h with det := plug, st := st } s

/-- The insertion is confirmed (R467, R471). -/
def hsInsert (n : Nat) (s : State) : State :=
  let h := hsGet n s
  if hsOn s n && h.det && h.st = 2 then
    raise 0x6D n (hsSet n { h with
      st := 3, insert := true, allLow := true, allFour := true, classified := 0, fourRun := 0, highRun := 0
      window := 0, windowRun := 0, upRun := 0, outDue := true } s)
  else s

/-- The removal is confirmed (R467, R471): type and button end without a release event. -/
def hsRemove (n : Nat) (s : State) : State :=
  let h := hsGet n s
  if hsOn s n && !h.det && decide (3 ≤ h.st) then
    let h' := if h.button ≠ 0 then askFade s n false h else h
    raise 0x6E n (hsSet n { h' with
      st := 1, type := 0, button := 0, remove := true, outOn := false, outDue := false } s)
  else s

/-- The 50 ms classification ends (table "Accessory classification"). -/
def hsClassify (n : Nat) (s : State) : State :=
  let h := hsGet n s
  if h.st = 3 then
    let t := if h.classified = 0 then 3 else if h.allLow then 1 else if h.allFour then 2 else 3
    hsSet n { h with st := 4, type := t } s
  else s

/-- The button window of a resistance, 1 to 4, or 0 (R469). -/
def buttonWindow (r : Nat) : Nat :=
  if r ≤ 40 then 1 else if 75 ≤ r ∧ r ≤ 130 then 2 else if 200 ≤ r ∧ r ≤ 330 then 3
  else if 520 ≤ r ∧ r ≤ 900 then 4 else 0

/-- Type changes outside the classification (R468): 200 ms are 200 consecutive measurements. -/
def hsTypeRule (n r : Nat) (s : State) : State :=
  let h := hsGet n s
  let four := if 1500 ≤ r ∧ r ≤ 12000 then h.fourRun + 1 else 0
  let high := if 12000 < r then h.highRun + 1 else 0
  let h := { h with fourRun := min four 200, highRun := min high 200 }
  if (h.type = 1 || h.type = 3) && decide (200 ≤ four) then hsSet n { h with type := 2, typeChange := true } s
  else if h.type = 2 && decide (200 ≤ high) then raise 0x6F n (hsSet n { h with type := 3, typeChange := true } s)
  else hsSet n h s

/-- Buttons (R469): 20 ms are 20 consecutive measurements; the press confirmed first lasts until its release. -/
def hsButtonRule (n r : Nat) (s : State) : State :=
  let h := hsGet n s
  let w := buttonWindow r
  let run := if w = 0 then 0 else if w = h.window then min (h.windowRun + 1) 20 else 1
  let up := if 1500 ≤ r then min (h.upRun + 1) 20 else 0
  let h := { h with window := w, windowRun := run, upRun := up }
  if h.button = 0 && h.type = 2 && decide (20 ≤ run) then
    raise 0x70 n (count 0x10110014 n 1 (hsSet n (askFade s n true { h with button := w, press := true }) s))
  else if h.button ≠ 0 && decide (20 ≤ up) then
    raise 0x70 n (hsSet n (askFade s n false { h with button := 0 }) s)
  else hsSet n h s

/-- One measurement of R_mic in Ω (R466). -/
def hsMeasure (n r : Nat) (s : State) : State :=
  if !hsOn s n then s
  else
    let h := hsGet n s
    let s := hsSet n { h with ohms := min r 65535 } s
    if h.st = 3 then
      hsSet n { h with
        ohms := min r 65535, classified := h.classified + 1, allLow := h.allLow && decide (r < 100)
        allFour := h.allFour && decide (1500 ≤ r) && decide (r ≤ 12000) } s
    else if h.st = 4 then hsButtonRule n r (hsTypeRule n r s)
    else s

/-- A lane fade that is due begins at the tick of the current block (R470). -/
def hsFade (n : Nat) (s : State) : State :=
  let h := hsGet n s
  let b := s.B * s.grid.block
  if h.fadeDue = 1 then hsSet n { h with fadeDue := 2, fade := some (b, true) } s
  else if h.fadeDue = 3 then hsSet n { h with fadeDue := 0, fade := some (b, false) } s
  else s

/-- The headphone output resumes at the tick after an insertion (R471). -/
def hsResume (n : Nat) (s : State) : State :=
  let h := hsGet n s
  if h.outDue then hsSet n { h with outOn := true, outDue := false } s else s

/-! ### Class-D stage -/

/-- Peak output voltage in mV of an FS_PEAK code (table "Class-D full scale"). -/
def fsPeak (code : Nat) : Nat := match code with | 0 => 6320 | 1 => 8940 | _ => 12650

/-- |m| = |d| × FS_PEAK / PVDD exceeds 0.98 (R473). -/
def clips (d : Int) (code pvdd : Nat) : Bool := decide (98 * pvdd * 2 ^ 28 < 100 * d.natAbs * fsPeak code)

/-- Class-D channel `k` takes the output indices of sub-block period `q`: clipping, counted once per block (R473). -/
def ampSub (q k : Nat) (s : State) : State :=
  match s.img.ampSrc[k]? with
  | none => s
  | some src =>
    let a := ampGet k s
    let hit := (srcSamples s src (s.S * q) s.S).any (fun d => clips d (rget 0x10100008 k s % 4) s.ana.pvdd)
    if hit && !a.clipped then count 0x10100020 k 1 (ampSet k { a with clip := true, clipped := true } s) else s

/-- The channel is latched (R477). -/
def ampLatch (k : Nat) (s : State) : State :=
  let a := ampGet k s
  raise 0x72 k (ampSet k { a with latched := true, waiting := false, off := true, resume := false } s)

/-- The channel drives its outputs. -/
def ampDrives (s : State) (k : Nat) : Bool :=
  (s.img.ampSrc[k]?).isSome && s.twin.acts && !(ampGet k s).off && !s.ana.pvddLow

/-- A limited PWM cycle (R476, R477): `prev` says that the cycle before was limited too. -/
def ampLimit (k : Nat) (prev : Bool) (s : State) : State :=
  if !ampDrives s k then s
  else
    let a := ampGet k s
    let n := if prev then a.limited + 1 else 1
    let s := count 0x10100018 k 1 s
    if n < 4 then ampSet k { a with limited := n } s
    else
      let a := { a with limited := 0, trip := true, off := true }
      let s := raise 0x71 k (count 0x1010001C k 1 (ampSet k a s))
      if bit 4 (rget 0x10100008 k s) && decide (a.tries < 3) then ampSet k { a with waiting := true } s
      else ampLatch k s

/-- The 100 ms wait after a trip ends (R477). -/
def ampWaitEnd (k : Nat) (s : State) : State :=
  let a := ampGet k s
  if a.waiting then ampSet k { a with resume := true } s else s

/-- The channel resumes at a block tick (R477, R479, R627). -/
def ampResume (k : Nat) (s : State) : State :=
  let a := ampGet k s
  if a.resume && !s.ana.pvddLow then
    ampSet k { a with
      off := false, resume := false, waiting := false, latched := false, limited := 0
      tries := if a.waiting then min (a.tries + 1) 3 else a.tries } s
  else s

/-- A clean second (R477). -/
def ampClean (k : Nat) (s : State) : State :=
  let a := ampGet k s
  if ampDrives s k then ampSet k { a with tries := 0 } s else s

/-- A 50 ms window of the output voltage ends with average `mV` (R478). -/
def ampDc (k : Nat) (mV : Int) (s : State) : State :=
  if (s.img.ampSrc[k]?).isNone then s
  else
    let a := ampGet k s
    let n := if 2000 < mV.natAbs then a.dcRun + 1 else 0
    if 2 ≤ n && !a.latched then raise 0x73 k (ampLatch k (ampSet k { a with dcRun := 0, dcFault := true } s))
    else ampSet k { a with dcRun := min n 1 } s

/-- AMP.CMD.CLEAR (R479). -/
def ampClear (k : Nat) (s : State) : State :=
  let a := ampGet k s
  if a.latched then ampSet k { a with tries := 0, resume := true } s else s

/-- PVDD falls below 11.0 V: both channels go to high impedance (R627). -/
def pvddFall (s : State) : State := { s with ana := { s.ana with pvddLow := true } }

/-- PVDD has stayed above 11.5 V for 10 ms: channels that only waited for it resume at the next tick (R627). -/
def pvddRise (s : State) : State :=
  if !s.ana.pvddLow then s
  else
    let s := { s with ana := { s.ana with pvddLow := false } }
    (List.range 2).foldl (fun s k =>
      let a := ampGet k s
      if a.off then s else ampSet k { a with off := true, resume := true } s) s

/-! ### Ticks -/

/-- The samples of the sub-block that ended at the boundary of period `q` arrive from every ADC; `keep` says whether the
lanes take them. -/
def adcArrive (q : Nat) (l : List AdcIn) (keep : Bool) (s : State) : State :=
  if q = 0 then s
  else (l.take 8).zipIdx.foldl (fun s ((x : AdcIn), (k : Nat)) =>
    adcSub k (s.S * (q - 1)) (x.raw.take s.S) x.coarse x.overload keep s) s

/-- Analog work at the boundary of sub-block period `q`. -/
def analogSub (q : Nat) (s : State) : State :=
  let s := (List.range 8).foldl (fun s k => dacSub q k s) s
  (List.range 2).foldl (fun s k => ampSub q k s) s

/-- Analog work at a block tick: levels, PVDD in mV and the per-block clip count. -/
def analogTick (pvdd : Nat) (s : State) : State :=
  let s := (List.range 8).foldl (fun s k => adcBlock k s) s
  let s := { s with ana := { s.ana with pvdd := pvdd } }
  (List.range 2).foldl (fun s k => ampSet k { ampGet k s with clipped := false } s) s

/-! ### Registers -/

/-- DAC.STATUS. -/
def dacStatus (s : State) (k : Nat) : Nat :=
  let d := dacGet k s
  bitIf (s.img.dacSrc[k]?).isSome 0 + bitIf (nth false s.img.dacHp k) 1 + bitIf d.openNow 2 + bitIf d.overNow 3
    + bitIf ((s.img.dacSrc[k]?).isSome && dacMuted s k) 4 + bitIf d.openEv 8 + bitIf d.overEv 9

/-- AMP.STATUS. -/
def ampStatus (s : State) (k : Nat) : Nat :=
  let a := ampGet k s
  let st := if (s.img.ampSrc[k]?).isNone then 0 else if a.latched then 4 else if a.waiting then 3
    else if !s.twin.acts then 2 else 1
  st + (a.tries % 4) * 8 + bitIf a.trip 8 + bitIf a.dcFault 9 + bitIf a.clip 10

/-- HSD.STATUS. -/
def hsStatus (s : State) (n : Nat) : Nat :=
  let h := hsGet n s
  (if hsOn s n then h.st else 0) + h.type * 8 + h.button * 32 + bitIf h.insert 8 + bitIf h.remove 9
    + bitIf h.press 10 + bitIf h.typeChange 11

/-- Bits 0, 1, … set where the entries hold. -/
def maskOf (l : List Bool) : Nat := (l.zipIdx).foldl (fun (a : Nat) (x : Bool × Nat) => a + bitIf x.1 x.2) 0

/-- The RO registers of the ADC, DAC, AMP and HSD blocks for the selected instance. -/
def adcReg (off k : Nat) (s : State) : Nat :=
  match off with
  | 0x00 => maskOf (s.img.adcLane.map Option.isSome) + bitIf s.ana.valid 31
  | 0x04 => s.ana.recordErr
  | 0x14 => pattern 32 (adcGet k s).coarse
  | 0x18 => pattern 32 (adcGet k s).peak
  | 0x1C => pattern 32 (adcGet k s).rms
  | 0x20 => bitIf (nth none s.img.adcLane k).isSome 0 + bitIf (adcGet k s).overload 1 + bitIf (adcGet k s).switched 2
  | _ => 0
def dacReg (off k : Nat) (s : State) : Nat :=
  match off with
  | 0x00 => maskOf (s.img.dacSrc.map (fun _ => true)) + bitIf s.ana.valid 31
  | 0x1C => dacStatus s k
  | _ => 0
def ampReg (off k : Nat) (s : State) : Nat :=
  match off with
  | 0x00 => maskOf (s.img.ampSrc.map (fun _ => true)) + bitIf s.ana.valid 31
  | 0x0C => ampStatus s k
  | 0x14 => s.ana.pvdd % 65536
  | _ => 0
def hsdReg (off k : Nat) (s : State) : Nat :=
  match off with
  | 0x00 => maskOf s.img.hsOn + bitIf s.ana.valid 31
  | 0x0C => hsStatus s k
  | 0x10 => (hsGet k s).ohms
  | _ => 0

/-- Writes of 1 to the W1C bits of the four STATUS registers. -/
def adcW1c (k v : Nat) (s : State) : State :=
  let a := adcGet k s
  adcSet k { a with overload := a.overload && !bit 1 v, switched := a.switched && !bit 2 v } s
def dacW1c (k v : Nat) (s : State) : State :=
  let d := dacGet k s
  dacSet k { d with openEv := d.openEv && !bit 8 v, overEv := d.overEv && !bit 9 v } s
def ampW1c (k v : Nat) (s : State) : State :=
  let a := ampGet k s
  ampSet k { a with trip := a.trip && !bit 8 v, dcFault := a.dcFault && !bit 9 v, clip := a.clip && !bit 10 v } s
def hsW1c (k v : Nat) (s : State) : State :=
  let h := hsGet k s
  hsSet k { h with insert := h.insert && !bit 8 v, remove := h.remove && !bit 9 v, press := h.press && !bit 10 v
                   typeChange := h.typeChange && !bit 11 v } s

end Sys2Proof.Machine
end

