-- ==== Sys2Proof/Machine/TwinLink.lean ====
section
/-!
DEFINITION. The twin link (chapter 09): frames, the reliable stream, payload layouts.
-/
namespace Sys2Proof.Machine

/-! ### Layouts -/

/-- Every byte from `o` on, `n` of them, is 0. -/
def zeros (o n : Nat) (l : List Nat) : Bool := (slice o n l).all (· = 0)

/-- One mirror entry (R304): its length where the bytes begin with a whole well-formed entry. -/
def mirrorEntryLen (l : List Nat) : Option Nat :=
  let kind := nth 0 l 0
  let count := be (slice 2 2 l)
  let n? := match kind with
    | 1 => if count = 0 then some 16 else none
    | 2 => if 1 ≤ count ∧ count ≤ 174 then some (4 + 8 * count) else none
    | 3 => if count = 0 then some 44 else none
    | 4 => if 1 ≤ count ∧ count ≤ 1024 then some (12 + 4 * count) else none
    | 5 => if count = 0 then some 8 else none
    | 6 => if count = 0 then some 4 else none
    | _ => none
  let reserved := match kind with
    | 1 => zeros 10 2 l
    | 4 => zeros 6 2 l
    | 5 => zeros 6 2 l
    | _ => true
  match n? with
  | some n => if n ≤ l.length && decide (nth 0 l 1 = 0) && reserved then some n else none
  | none => none

/-- Whole mirror entries of a payload; none where the layout breaks. -/
def mirrorEntries : Nat → List Nat → Option (List (List Nat))
  | 0, _ => none
  | fuel + 1, l =>
    if l.isEmpty then some []
    else match mirrorEntryLen l with
      | some n => (mirrorEntries fuel (l.drop n)).map (l.take n :: ·)
      | none => none

/-- Body length of a CONTROL message (table "Control messages"). -/
def controlLen (code : Nat) : Option Nat :=
  match code with
  | 0x01 => some 68
  | 0x02 => some 76
  | 0x03 => some 8
  | 0x04 => some 8
  | 0x05 => some 12
  | 0x06 => some 0
  | 0x07 => some 0
  | 0x08 => some 12
  | 0x09 => some 0
  | 0x0A => some 12
  | 0x0B => some 4
  | _ => none

/-- The frame type is carried by the reliable stream (table "Twin link frame types"). -/
def isReliable (type : Nat) : Bool := (decide (0x10 ≤ type) && decide (type ≤ 0x15)) || decide (type = 0x20)

/-- The frame type exists. -/
def typeKnown (type : Nat) : Bool := isReliable type || [0x01, 0x02, 0x03, 0x3F].contains type

/-- Bytes of a record of a bulk piece kind whose records have one length (table "Bulk piece kinds"). -/
def pieceRecord (kind : Nat) : Option Nat :=
  match kind with
  | 0x1 => some 12
  | 0x2 => some 8
  | 0x3 => some 32
  | 0x4 => some 24
  | 0x6 => some 4
  | 0x7 => some 24
  | 0x9 => some 16
  | 0xA => some 24
  | _ => none

/-- A request relay has the layout of its table: fields that its KIND does not use are 0 (R304). -/
def relayOk (p : List Nat) : Bool :=
  let f := nth 0 p 1
  let t := be (slice 4 4 p)
  decide (p.length = 24) && zeros 2 2 p && (decide (nth 0 p 0 = 6) || zeros 16 8 p) && (match nth 0 p 0 with
    | 1 => decide (f < 32)
    | 2 => decide (f < 4)
    | 3 => decide (f < 2)
    | 4 => decide (f = 0) && decide (t &&& 0xFFF0E000 = 0)
    | 5 => decide (f = 0) && decide (t &&& 0xFFF0E000 = 0)
    | 6 => decide (f = 0)
    | 7 => decide (f < 2)
    | _ => false)

/-- A fix seal has the layout of its table. -/
def sealOk (p : List Nat) : Bool := decide (p.length = 40) && zeros 17 3 p && zeros 30 2 p

/-- Reserved bytes and field ranges of a CONTROL message's body (table "Control messages"). -/
def controlOk (code : Nat) (b : List Nat) : Bool :=
  match code with
  | 0x01 => decide (nth 0 b 44 < 2) && zeros 49 3 b
  | 0x02 => decide (nth 0 b 44 < 2) && zeros 49 3 b
  | 0x05 => decide (1 ≤ nth 0 b 8) && decide (nth 0 b 8 ≤ 5) && zeros 9 3 b
  | 0x08 => decide (nth 0 b 8 < 4) && zeros 9 3 b
  | 0x0B => decide (nth 0 b 0 < 2) && zeros 1 3 b
  | _ => true

/-- One record of a bulk piece kind with records of one length (tables "Bulk piece kinds" and "Ramp record"). -/
def pieceRecordOk (kind : Nat) (r : List Nat) : Bool :=
  match kind with
  | 0x1 => zeros 6 2 r
  | 0x3 => decide (1 ≤ nth 0 r 0) && decide (nth 0 r 0 ≤ 4) && zeros 1 3 r && zeros 25 7 r
  | 0x4 => zeros 2 2 r && zeros 12 4 r
  | 0x6 => zeros 3 1 r
  | 0x7 => decide (nth 0 r 7 < 2) && zeros 16 8 r
  | 0x9 => decide (nth 0 r 5 < 2) && zeros 6 2 r
  | 0xA => decide (nth 0 r 1 < 16) && zeros 2 2 r && zeros 20 4 r
  | _ => true

/-- The rest of a kind-0x8 record of a list. -/
def dlRestOk (list : Nat) (r : List Nat) : Bool :=
  match list with
  | 0 => sealOk (r.take 40) && (mirrorEntries (r.length + 1) (r.drop 40)).isSome
  | 1 => relayOk r
  | 2 => decide (r.length = 16) && decide (1 ≤ nth 0 r 0) && decide (nth 0 r 0 ≤ 5) && zeros 1 3 r
  | 3 => relayOk r
  | _ => false

/-- `n` whole records of kind 0x8 and nothing after them. -/
def dlsOk : Nat → List Nat → Bool
  | 0, l => l.isEmpty
  | n + 1, l =>
    let k := be (slice 12 4 l)
    decide (16 + k ≤ l.length) && zeros 2 2 l && dlRestOk (nth 0 l 0) (slice 16 k l) && dlsOk n (l.drop (16 + k))

/-- The records of a bulk piece: `count` of them and nothing else (R304). -/
def pieceOk (kind count : Nat) (l : List Nat) : Bool :=
  match kind with
  | 0x5 => decide (l.length = 8 + 4 * count) && zeros 2 2 l
  | 0x8 => decide (16 * count ≤ l.length) && dlsOk count l
  | 0xB => (match mirrorEntries (l.length + 1) l with | some e => decide (e.length = count) | none => false)
  | _ => match pieceRecord kind with
    | some n => decide (l.length = n * count) && (List.range count).all (fun i => pieceRecordOk kind (slice (n * i) n l))
    | none => false

/-- The payload has the layout of its type (R304). -/
def layoutOk (s : State) (type : Nat) (p : List Nat) : Bool :=
  match type with
  | 0x01 => decide (p.length = 24)
  | 0x02 => decide (p.length = 16 + 32 * s.S)
  | 0x03 => decide (16 ≤ p.length) && decide (p.length ≤ 16 + 16384) && decide (nth 0 p 2 < nth 0 p 3)
      && (decide (nth 0 p 3 = 1) || decide (nth 0 p 3 = 2))
  | 0x10 => decide (p.length = 16 + 8 * s.img.twin.groups)
  | 0x11 => match mirrorEntries (p.length + 1) p with | some l => !l.isEmpty | none => false
  | 0x12 => sealOk p
  | 0x13 => relayOk p
  | 0x14 => decide (p.length = 64)
  | 0x15 => decide (controlLen (nth 0 p 0) = some (p.length - 4)) && decide (4 ≤ p.length) && zeros 1 3 p
      && controlOk (nth 0 p 0) (p.drop 4)
  | 0x20 => decide (20 ≤ p.length) && zeros 13 3 p && pieceOk (nth 0 p 12) (be (slice 16 4 p)) (p.drop 20)
  | 0x3F => decide (p.length = 2)
  | _ => false

/-! ### Sending -/

/-- A frame's bytes (R302). -/
def linkBytes (type seq ack : Nat) (payload : List Nat) : List Nat :=
  let body := [type, if isReliable type then 1 else 0] ++ beBytes 2 seq ++ beBytes 2 payload.length ++ beBytes 2 ack ++ payload
  body ++ beBytes 4 (crc32 body)

/-- The characters of one lane for a frame (R301): K27.7, every second byte from lane number on, with a byte 0x00 that pads an
odd length, and K29.7. A control character is its code plus 0x100. -/
def laneChars (lane : Nat) (frame : List Nat) : List Nat :=
  let l := if frame.length % 2 = 1 then frame ++ [0] else frame
  [0x1FB] ++ ((l.zipIdx).filter (fun x => decide (x.2 % 2 = lane))).map Prod.fst ++ [0x1FD]

/-- A frame as it leaves on the two lanes. -/
def onLanes (frame : List Nat) : List Nat × List Nat := (laneChars 0 frame, laneChars 1 frame)

/-- What has left the device when it resets: the reliable frames of the window beside the unreliable ones (R303, R317). -/
def lineOut (s : State) : Sparse (List Nat × List Nat) :=
  (s.twin.txq.take 64).foldl (fun m f => sput f.type (onLanes (linkBytes f.type f.seq ((s.twin.rxSeq + 65535) % 65536) f.payload)) m)
    s.twin.sent

/-- The twin link carries frames: a pair, this receive side up and no LINK_DOWN from the partner (R301, R334). -/
def linkOk (s : State) : Bool := s.img.twin.pair && s.twin.linkUp && !s.twin.peerDown

/-- ACK of the next frame: the highest reliable SEQ received in order. -/
def ackOf (s : State) : Nat := (s.twin.rxSeq + 65535) % 65536

/-- A frame handed to the link: queued until acknowledged when reliable, sent once otherwise (R303). -/
def linkSend (type : Nat) (payload : List Nat) (s : State) : State :=
  if !linkOk s then s
  else if isReliable type then
    { s with twin := { s.twin with
      txq := s.twin.txq ++ [⟨s.twin.txSeq, type, payload⟩], txSeq := (s.twin.txSeq + 1) % 65536 } }
  else { s with twin := { s.twin with sent := sput type (onLanes (linkBytes type 0 (ackOf s) payload)) s.twin.sent } }

/-- A CONTROL message sent. -/
def controlSend (code : Nat) (body : List Nat) (s : State) : State := linkSend 0x15 ([code, 0, 0, 0] ++ body) s

/-- The holder relays to its partner (R327, R346): it acts, has a partner and is not declared-divergent. -/
def relays (s : State) : Bool := s.twin.acts && s.img.twin.pair && decide (s.twin.peer ≠ 7) && !s.twin.divergent

/-- A request relay sent (R327, R444). -/
def relayReq (kind flags target boundary param : Nat) (s : State) : State :=
  if relays s then
    linkSend 0x13 ([kind, flags, 0, 0] ++ beBytes 4 target ++ beBytes 8 boundary ++ beBytes 8 param) s
  else s

/-! ### Receiving -/

/-- `a` comes at or before `b` in sequence order modulo 65,536. -/
def seqLe (a b : Nat) : Bool := decide ((b + 65536 - a % 65536) % 65536 < 32768)

/-- Acknowledged frames leave the queue. -/
def ackFrames (ack : Nat) (s : State) : State :=
  { s with twin := { s.twin with txq := s.twin.txq.filter (fun f => !seqLe f.seq ack) } }

/-- `n` unacknowledged frames that have been sent are resent and counted (R303); a frame that enters the window is sent for
the first time. -/
def resend (n : Nat) (s : State) : State := count 0x1003007C 0 n s

/-- A frame received between K27.7 and K29.7 (R302, R303): its payload when it is accepted. A frame of another type, or of
another CONTROL code, than the command names is no such command and changes nothing. -/
def linkReceive (want : Nat) (code : Option Nat) (l : List Nat) (s : State) : Option (List Nat) × State :=
  let type := nth 0 l 0
  let seq := be (slice 2 2 l)
  let n := be (slice 4 2 l)
  let ack := be (slice 6 2 l)
  let p := slice 8 n l
  if !s.twin.linkUp then (none, s)
  else if l.length < n + 12 || decide (32768 < n) then (none, count 0x10030090 0 1 s)
  else if crc32 (l.take (8 + n)) ≠ be (slice (8 + n) 4 l) then (none, count 0x10030078 0 1 s)
  else if !typeKnown type || !layoutOk s type p then (none, count 0x10030090 0 1 s)
  else if type ≠ want || (code.map (fun c => decide (nth 0 p 0 ≠ c))).getD false then (none, s)
  else
    let s := { s with twin := { s.twin with linkAt := s.clk.safe } }
    let s := if type = 0x3F then s else ackFrames ack s
    if isReliable type then
      if seq = s.twin.rxSeq then (some p, { s with twin := { s.twin with rxSeq := (seq + 1) % 65536 } })
      else if seqLe seq s.twin.rxSeq then (none, s)
      else (none, linkSend 0x3F (beBytes 2 s.twin.rxSeq) s)
    else (some p, s)

/-- A CONTROL message received: its body when it carries the code asked for. -/
def controlReceive (code : Nat) (l : List Nat) (s : State) : Option (List Nat) × State :=
  let (p, s) := linkReceive 0x15 (some code) l s
  (p.map (·.drop 4), s)

end Sys2Proof.Machine
end

