-- ==== Sys2Proof/Machine/Serial.lean ====
section
/-!
DEFINITION. The serial audio ports (chapter 12): frames, alignment, slips, clock faults, holds and the transmit words.
-/
namespace Sys2Proof.Machine

/-! ### Configuration -/

/-- Entry of a clock group and of a port; UNUSED and disabled where there is none. -/
def grpCfg (s : State) (g : Nat) : GrpCfg := nth ⟨0, 0, 0, 0⟩ s.img.grps g
def portCfg (s : State) (p : Nat) : PortCfg := nth ⟨0, 0, 0, 0, 0, 0, none, 0, 0⟩ s.img.ports p

/-- State of a clock group and of a port, and their updates. -/
def grpGet (g : Nat) (s : State) : GrpState := sget GrpState.reset g s.sap.grp
def grpSet (g : Nat) (v : GrpState) (s : State) : State :=
  { s with sap := { s.sap with grp := sset GrpState.reset g v s.sap.grp } }
def portGet (p : Nat) (s : State) : PortState := sget PortState.reset p s.sap.port
def portSet (p : Nat) (v : PortState) (s : State) : State :=
  { s with sap := { s.sap with port := sset PortState.reset p v s.sap.port } }

/-- MEDIA cycles per sample period, C of R431. -/
def State.C (s : State) : Nat := if s.dbl then 512 else 1024

/-- The ports of a clock group (R420). -/
def portsOf (g : Nat) : List Nat := (List.range 8).map (fun k => 8 * g + k)

/-- Enabled slots of a port in increasing order: slot lane j is the j-th (R427). -/
def enabledSlots (c : PortCfg) : List Nat := (List.range 32).filter (fun k => bit k c.mask)

/-- A port of the group receives. -/
def hasRx (s : State) (g : Nat) : Bool := (portsOf g).any (fun p => decide ((portCfg s p).dir = 1))

/-- First frame bit of the word of slot `k` (R425). -/
def wordStart (c : PortCfg) (k : Nat) : Nat := c.offset + k * c.width + (if bit 0 c.flags then c.width - c.word else 0)

/-- The word of slot `k` in a frame whose bit p is bit p of `f`, most significant bit first (R423, R425). -/
def slotWord (c : PortCfg) (k f : Nat) : Nat :=
  (List.range c.word).foldl (fun a b => 2 * a + (if bit (wordStart c k + b) f then 1 else 0)) 0

/-! ### Holds -/

/-- The hold in effect at an index: 0 none, 1 words 0, 2 high impedance (R442). -/
def holdAt (l : List (Int × Nat)) (i : Int) : Nat :=
  match l.reverse.find? (fun h => decide (h.1 ≤ i)) with | some h => h.2 | none => 0

/-- A hold or release entered at its boundary; a later request of the same boundary wins (R35). The list is kept in
boundary order. -/
def addHold (b : Int) (k : Nat) (l : List (Int × Nat)) : List (Int × Nat) :=
  l.filter (fun h => decide (h.1 < b)) ++ [(b, k)] ++ l.filter (fun h => decide (b < h.1))

/-- The input hold in effect at an index of a receive port: a request registered and not yet due has its boundary on the
words that arrive from now on (R442, R646). -/
def inputHold (s : State) (p : Nat) (i : Int) : Nat :=
  holdAt (s.sched.dl1.foldl (fun l r =>
    match r.kind with
    | .hold q h _ => if q = p then addHold r.at_ (if h then 1 else 0) l else l
    | _ => l) (portGet p s).holds) i

/-! ### Receiving and sending words -/

/-- The current sub-block period. -/
def period (s : State) : Nat := 4 * s.grid.block + s.grid.sub

/-- The crossing has taken lane sample `i` (R189, R652): the direct section of period i / S + 2 reads it. -/
def crossingTook (s : State) (i : Nat) : Bool := s.grid.running && decide (i / s.S + 2 ≤ period s)

/-- Lane samples of frame `i` of receive port `p`, fades and stop states applied (R254 to R260, R427, R442). -/
def rxFrame (p i f : Nat) (s : State) : State :=
  let c := portCfg s p
  let fn := fnGet 1 p s
  let x := fun k => if inputHold s p i = 0 then pcmIn c.word (signExt c.word (slotWord c k f)) else 0
  let put := fun (g : Int → Int) (s : State) =>
    if crossingTook s i then s
    else (enabledSlots c).zipIdx.foldl (fun s ((k : Nat), (j : Nat)) =>
      { s with smp := { s.smp with lane := smpPut (c.laneBase + j) i [g (x k)] s.smp.lane } }) s
  let q := i - s.B * (fn.act - 1)
  let fresh := fun (s : State) (a : Nat) (v : Int) =>
    if a ≠ 0 && decide (s.B * (a - 1) ≤ i) && decide (i < s.B * a) then fadeIn s.lgB (i - s.B * (a - 1)) v else v
  match fn.st with
  | 0 => put (fresh s fn.since) s
  | 1 => put (fresh s fn.since) s
  | 2 => if i < s.B * (fn.act - 1) then put (fun v => v) s else if q < s.B then put (fadeOut s.lgB q) s else s
  | _ =>
    match startsAt 1 p s with
    | some b =>
      if s.B * (b - 1) ≤ i then
        (enabledSlots c).zipIdx.foldl (fun s ((k : Nat), (j : Nat)) =>
          { s with smp := { s.smp with wait := smpPut (c.laneBase + j) i [x k] s.smp.wait } }) s
      else idleDrop 1 s
    | none => idleDrop 1 s

/-- The words of transmit port `p` for output index `i`, in lane order (R427, R428, R442, R648). -/
def txWords (s : State) (p : Nat) (i : Int) : List Int :=
  let c := portCfg s p
  let st := portGet p s
  (List.range (enabledSlots c).length).map (fun j =>
    if holdAt st.holds i ≠ 0 then 0
    else match nth none s.img.txLanes (c.laneBase + j) with
      | none => 0
      | some b => pcmOut c.word (fadeAt s.B s.lgB st.fades i (egress s b i)))

/-- The clock group carries data: it leads on the acting unit, or it is aligned. -/
def grpLive (s : State) (g : Nat) : Bool :=
  match (grpCfg s g).mode with
  | 0 => false
  | 1 => s.twin.acts || (grpGet g s).aligned
  | _ => (grpGet g s).aligned

/-- Bits of a frame that carry the words of a transmit port's enabled slots (R423, R425). -/
def ballBits (c : PortCfg) (ws : List Nat) : Nat :=
  ((enabledSlots c).zip ws).foldl (fun (a : Nat) (e : Nat × Nat) =>
    (List.range c.word).foldl (fun a b => a + bitIf (bit (c.word - 1 - b) e.2) (wordStart c e.1 + b)) a) 0

/-- Bits of a frame at high impedance (R310, R425, R648): `i` is the output index. -/
def ballHiz (s : State) (p : Nat) (i : Int) : Nat :=
  let c := portCfg s p
  let all := 2 ^ (grpCfg s (p / 8)).frameBits - 1
  if !s.twin.acts || holdAt (portGet p s).holds i = 2 || (bit 1 c.flags && !grpLive s (p / 8)) then all
  else if bit 1 c.flags then all - ballBits c (List.replicate 32 (2 ^ c.word - 1))
  else 0

/-- A transmit port sends its words for output index `i`; every other bit is 0 or at high impedance (R425, R648). -/
def sendWords (p : Nat) (i : Int) (ws : List Nat) (s : State) : State :=
  portSet p { portGet p s with words := ws, ball := ballBits (portCfg s p) ws, hiz := ballHiz s p i } s

/-- One frame with index `i` on every port of group `g`; `fs` gives each port's frame bits. -/
def frameWords (g i : Nat) (fs : List Nat) (s : State) : State :=
  (portsOf g).zipIdx.foldl (fun s ((p : Nat), (k : Nat)) =>
    match (portCfg s p).dir with
    | 1 => rxFrame p i (nth 0 fs k) s
    | 2 => sendWords p i ((txWords s p i).map (pattern (portCfg s p).word)) s
    | _ => s) s

/-- Every transmit port of the group sends zeros: no index is taken (R434, R439). -/
def zeroWords (g : Nat) (s : State) : State :=
  (portsOf g).foldl (fun s p =>
    if (portCfg s p).dir = 2 then
      sendWords p (grpGet g s).idx ((enabledSlots (portCfg s p)).map (fun _ => 0)) s
    else s) s

/-! ### Status -/

/-- SYS.DET_STATUS.SAP_SUBST set and the lapse recorded. -/
def setSapSubst (s : State) : State := lapse { s with grid := { s.grid with sapSubst := true } }

/-- Alignment groups that the group's enabled ports belong to. -/
def agroupsOf (s : State) (g : Nat) : List Nat :=
  (portsOf g).filterMap (fun p => if (portCfg s p).dir = 0 then none else (portCfg s p).agroup)

/-- Bits of SAP.AG_EVENT set for a group. -/
def agNote (g : Nat) (s : State) : State :=
  { s with sap := { s.sap with
    agEvent := (agroupsOf s g).foldl (fun v a => if bit a v then v else v + 2 ^ a) s.sap.agEvent } }

/-- A slip of group `g` (R435). -/
def slipNote (g : Nat) (s : State) : State :=
  let v := grpGet g s
  let s := agNote g (setSapSubst (grpSet g { v with slip := true, slipBlock := s.grid.block + 1 } s))
  if v.slipBlock = s.grid.block + 1 then s else raise 0x62 g s

/-- Lane samples of the group's receive ports from index `z` on are 0 (R439). -/
def zeroLanes (g z : Nat) (s : State) : State :=
  let lanes := (portsOf g).flatMap (fun p =>
    let c := portCfg s p
    if c.dir = 1 then (List.range (enabledSlots c).length).map (fun j => c.laneBase + j) else [])
  let keep := fun (e : Nat × Int) => !(lanes.contains (e.1 / 2 ^ 64) && decide (z ≤ e.1 % 2 ^ 64))
  { s with smp := { s.smp with lane := s.smp.lane.filter keep, wait := s.smp.wait.filter keep } }

/-- A clock fault of group `g`, with zeros from index `z` (R438, R439, R441); `tick` says that a block tick finds it. -/
def grpFaultAt (tick : Bool) (g z : Nat) (s : State) : State :=
  let v := grpGet g s
  if v.aligned then
    let s := zeroWords g (zeroLanes g z (grpSet g { v with aligned := false, clockLoss := true, stable := 0 } s))
    let s := if hasRx s g then lapseAt tick { s with grid := { s.grid with sapSubst := true } } else s
    raiseAt tick 0x64 g (agNote g (count 0x100D0030 g 1 s))
  else grpSet g { v with stable := 0 } s

/-- A clock fault found inside a block. -/
def grpFault (g z : Nat) (s : State) : State := grpFaultAt false g z s

/-! ### Frames -/

/-- The interval that a frame start at `t` closes: a start that comes 2.5 C or later after the one before it finds two frames
absent (R438, R440). -/
def closeInterval (g : Nat) (t : Int) (bclks : Nat) (s : State) : State :=
  let v := grpGet g s
  match v.last with
  | none => s
  | some t0 =>
    let whole := bclks = (grpCfg s g).frameBits
    let c : Int := s.C
    if v.aligned then
      if 5 * c ≤ 2 * (t - t0) then grpFault g v.next s
      else if whole then s
      else grpFault g (v.lastIdx.getD v.next) s
    else
      let ok := decide whole && decide (c - c / 256 ≤ t - t0) && decide (t - t0 ≤ c + c / 256)
      grpSet g { v with stable := if ok then min (v.stable + 1) 8 else 0 } s

/-- The own decision of R434 for a frame at `t`: samples inserted, and whether the frame is dropped. -/
def slipOwn (s : State) (v : GrpState) (t : Int) : Nat × Bool :=
  let phi := t - (s.C : Int) * v.next
  let lim : Int := s.S * s.C
  let n := if lim ≤ phi then ((phi - lim) / s.C).toNat + 1 else 0
  (n, decide (phi - (s.C : Int) * n < 0))

/-- The decision relayed by the holder for the frame (R444): insertions from `next` on, and a drop. -/
def slipRelayed (s : State) (g next : Nat) : Nat × Bool :=
  let has := fun fl i => s.twin.serial.any (fun e => decide (e = (7, fl, g, i, 0)))
  let n := ((List.range 4096).takeWhile (fun k => has 1 (next + k))).length
  (n, has 0 (next + n - 1))

/-- The unit takes its slips and alignments from the holder (R444). -/
def takesRelays (s : State) : Bool :=
  s.img.twin.pair && !s.twin.acts && decide (s.twin.peer ≠ 7) && !s.twin.divergent

/-- The decision that applies, and whether it is the own one for want of a relay (R444). -/
def slipDecision (s : State) (g : Nat) (v : GrpState) (t : Int) : (Nat × Bool) × Bool :=
  let own := slipOwn s v t
  if takesRelays s then
    let r := slipRelayed s g v.next
    if r = (0, false) then (own, decide (own ≠ (0, false))) else (r, false)
  else (own, false)

/-- Relays of the slips that the acting unit decides (R444). -/
def relaySlips (g next n : Nat) (drop : Bool) (s : State) : State :=
  let s := (List.range n).foldl (fun s k => relayReq 7 1 g (next + k) 0 s) s
  if drop then relayReq 7 0 g (next + n - 1) 0 s else s

/-- A frame of an aligned follower group (R434, R435). -/
def alignedFrame (g : Nat) (t : Int) (fs : List Nat) (s : State) : State :=
  let v := grpGet g s
  let ((n, drop), missed) := slipDecision s g v t
  let i := v.next + n
  let s := if missed then lapse s else s
  let s := if n = 0 then s else count 0x100D0028 g n (slipNote g s)
  let s := if drop then count 0x100D002C g 1 (slipNote g s) else s
  let s := if s.twin.acts then relaySlips g v.next n drop s else s
  let s := { s with twin := { s.twin with serial := s.twin.serial.filter (fun e =>
    !(decide (e.1 = 7) && decide (e.2.2.1 = g) && decide (e.2.2.2.1 ≤ i))) } }
  let v := grpGet g s
  if drop then zeroWords g (grpSet g { v with next := i, lastIdx := none } s)
  else
    frameWords g i fs (grpSet g { v with
      next := i + 1, idx := i, phase := t - (s.C : Int) * i, lastIdx := some i
      hist := lastN 4 (v.hist ++ [(t, i)]) } s)

/-- The levels of FSYNC in a frame that a leader drives: active for bit 0 only, or for the first half of the frame (R424). -/
def syncBits (c : GrpCfg) : Nat :=
  let active := if bit 0 c.flags then 2 ^ (c.frameBits / 2) - 1 else 1
  if bit 1 c.flags then 2 ^ c.frameBits - 1 - active else active

/-- A frame of a leader group on the unit that acts (R424, R432). -/
def leaderFrame (g : Nat) (t : Int) (fs : List Nat) (s : State) : State :=
  let i := (t / s.C).toNat
  let v := grpGet g s
  frameWords g i fs (grpSet g { v with
    aligned := true, ever := true, next := i + 1, idx := i, phase := 0, last := some t, lastIdx := some i
    fsync := syncBits (grpCfg s g) } s)

/-- A frame of a leader group on a unit that does not act (R443): the index with φ in [−C/2, C/2). -/
def sharedFrame (g : Nat) (t : Int) (fs : List Nat) (s : State) : State :=
  let v := grpGet g s
  let c : Int := s.C
  let i := ((t + c / 2) / c).toNat
  if v.aligned || !v.ever then
    if v.aligned && decide (i ≠ v.next) then grpFault g v.next s
    else frameWords g i fs (grpSet g { v with
      aligned := true, ever := true, next := i + 1, idx := i, phase := t - c * i, lastIdx := some i } s)
  else zeroWords g s

/-- A serial frame starts at stamp `t`; the interval it closes held `bclks` BCLK periods; `fs` gives the eight ports' frame
bits (R430 to R444). -/
def serialFrame (g : Nat) (t : Int) (bclks : Nat) (fs : List Nat) (s : State) : State :=
  match (grpCfg s g).mode with
  | 0 => s
  | 1 =>
    if s.twin.acts then (if s.grid.running then leaderFrame g t fs s else s)
    else
      let s := closeInterval g t bclks s
      sharedFrame g t fs (grpSet g { grpGet g s with last := some t } s)
  | _ =>
    let s := closeInterval g t bclks s
    let v := grpGet g s
    let s := grpSet g { v with
      last := some t, before := v.last, winF := if v.won then v.winF + 1 else 0, winLast := if v.won then some t else none } s
    if v.aligned && s.grid.running then alignedFrame g t fs s else zeroWords g (grpSet g { grpGet g s with lastIdx := none } s)

/-- No frame starts within 2.5 C after the previous one (R438). -/
def frameAbsent (g : Nat) (s : State) : State :=
  if (grpCfg s g).mode = 0 || ((grpCfg s g).mode = 1 && s.twin.acts) then s else grpFault g (grpGet g s).next s

/-! ### Alignment -/

/-- Other clock groups that serve a member of one of the group's alignment groups. -/
def refGroups (s : State) (g : Nat) : List Nat :=
  (List.range 24).filter (fun h => decide (h ≠ g) && (agroupsOf s h).any (fun a => (agroupsOf s g).contains a))

/-- Index that group `h` gives a frame starting at `t`, when it qualifies (R433). -/
def refIndex (s : State) (h : Nat) (t : Int) : Option Int :=
  let c : Int := s.C
  match (grpCfg s h).mode with
  | 0 => none
  | 1 => if s.grid.running then some ((t - c / 2 + c - 1) / c) else none
  | _ =>
    if (grpGet h s).aligned then
      ((grpGet h s).hist.reverse.find? (fun e => decide (t - c / 2 ≤ e.1) && decide (e.1 < t + c / 2))).map
        (fun e => (e.2 : Int))
    else none

/-- The own alignment of R433 for a first frame at `t`: index, and whether every qualifying group failed. -/
def alignOwn (s : State) (g : Nat) (t : Int) : Int × Bool :=
  let c : Int := s.C
  let refs := (refGroups s g).filterMap (fun h => refIndex s h t)
  match refs.find? (fun i => decide (0 ≤ t - i * c) && decide (t - i * c < s.S * c)) with
  | some i => (i, false)
  | none => ((t - ((s.S : Int) - 1) * c / 2) / c, !refs.isEmpty)

/-- A group with a stable clock aligns at a block tick; its first frame starts at `t` (R433, R441, R443, R650). -/
def sapAlign (g : Nat) (t : Int) (s : State) : State :=
  let v := grpGet g s
  if (grpCfg s g).mode = 0 || v.aligned || !s.grid.running || decide (v.stable < 8) then s
  else if (grpCfg s g).mode = 1 then
    let s := grpSet g { v with
      aligned := true, ever := true, stable := 0, next := ((t + s.C / 2) / s.C).toNat
      resync := v.resync || v.ever } s
    if v.ever then raiseTick 0x65 g s else s
  else
    let own := alignOwn s g t
    let relay := s.twin.serial.find? (fun e => decide (e.1 = 6) && decide (e.2.2.1 = g))
    let (i, refLost, missed) : Int × Bool × Bool :=
      if takesRelays s then
        match relay with
        | some e => ((e.2.2.2.2 : Int), false, false)
        | none => (own.1, own.2, true)
      else (own.1, own.2, false)
    let s := { s with twin := { s.twin with
      serial := s.twin.serial.filter (fun e => !(decide (e.1 = 6) && decide (e.2.2.1 = g))) } }
    let s := if refLost then raiseTick 0x61 g s else s
    let s := if missed then lapseTick s else s
    let s := if s.twin.acts then relayReq 6 0 g s.grid.block i.toNat s else s
    let s := grpSet g { v with
      aligned := true, ever := true, stable := 0, next := i.toNat, resync := v.resync || v.ever } s
    if v.ever then raiseTick 0x65 g s else s

/-! ### Rate windows -/

/-- The window of R436 that a boundary at `t` ends, and the part that belongs to the next one: a start exactly at the boundary
counts there. -/
def splitWindow (t : Int) (v : GrpState) : (Nat × Option Int) × (Nat × Option Int) :=
  if v.winLast.any (fun a => decide (t ≤ a)) then ((v.winF - 1, if v.winF ≤ 1 then none else v.before), (1, v.winLast))
  else ((v.winF, v.winLast), (0, none))

/-- A window of 16 blocks ends at the tick of the current block (R436 to R438). -/
def rateWindow (g : Nat) (s : State) : State :=
  let v := grpGet g s
  match (grpCfg s g).mode with
  | 0 => s
  | 1 => grpSet g { v with frames := 16 * s.B, drift := 0 } s
  | _ =>
    let t : Int := (s.B * s.grid.block * s.C : Nat)
    let ((f, mine), later) := splitWindow t v
    let open_ := { v with winF := later.1, winLast := later.2, won := true }
    if !v.won then
      let seen := fun (x : Option Int) => x.bind (fun x => if t - 16 * s.B * s.C ≤ x ∧ x < t then some x else none)
      grpSet g { open_ with
        winF := if v.last.any (fun x => decide (t ≤ x)) then 1 else 0
        winLast := v.last.bind (fun x => if t ≤ x then some x else none)
        winPrev := (seen v.last).or (seen v.before) } s
    else match mine, v.winPrev with
      | some a, some b =>
        let d := a - b - (s.C : Int) * f
        let high := decide ((grpCfg s g).rateTol * 524288 < d.natAbs * 1000000)
        let s := grpSet g { open_ with
          winPrev := some a, frames := f, drift := d, rateHigh := high
          rateChange := v.rateChange || decide (high ≠ v.rateHigh) } s
        let s := if high ≠ v.rateHigh then raiseTick 0x63 g s else s
        if 524 < d.natAbs then grpFaultAt true g v.next s else s
      | _, _ => grpSet g { open_ with winPrev := mine, frames := f, drift := 0 } s

/-- Each block with a zeroed lane of an unaligned group lapses (R439, R650). -/
def serialTick (s : State) : State :=
  if (List.range 24).any (fun g => decide ((grpCfg s g).mode ≠ 0) && !grpLive s g && hasRx s g) then
    lapseTick { s with grid := { s.grid with sapSubst := true } } else s

/-- The unit begins to act: it drives its leader clocks at once (R443). -/
def leadersTakeover (s : State) : State :=
  (List.range 24).foldl (fun s g =>
    if (grpCfg s g).mode = 1 then
      grpSet g { grpGet g s with aligned := true, ever := true, next := s.B * s.grid.block } s
    else s) s

/-! ### Registers -/

/-- SAP.G_STATUS.STATE: STABILISING until the first alignment (R650), and while a group that has lost its clock counts stable
intervals (log entry 33). -/
def grpState (s : State) (g : Nat) : Nat :=
  let v := grpGet g s
  match (grpCfg s g).mode with
  | 0 => 0
  | 1 => if s.twin.acts then 1 else if v.ever && !v.aligned then 3 else 5
  | _ => if v.aligned then 2 else if v.ever && decide (v.stable = 0) then 3 else 4

/-- The transmit data ball is driven (R310, R648). -/
def portDrives (s : State) (p : Nat) : Bool :=
  let c := portCfg s p
  decide (c.dir = 2) && s.twin.acts && s.grid.running
    && decide (holdAt (portGet p s).holds (grpGet (p / 8) s).idx ≠ 2) && (!bit 1 c.flags || grpLive s (p / 8))

/-- A hold request of the port waits for its boundary. -/
def holdPending (s : State) (p : Nat) : Bool :=
  (s.sched.dl1).any (fun r => match r.kind with | .hold q _ _ => decide (q = p) | _ => false)

/-- Bit a: alignment group a has members, and each is served by a leader, driven or shared, or an aligned group. -/
def agStatus (s : State) : Nat :=
  (List.range 32).foldl (fun (v : Nat) a =>
    let gs := (List.range 24).filter (fun g => (agroupsOf s g).contains a)
    v + bitIf (!gs.isEmpty && gs.all (fun g => [1, 2, 5].contains (grpState s g))) a) 0

/-- The RO registers of the SAP block for the selected group and port. -/
def sapReg (off g p : Nat) (s : State) : Nat :=
  let gc := grpCfg s g
  let v := grpGet g s
  let pc := portCfg s p
  match off with
  | 0x00 => if s.sap.valid then
      (s.img.ports.filter (fun c => c.dir = 1)).length + (s.img.ports.filter (fun c => c.dir = 2)).length * 256 + 2 ^ 31
      else 0
  | 0x04 => s.sap.recordErr
  | 0x0C => gc.mode + (gc.flags % 8) * 4 + gc.frameBits * 32 + gc.rateTol * 65536
  | 0x10 => grpState s g + bitIf v.rateHigh 3 + v.stable * 16 + bitIf v.clockLoss 8 + bitIf v.slip 9
      + bitIf v.rateChange 10 + bitIf v.resync 11
  | 0x14 => v.idx % 2 ^ 32
  | 0x18 => v.idx / 2 ^ 32
  | 0x1C => pattern 32 v.phase
  | 0x20 => pattern 32 v.drift
  | 0x24 => v.frames % 4096
  | 0x44 => if pc.dir = 0 then 0 else
      pc.dir + (pc.flags % 4) * 4 + pc.slots * 16 + pc.width * 2 ^ 10 + pc.offset * 2 ^ 16 + pc.word * 2 ^ 21
  | 0x48 => if pc.dir = 0 then 0 else pc.mask
  | 0x4C => if pc.dir = 0 then 0 else pc.laneBase + (pc.agroup.getD 0) * 2 ^ 16 + bitIf pc.agroup.isSome 21
  | 0x5C => bitIf (decide (holdAt (portGet p s).holds (grpGet (p / 8) s).idx ≠ 0)) 0 + bitIf (holdPending s p) 1
      + bitIf (decide (2 ≤ (fnGet 1 p s).st) && decide ((fnGet 1 p s).st ≤ 5)) 2 + bitIf (portDrives s p) 3
  | 0x60 => agStatus s
  | 0x64 => s.sap.agEvent
  | _ => 0

/-- Writes of 1 to the W1C bits of SAP.G_STATUS and SAP.AG_EVENT. -/
def sapW1c (off g v : Nat) (s : State) : State :=
  if off = 0x10 then
    let x := grpGet g s
    grpSet g { x with
      clockLoss := x.clockLoss && !bit 8 v, slip := x.slip && !bit 9 v, rateChange := x.rateChange && !bit 10 v
      resync := x.resync && !bit 11 v } s
  else if off = 0x64 then
    { s with sap := { s.sap with agEvent := (List.range 32).foldl (fun (a : Nat) k =>
      a + bitIf (bit k s.sap.agEvent && !bit k v) k) 0 } }
  else s

end Sys2Proof.Machine
end

