-- ==== Sys2Proof/Machine/Net.lean ====
section
/-!
DEFINITION. The network (chapter 10): frames, classification, the packet pool, receive timing, the ST 2022-7 merge, OPS
packets and transmit packets.
-/
namespace Sys2Proof.Machine

/-! ### State access -/

/-- Configuration and state of ports and streams. -/
def netCfg (s : State) (p : Nat) : NetPortCfg := nth ⟨0, false, 0, 0, 0, 0, 0, 0, 0, 0⟩ s.img.netPorts p
def pnGet (p : Nat) (s : State) : PortNet := sget PortNet.reset p s.net.port
def pnSet (p : Nat) (v : PortNet) (s : State) : State :=
  { s with net := { s.net with port := sset PortNet.reset p v s.net.port } }
def rxGet (k : Nat) (s : State) : RxState := sget RxState.reset k s.net.rx
def rxSet (k : Nat) (v : RxState) (s : State) : State :=
  { s with net := { s.net with rx := sset RxState.reset k v s.net.rx } }
def txGet (k : Nat) (s : State) : TxState := sget TxState.reset k s.net.tx
def txSet (k : Nat) (v : TxState) (s : State) : State :=
  { s with net := { s.net with tx := sset TxState.reset k v s.net.tx } }

/-- An event raised at most once per block for each stream (R373). -/
def raiseStream (code k : Nat) (s : State) : State :=
  if s.net.once.contains (code * 65536 + k) then s
  else raise code k { s with net := { s.net with once := (code * 65536 + k) :: s.net.once } }

/-! ### The media clock's block -/

/-- Bit 31 of the CNT part of a 64-bit CNT:FRAC value (R392). -/
def halfOf (c : Nat) : Nat := c / 2 ^ 63 % 2

/-- Extended time of a counter value in 2^-32 ns: the entry is selected by bit 31 of that value (R390, R392). -/
def extended (s : State) (c : Nat) : Nat :=
  (if halfOf c = 0 then s.time.epoch0 else s.time.epoch1) * 2 ^ 64 + c % 2 ^ 64

/-- Extended time in whole nanoseconds. -/
def timeNs (s : State) : Nat := extended s s.time.cnt / 2 ^ 32

/-- The current block: the grid's, and before the first tick the block of the media sample index at the extended time (R20,
R23, R390). -/
def blockNow (s : State) : Nat := if s.grid.running then s.grid.block else timeNs s * s.fs / 10 ^ 9 / s.B

/-! ### Queues and cells -/

/-- READ: the packet at the read position; the position moves past it (R360). -/
def Queue.read {α : Type} (q : Queue α) : Option α × Queue α :=
  (q.items[q.pos]?, { q with pos := min (q.pos + 1) q.items.length })

/-- MARK and REWIND (R360). -/
def Queue.setMark {α : Type} (q : Queue α) : Queue α := { q with mark := some q.pos }
def Queue.rewind {α : Type} (q : Queue α) : Queue α := { q with pos := q.mark.getD q.pos }

/-- RELEASE: the packets before the read position leave; a mark that pointed into one is cleared (R360). -/
def Queue.release {α : Type} (q : Queue α) : Queue α :=
  ⟨q.items.drop q.pos, 0, q.mark.bind (fun m => if m < q.pos then none else some (m - q.pos))⟩

/-- A packet joins its queue as its length word is written (R359). -/
def Queue.push {α : Type} (x : α) (q : Queue α) : Queue α := { q with items := q.items ++ [x] }

/-- `n` packets are read. -/
def Queue.readN {α : Type} : Nat → Queue α → Queue α
  | 0, q => q
  | n + 1, q => Queue.readN n q.read.2

/-- The consumer has marked its queue, read it to its end and rewound to the first packet that it has not finished with: it
releases those before (R360). -/
def Queue.settle {α : Type} (done : α → Bool) (q : Queue α) : Queue α :=
  (((q.setMark.readN q.items.length).rewind).readN (q.items.takeWhile done).length).release

/-- The queue of a leg. -/
def RxState.leg (legB : Bool) (r : RxState) : Queue Packet := if legB then r.qB else r.qA
def RxState.setLeg (legB : Bool) (q : Queue Packet) (r : RxState) : RxState :=
  if legB then { r with qB := q } else { r with qA := q }

/-- Packets of a leg that the merge still waits for or uses. -/
def RxState.waiting (legB : Bool) (r : RxState) : List Packet := (r.leg legB).items.filter Packet.live

/-- Packets that meet a test are finished with; those at the head of the queues are released (R360). -/
def RxState.finish (done : Packet → Bool) (r : RxState) : RxState :=
  let one := fun (q : Queue Packet) =>
    Queue.settle (fun (p : Packet) => !p.live) { q with items := q.items.map (fun p => { p with live := p.live && !done p }) }
  { r with qA := one r.qA, qB := one r.qB }

/-- Cells that a stored frame of `n` bytes takes with its length word (R357). -/
def cellsOf (n : Nat) : Nat := (n + 4 + 255) / 256

/-- Cells held by stored frames. -/
def cellsIn (l : List Stored) : List Nat := l.flatMap Stored.chain

/-- Cells held by one leg's queue. -/
def legCells (b : Bool) (r : RxState) : Nat := (cellsIn ((r.leg b).items.map Packet.store)).length

/-- Cells in use. -/
def cellsUsed (s : State) : List Nat :=
  s.net.rx.flatMap (fun e => cellsIn ((e.2.qA.items ++ e.2.qB.items).map Packet.store))
    ++ s.net.port.flatMap (fun e => cellsIn (e.2.ptpQ.items ++ e.2.svOut.items))

/-- Free cells of the pool. -/
def poolFree (s : State) : Nat := 65536 - (cellsUsed s).length

/-- `n` cells of the free list, the lowest numbers first: DESIGN CHOICE, the spec gives no order of the free list (assumption
107). -/
def allot (n : Nat) (s : State) : List Nat :=
  let used := cellsUsed s
  ((List.range (used.length + n)).filter (fun c => !used.contains c)).take n

/-- A frame takes cells that its consumer frees at once: the smallest number of free cells is noted. -/
def noteCells (n : Nat) (s : State) : State :=
  { s with net := { s.net with poolMin := min s.net.poolMin (poolFree s - n) } }

/-- A queue that holds `held` cells of its quota admits a frame of the port (R361). -/
def admits (s : State) (port quota held : Nat) : Bool := decide (held + ((netCfg s port).maxFrame + 255) / 256 ≤ quota)

/-- A frame that is not admitted is dropped whole (R361). -/
def quotaDrop (port : Nat) (s : State) : State := raise 0x52 port (count 0x100B002C port 1 s)

/-- The length word (R358). -/
def lengthWord (len : Nat) (error trunc : Bool) (port block : Nat) : Nat :=
  len % 2 ^ 14 + bitIf error 14 + bitIf trunc 15 + port % 8 * 2 ^ 16 + block % 2 ^ 13 * 2 ^ 19

/-- A frame as it is stored in cells of the pool now (R357, R358). -/
def storeFrame (port : Nat) (error trunc poison : Bool) (stamp : Nat) (f : List Nat) (s : State) : Stored :=
  ⟨lengthWord f.length error trunc port (blockNow s), f, allot (cellsOf f.length) s, poison, stamp⟩

/-- ERROR and TRUNCATED of a stored frame. -/
def Stored.error (p : Stored) : Bool := bit 14 p.word
def Stored.trunc (p : Stored) : Bool := bit 15 p.word

/-- The supervisor queues a frame to leave on a port; transmit packets carry PORT 0b111 (R358). -/
def svSend (p : Nat) (f : List Nat) (s : State) : State :=
  let n := pnGet p s
  noteCells 0 (pnSet p { n with svOut := n.svOut.push (storeFrame 7 false false false 0 f s) } s)

/-- The oldest packet of a queue is read and released. -/
def Queue.next {α : Type} (q : Queue α) : Option α × Queue α := (q.read.1, q.read.2.release)

/-! ### Frame formats -/

/-- Ones'-complement sum of big-endian 16-bit words, an odd byte padded with 0. -/
def sum16 : List Nat → Nat → Nat
  | [], a => a
  | [x], a => let v := a + x * 256; v % 65536 + v / 65536
  | x :: y :: t, a => let v := a + x * 256 + y; sum16 t (v % 65536 + v / 65536)

/-- The Internet checksum over a list. -/
def inetSum (l : List Nat) : Nat := sum16 l 0 ^^^ 0xFFFF

/-- EtherType, VLAN tag where there is one, and offset of what follows. -/
def etherOf (f : List Nat) : Nat × Option Nat × Nat :=
  if be (slice 12 2 f) = 0x8100 then (be (slice 16 2 f), some (be (slice 14 2 f)), 18) else (be (slice 12 2 f), none, 14)

/-- An IPv4 datagram that carries UDP: addresses, ports, offset of the UDP header, UDP length. -/
structure Udp where
  src : Nat
  dst : Nat
  sport : Nat
  dport : Nat
  off : Nat
  len : Nat
deriving DecidableEq, Repr

/-- Offset of the IPv4 header, where the frame carries IPv4. -/
def ipOff (f : List Nat) : Option Nat :=
  let (ty, _, o) := etherOf f
  if ty = 0x0800 && decide (nth 0 f o / 16 = 4) then some o else none

/-- The UDP view of a frame. -/
def udpOf (f : List Nat) : Option Udp :=
  match ipOff f with
  | none => none
  | some o =>
    if nth 0 f (o + 9) = 17 then
      let h := o + 4 * (nth 0 f o % 16)
      some ⟨be (slice (o + 12) 4 f), be (slice (o + 16) 4 f), be (slice h 2 f), be (slice (h + 2) 2 f), h,
        be (slice (h + 4) 2 f)⟩
    else none

/-- IPv4 header and UDP checksums of a frame are right where they are present (R352). -/
def sumsOk (f : List Nat) : Bool :=
  match ipOff f with
  | none => true
  | some o =>
    let hl := 4 * (nth 0 f o % 16)
    decide (inetSum (slice o hl f) = 0) &&
      (match udpOf f with
       | none => true
       | some u =>
         let ck := be (slice (u.off + 6) 2 f)
         decide (ck = 0) || decide (inetSum (slice (o + 12) 8 f ++ [0, 17] ++ beBytes 2 u.len ++ slice u.off u.len f) = 0))

/-- The UDP payload of a stored frame, as far as it is stored. -/
def udpBody (f : List Nat) : List Nat := match udpOf f with | some u => slice (u.off + 8) (u.len - 8) f | none => []

/-- The RTP payload after any extension is skipped and padding removed (R64, R374). -/
def rtpPayload (p : List Nat) : List Nat :=
  let b0 := nth 0 p 0
  let h := 12 + 4 * (b0 % 16)
  let h := if bit 4 b0 then h + 4 + 4 * be (slice (h + 2) 2 p) else h
  let body := p.drop h
  if bit 5 b0 then body.take (body.length - (body.getLast?.getD 0)) else body

/-- The RTP payload of a stored packet. -/
def Packet.payload (p : Packet) : List Nat := rtpPayload (udpBody p.store.frame)

/-- Bytes per sample of a stream type. -/
def sampleBytes (type : Nat) : Nat := match type with | 1 => 2 | 2 => 3 | _ => 4

/-! ### Receive timing -/

/-- The media sample index, an unsigned value, congruent to `u` modulo 2^32 and nearest to `ref`, a tie to the larger value
(R370). -/
def extendTs (u : Nat) (ref : Int) : Int :=
  let d := ((u : Int) - ref) % 2 ^ 32
  if d ≤ 2 ^ 31 ∨ ref + d < 2 ^ 32 then ref + d else ref + d - 2 ^ 32

/-- Δ of R371. -/
def rxDelta (s : State) (c : RxCfg) : Int := c.ptime + c.depth * s.B

/-- Due block of a packet (R372). -/
def dueBlock (s : State) (c : RxCfg) (t : Int) : Int := (t + rxDelta s c) / s.B + 1

/-- Release block of an OPS packet (R69). -/
def releaseBlock (s : State) (c : RxCfg) (t : Int) : Int := t / s.B + c.depth

/-- The sequence gap rule (R379). -/
def seqNote (k : Nat) (legB : Bool) (seq : Nat) (s : State) : State :=
  let r := rxGet k s
  let last := if legB then r.seqB else r.seqA
  let gap := match last with
    | none => false
    | some l => decide (seq ≠ l) && decide (seq ≠ (l + 1) % 65536)
  let s := rxSet k (if legB then { r with seqB := some seq } else { r with seqA := some seq }) s
  if gap then count 0x100B00B4 k 1 s else s

/-- OPS checks of an RTP payload (R64, R66, R67): none where the packet is rejected whole, and whether it is clipped. -/
def opsCheck (rtpOk : Bool) (p : List Nat) : Option Bool :=
  if !rtpOk || decide (p.length < 4) || decide (nth 0 p 0 ≠ 0x10) || decide (be (slice 2 2 p) ≠ 40) then none
  else some (decide ((p.length - 4) / 40 < nth 0 p 1))

/-- The records of an accepted OPS payload (R67). -/
def opsRecords (p : List Nat) : List (List Nat) :=
  (List.range (min (nth 0 p 1) ((p.length - 4) / 40))).map (fun j => slice (4 + 40 * j) 40 p)

/-- A packet joins a leg's queue. -/
def rxPush (k : Nat) (legB : Bool) (p : Packet) (s : State) : State :=
  let r := rxGet k s
  noteCells 0 (rxSet k (r.setLeg legB ((r.leg legB).push p)) s)

/-- A packet of a receive stream has been stored whole (R369 to R374, R379): `off` is the sample offset of its completion within
the block. A packet that is not intact, late or early stays in its queue, finished with, until its release (R360). -/
def streamPacket (k : Nat) (legB : Bool) (st : Stored) (off : Nat) (s : State) : State :=
  match s.img.rx[k]? with
  | none => s
  | some c =>
    let rtp := udpBody st.frame
    let b0 := nth 0 rtp 0
    let rtpOk := decide (b0 / 64 = 2) && decide (b0 % 16 = 0) && decide (nth 0 rtp 1 % 128 = c.pt)
      && decide (12 ≤ rtp.length)
    let seq := be (slice 2 2 rtp)
    let ssrcOk := !c.ssrcCheck || decide (be (slice 8 4 rtp) = c.ssrc)
    let p := rtpPayload rtp
    let ops := decide (c.type = 4)
    let now := blockNow s
    let t := extendTs ((be (slice 4 4 rtp) + 2 ^ 32 - c.tsOffset) % 2 ^ 32) ((s.B * now : Nat) : Int)
    let intact := !st.error && !st.poison && ssrcOk
      && (ops || (!st.trunc && rtpOk && decide (p.length = c.ptime * c.channels * sampleBytes c.type)))
    let keep := fun (live : Bool) (s : State) => rxPush k legB ⟨st, live, t, seq, now⟩ s
    if !intact then
      let r := rxGet k s
      count 0x100B009C k 1 (keep false (if st.poison then rxSet k { r with poison := t :: r.poison } s else s))
    else
      let s := seqNote k legB seq s
      let r := rxGet k s
      if ops then
        match opsCheck rtpOk p with
        | none => raise 0x10 k (count 0x100500D8 0 1 (keep false s))
        | some clip =>
          let s := if clip then raise 0x11 k (count 0x100500D4 0 1 s) else s
          if r.done.contains (t, seq) then keep false s
          else if now < r.minBlock && decide (releaseBlock s c t < r.minBlock) then idleDrop 1 (keep false s)
          else keep true s
      else
        let d := dueBlock s c t
        if now < r.minBlock && decide (d < r.minBlock) then idleDrop 1 (keep false s)
        else if d ≤ now then raiseStream 0x53 k (count (if legB then 0x100B0094 else 0x100B0090) k 1 (keep false s))
        else if (now : Int) + c.depth + 2 < d then raiseStream 0x54 k (count 0x100B0098 k 1 (keep false s))
        else
          let left := (d * s.B - (s.B * now : Nat) - off).toNat
          keep true (rxSet k { r with margin := min r.margin (min left 65535) } s)

/-! ### Classification -/

/-- Bits of NET.RX_CTRL in effect. -/
def legOn (s : State) (k : Nat) (legB : Bool) : Bool := bit (if legB then 1 else 0) (rget 0x100B0084 k s)

/-- The leg takes frames of this port with these addresses (R363). -/
def legMatches (l : LegCfg) (port : Nat) (tag : Option Nat) (u : Udp) : Bool :=
  l.on && decide (l.port = port) && decide (l.dst = u.dst) && decide (l.udpPort = u.dport)
    && decide (l.src = 0 ∨ l.src = u.src)
    && (match tag with
        | none => decide (l.vlan = 0xFFFF)
        | some v => decide (l.vlan ≠ 0xFFFF) && decide (l.vlan % 4096 = v % 4096))

/-- The receive stream and leg of a frame. -/
def findLeg (s : State) (port : Nat) (tag : Option Nat) (u : Udp) : Option (Nat × Bool) :=
  (s.img.rx.zipIdx).findSome? (fun ((c : RxCfg), (k : Nat)) =>
    if legMatches c.legA port tag u && legOn s k false then some (k, false)
    else if legMatches c.legB port tag u && legOn s k true then some (k, true)
    else none)

/-- The port's own IPv4 address (R355). -/
def portAddr (s : State) (p : Nat) : Nat :=
  if p = 4 && !s.twin.home then (netCfg s p).addr2 else (netCfg s p).addr

/-- An ARP reply of the port to a request for its address; none for any other frame. -/
def arpReply (s : State) (p : Nat) (f : List Nat) : Option (List Nat) :=
  let (ty, _, o) := etherOf f
  let mac := beBytes 6 (if p = 4 then Config.macAddress % 2 ^ 48 else (netCfg s p).mac)
  if ty = 0x0806 && decide (be (slice (o + 6) 2 f) = 1) && decide (be (slice (o + 24) 4 f) = portAddr s p) then
    some (slice 6 6 f ++ mac ++ slice 12 (o - 12) f ++ slice o 6 f ++ [0, 2] ++ mac ++ beBytes 4 (portAddr s p)
      ++ slice (o + 8) 10 f)
  else none

/-- The groups and sources of the enabled legs on a port, for its IGMPv3 report. -/
def portGroups (s : State) (p : Nat) : List (Nat × Nat) :=
  ((s.img.rx.zipIdx).flatMap (fun ((c : RxCfg), (k : Nat)) =>
    (if c.legA.on && decide (c.legA.port = p) && legOn s k false then [(c.legA.dst, c.legA.src)] else [])
      ++ (if c.legB.on && decide (c.legB.port = p) && legOn s k true then [(c.legB.dst, c.legB.src)] else []))).filter
    (fun g => decide (0xE0000000 ≤ g.1) && decide (g.1 < 0xF0000000))

/-- An IGMPv3 membership report of the port (RFC 3376), to 224.0.0.22. -/
def igmpReport (s : State) (p : Nat) : List Nat :=
  let gs := portGroups s p
  let recs := gs.flatMap (fun g =>
    if g.2 = 0 then [2, 0, 0, 0] ++ beBytes 4 g.1 else [1, 0, 0, 1] ++ beBytes 4 g.1 ++ beBytes 4 g.2)
  let body := fun ck => [0x22, 0] ++ beBytes 2 ck ++ [0, 0] ++ beBytes 2 gs.length ++ recs
  let msg := body (inetSum (body 0))
  let ip := fun ck => [0x46, 0xC0] ++ beBytes 2 (24 + msg.length) ++ [0, 0, 0x40, 0, 1, 2] ++ beBytes 2 ck
    ++ beBytes 4 (portAddr s p) ++ [224, 0, 0, 22] ++ [0x94, 4, 0, 0]
  [0x01, 0x00, 0x5E, 0, 0, 0x16] ++ beBytes 6 (netCfg s p).mac ++ [0x08, 0x00] ++ ip (inetSum (ip 0)) ++ msg

/-- The supervisor reports a media port's groups where it has any and its link is up (R363). -/
def reportGroups (p : Nat) (s : State) : State :=
  if decide (p < 4) && (pnGet p s).link && !(portGroups s p).isEmpty then svSend p (igmpReport s p) s else s

/-- Reports of the media ports whose groups differ from those before. -/
def reportChanges (before s : State) : State :=
  (List.range 4).foldl (fun s p => if portGroups before p = portGroups s p then s else reportGroups p s) s

/-- The frame is an IGMP query. -/
def isIgmpQuery (f : List Nat) : Bool :=
  match ipOff f with
  | some o => decide (nth 0 f (o + 9) = 2) && decide (nth 0 f (o + 4 * (nth 0 f o % 16)) = 0x11)
  | none => false

/-- The frame is ARP, LLDP, an IGMP query, or IPv4 to the port's own address. -/
def forSupervisor (s : State) (p : Nat) (f : List Nat) : Bool :=
  let (ty, _, _) := etherOf f
  decide (ty = 0x0806) || decide (ty = 0x88CC) || isIgmpQuery f
    || (match ipOff f with | some o => decide (be (slice (o + 16) 4 f) = portAddr s p) | none => false)

/-- The frame is a PTP frame (R363). -/
def isPtp (f : List Nat) : Bool :=
  decide ((etherOf f).1 = 0x88F7)
    || (match udpOf f with | some u => decide (u.dport = 319) || decide (u.dport = 320) | none => false)

/-- A stream frame finds room or is dropped (R361), and stopped streams discard it (R258, R260). -/
def admitStream (port k : Nat) (legB : Bool) (st : Stored) (off : Nat) (s : State) : State :=
  match s.img.rx[k]? with
  | none => s
  | some c =>
    let fn := fnGet 2 k s
    if (fn.st = 3 || fn.st = 4) && (startsAt 2 k s).isNone then idleDrop 1 s
    else if !admits s port (if legB then c.cellsB else c.cellsA) (legCells legB (rxGet k s)) then quotaDrop port s
    else
      let s := match startsAt 2 k s with
        | some b => if 2 ≤ fn.st then rxSet k { rxGet k s with minBlock := b, fresh := true } s else s
        | none => s
      streamPacket k legB st off (count 0x100B0020 port 1 s)

/-- The EEE TLV among the TLVs of an LLDP frame (IEEE 802.3 Clause 79): its eight bytes after the subtype, at least. -/
def eeeTlv : Nat → List Nat → Option (List Nat)
  | 0, _ => none
  | fuel + 1, l =>
    let h := be (slice 0 2 l)
    let v := slice 2 (h % 512) l
    if h / 512 = 0 then none
    else if h / 512 = 127 && decide (v.take 4 = [0x00, 0x12, 0x0F, 0x05]) && decide (14 ≤ v.length) then some (v.drop 4)
    else eeeTlv fuel (l.drop (2 + h % 512))

/-- EEE runs on MGMT (R356). -/
def eeeOn (s : State) : Bool := decide ((netCfg s 4).mode = 5) && (netCfg s 4).eee && (pnGet 4 s).link

/-- The supervisor's LLDP frame on MGMT (IEEE 802.1AB): chassis and port by MAC address, time to live, and the EEE TLV with the
wake times for transmit and receive, the fallback and the echo of the partner's values (R356; assumption 107). -/
def lldpOwn (s : State) : List Nat :=
  let mac := beBytes 6 (Config.macAddress % 2 ^ 48)
  let n := s.net
  [0x01, 0x80, 0xC2, 0, 0, 0x0E] ++ mac ++ [0x88, 0xCC] ++ [0x02, 7, 4] ++ mac ++ [0x04, 7, 3] ++ mac ++ [0x06, 2, 0, 120]
    ++ [0xFE, 14, 0x00, 0x12, 0x0F, 0x05] ++ beBytes 2 n.twTx ++ beBytes 2 (Config.wakeRx % 65536)
    ++ beBytes 2 (Config.wakeRx % 65536) ++ beBytes 2 n.peerTw ++ beBytes 2 n.twTx ++ [0, 0]

/-- LLDP_FRAME (R356): a frame without its FCS. The partner's receive wake time becomes the negotiated transmit wake time; the
supervisor answers where its own TLV changes by it. -/
def lldpFrame (f : List Nat) (s : State) : State :=
  let (ty, _, off) := etherOf f
  if ty ≠ 0x88CC || !eeeOn s then s
  else match eeeTlv f.length (f.drop off) with
    | some v =>
      let t := { s with net := { s.net with
        twTx := be (slice 2 2 v), twRx := Config.wakeRx % 65536, peerTw := be (slice 0 2 v) } }
      if t.net.twTx = s.net.twTx ∧ t.net.peerTw = s.net.peerTw then t else svSend 4 (lldpOwn t) t
    | none => s

/-- The frame goes to the supervisor queue of the port (R363, R355): the supervisor answers ARP for the port's address and
an IGMP query with a report, and takes the EEE TLV of an LLDP frame on MGMT; other frames need no answer here. -/
def supervisorFrame (p : Nat) (f : List Nat) (s : State) : State :=
  match arpReply s p f with
  | some r => svSend p r s
  | none =>
    if isIgmpQuery f && decide (p < 4) then svSend p (igmpReport s p) s
    else if p = 4 then lldpFrame f s else s

/-- A TCM frame enters its transport's input queue of 16 frames, or is dropped (R582). -/
def tcmInput (f : InFrame) (s : State) : State :=
  if 16 ≤ (s.tcm.input.filter (fun x => decide (x.spi = f.spi))).length then raiseOnce 0x8B 0 (count 0x10140030 0 1 s)
  else { s with tcm := { s.tcm with input := s.tcm.input ++ [f] } }

/-- The supervisor reads a frame of its queue at once and releases it (assumption 107); one that is marked ERROR or TRUNCATED or
is poisoned needs no answer. TCM datagrams on MGMT wait in the control-message input (R580). -/
def supervisorRead (p : Nat) (st : Stored) (s : State) : State :=
  if st.error || st.poison || st.trunc then s
  else match (if p = 4 then udpOf st.frame else none) with
    | some u =>
      if u.dport = s.tcm.udpPort && decide (u.dst = portAddr s p) then
        tcmInput ⟨false, u.src, u.sport, udpBody st.frame⟩ s
      else supervisorFrame p st.frame s
    | none => supervisorFrame p st.frame s

/-- A frame of at least 64 bytes goes to its queue (R361, R363): `off` is the sample offset of its completion in the block. The
NET record gives the PTP queues no quota of their own: a PTP frame is admitted while the pool holds room for it (assumption
107). -/
def classify (p : Nat) (st : Stored) (off : Nat) (s : State) : State :=
  let f := st.frame
  if p < 4 && isPtp f then
    if !admits s p 65536 (cellsUsed s).length then quotaDrop p s
    else
      let n := pnGet p s
      noteCells 0 (count 0x100B0020 p 1 (pnSet p { n with ptpQ := n.ptpQ.push st } s))
  else
    match (if p < 4 then (udpOf f).bind (fun u => findLeg s p (etherOf f).2.1 u) else none) with
    | some (k, legB) => admitStream p k legB st off s
    | none =>
      if !forSupervisor s p f then count 0x100B0030 p 1 s
      else if !admits s p (netCfg s p).svCells 0 then quotaDrop p s
      else supervisorRead p st (noteCells (cellsOf f.length) (count 0x100B0020 p 1 s))

/-- Octet counters saturate at 64 bits (R354). -/
def octets (n k : Nat) : Nat := min (2 ^ 64 - 1) (n + k)

/-- A frame has been received on a port (R351, R352, R357 to R363): its bytes with the FCS, whether a code error occurred
within it, whether a cell word is poisoned, the sample offset of its completion in the block and the counter value at its
timestamp point. The checks cover the whole frame; what is stored is cut to MAX_FRAME − 4 bytes. -/
def frameReceive (p : Nat) (raw : List Nat) (codeErr poison : Bool) (off ts : Nat) (s : State) : State :=
  let cfg := netCfg s p
  if cfg.mode = 0 || !(pnGet p s).link then s
  else
    let n := raw.length
    let s := pnSet p { pnGet p s with rxOctets := octets (pnGet p s).rxOctets n } s
    if n < 64 then count 0x100B0024 p 1 s
    else
      let f := raw.take (n - 4)
      let trunc := decide (cfg.maxFrame < n)
      let bad := decide (le (raw.drop (n - 4)) ≠ crc32 f) || codeErr || !sumsOk f
      let s := if trunc then count 0x100B0028 p 1 s else s
      let s := if bad then count 0x100B0024 p 1 s else s
      classify p (storeFrame p bad trunc poison ts (if trunc then f.take (cfg.maxFrame - 4) else f) s) off s

/-! ### Merge -/

/-- The stored copies of one leg that meet a test, as one packet (R377): the packet, and whether two copies differ. -/
def legCopy (same : Packet → Bool) (q : List Packet) : Option Packet × Bool :=
  match q.filter same with
  | [] => (none, false)
  | x :: t => if t.all (fun y => decide (y.payload = x.payload)) then (some x, false) else (none, true)

/-- The merge choice of R376 and R377 among the copies that meet a test. -/
def rxDecide (k : Nat) (c : RxCfg) (same : Packet → Bool) (t : Int) (s : State) : Chosen × State :=
  let r := rxGet k s
  let (a, ca) := legCopy same (r.waiting false)
  let (b, cb) := legCopy same (r.waiting true)
  let s := if ca then raiseStream 0x57 k (count 0x100B00A0 k 1 s) else s
  let s := if cb then raiseStream 0x57 k (count 0x100B00A0 k 1 s) else s
  let one := fun s => if c.legA.on && c.legB.on then count 0x100B00AC k 1 s else s
  match a, b with
  | some x, some y =>
    if x.payload = y.payload then (⟨t, some x.payload, true, true, false⟩, s)
    else (⟨t, some x.payload, true, false, true⟩, raiseStream 0x56 k (count 0x100B00B0 k 1 s))
  | some x, none => (⟨t, some x.payload, true, false, false⟩, one s)
  | none, some y => (⟨t, some y.payload, false, true, false⟩, one s)
  | none, none => (⟨t, none, false, false, false⟩, s)

/-- Insertion into a rising list without repeats. -/
def insertInt (x : Int) : List Int → List Int
  | [] => [x]
  | y :: t => if x < y then x :: y :: t else if x = y then y :: t else y :: insertInt x t

/-- Choices for the timestamps that come due before media index `m1` (R376, R378). -/
def rxChoose (k : Nat) (c : RxCfg) (m1 : Int) (s : State) : State :=
  let r := rxGet k s
  let ts := ((r.waiting false ++ r.waiting true).map Packet.t).foldl (fun l t => insertInt t l) []
  (ts.filter (fun t => decide (t < m1) && !r.chosen.any (fun x => decide (x.t = t)))).foldl (fun s t =>
    let (x, s) := rxDecide k c (fun p => decide (p.t = t)) t s
    let r := rxGet k s
    let laps := if x.payload.isSome then
        (r.chosen.filter (fun y => y.payload.isSome && decide ((y.t - t).natAbs < c.ptime))).length else 0
    let s := if laps = 0 then s else count 0x100B00A4 k laps s
    rxSet k { r with chosen := r.chosen ++ [x], tRef := if x.payload.isSome then t else r.tRef } s) s

/-- Sample of channel `ch` at media index `i` of a chosen payload (R39, R366). -/
def payloadSample (c : RxCfg) (x : Chosen) (ch : Nat) (i : Int) : Int :=
  let w := sampleBytes c.type
  let o := ((i - x.t).toNat * c.channels + ch) * w
  let l := slice o w (x.payload.getD [])
  if c.type = 1 then pcmIn 16 (signExt 16 (be l)) else pcmIn 24 (signExt 24 (be l))

/-- The chosen packet that supplies media index `i`: the one with the larger T where packets overlap (R378). -/
def supplier (c : RxCfg) (l : List Chosen) (i : Int) : Option Chosen :=
  l.foldl (fun a x =>
    if x.payload.isSome && decide (x.t ≤ i) && decide (i < x.t + c.ptime)
        && (match a with | some y => decide (y.t < x.t) | none => true) then some x else a) none

/-- The stream supplies lanes at the tick of block `n`: it is not stopped, or its START acts at this tick (R257, R260). -/
def rxRuns (s : State) (k n : Nat) : Bool :=
  let fn := fnGet 2 k s
  decide (fn.st ≤ 1) || (decide (3 ≤ fn.st) && decide (startsAt 2 k s = some n))

/-- What an unsupplied sample of block `n` brings about (R375, R649, R362). -/
def missNote (k : Nat) (c : RxCfg) (miss : List Int) (s : State) : State :=
  let r := rxGet k s
  if miss.isEmpty then rxSet k { r with missRun := false } s
  else
    let p : Int := max 1 c.ptime
    let slots := miss.foldl (fun l m => insertInt ((m - r.tRef) / p * p + r.tRef) l) []
    let new := slots.filter (fun x => !r.missed.contains x)
    let s := rxSet k { r with missed := r.missed ++ new, missRun := true } (count 0x100B00A8 k new.length s)
    let s := lapseTick { s with grid := { s.grid with latePacket := true } }
    let s := if r.missRun then s else raiseTick 0x55 k s
    if r.poison.any (fun t => miss.any (fun m => decide (t ≤ m) && decide (m < t + c.ptime))) then
      lapseTick { s with grid := { s.grid with memPoison := true } } else s

/-- The merge of an audio stream at the tick of block `n` (R375 to R378, R649). -/
def rxMerge (n k : Nat) (c : RxCfg) (s : State) : State :=
  let m0 : Int := (s.B : Int) * ((n : Int) - 1) - rxDelta s c
  let m1 := m0 + s.B
  let run := rxRuns s k n
  let s := rxChoose k c m1 s
  let r := rxGet k s
  let idx := (List.range s.B).map (fun (q : Nat) => m0 + (q : Int))
  let sup := idx.map (fun i => supplier c r.chosen i)
  let have_ := idx.zip sup
  let supplied := have_.filter (fun e => e.2.isSome)
  let miss := if !run then [] else (have_.filter (fun e => e.2.isNone)).map Prod.fst
  let miss := if r.fresh then (match supplied with | [] => [] | e :: _ => miss.filter (fun m => decide (e.1 < m))) else miss
  let s := rxSet k { r with fresh := r.fresh && (!run || supplied.isEmpty) } s
  let s := missNote k c miss s
  let used := r.chosen.filter (fun x => x.payload.isSome && decide (m0 < x.t + c.ptime) && decide (x.t < m1))
  let status := bitIf run 0 + bitIf (used.any Chosen.a) 1 + bitIf (used.any Chosen.b) 2 + bitIf (!miss.isEmpty) 3
    + bitIf (used.any Chosen.differ) 4
  let j := s.j0 n
  let s := if !run then s else (List.range c.channels).foldl (fun s ch =>
    match nth none s.img.rxChan (c.firstChan + ch) with
    | none => s
    | some lane =>
      let ys := have_.map (fun e => match e.2 with | some x => payloadSample c x ch e.1 | none => 0)
      { s with smp := { s.smp with lane := smpPut lane j ys s.smp.lane } }) s
  let r := (rxGet k s).finish (fun p => decide (p.t + c.ptime ≤ m1))
  rxSet k { r with
    status := status
    chosen := r.chosen.filter (fun x => decide (m1 < x.t + c.ptime))
    poison := r.poison.filter (fun t => decide (m1 < t + c.ptime))
    missed := r.missed.filter (fun t => decide (m1 < t + c.ptime)) } s

/-- Order of OPS packets: increasing T, then increasing sequence number (R70). -/
def keyInsert (x : Int × Nat) : List (Int × Nat) → List (Int × Nat)
  | [] => [x]
  | y :: t => if x.1 < y.1 ∨ (x.1 = y.1 ∧ x.2 < y.2) then x :: y :: t else if x = y then y :: t else y :: keyInsert x t

/-- OPS packets of stream `k` whose release block has come by the tick of block `n` (R69 to R71, R380). The records of a packet
that arrives late are entered for block `n`, whose tick enters them, which is the block r of R74 and R75: DEDUCED
(assumption 100). -/
def opsRelease (n k : Nat) (c : RxCfg) (s : State) : State :=
  if !rxRuns s k n then s
  else
    let r := rxGet k s
    let keys := ((r.waiting false ++ r.waiting true).map (fun p => (p.t, p.seq))).foldl (fun l x => keyInsert x l) []
    let due := keys.filter (fun x => decide (releaseBlock s c x.1 ≤ n))
    let s := due.foldl (fun s x =>
      let same := fun (p : Packet) => decide (p.t = x.1) && decide (p.seq = x.2)
      let r := rxGet k s
      let first := (((r.waiting false ++ r.waiting true).filter same).map Packet.block).foldl min n
      let (ch, s) := rxDecide k c same x.1 s
      let late := decide (releaseBlock s c x.1 < n) && decide (releaseBlock s c x.1 ≤ first)
      let s := if late then raiseTick 0x13 k (lapseTick { s with grid := { s.grid with latePacket := true } }) else s
      let s := match ch.payload with
        | some p => (opsRecords p).foldl (fun s rec => enterRecord n rec s) s
        | none => s
      let r := rxGet k s
      rxSet k { r.finish same with done := x :: r.done } s) s
    let r := (rxGet k s).finish (fun _ => false)
    rxSet k { r with done := r.done.filter (fun x => decide ((n : Int) ≤ releaseBlock s c x.1 + 1024)) } s

/-- Receive streams at the tick of block `n`: OPS streams first, in increasing stream index, then the audio streams. -/
def netTick (n : Nat) (s : State) : State :=
  let s := { s with net := { s.net with once := [] } }
  let s := (s.img.rx.zipIdx).foldl (fun s ((c : RxCfg), (k : Nat)) => if c.type = 4 then opsRelease n k c s else s) s
  (s.img.rx.zipIdx).foldl (fun s ((c : RxCfg), (k : Nat)) => if c.type = 4 then s else rxMerge n k c s) s

/-- The jitter buffer and merge state of a stopped stream are flushed (R254); packets that a registered START admits stay
(R260). -/
def rxClear (k : Nat) (s : State) : State :=
  let r := (rxGet k s).finish (fun p => match startsAt 2 k s, s.img.rx[k]? with
    | some b, some c => decide ((if c.type = 4 then releaseBlock s c p.t else dueBlock s c p.t) < (b : Int))
    | _, _ => true)
  rxSet k { RxState.reset with
    qA := r.qA, qB := r.qB, minBlock := r.minBlock, fresh := r.fresh, seqA := r.seqA, seqB := r.seqB, margin := r.margin } s

/-- Lanes of a receive stream. -/
def rxLanes (s : State) (k : Nat) : List Nat :=
  match s.img.rx[k]? with
  | none => []
  | some c => (List.range c.channels).filterMap (fun ch => nth none s.img.rxChan (c.firstChan + ch))

/-! ### Transmit -/

/-- Channel-status bit `i` of R367 (professional format): linear PCM, no emphasis, the rate in effect, 24-bit words, and
the CRC in byte 23. -/
def statusByte (rate : Nat) (k : Nat) : Nat :=
  match k with
  | 0 => 0x01 + 0x04 + (match rate with | 0 => 0x40 | 1 => 0x80 | _ => 0)
  | 2 => 0x04 + 0x28
  | 4 => match rate with | 2 => 0x50 | 3 => 0x10 | _ => 0
  | _ => 0

/-- One bit of the channel-status CRC: x^8 + x^4 + x^3 + x^2 + 1, least significant bit first. -/
def statusCrcStep (crc b : Nat) : Nat :=
  let f := (crc + b) % 2
  let c := crc / 2
  if f = 1 then c ^^^ 0xB8 else c

/-- The CRC over bytes 0 to 22. -/
def statusCrc (rate : Nat) : Nat :=
  ((List.range 23).flatMap (fun k => (List.range 8).map (fun b => statusByte rate k / 2 ^ b % 2))).foldl statusCrcStep 0xFF

/-- Channel-status bit of a frame with output index `i`. -/
def statusBit (rate i : Nat) : Nat :=
  let b := i % 192
  (if b / 8 = 23 then statusCrc rate else statusByte rate (b / 8)) / 2 ^ (b % 8) % 2

/-- An AM824 word (R366, R367): 00, B, F, P, C, U, V, then 24 audio bits; P makes the parity even. -/
def am824 (rate i ch v : Nat) : Nat :=
  let c := statusBit rate i
  let ones := (List.range 24).foldl (fun (a : Nat) b => a + v / 2 ^ b % 2) c
  bitIf (i % 192 = 0) 29 + bitIf (ch % 2 = 0) 28 + bitIf (ones % 2 = 1) 27 + c * 2 ^ 26 + v

/-- Bytes of one sample of channel `ch` of a transmit stream at output index `i` (R366, R367, R383, R256). -/
def txSample (s : State) (k : Nat) (c : TxCfg) (ch i : Nat) : List Nat :=
  let x := match nth none s.img.txChan (c.firstChan + ch) with
    | none => 0
    | some b => fadeAt s.B s.lgB (txGet k s).fades i (egress s b i)
  match c.type with
  | 1 => beBytes 2 (pattern 16 (pcmOut 16 x))
  | 2 => beBytes 3 (pattern 24 (pcmOut 24 x))
  | _ => beBytes 4 (am824 s.img.rate i ch (pattern 24 (pcmOut 24 x)))

/-- RTP header and payload of packet `m` of stream `k` (R383, R384). -/
def txRtp (s : State) (k : Nat) (c : TxCfg) (m : Nat) : List Nat :=
  [0x80, c.pt] ++ beBytes 2 ((m + c.seqBase) % 65536) ++ beBytes 4 (m * c.ptime % 2 ^ 32) ++ beBytes 4 c.ssrc
    ++ (List.range c.ptime).flatMap (fun i => (List.range c.channels).flatMap (fun ch => txSample s k c ch (m * c.ptime + i)))

/-- A UDP datagram over IPv4 and Ethernet, checksums right (R353, R384), without FCS. -/
def udpFrame (dmac smac : Nat) (vlan dscp ttl src dst sport dport : Nat) (payload : List Nat) : List Nat :=
  let ulen := 8 + payload.length
  let ip := fun ck => [0x45, dscp * 4] ++ beBytes 2 (20 + ulen) ++ [0, 0, 0x40, 0, ttl, 17] ++ beBytes 2 ck ++ beBytes 4 src
    ++ beBytes 4 dst
  let udp := fun ck => beBytes 2 sport ++ beBytes 2 dport ++ beBytes 2 ulen ++ beBytes 2 ck ++ payload
  let ck := inetSum (beBytes 4 src ++ beBytes 4 dst ++ [0, 17] ++ beBytes 2 ulen ++ udp 0)
  beBytes 6 dmac ++ beBytes 6 smac ++ (if vlan = 0xFFFF then [] else [0x81, 0x00] ++ beBytes 2 vlan) ++ [0x08, 0x00]
    ++ ip (inetSum (ip 0)) ++ udp (if ck = 0 then 0xFFFF else ck)

/-- Destination MAC of an IPv4 multicast address (RFC 1112). -/
def groupMac (a : Nat) : Nat := 0x01005E000000 + a % 2 ^ 23

/-- Packet `m` of stream `k` as it leaves on a leg (R384). -/
def txPacket (s : State) (k : Nat) (c : TxCfg) (l : LegCfg) (m : Nat) : List Nat :=
  udpFrame (groupMac l.dst) (netCfg s l.port).mac l.vlan c.dscp c.ttl l.src l.dst c.srcPort l.udpPort (txRtp s k c m)

/-- The end of the stopped stretch in which output index `i` lies, after a fade-out and before the next fade: none where it lies in
none, some none where no START has ended the stretch (R387). -/
def txSilent (B : Nat) (fades : List (Int × Bool)) (i : Int) : Option (Option Int) :=
  match fades.reverse.find? (fun f => decide (f.1 ≤ i)) with
  | some (b, true) => if b + B ≤ i then some ((fades.find? (fun f => decide (i < f.1))).map Prod.fst) else none
  | _ => none

/-- The first packet from `m` on that is sent: one whose output indices all lie in a stopped stretch is not (R387). None while the
stream is stopped. `n` bounds the stretches. -/
def txNextSent (B ptime : Nat) (fades : List (Int × Bool)) : Nat → Nat → Option Nat
  | 0, m => some m
  | n + 1, m =>
    match txSilent B fades (m * ptime : Nat) with
    | none => some m
    | some none => none
    | some (some e) =>
      if ((m * ptime + ptime : Nat) : Int) ≤ e then txNextSent B ptime fades n (max (m + 1) (e.toNat / ptime)) else some m

/-- Packet `m` is not sent: all its output indices lie in a stopped stretch. -/
def txSkipped (s : State) (k : Nat) (c : TxCfg) (m : Nat) : Bool :=
  decide (txNextSent s.B c.ptime (txGet k s).fades 1 m ≠ some m)

/-- This unit emits network A or B for packets whose first index is `i` (R323, R324). -/
def emits (s : State) (legB : Bool) (i : Nat) : Bool :=
  match s.twin.emitLog.reverse.find? (fun e => decide (e.1 ≤ i)) with
  | some (_, a, b) => if legB then b else a
  | none => false

/-- The packet that a port sends next: due instant, stream, leg, packet (R385). -/
def txHead (s : State) (p : Nat) : Option (Nat × Nat × Bool × Nat) :=
  let cand := (s.img.tx.zipIdx).flatMap (fun ((c : TxCfg), (k : Nat)) =>
    let t := txGet k s
    let one := fun (legB : Bool) (l : LegCfg) (nx : Nat) =>
      if l.on && decide (l.port = p) && decide (0 < c.ptime) then
        match txNextSent s.B c.ptime t.fades (t.fades.length + 1) nx with
        | some m => [(m * c.ptime + c.ptime, k, legB, m)]
        | none => []
      else []
    one false c.legA t.nextA ++ one true c.legB t.nextB)
  cand.foldl (fun a x => match a with | some y => if x.1 < y.1 then some x else some y | none => some x) none

/-- A frame leaves on a port, or is discarded with the link down (R350). -/
def sendFrame (p : Nat) (f : List Nat) (s : State) : State :=
  let n := pnGet p s
  if n.link then
    count 0x100B0034 p 1 (pnSet p { n with sent := f, txOctets := octets n.txOctets (max 64 (f.length + 4)) } s)
  else count 0x100B0038 p 1 s

/-- The output index whose media-clock instant has come: the current sub-block ends before the one named here (R385). -/
def txReached (s : State) : Nat := if s.grid.running then s.B * s.grid.block + s.S * (s.grid.sub + 1) else 0

/-- Packet `m` of a leg goes through its stream's transmit queue, within its quota (R361), and leaves where this unit emits the leg
(R386). -/
def txPacketOut (p k : Nat) (legB : Bool) (c : TxCfg) (m : Nat) (s : State) : State :=
  let t := txGet k s
  let f := txPacket s k c (if legB then c.legB else c.legA) m
  let s := txSet k (if legB then { t with nextB := m + 1 } else { t with nextA := m + 1 }) s
  if !admits s p c.cells 0 then quotaDrop p s
  else
    let s := noteCells (cellsOf f.length) s
    if emits s legB (m * c.ptime) then sendFrame p f (if (pnGet p s).link then count 0x100B00C8 k 1 s else s)
    else s

/-- A port sends its next frame (R350, R353, R385, R386): a frame of the supervisor first; on MGMT the oldest control
frame, which waits while the port is in LPI; on a media port the packet whose due instant came first. -/
def txSend (p : Nat) (s : State) : State :=
  let n := pnGet p s
  if p = 4 && n.txLpi then s
  else match n.svOut.next with
    | (some f, q) => sendFrame p f.frame (pnSet p { n with svOut := q } s)
    | (none, _) =>
      if p = 4 then
        match s.tcm.mgmtOut with
        | [] => s
        | o :: t =>
          sendFrame 4 (udpFrame 0 (Config.macAddress % 2 ^ 48) 0xFFFF 0 64 (portAddr s 4) o.addr s.tcm.udpPort o.port o.bytes)
            { s with tcm := { s.tcm with mgmtOut := t } }
      else match txHead s p with
        | none => s
        | some (due, k, legB, m) =>
          match s.img.tx[k]? with
          | none => s
          | some c => if due < txReached s then txPacketOut p k legB c m s else s

/-- The first packets that a unit sends when its grid starts at block `b`. -/
def txStart (b : Nat) (s : State) : State :=
  (s.img.tx.zipIdx).foldl (fun s ((c : TxCfg), (k : Nat)) =>
    let m := (s.B * b + max 1 c.ptime - 1) / max 1 c.ptime
    txSet k { txGet k s with nextA := m, nextB := m } s) s

/-! ### Links and low power -/

/-- The supervisor's first frames on a port whose link has come up: its groups (R363), and on MGMT its EEE TLV (R356). -/
def linkGreet (p : Nat) (s : State) : State :=
  if p = 4 then (if eeeOn s then svSend 4 (lldpOwn s) s else s) else reportGroups p s

/-- What a port sees of its link: RS-FEC runs in mode 25GBASE-R with RS-FEC only (R349), the partner's LPI on MGMT with EEE only
(R356). A link that goes down or comes up is noted and raised (R350). -/
def linkChange (p : Nat) (up fec lpi : Bool) (s : State) : State :=
  let c := netCfg s p
  let n := pnGet p s
  let v := { n with
    link := up, fecLock := up && fec && decide (c.mode = 3), rxLpi := up && lpi && p = 4 && c.mode = 5 && c.eee }
  if n.link = up then pnSet p v s
  else
    let s := raise 0x51 p (pnSet p { v with linkChange := true, txLpi := false } s)
    if up then linkGreet p s else s

/-- MGMT's transmit path has been idle for LPI_IDLE (R356). -/
def lpiEnter (s : State) : State :=
  let n := pnGet 4 s
  if eeeOn s && !n.txLpi && n.svOut.items.isEmpty && s.tcm.mgmtOut.isEmpty then
    count 0x100B003C 4 1 (pnSet 4 { n with txLpi := true } s)
  else s

/-- The wake time has passed for a frame queued during LPI (R356). -/
def lpiWake (s : State) : State :=
  let n := pnGet 4 s
  if n.txLpi && !(n.svOut.items.isEmpty && s.tcm.mgmtOut.isEmpty) then txSend 4 (pnSet 4 { n with txLpi := false } s) else s

/-! ### Registers -/

/-- NET.PORT_CFG. -/
def portCfgWord (s : State) (p : Nat) : Nat :=
  let c := netCfg s p
  if p < 5 && s.net.valid then c.mode + bitIf c.eee 4 + c.maxFrame * 2 ^ 16 + 2 ^ 31 else 0

/-- The RO registers of the NET block for the selected port, receive and transmit stream. -/
def netReg (off p rx tx : Nat) (s : State) : Nat :=
  let n := pnGet p s
  match off with
  | 0x00 => if s.net.valid then s.img.rx.length + s.img.tx.length * 2 ^ 10 + 2 ^ 31 else 0
  | 0x04 => s.net.recordErr
  | 0x08 => poolFree s
  | 0x14 => portCfgWord s p
  | 0x18 => bitIf n.link 0 + bitIf n.fecLock 1 + bitIf n.txLpi 2 + bitIf n.rxLpi 3 + bitIf n.linkChange 8
  | 0x1C => s.net.twTx % 65536 + (s.net.twRx % 65536) * 65536
  | 0x88 => if rx < s.img.rx.length then (rxGet rx s).status else 0
  | 0xC4 =>
    match s.img.tx[tx]? with
    | none => 0
    | some c => bitIf (c.legA.on && s.twin.emitA) 0 + bitIf (c.legB.on && s.twin.emitB) 1
        + bitIf (decide (2 ≤ (fnGet 3 tx s).st)) 2
  | _ => 0

/-- RC registers of the NET block that are not plain counters: value and state after the read (R354). -/
def netRead (off p rx : Nat) (s : State) : Nat × State :=
  match off with
  | 0x0C => (s.net.poolMin, { s with net := { s.net with poolMin := 0x10000 } })
  | 0x40 => let n := pnGet p s; (n.rxOctets % 2 ^ 32, pnSet p { n with rxOctets := 0 } s)
  | 0x48 => let n := pnGet p s; (n.txOctets % 2 ^ 32, pnSet p { n with txOctets := 0 } s)
  | 0x8C => let r := rxGet rx s; (r.margin, rxSet rx { r with margin := 65535 } s)
  | _ => (0, s)

end Sys2Proof.Machine
end

