-- ==== Sys2Proof/Machine/Time.lean ====
section
/-!
DEFINITION. The time counter, IEEE 1588 messages and domains, PPS, lock, holdover and the media clock (chapter 11).
-/
namespace Sys2Proof.Machine

/-! ### The counter -/

/-- Value of an entry as CNT enters its half: E for EPOCH[1], E + 1 for EPOCH[0] (table "Epoch ledger"). -/
def nextEpoch (s : State) (entry : Nat) : Nat :=
  if entry = 1 then s.time.epoch0 else (s.time.epoch1 + 1) % 2 ^ 32

/-- Expected value of a write now (table "Epoch ledger"): the entry in use holds E; the other takes E in the lower half of CNT and
E + 1 in the upper one. A write of the entry in use takes only what it holds: DEDUCED (assumption 108). -/
def expectedEpoch (s : State) (entry : Nat) : Nat :=
  if halfOf s.time.cnt = 0 then s.time.epoch0
  else if entry = 1 then s.time.epoch1 else (s.time.epoch1 + 1) % 2 ^ 32

/-- CNT enters half `b` (R393): the entry left is disarmed; an unarmed entry is loaded and reported. -/
def halfEnter (b : Nat) (s : State) : State :=
  let t := s.time
  let armed := if b = 0 then t.armed0 else t.armed1
  if armed then
    { s with time := if b = 0 then { t with armed1 := false } else { t with armed0 := false } }
  else
    let v := nextEpoch s b
    let t := if b = 0 then { t with epoch0 := v, armed0 := true, armed1 := false }
      else { t with epoch1 := v, armed1 := true, armed0 := false }
    raise 0x59 0 (count 0x100C0094 0 1 { s with time := { t with stale := true } })

/-- The halves entered while the counter advances, from half `b` on. -/
def halvesEntered : Nat → Nat → State → State
  | 0, _, s => s
  | n + 1, b, s => halvesEntered n (1 - b) (halfEnter b s)

/-- `n` TIME cycles pass (R388). -/
def timeAdvance (n : Nat) (s : State) : State :=
  let c := s.time.cnt
  let v := c + n * s.time.inc
  halvesEntered (v / 2 ^ 63 - c / 2 ^ 63) (1 - halfOf c) { s with time := { s.time with cnt := v % 2 ^ 64 } }

/-- INC takes a value, which PTP.INC_NS and PTP.INC_FRAC hold (R389). -/
def setInc (v : Nat) (s : State) : State :=
  { rset 0x100C001C 0 (v % 2 ^ 32) (rset 0x100C0020 0 (v / 2 ^ 32 % 16) s) with time := { s.time with inc := v } }

/-- A value held in a range. -/
def holdIn (lo hi v : Nat) : Nat := max lo (min hi v)

/-- The range in which the supervisor's servo holds INC (R389, R407): 3.998 ns to 4.002 ns; within SLEW_PPB of the value that
matches the selected domain's rate; and while the offset exceeds LOCK_NS, on the side of that value that lessens it. -/
def incRange (s : State) : Nat × Nat :=
  let lo := (3998 * 2 ^ 32 + 999) / 1000
  let hi := 4002 * 2 ^ 32 / 1000
  match s.time.sel with
  | none => (lo, hi)
  | some k =>
    let d := if k = 0 then s.time.dom0 else s.time.dom1
    match d.fit with
    | none => (lo, hi)
    | some f =>
      let w := f * s.img.ptp.slewPpb / 10 ^ 9
      let lock : Int := s.img.ptp.lockNs * 2 ^ 16
      let off := d.offset.getD 0
      let a := if off < -lock then f else f - w
      let b := if lock < off then f else f + w
      (holdIn lo hi a, holdIn lo hi b)

/-- A write of PTP.INC_FRAC: INC takes PTP.INC_NS and the new fraction (R389). The supervisor's servo holds it in its range, and
in holdover it leaves INC as it is (R416). -/
def incWrite (master frac : Nat) (s : State) : State :=
  let v := rget 0x100C0020 0 s % 16 * 2 ^ 32 + frac % 2 ^ 32
  if master ≠ 0 then setInc v s
  else if s.time.holdover then setInc s.time.inc s
  else setInc (holdIn (incRange s).1 (incRange s).2 v) s

/-- A write of PTP.EPOCH0 or PTP.EPOCH1 (R393). -/
def epochWrite (entry v : Nat) (s : State) : State :=
  let t := s.time
  if s.grid.running && decide (v ≠ expectedEpoch s entry) then { s with time := { t with badWrite := true } }
  else { s with time := if entry = 0 then { t with epoch0 := v, armed0 := true } else { t with epoch1 := v, armed1 := true } }

/-- An interval of 2^log seconds, in 2^-16 ns. -/
def intervalOf (log : Int) : Int :=
  if 0 ≤ log then 10 ^ 9 * 2 ^ 16 * 2 ^ log.toNat else 10 ^ 9 * 2 ^ 16 / 2 ^ (-log).toNat

/-- The half-open interval [a, b) that holds a time (R397); the intervals are counted from the PTP epoch: DESIGN CHOICE, the spec
gives them no beginning (assumption 108). -/
def intervalAt (log : Int) (t : Int) : Int := t / intervalOf log

/-- Configuration and state of a domain slot. -/
def domCfg (s : State) (k : Nat) : DomCfg := nth ⟨0, 0, 0, none, 0, 0, 0, 0, 0xFFFF, 0⟩ s.img.ptp.doms k
def domGet (k : Nat) (s : State) : Domain := if k = 0 then s.time.dom0 else s.time.dom1
def domSet (k : Nat) (d : Domain) (s : State) : State :=
  if k = 0 then { s with time := { s.time with dom0 := d } } else { s with time := { s.time with dom1 := d } }

/-- A step of the counter by `d` moves every local time that a domain holds, and its offset with them (R391, R404). -/
def Domain.stepped (c : DomCfg) (d : Int) (x : Domain) : Domain :=
  { x with
    offset := x.offset.map (· + d), pathAt := x.pathAt + d, t2 := x.t2 + d
    slot := x.slot.map (fun _ => intervalAt c.logSync (x.t2 + d))
    sync := x.sync.map (fun e => (e.1, e.2.1 + d, e.2.2)), req := x.req.map (fun e => (e.1, e.2 + d))
    foreign := x.foreign.map (fun f => { f with last := f.last + d, before := f.before.map (· + d) }) }

/-- The counter set to an extended time of 96 bits in 2^-32 ns, both entries armed (R391). -/
def setTime (v : Nat) (s : State) : State :=
  let hi := v / 2 ^ 64 % 2 ^ 32
  let c := v % 2 ^ 64
  let b := halfOf c
  let d : Int := (v % 2 ^ 96 / 2 ^ 16 : Nat) - (extended s s.time.cnt / 2 ^ 16 : Nat)
  { s with time := { s.time with
    cnt := c, epoch0 := if b = 0 then hi else (hi + 1) % 2 ^ 32, epoch1 := hi, armed0 := true, armed1 := true
    dom0 := s.time.dom0.stepped (domCfg s 0) d, dom1 := s.time.dom1.stepped (domCfg s 1) d
    ppsAt := s.time.ppsAt.map (fun a => (a + d * 2 ^ 16).toNat) } }

/-- PTP.STEP_CMD.STEP (R391). -/
def ptpStep (s : State) : State :=
  if s.grid.running then count 0x100C008C 0 1 s
  else setTime (rget 0x100C0034 0 s * 2 ^ 64 + rget 0x100C0030 0 s * 2 ^ 32) s

/-! ### Domains -/

/-- The port that a domain runs on. -/
def domPort (s : State) (k : Nat) : Nat :=
  let c := domCfg s k
  if (domGet k s).second then c.portS.getD c.portP else c.portP

/-- The enabled domain slot that runs on a port under a domainNumber. -/
def domOf (s : State) (port domain : Nat) : Option Nat :=
  (List.range 2).find? (fun k =>
    let c := domCfg s k
    decide (c.profile ≠ 0) && decide (c.domain = domain) && decide (domPort s k = port))

/-- Measurements of a domain start over. -/
def Domain.restart (d : Domain) : Domain :=
  { d with
    offset := none, path := none, run := 0, lockRun := 0, sync := none, measured := false, slot := none, fit := none
    req := none }

/-- A domain moves to its other port: the path delay is measured again before an offset is used (R401). What the domain has
measured and its state stay (R403). -/
def Domain.moved (d : Domain) : Domain := { d with second := !d.second, path := none, sync := none, measured := false, req := none }

/-- A domain leaves QUALIFIED (R403). -/
def domDrop (k : Nat) (s : State) : State :=
  let d := domGet k s
  if d.st = 0 ∨ d.st = 4 then s
  else domSet k { d with st := if d.leader.isSome then 2 else 1, run := 0, lockRun := 0 } s

/-! ### Messages -/

/-- Signed 64-bit correctionField of a message, in 2^-16 ns. -/
def ptpCorr (m : List Nat) : Int := signExt 64 (be (slice 8 8 m))

/-- The timestamp in a message body, in 2^-16 ns. -/
def ptpStamp (m : List Nat) : Int := ((be (slice 34 6 m) * 10 ^ 9 + be (slice 40 4 m)) * 2 ^ 16 : Nat)

/-- Message types that the T6144 processes (R395). -/
def ptpKnown (m : List Nat) : Bool :=
  decide (44 ≤ m.length) && decide (nth 0 m 1 % 16 = 2) && [0, 1, 8, 9, 0xB].contains (nth 0 m 0 % 16)

/-- The PTP message of a stored frame, where UDP to 224.0.1.129 carried it (R395). -/
def ptpMessage (f : List Nat) : Option (List Nat) :=
  (udpOf f).bind (fun u => if u.dst = 0xE0000181 then some (udpBody f) else none)

/-- The frame at the head of a port's PTP queue as the command's message type. Frames that are marked ERROR or are poisoned are
released unused; an unsupported frame is discarded and counted (R395); a message of another type waits. Answers the message and
its ingress counter value. -/
def ptpTake (port type : Nat) (s : State) : Option (List Nat × Nat) × State :=
  let n := pnGet port s
  let q := n.ptpQ.settle (fun p => p.error || p.poison)
  let s := pnSet port { n with ptpQ := q } s
  match q.next with
  | (none, _) => (none, s)
  | (some p, rest) =>
    let s' := pnSet port { n with ptpQ := rest } s
    match ptpMessage p.frame with
    | some m =>
      if !ptpKnown m then (none, count 0x100C0090 0 1 s')
      else if nth 0 m 0 % 16 = type then (some (m, p.stamp), s')
      else (none, s)
    | none => (none, count 0x100C0090 0 1 s')

/-- Ingress time of a message in 2^-16 ns: the counter at the timestamp point less INGRESS (R394). -/
def ingressTime (s : State) (port ts : Nat) : Int :=
  (extended s ts / 2 ^ 16 : Nat) - (nth 0 s.img.ptp.ingress port * 2 ^ 16 : Nat)

/-- Egress time in 2^-32 ns: the counter plus EGRESS (R394). -/
def egressTime (s : State) (port ts : Nat) : Nat := extended s ts + nth 0 s.img.ptp.egress port * 2 ^ 32

/-- The rank of an announced data set: priority1, clockQuality, priority2, grandmasterIdentity, stepsRemoved, sender. -/
def announceRank (m : List Nat) : Nat := be (slice 47 14 m ++ slice 61 2 m ++ slice 20 10 m)

/-- The clockIdentity of a port: its MAC address with 0xFF and 0xFE after the third octet (R399). -/
def clockId (s : State) (port : Nat) : List Nat :=
  let m := beBytes 6 (netCfg s port).mac
  m.take 3 ++ [0xFF, 0xFE] ++ m.drop 3

/-- The unit can lead a domain: R409, and R410 for a leader whose PPS_IN is lost. -/
def mayLead (s : State) (d : Domain) : Bool := s.img.ptp.leaderEn && s.twin.acts && (s.time.ppsOk || decide (d.st = 4))

/-- clockClass that this unit announces: 7 while PPS_IN is lost (R399, R410). -/
def ownClass (s : State) : Nat := if s.time.ppsOk then s.img.ptp.clockClass else 7

/-- The rank that this unit announces on a port. -/
def ownRank (s : State) (port : Nat) : Nat :=
  let p := s.img.ptp
  be ([p.prio1, ownClass s, p.accuracy] ++ beBytes 2 p.variance ++ [p.prio2] ++ clockId s port ++ [0, 0]
    ++ clockId s port ++ [0, 1])

/-- Local time in 2^-16 ns. -/
def timeNow (s : State) : Int := (extended s s.time.cnt / 2 ^ 16 : Nat)

/-- A foreign leader qualifies with two Announce messages in a window of four announce intervals (IEEE 1588-2019); the chosen
leader stays until its announce receipt timeout. -/
def Foreign.qualified (now len : Int) (leader : Option Nat) (f : Foreign) : Bool :=
  decide (leader = some f.ident) || (match f.before with | some b => decide (now - b ≤ 4 * len) | none => false)

/-- The best foreign leader that qualifies. -/
def bestForeign (s : State) (k : Nat) : Option Foreign :=
  let d := domGet k s
  (d.foreign.filter (Foreign.qualified (timeNow s) (intervalOf (domCfg s k).logAnnounce) d.leader)).foldl (fun a f =>
    match a with | some b => if f.rank < b.rank then some f else some b | none => some f) none

/-- A domain's grandmaster: a change of its identity is counted and raised (R405). -/
def domGm (k gm : Nat) (s : State) : State :=
  let d := domGet k s
  let s' := domSet k { d with gm := gm } s
  if d.gm = 0 ∨ d.gm = gm then s'
  else raise 0x5A k (count 0x100C0084 0 1 { s' with time := { s'.time with gmChange := true } })

/-- The domain's leader is this unit, and the grandmaster its own clock. -/
def domLead (k : Nat) (s : State) : State :=
  let d := domGet k s
  domGm k (be (clockId s (domPort s k))) (if d.st = 4 then s else domSet k { d.restart with st := 4, leader := none } s)

/-- The best master clock decision of a domain (R402, R405, R409): this unit leads where no qualified leader is better; a leader
of its own identity is its partner, which has ceased to act. With no leader in sight a domain listens until the announce receipt
timeout has passed (`expired`). -/
def domDecide (expired : Bool) (k : Nat) (s : State) : State :=
  let d := domGet k s
  let can := mayLead s d
  if (domCfg s k).profile = 0 then s
  else match bestForeign s k with
  | none => if can && (expired || decide (d.st = 4)) then domLead k s else domSet k { d with st := 1, leader := none } s
  | some f =>
    if can && decide (ownRank s (domPort s k) ≤ f.rank) then domLead k s
    else
      let d := if d.leader = some f.ident then d else { d.restart with leader := some f.ident }
      domGm k f.gm (domSet k { d with st := if d.st = 3 then 3 else 2 } s)

/-- A port's link changed: a domain runs on its primary port, and on its secondary while only that one's link is up (R401). With
neither up it has no leader (R403). A leader that moves is judged again. -/
def domLink (k : Nat) (s : State) : State :=
  let c := domCfg s k
  let d := domGet k s
  let up := fun p => (pnGet p s).link
  let secUp := (c.portS.map up).getD false
  if c.profile = 0 then s
  else if up c.portP || secUp then
    if d.second = up c.portP then
      let s := domSet k d.moved s
      if d.st = 4 then domDecide false k s else s
    else s
  else domSet k { d.restart with st := 1, leader := none, foreign := [] } s

/-- An Announce that can name a leader: fewer than 255 steps removed (IEEE 1588-2019). -/
def announceOk (m : List Nat) : Bool := decide (64 ≤ m.length) && decide (be (slice 61 2 m) < 255)

/-- PTP_ANNOUNCE (R395): the foreign leaders heard within four announce intervals are kept. -/
def ptpAnnounce (port : Nat) (s : State) : State :=
  match ptpTake port 0xB s with
  | (none, s) => s
  | (some (m, ts), s) =>
    match domOf s port (nth 0 m 4) with
    | none => s
    | some k =>
      if !announceOk m then s
      else
        let d := domGet k s
        let id := be (slice 20 10 m)
        let now := ingressTime s port ts
        let len := intervalOf (domCfg s k).logAnnounce
        let before := (d.foreign.find? (fun f => decide (f.ident = id))).map Foreign.last
        let fs := d.foreign.filter (fun f =>
          decide (f.ident ≠ id) && (decide (d.leader = some f.ident) || decide (now - f.last ≤ 4 * len)))
        domDecide false k (domSet k { d with foreign := fs ++ [⟨id, announceRank m, be (slice 53 8 m), now, before⟩] } s)

/-- A Sync measurement: t1 and t2 in 2^-16 ns (R403, R404, R408, R416). It counts in the half-open Sync interval in which its t2
lies (R397); an interval without one breaks a run, and four of them in a row leave QUALIFIED, as does a path delay older than 16
delay-request intervals. -/
def ptpMeasure (k : Nat) (t1 t2 : Int) (s : State) : State :=
  let d := domGet k s
  let p := s.img.ptp
  let c := domCfg s k
  let known := d.measured && decide (t1 ≠ d.t1)
  let rate := if known then rhu (((t2 - d.t2) - (t1 - d.t1)) * 256 * 10 ^ 9) (t1 - d.t1).natAbs else d.rate
  let fit := if known then some (s.time.inc * (256 * 10 ^ 9) / (256 * 10 ^ 9 + rate).toNat) else d.fit
  let d := { d with t1 := t1, t2 := t2, measured := true, rate := rate, fit := fit }
  match d.path with
  | none => domSet k d s
  | some path =>
    let off := t2 - t1 - path
    let ns := off.natAbs
    let i := intervalAt c.logSync t2
    let gap := match d.slot with | some j => i - j | none => 2
    let age := intervalAt c.logDelayReq t2 - intervalAt c.logDelayReq d.pathAt
    let near := match d.offset with | some o => decide ((off - o).natAbs ≤ p.unlockNs * 2 ^ 16) | none => true
    let next := fun (ok : Bool) (n : Nat) => if !ok then 0 else if gap = 0 then max 1 n else if gap = 1 then min 16 (n + 1) else 1
    let st := if d.st = 3 && (decide (4 < gap) || decide (16 < age)) then 2 else d.st
    let run := next (near && decide (age ≤ 8)) d.run
    let st := if st = 2 && decide (16 ≤ run) then 3 else st
    let inLock := decide (ns ≤ p.lockNs * 2 ^ 16) && decide (st = 3)
    let s' := domSet k { d with
      offset := some off, run := run, st := st, slot := some i, lockRun := next inLock d.lockRun
      unlock := d.unlock || decide (p.unlockNs * 2 ^ 16 < ns) } s
    if s.time.lock && decide (s.time.sel = some k) && decide (gap ≠ 0) then
      { s' with time := { s'.time with incs := (s.time.inc :: s.time.incs).take 64 } } else s'

/-- The message comes from the domain's chosen leader. -/
def fromLeader (d : Domain) (m : List Nat) : Bool := decide (d.leader = some (be (slice 20 10 m)))

/-- PTP_SYNC (R395, R396): one-step, or the first of two steps. -/
def ptpSync (port : Nat) (s : State) : State :=
  match ptpTake port 0 s with
  | (none, s) => s
  | (some (m, ts), s) =>
    match domOf s port (nth 0 m 4) with
    | none => s
    | some k =>
      let d := domGet k s
      if !fromLeader d m then s
      else
        let t2 := ingressTime s port ts
        let two := bit 1 (nth 0 m 6)
        if two then domSet k { d with twoStep := true, sync := some (be (slice 30 2 m), t2, ptpCorr m) } s
        else ptpMeasure k (ptpStamp m + ptpCorr m) t2 (domSet k { d with twoStep := false, sync := none } s)

/-- PTP_FOLLOW_UP (R395). -/
def ptpFollowUp (port : Nat) (s : State) : State :=
  match ptpTake port 8 s with
  | (none, s) => s
  | (some (m, _), s) =>
    match domOf s port (nth 0 m 4) with
    | none => s
    | some k =>
      let d := domGet k s
      match d.sync with
      | some (seq, t2, corr) =>
        if fromLeader d m && decide (seq = be (slice 30 2 m)) then
          ptpMeasure k (ptpStamp m + ptpCorr m + corr) t2 (domSet k { d with sync := none } s)
        else s
      | none => s

/-- A PTP message header (34 bytes): type, length, domain, flags, correction, sequence, logMessageInterval. -/
def ptpHeader (id : List Nat) (type len domain flags : Nat) (corr : Int) (seq : Nat) (log : Int) : List Nat :=
  [type, 2] ++ beBytes 2 len ++ [domain, 0] ++ beBytes 2 flags ++ beBytes 8 (pattern 64 corr) ++ [0, 0, 0, 0]
    ++ id ++ [0, 1] ++ beBytes 2 seq
    ++ [match type with | 0 => 0 | 1 => 1 | 8 => 2 | 9 => 3 | _ => 5, pattern 8 log]

/-- A PTP message of domain slot `k` over UDP on 224.0.1.129. -/
def ptpFrame (s : State) (k port udpPort : Nat) (m : List Nat) : List Nat :=
  udpFrame (groupMac 0xE0000181) (netCfg s port).mac (domCfg s k).vlan (domCfg s k).dscp 1 (portAddr s port) 0xE0000181 udpPort udpPort m

/-- A timestamp of T in nanoseconds: 6 bytes of seconds and 4 of nanoseconds (R390). -/
def stampBytes (ns : Nat) : List Nat := beBytes 6 (ns / 10 ^ 9) ++ beBytes 4 (ns % 10 ^ 9)

/-- PTP_DELAY_REQ (R395): a leader answers with Delay_Resp. -/
def ptpDelayReq (port : Nat) (s : State) : State :=
  match ptpTake port 1 s with
  | (none, s) => s
  | (some (m, ts), s) =>
    match domOf s port (nth 0 m 4) with
    | none => s
    | some k =>
      if (domGet k s).st ≠ 4 then s
      else
        let t := ingressTime s port ts
        let ns := (t / 2 ^ 16).toNat
        let body := ptpHeader (clockId s port) 9 54 (domCfg s k).domain 0 (ptpCorr m - t % 2 ^ 16) (be (slice 30 2 m)) (domCfg s k).logDelayReq
          ++ stampBytes ns ++ slice 20 10 m
        sendFrame port (ptpFrame s k port 320 body) s

/-- PTP_DELAY_RESP (R395): the mean path delay. -/
def ptpDelayResp (port : Nat) (s : State) : State :=
  match ptpTake port 9 s with
  | (none, s) => s
  | (some (m, _), s) =>
    match domOf s port (nth 0 m 4) with
    | none => s
    | some k =>
      let d := domGet k s
      match d.req with
      | some (seq, t3) =>
        if fromLeader d m && decide (seq = be (slice 30 2 m)) && decide (slice 44 8 m = clockId s port)
            && d.measured then
          let t4 := ptpStamp m - ptpCorr m
          domSet k { d with path := some (rhu ((d.t2 - d.t1) + (t4 - t3)) 2), pathAt := t3, req := none } s
        else s
      | none => s

/-- DELAY_REQ_SEND (R403): `ts` is the counter at the timestamp point of its departure. -/
def delayReqSend (k ts : Nat) (s : State) : State :=
  let d := domGet k s
  let port := domPort s k
  if d.st = 2 ∨ d.st = 3 then
    let body := ptpHeader (clockId s port) 1 44 (domCfg s k).domain 0 0 d.reqSeq 127 ++ List.replicate 10 0
    sendFrame port (ptpFrame s k port 319 body) (domSet k { d with
      req := some (d.reqSeq, (egressTime s port ts / 2 ^ 16 : Nat)), reqSeq := (d.reqSeq + 1) % 65536 } s)
  else s

/-- SYNC_SEND (R396): one-step, originTimestamp and the fraction written as the frame leaves. -/
def syncSend (k ts : Nat) (s : State) : State :=
  let d := domGet k s
  let port := domPort s k
  if d.st = 4 && s.img.ptp.leaderEn && s.twin.acts then
    let e := egressTime s port ts
    let body := ptpHeader (clockId s port) 0 44 (domCfg s k).domain 0 ((e % 2 ^ 32 / 2 ^ 16 : Nat)) d.syncSeq (domCfg s k).logSync
      ++ stampBytes (e / 2 ^ 32)
    sendFrame port (ptpFrame s k port 319 body) (domSet k { d with syncSeq := (d.syncSeq + 1) % 65536 } s)
  else s

/-- ANNOUNCE_SEND (R409, R410): clockClass 7 while PPS_IN is lost. -/
def announceSend (k : Nat) (s : State) : State :=
  let d := domGet k s
  let p := s.img.ptp
  let port := domPort s k
  if d.st = 4 && p.leaderEn && s.twin.acts then
    let body := ptpHeader (clockId s port) 0xB 64 (domCfg s k).domain 0x003C 0 d.annSeq (domCfg s k).logAnnounce
      ++ List.replicate 10 0 ++ beBytes 2 p.utcOffset ++ [0, p.prio1, ownClass s, p.accuracy] ++ beBytes 2 p.variance ++ [p.prio2]
      ++ clockId s port ++ [0, 0, 0x20]
    sendFrame port (ptpFrame s k port 320 body) (domSet k { d with annSeq := (d.annSeq + 1) % 65536 } s)
  else s

/-- ANNOUNCE_TIMEOUT (R403): the chosen leader is gone. -/
def announceTimeout (k : Nat) (s : State) : State :=
  let d := domGet k s
  if d.st = 2 ∨ d.st = 3 then
    let fs := d.foreign.filter (fun f => decide (d.leader ≠ some f.ident))
    domDecide true k (domSet k { d.restart with foreign := fs, leader := none, st := 1 } s)
  else if d.st = 1 then domDecide true k s
  else s

/-- SYNC_TIMEOUT (R403). -/
def syncTimeout (k : Nat) (s : State) : State :=
  let d := domGet k s
  if d.st = 2 ∨ d.st = 3 then domDrop k (domSet k { d with measured := false } s) else s

/-! ### PPS -/

/-- The second boundary nearest a time in 2^-32 ns, in seconds. -/
def nearestSecond (t : Nat) : Nat := (t / 2 ^ 32 + 500000000) / 10 ^ 9

/-- PPS_IN is lost (R410). -/
def ppsLost (s : State) : State :=
  let s' := { s with time := { s.time with ppsRun := 0, ppsOk := false } }
  if s.time.ppsOk then raise 0x5D 0 { s' with time := { s'.time with ppsLoss := true } } else s'

/-- An edge of the selected polarity at counter value `ts` (R410): its distance from the edge before lies in the half-open window
[10^9 − 1,000, 10^9 + 1,000) ns (R397). -/
def ppsEdge (ts : Nat) (s : State) : State :=
  let t := extended s ts
  let ok := match s.time.ppsAt with
    | some a =>
      let x := (t : Int) - a - 10 ^ 9 * 2 ^ 32
      decide (-1000 * 2 ^ 32 ≤ x) && decide (x < 1000 * 2 ^ 32)
    | none => false
  let s := if ok || s.time.ppsAt.isNone then s else ppsLost s
  let run := if ok then min 8 (s.time.ppsRun + 1) else 0
  let s := { s with time := { s.time with ppsAt := some t, ppsRun := run, ppsOk := s.time.ppsOk || decide (8 ≤ run) } }
  let sec := if s.time.todSet && !s.grid.running then rget 0x100C006C 0 s else nearestSecond t
  let off : Int := t - (sec * 10 ^ 9 * 2 ^ 32 : Nat)
  if !s.grid.running && s.img.ptp.leaderEn && s.time.sel.isNone then
    let now : Int := (extended s s.time.cnt : Nat) - off
    let s := setTime now.toNat s
    { s with time := { s.time with ppsAt := some (sec * 10 ^ 9 * 2 ^ 32), ppsOffset := 0, todSet := false } }
  else { s with time := { s.time with ppsOffset := rhu off (2 ^ 32) } }

/-! ### Ticks -/

/-- The unit leads in at least one domain. -/
def leads (s : State) : Bool := s.time.dom0.st = 4 || s.time.dom1.st = 4

/-- The domain is QUALIFIED. -/
def domQual (s : State) (k : Nat) : Bool := decide ((domGet k s).st = 3)

/-- The selection of R406. -/
def selectDomain (s : State) : Option Nat :=
  let f := rget 0x100C0060 0 s % 4
  let pref := s.img.ptp.preferred
  if (f = 1 || f = 2) && domQual s (f - 1) then some (f - 1)
  else match s.time.sel with
    | some k =>
      if domQual s k then (if s.img.ptp.revertive && domQual s pref then some pref else some k)
      else if domQual s pref then some pref else if domQual s (1 - pref) then some (1 - pref) else none
    | none => if domQual s pref then some pref else if domQual s (1 - pref) then some (1 - pref) else none

/-- |offset| of a domain in 2^-16 ns, as an upper bound where none is measured. -/
def offsetAbs (d : Domain) : Nat := (d.offset.map Int.natAbs).getD (2 ^ 64)

/-- The lock state at a tick (R408, R410), with the selection `sel` just made. -/
def lockNow (s : State) (sel : Option Nat) : Bool :=
  let p := s.img.ptp
  if leads s then s.time.ppsOk && decide (s.time.ppsOffset.natAbs ≤ p.lockNs)
  else match sel with
    | none => false
    | some k =>
      let d := domGet k s
      if s.time.lock then
        !d.unlock && (match s.time.sel with
          | some j => domQual s j && (decide (j = k) || decide (offsetAbs d ≤ p.lockNs * 2 ^ 16))
          | none => decide (offsetAbs d ≤ p.lockNs * 2 ^ 16))
      else decide (16 ≤ d.lockRun)

/-- The mean of INC over the last 64 locked Sync intervals, rounded (R416). -/
def meanInc (l : List Nat) (inc : Nat) : Nat :=
  if l.isEmpty then inc else (2 * l.foldl (· + ·) 0 + l.length) / (2 * l.length)

/-- Selection, lock and holdover at a block tick (R406, R408, R415 to R417). -/
def lockTick (s : State) : State :=
  let t0 := s.time
  let sel := selectDomain s
  let lock := lockNow s sel
  let hold := if leads s then !t0.ppsOk else sel.isNone
  let moved := sel.isSome && t0.sel.isSome && decide (sel ≠ t0.sel)
  let enter := hold && !t0.holdover
  let s := { s with time := { t0 with
    sel := sel, lock := lock, holdover := hold
    dom0 := { t0.dom0 with unlock := false }, dom1 := { t0.dom1 with unlock := false }
    lockChange := t0.lockChange || decide (lock ≠ t0.lock), switched := t0.switched || moved
    heldFor := if enter then 0 else if hold then t0.heldFor + s.B else t0.heldFor } }
  let s := if enter then setInc (meanInc t0.incs t0.inc) s else s
  let s := if moved then raiseTick 0x5B (sel.getD 0) (count 0x100C0080 0 1 s) else s
  let s := if lock ≠ t0.lock then raiseTick 0x5C 0 s else s
  let s := if enter then raiseTick 0x5E 0 (count 0x100C0088 0 1 s) else s
  if lock then s else lapseTick s

/-- The media phase error at the tick of the current block (R412, R413): answers whether it is a phase fault. -/
def mediaTick (s : State) : Bool × State :=
  let t := extended s s.time.cnt
  let n := s.B * s.grid.block
  let x : Int := (t * s.fs : Nat) - (n * 10 ^ 9 * 2 ^ 32 : Nat)
  let e := rhu (x * 16) ((s.fs * 2 ^ 32 : Nat))
  let far := decide (1000 * (s.fs * 2 ^ 32) < x.natAbs)
  let run := if far then s.time.mediaRun + 1 else 0
  let fault := decide (run = 16)
  let s := { s with time := { s.time with tick := t / 2 ^ 32, mediaErr := satBits 32 e, mediaRun := min run 16 } }
  (fault && far, if fault then raiseTick 0x5F 0 s else s)

/-! ### Registers -/

/-- PTP.STATUS. -/
def ptpStatus (s : State) : Nat :=
  let t := s.time
  bitIf t.lock 0 + bitIf t.holdover 1 + bitIf (t.sel.isSome && !t.lock && !t.holdover) 2 + bitIf (leads s) 3
    + (t.sel.getD 0) * 16 + bitIf t.ppsOk 5 + bitIf t.lockChange 8 + bitIf t.switched 9 + bitIf t.gmChange 10
    + bitIf t.ppsLoss 11

/-- A value in 2^-16 ns as whole nanoseconds, signed and saturating. -/
def nsWord (v : Option Int) : Nat := pattern 32 (satBits 32 (rhu (v.getD 0) (2 ^ 16)))

/-- The RO registers of the PTP block for the selected domain. -/
def ptpReg (off k : Nat) (s : State) : Nat :=
  let t := s.time
  let p := s.img.ptp
  let d := domGet k s
  match off with
  | 0x00 => if t.valid then
      bitIf (decide ((domCfg s 0).profile ≠ 0)) 0 + bitIf (decide ((domCfg s 1).profile ≠ 0)) 1 + bitIf p.leaderEn 2
        + bitIf p.revertive 3 + p.preferred * 16 + 2 ^ 31 else 0
  | 0x04 => t.recordErr
  | 0x08 => ptpStatus s
  | 0x10 => t.cnt / 2 ^ 32
  | 0x14 => if halfOf t.cnt = 0 then t.epoch0 else t.epoch1
  | 0x18 => t.cnt % 2 ^ 32
  | 0x24 => t.epoch0
  | 0x28 => t.epoch1
  | 0x2C => halfOf t.cnt + bitIf t.armed0 1 + bitIf t.armed1 2 + bitIf t.stale 3 + bitIf t.badWrite 4
  | 0x44 => d.st + bitIf d.second 3 + bitIf d.twoStep 4 + (domCfg s k).domain * 256
  | 0x48 => nsWord d.offset
  | 0x4C => pattern 32 (satBits 32 d.rate)
  | 0x50 => nsWord d.path
  | 0x54 => d.gm % 2 ^ 32
  | 0x58 => d.gm / 2 ^ 32 % 2 ^ 32
  | 0x64 => pattern 32 t.mediaErr
  | 0x68 => t.heldFor / s.fs % 2 ^ 32
  | 0x70 => t.tick % 2 ^ 32
  | 0x74 => t.tick / 2 ^ 32 % 2 ^ 32
  | _ => 0

/-- Writes of 1 to the W1C bits of PTP.STATUS and PTP.EPOCH_STATUS. -/
def ptpW1c (off v : Nat) (s : State) : State :=
  let t := s.time
  if off = 0x08 then
    { s with time := { t with
      lockChange := t.lockChange && !bit 8 v, switched := t.switched && !bit 9 v, gmChange := t.gmChange && !bit 10 v
      ppsLoss := t.ppsLoss && !bit 11 v } }
  else if off = 0x2C then
    { s with time := { t with stale := t.stale && !bit 3 v, badWrite := t.badWrite && !bit 4 v } }
  else s

end Sys2Proof.Machine
end

