-- ==== Sys2Proof/Machine/Twin.lean ====
section
/-!
DEFINITION. Twin operation (chapter 09): acting, the token and the lease, hand-over, emission, the handshake, loss of the
link, take-back and the health record.
-/
namespace Sys2Proof.Machine

/-! ### Time of the SAFE domain -/

/-- The SAFE counter stands at `n`, or where it stood when that is later (R518: it never runs backwards). -/
def setSafe (n : Nat) (s : State) : State := { s with clk := { s.clk with safe := max s.clk.safe n } }

/-- The 44.1 kHz family runs. -/
def slowRate (s : State) : Bool := decide (s.img.rate % 2 = 0)

/-- LEASE_LIMIT (R315) and the own-lease guard (R312). -/
def leaseLimit (s : State) : Nat := if slowRate s then 71054 else 65280
def ownGuard (s : State) : Nat := if slowRate s then 45511 else 41813

/-! ### Roles and emission -/

/-- A partner is present (R307). -/
def hasPartner (s : State) : Bool := s.img.twin.pair && decide (s.twin.peer ≠ 7)

/-- STATE as heartbeat, LEASE and HELLO frames carry it. -/
def stateCode (s : State) : Nat := if s.twin.starting then 15 else s.twin.st

/-- The partner is LATENT and in register, as a holder sees it (R323, R334). -/
def peerInRegister (s : State) : Bool := decide (s.twin.peer = 1) && !s.twin.divergent && linkOk s

/-- TWIN.STATE.IN_REGISTER. -/
def inRegister (s : State) : Bool :=
  if s.twin.starting then false
  else if s.twin.acts then peerInRegister s else decide (s.twin.st = 1) && !s.twin.divergent

/-- Emission on networks A and B in the unit's state (table "Emission by state"). -/
def emissionOf (s : State) : Bool × Bool :=
  if s.twin.starting then (false, false)
  else if s.twin.acts then (if s.twin.st = 2 && peerInRegister s then (true, false) else (true, true))
  else if s.twin.st = 1 && !s.twin.divergent && linkOk s then (false, true)
  else (false, false)

/-- Emission from the packets whose first index is at or after that of block `e` (R324). -/
def emitFrom (e : Nat) (a b : Bool) (s : State) : State :=
  { s with twin := { s.twin with emitLog := lastN 16 (s.twin.emitLog.filter (fun x => decide (x.1 < s.B * e))) ++ [(s.B * e, a, b)] } }

/-- Emission follows the unit's state from block `e` on. -/
def emitByState (e : Nat) (s : State) : State :=
  let (a, b) := emissionOf s
  let s := emitFrom e a b s
  { s with twin := { s.twin with emitA := a, emitB := b, emitAt := none } }

/-- A change of emission named for block `e` (R324). -/
def emitPlan (e : Nat) (a b : Bool) (s : State) : State :=
  let s := emitFrom e a b s
  { s with twin := { s.twin with emitAt := some (e, a, b) } }

/-- Emission of a unit that leaves a standby state: a LATENT unit emits on network B until the block that the holder names in
CONTROL EMIT (R324), any other unit by its new state. -/
def emitLeave (before s : State) : State :=
  if before.twin.st = 1 && !before.twin.acts && (emissionOf before).2 then s else emitByState (s.grid.block + 1) s

/-- EMISSION_CHANGE: the named block has come. -/
def emissionChange (s : State) : State :=
  match s.twin.emitAt with
  | some (e, a, b) =>
    if e ≤ s.grid.block then { s with twin := { s.twin with emitA := a, emitB := b, emitAt := none } } else s
  | none => s

/-- The holder names the block from which network B moves when its partner enters or leaves register (R324). -/
def peerMoved (before : Bool) (s : State) : State :=
  if !s.twin.acts || !s.grid.running || before = peerInRegister s then s
  else
    let e := s.grid.block + 3
    let inR := peerInRegister s
    controlSend 0x08 (beBytes 8 e ++ [bitIf (!inR) 0 + bitIf inR 1, 0, 0, 0]) (emitPlan e true (!inR) s)

/-! ### Acting -/

/-- The unit stops acting (R310): it is no PTP leader any more. -/
def stopActing (s : State) : State :=
  let s := { s with twin := { s.twin with acts := false } }
  (List.range 2).foldl (fun s k => if (domGet k s).st = 4 then domDecide false k s else s) s

/-- The unit begins to act at the tick of the current block (R310, R443): its tenure begins, and the PTP leader decision is
taken anew (R321). -/
def startActing (s : State) : State :=
  let s := leadersTakeover { s with twin := { s.twin with
    acts := true, tenure := s.grid.block, expired := false, releaseAt := none, hoAck := none, hoSeen := false
    dualRun := false, renewAt := s.clk.safe } }
  (List.range 2).foldl (fun s k => domDecide false k s) s

/-! ### Heartbeat line -/

/-- CRC-8 with polynomial 0x07 over bytes. -/
def crc8 (l : List Nat) : Nat :=
  l.foldl (fun c b => (List.range 8).foldl (fun c _ => if c / 128 = 1 then (c * 2 % 256) ^^^ 7 else c * 2 % 256) (c ^^^ b)) 0

/-- FLAGS.HANDOVER: the hand-over is acknowledged and this is block h − 1 (R320). -/
def handoverFlag (s : State) : Bool :=
  match s.twin.handover with
  | some v => decide (2 ≤ v.step) && decide (s.grid.block + 1 = v.h)
  | none => false

/-- FLAGS of the heartbeat and LEASE frames. A unit that acts in a pair renews its lease (R314). -/
def hbFlags (s : State) : Nat :=
  bitIf (s.twin.acts && s.img.twin.pair) 0 + bitIf s.twin.releasing 1 + bitIf (handoverFlag s) 2 + bitIf s.twin.home 3
    + bitIf (inRegister s) 4 + bitIf s.twin.divergent 5 + bitIf (!s.twin.linkUp) 6

/-- A heartbeat frame's word (table "Heartbeat frame"). -/
def hbFrame (st flags block seq : Nat) : Nat :=
  let mid := st % 16 * 2 ^ 44 + flags % 256 * 2 ^ 36 + block % 65536 * 2 ^ 20 + seq % 4096 * 2 ^ 8
  0xD5 * 2 ^ 56 + mid * 2 ^ 8 + crc8 (beBytes 6 mid)

/-- A heartbeat frame is sent. -/
def hbSend (s : State) : State :=
  { s with twin := { s.twin with
    hbWord := hbFrame (stateCode s) (hbFlags s) s.grid.block s.twin.hbSeq, hbSeq := (s.twin.hbSeq + 1) % 4096 } }

/-- The payload of a LEASE frame (R302, R314). -/
def leaseBytes (s : State) : List Nat :=
  [stateCode s, hbFlags s, 0, 0] ++ beBytes 8 s.grid.block ++ beBytes 8 s.twin.tenure ++ [0, 0, 0, 0]

/-- The frames sent at a block tick (R305, R314): they show the unit as `v`, which is the unit as the twin actions of this tick
leave it. -/
def tickFrames (v s : State) : State :=
  let s := { s with twin := { s.twin with
    hbWord := hbFrame (stateCode v) (hbFlags v) s.grid.block s.twin.hbSeq, hbSeq := (s.twin.hbSeq + 1) % 4096 } }
  let s := if v.twin.acts && s.img.twin.pair then
      let t := linkSend 0x01 (leaseBytes v) s
      { t with twin := { t.twin with renewAt := s.clk.safe } } else s
  { s with twin := { s.twin with releasing := false } }

/-- HEARTBEAT_TIMER: while audio is not running a frame starts every 21,333 SAFE cycles (R305). -/
def heartbeatTimer (safe : Nat) (s : State) : State :=
  let s := setSafe safe s
  if s.grid.running || s.clk.inReset then s else hbSend s

/-! ### The token -/

/-- An acting unit with a partner releases the token (R317): `fault` is the row of the table, 1 to 5. -/
def tokenRelease (fault : Nat) (s : State) : State :=
  if !s.twin.acts || !hasPartner s then s
  else
    let h := s.grid.block + 1
    let s := stopActing s
    let s := { s with twin := { s.twin with st := 3, phase := 0, releasing := true, handover := none } }
    let s := controlSend 0x05 (beBytes 8 h ++ [fault, 0, 0, 0]) (hbSend s)
    let s := emitByState h s
    raise 0x44 0 (logEntry 6 fault s)

/-- A LATENT unit meets a fault of the same table (R307). -/
def latentFault (s : State) : State :=
  if s.twin.st = 1 && !s.twin.starting then
    emitLeave s { s with twin := { s.twin with st := 3, phase := 0 } }
  else s

/-- A fault of the table in a unit of either role. -/
def tokenFault (fault : Nat) (s : State) : State := if s.twin.acts then tokenRelease fault s else latentFault s

/-- A poison burst releases the token (R502, R317). -/
def burstCheck (s : State) : State := if poisonBurst s then tokenFault 4 s else s

/-- The unit leaves a standby state and takes the token (R307, R315): `alone` when the lease expired. -/
def takeToken (alone : Bool) (s : State) : State :=
  let s := if s.twin.st = 1 then s else raiseTick 0x41 0 s
  let s := if alone then raiseTick 0x40 0 s else s
  let s := { s with twin := { s.twin with
    st := if alone then 0 else 2, peer := if alone then 7 else 3, hello := if alone then [] else s.twin.hello
    phase := 0 } }
  emitByState s.grid.block (startActing s)

/-- The unit is a standby unit: it holds a state and does not act. -/
def standby (s : State) : Bool :=
  s.img.twin.pair && !s.twin.starting && !s.twin.acts && (s.twin.st = 1 || s.twin.st = 3 || s.twin.st = 4)

/-- LEASE_EXPIRY (R315): the count of SAFE cycles reaches TWIN.LEASE_LIMIT. -/
def leaseExpiry (s : State) : State :=
  if standby s then setSafe (s.twin.leaseAt + leaseLimit s) { s with twin := { s.twin with expired := true } } else s

/-- TAKEOVER: the first tick after the expiry (R315). -/
def takeover (s : State) : State := if s.twin.expired && standby s && s.grid.running then takeToken true s else s

/-- OWN_LEASE_GUARD (R312): the own last renewal has become older than the guard. -/
def leaseGuard (s : State) : State :=
  if s.twin.acts && s.img.twin.pair then stopActing (setSafe (s.twin.renewAt + ownGuard s + 1) s) else s

/-- HEARTBEATS_MISSING (R307): no frame of the partner on either path for the lease term. A holder whose guard has acted does
not act, and stays so: DEDUCED (assumption 46). -/
def heartbeatsMissing (s : State) : State :=
  if s.twin.st = 2 && s.twin.acts && !s.twin.starting then
    let s := setSafe (max s.twin.linkAt (s.twin.hbAt.getD 0) + leaseLimit s) s
    emitByState (s.grid.block + 1) { s with twin := { s.twin with st := 0, peer := 7, hello := [], handover := none } }
  else s

/-! ### Resync entry -/

/-- The unit enters RESYNC (R307, R334 to R338): `joint` on the joint-start path, with no slices. -/
def enterResync (joint : Bool) (s : State) : State :=
  let s := emitLeave s { s with twin := { s.twin with
    st := 4, matchRun := 0, phase := if joint then 5 else 1, level := 0, slice := 0, pieces := [], bulkEnd := none
    relayLog := [], parts := [] } }
  if joint then s else controlSend 0x09 [] s

/-- The unit enters SUSPECT (R339). -/
def enterSuspect (s : State) : State := emitLeave s { s with twin := { s.twin with st := 3, phase := 0 } }

/-- The unit enters LATENT (R338). -/
def enterLatent (s : State) : State :=
  { s with twin := { s.twin with st := 1, phase := 0, latentAt := s.grid.block } }

/-! ### Two holders -/

/-- This unit's die identifier, 64 bits. -/
def ownDie : Nat := Config.dieId % 2 ^ 64

/-- R308's choice between two units: this one wins. -/
def winsStart (s : State) : Bool :=
  if s.twin.home = s.twin.peerHome then decide (ownDie < s.twin.peerDie) else s.twin.home

/-- A valid renewal of the partner (R314, R315, R322): an expiry that has come stands, and two holders raise their event once. -/
def renewal (s : State) : State :=
  let s' := { s with twin := { s.twin with leaseAt := s.clk.safe } }
  if s.twin.acts then
    let loses := decide (s.twin.peerTenure < s.twin.tenure)
      || (decide (s.twin.peerTenure = s.twin.tenure) && !winsStart s)
    let s' := { s' with twin := { s'.twin with dual := loses, dualRun := true } }
    if s.twin.dualRun then s' else raise 0x47 0 s'
  else s'

/-- A frame shows the partner not acting: two holders are over, and a tenure that it begins later is later than this unit's
(R322, which a heartbeat frame cannot show: DEDUCED, assumption 46). -/
def peerStandby (s : State) : State :=
  { s with twin := { s.twin with
    dual := false, dualRun := false
    peerTenure := if s.twin.acts then max s.twin.peerTenure (s.grid.block + 1) else s.twin.peerTenure } }

/-- Blocks that make up `n` seconds of media time. -/
def secondBlocks (n : Nat) (s : State) : Nat := (n * s.fs + s.B - 1) / s.B

/-- The blocks of a list within the last 3,600 s. -/
def lastHour (l : List Nat) (s : State) : List Nat := l.filter (fun b => decide (s.grid.block < b + 3600 * s.fs / s.B))

/-- DEGRADED clears once 3,600 s have passed with at most two unexplained divergences (R333). -/
def healthTick (s : State) : State :=
  { s with twin := { s.twin with
    degraded := s.twin.degraded && (s.twin.bistFail || decide (2 < (lastHour s.twin.unexpl s).length)) } }

/-- Work of twin operation at a block tick: a RELEASE that names this or an earlier block (R317), and the later of two
holders (R322). -/
def twinTick (s : State) : State :=
  let s := match s.twin.releaseAt with
    | some h => if standby s && decide (h ≤ s.grid.block) then takeToken false s else s
    | none => s
  if s.twin.dual then
    let s := stopActing { s with twin := { s.twin with dual := false, dualRun := false } }
    enterResync false s
  else s

/-! ### The twin link -/

/-- The link is lost for this unit (R334). -/
def linkLost (s : State) : State :=
  let s := { s with twin := { s.twin with txq := [], lost := true, phase := if s.twin.st = 4 then 0 else s.twin.phase } }
  if s.twin.acts then emitByState (s.grid.block + 1) s else s

/-- The link is restored (R334). -/
def linkRestored (s : State) : State :=
  let s := { s with twin := { s.twin with txq := [], txSeq := 0, rxSeq := 0, lost := s.twin.lost && decide (s.twin.st = 1) } }
  if s.twin.st = 4 && !s.twin.starting && !s.twin.acts && !s.twin.divergent then enterResync false s
  else peerMoved false s

/-- The receive side or the partner's LINK_DOWN changed. -/
def linkEdge (was : Bool) (s : State) : State :=
  if was = linkOk s then s else if linkOk s then linkRestored s else linkLost s

/-- TWIN_LINK_UP and TWIN_LINK_DOWN (R301). -/
def linkSide (up lane0 lane1 : Bool) (s : State) : State :=
  linkEdge (linkOk s) { s with twin := { s.twin with linkUp := up, lane0 := lane0, lane1 := lane1 } }

/-- LINK_LOSS_RESYNC: the first tick after the loss (R334), even where the link has been restored since: then the unit asks
for resync at once. -/
def linkLossTick (s : State) : State :=
  if !s.twin.lost then s
  else
    let s := { s with twin := { s.twin with lost := false } }
    if s.twin.st = 1 && !s.twin.starting && !s.twin.divergent then
      let s := { s with twin := { s.twin with st := 4, matchRun := 0, phase := 0 } }
      let s := raiseTick 0x4F 0 (emitByState s.grid.block s)
      if linkOk s then enterResync false s else s
    else s

/-! ### Frames of the partner -/

/-- FLAGS and STATE of the partner's latest frame, whose block number is `b` modulo 2^`w`. -/
def peerFlags (st flags b w : Nat) (s : State) : State :=
  let before := peerInRegister s
  let known := !s.twin.hello.isEmpty
  let s := { s with twin := { s.twin with
    peer := if !known then s.twin.peer else if st = 15 then 7 else st % 8
    peerHome := bit 3 flags } }
  let s := if known && st = 15 then { s with twin := { s.twin with hello := [] } } else s
  let s := if bit 1 flags && standby s then
      let d := (b + 2 ^ w - s.grid.block % 2 ^ w) % 2 ^ w
      let h := s.grid.block + (if d < 2 ^ (w - 1) then d else 0) + 1
      { s with twin := { s.twin with releaseAt := if s.twin.releaseAt.isSome then s.twin.releaseAt else some h } } else s
  let s := match s.twin.hoAck with
    | some h => if bit 2 flags && decide ((h - 1) % 2 ^ w = b % 2 ^ w) then
        { s with twin := { s.twin with hoSeen := true } } else s
    | none => s
  let s := if bit 0 flags && (st = 0 || st = 2) then renewal s
    else if st = 1 || st = 3 || st = 4 then peerStandby s else s
  peerMoved before s

/-- HEARTBEAT_FRAME: a frame of the heartbeat line (R305, R314, R334). -/
def heartbeatReceive (w safe : Nat) (s : State) : State :=
  let s := setSafe safe s
  let mid := w / 2 ^ 8 % 2 ^ 48
  if w / 2 ^ 56 % 256 ≠ 0xD5 || w % 256 ≠ crc8 (beBytes 6 mid) then count 0x10030080 0 1 s
  else
    let flags := mid / 2 ^ 36 % 256
    let was := linkOk s
    let s := { s with twin := { s.twin with hbAt := some s.clk.safe, peerDown := bit 6 flags } }
    linkEdge was (peerFlags (mid / 2 ^ 44) flags (mid / 2 ^ 20 % 65536) 16 s)

/-- LEASE_FRAME (R314). -/
def leaseReceive (l : List Nat) (safe : Nat) (s : State) : State :=
  let (p, s) := linkReceive 0x01 none l (setSafe safe s)
  match p with
  | none => s
  | some p =>
    peerFlags (nth 0 p 0) (nth 0 p 1) (be (slice 4 8 p)) 59
      { s with twin := { s.twin with peerTenure := be (slice 12 8 p) } }

/-! ### Hand-over -/

/-- Result of a TWIN.CMD write. -/
def cmdResult (code : Nat) (s : State) : State := { s with twin := { s.twin with cmdCode := code } }

/-- A write of TWIN.CMD is counted. -/
def cmdCount (s : State) : State := { s with twin := { s.twin with cmdSeq := (s.twin.cmdSeq + 1) % 65536 } }

/-- TWIN.CMD.RELEASE (R317). -/
def cmdRelease (s : State) : State :=
  if !s.twin.acts then cmdResult 5 s
  else if !hasPartner s then cmdResult 1 s
  else cmdResult 0 (tokenRelease 5 s)

/-- TWIN.CMD.HANDOVER (R319): the request waits for its tick. -/
def cmdHandover (master : Nat) (s : State) : State :=
  if !s.twin.acts then cmdResult 5 s
  else if !hasPartner s then cmdResult 1 s
  else
    let h := rget 0x10030010 master s + (rget 0x10030014 master s % 2 ^ 27) * 2 ^ 32
    if s.twin.hoWait.isSome then cmdResult 4 s
    else cmdResult 0 { s with twin := { s.twin with hoWait := some h } }

/-- A hand-over at `h` begins (R320), and EMIT names e = h (R324): from h this unit emits on network B where the pair is in
register, and otherwise the partner emits on both. -/
def handoverBegin (h : Nat) (s : State) : State :=
  let inR := peerInRegister s
  controlSend 0x08 (beBytes 8 h ++ [bitIf inR 0 + bitIf (!inR) 1, 0, 0, 0])
    (controlSend 0x03 (beBytes 8 h) { s with twin := { s.twin with handover := some ⟨h, 1⟩ } })

/-- HANDOVER_REGISTER: the tick after the request, which begins block c (R319). -/
def handoverRegister (s : State) : State :=
  match s.twin.hoWait with
  | none => s
  | some h =>
    let s := { s with twin := { s.twin with hoWait := none } }
    if h ≤ s.grid.block + 1 then cmdResult 3 s
    else if s.twin.peer ≠ 1 then cmdResult 2 s
    else if s.twin.handover.isSome then cmdResult 4 s
    else if !s.twin.acts then cmdResult 5 s
    else handoverBegin h (cmdResult 0 s)

/-- CONTROL HANDOVER received (R320). -/
def handoverReceive (b : List Nat) (s : State) : State :=
  if s.twin.st = 1 && !s.twin.acts && !s.twin.starting then
    let h := be (slice 0 8 b)
    controlSend 0x04 (beBytes 8 h) { s with twin := { s.twin with hoAck := some h, hoSeen := false } }
  else s

/-- CONTROL HANDOVER_ACK received (R320). -/
def handoverAck (b : List Nat) (s : State) : State :=
  match s.twin.handover with
  | some ⟨h, 1⟩ => if be (slice 0 8 b) = h then { s with twin := { s.twin with handover := some ⟨h, 2⟩ } } else s
  | _ => s

/-- HANDOVER_COMMIT: the tick of h − 1 on the holder (R320). -/
def handoverCommit (s : State) : State :=
  match s.twin.handover with
  | some v =>
    if s.grid.block + 1 < v.h || decide (v.step = 3) then s
    else if v.step = 2 && s.grid.block + 1 = v.h then { s with twin := { s.twin with handover := some ⟨v.h, 3⟩ } }
    else raiseTick 0x46 0 (cmdResult 6 { s with twin := { s.twin with handover := none } })
  | none => s

/-- HANDOVER_SWITCH: the tick of h (R320, R321, R324). -/
def handoverSwitch (s : State) : State :=
  let b := s.grid.block
  let done := fun (s : State) => evcOccur 0x107 1 (count 0x1003008C 0 1 s)
  match s.twin.handover with
  | some ⟨h, 3⟩ =>
    if h ≤ b then
      let s := stopActing { s with twin := { s.twin with handover := none } }
      done (emitByState b (enterLatent { s with twin := { s.twin with peer := 2, leaseAt := s.clk.safe } }))
    else s
  | _ =>
    match s.twin.hoAck with
    | some h =>
      if h ≤ b then
        let seen := s.twin.hoSeen && decide (h = b) && decide (s.twin.st = 1)
        let s := { s with twin := { s.twin with hoAck := none, hoSeen := false } }
        if seen then done (emitByState b (startActing { s with twin := { s.twin with st := 2, peer := 1 } })) else s
      else s
    | none => s

/-- The unit as the twin actions that are due at this tick leave it: link loss, hand-over and take-over are commands that
follow the tick, and the frames sent at the tick already show them (R314, R320). -/
def tickView (s : State) : State := takeover (handoverSwitch (handoverCommit (linkLossTick s)))

/-- CONTROL RELEASE received (R317). -/
def releaseReceive (b : List Nat) (s : State) : State :=
  if standby s then { s with twin := { s.twin with releaseAt := some (be (slice 0 8 b)) } } else s

/-! ### Take-back -/

/-- TAKEBACK_HOLDOFF (R343): HOLDOFF seconds since the unit entered LATENT or asked last. -/
def takebackAsk (s : State) : State :=
  if decide (s.twin.latentAt + secondBlocks s.img.twin.holdoff s ≤ s.grid.block) && s.twin.home && s.twin.st = 1 && !s.twin.starting && !s.twin.divergent && !s.twin.degraded && !s.twin.peerDegraded then
    controlSend 0x06 [] { s with twin := { s.twin with latentAt := s.grid.block } }
  else s

/-- CONTROL TAKEBACK received by the holder (R343). -/
def takebackReceive (s : State) : State :=
  if !s.twin.acts then s
  else if bit 0 (rget 0x10030008 0 s) && !s.twin.degraded && !s.twin.peerDegraded && !s.twin.divergent
      && decide (s.twin.peer = 1) && s.twin.handover.isNone then
    handoverBegin (s.grid.block + 8) s
  else controlSend 0x07 [] s

/-- CONTROL EMIT received (R324); the block of a hand-over moves emission only when the hand-over happens (R320). -/
def emitReceive (b : List Nat) (s : State) : State :=
  if s.twin.acts || s.twin.starting || decide (s.twin.hoAck = some (be (slice 0 8 b))) then s else emitPlan (be (slice 0 8 b)) false (bit 1 (nth 0 b 8)) s

/-- CONTROL DIVERGENT received (R346): the holder answers a joining unit with another image by it, and ends the mode. -/
def divergentReceive (b : List Nat) (s : State) : State :=
  let on := bit 0 (nth 0 b 0)
  if s.twin.acts || s.twin.starting then s
  else if on then
    if s.twin.st = 3 || s.twin.st = 4 then enterLatent { s with twin := { s.twin with divergent := true, barred := false } }
    else { s with twin := { s.twin with divergent := true } }
  else if s.twin.divergent then
    let s := { s with twin := { s.twin with divergent := false } }
    if s.twin.st = 1 then enterResync false s else s
  else if s.twin.barred then raise 0x4D 0 s
  else s

/-! ### Handshake -/

/-- The body of a HELLO (table "Control messages"). -/
def helloBody (s : State) : List Nat :=
  let c := s.img.twin
  s.nvm.hash ++ beBytes 4 (if s.nvm.copyB then s.nvm.genB else s.nvm.genA) ++ beBytes 8 ownDie
    ++ [bitIf s.twin.home 0, stateCode s, s.img.rate, c.groups, c.sealBlocks, 0, 0, 0]
    ++ beBytes 8 (if s.twin.starting then s.twin.proposal else 0) ++ beBytes 8 s.twin.tenure

/-- Earliest block whose tick lies at least 40 ms after now (R550): tick of block n is at media index Bn of T. -/
def blockIn40ms (s : State) : Nat := ((timeNs s + 40000000) * s.fs + s.B * 10 ^ 9 - 1) / (s.B * 10 ^ 9)

/-- The first block that a running holder names to a joining unit (R550): 40 ms are at most 61 blocks. -/
def joinBlock (s : State) : Nat := s.grid.block + 1 + (40000000 * s.fs + s.B * 10 ^ 9 - 1) / (s.B * 10 ^ 9)

/-- How the partner's HELLO compares (R309, R346): 0 same image, 1 incompatible, 2 another image and allowed, 3 another
image and refused. -/
def compat (b : List Nat) (s : State) : Nat :=
  let c := s.img.twin
  if nth 0 b 46 ≠ s.img.rate || nth 0 b 47 ≠ c.groups || nth 0 b 48 ≠ c.sealBlocks then 1
  else if slice 0 32 b = s.nvm.hash then 0
  else if bit 1 (rget 0x10030008 0 s) then 2 else 3

/-- Partner fields of a HELLO. -/
def noteHello (b : List Nat) (s : State) : State :=
  { s with twin := { s.twin with
    hello := b, peerDie := be (slice 36 8 b), peerHome := bit 0 (nth 0 b 44), peerTenure := be (slice 60 8 b) } }

/-- Events of a failed comparison on the unit that acts, and its answer to another image (R309, R346). -/
def compatEvent (c : Nat) (s : State) : State :=
  if c = 1 then raise 0x43 0 s
  else if c = 2 then controlSend 0x0B [1, 0, 0, 0] s
  else if c = 3 then controlSend 0x0B [0, 0, 0, 0] (raise 0x4D 0 s)
  else s

/-- The state of a joining unit after the comparison `c`, with its partner holding: SUSPECT unless the images are equal,
until the holder's CONTROL DIVERGENT lets it in (R346). -/
def joinState (c : Nat) (s : State) : State :=
  let s := if c = 1 then raise 0x43 0 s else s
  { s with twin := { s.twin with
    starting := false, handshake := false, st := if c = 0 then 4 else 3, divergent := false
    barred := decide (c ≠ 0) } }

/-- Two starting units decide (R308, R309): both start at the later proposal. -/
def jointDecide (s : State) : State :=
  let b := s.twin.hello
  let c := compat b s
  let s := if s.twin.home = s.twin.peerHome then raise 0x42 0 s else s
  let first := max s.twin.proposal (be (slice 52 8 b))
  let s := { s with twin := { s.twin with proposal := first } }
  if winsStart s then
    compatEvent c { s with twin := { s.twin with
      starting := false, handshake := false, st := 2, peer := if c = 0 then 4 else if c = 2 then 1 else 3
      divergent := decide (c = 2) } }
  else
    let s := joinState c { s with twin := { s.twin with peer := 2 } }
    if c = 0 then { s with twin := { s.twin with phase := 5 } } else s

/-- CONTROL HELLO received (R308, R309, R346, R550). -/
def helloReceive (b : List Nat) (s : State) : State :=
  if !s.img.twin.pair then s
  else
    let s := noteHello b s
    if s.twin.starting then
      if s.twin.handshake && nth 0 b 45 = 15 then
        jointDecide (controlSend 0x02 (helloBody s ++ beBytes 8 0) s)
      else s
    else if s.twin.acts && nth 0 b 45 = 15 then
      let c := compat b s
      let s := { s with twin := { s.twin with
        st := 2, peer := if c = 0 then 4 else if c = 2 then 1 else 3, divergent := decide (c = 2) } }
      let s := controlSend 0x02 (helloBody s ++ beBytes 8 (joinBlock s)) s
      compatEvent c (emitByState (s.grid.block + 1) s)
    else s

/-- CONTROL HELLO_REPLY received (R308, R550). -/
def helloReply (b : List Nat) (s : State) : State :=
  if !s.img.twin.pair || !s.twin.starting || !s.twin.handshake then s
  else
    let s := noteHello b s
    let join := be (slice 68 8 b)
    if join = 0 then jointDecide s
    else
      let c := compat b s
      joinState c { s with twin := { s.twin with proposal := join, peer := nth 0 b 45 % 8 } }

/-- Boot step 9 has ended: the unit proposes its first block and sends HELLO, or has no partner (R550, R551). -/
def handshakeStart (s : State) : State :=
  let s := { s with twin := { s.twin with proposal := blockIn40ms s } }
  if !s.img.twin.pair || s.twin.noPartner then
    { s with twin := { s.twin with starting := false, st := 0, peer := 7 } }
  else
    let s := controlSend 0x01 (helloBody s) { s with twin := { s.twin with handshake := true, shakeAt := s.clk.safe } }
    if s.twin.hello.isEmpty || nth 0 s.twin.hello 45 ≠ 15 then s
    else jointDecide (controlSend 0x02 (helloBody s ++ beBytes 8 0) s)

/-- A unit without a partner goes ALONE and starts at its own proposal (R307, R551). -/
def goAlone (s : State) : State :=
  let s := { s with twin := { s.twin with noPartner := true } }
  if s.twin.handshake then
    { s with twin := { s.twin with starting := false, handshake := false, st := 0, peer := 7 } }
  else s

/-- NO_PARTNER_TIMEOUT (R307, R551): 1.0 s after reset release. -/
def noPartnerTimeout (s : State) : State :=
  if s.twin.starting && s.twin.hbAt.isNone && !s.clk.inReset then goAlone (setSafe (s.clk.relAt + 32000000) s) else s

/-- HELLO_TIMEOUT (R551): 2.0 s after the unit's own step 9 has ended. -/
def helloTimeout (s : State) : State :=
  if s.twin.starting && s.twin.handshake then raise 0x4E 0 (goAlone (setSafe (s.twin.shakeAt + 64000000) s)) else s

/-! ### Health -/

/-- Whole seconds of SAFE time since reset. -/
def uptime (s : State) : Nat := (s.clk.safe - s.clk.resetAt) / 32000000

/-- The health record, 64 bytes (R344). -/
def healthRecord (s : State) : List Nat :=
  let t := s.twin
  [t.st, bitIf t.home 0 + bitIf t.degraded 1 + bitIf (inRegister s) 2 + bitIf t.divergent 3 + bitIf t.bistFail 4
      + bitIf t.clockFault 5 + bitIf s.clk.warn 6]
    ++ beBytes 2 (pattern 16 s.clk.temp) ++ beBytes 4 (uptime s) ++ beBytes 8 s.grid.block
    ++ (if s.nvm.applied then s.nvm.hash.take 8 else List.replicate 8 0)
    ++ beBytes 4 (if !s.nvm.applied then 0 else if s.nvm.copyB then s.nvm.genB else s.nvm.genA)
    ++ beBytes 2 (lastHour t.unexpl s).length ++ beBytes 2 (lastHour t.expl s).length
    ++ beBytes 4 t.healthDelta.1 ++ beBytes 4 (total 0x10120034 s + total 0x1012004C s)
    ++ beBytes 4 (s.mem.dramPasses + s.mem.sramPasses) ++ beBytes 4 s.mem.bistRows ++ beBytes 2 s.mem.bistFailed
    ++ beBytes 2 t.healthDelta.2.1 ++ beBytes 2 t.healthDelta.2.2 ++ [0, 0] ++ beBytes 8 ownDie

/-- HEALTH_SEND (R344): what the second counted, then the record. -/
def healthSend (s : State) : State :=
  let now := (total 0x10120030 s + total 0x10120048 s, total 0x10030078 s + total 0x10030090 s, total 0x10030080 s)
  let b := s.twin.healthBase
  let s := { s with twin := { s.twin with
    healthBase := now, healthDelta := (now.1 - b.1, now.2.1 - b.2.1, now.2.2 - b.2.2) } }
  let s := { s with twin := { s.twin with health := healthRecord s } }
  linkSend 0x14 s.twin.health s

/-- HEALTH_FRAME received (R344). -/
def healthReceive (p : List Nat) (s : State) : State :=
  { s with twin := { s.twin with peerHealth := p, peerDegraded := bit 1 (nth 0 p 1) } }

/-- SELF_TEST_DONE (R339); a unit that joined with a partner it may not follow stays SUSPECT (R309, R346). -/
def selfTestDone (bist clock : Bool) (s : State) : State :=
  if s.twin.starting || decide (s.twin.st ≠ 3) then s
  else if bist && clock then (if s.twin.barred then s else enterResync false s)
  else raise 0x4B 0 { s with twin := { s.twin with
    bistFail := s.twin.bistFail || !bist, clockFault := s.twin.clockFault || !clock } }

/-- SPARE_ROW_TEST (R345, R509). -/
def spareRowTest (pass : Bool) (s : State) : State :=
  if s.twin.acts || s.twin.starting then s
  else
    let m := s.mem
    let s := { s with mem := { m with
      bistNext := (m.bistNext + 1) % 2048, bistRows := m.bistRows + 1
      bistFailed := if pass then m.bistFailed else min 2047 (m.bistFailed + 1) } }
    if pass then s else { s with twin := { s.twin with bistFail := true, degraded := true } }

/-! ### Registers -/

/-- SAFE cycles since the last valid renewal (R315): counted by a standby unit. -/
def leaseCount (s : State) : Nat := if standby s then s.clk.safe - s.twin.leaseAt else 0

/-- TWIN.STATE. -/
def twinStateWord (s : State) : Nat :=
  let t := s.twin
  let hb := match t.hbAt with | some a => decide (s.clk.safe < a + leaseLimit s) | none => false
  t.st + bitIf t.acts 3 + (t.peer % 8) * 16 + bitIf (inRegister s) 7 + bitIf t.divergent 8 + bitIf t.peerHome 9
    + bitIf t.handshake 10 + bitIf t.emitA 11 + bitIf t.emitB 12 + bitIf t.degraded 13 + bitIf t.peerDegraded 14
    + bitIf t.linkUp 15 + bitIf hb 16

/-- Own and partner's hashes of a group for the latest compared block, and the block. -/
def hashWords (g : Nat) (s : State) : Nat × Nat × Nat :=
  match s.twin.compared with
  | some (a, b) => (nth 0 a.hashes g, nth 0 b.hashes g, a.block)
  | none => (0, 0, 0)

/-- The RO registers of the TWIN block; `g` is the selected hash group. -/
def twinReg (off g : Nat) (s : State) : Nat :=
  let t := s.twin
  let c := s.img.twin
  let (own, peer, blk) := hashWords g s
  if 0xC0 ≤ off ∧ off < 0x100 then le (slice (off - 0xC0) 4 t.health)
  else if 0x100 ≤ off ∧ off < 0x140 then le (slice (off - 0x100) 4 t.peerHealth)
  else match off with
  | 0x00 => bitIf t.home 1 + (if c.valid then
      bitIf c.pair 0 + c.groups * 4 + c.sealBlocks * 2 ^ 9 + c.levels.length * 2 ^ 14 + 2 ^ 31 else 0)
  | 0x04 => twinStateWord s
  | 0x18 => t.cmdCode + t.cmdSeq * 65536
  | 0x1C => leaseCount s % 2 ^ 24
  | 0x20 => if c.valid then leaseLimit s else 0
  | 0x24 => t.tenure % 2 ^ 32
  | 0x28 => t.tenure / 2 ^ 32 % 2 ^ 27
  | 0x2C => min t.matchRun 0xFFFFFF
  | 0x30 => t.mismatch % 2 ^ 32
  | 0x34 => t.mismatch / 2 ^ 32 % 2 ^ 32
  | 0x38 => t.mismatchBlk % 2 ^ 32
  | 0x3C => t.mismatchBlk / 2 ^ 32 % 2 ^ 27
  | 0x44 => own % 2 ^ 32
  | 0x48 => own / 2 ^ 32 % 2 ^ 32
  | 0x4C => peer % 2 ^ 32
  | 0x50 => peer / 2 ^ 32 % 2 ^ 32
  | 0x54 => blk % 2 ^ 32
  | 0x58 => blk / 2 ^ 32 % 2 ^ 27
  | 0x5C => t.phase + (t.level % 16) * 16 + (t.slice % 4096) * 256
  | 0x60 => bitIf t.lane0 0 + bitIf t.lane1 1 + bitIf t.linkUp 2 + bitIf t.adcMiss 3 + bitIf t.sliceLate 4
  | 0x64 => c.holdoff % 4096
  | 0x68 => t.recordErr
  | _ => 0

/-- Writes of 1 to the W1C bits of TWIN.LINK_STATUS. -/
def twinW1c (v : Nat) (s : State) : State :=
  { s with twin := { s.twin with adcMiss := s.twin.adcMiss && !bit 3 v, sliceLate := s.twin.sliceLate && !bit 4 v } }

end Sys2Proof.Machine
end

