-- ==== Sys2Proof/Machine/Clocks.lean ====
section
/-!
DEFINITION. Clocks, reset, power islands, watchdog and temperature (chapter 15).
-/
namespace Sys2Proof.Machine

/-! ### Reset -/

/-- The levels that the board puts on balls stay: DRAM_HOT, HSn_DET, and PVDD below its limit. -/
def keepBalls (s t : State) : State :=
  { t with
    mem := { t.mem with hotLow := s.mem.hotLow }
    ana := { t.ana with
      pvddLow := s.ana.pvddLow
      hs := (List.range 2).foldl (fun m n => sset HsState.reset n { HsState.reset with det := (hsGet n s).det } m) [] } }

/-- The device resets (R542): everything but the SAFE domain, the trim code, the causes and the count of resets; the flash
and the balls keep what they hold, and what has left on the heartbeat line and the twin link stays sent. A trigger during a reset joins its causes. -/
def resetDevice (causes : Nat) (s : State) : State :=
  let c := s.clk
  if c.inReset then { s with clk := { c with cause := c.cause ||| causes } }
  else
    let clk := { Clk.reset with
      safe := c.safe, resetAt := c.safe, kickAt := c.safe, pgoodAt := c.pgoodAt, resetN := c.resetN, pgood := c.pgood
      cause := causes, resets := min (c.resets + 1) 65535, trim := c.trim }
    let t := keepBalls s (State.fresh clk (Nvm.reset s.nvm.flash) s.tcm.draws s.free s.pending)
    { t with twin := { t.twin with hbSeq := s.twin.hbSeq, hbWord := s.twin.hbWord, sent := lineOut s } }

/-- POWER_ON (R542): the whole device resets and the factory trim code is loaded. -/
def powerOn (s : State) : State :=
  keepBalls s (State.fresh { Clk.reset with resetN := s.clk.resetN } (Nvm.reset s.nvm.flash) s.tcm.draws s.free s.pending)

/-- RESET_N_LOW (R543). -/
def resetNLow (s : State) : State :=
  let s := resetDevice 2 s
  { s with clk := { s.clk with resetN := false } }

/-- A free value is used (the manual leaves it open): the counter moves on. -/
def nextFree (s : State) : Nat × State := (Config.freeValue s.free, { s with free := s.free + 1 })

/-- PGOOD_CHANGE (R543, R617): a fall holds the device in reset; the manual names no cause bit for that reset, so
PSEQ.RESET_CAUSE takes a free value. -/
def pgoodChange (high : Bool) (s : State) : State :=
  if high then
    if s.clk.pgood then s else { s with clk := { s.clk with pgood := true, pgoodAt := s.clk.safe } }
  else
    let s := if s.clk.inReset then s else
      let (v, s) := nextFree s
      resetDevice (v % 64) s
    { s with clk := { s.clk with pgood := false } }

/-- RESET_RELEASE (R543, R584, R629, R631). -/
def resetRelease (strap test : Bool) (safe : Nat) (s : State) : State :=
  if !s.clk.inReset || !s.clk.pgood || s.clk.hotHold then s
  else
    let s := setSafe safe s
    { s with
      clk := { s.clk with inReset := false, resetN := true, testMode := test, relAt := s.clk.safe, step := 1 }
      twin := { s.twin with home := strap }
      tcm := { s.tcm with session := 1 + Config.sessionDraw s.tcm.draws % (2 ^ 32 - 1), draws := s.tcm.draws + 1 } }

/-! ### Domains and PLLs -/

/-- State of a domain and of a PLL, and their updates. -/
def domainGet (k : Nat) (s : State) : Dom := sget Dom.reset k s.clk.dom
def domainSet (k : Nat) (d : Dom) (s : State) : State := { s with clk := { s.clk with dom := sset Dom.reset k d s.clk.dom } }
def pllGet (p : Nat) (s : State) : Pll := sget Pll.reset p s.clk.pll
def pllSet (p : Nat) (v : Pll) (s : State) : State := { s with clk := { s.clk with pll := sset Pll.reset p v s.clk.pll } }

/-- PLL of a domain (R517): CTRL CPLL, FAB FPLL, MEM MPLL, NET NPLL, TIME TPLL, MEDIA APLL. -/
def pllOf (dom : Nat) : Nat := dom - 1

/-- A PLL programmed with N, F and P (R519): enabled. -/
def programPll (p n f d : Nat) (s : State) : State :=
  rset 0x10010018 p f (rset 0x10010014 p (n + (d % 64) * 256 + 2 ^ 31) s)

/-- Step 3 of the boot ledger begins: the boot ROM programs the five fixed PLLs (R520). -/
def programFixed (s : State) : State :=
  programPll 4 120 0 12 (programPll 3 125 0 8 (programPll 2 128 0 2 (programPll 1 96 0 2 (programPll 0 120 0 6 s))))

/-- APLL is programmed for the family of RATE (R521). -/
def programApll (rate : Nat) (s : State) : State :=
  if rate % 2 = 1 then programPll 5 125 13910325 64 s else programPll 5 115 10158671 64 s

/-- The range of APLL's F: its VCO within 200 ppm of the nominal one of the family in effect (R519, R521). -/
def apllRange (s : State) : Nat × Nat :=
  let (n, f) := if s.img.rate % 2 = 1 then (125, 13910325) else (115, 10158671)
  let w := (n * 2 ^ 24 + f) * 200 / 10 ^ 6
  (f - w, f + w)

/-- APLL has been programmed. -/
def apllOn (s : State) : Bool := bit 31 (rget 0x10010014 5 s)

/-- A write of CLK.PLL_FRAC by SV: once APLL is programmed, only the media servo writes its F, and keeps it in its range
(R521). -/
def pllFracWrite (p v : Nat) (s : State) : State :=
  rset 0x10010018 p (if p = 5 && apllOn s then holdIn (apllRange s).1 (apllRange s).2 v else v) s

/-- The media servo adjusts APLL's F every block (R412). Its law is open: F takes a free value of its range. -/
def mediaServo (s : State) : State :=
  if apllOn s then
    let (v, s) := nextFree s
    let (lo, hi) := apllRange s
    rset 0x10010018 5 (lo + v % (hi + 1 - lo)) s
  else s

/-- CTRL falls back to SAFE (R531): a switch under R528 begins. -/
def ctrlToSafe (s : State) : State :=
  let d := domainGet 1 s
  if d.src = 0 then s else domainSet 1 { d with dest := some 0, moved := false, result := 0, forced := false } s

/-- A clock fault (table "Clock faults", R532, R533) of event `code`: counted, a reset is due, and the fault log takes it, whether
or not the event's own actions log it. `ctrl` says that CPLL lost lock, `audio` that FPLL, MPLL or APLL did. -/
def clockFault (code : Nat) (ctrl audio : Bool) (s : State) : State :=
  let s := count 0x10010064 0 1 { s with clk := { s.clk with faultAt := s.clk.faultAt.or (some s.clk.safe) } }
  let s := if bit 0 (sget 0 code s.ev.actions) then s else logEntry (0x0100 + code) 0 s
  let s := if audio then tokenFault 1 s else s
  if ctrl then ctrlToSafe s else s

/-- PLL_LOCK (R522). -/
def pllLock (p : Nat) (s : State) : State :=
  if bit 31 (rget 0x10010014 p s) then pllSet p { pllGet p s with locked := true } s else s

/-- PLL_UNLOCK (R522, R532). -/
def pllUnlock (p : Nat) (s : State) : State :=
  let v := pllGet p s
  if !v.locked then s
  else
    let s := pllSet p { locked := false, losses := min (v.losses + 1) 65535 } s
    let s := raise 0x82 0 { s with clk := { s.clk with pllUnlock := true } }
    clockFault 0x82 (decide (p = 0)) (p = 1 || p = 2 || p = 5) s

/-- A media phase fault of R413 is a loss of lock of APLL (R522, R532). -/
def mediaFault (s : State) : State :=
  let v := pllGet 5 s
  let s := if v.locked then pllSet 5 { locked := false, losses := min (v.losses + 1) 65535 } s else s
  clockFault 0x82 false true (raiseTick 0x82 0 { s with clk := { s.clk with pllUnlock := true } })

/-- CLOCK_FAULT_RESET (R533): 640,000 SAFE cycles after the first fault. -/
def clockFaultReset (s : State) : State :=
  match s.clk.faultAt with
  | some t => resetDevice 8 (setSafe (t + 640000) s)
  | none => s

/-! ### The reference and the trim -/

/-- The reference is lost (R524, R532). -/
def refLost (s : State) : State :=
  let s := { s with clk := { s.clk with refOk := false, refRun := 0, refBad := 0, refLoss := true } }
  clockFault 0x81 true true (raise 0x81 0 s)

/-- REF_WINDOW_END (R523, R524): reference cycles and output cycles of each domain in 32,000 SAFE cycles. -/
def refWindow (ref : Nat) (doms : List Nat) (s : State) : State :=
  if s.clk.inReset then s
  else
    let c := s.clk
    let pass := decide (24500 ≤ ref) && decide (ref ≤ 25500)
    let s := { s with clk := { c with refCount := ref % 65536 } }
    if !c.refOk then
      let run := if pass then c.refRun + 1 else 0
      if 8 ≤ run then
        let s := { s with clk := { s.clk with refOk := true, refRun := 8, refBad := 0 } }
        if c.step = 2 then programFixed { s with clk := { s.clk with step := 3 } } else s
      else { s with clk := { s.clk with refRun := run } }
    else
      let s := (List.range 7).foldl (fun s k =>
        let d := domainGet k s
        domainSet k { d with freq := if d.src = 2 then 0 else nth 0 doms k % 2 ^ 22 } s) s
      if pass then { s with clk := { s.clk with refBad := 0 } }
      else if c.refBad = 0 then { s with clk := { s.clk with refBad := 1 } }
      else refLost s

/-- The trim source in use (R526). -/
def trimSource (s : State) : Nat :=
  match s.clk.trimSrcCfg with
  | 1 => if s.grid.running then 1 else 0
  | 2 => if (grpGet s.clk.trimGroup s).aligned then 2 else 0
  | 3 => 3
  | _ => 0

/-- TRIM_WINDOW_END (R526, R527): SAFE cycles counted in the window. A code that would leave its ten bits takes a free
value. -/
def trimWindow (counted : Nat) (s : State) : State :=
  let src := trimSource s
  if src = 3 || !s.clk.refOk then s
  else
    let want : Int := if src = 0 then 32000000 else 256000000
    let d := (counted : Int) - want
    let s := { s with clk := { s.clk with trimSrc := src, trimErr := satBits 32 (rhu (d * 10 ^ 6) want) } }
    if want < 50 * d.natAbs then count 0x10010068 0 1 s
    else
      let step : Int := if s.clk.trimDone then
          (if 75 * want < (d.natAbs : Int) * 10 ^ 6 then (if 0 < d then -1 else 1) else 0)
        else -(rhu (d * 10 ^ 4) want)
      let code := (s.clk.trim : Int) + step
      let s := { s with clk := { s.clk with trimDone := true } }
      if 0 ≤ code ∧ code < 1024 then { s with clk := { s.clk with trim := code.toNat } }
      else
        let (v, s) := nextFree s
        { s with clk := { s.clk with trim := v % 1024 } }

/-! ### Switching a domain -/

/-- Refusal code of a GO (R530, R531), 0 when it is accepted. -/
def goRefusal (k src : Nat) (s : State) : Nat :=
  let d := domainGet k s
  if d.dest.isSome then 1
  else if src = 2 || (src = 1 && !(pllGet (pllOf k) s).locked) then 2
  else if k = 0 || 7 ≤ k || src = 3 || s.grid.running then 3
  else 0

/-- DOM_SWITCH_GO: a write of CLK.DOM_CTRL for domain `k` (R528, R530). -/
def domCtrlWrite (k v : Nat) (s : State) : State :=
  let s := rset 0x10010024 k (v % 4) s
  if !bit 2 v then s
  else
    let r := goRefusal k (v % 4) s
    let d := domainGet k s
    if r ≠ 0 then domainSet k { d with result := r } s
    else domainSet k { d with dest := some (v % 4), moved := false, result := 0, forced := false } s

/-- DIVIDER_STEP (R528, R529): `edge` says that an edge of the old source came within 4 cycles of the new one. -/
def dividerStep (k : Nat) (edge : Bool) (s : State) : State :=
  let d := domainGet k s
  match d.dest with
  | none => s
  | some src =>
    if !d.moved then
      if d.src ≠ 2 && edge && decide (d.div < 4) then domainSet k { d with div := d.div + 1 } s
      else
        let s := domainSet k { d with src := src, moved := true, div := 4, forced := !edge } s
        if edge then s
        else raise 0x83 0 (count 0x10010060 0 1 { s with clk := { s.clk with switchForced := true } })
    else if d.div ≤ 1 then domainSet k { d with div := 0, dest := none, moved := false } s
    else domainSet k { d with div := d.div - 1 } s

/-- A domain that stands still starts on its PLL (R517). -/
def startDomain (k : Nat) (s : State) : State :=
  let d := domainGet k s
  if d.src = 2 then domainSet k { d with src := 1, div := 0 } s else s

/-! ### Power islands -/

/-- Islands that are on. -/
def islandCount (s : State) : Nat := ((List.range 16).filter (fun i => bit i s.clk.islands)).length

/-- ISLAND_START (R539): the next island, in increasing number, in step 4. -/
def islandStart (s : State) : State :=
  if s.clk.step ≠ 4 then s
  else match (List.range 16).find? (fun i => !bit i s.clk.islands) with
    | none => s
    | some i =>
      startDomain 2 { s with clk := { s.clk with islands := s.clk.islands + 2 ^ i } }

/-- At step 8 an effect-core island whose 16 cores are all gated is switched off (R541). -/
def islandsOff (s : State) : State :=
  let lo := rget 0x10010038 0 s
  let hi := rget 0x1001003C 0 s
  let gone := fun i => match i with
    | 10 => decide (lo % 65536 = 0)
    | 11 => decide (lo / 65536 = 0)
    | 12 => decide (hi % 65536 = 0)
    | 13 => decide (hi / 65536 = 0)
    | _ => false
  { s with clk := { s.clk with
    islands := (List.range 16).foldl (fun (v : Nat) i => v + bitIf (bit i s.clk.islands && !gone i) i) 0 } }

/-! ### Watchdog and temperature -/

/-- Watchdog timeout in ms (R545). -/
def wdtTimeout (s : State) : Nat := if s.nvm.applied then s.clk.wdtMs else 2000

/-- WDT_KICK (R545): a write of PSEQ.WDT_KICK. -/
def wdtKick (master v : Nat) (s : State) : State :=
  if master = 0 && v = 0x5AC3 then { s with clk := { s.clk with kickAt := s.clk.safe } } else s

/-- WATCHDOG_EXPIRY (R545, R317): the timeout has passed since the latest kick. -/
def watchdogExpiry (s : State) : State :=
  resetDevice 4 (tokenRelease 2 (setSafe (s.clk.kickAt + 32000 * wdtTimeout s) s))

/-- A junction temperature in 0.25 °C (R546). -/
def thermal (t : Int) (s : State) : State :=
  let was := s.clk.warn
  let s := { s with clk := { s.clk with temp := t, warn := decide (400 ≤ t) || (was && decide (388 ≤ t)) } }
  if 400 ≤ t ∧ !was then raise 0x84 0 s else s

/-- THERMAL_SHUTDOWN (R546). -/
def thermalShutdown (s : State) : State :=
  let s := resetDevice 16 (tokenRelease 3 s)
  { s with clk := { s.clk with hotHold := true } }

/-- THERMAL_RESET_RELEASE (R546). -/
def thermalRelease (s : State) : State := { s with clk := { s.clk with hotHold := false } }

/-- A write of PSEQ.CMD (R542): SV only. -/
def softReset (master v : Nat) (s : State) : State := if master = 0 && bit 0 v then resetDevice 32 s else s

/-! ### Registers -/

/-- CLK.STATUS. -/
def clkStatus (s : State) : Nat :=
  maskOf ((List.range 6).map (fun p => (pllGet p s).locked)) + bitIf s.clk.refOk 6 + bitIf s.clk.refLoss 8
    + bitIf s.clk.pllUnlock 9 + bitIf s.clk.switchForced 10

/-- CLK.DOM_CTRL of a domain. -/
def domCtrlWord (k : Nat) (s : State) : Nat :=
  let d := domainGet k s
  (if k < 7 then d.dest.getD d.src else 0) + bitIf d.dest.isSome 2 + bitIf d.dest.isSome 3 + d.div * 16 + d.result * 128
    + bitIf d.forced 9

/-- The registers of the CLK block that are not plain: `p` selects the PLL, `k` the domain. -/
def clkReg (off p k : Nat) (s : State) : Nat :=
  let c := s.clk
  match off with
  | 0x00 => if c.valid then c.rate + c.trimSrcCfg * 4 + c.trimGroup * 16 + c.wdtMs * 512 + 2 ^ 31 else 0
  | 0x04 => c.recordErr
  | 0x08 => clkStatus s
  | 0x1C => bitIf (pllGet p s).locked 0 + (pllGet p s).losses * 65536
  | 0x24 => domCtrlWord k s
  | 0x28 => (domainGet k s).freq
  | 0x40 => c.trim + c.trimSrc * 1024 + bitIf c.trimDone 12
  | 0x44 => pattern 32 c.trimErr
  | 0x48 => c.refCount
  | _ => 0

/-- The RO registers of the PSEQ block. -/
def pseqReg (off : Nat) (s : State) : Nat :=
  let c := s.clk
  match off with
  | 0x00 => c.cause
  | 0x04 => c.resets
  | 0x08 => c.step + bitIf c.copyB 4 + bitIf c.retry 5 + bitIf c.audio 31
  | 0x0C => c.bootMs % 65536
  | 0x10 => c.islands
  | 0x18 => wdtTimeout s - (c.safe - c.kickAt) / 32000
  | 0x20 => pattern 16 c.temp
  | _ => 0

/-- Writes of 1 to the W1C bits of CLK.STATUS. -/
def clkW1c (v : Nat) (s : State) : State :=
  { s with clk := { s.clk with
    refLoss := s.clk.refLoss && !bit 8 v, pllUnlock := s.clk.pllUnlock && !bit 9 v
    switchForced := s.clk.switchForced && !bit 10 v } }

end Sys2Proof.Machine
end

