-- ==== Sys2Proof/Machine/Crypto.lean ====
section
/-!
DEFINITION. SHA-256 (FIPS 180-4), HMAC (FIPS 198-1) and ECDSA P-256 verification (FIPS 186-5), which R559, R560, R569 and
R579 name (PRESUMED: the standards' own algorithms).
-/
namespace Sys2Proof.Machine

/-! ### SHA-256 -/

/-- The primes below 312: the first 64. -/
def shaPrimes : List Nat :=
  (List.range 312).filter (fun n => decide (2 ≤ n) && (List.range n).all (fun d => decide (d < 2) || decide (n % d ≠ 0)))

/-- The whole part of the k-th root of `m`, found from bit `n` - 1 down: `v` is what the bits above give. -/
def rootFrom (k m : Nat) : Nat → Nat → Nat
  | 0, v => v
  | n + 1, v => rootFrom k m n (if (v + 2 ^ n) ^ k ≤ m then v + 2 ^ n else v)

/-- First 32 bits of the fractional part of the k-th root of `p`. -/
def rootFraction (k p : Nat) : Nat := rootFrom k (p * 2 ^ (32 * k)) 40 0 % 2 ^ 32

/-- Round constants: of the cube roots of the first 64 primes (FIPS 180-4, 4.2.2). -/
def shaK : List Nat := shaPrimes.map (rootFraction 3)

/-- Initial hash value: of the square roots of the first 8 primes (FIPS 180-4, 5.3.3). -/
def shaInit : List Nat := (shaPrimes.take 8).map (rootFraction 2)

/-- Rotation right of a 32-bit word. -/
def rotr (n x : Nat) : Nat := (x / 2 ^ n + x * 2 ^ (32 - n)) % 2 ^ 32

/-- The message schedule, latest word first, extended by `n` words. -/
def shaExtend : Nat → List Nat → List Nat
  | 0, w => w
  | n + 1, w =>
    let a := nth 0 w 14
    let b := nth 0 w 1
    let s0 := rotr 7 a ^^^ rotr 18 a ^^^ (a / 2 ^ 3)
    let s1 := rotr 17 b ^^^ rotr 19 b ^^^ (b / 2 ^ 10)
    shaExtend n (((nth 0 w 15 + s0 + nth 0 w 6 + s1) % 2 ^ 32) :: w)

/-- One round. -/
def shaRound (h : List Nat) (kw : Nat) : List Nat :=
  match h with
  | [a, b, c, d, e, f, g, x] =>
    let s1 := rotr 6 e ^^^ rotr 11 e ^^^ rotr 25 e
    let ch := (e &&& f) ^^^ ((0xFFFFFFFF ^^^ e) &&& g)
    let t1 := x + s1 + ch + kw
    let s0 := rotr 2 a ^^^ rotr 13 a ^^^ rotr 22 a
    let maj := (a &&& b) ^^^ (a &&& c) ^^^ (b &&& c)
    [(t1 + s0 + maj) % 2 ^ 32, a, b, c, (d + t1) % 2 ^ 32, e, f, g]
  | l => l

/-- Big-endian words of bytes. -/
def beWords : List Nat → List Nat
  | a :: b :: c :: d :: t => (((a * 256 + b) * 256 + c) * 256 + d) :: beWords t
  | _ => []

/-- One 64-byte block. -/
def shaBlock (h block : List Nat) : List Nat :=
  let w := (shaExtend 48 (beWords block).reverse).reverse
  let r := (List.zipWith (· + ·) shaK w).foldl shaRound h
  List.zipWith (fun a b => (a + b) % 2 ^ 32) h r

/-- Blocks of 64 bytes. -/
def shaBlocks : Nat → List Nat → List Nat → List Nat
  | 0, h, _ => h
  | n + 1, h, l => shaBlocks n (shaBlock h (l.take 64)) (l.drop 64)

/-- SHA-256 of bytes: 32 bytes. -/
def sha256 (m : List Nat) : List Nat :=
  let z := (119 - m.length % 64) % 64
  let p := m ++ [0x80] ++ List.replicate z 0 ++ beBytes 8 (8 * m.length)
  (shaBlocks (p.length / 64) shaInit p).flatMap (beBytes 4)

/-- HMAC-SHA-256. -/
def hmac (key m : List Nat) : List Nat :=
  let k := if 64 < key.length then sha256 key else key
  let k := k ++ List.replicate (64 - k.length) 0
  sha256 (k.map (· ^^^ 0x5C) ++ sha256 (k.map (· ^^^ 0x36) ++ m))

/-! ### P-256 -/

/-- Field prime, curve coefficient b, group order and base point of P-256. -/
def p256 : Nat := 2 ^ 256 - 2 ^ 224 + 2 ^ 192 + 2 ^ 96 - 1
def p256b : Nat := 0x5ac635d8aa3a93e7b3ebbd55769886bc651d06b0cc53b0f63bce3c3e27d2604b
def p256n : Nat := 0xffffffff00000000ffffffffffffffffbce6faada7179e84f3b9cac2fc632551
def p256g : Nat × Nat :=
  (0x6b17d1f2e12c4247f8bce6e563a440f277037d812deb33a0f4a13945d898c296,
   0x4fe342e2fe1a7f9b8ee7eb4a7c0f9e162bce33576b315ececbb6406837bf51f5)

/-- a^e mod m, over `n` bits of e. -/
def powMod (m : Nat) : Nat → Nat → Nat → Nat
  | 0, _, _ => 1
  | n + 1, a, e => (if e % 2 = 1 then a else 1) * powMod m n (a * a % m) (e / 2) % m

/-- Inverse modulo a 256-bit prime. -/
def invMod (m a : Nat) : Nat := powMod m 256 (a % m) (m - 2)

/-- Sum of two points; none is the point at infinity. -/
def ecAdd (a b : Option (Nat × Nat)) : Option (Nat × Nat) :=
  match a, b with
  | none, q => q
  | p, none => p
  | some (x1, y1), some (x2, y2) =>
    if x1 = x2 && (y1 + y2) % p256 = 0 then none
    else
      let l := if x1 = x2 then (3 * x1 * x1 + p256 - 3) * invMod p256 (2 * y1) % p256
        else (y2 + p256 - y1) * invMod p256 (x2 + p256 - x1) % p256
      let x := (l * l + 2 * p256 - x1 - x2) % p256
      some (x, (l * (x1 + p256 - x) + p256 - y1) % p256)

/-- k·Q over `n` bits of k. -/
def ecMul : Nat → Nat → Option (Nat × Nat) → Option (Nat × Nat)
  | 0, _, _ => none
  | n + 1, k, q => ecAdd (if k % 2 = 1 then q else none) (ecMul n (k / 2) (ecAdd q q))

/-- ECDSA P-256 with SHA-256: public key x then y, signature r then s, each integer most significant byte first. -/
def ecdsaVerify (key sig m : List Nat) : Bool :=
  let x := be (slice 0 32 key)
  let y := be (slice 32 32 key)
  let r := be (slice 0 32 sig)
  let t := be (slice 32 32 sig)
  decide (x < p256) && decide (y < p256) && decide (y * y % p256 = (x * x * x + (p256 - 3) * x + p256b) % p256)
    && decide (0 < r) && decide (r < p256n) && decide (0 < t) && decide (t < p256n) &&
    (let w := invMod p256n t
     let u1 := be (sha256 m) * w % p256n
     let u2 := r * w % p256n
     match ecAdd (ecMul 256 u1 (some p256g)) (ecMul 256 u2 (some (x, y))) with
     | none => false
     | some (v, _) => decide (v % p256n = r))

end Sys2Proof.Machine
end

