-- ==== Sys2Proof/Machine/ImagePorts.lean ====
section
/-!
DEFINITION. The configuration image (chapter 16), part 1: how a record is read and checked, and the records CLOCKS (R553,
R554, R486, R487), PORTS (R445, R446, R451, R452), NET (R368, R369) and PTP (R399, R400).
-/
namespace Sys2Proof.Machine

/-! ### Reading and checking -/

/-- A record being checked: the machine that the image gives so far, and the input lanes placed so far (R643). -/
structure Build where
  st : State
  placed : List Nat
deriving DecidableEq, Repr

/-- What a record check answers: the machine with the record, or the first failing check's code and entry index. -/
abbrev Checked (α : Type) := Except (Nat × Nat) α

/-- A check over the whole record. -/
def req (ok : Bool) (code : Nat) : Checked Unit := if ok then .ok () else .error (code, 0)

/-- A check over entries in increasing index. -/
def reqAll {α : Type} (code : Nat) (p : α → Bool) (l : List α) : Checked Unit :=
  match l.findIdx? (fun x => !p x) with
  | some i => .error (code, i)
  | none => .ok ()

/-- A check over entries that sees the entries before. -/
def reqFold {α β : Type} (code : Nat) (step : β → α → Option β) : Nat → β → List α → Checked β
  | _, b, [] => .ok b
  | i, b, x :: t =>
    match step b x with
    | some b' => reqFold code step (i + 1) b' t
    | none => .error (code, i)

/-- Little-endian field of `n` bytes at offset `o` (R14). -/
def lf (l : List Nat) (o n : Nat) : Nat := le (slice o n l)

/-- Signed field. -/
def lfs (l : List Nat) (o n : Nat) : Int := signExt (8 * n) (lf l o n)

/-- `n` entries of `w` bytes from offset `o`. -/
def entries (o w n : Nat) (l : List Nat) : List (List Nat) :=
  (List.range n).map (fun k => slice (o + w * k) w l)

/-- lo ≤ v ≤ hi. -/
def within (lo hi v : Nat) : Bool := decide (lo ≤ v) && decide (v ≤ hi)
def withinI (lo hi v : Int) : Bool := decide (lo ≤ v) && decide (v ≤ hi)

/-- Lanes placed in order: each exists and is free (R643). -/
def placeLanes (s : State) (placed : List Nat) : List Nat → Option (List Nat)
  | [] => some placed
  | l :: t => if decide (l < laneCount s) && !placed.contains l then placeLanes s (l :: placed) t else none

/-! ### CLOCKS -/

/-- Checks 0x01 and 0x02 of R554 on the CLOCKS body. -/
def clockCheck (b : List Nat) : Checked Unit := do
  req (decide (b.length = 160) && decide (lf b 0 4 = 16)) 1
  req (decide (lf b 4 1 ≤ 3) && decide (lf b 5 1 ≤ 3) && (if lf b 5 1 = 2 then decide (lf b 6 1 ≤ 23) else decide (lf b 6 1 = 0))
    && within 10 1000 (lf b 8 2) && zeros 7 1 b && zeros 10 6 b) 2

/-- One channel entry of the DRAM section within its ranges (R486). -/
def dramEntryOk (e : List Nat) : Bool :=
  decide (lf e 0 1 ≤ 2) && within 1 2 (lf e 1 1) && within 20 24 (lf e 2 1) && (lf e 3 1 = 16 || lf e 3 1 = 20)
    && within 20 24 (lf e 4 1) && within 20 24 (lf e 5 1) && within 52 64 (lf e 6 2) && within 416 880 (lf e 8 2)
    && within 6240 12480 (lf e 10 2) && within 34 48 (lf e 12 1) && lf e 13 1 = 24 && decide (lf e 14 1 ≤ 2)
    && decide (lf e 15 1 ≤ 7) && decide (lf e 16 1 ≤ 0x32) && zeros 17 15 e
    && (List.range 8).all (fun k => within 50 10000 (lf e (32 + 4 * k) 4))

/-- The checks of R487 on the DRAM section. -/
def dramCheck (d : List Nat) : Checked Unit := do
  req (decide (lf d 0 4 = 144) && decide (d.length = 144)) 1
  let e0 := slice 16 64 d
  let e1 := slice 80 64 d
  req (decide (lf d 4 1 ≤ 3) && decide (lf d 5 1 ≤ 127) && (bit 1 (lf d 4 1) || lf d 5 1 = 0) && within 32 1024 (lf d 6 2)
    && (slice 8 8 d).all (fun p => decide (p ≤ 7)) && dramEntryOk e0 && dramEntryOk e1) 2
  req (decide (lf e0 0 2 = lf e1 0 2) && !(decide (lf e0 0 1 = 2) && decide (lf e0 1 1 = 2))) 3
  req (decide (4 * lf e0 8 2 ≤ lf e0 10 2) && decide (4 * lf e1 8 2 ≤ lf e1 10 2)) 4

/-- The DRAM section in effect. -/
def applyDram (d : List Nat) (s : State) : State :=
  { s with mem := { s.mem with
    valid := true, density := lf d 16 1, ranks := lf d 17 1, qosTarget := bit 0 (lf d 4 1), tempI2c := bit 1 (lf d 4 1)
    i2cAddr := lf d 5 1, zqMs := lf d 6 2, setup := d.take 144, recordErr := 0 } }

/-- The clock section in effect. -/
def applyClock (b : List Nat) (s : State) : State :=
  { s with
    clk := { s.clk with
      valid := true, recordErr := 0, rate := lf b 4 1, trimSrcCfg := lf b 5 1, trimGroup := lf b 6 1, wdtMs := lf b 8 2 }
    img := { s.img with rate := lf b 4 1 } }

/-! ### PORTS: serial section -/

/-- A group entry and whether its reserved bytes are 0 and its fields are within range (R445, check 0x02). -/
def parseGrp (e : List Nat) : GrpCfg :=
  if lf e 0 1 = 0 then ⟨0, 0, 0, 0⟩ else ⟨lf e 0 1, lf e 1 1, lf e 2 2, lf e 4 2⟩
def grpEntryOk (e : List Nat) : Bool :=
  zeros 6 10 e && decide (lf e 0 1 ≤ 2) && decide (lf e 1 1 < 8) && (lf e 0 1 = 0 || within 1 1000 (lf e 4 2))

/-- A port entry (R445). -/
def parsePort (e : List Nat) : PortCfg :=
  ⟨lf e 0 1, lf e 1 1, lf e 2 1, lf e 3 1, lf e 4 1, lf e 5 1, if lf e 6 1 = 0xFF then none else some (lf e 6 1),
    lf e 8 4, lf e 12 2⟩
def portEntryOk (e : List Nat) : Bool :=
  zeros 7 1 e && zeros 14 2 e && decide (lf e 0 1 ≤ 2) && decide (lf e 1 1 < 4) &&
    (lf e 0 1 = 0 || (within 1 32 (lf e 2 1) && within 8 32 (lf e 3 1) && decide (lf e 4 1 ≤ 31)
      && within 8 (lf e 3 1) (lf e 5 1) && (decide (lf e 6 1 ≤ 31) || lf e 6 1 = 0xFF)))

/-- A transmit lane entry (R445). -/
def parseBus16 (w : Nat) : Option Nat := if bit 15 w then none else some (w % 8192)

/-- Powers of two. -/
def isPow2 (n : Nat) : Bool := decide (0 < n) && decide (2 ^ Nat.log2 n = n)

/-- The serial section of PORTS (R445, R446, R643). -/
def serialSection (b : List Nat) (k : Build) : Checked Build := do
  let s := k.st
  let n := lf b 0 2
  let len := 3472 + 2 * n
  req (decide (lf b 4 4 = len) && decide (len ≤ b.length)) 1
  let ge := entries 16 16 24 b
  let pe := entries 400 16 192 b
  let te := (List.range n).map (fun i => lf b (3472 + 2 * i) 2)
  req (decide (n ≤ laneCount s) && zeros 2 2 b && zeros 8 8 b) 2
  reqAll 2 grpEntryOk ge
  reqAll 2 portEntryOk pe
  reqAll 2 (fun w => decide (bits 14 13 w = 0)) te
  let gs := ge.map parseGrp
  let ps := pe.map parsePort
  let top := s.half 1024
  reqAll 3 (fun g => match g.mode with
    | 0 => true
    | 1 => isPow2 g.frameBits && within 32 top g.frameBits
    | _ => within 16 top g.frameBits) gs
  reqAll 4 (fun (p, i) =>
    let g := nth ⟨0, 0, 0, 0⟩ gs (i / 8)
    p.dir = 0 || (decide (g.mode ≠ 0) && decide (p.offset + p.slots * p.width ≤ g.frameBits) && decide (p.mask ≠ 0)
      && decide (p.mask < 2 ^ p.slots))) ps.zipIdx
  let lanesOf := fun (p : PortCfg) => (List.range (enabledSlots p).length).map (fun j => p.laneBase + j)
  let (placed, _, _) ← reqFold 5 (fun (st : List Nat × Nat × Nat) (p : PortCfg) =>
    let m := (enabledSlots p).length
    match p.dir with
    | 1 => if laneCount s < st.2.1 + m then none
           else (placeLanes s st.1 (lanesOf p)).map (fun pl => (pl, st.2.1 + m, st.2.2))
    | 2 => if laneCount s < st.2.2 + m then none else some (st.1, st.2.1, st.2.2 + m)
    | _ => some st) 0 (k.placed, 0, 0) ps
  let _ ← reqFold 6 (fun (used : List Nat) (p : PortCfg) =>
    if p.dir ≠ 2 then some used
    else if (lanesOf p).any (fun l => decide (n ≤ l) || used.contains l) then none
    else some (lanesOf p ++ used)) 0 [] ps
  reqAll 6 (fun w => match parseBus16 w with | some bus => busExists s bus | none => true) te
  .ok { st := { s with
          img := { s.img with grps := gs, ports := ps, txLanes := te.map parseBus16 }
          sap := { s.sap with valid := true, recordErr := 0 } }
        placed := placed }

/-! ### PORTS: analog section -/

/-- INPUT of an ADC is one that the table "Analog resources" gives it: ADC4 and ADC5 are MIC only, ADC6 and ADC7 LINE
only. -/
def adcInputOk (i input : Nat) : Bool := if i < 4 then true else decide (input = if i < 6 then 1 else 0)

/-- One analog entry within its ranges (R451, check 0x02): `i` is its index. -/
def analogEntryOk (i : Nat) (e : List Nat) : Bool :=
  if i < 8 then
    decide (bits 14 13 (lf e 0 2) = 0) && decide (lf e 2 1 ≤ 1) && adcInputOk i (lf e 2 1)
      && (if lf e 2 1 = 1 then decide (lf e 3 1 ≤ 60) else decide (lf e 3 1 = 0))
      && decide (lf e 4 1 ≤ 2) && decide (lf e 5 1 ≤ 2) && zeros 6 2 e && within 1 0x7FFFFFFF (lf e 8 4) && zeros 12 4 e
  else if i < 16 then
    decide (bits 14 13 (lf e 0 2) = 0) && decide (lf e 2 1 ≤ 3) && (!bit 0 (lf e 2 1) || decide (14 ≤ i)) && zeros 3 13 e
  else if i < 18 then
    decide (bits 14 13 (lf e 0 2) = 0) && decide (lf e 2 1 ≤ 2) && decide (lf e 3 1 ≤ 2) && decide (lf e 4 1 ≤ 1) && zeros 5 11 e
  else decide (lf e 0 1 ≤ 3) && zeros 1 15 e

/-- ADC.CTRL of an entry. -/
def adcCtrl (e : List Nat) : Nat := lf e 2 1 + lf e 3 1 * 2 + lf e 4 1 * 128 + lf e 5 1 * 512

/-- The analog section of PORTS (R451, R452, R643). -/
def analogSection (b : List Nat) (k : Build) : Checked Build := do
  let s := k.st
  let sl := lf b 4 4
  let a := b.drop sl
  req (decide (lf a 0 4 = 336) && decide (sl + 336 = b.length)) 1
  let es := entries 16 16 20 a
  req (zeros 4 12 a) 2
  reqAll 2 (fun (e, i) => analogEntryOk i e) es.zipIdx
  let adc := es.take 8
  let dac := (es.drop 8).take 8
  let amp := (es.drop 16).take 2
  let hs := es.drop 18
  let placed ← reqFold 3 (fun (pl : List Nat) e => match parseBus16 (lf e 0 2) with
    | some l => placeLanes s pl [l]
    | none => some pl) 0 k.placed adc
  let srcOk := fun e => match parseBus16 (lf e 0 2) with | some bus => busExists s bus | none => true
  match ((es.drop 8).take 10).findIdx? (fun e => !srcOk e) with
  | some i => .error (4, 8 + i)
  | none => .ok ()
  match (List.range 2).find? (fun n => bit 0 (lf (nth [] hs n) 0 1) && !bit 0 (lf (nth [] dac (6 + n)) 2 1)) with
  | some n => .error (5, 18 + n)
  | none => .ok ()
  let s := { s with
    img := { s.img with
      adcLane := adc.map (fun e => parseBus16 (lf e 0 2)), dacSrc := dac.map (fun e => parseBus16 (lf e 0 2))
      dacHp := dac.map (fun e => bit 0 (lf e 2 1)), ampSrc := amp.map (fun e => parseBus16 (lf e 0 2))
      hsOn := hs.map (fun e => bit 0 (lf e 0 1)) }
    ana := { s.ana with valid := true, recordErr := 0 } }
  let s := adc.zipIdx.foldl (fun s (e, i) => rset 0x100E0010 i (lf e 8 4) (rset 0x100E000C i (adcCtrl e) s)) s
  let s := dac.zipIdx.foldl (fun s (e, i) => rset 0x100F0008 i (bitIf (bit 1 (lf e 2 1)) 3) s) s
  let s := amp.zipIdx.foldl (fun s (e, i) => rset 0x10100008 i (lf e 2 1 + lf e 3 1 * 4 + lf e 4 1 * 16) s) s
  let s := hs.zipIdx.foldl (fun s (e, i) =>
    let h := hsGet i s
    let s := rset 0x10110008 i (bitIf (bit 1 (lf e 0 1)) 0) s
    if bit 0 (lf e 0 1) && h.det && h.st = 1 then hsSet i { h with st := 2 } s else s) s
  .ok { st := s, placed := placed }

/-! ### NET -/

/-- Big-endian address field. -/
def bf (l : List Nat) (o n : Nat) : Nat := be (slice o n l)

/-- A port entry of NET (R368). -/
def parseNetPort (e : List Nat) : NetPortCfg :=
  ⟨lf e 0 1, bit 0 (lf e 1 1), lf e 2 2, bf e 4 6, lf e 10 2, bf e 12 4, bf e 16 4, lf e 20 1, bf e 24 4, lf e 28 2⟩
def netPortOk (i : Nat) (e : List Nat) : Bool :=
  (if i < 4 then decide (lf e 0 1 ≤ 3) else lf e 0 1 = 0 || lf e 0 1 = 4 || lf e 0 1 = 5)
    && (decide (lf e 1 1 = 0) || (decide (lf e 1 1 = 1) && decide (lf e 0 1 = 5))) && within 64 9600 (lf e 2 2)
    && decide (lf e 20 1 ≤ 32) && zeros 21 3 e && zeros 30 2 e
    && (if i < 4 then zeros 16 4 e && zeros 24 4 e && zeros 28 2 e else zeros 4 6 e && decide (1 ≤ lf e 28 2))

/-- Leg fields (R368). -/
def parseLeg (on : Bool) (l : List Nat) : LegCfg := ⟨on, lf l 0 1, lf l 2 2, bf l 4 4, bf l 8 4, lf l 12 2⟩
def legOk (on : Bool) (l : List Nat) : Bool :=
  zeros 1 1 l && zeros 14 2 l && (!on || lf l 12 2 = 0xFFFF || !bit 12 (lf l 12 2))

/-- A receive stream entry (R368). -/
def parseRx (e : List Nat) : RxCfg where
  type := lf e 0 1
  channels := lf e 1 1
  ptime := lf e 2 2
  depth := lf e 4 1
  pt := lf e 5 1
  group := lf e 6 1
  ssrcCheck := bit 2 (lf e 7 1)
  ssrc := lf e 8 4
  firstChan := lf e 12 4
  cellsA := lf e 16 4
  cellsB := lf e 20 4
  legA := parseLeg (bit 0 (lf e 7 1)) (slice 24 16 e)
  legB := parseLeg (bit 1 (lf e 7 1)) (slice 40 16 e)
  tsOffset := lf e 56 4

/-- 4 ms of samples (R366), and the greatest jitter depth (R46). -/
def maxPtime (rate : Nat) : Nat := match rate with | 0 => 176 | 1 => 192 | 2 => 352 | _ => 384
def maxDepth (rate : Nat) : Nat := if rate % 2 = 0 then 22 else 24

/-- A receive stream entry within its ranges. -/
def rxEntryOk (rate : Nat) (e : List Nat) : Bool :=
  let f := lf e 7 1
  within 1 4 (lf e 0 1)
    && (if lf e 0 1 = 4 then decide (lf e 1 1 = 0) && decide (lf e 2 2 = 0)
        else within 1 64 (lf e 1 1) && within 4 (maxPtime rate) (lf e 2 2))
    && within 1 (maxDepth rate) (lf e 4 1) && within 96 127 (lf e 5 1) && (decide (lf e 6 1 ≤ 63) || lf e 6 1 = 0xFF)
    && decide (f < 8) && legOk (bit 0 f) (slice 24 16 e) && legOk (bit 1 f) (slice 40 16 e) && zeros 60 4 e

/-- A transmit stream entry (R368). -/
def parseTx (e : List Nat) : TxCfg where
  type := lf e 0 1
  channels := lf e 1 1
  ptime := lf e 2 2
  pt := lf e 4 1
  dscp := lf e 5 1
  ttl := lf e 6 1
  ssrc := lf e 8 4
  firstChan := lf e 12 4
  seqBase := lf e 16 2
  srcPort := lf e 18 2
  cells := lf e 20 4
  legA := parseLeg (bit 0 (lf e 7 1)) (slice 24 16 e)
  legB := parseLeg (bit 1 (lf e 7 1)) (slice 40 16 e)

/-- A transmit stream entry within its ranges. -/
def txEntryOk (rate : Nat) (e : List Nat) : Bool :=
  let f := lf e 7 1
  within 1 3 (lf e 0 1) && within 1 64 (lf e 1 1) && (decide (lf e 0 1 ≠ 3) || decide (lf e 1 1 % 2 = 0))
    && within 4 (maxPtime rate) (lf e 2 2) && within 96 127 (lf e 4 1) && decide (lf e 5 1 ≤ 63) && within 1 255 (lf e 6 1)
    && decide (f < 4) && legOk (bit 0 f) (slice 24 16 e) && legOk (bit 1 f) (slice 40 16 e) && zeros 56 8 e

/-- The legs of a stream name ports of networks A and B that are enabled, and at least one is set (check 0x03). -/
def legsOk (ports : List NetPortCfg) (a b : LegCfg) : Bool :=
  let up := fun p => decide ((nth ⟨0, false, 0, 0, 0, 0, 0, 0, 0, 0⟩ ports p).mode ≠ 0)
  (a.on || b.on) && (!a.on || (decide (a.port ≤ 1) && up a.port)) && (!b.on || (within 2 3 b.port && up b.port))

/-- The frame of an audio stream fits a leg's port (check 0x04). -/
def legFits (ports : List NetPortCfg) (payload : Nat) (l : LegCfg) : Bool :=
  !l.on || decide (58 + (if l.vlan = 0xFFFF then 0 else 4) + payload ≤ (nth ⟨0, false, 0, 0, 0, 0, 0, 0, 0, 0⟩ ports l.port).maxFrame)

/-- Channel entries that a stream uses lie in the table and are free (check 0x05). -/
def chansFree (n : Nat) (used : List (Nat × Nat)) (first count : Nat) : Option (List (Nat × Nat)) :=
  if decide (first + count ≤ n) && used.all (fun u => decide (u.1 + u.2 ≤ first) || decide (first + count ≤ u.1)) then
    some ((first, count) :: used)
  else none

/-- The enabled receive legs of a stream as port, destination, UDP port, VLAN and source (check 0x07). -/
def rxKeys (c : RxCfg) : List (Nat × Nat × Nat × Nat × Nat) :=
  ([c.legA, c.legB].filter LegCfg.on).map (fun l => (l.port, l.dst, l.udpPort, l.vlan, l.src))

/-- A multicast address. -/
def isGroup (a : Nat) : Bool := within 0xE0000000 0xEFFFFFFF a

/-- The NET record (R368, R369, R643); `direct` lists the direct buses that the DYNAMICS record binds. -/
def netRecord (direct : List Nat) (b : List Nat) (k : Build) : Checked Build := do
  let s := k.st
  let rate := s.img.rate
  let nr := lf b 0 2
  let nt := lf b 2 2
  let rc := lf b 4 2
  let tc := lf b 6 2
  req (decide (b.length = 176 + 64 * (nr + nt) + 4 * (rc + tc))) 1
  let pe := entries 16 32 5 b
  let re := entries 176 64 nr b
  let te := entries (176 + 64 * nr) 64 nt b
  let co := 176 + 64 * (nr + nt)
  let rch := (List.range rc).map (fun i => lf b (co + 4 * i) 4)
  let tch := (List.range tc).map (fun i => lf b (co + 4 * rc + 4 * i) 4)
  req (decide (nr ≤ 512) && decide (nt ≤ 512) && decide (rc ≤ s.half 4096) && decide (tc ≤ s.half 4096) && zeros 8 8 b) 2
  reqAll 2 (fun (e, i) => netPortOk i e) pe.zipIdx
  reqAll 2 (rxEntryOk rate) re
  reqAll 2 (txEntryOk rate) te
  reqAll 2 (fun w => decide (bits 30 13 w = 0)) rch
  reqAll 2 (fun w => decide (bits 30 13 w = 0)) tch
  let ports := pe.map parseNetPort
  let rx := re.map parseRx
  let tx := te.map parseTx
  reqAll 3 (fun c => legsOk ports c.legA c.legB) rx
  reqAll 3 (fun c => legsOk ports c.legA c.legB) tx
  reqAll 4 (fun c => c.type = 4 || (let p := c.ptime * c.channels * sampleBytes c.type; legFits ports p c.legA && legFits ports p c.legB)) rx
  reqAll 4 (fun c => let p := c.ptime * c.channels * sampleBytes c.type; legFits ports p c.legA && legFits ports p c.legB) tx
  let _ ← reqFold 5 (fun u (c : RxCfg) => if c.type = 4 then some u else chansFree rc u c.firstChan c.channels) 0 [] rx
  let _ ← reqFold 5 (fun u (c : TxCfg) => chansFree tc u c.firstChan c.channels) 0 [] tx
  let placed ← reqFold 6 (fun pl w => if bit 31 w then some pl else placeLanes s pl [w % 8192]) 0 k.placed rch
  reqAll 6 (fun w => bit 31 w || (busExists s (w % 8192) && !direct.contains (w % 8192))) tch
  let _ ← reqFold 7 (fun u (c : RxCfg) =>
    let ks := rxKeys c
    if ks.any u.contains then none else some (ks ++ u)) 0 ([] : List (Nat × Nat × Nat × Nat × Nat)) rx
  reqAll 8 (fun (c : TxCfg) => (!c.legA.on || isGroup c.legA.dst) && (!c.legB.on || isGroup c.legB.dst)) tx
  let _ ← reqFold 9 (fun (u : List (Nat × Nat × Nat)) (c : RxCfg) =>
    if c.group = 0xFF then some u
    else match u.find? (fun x => decide (x.1 = c.group)) with
      | some x => if x.2 = (c.ptime, c.depth) then some u else none
      | none => some ((c.group, c.ptime, c.depth) :: u)) 0 [] rx
  let sum : Nat := (ports.map NetPortCfg.svCells).foldl (· + ·) 0 + (rx.map (fun (c : RxCfg) => c.cellsA + c.cellsB)).foldl (· + ·) 0
    + (tx.map TxCfg.cells).foldl (· + ·) 0
  req (decide (sum ≤ 65536)) 0xA
  let chan := fun w => if bit 31 w then none else some (w % 8192)
  .ok { st := { s with
          img := { s.img with netPorts := ports, rx := rx, tx := tx, rxChan := rch.map chan, txChan := tch.map chan }
          net := { s.net with valid := true, recordErr := 0 } }
        placed := placed }

/-! ### PTP -/

/-- A domain entry (R399). -/
def parseDom (e : List Nat) : DomCfg :=
  ⟨lf e 0 1, lf e 1 1, lf e 2 1, if lf e 3 1 = 0xFF then none else some (lf e 3 1), lfs e 4 1, lfs e 5 1, lfs e 6 1, lf e 7 1,
    lf e 8 2, lf e 10 1⟩

/-- A domain entry within its ranges (table "Supported profiles"). -/
def domEntryOk (e : List Nat) : Bool :=
  let y := lfs e 4 1
  decide (lf e 0 1 ≤ 2) && zeros 11 5 e && decide (lf e 10 1 ≤ 63) && (lf e 8 2 = 0xFFFF || !bit 12 (lf e 8 2)) &&
    (lf e 0 1 = 0 ||
      (decide (lf e 1 1 ≤ 127) && decide (lf e 2 1 ≤ 3) && (decide (lf e 3 1 ≤ 3) || lf e 3 1 = 0xFF)
        && (if lf e 0 1 = 1 then withinI (-7) (-1) y && withinI (-3) 1 (lfs e 5 1) else withinI (-4) 1 y && withinI 0 4 (lfs e 5 1))
        && withinI y (y + 5) (lfs e 6 1) && within 2 10 (lf e 7 1)))

/-- The PTP record (R399, R400). -/
def ptpRecord (b : List Nat) (k : Build) : Checked Build := do
  let s := k.st
  req (decide (b.length = 64)) 1
  let es := entries 32 16 2 b
  req (decide (lf b 0 1 < 8) && decide (lf b 1 1 ≤ 1) && within 20 10000 (lf b 2 2) && decide (lf b 2 2 < lf b 4 2)
    && within 1000 60000 (lf b 6 2)) 2
  reqAll 2 domEntryOk es
  let ds := es.map parseDom
  let d := fun i => nth ⟨0, 0, 0, none, 0, 0, 0, 0, 0xFFFF, 0⟩ ds i
  req (ds.any (fun x => decide (x.profile ≠ 0)) && decide ((d (lf b 1 1)).profile ≠ 0)) 3
  let up := fun p => decide ((netCfg s p).mode ≠ 0)
  reqAll 4 (fun (x : DomCfg) => x.profile = 0 || (up x.portP && (match x.portS with
    | none => true
    | some p => up p && decide (p ≠ x.portP) && decide (p / 2 = x.portP / 2)))) ds
  req (!(decide ((d 0).profile ≠ 0) && decide ((d 1).profile ≠ 0) && decide ((d 0).portP / 2 = (d 1).portP / 2)
    && decide ((d 0).domain = (d 1).domain))) 5
  let f := lf b 0 1
  let cfg : PtpCfg := {
    leaderEn := bit 0 f, revertive := bit 1 f, ppsFalling := bit 2 f, preferred := lf b 1 1, lockNs := lf b 2 2
    unlockNs := lf b 4 2, slewPpb := lf b 6 2, prio1 := lf b 8 1, prio2 := lf b 9 1, clockClass := lf b 10 1
    accuracy := lf b 11 1, variance := lf b 12 2, utcOffset := lf b 14 2
    ingress := (List.range 4).map (fun p => lf b (16 + 4 * p) 2), egress := (List.range 4).map (fun p => lf b (18 + 4 * p) 2)
    doms := ds }
  let st := fun i => if (d i).profile = 0 then 0 else 1
  .ok { k with st := { s with
    img := { s.img with ptp := cfg }
    time := { s.time with
      valid := true, recordErr := 0, dom0 := { s.time.dom0 with st := st 0 }, dom1 := { s.time.dom1 with st := st 1 } } } }

end Sys2Proof.Machine
end

