-- ==== Sys2Proof/Machine/ImageLayout.lean ====
section
/-!
DEFINITION. The configuration image, part 2: the LAYOUT record (R104, R105).
-/
namespace Sys2Proof.Machine

/-- Entries of 16 bits; 0xFFFF is unused. -/
def packed16 (e : List Nat) (n : Nat) : List Nat := (List.range n).map (fun j => lf e (2 * j) 2)

/-- The used entries are packed from the first. -/
def isPacked (l : List Nat) : Bool := (l.dropWhile (· ≠ 0xFFFF)).all (· = 0xFFFF)

/-- A speaker entry (R104). -/
def parseSpeaker (e : List Nat) : Speaker :=
  let az := lfs e 0 2
  let el := lfs e 2 2
  let f := lf e 8 2
  ⟨az, el, lfs e 4 4, bit 0 f, bit 1 f, lf e 10 2, unitVec az el⟩

/-- Check 0x03. -/
def speakerOk (e : List Nat) : Bool :=
  let f := lf e 8 2
  withinI (-11520) 11519 (lfs e 0 2) && withinI (-5760) 5760 (lfs e 2 2) && withinI 1 0x7FFFFF (lfs e 4 4)
    && decide (f < 4) && decide (f ≠ 3) && zeros 12 4 e

/-- A spread list (R104). -/
def parseSpread (e : List Nat) : List (Nat × Int) :=
  (List.range (lf e 0 1)).map (fun j => (lf e (4 + 8 * j) 2, lfs e (8 + 8 * j) 4))

/-- Check 0x06. Non-zero reserved bytes of a used entry and a weight above 0x7F_FFFF fail it: DEDUCED (assumption 99), as no
row of "Layout checks" names them. -/
def spreadOk (real : Nat → Bool) (e : List Nat) : Bool :=
  let n := lf e 0 1
  let l := parseSpread e
  within 1 8 n && zeros 1 3 e && l.all (fun x => real x.1 && decide (0 < x.2) && decide (x.2 ≤ 0x7FFFFF))
    && (l.map Prod.fst).Nodup && (List.range n).all (fun j => zeros (6 + 8 * j) 2 e) && zeros (4 + 8 * n) (64 - 8 * n) e

/-- Check 0x07 for speaker `k`. -/
def nbrOk (real : Nat → Bool) (k : Nat) (e : List Nat) : Bool :=
  let l := packed16 e 8
  let u := l.filter (· ≠ 0xFFFF)
  isPacked l && u.all (fun x => real x && decide (x ≠ k)) && u.Nodup && (real k || u.isEmpty)

/-- Determinant of a triangle's unit vectors. -/
def triDet (l : Layout) (t : Nat × Nat × Nat) : Int := det3 (spkVec l t.1) (spkVec l t.2.1) (spkVec l t.2.2)

/-- Directed edges of a triangle. -/
def triEdges (t : Nat × Nat × Nat) : List (Nat × Nat) := [(t.1, t.2.1), (t.2.1, t.2.2), (t.2.2, t.1)]

/-- Check 0x0D for one cell: its centre and corners (R107, R108). -/
def cellCovered (l : Layout) (cell : Nat) : Bool :=
  let s : Int := (cell % 128 : Nat)
  let b : Int := (cell / 128 : Nat)
  let a0 := 180 * s - 11520
  let a1 := wrapAz (180 * s - 11340)
  let e0 := 720 * b - 5760
  let e1 := 720 * b - 5040
  [(180 * s - 11430, 720 * b - 5400), (a0, e0), (a0, e1), (a1, e0), (a1, e1)].all (fun d =>
    (nth [] l.lookup cell).any (fun t => decide (0 ≤ min3 (tripleOf l t (unitVec d.1 d.2)))))

/-- The LAYOUT record (R104, R105). Of two speakers with equal unit vectors (check 0x05) the later one is the INDEX: DEDUCED
(assumption 99), as the table names only the failing speaker. -/
def layoutRecord (b : List Nat) (k : Build) : Checked Build := do
  let s := k.st
  let n := lf b 0 2
  let t := lf b 2 2
  let z := lf b 5 1
  let v := lf b 6 1
  req (decide (b.length = 8 + 32 * n + 68 * v + 8 * t + 32768 + 128 * z)) 1
  req (within 1 (s.half 1024) n && within 4 2048 t && decide (lf b 4 1 ≤ 1) && within 1 64 z && decide (v ≤ 64)
    && decide (lf b 7 1 = 0)) 2
  let se := entries 8 16 n b
  let ne := entries (8 + 16 * n) 16 n b
  let ve := entries (8 + 32 * n) 68 v b
  let te := entries (8 + 32 * n + 68 * v) 8 t b
  let le_ := entries (8 + 32 * n + 68 * v + 8 * t) 16 2048 b
  let ze := entries (8 + 32 * n + 68 * v + 8 * t + 32768) 128 z b
  reqAll 3 speakerOk se
  let sp := se.map parseSpeaker
  let used ← reqFold 4 (fun (u : List Nat) (x : Speaker) =>
    if x.virt then (if decide (x.spread < v) && !u.contains x.spread then some (x.spread :: u) else none)
    else if x.spread = 0xFFFF then some u else none) 0 [] sp
  req (decide (used.length = v)) 4
  let l0 : Layout := { Layout.none with
    amplitude := decide (lf b 4 1 = 1), speakers := sp
    spreads := ve.map parseSpread
    nbrs := ne.map (fun e => (packed16 e 8).filter (· ≠ 0xFFFF))
    tris := te.map (fun e => (lf e 0 2, lf e 2 2, lf e 4 2))
    lookup := le_.map (fun e => (packed16 e 8).filter (· ≠ 0xFFFF))
    zones := ze.map le, body := b }
  let _ ← reqFold 5 (fun (u : List V3) (x : Speaker) =>
    if x.sub then some u else if u.contains x.u then none else some (x.u :: u)) 0 [] sp
  let real := fun i => match sp[i]? with | some x => x.real | none => false
  reqAll 6 (spreadOk real) ve
  reqAll 7 (fun (e, i) => nbrOk real i e) ne.zipIdx
  let vertex := fun i => match sp[i]? with | some x => !x.sub | none => false
  reqAll 8 (fun (e, x) => zeros 6 2 e && vertex x.1 && vertex x.2.1 && vertex x.2.2 && decide (x.1 ≠ x.2.1)
    && decide (x.2.1 ≠ x.2.2) && decide (x.1 ≠ x.2.2) && decide (0 < triDet l0 x)) (te.zip l0.tris)
  reqAll 9 (fun i => !vertex i || l0.tris.any (fun x => x.1 = i || x.2.1 = i || x.2.2 = i)) (List.range n)
  let edges := l0.tris.flatMap triEdges
  reqAll 0xA (fun x => (triEdges x).all (fun e =>
    decide ((edges.filter (fun f => decide (f = e))).length = 1)
      && decide ((edges.filter (fun f => decide (f = (e.2, e.1)))).length = 1))) l0.tris
  req (decide (t + 4 = 2 * (sp.filter (fun x => !x.sub)).length)) 0xB
  reqAll 0xC (fun e => let l := packed16 e 8
                       isPacked l && decide (nth 0xFFFF l 0 ≠ 0xFFFF) && l.all (fun x => x = 0xFFFF || decide (x < t))) le_
  reqAll 0xD (cellCovered l0) (List.range 2048)
  reqAll 0xE (fun (m, i) => (decide (i ≠ 0) || decide (m = 0)) && decide (m < 2 ^ n)
    && (List.range n).any (fun j => real j && !bit j m)) l0.zones.zipIdx
  .ok { k with st := rset 0x10060008 0 0 { s with img := { s.img with layout := l0 } } }

end Sys2Proof.Machine
end

