-- ==== Sys2Proof/Machine/FxRange.lean ====
section
/-!
DEFINITION. The FX registers (R17): their fields, the instances they act on (R645), and the values their chapters accept.
The image's record checks (R566) and the fix checks (R158, R644) both use these.
-/
namespace Sys2Proof.Machine

/-- Width of an FX register that holds a signed field narrower than 32 bits (R644: a Qm.n field or one described as
signed). -/
def fxSigned (addr : Nat) : Option Nat :=
  if addr = 0x10050004 ∨ addr = 0x10050014 ∨ addr = 0x10050018 ∨ addr = 0x1005001C
    ∨ (0x10050070 ≤ addr ∧ addr ≤ 0x1005008C ∧ addr % 4 = 0) ∨ addr = 0x1007002C ∨ addr = 0x10080014 ∨ addr = 0x100F0018
    ∨ addr = 0x10170018 then some 24
  else if addr = 0x10080018 then some 16
  else none

/-- The bits of an FX register that are not reserved; none where the address holds no FX register. -/
def fxMask (addr : Nat) : Option Nat :=
  match fxSigned addr with
  | some w => some (2 ^ w - 1)
  | none =>
    if addr = 0x10050010 then some 0x1F
    else if addr = 0x10050020 ∨ (0x10050090 ≤ addr ∧ addr ≤ 0x100500B4 ∧ addr % 4 = 0) then some 0xFFFFFFFF
    else if 0x10060100 ≤ addr ∧ addr ≤ 0x1006017C ∧ addr % 4 = 0 then some 0xFFFFFFFF
    else match addr with
      | 0x100500B8 => some 1
      | 0x10070044 => some 0x3F
      | 0x10080010 => some 0x1FFF
      | 0x1008001C => some 0xFFFF
      | 0x10080020 => some 0xFFF
      | 0x10080024 => some 0xFFFFFFFF
      | 0x10080028 => some 0xFFFFFFFF
      | 0x1008002C => some 0xFFF
      | 0x10080030 => some 0x1FFFF
      | 0x10090008 => some 0xFFFF
      | 0x10090030 => some 1
      | 0x100B0084 => some 3
      | 0x100E000C => some 0x7FF
      | 0x100E0010 => some 0xFFFFFFFF
      | 0x100F0008 => some 0xF
      | 0x100F000C => some 0xFFFFFFFF
      | 0x100F0010 => some 0xFFFFFFFF
      | 0x100F0014 => some 0xFFFFFFFF
      | 0x10100008 => some 0x1F
      | 0x10110008 => some 1
      | 0x10170014 => some 0x3FFF
      | 0x1017001C => some 0xFFFFFFFF
      | 0x10170020 => some 0xFFFFFFFF
      | 0x10170024 => some 0xFFFFFFFF
      | 0x10170028 => some 0xFFFFFFFF
      | 0x1017002C => some 0xFFFFFF
      | 0x10170030 => some 0xFFFFFF
      | 0x10170034 => some 0xFFFFFFFF
      | 0x10170038 => some 0x7FFFFFF
      | 0x10170050 => some 0x3FF
      | 0x10170058 => some 0x80011FFF
      | 0x1017005C => some 0xFFFFFFFF
      | 0x10170060 => some 0x7FFFFFF
      | 0x10170064 => some 0xFFFFFF
      | _ => none

/-- Every reserved bit is 0, with the allowance for a signed field's sign extension (R644). -/
def fxReservedOk (addr v : Nat) : Bool :=
  match fxMask addr with
  | none => true
  | some m =>
    decide (v &&& m = v) || (match fxSigned addr with
      | some w => bit (w - 1) v && decide (v / 2 ^ w = 2 ^ (32 - w) - 1)
      | none => false)

/-- The value that an FX register holds after a write of `v`: its fields. -/
def fxFields (addr v : Nat) : Nat :=
  match fxMask addr with
  | some m => v &&& m
  | none => v

/-- The instance exists at the rate in effect and the image configures it (R645). -/
def fxInstance (addr inst : Nat) (s : State) : Bool :=
  if 0x10050010 ≤ addr ∧ addr ≤ 0x10050020 then decide (inst < s.img.objs.length)
  else if addr = 0x10070044 then busExists s inst
  else if 0x10080010 ≤ addr ∧ addr ≤ 0x10080030 then (chainBus s inst).isSome
  else if addr = 0x10090008 then isSpk s inst
  else if addr = 0x100B0084 then decide (inst < s.img.rx.length)
  else if addr = 0x100E000C ∨ addr = 0x100E0010 then (nth none s.img.adcLane inst).isSome
  else if addr / 65536 = 0x100F then decide (inst < s.img.dacSrc.length)
  else if addr = 0x10100008 then decide (inst < s.img.ampSrc.length)
  else if addr = 0x10110008 then nth false s.img.hsOn inst
  else if 0x10170014 ≤ addr ∧ addr ≤ 0x10170038 then (nth none s.img.tgLanes inst).isSome
  else true

/-- The value lies in the range of its register: `v` are the fields of instance `inst`. The chain kinds have the stages
of the table "Output chains"; SPK.CTRL.LOOKAHEAD is 0 on a direct channel. -/
def fxRange (addr inst v : Nat) (s : State) : Bool :=
  if addr = 0x10050004 then within 1638400 6553600 v
  else if 0x10060100 ≤ addr ∧ addr ≤ 0x1006017C then
    decide (v * 2 ^ (8 * (addr % 0x100)) < 2 ^ s.img.layout.speakers.length)
  else match addr with
    | 0x10080010 => decide (bits 8 2 v ≤ (if isDir s inst then 0 else s.B))
    | 0x10080014 => !isGen s inst && decide (v ≤ 0x7FFFFF)
    | 0x10080018 => withinI (-24576) 4608 (signExt 16 v)
    | 0x1008001C => decide (v ≤ 32768)
    | 0x10080020 => decide (v ≤ 3072)
    | 0x10080024 => within 1 0x80000000 v
    | 0x10080028 => within 1 0x80000000 v
    | 0x1008002C => decide (v ≤ 3072)
    | 0x10080030 => isSpk s inst && decide (v ≤ nth 0 s.img.alignMax inst)
    | 0x100B0084 =>
      match s.img.rx[inst]? with
      | some c => (!bit 0 v || c.legA.on) && (!bit 1 v || c.legB.on)
      | none => false
    | 0x100E000C => adcInputOk inst (v % 2) && decide (bits 6 1 v ≤ (if bit 0 v then 60 else 0)) && decide (bits 8 7 v ≠ 3) && decide (bits 10 9 v ≠ 3)
    | 0x100F0008 => decide (v % 4 ≠ 3)
    | 0x10100008 => decide (v % 4 ≠ 3) && decide (bits 3 2 v ≠ 3)
    | 0x10170014 => decide (v % 4 ≠ 3)
    | 0x1017002C => decide (1 ≤ v)
    | 0x10170050 => decide (v % 4 ≠ 3)
    | 0x10170058 =>
      busExists s (v % 8192) && (directChannel s (v % 8192)).isNone && (!bit 16 v || isSpeakerBus s (v % 8192))
    | _ => true

/-- R91 on an object's registers in effect in `s`. -/
def objLawOk (k : Nat) (s : State) : Bool :=
  let p := objPar s k
  decide (p.ctrl % 4 ≠ 3) && decide (p.dmin ≠ 0) && (decide (p.ctrl % 4 ≠ 2) || decide (p.dref < p.dmax))

/-- R150 and R152 on XP.BUS_CFG of a bus. -/
def busAutoOk (k v : Nat) (s : State) : Bool := decide (v % 4 ≠ 3) && (!isSpeakerBus s k || decide (v % 4 = 0))

/-- R219 and R220 on a generator's registers in effect in `s`. -/
def toneOk (k : Nat) (s : State) : Bool :=
  let p := tgPar s k
  decide (p.ctrl % 4 ≠ 2)
    || ((bits 5 2 p.ctrl = 0 || decide (2 * 2 ^ fadeLog p.ctrl ≤ p.len)) && decide (p.len ≤ p.period * s.B))

/-- Lanes that may feed a direct bus: serial receive slot lanes, ADC lanes, tone-generator lanes (R187). -/
def directLane (s : State) (lane : Nat) : Bool :=
  s.img.tgLanes.contains (some lane) || s.img.adcLane.contains (some lane)
    || s.img.ports.any (fun p => decide (p.dir = 1) && decide (p.laneBase ≤ lane)
        && decide (lane < p.laneBase + (enabledSlots p).length))

/-- The node names a lane and a bus that exist (R132). -/
def nodeExists (s : State) (lane bus : Nat) : Bool := decide (lane < laneCount s) && busExists s bus

/-- R123: an object output lane has no ordinary node on a speaker bus. -/
def nodeNotPan (s : State) (lane bus : Nat) : Bool :=
  !(isSpeakerBus s bus && s.img.objs.any (fun c => decide (c.out = lane)))

end Sys2Proof.Machine
end

