-- ==== Sys2Proof/Machine/ImageTables.lean ====
section
/-!
DEFINITION. The configuration image, part 3: the records OBJECTS, MATRIX, FILTERS and DYNAMICS (chapter 16, table "Record
checks", R565 to R567).
-/
namespace Sys2Proof.Machine

/-- What checks of a record take from records that follow it in the body. -/
structure Peek where
  /-- Direct buses that DYNAMICS binds (R168, R187, R188) and ALIGN_MAX of each speaker chain (R180). -/
  direct : List Nat
  aligns : List Nat
  /-- SLOT_COUNT of FILTERS (R206). -/
  slots : Nat
  /-- DRAM grants of ECPROG: base and length (R285). -/
  grants : List (Nat × Nat)
deriving DecidableEq, Repr

/-- A register field of a record: reserved bits and range (check 0x11). -/
def fxOk (addr inst v : Nat) (s : State) : Bool := fxReservedOk addr v && fxRange addr inst (fxFields addr v) s

/-- A register value of a record in effect. -/
def fxSet (addr inst v : Nat) (s : State) : State := rset addr inst (fxFields addr v) s

/-! ### OBJECTS -/

/-- An entry of OBJECTS. -/
def parseObj (e : List Nat) : ObjCfg where
  src := lf e 0 2
  out := lf e 2 2
  ring := lf e 4 1
  ctrl := lf e 5 1
  cart := bit 0 (lf e 6 1)
  lock := bit 1 (lf e 6 1)
  zone := lf e 7 1
  distRef := lf e 8 4
  distMin := lf e 12 4
  distMax := lf e 16 4
  baseDelay := lf e 20 4
  pos := ⟨lfs e 24 4, lfs e 28 4, lfs e 32 4⟩
  gain := lfs e 36 4
  ext := ⟨lf e 40 2, lf e 42 2, lf e 44 2⟩
  lockTol := lf e 46 2

/-- The registers of an object in effect. -/
def applyObj (k : Nat) (c : ObjCfg) (s : State) : State :=
  fxSet 0x10050020 k c.baseDelay (fxSet 0x1005001C k c.distMax (fxSet 0x10050018 k c.distMin
    (fxSet 0x10050014 k c.distRef (fxSet 0x10050010 k c.ctrl s))))

/-- Check 0x11 for an entry of OBJECTS; the position meets R68. -/
def objEntryOk (s : State) (e : List Nat) : Bool :=
  let c := parseObj e
  let p := c.pos
  let lo := if s.dbl then 13 else 12
  decide (c.src < 8192) && decide (c.out < 8192) && within lo (lo + 5) c.ring && decide (c.ctrl < 32)
    && decide (lf e 6 1 < 4) && decide (c.zone < 64)
    && [(0x10050014, c.distRef), (0x10050018, c.distMin), (0x1005001C, c.distMax)].all (fun r => fxReservedOk r.1 r.2)
    && (if c.cart then [p.x, p.y, p.z].all (fun x => decide (satBits 24 x = x))
        else withinI (-11520) 11519 p.x && withinI (-5760) 5760 p.y && withinI 0 0x7FFFFF p.z)
    && decide (satBits 24 c.gain = c.gain) && decide (c.ext.x ≤ 23040) && decide (c.ext.y ≤ 11520)
    && decide (c.lockTol ≤ 11520) && zeros 48 16 e

/-- The OBJECTS record. -/
def objectsRecord (b : List Nat) (k : Build) : Checked Build := do
  let s := k.st
  let n := lf b 0 2
  req (decide (b.length = 48 + 64 * n)) 0x10
  let es := entries 48 64 n b
  let airs := (List.range 8).map (fun j => lf b (16 + 4 * j) 4)
  req (decide (n ≤ s.half 1024) && zeros 2 2 b && zeros 8 8 b && fxOk 0x10050004 0 (lf b 4 4) s
    && airs.all (fxReservedOk 0x10050070)) 0x11
  reqAll 0x11 (objEntryOk s) es
  let cs := es.map parseObj
  let placed ← reqFold 0x12 (fun pl (c : ObjCfg) =>
    if c.src < laneCount s then placeLanes s pl [c.out] else none) 0 k.placed cs
  let s := { s with img := { s.img with objs := cs } }
  let s := fxSet 0x10050004 0 (lf b 4 4) s
  let s := airs.zipIdx.foldl (fun s (v, j) => fxSet (0x10050070 + 4 * j) 0 v s) s
  let s := cs.zipIdx.foldl (fun s (c, i) => applyObj i c s) s
  reqAll 0x13 (fun i => objLawOk i s) (List.range n)
  .ok { st := (List.range n).foldl (fun s i => objInit i 0 s) s, placed := placed }

/-! ### MATRIX -/

/-- A region of the DRAM plan (R565). -/
structure PlanRegion where
  kind : Nat
  base : Nat
  len : Nat
deriving DecidableEq, Repr

/-- The region lies within the installed DRAM and contains no reserved address: the highest 8 KiB of each rank, in each
channel's own addresses (R485, R565). -/
def regionInDram (s : State) (r : PlanRegion) : Bool :=
  let rank := channelBytes s / s.mem.ranks
  decide (r.base + r.len ≤ dramBytes s)
    && (List.range s.mem.ranks).all (fun i =>
      decide ((r.base + r.len) / 2 ≤ (i + 1) * rank - 8192) || decide ((i + 1) * rank ≤ r.base / 2))

/-- Least LENGTH of a kind, and whether the kind is required (table "DRAM plan kinds"). -/
def planLeast (s : State) (pk : Peek) (kind : Nat) : Nat :=
  let rings : Nat := (s.img.objs.map (fun (c : ObjCfg) => 2 ^ c.ring)).foldl (· + ·) 0
  match kind with
  | 1 => 4 * rings
  | 2 => 16 * rings / s.S
  | 3 => (pk.aligns.map (fun a => 4 * (a + 2 * s.B))).foldl (· + ·) 0
  | 4 => 303104 * chainCount s
  | 5 => 262400 * pk.slots
  | _ => 2 ^ 20
def planRequired (s : State) (pk : Peek) (kind : Nat) : Bool :=
  match kind with
  | 1 => decide (s.img.objs ≠ [])
  | 2 => decide (s.img.objs ≠ [])
  | 3 => true
  | 4 => true
  | 5 => true
  | 8 => decide (pk.grants ≠ [])
  | _ => false

/-- Check 0x15 for the regions before and one more region. -/
def planStep (s : State) (pk : Peek) (before : List PlanRegion) (r : PlanRegion) : Option (List PlanRegion) :=
  if decide (r.base % 2 ^ 20 = 0) && decide (r.len % 2 ^ 20 = 0) && regionInDram s r && decide (planLeast s pk r.kind ≤ r.len)
    && (decide (r.kind ≠ 6) || decide (r.len ≤ 2 ^ 30))
    && before.all (fun q => decide (q.kind ≠ r.kind)
        && (decide (q.base + q.len ≤ r.base) || decide (r.base + r.len ≤ q.base))) then some (before ++ [r])
  else none

/-- Every required kind is planned, and every grant lies inside the region of kind 8. -/
def planComplete (s : State) (pk : Peek) (plan : List PlanRegion) : Bool :=
  [1, 2, 3, 4, 5, 8].all (fun k => !planRequired s pk k || plan.any (fun r => decide (r.kind = k)))
    && pk.grants.all (fun g => plan.any (fun r => decide (r.kind = 8) && decide (r.base ≤ g.1)
        && decide (g.1 + g.2 ≤ r.base + r.len)))

/-- Gain sets, factors and staged set of an applied image (R164). -/
def matrixInit (s : State) : State :=
  let e := s.mx.setA
  let fs := ((List.range 5120).filter (fun k => busCfg s k % 4 ≠ 0)).foldl (fun (m : Sparse Ramp) k =>
    sset (Ramp.settled (2 ^ 21)) k (Ramp.settled (autoFactor (busCfg s k % 4) (contributors k e))) m) []
  { s with mx := { Matrix.reset with setA := e, setB := e, factors := fs } }

/-- The MATRIX record. -/
def matrixRecord (pk : Peek) (b : List Nat) (k : Build) : Checked Build := do
  let s := k.st
  let nc := lf b 0 4
  let rc := lf b 4 2
  let pc := lf b 6 1
  req (decide (b.length = 16 + 16384 + 32 + 4 * rc + 24 * pc + 8 * nc)) 0x10
  let o := 16 + 16384 + 32
  let buses := (List.range 4096).map (fun i => lf b (16 + 4 * i) 4)
  let tgs := (List.range 16).map (fun i => lf b (16400 + 2 * i) 2)
  let rets := (List.range rc).map (fun i => lf b (o + 4 * i) 4)
  let plans := entries (o + 4 * rc) 24 pc b
  let nodes := (List.range nc).map (fun i => lf b (o + 4 * rc + 24 * pc + 8 * i) 8)
  req (decide (rc ≤ 4096) && within 1 8 pc && zeros 7 9 b) 0x11
  reqAll 0x11 (fun (v, i) => if busExists s (1024 + i) then decide (v < 64) else decide (v = 0)) buses.zipIdx
  reqAll 0x11 (fun w => decide (bits 14 13 w = 0)) tgs
  reqAll 0x11 (fun w => decide (bits 15 13 w = 0) && decide (bits 31 29 w = 0)) rets
  reqAll 0x11 (fun e => within 1 8 (lf e 0 1) && zeros 1 7 e) plans
  reqAll 0x11 (fun w => decide (w / 2 ^ 55 = 0) && decide (wordRamp w = 0) && decide (wordGain w ≠ 0)) nodes
  let tgLane := tgs.map parseBus16
  let placed ← reqFold 0x12 (fun pl t => match t with
    | some l => placeLanes s pl [l]
    | none => some pl) 0 k.placed tgLane
  let placed ← reqFold 0x12 (fun pl w =>
    if busExists s (bits 12 0 w) && !isSpeakerBus s (bits 12 0 w) then placeLanes s pl [bits 28 16 w] else none) 0 placed rets
  reqAll 0x12 (fun w => nodeExists s (wordLane w) (wordBus w)) nodes
  reqAll 0x13 (fun (v, i) => busAutoOk (1024 + i) v s) buses.zipIdx
  reqAll 0x13 (fun w => !pk.direct.contains (bits 12 0 w)) rets
  let s := { s with img := { s.img with tgLanes := tgLane, returns := rets.map (fun w => (bits 12 0 w, bits 28 16 w)) } }
  let _ ← reqFold 0x13 (fun (cnt : Sparse Nat) w =>
    let bus := wordBus w
    if !nodeNotPan s (wordLane w) bus then none
    else if pk.direct.contains bus then
      if directLane s (wordLane w) && decide (sget 0 bus cnt < 64) then some (sput bus (sget 0 bus cnt + 1) cnt) else none
    else some cnt) 0 [] nodes
  let set ← reqFold 0x14 (fun (e : Sparse NodeEnt) w =>
    if e.any (fun x => decide (x.1 = wordNode w)) || decide (nodeCapacity s ≤ e.length) then none
    else some (sput (wordNode w) ⟨wordGain w, 0, wordNoCount w⟩ e)) 0 [] nodes
  let regions := plans.map (fun e => PlanRegion.mk (lf e 0 1) (lf e 8 8) (lf e 16 8))
  let plan ← reqFold 0x15 (planStep s pk) 0 [] regions
  req (planComplete s pk plan) 0x15
  let find := fun kind => (plan.find? (fun r => decide (r.kind = kind))).getD ⟨kind, 0, 0⟩
  let s := { s with
    img := { s.img with
      capBase := (find 6).base, capBytes := (find 6).len, plan := plan.map (fun r => (r.kind, r.base)) }
    mem := { s.mem with hostBase := (find 7).base, hostLen := (find 7).len }
    cap := { s.cap with base := (find 6).base, bytes := (find 6).len }
    mx := { s.mx with setA := set } }
  let s := buses.zipIdx.foldl (fun s (v, i) => fxSet 0x10070044 (1024 + i) v s) s
  .ok { st := matrixInit s, placed := placed }

/-! ### FILTERS -/

/-- The FILTERS record: slots READY or IN_USE, and each chain's filter (R216, R567). -/
def filtersRecord (b : List Nat) (k : Build) : Checked Build := do
  let s := k.st
  let sc := lf b 0 2
  let lc := lf b 2 2
  req (decide (b.length = 16 + 2048 + 262280 * lc)) 0x10
  let chains := (List.range 1024).map (fun i => lf b (16 + 2 * i) 2)
  let es := entries 2064 262280 lc b
  req (within 1 2048 sc && decide (lc ≤ sc) && decide (lc < 512) && zeros 4 12 b) 0x11
  reqAll 0x11 (fun (v, i) => isSpk s i || decide (v = 0)) chains.zipIdx
  reqAll 0x11 (fun e => zeros 2 6 e) es
  let slots ← reqFold 0x16 (fun (m : Sparse Slot) e =>
    let i := lf e 0 2
    if decide (i < sc) && !(m.any (fun x => decide (x.1 = i))) && slotValid s.dbl (slice 8 128 e) (slice 136 262144 e) then
      some (sput i ⟨2, false⟩ m)
    else none) 0 [] es
  reqAll 0x16 (fun (v, i) => !isSpk s i || decide (v % 4096 = 0xFFF) || slots.any (fun x => decide (x.1 = v % 4096)))
    chains.zipIdx
  let s := { s with img := { s.img with slots := sc }, slot := slots, conv := [] }
  let s := es.foldl (fun s e => dramPut (slotAddr s (lf e 0 2)) (slice 136 262144 e ++ slice 8 128 e) s) s
  let s := (chains.zipIdx.filter (fun x => isSpk s x.2)).foldl (fun s (v, i) =>
    convSet i { ConvState.empty with slot := v % 4096 } (fxSet 0x10090008 i v s)) s
  .ok { k with st := { s with slot := s.slot.map (fun (i, sl) =>
    (i, if s.conv.any (fun c => decide (c.2.slot = i)) then { sl with state := 3 } else sl)) } }

/-! ### DYNAMICS -/

/-- The registers of a DYNAMICS entry: address and value. -/
def dynFields (e : List Nat) : List (Nat × Nat) :=
  [(0x10080010, lf e 8 4), (0x10080014, lf e 12 4), (0x10080018, lf e 16 2), (0x1008001C, lf e 18 2),
   (0x10080020, lf e 20 2), (0x1008002C, lf e 22 2), (0x10080024, lf e 24 4), (0x10080028, lf e 28 4),
   (0x10080030, lf e 32 4)]

/-- The register is one of a stage that the chain's kind lacks, which reads 0: TRIM of a general-bus instance, ALIGN of all
but speaker chains. -/
def spkLacks (s : State) (addr sel : Nat) : Bool :=
  (decide (addr = 0x10080014) && isGen s sel) || (decide (addr = 0x10080030) && !isSpk s sel)

/-- Check 0x11 for entry `i` of DYNAMICS. -/
def dynEntryOk (s : State) (i : Nat) (e : List Nat) : Bool :=
  if !(isSpk s i || isGen s i || isDir s i) then e.all (· = 0)
  else
    decide (lf e 0 2 < 8192) && decide (lf e 2 1 < 4) && decide (lf e 3 1 = 0)
      && (if isSpk s i then bit 0 (lf e 2 1) && decide (lf e 0 2 = i) && decide (lf e 4 4 ≤ s.fs)
            && decide (lf e 32 4 ≤ lf e 4 4)
          else decide (lf e 4 4 = 0) && decide (lf e 32 4 = 0))
      && (dynFields e).all (fun f =>
          decide (f.1 = 0x10080030) || (spkLacks s f.1 i && fxReservedOk f.1 f.2) || fxOk f.1 i f.2 s)
      && zeros 36 4 e

/-- What the DYNAMICS body says of direct buses and ALIGN_MAX. -/
def peekDirect (s : State) (b : List Nat) : List Nat :=
  ((List.range (s.half 64)).map (fun i => slice ((1536 + i) * 40) 40 b)).filterMap (fun e =>
    if bit 0 (lf e 2 1) then some (lf e 0 2 % 8192) else none)
def peekAligns (s : State) (b : List Nat) : List Nat := (List.range (chainCount s)).map (fun i => lf b (40 * i + 4) 4)

/-- The DYNAMICS record: bindings (R167) and the state of every chain (R195). -/
def dynamicsRecord (b : List Nat) (k : Build) : Checked Build := do
  let s := k.st
  req (decide (b.length = 64000)) 0x10
  let es := entries 0 40 1600 b
  reqAll 0x11 (fun (e, i) => dynEntryOk s i e) es.zipIdx
  let bound := fun (e : List Nat) => bit 0 (lf e 2 1)
  let other := fun i => isGen s i || isDir s i
  reqAll 0x12 (fun (e, i) => !(other i && bound e) || busExists s (lf e 0 2)) es.zipIdx
  let _ ← reqFold 0x13 (fun (u : List Nat) ((e : List Nat), (i : Nat)) =>
    if !(other i && bound e) then some u
    else if isSpeakerBus s (lf e 0 2) || u.contains (lf e 0 2) then none else some (lf e 0 2 :: u)) 0 [] es.zipIdx
  let busOf := fun i => let e := nth [] es i
                        if bound e then some (lf e 0 2) else none
  let s := { s with img := { s.img with
    genBus := (List.range (s.half 512)).map (fun i => busOf (1024 + i))
    dirBus := (List.range (s.half 64)).map (fun i => busOf (1536 + i))
    alignMax := (List.range (chainCount s)).map (fun i => lf (nth [] es i) 4 4) } }
  let s := (es.zipIdx.filter (fun x => (chainBus s x.2).isSome)).foldl (fun s ((e : List Nat), (i : Nat)) =>
    let s := ((dynFields e).filter (fun f => !spkLacks s f.1 i)).foldl (fun s f => fxSet f.1 i f.2 s) s
    chainInit i (bit 1 (lf e 2 1)) s) s
  .ok { k with st := s }

end Sys2Proof.Machine
end

