-- ==== Sys2Proof/Machine/ImageGraph.lean ====
section
/-!
DEFINITION. The configuration image, part 4: the records GRAPH (R234, R235), ECPROG (R285 to R287), TWIN (R340 to R342),
KEYS and EVENTS (R603).
-/
namespace Sys2Proof.Machine

/-! ### GRAPH -/

/-- A node entry of GRAPH, its edges taken from the edge table (R234). -/
def parseNode (edges : List Nat) (e : List Nat) : GNode where
  kind := lf e 0 1
  cls := lf e 1 1
  urgent := bit 0 (lf e 2 1)
  subBlock := bit 1 (lf e 2 1)
  background := bit 2 (lf e 2 1)
  deadline := lf e 3 1
  flow := if lf e 4 2 = 0xFFFF then none else some (lf e 4 2)
  seq := lf e 6 2
  target := lf e 8 4
  wcet := lf e 12 4
  coreMask := lf e 16 8
  preds := ((edges.drop (lf e 24 4)).take (lf e 28 2)).map (fun w => ⟨w % 4096, bit 12 w⟩)

/-- Check 0x02 for a node entry: its reserved fields; FLOW and SEQ, whose range no row of "Graph checks" names, stand with
the ranges of this check (DEDUCED, assumption 99). -/
def nodeFieldsOk (flows : Nat) (e : List Nat) : Bool :=
  decide (lf e 2 1 < 8) && (decide (lf e 4 2 < flows) || (lf e 4 2 = 0xFFFF && lf e 6 2 = 0)) && zeros 30 2 e

/-- Kind of an execution class (table "Execution classes"). -/
def classKind (cls : Nat) : Nat := if cls = 5 then 2 else if cls = 6 then 1 else 0

/-- Check 0x03. -/
def nodeClassOk (n : GNode) : Bool :=
  decide (n.kind ≤ 2) && decide (n.cls ≤ 7) && decide (classKind n.cls = n.kind)
    && (within 1 217 n.deadline || n.deadline = 0xFF) && (!(n.urgent || n.background) || decide (n.kind = 1)) && !(n.urgent && n.background)
    && (!n.subBlock || decide (n.cls = 7) || decide (n.kind ≠ 0)) && decide ((n.deadline = 0xFF) = (n.background = true))

/-- Check 0x05 for node `i`. -/
def nodePredsOk (g : List GNode) (i : Nat) (n : GNode) : Bool :=
  n.preds.all (fun p => decide (p.pred < i) && (match g[p.pred]? with
      | some q => decide (q.subBlock = n.subBlock)
      | none => false))
    && (!n.background || n.preds.isEmpty)

/-- Check 0x07 over the nodes before `n`: members of its flow. -/
def flowOk (before : List GNode) (n : GNode) : Bool :=
  n.flow.isNone || before.all (fun m => decide (m.flow ≠ n.flow) || (decide (m.seq < n.seq) && decide (m.subBlock = n.subBlock)))

/-- CORE_MASK of the programs of an ECPROG body. -/
def progMask (ec : List Nat) (i : Nat) : Nat := if i < lf ec 0 2 then lf ec (16 + 136 * i + 8) 8 else 0

/-- The GRAPH record; `ec` is the ECPROG body, whose programs the nodes name. -/
def graphRecord (ec b : List Nat) (k : Build) : Checked Build := do
  let s := k.st
  let n := lf b 0 2
  let ne := lf b 4 4
  req (decide (b.length = 16 + 32 * n + 4 * ne)) 1
  let es := entries 16 32 n b
  let edges := (List.range ne).map (fun i => lf b (16 + 32 * n + 4 * i) 4)
  req (within 1 4096 n && decide (lf b 2 1 ≤ 64) && zeros 3 1 b && decide (ne ≤ 65536) && zeros 8 8 b
    && edges.all (fun w => decide (w < 8192))) 2
  reqAll 2 (nodeFieldsOk (lf b 2 1)) es
  let g := es.map (parseNode edges)
  reqAll 3 nodeClassOk g
  reqAll 4 (fun x => decide (x.kind ≠ 1) || decide (x.target < lf ec 0 2)) g
  reqAll 5 (fun (e, i) => decide (lf e 24 4 + lf e 28 2 ≤ ne) && decide (lf e 28 2 ≤ 64) && nodePredsOk g i (parseNode edges e)) es.zipIdx
  reqAll 6 (fun x => x.preds.all (fun p => !p.stream || (decide (x.kind = 0) && (match g[p.pred]? with
    | some q => decide (q.kind = 0)
    | none => false)))) g
  let _ ← reqFold 7 (fun (before : List GNode) x => if flowOk before x then some (before ++ [x]) else none) 0 [] g
  reqAll 8 (fun x => if x.kind = 1 then decide (x.coreMask ≠ 0) && decide (x.coreMask &&& progMask ec x.target = x.coreMask)
    else decide (x.coreMask = 0)) g
  .ok { k with st := { s with sched := { s.sched with valid := true, flows := lf b 2 1, graph := g, graphErr := 0 } } }

/-! ### ECPROG -/

/-- A region entry with its initial words from the data area (R285). -/
def parseRegion (data : List Nat) (e : List Nat) : EcRegion :=
  let kind := lf e 4 1
  let len := lf e 2 2
  { yMem := bit 15 (lf e 0 2), base := lf e 0 2 % 8192, len := len, kind := kind, lane := lf e 6 2 % 8192
    fromBus := bit 15 (lf e 6 2)
    init := if kind = 3 ∨ kind = 4 then (List.range len).map (fun i => lf data (lf e 8 4 + 4 * i) 4) else [] }

/-- A program descriptor (R285). -/
def parseProg (data : List Nat) (e : List Nat) : EcProg where
  textAddr := lf e 0 2
  entry := lf e 4 2
  subBlock := bit 0 (lf e 7 1)
  coreMask := lf e 8 8
  text := (List.range (lf e 2 2)).map (fun i => lf data (lf e 16 4 + 8 * i) 8)
  param := lf e 20 4
  grantBase := lf e 32 8
  grantLen := lf e 24 4
  regions := (entries 40 12 (lf e 6 1) e).map (parseRegion data)

/-- Check 0x02 for a descriptor, the reserved bits of its region entries included. -/
def progFieldsOk (e : List Nat) : Bool :=
  within 1 8192 (lf e 2 2) && decide (lf e 6 1 ≤ 8) && decide (lf e 7 1 < 2) && decide (lf e 16 4 % 8 = 0)
    && decide (lf e 24 4 % 64 = 0) && zeros 28 4 e && decide (lf e 32 8 % 64 = 0)
    && zeros (40 + 12 * lf e 6 1) (96 - 12 * lf e 6 1) e
    && (entries 40 12 (lf e 6 1) e).all (fun r => decide (bits 14 13 (lf r 0 2) = 0) && zeros 5 1 r)

/-- A bundle of the text is legal (check 0x04). -/
def bundleOk (w : Nat) : Bool :=
  match decodeBundle w with
  | .illegal => false
  | .b code _ => decide (bits 55 32 w = 0) && decide (code ≤ 0x28)
  | .c k _ _ => if k.op = 4 ∨ k.op = 5 then decide (k.cond < 2) else decide (k.cond < 8)
  | .a c _ _ =>
    (!within 0x18 0x1A c.op || decide (c.d % 2 = 0)) && (decide (c.op ≠ 0x17) || decide (c.imm ≤ 47))
      && (!within 0x1B 0x1C c.op || within 0x10 0x28 c.imm)

/-- The control operation of a bundle; 0 where it has none. -/
def ctlOp (w : Nat) : Nat := match decodeBundle w with | .c k _ _ => k.op | _ => 0
def ctlTarget (w : Nat) : Nat := match decodeBundle w with | .c k _ _ => k.target | _ => 0

/-- BR, CALL, RET or DONE; with LOOP and LBRK. -/
def isDelayed (op : Nat) : Bool := within 1 3 op || op = 8
def isJumpy (op : Nat) : Bool := isDelayed op || op = 4 || op = 5

/-- Check 0x05 for bundle `i` of the text. -/
def flowBundleOk (p : EcProg) (i w : Nat) : Bool :=
  let op := ctlOp w
  let t := ctlTarget w
  let opAt := fun j => ctlOp (nth 0 p.text j)
  (!(op = 1 || op = 2 || op = 4) || (decide (p.textAddr ≤ t) && decide (t < p.textAddr + p.text.length)))
    && (!isDelayed op || (!isJumpy (opAt (i + 1)) && !isJumpy (opAt (i + 2))))
    && (decide (op ≠ 4) || (decide (p.textAddr + i < t)
          && (List.range 3).all (fun d => let j := t - p.textAddr - d
                                          decide (j ≤ i) || !isJumpy (opAt j))))

/-- Region bounds and field agreement (check 0x06, placement apart). -/
def regionOk (s : State) (direct : List Nat) (sub : Bool) (data e : List Nat) : Bool :=
  let kind := lf e 4 1
  let len := lf e 2 2
  let n := if sub then s.S else s.B
  let lane := lf e 6 2
  within 1 8192 len && decide (lf e 0 2 % 8192 + len ≤ 8192) && decide (kind ≤ 4) && decide (bits 14 13 lane = 0)
    && (if kind ≤ 1 then decide (len % n = 0) else decide (lane = 0))
    && (if kind = 0 then
          (if bit 15 lane then !sub && (List.range (len / n)).all (fun j =>
              busExists s (lane % 8192 + j) && !direct.contains (lane % 8192 + j))
           else decide (lane + len / n ≤ laneCount s))
        else !bit 15 lane)
    && (if kind = 3 ∨ kind = 4 then decide (lf e 8 4 % 4 = 0) && decide (lf e 8 4 + 4 * len ≤ data.length)
        else decide (lf e 8 4 = 0xFFFFFFFF))

/-- Lanes that a program's OUTPUT regions place. -/
def outputLanes (s : State) (p : EcProg) : List Nat :=
  (p.regions.filter (fun r => decide (r.kind = 1))).flatMap (fun r =>
    (List.range (r.len / (if p.subBlock then s.S else s.B))).map (fun j => r.lane + j))

/-- Two ranges are disjoint. -/
def apart (a n b m : Nat) : Bool := decide (a + n ≤ b) || decide (b + m ≤ a)

/-- The regions of a list are disjoint, memory by memory. -/
def regionsApart (r : EcRegion) (l : List EcRegion) : Bool :=
  l.all (fun q => decide (q.yMem ≠ r.yMem) || apart q.base q.len r.base r.len)

/-- Check 0x07 between one program and the programs before it. -/
def placedApart (before : List EcProg) (p : EcProg) : Option (List EcProg) :=
  let own := (p.regions.zipIdx).all (fun (r, i) => regionsApart r (p.regions.take i))
  if own && before.all (fun q => decide (q.coreMask &&& p.coreMask = 0)
      || (apart q.textAddr q.text.length p.textAddr p.text.length && p.regions.all (fun r => regionsApart r q.regions))) then
    some (before ++ [p])
  else none

/-- Nodes of the graph bound to program `i`. -/
def boundNodes (s : State) (i : Nat) : List GNode := s.sched.graph.filter (fun n => decide (n.kind = 1) && decide (n.target = i))

/-- Texts and initial contents placed on the cores of each program (R286). -/
def placeProgram (s : State) (p : EcProg) : State :=
  ((List.range 64).filter (fun c => bit c p.coreMask)).foldl (fun s c =>
    { s with ec := { s.ec with
      text := ssetList 0 (c * 2 ^ 13 + p.textAddr) p.text s.ec.text
      data := p.regions.foldl (fun m r => ssetList 0 (c * 2 ^ 14 + (if r.yMem then 2 ^ 13 else 0) + r.base) r.init m) s.ec.data } }) s

/-- DRAM grants of an ECPROG body. -/
def peekGrants (s : State) (ec : List Nat) : List (Nat × Nat) :=
  ((entries 16 136 (lf ec 0 2) ec).map (fun e => (lf e 32 8, lf e 24 4))).filter
    (fun g => decide (g.2 ≠ 0) && decide (g.1 < dramBytes s))

/-- The ECPROG record. -/
def ecprogRecord (direct b : List Nat) (k : Build) : Checked Build := do
  let s := k.st
  let n := lf b 0 2
  let dl := lf b 4 4
  req (decide (b.length = 16 + 136 * n + dl)) 1
  let es := entries 16 136 n b
  let data := b.drop (16 + 136 * n)
  req (decide (n ≤ 256) && zeros 2 2 b && decide (dl % 8 = 0) && zeros 8 8 b) 2
  reqAll 2 progFieldsOk es
  let ps := es.map (parseProg data)
  reqAll 3 (fun (e, p) => decide (p.textAddr + p.text.length ≤ 8192) && decide (lf e 16 4 + 8 * lf e 2 2 ≤ dl)
    && decide (p.textAddr ≤ p.entry) && decide (p.entry < p.textAddr + p.text.length)) (es.zip ps)
  reqAll 4 (fun p => p.text.all bundleOk) ps
  reqAll 5 (fun p => (p.text.zipIdx).all (fun (w, i) => flowBundleOk p i w)) ps
  let placed ← reqFold 6 (fun (pl : List Nat) ((e : List Nat), (p : EcProg)) =>
    if (entries 40 12 (lf e 6 1) e).all (regionOk s direct p.subBlock data) then placeLanes s pl (outputLanes s p) else none)
    0 k.placed (es.zip ps)
  let _ ← reqFold 7 placedApart 0 [] ps
  reqAll 8 (fun (p, i) => !(p.regions.any (fun r => decide (r.kind = 4)))
    || (decide (((List.range 64).filter (fun c => bit c p.coreMask)).length = 1) && decide ((boundNodes s i).length ≤ 1)))
    ps.zipIdx
  reqAll 9 (fun (p, i) => (boundNodes s i).all (fun x => decide (x.subBlock = p.subBlock))
    && (decide (p.grantLen = 0) || inDram p.grantBase p.grantLen s || inFab p.grantBase p.grantLen)) ps.zipIdx
  let s := { s with ec := { s.ec with progs := ps, progErr := 0, text := [], data := [] } }
  .ok { st := ps.foldl placeProgram s, placed := placed }

/-! ### TWIN -/

/-- State bytes of a recursive unit (table "Recursive units"). -/
def unitBytes (s : State) (u : Nat × Nat × Nat) : Nat :=
  match u.1 with
  | 1 => 512
  | 2 => 32
  | 3 => 16
  | 4 => 48
  | 5 => match s.ec.progs[u.2.2]? with
    | some p => 4 * (match p.regions[u.2.1]? with | some r => r.len | none => 0)
    | none => 0
  | 6 => 4 * s.B
  | _ => 16

/-- Lanes that a program's OUTPUT regions place, with the mark of a program that holds PERSISTENT words. -/
def progOut (s : State) (p : EcProg) : List (Nat × Bool) :=
  (outputLanes s p).map (fun l => (2 * l, p.regions.any (fun r => decide (r.kind = 4))))

/-- What a lane (2l) or a bus (2b + 1) feeds, with the mark of a recursive function on the way: nodes of the image's gain set
and chains on buses, returns, objects, programs (table "State classes"). -/
def feeds (s : State) (x : Nat) : List (Nat × Bool) :=
  let i := x / 2
  let reads := fun (bus : Bool) (p : EcProg) => p.regions.any (fun r => decide (r.kind = 0) && decide (r.fromBus = bus)
    && decide (r.lane ≤ i) && decide (i < r.lane + r.len / max 1 (if p.subBlock then s.S else s.B)))
  if x % 2 = 0 then
    ((liveSet s.mx).filter (fun e => decide (e.1 / 5120 = i))).map (fun e =>
        (2 * (e.1 % 5120) + 1, (chainOfBus s (e.1 % 5120)).isSome))
      ++ (s.img.objs.filter (fun o => decide (o.src = i))).map (fun o => (2 * o.out, true))
      ++ (s.ec.progs.filter (reads false)).flatMap (progOut s)
  else
    (s.img.returns.filter (fun r => decide (r.1 = i))).map (fun r => (2 * r.2, false))
      ++ (s.ec.progs.filter (reads true)).flatMap (progOut s)

/-- What can be reached, with its mark, after `n` rounds from the newest places `new`. -/
def reached (s : State) : Nat → List (Nat × Bool) → List (Nat × Bool) → List (Nat × Bool)
  | 0, seen, _ => seen
  | n + 1, seen, new =>
    if new.isEmpty then seen
    else
      let next := ((new.flatMap (fun x => (feeds s x.1).map (fun y => (y.1, x.2 || y.2)))).filter
        (fun y => !seen.contains y)).eraseDups
      reached s n (seen ++ next) next

/-- The return of a bus on a lane lies on a loop through a recursive function (table "State classes"). -/
def recursiveReturn (s : State) (r : Nat × Nat) : Bool :=
  (reached s (2 * (laneCount s + 5120)) [] [(2 * r.2, false)]).contains (2 * r.1 + 1, true)

/-- The recursive units of the image (R340): kind, sub, index. Chains are listed where they exist and are bound, returns where
the image's own gain set closes the loop: DEDUCED (assumption 49). -/
def recursiveUnits (s : State) : List (Nat × Nat × Nat) :=
  let objs := List.range s.img.objs.length
  objs.map (fun k => (1, 0, k)) ++ objs.map (fun k => (2, 0, k))
    ++ ((List.range 1600).filter (fun c => (chainBus s c).isSome)).map (fun c => (3, 0, c))
    ++ ((List.range 16).filter (fun k => (nth none s.img.tgLanes k).isSome)).map (fun k => (4, 0, k))
    ++ (s.ec.progs.zipIdx).flatMap (fun (p, i) => ((p.regions.zipIdx).filter (fun r => decide (r.1.kind = 4))).map (fun r => (5, r.2, i)))
    ++ (((s.img.returns.filter (recursiveReturn s)).map Prod.fst).eraseDups).map (fun k => (6, 0, k))
    ++ (List.range 8).map (fun k => (7, 0, k))

/-- INDEX and SUB of a unit name something of the image (table "Recursive units"). -/
def unitExists (s : State) (kind sub i : Nat) : Bool :=
  match kind with
  | 1 => decide (i < s.img.objs.length)
  | 2 => decide (i < s.img.objs.length)
  | 3 => decide (i < 1600)
  | 4 => decide (i < 16)
  | 5 => match (s.ec.progs[i]?).bind (fun p => p.regions[sub]?) with | some r => decide (r.kind = 4) | none => false
  | 6 => busExists s i
  | _ => decide (i < 8)

/-- The sources of covered outputs (R50): transmitting serial ports, transmit streams, DACs, class-D inputs, taps. -/
def coveredSources (s : State) : List (Nat × Nat) :=
  ((s.img.ports.zipIdx).filter (fun p => decide (p.1.dir = 2))).map (fun p => (1, p.2))
    ++ (List.range s.img.tx.length).map (fun k => (2, k)) ++ (List.range 8).map (fun k => (3, k))
    ++ (List.range 2).map (fun k => (4, k)) ++ (List.range 16).map (fun k => (5, k))

/-- Instances of an item kind. -/
def itemLimit (s : State) (kind : Nat) : Nat :=
  match kind with | 1 => 192 | 2 => s.img.tx.length | 3 => 8 | 4 => 2 | 5 => 16 | _ => 0

/-- The first index of consecutive ranges that breaks their order (check 0x04): ranges start at 0 and follow each other. -/
def consecutive : Nat → Nat → List (Nat × Nat) → Option Nat
  | _, _, [] => none
  | i, at_, (a, n) :: t => if a = at_ then consecutive (i + 1) (at_ + n) t else some i

/-- The TWIN record (R340 to R342). -/
def twinRecord (b : List Nat) (k : Build) : Checked Build := do
  let s := k.st
  let ni := lf b 12 2
  let nl := lf b 3 1
  let ns := lf b 14 2
  let nu := lf b 16 4
  req (decide (b.length = 32 + 4 * ni + 8 * nl + 8 * ns + 4 * nu)) 1
  let ie := entries 32 4 ni b
  let le_ := entries (32 + 4 * ni) 8 nl b
  let se := entries (32 + 4 * ni + 8 * nl) 8 ns b
  let ue := entries (32 + 4 * ni + 8 * nl + 8 * ns) 4 nu b
  let groups := lf b 1 1
  req (decide (lf b 0 1 ≤ 1) && within 1 64 groups && within 2 16 (lf b 2 1) && decide (nl ≤ 16) && decide (lf b 4 2 ≤ 3600)
    && decide (lf b 6 1 < 4) && zeros 7 1 b && within 1 16384 (lf b 8 2) && decide (lf b 10 2 ≤ 16384) && decide (ni ≤ 730)
    && decide (ns ≤ 4096) && decide (nu ≤ 16384) && zeros 20 12 b) 2
  reqAll 2 (fun e => within 1 5 (lf e 0 1) && decide (lf e 1 1 < groups) && decide (lf e 2 2 < itemLimit s (lf e 0 1))) ie
  reqAll 2 (fun e => decide (lf e 0 2 ≤ 16384) && decide (1 ≤ lf e 4 2) && zeros 6 2 e) le_
  reqAll 2 (fun e => decide (1 ≤ lf e 4 2) && zeros 6 2 e) se
  reqAll 2 (fun e => within 1 7 (lf e 0 1) && (decide (lf e 0 1 = 5) || decide (lf e 1 1 = 0))
    && unitExists s (lf e 0 1) (lf e 1 1) (lf e 2 2)) ue
  let items := ie.map (fun e => (lf e 0 1, lf e 1 1, lf e 2 2))
  let _ ← reqFold 3 (fun (u : List (Nat × Nat)) (x : Nat × Nat × Nat) =>
    if u.contains (x.1, x.2.2) then none else some ((x.1, x.2.2) :: u)) 0 [] items
  req ((coveredSources s).all (fun c => items.any (fun x => decide (x.1 = c.1) && decide (x.2.2 = c.2)))) 3
  let levels := le_.map (fun e => (lf e 0 2, lf e 2 2, lf e 4 2))
  let slices := se.map (fun e => (lf e 0 4, lf e 4 2))
  let units := ue.map (fun e => (lf e 0 1, lf e 1 1, lf e 2 2))
  let levelEnd : Nat := (levels.map (fun l => l.2.2)).foldl (· + ·) 0
  let sliceEnd : Nat := (slices.map Prod.snd).foldl (· + ·) 0
  match consecutive 0 0 (levels.map Prod.snd) with
  | some i => .error (4, i)
  | none => .ok ()
  match consecutive 0 0 slices with
  | some i => .error (4, i)
  | none => .ok ()
  req (decide (levelEnd = ns) && decide (sliceEnd = nu)) 4
  reqAll 5 (fun x => decide ((((units.drop x.1).take x.2).map (unitBytes s)).foldl (· + ·) 0 ≤ 32768)) slices
  let want := recursiveUnits s
  let _ ← reqFold 6 (fun (u : List (Nat × Nat × Nat)) x => if u.contains x then none else some (x :: u)) 0 [] units
  req (want.all units.contains) 6
  let cfg : TwinCfg := {
    valid := true, pair := decide (lf b 0 1 = 1), groups := groups, sealBlocks := lf b 2 1, holdoff := lf b 4 2
    flags := lf b 6 1, explain := lf b 8 2, outSettle := lf b 10 2, items := items, levels := levels, slices := slices
    units := units }
  .ok { k with st := rset 0x10030008 0 (lf b 6 1) { s with
    img := { s.img with twin := cfg }, twin := { s.twin with recordErr := 0 } } }

/-! ### KEYS and EVENTS -/

/-- The KEYS record (R603). -/
def keysRecord (b : List Nat) (k : Build) : Checked Build := do
  let s := k.st
  let n := lf b 0 1
  req (decide (b.length = 16 + 48 * n)) 1
  let es := entries 16 48 n b
  req (within 1 8 n && decide (lf b 1 1 < 2) && decide (1024 ≤ lf b 2 2) && decide (lf b 4 1 < n) && zeros 5 11 b) 2
  reqAll 2 (fun e => within 1 2 (lf e 32 1) && zeros 33 15 e) es
  let _ ← reqFold 3 (fun (u : List (List Nat)) e => if u.contains (slice 0 32 e) then none else some (slice 0 32 e :: u)) 0 [] es
  .ok { k with st := rset 0x10140014 0 (rget 0x10140014 0 s % 2 ^ 18 + lf b 4 1 * 2 ^ 18) { s with tcm := { s.tcm with
    keys := es.map (fun e => ⟨slice 0 32 e, decide (lf e 32 1 = 2)⟩), spiPlain := bit 0 (lf b 1 1), udpPort := lf b 2 2
    recordErr := 0 } } }

/-- Codes of the table "Event codes" (R592). -/
def eventCode (c : Nat) : Bool :=
  c = 0 || within 0x08 0x09 c || within 0x10 0x1A c || within 0x20 0x25 c || within 0x28 0x2B c || within 0x30 0x37 c
    || within 0x40 0x65 c || within 0x68 0x73 c || within 0x78 0x84 c || within 0x88 0x8D c

/-- Sources of event counters that are not reserved (R597). -/
def counterSource (n : Nat) : Bool := eventCode n || within 0x100 0x107 n

/-- The EVENTS record (R603). -/
def eventsRecord (b : List Nat) (k : Build) : Checked Build := do
  let s := k.st
  req (decide (b.length = 528)) 1
  let acts := slice 16 256 b
  let srcs := (List.range 64).map (fun j => lf b (272 + 4 * j) 4)
  req (zeros 0 16 b) 2
  reqAll 2 (fun a => decide (a < 8)) acts
  reqAll 2 (fun w => decide (w < 2 ^ 17) && decide (bits 14 9 w = 0)) srcs
  reqAll 4 (fun (a, c) => decide (a = 0) || eventCode c) acts.zipIdx
  reqAll 4 (fun w => decide (w = 0) || counterSource (w % 512)) srcs
  let irq := (acts.zipIdx).foldl (fun (m : BitVec 256) (a, c) => if bit 2 a then m ||| (1#256 <<< c) else m) 0#256
  .ok { k with st := { s with
    ev := { s.ev with irqEn := irq, actions := ssetList 0 0 (acts.map (· % 4)) [] }
    evc := { s.evc with src := ssetList 0 0 srcs [] }
    tcm := { s.tcm with valid := true } } }

end Sys2Proof.Machine
end

