-- ==== Sys2Proof/Machine/Boot.lean ====
section
/-!
DEFINITION. The boot ledger (R547 to R551): headers and choice of the copy (R556 to R561, R568), framing and application of
the image (R562 to R570), DRAM training (R488, R489) and the start of audio (R550).
-/
namespace Sys2Proof.Machine

/-! ### The flash -/

/-- Bytes of the flash; an erased byte is 0xFF. -/
def flashBytes (a n : Nat) (s : State) : List Nat := (sgetList 0xFF a n s.nvm.flash).map BitVec.toNat

/-- Header address of a copy (R556). -/
def copyBase (copyB : Bool) : Nat := if copyB then 0x08000000 else 0

/-- Size of the flash fitted in bytes; 0 before step 6. -/
def flashSize (s : State) : Nat := if s.nvm.log2 = 0 then 0 else 2 ^ s.nvm.log2

/-- The fault-log ring (R556, R557). -/
def ringBase (s : State) : Nat := if s.nvm.log2 = 28 then 0x0FFF0000 else flashSize s - 65536

/-- The copy is present: a flash below 2 Gbit holds copy A only (R557). -/
def copyPresent (copyB : Bool) (s : State) : Bool := !copyB || decide (s.nvm.log2 = 28)

/-- The greatest BODY_LEN of a copy (R557). -/
def bodyLimit (copyB : Bool) (s : State) : Nat :=
  (if s.nvm.log2 = 28 && !copyB then 0x08000000 else ringBase s) - copyBase copyB - 256

/-- The header of a copy. -/
def headerOf (copyB : Bool) (s : State) : List Nat := flashBytes (copyBase copyB) 256 s

/-- BODY_LEN and GENERATION of a header. -/
def hdrLen (h : List Nat) : Nat := lf h 16 4
def hdrGen (h : List Nat) : Nat := lf h 12 4

/-- The body of a copy. -/
def bodyOf (copyB : Bool) (s : State) : List Nat := flashBytes (copyBase copyB + 256) (hdrLen (headerOf copyB s)) s

/-- Checks of a header (R559, R560, R568): the code of NVM.IMAGE_ERR, 0 when it passes. -/
def headerCode (copyB : Bool) (s : State) : Nat :=
  let h := headerOf copyB s
  let signed := bit 0 (lf h 6 1)
  let form := decide (slice 0 4 h = [0x42, 0x4F, 0x4C, 0x57]) && lf h 4 2 = 1 && decide (lf h 6 1 < 2) && zeros 7 1 h
    && lf h 8 4 = 0x1800 && within 8 (bodyLimit copyB s) (hdrLen h) && decide (hdrLen h % 8 = 0) && zeros 20 12 h
    && zeros 192 60 h && decide (lf h 252 4 = crc32 (slice 0 252 h))
  if !form then 1
  else match Config.fusedKeyHash with
    | none => 0
    | some k =>
      if !signed || decide (sha256 (slice 64 64 h) ≠ k) then 2
      else if ecdsaVerify (slice 64 64 h) (slice 128 64 h) (slice 0 64 h) then 0
      else 3

/-! ### Failure of a copy -/


/-- NVM.IMAGE_ERR written. -/
def imageErr (code record index : Nat) (copyB : Bool) (s : State) : State :=
  { s with nvm := { s.nvm with
    errCode := code, errRecord := record, errCopyB := copyB, errValid := true, errIndex := index % 2 ^ 24 } }

/-- A failing record check writes the owning error register and raises the owning event (R564, R569): `sub` tells the two
sections of CLOCKS and of PORTS apart. -/
def ownError (type : Nat) (sub : Bool) (code index : Nat) (s : State) : State :=
  match type with
  | 1 => if sub then raise 0x78 0 { s with mem := { s.mem with recordErr := code } }
         else raise 0x80 0 { s with clk := { s.clk with recordErr := code } }
  | 2 => if sub then raise 0x68 index { s with ana := { s.ana with recordErr := code + (index % 32) * 256 } }
         else raise 0x60 index { s with sap := { s.sap with recordErr := code + (index % 8192) * 256 } }
  | 3 => raise 0x50 index { s with net := { s.net with recordErr := code + (index % 8192) * 256 } }
  | 4 => raise 0x58 index { s with time := { s.time with recordErr := code + (index % 256) * 256 } }
  | 5 => raise 0x20 index (rset 0x10060008 0 (code + (index % 2 ^ 20) * 256) s)
  | 8 =>
    let i := if code ≤ 2 then 0 else index % 4096
    raise 0x30 i { s with sched := { s.sched with graphErr := code + i * 256 } }
  | 9 =>
    let i := if code ≤ 2 then 0 else index % 256
    raise 0x36 i { s with ec := { s.ec with progErr := code + i * 256 } }
  | 12 => raise 0x4C index { s with twin := { s.twin with recordErr := code + (index % 65536) * 256 } }
  | 13 => raise 0x88 index { s with tcm := { s.tcm with recordErr := code + 13 * 256 + (index % 256) * 65536 } }
  | 14 => raise 0x88 index { s with tcm := { s.tcm with recordErr := code + 14 * 256 + (index % 256) * 65536 } }
  | _ => s

/-! ### Records of a body -/

/-- The record at offset `o`: its body and the offset of the next one, where TYPE is `type` and the framing holds (R562 to
R564). -/
def recordAt (body : List Nat) (o type : Nat) : Option (List Nat × Nat) :=
  let len := lf body (o + 4) 4
  let next := o + 8 + (len + 7) / 8 * 8
  if decide (o + 8 ≤ body.length) && decide (lf body o 2 = type) && zeros (o + 2) 2 body && decide (next ≤ body.length)
      && zeros (o + 8 + len) (next - (o + 8 + len)) body then some (slice (o + 8) len body, next)
  else none

/-- The bodies of the records from offset `o` on, as far as they are framed. -/
def recordsFrom (body : List Nat) : Nat → Nat → Nat → List (List Nat)
  | 0, _, _ => []
  | n + 1, o, type =>
    match recordAt body o type with
    | some (b, next) => b :: recordsFrom body n next (type + 1)
    | none => []

/-- The body of record TYPE, empty where it is not framed. -/
def peekRecord (body : List Nat) (type : Nat) : List Nat := nth [] (recordsFrom body 14 0 1) (type - 1)

/-- What checks take from later records. -/
def peekOf (body : List Nat) (s : State) : Peek :=
  let dyn := peekRecord body 11
  ⟨peekDirect s dyn, peekAligns s dyn, lf (peekRecord body 10) 0 2, peekGrants s (peekRecord body 9)⟩

/-- Check 0x03 of "Clock checks": TRIM_GROUP is a FOLLOWER group of PORTS. -/
def trimGroupOk (b ports : List Nat) : Bool := decide (lf b 5 1 ≠ 2) || decide (lf ports (16 + 16 * lf b 6 1) 1 = 2)

/-- One record of the body checked and taken into the machine; a failure names the section of its record. -/
def recordStep (body : List Nat) (type : Nat) (b : List Nat) (k : Build) : Except (Bool × Nat × Nat) Build :=
  let pk := peekOf body k.st
  let run := fun (sub : Bool) (r : Checked Build) => r.mapError (fun e => (sub, e.1, e.2))
  match type with
  | 1 => do
    let _ ← (clockCheck b).mapError (fun e => (false, e.1, e.2))
    let ports := peekRecord body 2
    let _ ← (req (ports.isEmpty || trimGroupOk b ports) 3).mapError (fun e => (false, e.1, e.2))
    let _ ← (dramCheck (b.drop 16)).mapError (fun e => (true, e.1, e.2))
    .ok { k with st := applyDram (b.drop 16) (applyClock b k.st) }
  | 2 => do
    let k ← run false (serialSection b k)
    run true (analogSection b k)
  | 3 => run false (netRecord pk.direct b k)
  | 4 => run false (ptpRecord b k)
  | 5 => run false (layoutRecord b k)
  | 6 => run false (objectsRecord b k)
  | 7 => run false (matrixRecord pk b k)
  | 8 => run false (graphRecord (peekRecord body 9) b k)
  | 9 => run false (ecprogRecord pk.direct b k)
  | 10 => run false (filtersRecord b k)
  | 11 => run false (dynamicsRecord b k)
  | 12 => run false (twinRecord b k)
  | 13 => run false (keysRecord b k)
  | _ => run false (eventsRecord b k)

/-- Why a body is invalid: NVM.IMAGE_ERR code and record, the section, the owning code and index. -/
structure BodyErr where
  code : Nat
  record : Nat
  sub : Bool
  own : Nat
  index : Nat
deriving DecidableEq, Repr

/-- The `n` records from TYPE `type` at offset `o` in body order (R569). -/
def runRecords (body : List Nat) : Nat → Nat → Nat → Build → Except BodyErr (Build × Nat)
  | 0, o, _, k => .ok (k, o)
  | n + 1, o, type, k =>
    match recordAt body o type with
    | none => .error ⟨5, type, false, 0, 0⟩
    | some (b, next) =>
      match recordStep body type b k with
      | .ok k' => runRecords body n next (type + 1) k'
      | .error (sub, code, index) => .error ⟨if 16 ≤ code then code else 6, type, sub, code, index⟩

/-! ### Trying a copy -/

/-- RECOVERY (R570). -/
def enterRecovery (s : State) : State := { s with nvm := { s.nvm with recovery := true } }

/-- The clock and DRAM sections of a copy's CLOCKS record at step 7: none where they pass. -/
def step7Check (body : List Nat) : Option BodyErr :=
  match recordAt body 0 1 with
  | none => some ⟨5, 1, false, 0, 0⟩
  | some (b, _) =>
    match clockCheck b with
    | .error e => some ⟨6, 1, false, e.1, e.2⟩
    | .ok _ => match dramCheck (b.drop 16) with
      | .error e => some ⟨6, 1, true, e.1, e.2⟩
      | .ok _ => none

/-- Step 7 begins with copy `copyB`: RATE and the DRAM section take effect, APLL is programmed, and the DRAM is trained
unless it was trained with the same DRAM section (R547, R548). With the DRAM_HOT source the ball's level sets the refresh mode
(R492). -/
def step7Apply (copyB : Bool) (body : List Nat) (s : State) : State :=
  let b := peekRecord body 1
  let before := slice 0 144 ((peekRecord (bodyOf (!copyB) s) 1).drop 16)
  let again := s.mem.valid && decide (before = slice 0 144 (b.drop 16))
  let s := if again then s else { s with mem := { s.mem with ch0 := Channel.reset, ch1 := Channel.reset } }
  let s := applyDram (b.drop 16) { s with img := { s.img with rate := lf b 4 1 } }
  let s := if s.mem.tempI2c then s else refreshMode s.mem.hotLow s
  programApll (lf b 4 1) { s with clk := { s.clk with step := 7, copyB := copyB } }

/-- Ports and PTP of an early start are stopped (R548). -/
def stopEarly (s : State) : State :=
  let keep := fun (p : PortNet) => { PortNet.reset with link := p.link, fecLock := p.fecLock, linkChange := p.linkChange }
  rset 0x10010030 0 0 { s with
    img := { Image.none with rate := s.img.rate }
    net := { Net.reset with recordErr := s.net.recordErr, port := s.net.port.map (fun (i, p) => (i, keep p)) }
    time := { s.time with valid := false, dom0 := Domain.reset, dom1 := Domain.reset, sel := none } }

/-- A copy's body proved invalid (R569): event, NVM.IMAGE_ERR and fault log; the other candidate is tried at step 7, else
RECOVERY (R548, R570). `n` bounds the copies tried. -/
def failCopy : Nat → BodyErr → State → State
  | 0, _, s => enterRecovery s
  | n + 1, e, s =>
    let copyB := s.clk.copyB
    let s := if e.code = 6 then ownError e.record e.sub e.own e.index s else s
    let s := raise 0x09 0 (imageErr e.code e.record e.index copyB s)
    let s := logEntry 2 (bitIf copyB 0 + e.code * 2 ^ 8 + e.record * 2 ^ 16 + (e.index % 2 ^ 32) * 2 ^ 32) (stopEarly s)
    if s.clk.retry || !(if copyB then s.nvm.aHdr else s.nvm.bHdr) then enterRecovery s
    else
      let s := { s with clk := { s.clk with retry := true, copyB := !copyB, step := 7 } }
      let body := bodyOf (!copyB) s
      match step7Check body with
      | some e' => failCopy n e' s
      | none => step7Apply (!copyB) body s

/-- Step 7 begins: the copy's CLOCKS record is checked. -/
def step7Enter (copyB : Bool) (s : State) : State :=
  let body := bodyOf copyB s
  let s := { s with clk := { s.clk with step := 7, copyB := copyB } }
  match step7Check body with
  | some e => failCopy 2 e s
  | none => step7Apply copyB body s

/-! ### Step 6 -/

/-- Valid fault-log entries of the ring: address and SEQ (R574, R575). -/
def flogEntries (s : State) : List (Nat × Nat) :=
  (List.range 2048).filterMap (fun i =>
    let a := ringBase s + 32 * i
    let e := flashBytes a 32 s
    if e.all (· = 0xFF) || decide (lf e 28 4 ≠ crc32 (slice 0 28 e)) then none else some (a, lf e 0 4))

/-- NVM.FLOG_HEAD and NVM.FLOG_SEQ found at step 6 (R575). -/
def flogScan (s : State) : State :=
  let last := (flogEntries s).foldl (fun (b : Nat × Nat) e => if b.2 < e.2 then e else b) (0, 0)
  let head := if last.2 = 0 then ringBase s
    else if last.1 + 32 = ringBase s + 65536 then ringBase s else last.1 + 32
  { s with nvm := { s.nvm with flogHead := head, flogSeq := last.2 } }

/-- Step 6 (R560, R568, R575): flash size from its identification, headers, choice, fault-log entries for the causes. -/
def step6 (log2 : Nat) (s : State) : State :=
  let s := flogScan { s with nvm := { s.nvm with log2 := log2, keyFused := Config.fusedKeyHash.isSome } }
  let s := ((List.range 6).filter (fun i => bit i s.clk.cause)).foldl (fun s _ => logEntry 1 s.clk.cause s) s
  let codeA := headerCode false s
  let codeB := if copyPresent true s then headerCode true s else 1
  let s := if codeA ≠ 0 then imageErr codeA 0 0 false s else s
  let s := if copyPresent true s && codeB ≠ 0 then imageErr codeB 0 0 true s else s
  let okA := decide (codeA = 0)
  let okB := decide (codeB = 0)
  let ha := headerOf false s
  let hb := headerOf true s
  let s := { s with nvm := { s.nvm with
    aHdr := okA, bHdr := okB, genA := hdrGen ha, genB := if copyPresent true s then hdrGen hb else 0 } }
  if !okA && !okB then enterRecovery s
  else
    let tie := okA && okB && decide (hdrGen ha = hdrGen hb) && decide (slice 32 32 ha ≠ slice 32 32 hb)
    let pickB := okB && (!okA || decide (hdrGen ha < hdrGen hb))
    let s := if tie then logEntry 4 0 (raise 0x08 0 { s with nvm := { s.nvm with tie := true } }) else s
    let s := logEntry 3 (bitIf pickB 0 + (if pickB then hdrGen hb else hdrGen ha) * 2 ^ 32) s
    step7Enter pickB s

/-! ### Training -/

/-- Result of a channel's training: none passes, otherwise the failing step and byte lane. -/
def trainChannel (i : Nat) (r : Option (Nat × Nat)) (s : State) : State :=
  let c := chanGet i s
  if c.trained || 2 ≤ c.fails then s
  else match r with
    | none => chanSet i { c with trained := true, failed := false, step := 6 } s
    | some (st, lane) =>
      let s := chanSet i { c with
        failed := true, failStep := st % 8, failLane := lane % 16, step := st - 1, fails := c.fails + 1 } s
      if c.fails = 1 then logEntry 5 (i + st * 2 ^ 8 + lane * 2 ^ 16) (raise 0x79 i s) else s

/-- TRAINING_COMPLETE and TRAINING_RETRY (R488, R489): results of the channels that were trained. -/
def trainingDone (retry : Bool) (r0 r1 : Option (Nat × Nat)) (s : State) : State :=
  if s.clk.step ≠ 7 || s.nvm.recovery || s.clk.inReset then s
  else
    let one := fun i r s => if (chanGet i s).fails = (if retry then 1 else 0) then trainChannel i r s else s
    one 1 r1 (one 0 r0 s)

/-! ### Step 8 -/

/-- Clock gates of the peripherals that the image uses (R535). -/
def imageGates (s : State) : State :=
  let i := s.img
  let gate0 := maskOf (i.adcLane.map Option.isSome) + (maskOf (i.dacSrc.map (fun _ => true))) * 2 ^ 8
    + (maskOf (i.ampSrc.map (fun _ => true))) * 2 ^ 16 + maskOf i.hsOn * 2 ^ 18
    + (maskOf ((i.netPorts.take 4).map (fun p => decide (p.mode ≠ 0)))) * 2 ^ 20 + 2 ^ 24
    + bitIf (i.tgLanes.any Option.isSome || decide (i.capBytes ≠ 0)) 25
  let cores : Nat := s.ec.progs.foldl (fun m p => m ||| p.coreMask) 0
  rset 0x10010030 0 gate0 (rset 0x10010034 0 (maskOf (i.grps.map (fun g => decide (g.mode ≠ 0))))
    (rset 0x10010038 0 (cores % 2 ^ 32) (rset 0x1001003C 0 (cores / 2 ^ 32) s)))

/-- NET and PTP have been read: the ports are ungated and PTP starts as a follower (R535, R548). -/
def earlyStart (s : State) : State :=
  let body := bodyOf s.clk.copyB s
  match runRecords body 4 0 1 ⟨s, []⟩ with
  | .error _ => s
  | .ok (k, _) =>
    let t := k.st
    let ports := (maskOf ((t.img.netPorts.take 4).map (fun p => decide (p.mode ≠ 0)))) * 2 ^ 20 + 2 ^ 24
    domLink 1 (domLink 0 (rset 0x10010030 0 ports { s with
      img := { s.img with netPorts := t.img.netPorts, ptp := t.img.ptp }, net := { s.net with valid := true }, time := t.time }))

/-- A body that passed every check is applied (R567, R569). -/
def applyBody (copyB : Bool) (t : State) (s : State) : State :=
  let h := headerOf copyB s
  let t := { t with
    img := { t.img with applied := true }
    nvm := { t.nvm with applied := true, copyB := copyB, aBody := t.nvm.aBody || !copyB, bBody := t.nvm.bBody || copyB
                        hash := slice 32 32 h }
    time := if s.time.valid then { t.time with dom0 := s.time.dom0, dom1 := s.time.dom1 } else t.time }
  let s := islandsOff (imageGates t)
  (List.range 4).foldl (fun s p => reportGroups p s) s

/-- IMAGE_APPLY (R569): hash, records in body order, end of the body. -/
def imageApply (s : State) : State :=
  if s.clk.step ≠ 8 || s.nvm.applied || s.nvm.recovery || s.clk.inReset then s
  else
    let copyB := s.clk.copyB
    let body := bodyOf copyB s
    if sha256 body ≠ slice 32 32 (headerOf copyB s) then failCopy 2 ⟨4, 0, false, 0, 0⟩ s
    else match runRecords body 14 0 1 ⟨s, []⟩ with
      | .error e => failCopy 2 e s
      | .ok (k, o) => if o = body.length then applyBody copyB k.st s else failCopy 2 ⟨5, 14, false, 0, 0⟩ s

/-! ### Steps -/

/-- BOOT_STEP_END (R547): the step in progress has ended, where what it waits for has come about. MEM, NET and TIME run from
their PLLs once step 3 has locked them, MEDIA once step 7 has locked APLL (R517). -/
def bootStepEnd (log2 : Nat) (s : State) : State :=
  let c := s.clk
  let go := fun n s => { s with clk := { s.clk with step := n } }
  if c.inReset || c.testMode || s.nvm.recovery then s
  else match c.step with
    | 1 => go 2 s
    | 2 => if c.refOk then programFixed (go 3 s) else s
    | 3 => if (List.range 5).all (fun p => (pllGet p s).locked) && decide ((domainGet 1 s).src = 1) then
        go 4 (startDomain 5 (startDomain 4 (startDomain 3 s)))
      else s
    | 4 => if islandCount s = 16 then go 5 s else s
    | 5 => go 6 { s with mem := { s.mem with sram := [] } }
    | 6 => step6 log2 s
    | 7 => if s.mem.ch0.trained && s.mem.ch1.trained && (pllGet 5 s).locked then
        earlyStart (go 8 (startDomain 6 s))
      else s
    | 8 => if s.nvm.applied then go 9 s else s
    | 9 => if s.time.lock || lockNow s (selectDomain s) then handshakeStart (go 10 s) else s
    | 10 => if s.twin.starting then s else go 11 s
    | _ => s

/-- AUDIO_START (R550): the grid starts at the agreed first block; a joining unit starts at the partner's block and enters
RESYNC. -/
def audioStart (s : State) : State :=
  if s.clk.step ≠ 11 || s.clk.audio || s.clk.inReset then s
  else
    let a := s.twin.proposal
    let s := { s with
      grid := { s.grid with running := true, block := a, sub := 0, met := true, prevMet := true }
      clk := { s.clk with audio := true, bootMs := (s.clk.safe - s.clk.pgoodAt) / 32000 } }
    let s := (List.range s.img.objs.length).foldl (fun s k => objInit k (s.j0 a) s) s
    let s := txStart a s
    let joint := decide (s.twin.phase = 5)
    let s := if s.twin.st = 0 ∨ s.twin.st = 2 then startActing s else s
    let s := if s.twin.st = 4 then enterResync joint s else if s.twin.st = 3 then enterSuspect s else emitByState a s
    evcOccur 0x101 1 (evcOccur 0x100 1 s)

end Sys2Proof.Machine
end

