-- ==== Sys2Proof/Machine/Nvm.lean ====
section
/-!
DEFINITION. The NVM controller (R571, R572, R575) and the fault log (R574).
-/
namespace Sys2Proof.Machine

/-- Flash bytes written. -/
def flashPut (a : Nat) (l : List Nat) (s : State) : State :=
  { s with nvm := { s.nvm with flash := ssetList 0xFF a (l.map (BitVec.ofNat 8)) s.nvm.flash } }

/-- Flash bytes erased. -/
def flashErase (a n : Nat) (s : State) : State :=
  { s with nvm := { s.nvm with flash := s.nvm.flash.filter (fun c => !(decide (a ≤ c.1) && decide (c.1 < a + n))) } }

/-- Programming clears bits and sets none (DESIGN CHOICE: NOR flash, R556). -/
def flashProgram (a : Nat) (l : List Nat) (s : State) : State :=
  flashPut a (List.zipWith (fun x y => x &&& y) (flashBytes a l.length s) l) s

/-- The address lies in the fault-log ring. -/
def inRing (a : Nat) (s : State) : Bool := decide (ringBase s ≤ a) && decide (a < ringBase s + 65536)

/-- A command is refused (R571). -/
def nvmRefused (master a : Nat) (s : State) : Bool :=
  decide (s.nvm.op ≠ 0) || inRing a s || decide (flashSize s ≤ a) || !(master = 0 || master = 2)

/-- A write of NVM.CMD: operation `op` (1 erase, 2 program, 3 CHECK) on the page with address bits [27:8] `page`. -/
def nvmCommand (op master page : Nat) (s : State) : State :=
  let a := (page % 2 ^ 20) * 256
  if nvmRefused master a s then { s with nvm := { s.nvm with refused := true } }
  else
    { s with nvm := { s.nvm with
      op := op, opAddr := a, refused := false, fail := false
      checkDone := if op = 3 then false else s.nvm.checkDone, checkPass := if op = 3 then false else s.nvm.checkPass } }

/-- The page buffer as bytes. -/
def pageBytes (s : State) : List Nat := ((List.range 64).map (fun i => leBytes 4 (sget 0 i s.nvm.page))).flatten

/-- `n` free bytes (the manual leaves them open). -/
def freeBytes (n : Nat) (s : State) : List Nat × State :=
  ((List.range n).map (fun i => Config.freeValue (s.free + i) % 256), { s with free := s.free + n })

/-- CHECK of the copy that holds an address (R572). -/
def copyCheck (a : Nat) (s : State) : Bool :=
  let copyB := decide (s.nvm.log2 = 28) && decide (0x08000000 ≤ a)
  let h := headerOf copyB s
  decide (hdrLen h ≤ bodyLimit copyB s) && decide (sha256 (bodyOf copyB s) = slice 32 32 h)

/-- NVM_OP_DONE (R572): `fail` says that the flash reported an error, whose target then holds what the manual does not
give. -/
def nvmOpDone (fail : Bool) (s : State) : State :=
  let n := s.nvm
  let a := n.opAddr
  if n.op = 0 then s
  else
    let s := { s with nvm := { n with op := 0, fail := fail } }
    if n.op = 3 then { s with nvm := { s.nvm with checkDone := true, checkPass := copyCheck a s } }
    else
      let base := if n.op = 1 then a / 4096 * 4096 else a
      let len := if n.op = 1 then 4096 else 256
      if fail then
        let (l, s) := freeBytes len s
        flashPut base l s
      else if n.op = 1 then flashErase base len s
      else flashProgram base (pageBytes s) s

/-- NVM.ADDR moved on by a word. -/
def nvmNext (s : State) : State := { s with nvm := { s.nvm with addr := (s.nvm.addr + 4) % 2 ^ 28 } }

/-- NVM_DATA_WRITE: the word enters the page buffer at NVM.ADDR[7:2]. -/
def nvmDataWrite (v : Nat) (s : State) : State :=
  nvmNext { s with nvm := { s.nvm with page := sset 0 (s.nvm.addr / 4 % 64) (v % 2 ^ 32) s.nvm.page } }

/-- NVM_DATA_READ (R572): the word, and NVM.ADDR moved on. -/
def nvmDataRead (master : Nat) (s : State) : Nat × State :=
  let a := s.nvm.addr
  let header := fun copyB => copyPresent copyB s && decide (copyBase copyB ≤ a) && decide (a < copyBase copyB + 256)
  let may := decide (master ≠ 2) || header false || header true || inRing a s
  (if may && decide (a < flashSize s) then le (flashBytes a 4 s) else 0, nvmNext s)

/-! ### Fault log -/

/-- One entry written at NVM.FLOG_HEAD, the sector erased first where the entry is its first (R574, R575). -/
def flogEntry (kind data : Nat) (s : State) : State :=
  let n := s.nvm
  let seq := n.flogSeq + 1
  let b := leBytes 4 seq ++ leBytes 8 (if s.clk.audio then s.grid.block else 0)
    ++ leBytes 4 ((s.clk.safe - s.clk.resetAt) / 32000) ++ leBytes 2 kind ++ [0, 0] ++ leBytes 8 data
  let s := if n.flogHead % 4096 = 0 then flashErase n.flogHead 4096 s else s
  let s := flashProgram n.flogHead (b ++ leBytes 4 (crc32 b)) s
  let head := if n.flogHead + 32 = ringBase s + 65536 then ringBase s else n.flogHead + 32
  { s with nvm := { s.nvm with flogHead := head, flogSeq := seq, flogTimes := n.flogTimes ++ [s.clk.safe] } }

/-- FAULT_LOG_WRITE (R575): the oldest entry asked for is written, or dropped and counted beyond 4 per second; a
SUPPRESSED entry goes first once the rate allows. -/
def faultLogWrite (safe : Nat) (s : State) : State :=
  let s := setSafe safe s
  if s.nvm.log2 = 0 then s
  else
    let recent := s.nvm.flogTimes.filter (fun t => decide (s.clk.safe < t + 32000000))
    let s := { s with nvm := { s.nvm with flogTimes := recent } }
    if 4 ≤ recent.length then
      match s.ev.logQ with
      | [] => s
      | _ :: rest =>
        count 0x10130058 0 1 { s with
          ev := { s.ev with logQ := rest }, nvm := { s.nvm with flogDrops := s.nvm.flogDrops + 1 } }
    else if s.nvm.flogDrops ≠ 0 then
      flogEntry 8 s.nvm.flogDrops { s with nvm := { s.nvm with flogDrops := 0 } }
    else match s.ev.logQ with
      | [] => s
      | (kind, data) :: rest => flogEntry kind data { s with ev := { s.ev with logQ := rest } }

/-! ### Registers -/

/-- The RO registers of the NVM block. -/
def nvmReg (off : Nat) (s : State) : Nat :=
  let n := s.nvm
  if 0x20 ≤ off ∧ off ≤ 0x3C then (if n.applied then lf n.hash (off - 0x20) 4 else 0)
  else match off with
    | 0x00 => if n.log2 = 0 then 0 else n.log2 + 2 ^ 31
    | 0x04 => bitIf n.aHdr 0 + bitIf n.bHdr 1 + bitIf n.aBody 2 + bitIf n.bBody 3 + bitIf n.copyB 4 + bitIf n.applied 5
        + bitIf n.tie 6 + bitIf n.recovery 7 + bitIf n.keyFused 8
    | 0x08 => n.errCode + n.errRecord * 256 + bitIf n.errCopyB 12 + bitIf n.errValid 31
    | 0x0C => n.errIndex
    | 0x10 => n.genA
    | 0x14 => n.genB
    | 0x40 => n.addr
    | 0x4C => bitIf (decide (n.op ≠ 0)) 0 + bitIf n.refused 1 + bitIf n.fail 2 + bitIf n.checkDone 3 + bitIf n.checkPass 4
    | 0x50 => n.flogHead
    | 0x54 => n.flogSeq
    | _ => 0

end Sys2Proof.Machine
end

