-- ==== Sys2Proof/Machine/Replies.lean ====
section
/-!
DEFINITION. Frames of the device to its host (R577 to R585): replies, their keeping, and the output queues.
-/
namespace Sys2Proof.Machine

/-- A TCM frame (R577) with its MAC (R578) where `mac` gives a key. -/
def tcmFrame (type flags key seq status session : Nat) (payload : List Nat) (mac : Option (List Nat)) : List Nat :=
  let m := [1, type, flags, key] ++ beBytes 4 seq ++ beBytes 2 payload.length ++ beBytes 2 status ++ beBytes 4 session
    ++ payload
  match mac with
  | some k => m ++ (hmac k m).take 16
  | none => m

/-- Bytes of key `k` of the KEYS record. -/
def keyBytes (k : Nat) (s : State) : List Nat := ((s.tcm.keys[k]?).map Key.bytes).getD []

/-- A frame dropped under R581 or R582: counted. -/
def dropFrame (s : State) : State := count 0x10140030 0 1 s

/-- A reply enters the SPI output queue ahead of EVENT frames (R582); where all 16 places are taken, an EVENT frame gives
way, and among 16 replies it is dropped. -/
def spiReply (f : List Nat) (s : State) : State :=
  let q := s.tcm.spiOut
  let replies := q.filter (fun e => !e.1)
  let events := q.filter Prod.fst
  if 16 ≤ replies.length then dropFrame s
  else { s with tcm := { s.tcm with spiOut := replies ++ [(false, f)] ++ events.take (15 - replies.length) } }

/-- A frame leaves on MGMT (R580). -/
def mgmtSend (addr port : Nat) (f : List Nat) (s : State) : State :=
  { s with tcm := { s.tcm with mgmtOut := s.tcm.mgmtOut ++ [⟨addr, port, f⟩] } }

/-- What is kept for a key; requests without a MAC share one place. -/
def memoKey (auth : Bool) (key : Nat) : Nat := if auth then key else 256
def memoOf (auth : Bool) (key : Nat) (s : State) : KeyMemo := sget ⟨none, []⟩ (memoKey auth key) s.tcm.memo

/-- A reply's frame is sent where its request came from. -/
def replySend (r : ReplyTo) (f : List Nat) (s : State) : State :=
  if r.spi then spiReply f s else mgmtSend r.addr r.port f s

/-- The frame of a reply. -/
def replyFrame (r : ReplyTo) (status : Nat) (payload : List Nat) (s : State) : List Nat :=
  tcmFrame r.type (if r.auth then 3 else 1) r.key r.seq status s.tcm.session payload
    (if r.auth then some (keyBytes r.key s) else none)

/-- A reply to a request that was not accepted: it is not kept. -/
def replyPlain (r : ReplyTo) (status : Nat) (payload : List Nat) (s : State) : State :=
  replySend r (replyFrame r status payload s) s

/-- The reply to an accepted request: sent and kept (R585). -/
def reply (r : ReplyTo) (status : Nat) (payload : List Nat) (s : State) : State :=
  let f := replyFrame r status payload s
  let m := memoOf r.auth r.key s
  let s := { s with tcm := { s.tcm with
    memo := sput (memoKey r.auth r.key) { m with replies := lastN 16 (m.replies ++ [(r.seq, f)]) } s.tcm.memo } }
  replySend r f s

/-- A reply to a request that came through a register has nowhere to go. -/
def replyIf (r : Option ReplyTo) (status : Nat) (payload : List Nat) (s : State) : State :=
  match r with
  | some r => reply r status payload s
  | none => s

end Sys2Proof.Machine
end

