-- ==== Sys2Proof/Machine/Fixes.lean ====
section
/-!
DEFINITION. Fixes (R153 to R165): the open staged set and its mirror, registration with its checks, preparing and acting.
-/
namespace Sys2Proof.Machine

/-! ### The staged set -/

/-- The unit takes staged writes and registers requests (R161, R313): it acts, or is LATENT in declared-divergent mode. -/
def takesOwn (s : State) : Bool :=
  s.twin.acts || (s.twin.divergent && decide (s.twin.st = 1) && !s.twin.starting)

/-- An entry of the open set's mirror; the holder sends it as it is made (R325). -/
def mirrorEntry (e : List Nat) (s : State) : State :=
  let s := { s with mx := { s.mx with open_ := { s.mx.open_ with bytes := s.mx.open_.bytes ++ e } } }
  if relays s then linkSend 0x11 e s else s

/-- The open set has overflowed (R154). -/
def overflowSet (s : State) : State := { s with mx := { s.mx with open_ := { s.mx.open_ with overflow := true } } }

/-- FX registers that are not reached through a selection. -/
def unselected (addr : Nat) : Bool :=
  decide (addr = 0x10050004) || within 0x10050070 0x100500B8 addr || within 0x10060100 0x1006017C addr
    || [0x10170050, 0x1017005C, 0x10170060, 0x10170064].contains addr

/-- A value put at a key of a list in order of first write (R155). -/
def upsert (k v : Nat) : List (Nat × Nat) → List (Nat × Nat)
  | [] => [(k, v)]
  | (j, w) :: t => if j = k then (k, v) :: t else (j, w) :: upsert k v t

/-- A node word put in place of an earlier word of the same node (R155). -/
def upsertNode (w : Nat) : List Nat → List Nat
  | [] => [w]
  | x :: t => if wordLane x = wordLane w ∧ wordBus x = wordBus w then w :: t else x :: upsertNode w t

/-- A register write or slot commit counted and staged under `key`, with its mirror entry (R153 to R155). -/
def stageKey (key v : Nat) (entry : List Nat) (s : State) : State :=
  let o := s.mx.open_
  if 16384 ≤ o.regCount then overflowSet s
  else mirrorEntry entry
    { s with mx := { s.mx with open_ := { o with regs := upsert key v o.regs, regCount := o.regCount + 1 } } }

/-- A write to an FX register staged for an instance. -/
def stageReg (addr inst v : Nat) (s : State) : State :=
  stageKey (rkey addr inst) v
    ([1, 0, 0, 0] ++ beBytes 4 addr ++ beBytes 2 (if unselected addr then 0xFFFF else inst) ++ [0, 0] ++ beBytes 4 v) s

/-- The address under which slot commits are staged: CONV.LOAD_COMMIT. -/
def commitAddr : Nat := 0x10090030

/-- CONV_LOAD_COMMIT (R211): the load of a slot is staged. -/
def stageCommit (slot : Nat) (s : State) : State :=
  stageKey (rkey commitAddr slot) 1 ([5, 0, 0, 0] ++ beBytes 2 slot ++ [0, 0]) s

/-- Node words staged in order (R587); answers how many entered before the limit of R154. -/
def stageNodes (ws : List Nat) (s : State) : Nat × State :=
  let o := s.mx.open_
  let room := 262144 - o.nodeCount
  let ok := ws.take room
  let s := { s with mx := { s.mx with open_ := { o with
    nodes := ok.foldl (fun l w => upsertNode w l) o.nodes, nodeCount := o.nodeCount + ok.length } } }
  let s := if ok.isEmpty then s
    else mirrorEntry ([2, 0] ++ beBytes 2 ok.length ++ (ok.map (beBytes 8)).flatten) s
  (ok.length, if room < ws.length then overflowSet s else s)

/-- A keyframe record pushed (R94, R95). -/
def stageKf (rec : List Nat) (s : State) : State :=
  let o := s.mx.open_
  if 64 ≤ o.kfs.length then overflowSet s
  else mirrorEntry ([3, 0, 0, 0] ++ rec) { s with mx := { s.mx with open_ := { o with kfs := o.kfs ++ [rec] } } }

/-- KF_PUSH (R94): the ten words as last written in the open set, or in effect. -/
def kfPush (s : State) : State :=
  let word := fun j =>
    let a := 0x10050090 + 4 * j
    match s.mx.open_.regs.find? (fun e => decide (e.1 = rkey a 0)) with
    | some e => e.2
    | none => rget a 0 s
  stageKf (((List.range 10).map (fun j => beBytes 4 (word j))).flatten) s

/-- Slots whose commit a staged set carries: a commit is a write of 1 to bit 0. -/
def commitsOf (t : Staged) : List Nat :=
  (t.regs.filter (fun e => decide (e.1 / 65536 = commitAddr) && bit 0 e.2)).map (fun e => e.1 % 65536)

/-- A load that is discarded or rejected leaves its slot FREE (R211), unless the slot is IN_USE. -/
def freeSlots (l : List Nat) (s : State) : State :=
  l.foldl (fun s i =>
    let sl := slotGet i s
    slotSet i { state := if sl.state = 3 then 3 else 0, committed := false } s) s

/-- FIX.COMMIT.DISCARD (R156). -/
def discardSet (s : State) : State :=
  let t := s.mx.open_
  let s := freeSlots (commitsOf t) { s with mx := { s.mx with open_ := Staged.empty } }
  if relays s then linkSend 0x11 [6, 0, 0, 0] s else s

/-- A word of a slot stored (R210): a FREE or READY slot goes to LOADING. -/
def slotWrite (i off v : Nat) (s : State) : State :=
  slotSet i { slotGet i s with state := 1 } (dramPut (slotAddr s i + off) (leBytes 4 v) s)

/-- CONV_LOAD_DATA (R210) for the slot and address selected by `master`: stored at once, or dropped and counted where the slot
is IN_USE or committed. The address register advances in any case; a write to a slot that does not exist counts as dropped,
and one past the header stores nothing, counts nothing and leaves the slot's state: DEDUCED (assumption 101). -/
def loadData (master v : Nat) (s : State) : State :=
  let i := rget 0x10090020 master s
  let off := rget 0x10090028 master s
  let next := fun (s : State) => rset 0x10090028 master ((off + 4) % 2 ^ 19) s
  if s.img.slots ≤ i || (slotGet i s).committed || decide ((slotGet i s).state = 3) then next (count 0x10090040 0 1 s)
  else if 262272 ≤ off then next s
  else next (mirrorEntry ([4, 0, 0, 1] ++ beBytes 2 i ++ [0, 0] ++ beBytes 4 off ++ beBytes 4 v) (slotWrite i off v s))

/-- A node word from the XP registers selected by `master` (NODE_GAIN_WRITE): lane, bus, gain, ramp code, NO_COUNT. A gain
that breaks R644 carries its fault in the reserved bits of the word. -/
def nodeGainWrite (master v : Nat) (s : State) : State :=
  let w := nodeWord (rget 0x10070020 master s) (rget 0x10070024 master s) (signExt 24 (v % 2 ^ 24))
    (rget 0x10070010 master s) (bit 0 (rget 0x10070028 master s))
  (stageNodes [w + (if fxReservedOk 0x1007002C v then 0 else 2 ^ 55)] s).2

/-- A fix request (R157). -/
def fixRequest (n : Nat) (r : Option ReplyTo) (s : State) : State :=
  { s with mx := { s.mx with requests := s.mx.requests ++ [⟨n, s.grid.block, r⟩] } }

/-! ### Checks of R158 -/

/-- The registers as they stand once the register writes of a set are in effect. -/
def overlay (t : Staged) (s : State) : State :=
  { s with bus := { s.bus with
    regs := (t.regs.filter (fun e => decide (e.1 / 65536 ≠ commitAddr))).foldl
      (fun m e => sset (regReset (e.1 / 65536)) e.1 (fxFields (e.1 / 65536) e.2) m) s.bus.regs } }

/-- Gain set and running ramps after the node writes of a set that acts at block `a` (R139, R144). -/
def applyNodes (s : State) (a : Nat) (ws : List Nat) (m : Sparse NodeEnt × Sparse Ramp) : Sparse NodeEnt × Sparse Ramp :=
  ws.foldl (fun m w =>
    let n := wordNode w
    let b0 := rampStart s a (wordBus w)
    let now := match m.2.find? (fun x => decide (x.1 = n)) with
      | some x => x.2.at_ b0
      | none => (sget NodeEnt.none n m.1).gain
    let len := rampLen (wordRamp w)
    let runs := decide (now ≠ wordGain w) && decide (len ≠ 0)
    (writeNode w runs m.1, if runs then sput n ⟨now, wordGain w, b0, len⟩ m.2 else sdel n m.2)) m

/-- Gain set and ramps at block `a`: ramps that are over leave, and entries of target 0 with them (R139). -/
def settleNodes (s : State) (a : Nat) (m : Sparse NodeEnt × Sparse Ramp) : Sparse NodeEnt × Sparse Ramp :=
  let past := fun (n : Nat) (r : Ramp) => decide (r.b0 + r.len ≤ rampStart s a (n % 5120))
  let rs := m.2.filter (fun x => !past x.1 x.2)
  (m.1.filter (fun x => decide (x.2.gain ≠ 0) || rs.any (fun y => decide (y.1 = x.1))), rs)

/-- Gain set and ramps in block `a`, the pending fixes and `ws` having acted. -/
def nodesAt (s : State) (a : Nat) (ws : List Nat) : Sparse NodeEnt × Sparse Ramp :=
  let m := s.mx.pending.foldl (fun m f => applyNodes s f.act f.set.nodes (settleNodes s f.act m)) (liveSet s.mx, s.mx.ramps)
  applyNodes s a ws (settleNodes s a m)

/-- Channels of the capture: ADC channels 0 to 7 and taps 8 to 23 (R223). -/
def capChannels (s : State) : List Nat :=
  (List.range 24).filter (fun c =>
    if c < 8 then bit (c + 2) (rget 0x10170050 0 s) else bit 31 (rget 0x10170058 (c - 8) s))

/-- Bytes of a capture frame, and frames in the ring (R224). -/
def capFrameBytes (s : State) : Nat := 16 + 4 * s.B * (capChannels s).length
def capFrames (s : State) : Nat := s.cap.bytes / capFrameBytes s

/-- R226 on the capture registers in effect in `s`. -/
def captureOk (s : State) : Bool :=
  decide (rget 0x10170050 0 s % 4 ≠ 1) || decide (rget 0x10170064 0 s ≤ capFrames s)

/-- A crossfade: chain, first block and first block in which it has ended (R213 to R215). -/
structure XfadeSpan where
  chain : Nat
  first : Nat
  stop : Nat
deriving DecidableEq, Repr

/-- Block at which an index has been passed. -/
def passed (s : State) (i : Int) : Nat := ((i + s.B - 1) / s.B).toNat

/-- Crossfades that a set starts when it acts at block `a`; `before` gives the slot of a chain. -/
def crossfadesOf (s : State) (a : Nat) (t : Staged) (before : Nat → Nat) : List XfadeSpan :=
  (t.regs.filter (fun e => decide (e.1 / 65536 = 0x10090008))).filterMap (fun e =>
    let sel := e.1 % 65536
    if before sel = e.2 % 4096 then none
    else some ⟨sel, a, passed s (crossfadeStart s a + rampLen (bits 15 12 e.2))⟩)

/-- The slot of a chain after the sets of a list, latest last. -/
def slotAfter (s : State) (l : List Staged) (sel : Nat) : Nat :=
  l.foldl (fun v t => match t.regs.find? (fun e => decide (e.1 = rkey 0x10090008 sel)) with
    | some e => e.2 % 4096
    | none => v) (convGet sel s).slot

/-- Crossfades running or pending. -/
def allCrossfades (s : State) : List XfadeSpan :=
  let now := (s.conv.filter (fun e => !e.2.xfDone)).map (fun e =>
    XfadeSpan.mk e.1 s.grid.block (passed s (e.2.xfAt + e.2.xfLen)))
  (s.mx.pending.foldl (fun (acc : List XfadeSpan × List Staged) f =>
    (acc.1 ++ crossfadesOf s f.act f.set (slotAfter s acc.2), acc.2 ++ [f.set])) (now, [])).1

/-- R215 for a set that acts at block `a`. -/
def crossfadesOk (s : State) (a : Nat) (t : Staged) : Bool :=
  let new := crossfadesOf s a t (slotAfter s (s.mx.pending.map Fix.set))
  let old := (allCrossfades s).filter (fun x => decide (a < x.stop))
  decide (old.length + new.length ≤ 64) && new.all (fun x => !old.any (fun y => decide (y.chain = x.chain)))

/-- R212 on a chain's new slot: none, or a slot that holds valid content when the fix acts. -/
def slotNamed (s : State) (t : Staged) (v : Nat) : Bool :=
  let i := v % 4096
  decide (i = 0xFFF) || (decide (i < s.img.slots) && (decide (2 ≤ (slotGet i s).state) || (commitsOf t).contains i
    || s.mx.pending.any (fun f => (commitsOf f.set).contains i)))

/-- One staged register write (R644, R645 and its chapter): `o` has the registers of the fix in effect. -/
def regOk (s o : State) (t : Staged) (e : Nat × Nat) : Bool :=
  let addr := e.1 / 65536
  let inst := e.1 % 65536
  let v := fxFields addr e.2
  if addr = commitAddr then
    fxReservedOk addr e.2 && (!bit 0 e.2 || (decide (inst < s.img.slots) && slotHolds inst s))
  else
    fxReservedOk addr e.2 && fxInstance addr inst s && fxRange addr inst v s
      && (!within 0x10050010 0x1005001C addr || objLawOk inst o)
      && (decide (addr ≠ 0x10070044) || busAutoOk inst v s)
      && (!within 0x10170014 0x10170030 addr || toneOk inst o)
      && (decide (addr ≠ 0x10090008) || slotNamed s t v)
      && (!within 0x10170050 0x10170064 addr || captureOk o)

/-- Entries of each direct bus stay within 64 (R188). -/
def directOk (s : State) (e : Sparse NodeEnt) : Bool :=
  s.img.dirBus.all (fun b => match b with
    | some k => decide ((busEntries k e).length ≤ 64)
    | none => true)

/-- Check 0x06 but for the nodes' capacity on direct buses. -/
def valuesOk (s : State) (a : Nat) (t : Staged) : Bool :=
  let o := overlay t (s.mx.pending.foldl (fun s f => overlay f.set s) s)
  t.nodes.all (fun w => decide (w / 2 ^ 55 = 0)
      && ((directChannel s (wordBus w)).isNone || directLane s (wordLane w)))
    && t.regs.all (regOk s o t) && crossfadesOk s a t

/-- Check 0x07: R132, R123. -/
def nodesOk (s : State) (t : Staged) : Bool :=
  t.nodes.all (fun w => nodeExists s (wordLane w) (wordBus w) && nodeNotPan s (wordLane w) (wordBus w))

/-- Acting block of a fix that names block `n` and registers at block `c` (R159). -/
def actingBlock (n c : Nat) : Nat := if c + 2 ≤ n then n else c + 1

/-- The table "Fix registration results" for a set that names block `n`. -/
def fixCode (n : Nat) (t : Staged) (s : State) : Nat :=
  let c := s.grid.block
  let a := actingBlock n c
  let p := s.mx.pending
  let m := nodesAt s a (t.nodes.filter (fun w => nodeExists s (wordLane w) (wordBus w)))
  if 16 ≤ p.length then 0x02
  else if p.any (fun f => decide (n ≤ f.act)) || (!p.isEmpty && decide (n ≤ c + 1)) then 0x03
  else if c + 524288 < n then 0x04
  else if t.overflow then 0x05
  else if !valuesOk s a t || !directOk s m.1 then 0x06
  else if !nodesOk s t then 0x07
  else if nodeCapacity s < m.1.length then 0x08
  else if 262144 < m.2.length then 0x09
  else if n ≤ c + 1 then 0x01 else 0x00

/-! ### Registration -/

/-- FIX.RESULT after a registration. -/
def fixResult (code : Nat) (s : State) : State :=
  { s with mx := { s.mx with result := code, resultSeq := (s.mx.resultSeq + 1) % 65536, open_ := Staged.empty } }

/-- LATE_FIX (R159). -/
def noteLate (s : State) : State :=
  raiseTick 0x2A 0 (count 0x10160034 0 1 { s with grid := { s.grid with lateFix := true } })

/-- An accepted fix is pending (R157); its committed slots take no more loads (R210). -/
def admitFix (f : Fix) (s : State) : State :=
  let s := { s with mx := { s.mx with pending := s.mx.pending ++ [f] } }
  let s := (commitsOf f.set).foldl (fun s i => slotSet i { slotGet i s with committed := true } s) s
  if f.late then noteLate s else s

/-- FIX_SEAL payload (table "Fix seal"). -/
def sealBytes (c act code : Nat) (t : Staged) : List Nat :=
  beBytes 8 c ++ beBytes 8 (if code ≤ 1 then act else 0) ++ [code, 0, 0, 0] ++ beBytes 4 t.nodeCount ++ beBytes 4 t.regCount
    ++ beBytes 2 t.kfs.length ++ [0, 0] ++ beBytes 4 t.bytes.length ++ beBytes 4 (crc32 t.bytes)

/-- Payload of the reply to a FIX request. -/
def fixReply (code c act : Nat) (s : State) : List Nat :=
  [code, 0, 0, 0] ++ beBytes 2 s.mx.resultSeq ++ [0, 0] ++ beBytes 8 c ++ beBytes 8 (if code ≤ 1 then act else 0)

/-- One fix request registers at the tick of the current block (R157 to R161). -/
def registerFix (r : FixReq) (s : State) : State :=
  let c := s.grid.block
  let t := s.mx.open_
  let code := fixCode r.block t s
  let act := actingBlock r.block c
  let s := if relays s then linkSend 0x12 (sealBytes c act code t) s else s
  let s := fixResult code s
  let s := if code ≤ 1 then admitFix ⟨r.block, act, decide (code = 1), t, c⟩ s
    else raiseTick 0x29 0 (count 0x10160038 0 1 (freeSlots (commitsOf t) s))
  replyIf r.reply (if code ≤ 1 then 0 else 8) (fixReply code c act s) s

/-! ### Preparing and acting -/

/-- Node entries of set `b` made those of set `a` for the nodes of some words. -/
def copyNodes (ws : List Nat) (a b : Sparse NodeEnt) : Sparse NodeEnt :=
  ws.foldl (fun b w => match a.find? (fun x => decide (x.1 = wordNode w)) with
    | some x => sput x.1 x.2 b
    | none => sdel (wordNode w) b) b

/-- The replay of the fix that acted last (R163). -/
def fixReplay (s : State) : State :=
  if s.mx.replay.isEmpty then s
  else { s with mx := setStaged (copyNodes s.mx.replay (liveSet s.mx) (stagedSet s.mx)) { s.mx with replay := [] } }

/-- The node writes of fix `f` written into the staged gain set (R163). -/
def prepareFix (f : Fix) (s : State) : State :=
  if s.mx.prepared = some f.act then s
  else
    let s := fixReplay s
    let e := (applyNodes s f.act f.set.nodes (stagedSet s.mx, s.mx.ramps)).1
    { s with mx := setStaged e { s.mx with prepared := some f.act } }

/-- FIX_PREPARE: in the block before the acting block (R163). -/
def fixPrepare (s : State) : State :=
  let s := fixReplay s
  match s.mx.pending.find? (fun f => decide (f.act = s.grid.block + 1)) with
  | some f => prepareFix f s
  | none => s

/-- Bus factors of the buses that a fix touches (R152): `before` is the machine before the fix. -/
def fixFactors (a : Nat) (t : Staged) (before s : State) : State :=
  let cfgs := (t.regs.filter (fun e => decide (e.1 / 65536 = 0x10070044))).map (fun e => e.1 % 65536)
  let bs := (t.nodes.map wordBus ++ cfgs).eraseDups
  bs.foldl (fun s k =>
    let n0 := contributors k (liveSet before.mx)
    let n1 := contributors k (liveSet s.mx)
    let c0 := busCfg before k
    let c1 := busCfg s k
    if n0 = n1 && c0 = c1 then s
    else
      let r := (factorOf s k).retarget (autoFactor (c1 % 4) n1) (rampStart s a k) (bits 5 2 c1)
      { s with mx := { s.mx with factors := sset (Ramp.settled (2 ^ 21)) k r s.mx.factors } }) s

/-- A chain whose registers a fix writes (R171, R178, R182, R190). -/
def fixChain (a sel : Nat) (before s : State) : State :=
  let c := chGet sel s
  let b0 := match chainBus s sel with | some k => rampStart s a k | none => s.j0 a
  let ctrl := rget 0x10080010 sel s
  let t1 := trimTarget s sel
  let c := if trimTarget before sel = t1 then c else { c with trim := c.trim.retarget t1 b0 (bits 12 9 ctrl) }
  let p : Int := if isSpk s sel then s.B else if isGen s sel then (bits 8 2 ctrl : Nat) else 0
  let v := dynVer s sel (b0 + p)
  let c := if dynVer before sel (b0 + p) = v then c else { c with vers := c.vers ++ [v] }
  let al := rget 0x10080030 sel s
  let c := if rget 0x10080030 sel before = al then c
    else { c with aligns := lastN 4 c.aligns ++ [((s.B : Int) * a, al)] }
  chSet sel c s

/-- A chain's filter written by a fix that acts at block `a` (R213). -/
def fixFilter (a sel : Nat) (s : State) : State :=
  let v := rget 0x10090008 sel s
  let c := convGet sel s
  if c.slot = v % 4096 then s
  else
    let s := if v % 4096 = 0xFFF then s
      else slotSet (v % 4096) { slotGet (v % 4096) s with state := 3 } s
    convSet sel { c with
      slot := v % 4096, old := c.slot, xfAt := crossfadeStart s a, xfLen := rampLen (bits 15 12 v), xfDone := false
      prevOld := c.old, prevAt := c.xfAt, prevLen := c.xfLen } s

/-- The capture mode written by a fix that acts at block `n` (R226). -/
def fixCapture (n : Nat) (s : State) : State :=
  let mode := rget 0x10170050 0 s % 4
  if mode = 0 then { s with cap := { s.cap with running := false, armed := false } }
  else
    let start := rget 0x1017005C 0 s + rget 0x10170060 0 s * 2 ^ 32
    let m0 := max start (n + 2)
    let stop := start + rget 0x10170064 0 s
    let none_ := decide (mode = 1) && decide (stop ≤ m0)
    { s with cap := { s.cap with
      running := false, done := none_, late := decide (start < m0), wrapped := false, m0 := m0
      stop := if mode = 1 then some stop else none, last := none, armed := !none_ } }

/-- CAPTURE_START: frames are written from m0 on (R226). -/
def captureStart (s : State) : State :=
  if s.cap.armed && decide (s.cap.m0 ≤ s.grid.block) then
    { s with cap := { s.cap with armed := false, running := true } }
  else s

/-- CAPTURE_END: a ONE_SHOT capture whose last frame has been written sets DONE (R226). -/
def captureEnd (s : State) : State :=
  match s.cap.stop, s.cap.last with
  | some e, some l =>
    if s.cap.running && decide (e ≤ l + 1) then { s with cap := { s.cap with running := false, done := true } } else s
  | _, _ => s

/-- Instances of a register address block that a set writes. -/
def touched (t : Staged) (lo hi : Nat) : List Nat :=
  ((t.regs.filter (fun e => within lo hi (e.1 / 65536))).map (fun e => e.1 % 65536)).eraseDups

/-- The register writes of a fix take effect at block `a`, with what follows in each block. -/
def fixRegs (a : Nat) (t : Staged) (before s : State) : State :=
  let s := (touched t 0x10050010 0x10050010).foldl (fun s k =>
    if bit 2 (rget 0x10050010 k s) && !bit 2 (rget 0x10050010 k before) then delayStep a k s else s) s
  let s := (touched t 0x10080010 0x10080030).foldl (fun s sel => fixChain a sel before s) s
  let s := (commitsOf t).foldl (fun s i =>
    slotSet i { slotGet i s with committed := false, state := if slotUsers i s = 0 then 2 else 3 } s) s
  let s := (touched t 0x10090008 0x10090008).foldl (fun s sel => fixFilter a sel s) s
  let s := (touched t 0x10170014 0x10170014).foldl (fun s k => toneMode a k s) s
  let s := if (touched t 0x10170050 0x10170050).isEmpty then s else fixCapture a s
  let s := (touched t 0x100F0008 0x100F0018).foldl (fun s k =>
    dacFix a k ((touched t 0x100F000C 0x100F000C).contains k
      || (decide (rget 0x100F0008 k before % 4 = 0) && decide (rget 0x100F0008 k s % 4 ≠ 0))) s) s
  (touched t 0x100E000C 0x100E000C).foldl (fun s k =>
    if rget 0x100E000C k before % 128 = rget 0x100E000C k s % 128 then s
    else adcSet k { adcGet k s with switched := true } s) s

/-- A pending fix acts at the tick of the current block (R162, R163). -/
def actFix (f : Fix) (s : State) : State :=
  let a := s.grid.block
  let before := s
  let s := prepareFix { f with act := a } s
  let rs := (applyNodes s a f.set.nodes (liveSet s.mx, s.mx.ramps)).2
  let s := { s with mx := { s.mx with
    liveB := !s.mx.liveB, ramps := rs, prepared := none, replay := f.set.nodes, acted := a
    pending := s.mx.pending.filter (fun g => decide (g ≠ f)) } }
  let s := fixFactors a f.set before (overlay f.set s)
  let s := fixRegs a f.set before s
  let s := f.set.kfs.foldl (fun s rec => enterRecord a rec s) s
  let s := reportChanges before (evcOccur 0x106 1 (count 0x10160030 0 1 s))
  if f.late then lapseTick s else s

/-- FIX_ACT: every pending fix whose block has come acts (R162, R244). -/
def fixAct (s : State) : State :=
  if !s.grid.running then s
  else (s.mx.pending.filter (fun f => decide (f.act ≤ s.grid.block))).foldl (fun s f => actFix f s) s

/-- FIX_REGISTER: at the first tick after their reception the requests register, in order; the fix of this tick has acted
(R157). -/
def fixRegister (s : State) : State :=
  if !s.grid.running then s
  else
    let s := fixAct s
    let due := s.mx.requests.filter (fun r => decide (r.got < s.grid.block))
    let s := { s with mx := { s.mx with requests := s.mx.requests.filter (fun r => !decide (r.got < s.grid.block)) } }
    due.foldl (fun s r => if takesOwn s then registerFix r s else replyIf r.reply 1 [] s) s

/-! ### The partner's side (R325, R326) -/

/-- The unit keeps its partner's mirrored set: a standby unit that is not declared-divergent. -/
def keepsMirror (s : State) : Bool := standby s && !s.twin.divergent

/-- One mirror entry taken into the mirrored set. -/
def takeEntry (e : List Nat) (s : State) : State :=
  let n := be (slice 2 2 e)
  match nth 0 e 0 with
  | 1 =>
    let inst := be (slice 8 2 e)
    stageReg (be (slice 4 4 e)) (if inst = 0xFFFF then 0 else inst) (be (slice 12 4 e)) s
  | 2 => (stageNodes ((List.range n).map (fun i => be (slice (4 + 8 * i) 8 e))) s).2
  | 3 => stageKf (e.drop 4) s
  | 4 =>
    let i := be (slice 4 2 e)
    let s := (List.range n).foldl (fun s k => slotWrite i (be (slice 8 4 e) + 4 * k) (be (slice (12 + 4 * k) 4 e)) s) s
    mirrorEntry e s
  | 5 => stageCommit (be (slice 4 2 e)) s
  | _ => discardSet s

/-- While the bulk phase assembles the holder's state, frames that change that state wait for its installation (R335). -/
def holds (s : State) : Bool := keepsMirror s && decide (s.twin.phase = 1) && !s.twin.pieces.isEmpty

/-- A frame kept for the installation. -/
def holdFrame (type : Nat) (half : Bool) (p : List Nat) (s : State) : State :=
  { s with twin := { s.twin with relayLog := s.twin.relayLog ++ [(s.grid.block, type, half, p)] } }

/-- STAGE_MIRROR_FRAME: entries in staging order. -/
def mirrorReceive (p : List Nat) (s : State) : State :=
  if !keepsMirror s then s
  else if holds s then holdFrame 0x11 false p s
  else ((mirrorEntries (p.length + 1) p).getD []).foldl (fun s e => takeEntry e s) s

/-- Block at which a sealed fix acts here (R326): a late one at c + 1 when its seal came in the first half of block c. -/
def sealAct (c act code : Nat) (firstHalf : Bool) (s : State) : Nat :=
  let b := s.grid.block
  if code = 1 then (if b < c || (b = c && firstHalf) then c + 1 else max (c + 2) (b + 1)) else max act (b + 1)

/-- FIX_SEAL_FRAME: the mirrored set is checked against the seal (R325). -/
def sealReceive (p : List Nat) (firstHalf : Bool) (s : State) : State :=
  if !keepsMirror s then s
  else if holds s then holdFrame 0x12 firstHalf p s
  else
    let t := s.mx.open_
    let c := be (slice 0 8 p)
    let act := be (slice 8 8 p)
    let code := nth 0 p 16
    if sealBytes c act code t ≠ p then enterSuspect (freeSlots (commitsOf t) { s with mx := { s.mx with open_ := Staged.empty } })
    else
      let s := fixResult code s
      if code ≤ 1 then admitFix ⟨act, sealAct c act code firstHalf s, decide (code = 1), t, c⟩ s
      else freeSlots (commitsOf t) s

/-! ### Registers -/

/-- The RO registers of the FIX block. -/
def fixReg (off : Nat) (s : State) : Nat :=
  let m := s.mx
  let next := (m.pending.map Fix.act).foldl (fun a b => if a = 0 then b else min a b) 0
  match off with
  | 0x00 => m.pending.length + bitIf m.open_.overflow 5
  | 0x04 => m.open_.nodeCount
  | 0x08 => m.open_.regCount
  | 0x0C => m.open_.kfs.length
  | 0x1C => m.result + m.resultSeq * 2 ^ 16
  | 0x20 => m.acted % 2 ^ 32
  | 0x24 => m.acted / 2 ^ 32 % 2 ^ 27
  | 0x28 => next % 2 ^ 32
  | 0x2C => next / 2 ^ 32 % 2 ^ 27
  | _ => 0

end Sys2Proof.Machine
end

