-- ==== Sys2Proof/Machine/Requests.lean ====
section
/-!
DEFINITION. Mute, hold and pause requests (R30 to R35) and the stop bath (R254 to R261).
-/
namespace Sys2Proof.Machine

/-! ### Windows on the own index (R646) -/

/-- First index of the window of block `a`, as an offset from B·a: lane and bus sample indices. -/
def laneOff (s : State) : Int := -(s.B : Int)

/-- Output indices of speaker chains and transmit functions. -/
def outOff (s : State) : Int := 2 * s.B

/-- Output indices of direct channels. -/
def directOff (s : State) : Int := 3 * s.S

/-- The acting block of a time on an own index with offset `off`, registered at the tick of block `c` (R31, R32, R255). -/
def blockFor (s : State) (off : Int) (c : Nat) (t : Option Nat) : Nat :=
  match t with
  | none => c + 1
  | some t => max (c + 1) (-((off - t) / (s.B : Int))).toNat

/-- The acting sub-block period on the direct path (R31, R32). -/
def periodFor (s : State) (q : Nat) (t : Option Nat) : Nat :=
  match t with
  | none => q + 1
  | some t => max (q + 1) (-((3 * (s.S : Int) - t) / (s.S : Int))).toNat

/-! ### Requests -/

/-- The offset of a request's own index (R33). -/
def reqOff (s : State) (k : ReqKind) : Int :=
  match k with
  | .mute _ _ _ => outOff s
  | .hold p _ _ => if (portCfg s p).dir = 2 then outOff s else laneOff s
  | .pause _ _ => laneOff s

/-- The request concerns a direct channel, which acts at sub-block boundaries. -/
def reqDirect (s : State) (k : ReqKind) : Bool :=
  match k with
  | .mute sel _ _ => isDir s sel
  | _ => false

/-- The request names a function that takes it: a chain with an output mute (R186), an enabled port, a placed generator. -/
def reqTarget (s : State) (k : ReqKind) : Bool :=
  match k with
  | .mute sel _ _ => (isSpk s sel || isDir s sel) && (chainBus s sel).isSome
  | .hold p _ _ => decide ((portCfg s p).dir ≠ 0)
  | .pause g _ => (nth none s.img.tgLanes g).isSome

/-- Two requests concern one function. -/
def ReqKind.same (a b : ReqKind) : Bool :=
  match a, b with
  | .mute x _ _, .mute y _ _ => decide (x = y)
  | .hold x _ _, .hold y _ _ => decide (x = y)
  | .pause x _, .pause y _ => decide (x = y)
  | _, _ => false

/-- KIND, FLAGS and TARGET of the request relay (table "Request relay"). -/
def ReqKind.relay (k : ReqKind) : Nat × Nat × Nat :=
  match k with
  | .mute sel m r => (1, bitIf m 0 + r * 2, sel)
  | .hold p h z => (2, bitIf h 0 + bitIf z 1, p)
  | .pause g p => (3, bitIf p 0, g)

/-- A request waits for the tick at which it registers. -/
def requestAsk (k : ReqKind) (t : Option Nat) (s : State) : State :=
  if !takesOwn s || !reqTarget s k then s
  else
    let d := reqDirect s k
    { s with sched := { s.sched with
      reqWait := s.sched.reqWait ++ [⟨k, t, 0, 0, d, if d then period s else s.grid.block⟩] } }

/-- Pending marks of a request's function: SPK and MEAS status. -/
def reqPending (k : ReqKind) (up : Bool) (s : State) : State :=
  let step := fun (n : Nat) => if up then n + 1 else n - 1
  match k with
  | .mute sel _ _ => chSet sel { chGet sel s with mutePending := step (chGet sel s).mutePending } s
  | .pause g _ => tgSet g { tgGet g s with pausePending := step (tgGet g s).pausePending } s
  | .hold _ _ _ => s

/-- Entry in DL1, refused whole where the list is full (R243). -/
def dl1Enter (r : Request) (s : State) : State :=
  if 1024 ≤ s.sched.dl1.length then raiseTick 0x31 0 s
  else reqPending r.kind true { s with sched := { s.sched with dl1 := s.sched.dl1 ++ [r] } }

/-- The request with its acting block or period and boundary, registered now. -/
def reqTimed (r : Request) (s : State) : Request :=
  if r.direct then
    let q := periodFor s (period s) r.time
    { r with act := q, at_ := (s.S : Int) * (q + 3) }
  else
    let a := blockFor s (reqOff s r.kind) s.grid.block r.time
    { r with act := a, at_ := (s.B : Int) * a + reqOff s r.kind }

/-- One request registers and is relayed (R32, R327). -/
def registerRequest (r : Request) (s : State) : State :=
  if !takesOwn s then s
  else
    let r := reqTimed r s
    let (k, f, t) := r.kind.relay
    let full := decide (1024 ≤ s.sched.dl1.length)
    let s := dl1Enter r s
    if full then s else relayReq k f t r.at_.toNat 0 s

/-- A waiting request has come to its first tick. -/
def reqDue (s : State) (r : Request) : Bool :=
  decide (r.got < if r.direct then period s else s.grid.block)

/-- REQUEST_REGISTER: the requests whose first tick has come, in order (R32). -/
def requestRegister (s : State) : State :=
  if !s.grid.running then s
  else
    let due := s.sched.reqWait.filter (reqDue s)
    let s := { s with sched := { s.sched with reqWait := s.sched.reqWait.filter (fun r => !reqDue s r) } }
    due.foldl (fun s r => registerRequest r s) s

/-- A request takes effect at its boundary (R34, R35, R184, R222, R442). A pause leaves a finished run as it is and acts during
the fade of an OFF: DEDUCED (assumption 104). -/
def actRequest (r : Request) (s : State) : State :=
  match r.kind with
  | .mute sel m code =>
    let c := chGet sel s
    let t : Int := if m then 0 else 2 ^ 21
    chSet sel { c with mutes := lastN 8 (c.mutes ++ [⟨rampsAt c.mutes r.at_, t, r.at_, rampLen code⟩]) } s
  | .hold p h z =>
    let kind := if !h then 0 else if z && decide ((portCfg s p).dir = 2) then 2 else 1
    portSet p { portGet p s with holds := addHold r.at_ kind (portGet p s).holds } s
  | .pause k p =>
    let g := tgGet k s
    if p then
      if (g.running || g.armed) && (g.pause = 0 || g.pause = 3) then tgSet k { g with pause := 1 } s else s
    else if g.pause = 1 || g.pause = 2 then tgSet k { g with pause := 3 } s else s

/-- A DL1 entry is due. -/
def dl1Due (s : State) (r : Request) : Bool := decide (r.act ≤ if r.direct then period s else s.grid.block)

/-- Due entries one after another: an entry gives way to a later one on its function at the same boundary (R35). -/
def actRequests : List Request → State → State
  | [], s => s
  | r :: t, s =>
    let s := reqPending r.kind false s
    let past := t.any (fun x => x.kind.same r.kind && decide (x.at_ = r.at_))
    actRequests t (if past then s else actRequest r s)

/-- REQUEST_ACT: the entries of DL1 whose boundary has come, in key order, the due entries of DL0 having acted (R244). -/
def requestAct (s : State) : State :=
  if !s.grid.running then s
  else
    let s := fixAct s
    let due := s.sched.dl1.filter (dl1Due s)
    let s := { s with sched := { s.sched with dl1 := s.sched.dl1.filter (fun r => !dl1Due s r) } }
    actRequests (sortBy (fun a b => decide (a.at_ ≤ b.at_)) due) s

/-! ### Engine timers (R242, R244) -/

/-- The due entries of DL2: crossfade ends, tone-generator and sweep starts, capture start and end. -/
def timersAct (s : State) : State :=
  let s := (s.conv.map Prod.fst).foldl (fun s sel => crossfadeEnd sel s) s
  let s := (List.range 16).foldl (fun s k => sweepStart k (toneStart k s)) s
  captureEnd (captureStart s)

/-- The due entries of DL0 and DL1, after which a timer of DL2 acts (R244). -/
def timerRow (f : State → State) (s : State) : State := f (requestAct s)

/-- The due entries of DL0 to DL2, in their order (R244). -/
def listsFirst (s : State) : State := timerRow timersAct s

/-! ### Stop-bath targets -/

/-- The function exists and is configured (R254). -/
def fnExists (kind i : Nat) (s : State) : Bool :=
  match kind with
  | 1 => decide (i < 192) && decide ((portCfg s i).dir ≠ 0)
  | 2 => decide (i < s.img.rx.length)
  | 3 => decide (i < s.img.tx.length)
  | 4 => decide (i < s.img.objs.length)
  | 5 => busExists s i
  | 6 => match s.sched.graph[i]? with | some n => decide (n.kind = 0) | none => false
  | 7 => match s.sched.graph[i]? with | some n => decide (n.kind = 1) | none => false
  | _ => false

/-- Node `i` of the graph is a successor, direct or not, of a matrix section; nodes are in topological order (R233). -/
def afterMatrix (g : List GNode) (i : Nat) : Bool :=
  let marks := g.foldl (fun (m : List Bool) n =>
    m ++ [n.preds.any (fun e => nth false m e.pred
      || (match g[e.pred]? with | some p => decide (p.kind = 0) && decide (p.cls = 2) | none => false))]) []
  nth false marks i

/-- Lane offset of the output of an effect-core program (R289). -/
def ecOff (s : State) (i : Nat) : Int :=
  match s.sched.graph[i]? with
  | some n => if n.subBlock then -(2 * (s.S : Int)) else if afterMatrix s.sched.graph i then 0 else -(s.B : Int)
  | none => 0

/-- Offset of the window of a chain's output. -/
def chainOff (s : State) (sel : Nat) : Int :=
  if isSpk s sel then outOff s
  else if isGen s sel then laneOff s + (bits 8 2 (rget 0x10080010 sel s) : Nat)
  else directOff s

/-- A graph node's latest instance. -/
def statGet (i : Nat) (s : State) : NodeStat := sget ⟨0, 0, false, false, 0, 0, false, false, false, []⟩ i s.sched.stat

/-- A graph node's latest instance set. -/
def statSet (i : Nat) (v : NodeStat) (s : State) : State :=
  { s with sched := { s.sched with stat := sset ⟨0, 0, false, false, 0, 0, false, false, false, []⟩ i v s.sched.stat } }

/-- Offset of the window at a function's fade point (R646). An engine section fades what its class makes. -/
def fnOff (kind i : Nat) (s : State) : Int :=
  match kind with
  | 1 => if (portCfg s i).dir = 2 then outOff s else laneOff s
  | 3 => outOff s
  | 5 => match chainOfBus s i with | some sel => chainOff s sel | none => laneOff s
  | 6 =>
    match s.sched.graph[i]? with
    | some n => if n.cls = 3 || n.cls = 4 then outOff s else if n.cls = 7 then directOff s else laneOff s
    | none => 0
  | 7 => ecOff s i
  | _ => laneOff s

/-! ### Registration -/

/-- A stop-bath or START request waits for its tick (R255, R259). -/
def stopAsk (start : Bool) (target : Nat) (t : Option Nat) (r : Option ReplyTo) (s : State) : State :=
  let q : StopReq := ⟨start, bits 19 16 target, target % 8192, t, 0, s.grid.block, r⟩
  { s with sched := { s.sched with stopWait := s.sched.stopWait ++ [q] } }

/-- SCHED.STOP_TARGET of a request. -/
def StopReq.target (r : StopReq) : Nat := r.index % 8192 + r.kind % 16 * 2 ^ 16

/-- The pending START of function (kind, i) is judged (R259): an idle function waits for it, and one that would act before
the function reaches IDLE is deferred to the tick at which it does. -/
def fnReview (kind i : Nat) (s : State) : State :=
  let f := fnGet kind i s
  match pendingStart kind i s with
  | none => s
  | some p =>
    if f.st = 4 then fnSet kind i { f with st := 5 } s
    else if 1 ≤ f.st && decide (f.st ≤ 3) && decide (p.act < f.act + 2) then
      let s := { s with sched := { s.sched with
        dl3 := s.sched.dl3.map (fun x => if x = p then { p with act := f.act + 2 } else x) } }
      raiseTick 0x35 i (fnSet kind i { f with deferred := true } s)
    else s

/-- The function's state once the entry stands in DL3: a stop of a running function is pending, and a START may be (R259). -/
def fnAsked (r : StopReq) (s : State) : State :=
  let f := fnGet r.kind r.index s
  fnReview r.kind r.index
    (if !r.start && f.st = 0 then fnSet r.kind r.index { f with st := 1, act := r.act } s else s)

/-- One stop-bath or START request registers (R254, R255, R243). -/
def registerStop (r : StopReq) (s : State) : State :=
  let bad := fun (code arg status : Nat) (s : State) =>
    replyIf r.reply status (beBytes 8 s.grid.block ++ beBytes 8 0) (raiseTick code arg (count 0x10040060 0 1 s))
  if !takesOwn s then replyIf r.reply 1 [] s
  else if !fnExists r.kind r.index s then bad 0x33 r.index 9 s
  else if 1024 ≤ s.sched.dl3.length then bad 0x31 0 7 s
  else
    let c := s.grid.block
    let a := blockFor s (fnOff r.kind r.index s) c r.time
    let r := { r with act := a }
    let s := fnAsked r { s with sched := { s.sched with dl3 := s.sched.dl3 ++ [r] } }
    let s := relayReq (if r.start then 5 else 4) 0 r.target ((s.B : Int) * a + fnOff r.kind r.index s).toNat 0 s
    replyIf r.reply 0 (beBytes 8 c ++ beBytes 8 a) s

/-- STOP_REGISTER: the requests whose first tick has come, in order. -/
def stopRegister (s : State) : State :=
  if !s.grid.running then s
  else
    let due := s.sched.stopWait.filter (fun r => decide (r.got < s.grid.block))
    let s := { s with sched := { s.sched with stopWait := s.sched.stopWait.filter (fun r => !decide (r.got < s.grid.block)) } }
    due.foldl (fun s r => registerStop r s) s

/-! ### Acting -/

/-- Lane samples of the window of block `a` faded where they stand. -/
def fadeLanes (out : Bool) (a : Nat) (lanes : List Nat) (s : State) : State :=
  lanes.foldl (fun s l =>
    let j := s.j0 a
    let ys := fadeList out s.lgB (smpList s.smp.lane l j s.B)
    { s with smp := { s.smp with lane := smpPut l j ys s.smp.lane } }) s

/-- Input lanes of a serial receive port. -/
def portLanes (s : State) (p : Nat) : List Nat :=
  (List.range (enabledSlots (portCfg s p)).length).map (fun j => (portCfg s p).laneBase + j)

/-- The fade of a chain's output over its window of block `a`. -/
def chainFade (out : Bool) (a sel : Nat) (s : State) : State :=
  let c := chGet sel s
  let w : Int := (s.B : Int) * a + chainOff s sel
  chSet sel { c with fades := lastN 4 c.fades ++ [(w, out)], tail := out && !isDir s sel } s

/-- Chains that a section of a node of class `cls` serves, from its functions: a direct section lists channels. -/
def workChains (cls : Nat) (work : List Nat) : List Nat :=
  if cls = 7 then work.map (1536 + ·) else if cls = 3 || cls = 4 then work else []

/-- The fade of a function at its fade point, over the window of block `a` (R256, R260). Objects, plain buses, object and
matrix sections and programs fade in their own sections. -/
def fnFade (out : Bool) (a kind i : Nat) (s : State) : State :=
  let w : Int := (s.B : Int) * a + fnOff kind i s
  match kind with
  | 1 =>
    if (portCfg s i).dir = 2 then
      portSet i { portGet i s with fades := lastN 4 (portGet i s).fades ++ [(w, out)] } s
    else fadeLanes out a (portLanes s i) s
  | 2 => fadeLanes out a (rxLanes s i) s
  | 3 => txSet i { txGet i s with fades := lastN 4 (txGet i s).fades ++ [(w, out)] } s
  | 5 =>
    match chainOfBus s i with
    | some sel => chainFade out a sel s
    | none => s
  | 6 =>
    match s.sched.graph[i]? with
    | some n => (workChains n.cls (statGet i s).work).foldl (fun s sel => chainFade out a sel s) s
    | none => s
  | _ => s

/-- Entries of DL3 that are due. -/
def dl3Due (s : State) : List StopReq := s.sched.dl3.filter (fun r => decide (r.act ≤ s.grid.block))

/-- A due entry gives way to a later registered one on the same function at the same tick (R261). -/
def superseded (r : StopReq) (later : List StopReq) : Bool :=
  later.any (fun x => decide (x.kind = r.kind) && decide (x.index = r.index) && decide (x.act = r.act))

/-- Due entries that stand under R261. -/
def standing : List StopReq → List StopReq
  | [] => []
  | r :: t => if superseded r t then standing t else r :: standing t

/-- The stop bath of one function acts (R256, R261). -/
def actStop (r : StopReq) (s : State) : State :=
  let f := fnGet r.kind r.index s
  if f.st ≤ 1 then
    fnFade true s.grid.block r.kind r.index (fnSet r.kind r.index { f with st := 2, act := s.grid.block } s)
  else s

/-- A due entry that gives way to a later one (R261): a pending stop that a START cancels leaves the function RUNNING, a
pending START that a stop cancels leaves it as it stands without one. -/
def cancelEntry (r : StopReq) (s : State) : State :=
  let f := fnGet r.kind r.index s
  if r.start then
    if (pendingStart r.kind r.index s).isSome then s
    else fnSet r.kind r.index { f with st := if f.st = 5 then 4 else f.st, deferred := false } s
  else if f.st = 1 && decide (f.act = r.act) then fnSet r.kind r.index { f with st := 0, act := 0 } s
  else s

/-- Superseded due entries leave DL3. -/
def dl3Settle (s : State) : State :=
  let due := dl3Due s
  let keep := standing due
  let gone := due.filter (fun r => !keep.contains r)
  gone.foldl (fun s r => cancelEntry r s)
    { s with sched := { s.sched with dl3 := s.sched.dl3.filter (fun r => !gone.contains r) } }

/-- STOP_BATH_ACT: the due stop baths (R256), the due entries of the lists before DL3 having acted (R244). -/
def stopBathAct (s : State) : State :=
  if !s.grid.running then s
  else
    let s := dl3Settle (listsFirst s)
    let due := (dl3Due s).filter (fun r => !r.start)
    let s := due.foldl (fun s r => actStop r s) s
    { s with sched := { s.sched with dl3 := s.sched.dl3.filter (fun r => !due.contains r) } }

/-- PERSISTENT regions of a program hold their initial content again (R254). -/
def restorePersistent (p : EcProg) (s : State) : State :=
  (List.range 64).foldl (fun s k =>
    if !bit k p.coreMask then s
    else p.regions.foldl (fun s r =>
      if r.kind ≠ 4 then s
      else { s with ec := { s.ec with
        data := ssetList 0 (k * 2 ^ 14 + (if r.yMem then 2 ^ 13 else 0) + r.base) r.init s.ec.data } }) s) s

/-- A bus's node ramps end with it stopped, each gain at its target, and its factor settles at its target (R254). -/
def busSettle (k : Nat) (s : State) : State :=
  { s with mx := { s.mx with
    factors := sset (Ramp.settled (2 ^ 21)) k (Ramp.settled (factorOf s k).t) s.mx.factors
    ramps := s.mx.ramps.map (fun x => if x.1 % 5120 = k then (x.1, { x.2 with s := x.2.t, len := 0 }) else x) } }

/-- The state that a graph node's engine section owns, by its class and the functions it served last. -/
def nodeClear (n : GNode) (work : List Nat) (s : State) : State :=
  work.foldl (fun s k => match n.cls with
    | 0 => objClear k s
    | 1 => objSet k { objGet k s with slots := [], panSub := [] } s
    | 2 => busSettle k s
    | 3 => chainRestart k s
    | 4 => { s with smp := { s.smp with align := smpDrop k s.smp.align } }
    | 7 => chainRestart (1536 + k) s
    | _ => s) s

/-- What the clearing of a function empties (table "Stop-bath targets"). A chain is cleared when its owed output window has
been made: `chainToo`. -/
def fnClear (chainToo : Bool) (kind i : Nat) (s : State) : State :=
  match kind with
  | 1 => portSet i { portGet i s with words := [] } s
  | 2 => rxClear i s
  | 4 => objClear i s
  | 5 =>
    let f := factorOf s i
    let s := { s with mx := { s.mx with factors := sset (Ramp.settled (2 ^ 21)) i (Ramp.settled f.t) s.mx.factors } }
    match chainOfBus s i with
    | some sel => if chainToo then chSet sel { chGet sel (chainRestart sel s) with tail := false } (chainRestart sel s) else s
    | none => s
  | 6 =>
    match s.sched.graph[i]? with
    | some n =>
      let work := (statGet i s).work
      if n.cls = 3 || n.cls = 4 then
        if chainToo then work.foldl (fun s sel => chSet sel { chGet sel s with tail := false } s) (nodeClear n work s) else s
      else if chainToo then s else nodeClear n work s
    | none => s
  | 7 =>
    match (s.sched.graph[i]?).bind (fun n => s.ec.progs[n.target]?) with
    | some p => restorePersistent p s
    | none => s
  | _ => s

/-- Functions in a state, by their key. -/
def fnsIn (st : Nat) (s : State) : List (Nat × FnState) := s.sched.fn.filter (fun e => decide (e.2.st = st))

/-- STOP_CLEAR: in the block after the fade the function's state is cleared (R257). -/
def stopClear (s : State) : State :=
  (fnsIn 2 s).foldl (fun s e =>
    if e.2.act + 1 ≤ s.grid.block then
      let kind := e.1 / 65536
      let i := e.1 % 65536
      fnClear false kind i (fnSet kind i { e.2 with st := 3 } s)
    else s) s

/-- A function starts at the current block (R260). -/
def actStart (kind i : Nat) (s : State) : State :=
  let a := s.grid.block
  let s := fnSet kind i ⟨0, false, 0, a⟩ s
  match kind with
  | 1 =>
    if (portCfg s i).dir = 2 then fnFade false a kind i s
    else
      let lanes := portLanes s i
      let j := s.j0 a
      let s := lanes.foldl (fun s l =>
        { s with smp := { s.smp with
          lane := (s.smp.wait.filter (fun e => decide (e.1 / 2 ^ 64 = l))).foldl (fun m e => sset 0 e.1 e.2 m) s.smp.lane
          wait := smpDrop l s.smp.wait } }) s
      lanes.foldl (fun s l => { s with smp := { s.smp with
        lane := smpPut l j (fadeList false s.lgB (smpList s.smp.lane l j s.B)) s.smp.lane } }) s
  | 4 => objInit i (s.j0 a) s
  | 5 =>
    match chainOfBus s i with
    | some sel => fnFade false a kind i (chainRestart sel s)
    | none => s
  | 6 =>
    match s.sched.graph[i]? with
    | some n =>
      let work := (statGet i s).work
      fnFade false a kind i (if n.cls = 0 then work.foldl (fun s k => objInit k (s.j0 a) s) s else s)
    | none => s
  | _ => fnFade false a kind i s

/-- STOP_DONE: at the tick of a + 2 the function, which has been cleared, is IDLE (R258), or waits for its START. -/
def stopDone (s : State) : State :=
  let s := stopClear s
  (fnsIn 3 s).foldl (fun s e =>
    if e.2.act + 2 ≤ s.grid.block then
      let kind := e.1 / 65536
      let i := e.1 % 65536
      let s := if kind = 5 || kind = 6 then fnClear true kind i s else s
      fnReview kind i (raiseTick 0x34 i (fnSet kind i { e.2 with st := 4 } s))
    else s) s

/-- A due START: it acts on a function that is idle where it is the pending one; it waits while the function is stopping,
and has no effect on a running function or beside another pending START (R259). -/
def startOne (r : StopReq) (s : State) : State :=
  let f := fnGet r.kind r.index s
  let done := fun (s : State) => { s with sched := { s.sched with dl3 := s.sched.dl3.filter (fun x => decide (x ≠ r)) } }
  if (f.st = 4 || f.st = 5) && decide (pendingStart r.kind r.index s = some r) then done (actStart r.kind r.index s)
  else if f.st = 2 || f.st = 3 then s
  else done s

/-- START_ACT: the due STARTs (R260), functions that become IDLE at this tick having done so and the due entries of the lists
before DL3 having acted (R244, R259). -/
def startAct (s : State) : State :=
  if !s.grid.running then s
  else
    let s := dl3Settle (stopDone (listsFirst s))
    ((dl3Due s).filter StopReq.start).foldl (fun s r => startOne r s) s

/-! ### Relays received (R327) -/

/-- A relayed request with acting boundary `b`: entered at its boundary, or at the next one with a lapse. -/
def relayRequest (k : ReqKind) (b : Nat) (s : State) : State :=
  let d := reqDirect s k
  let now := if d then period s else s.grid.block
  let at_ := if d then (((b : Int) - 3 * s.S) / (s.S : Int)).toNat else (((b : Int) - reqOff s k) / (s.B : Int)).toNat
  let act := max at_ (now + 1)
  let bound : Int := if d then (s.S : Int) * (act + 3) else (s.B : Int) * act + reqOff s k
  let s := if at_ ≤ now then lapse s else s
  dl1Enter ⟨k, none, act, bound, d, now⟩ s

/-- A relayed stop bath or START. -/
def relayStop (start : Bool) (target b : Nat) (s : State) : State :=
  let kind := bits 19 16 target
  let i := target % 8192
  let a := (((b : Int) - fnOff kind i s) / (s.B : Int)).toNat
  let act := max a (s.grid.block + 1)
  let s := if a ≤ s.grid.block then lapse s else s
  let r : StopReq := ⟨start, kind, i, none, act, s.grid.block, none⟩
  if 1024 ≤ s.sched.dl3.length then raiseTick 0x31 0 (count 0x10040060 0 1 s)
  else fnAsked r { s with sched := { s.sched with dl3 := s.sched.dl3 ++ [r] } }

/-- REQ_RELAY_FRAME (table "Request relay"): requests, alignments and slips of the holder (R327, R444). -/
def relayReceive (p : List Nat) (s : State) : State :=
  if !keepsMirror s then s
  else if holds s then holdFrame 0x13 false p s
  else
    let f := nth 0 p 1
    let t := be (slice 4 4 p)
    let b := be (slice 8 8 p)
    match nth 0 p 0 with
    | 1 => relayRequest (.mute t (bit 0 f) (bits 4 1 f)) b s
    | 2 => relayRequest (.hold t (bit 0 f) (bit 1 f)) b s
    | 3 => relayRequest (.pause t (bit 0 f)) b s
    | 4 => relayStop false t b s
    | 5 => relayStop true t b s
    | k => { s with twin := { s.twin with serial := s.twin.serial ++ [(k, f, t, b, be (slice 16 8 p))] } }

end Sys2Proof.Machine
end

