-- ==== Sys2Proof/Machine/EffectCore.lean ====
section
/-!
DEFINITION. The effect cores (chapter 08): memories and regions, contexts, input and output copies, block moves.
-/
namespace Sys2Proof.Machine

/-! ### Cores, memories, regions -/

/-- A core that holds no context. -/
def EcCore.empty : EcCore := ⟨[], 0, 0, 0, 0⟩

/-- State of core `k`. -/
def coreGet (k : Nat) (s : State) : EcCore := sget EcCore.empty k s.ec.cores

/-- State of core `k` set. -/
def coreSet (k : Nat) (c : EcCore) (s : State) : State :=
  { s with ec := { s.ec with cores := sset EcCore.empty k c s.ec.cores } }

/-- Address of a register of core `k`'s page. -/
def ecAddr (k off : Nat) : Nat := 0x100A0000 + 0x400 * k + off

/-- Key of a word of a core's X or Y memory. -/
def coreKey (k : Nat) (y : Bool) (w : Nat) : Nat := k * 2 ^ 14 + (if y then 2 ^ 13 else 0) + w

/-- A word of a core's X or Y memory, as the memory stands; an uncorrectable word reads as 0 (R269). -/
def coreWord (k : Nat) (y : Bool) (w : Nat) (s : State) : Nat :=
  if s.ec.poison.contains (coreKey k y w) then 0 else sget 0 (coreKey k y w) s.ec.data

/-- A word of a core's memory marked uncorrectable. -/
def coreMark (k : Nat) (y : Bool) (w : Nat) (s : State) : State :=
  if s.ec.poison.contains (coreKey k y w) then s
  else { s with ec := { s.ec with poison := coreKey k y w :: s.ec.poison } }

/-- A marked word of a core's memory is read (R269, R502): its poisoned delivery counts. -/
def deliverWord (k : Nat) (y : Bool) (w : Nat) (s : State) : State :=
  burstCheck (sramPoison (Config.sramArray (2 * k + if y then 1 else 0)) w s.clk.safe s)

/-- The marked words among `n` of a core's memory from `w` on are read. -/
def deliverMarked (k : Nat) (y : Bool) (w n : Nat) (s : State) : State :=
  if s.ec.poison.isEmpty then s
  else ((List.range n).filter (fun i => s.ec.poison.contains (coreKey k y (w + i)))).foldl
    (fun s i => deliverWord k y (w + i) s) s

/-- Words written to a core's X or Y memory from `w` on; a write ends a word's poison. -/
def coreWrite (k : Nat) (y : Bool) (w : Nat) (l : List Nat) (s : State) : State :=
  let a := coreKey k y w
  { s with ec := { s.ec with
    data := ssetList 0 a l s.ec.data
    poison := s.ec.poison.filter (fun x => decide (x < a) || decide (a + l.length ≤ x)) } }

/-- The program bound to a graph node. -/
def progOf (node : Nat) (s : State) : Option EcProg := (s.sched.graph[node]?).bind (fun n => s.ec.progs[n.target]?)

/-- The region of a program that holds a word. -/
def regionAt (p : EcProg) (y : Bool) (w : Nat) : Option EcRegion :=
  p.regions.find? (fun r => decide (r.yMem = y) && decide (r.base ≤ w) && decide (w < r.base + r.len))

/-- OUTPUT and SCRATCH read 0 until the instance has stored the word (R288). -/
def clears (r : EcRegion) : Bool := decide (r.kind = 1) || decide (r.kind = 2)

/-- Key of a word in the list of words that an instance has stored. -/
def storeKey (y : Bool) (w : Nat) : Nat := (if y then 2 ^ 13 else 0) + w

/-- A word as the instance reads it (R288). -/
def ctxWord (k : Nat) (c : EcCtx) (r : EcRegion) (w : Nat) (s : State) : Nat :=
  if clears r && !c.written.contains (storeKey r.yMem w) then 0 else coreWord k r.yMem w s

/-- Words stored by the instance are noted. -/
def noteStored (r : EcRegion) (l : List Nat) (c : EcCtx) : EcCtx :=
  if clears r then { c with written := (l.map (storeKey r.yMem)).filter (fun x => !c.written.contains x) ++ c.written } else c

/-! ### Dispatch, entry and completion -/

/-- Samples per lane of a region (R289). -/
def ecWidth (s : State) (p : EcProg) : Nat := if p.subBlock then s.S else s.B

/-- First index of the input samples of an instance (R289). -/
def ecIndex (s : State) (p : EcProg) (block sub : Nat) : Int :=
  if p.subBlock then (s.S : Int) * (4 * block + sub - 2) else s.j0 block

/-- The input copy (R289, R290). -/
def inputCopy (k : Nat) (p : EcProg) (block sub : Nat) (s : State) : State :=
  let n := ecWidth s p
  p.regions.foldl (fun s r =>
    if r.kind ≠ 0 then s
    else
      let src := if r.fromBus then s.smp.bus else s.smp.lane
      let ws := (List.range (r.len / max 1 n)).flatMap (fun l =>
        (smpList src (r.lane + l) (ecIndex s p block sub) n).map (pattern 32))
      coreWrite k r.yMem r.base ws s) s

/-- First words of the first four regions of a memory (R290). -/
def bases (p : EcProg) (y : Bool) : List Nat :=
  let l := ((p.regions.filter (fun r => decide (r.yMem = y))).take 4).map EcRegion.base
  l ++ List.replicate (4 - l.length) 0

/-- The context of a new instance (R290). -/
def ctxNew (p : EcProg) (node block sub prog prio bank : Nat) : EcCtx where
  node := node
  block := block
  sub := sub
  prog := prog
  prio := prio
  bank := bank
  d := [BitVec.ofNat 32 block, BitVec.ofNat 32 (block / 2 ^ 32 % 2 ^ 27), BitVec.ofNat 32 sub, BitVec.ofNat 32 p.param,
    BitVec.ofNat 32 node] ++ List.replicate 11 0
  acc := [0, 0, 0, 0]
  p := bases p false ++ bases p true
  m := List.replicate 8 1
  eq := false
  lt := false
  sat := false
  lr := 0
  lc0 := 0
  lc1 := 0
  pc := p.entry
  bmExt := 0
  bmLoc := 0
  bmLen := 0
  cyc := 0
  ran := 0
  loads := []
  delay := none
  loops := []
  moves := []
  written := []
  stalled := false
  ended := false

/-- Priority of a node's instances (R246): 0 BACKGROUND, 1 NORMAL, 2 URGENT. -/
def prioOf (n : GNode) : Nat := if n.background then 0 else if n.urgent then 2 else 1

/-- The core may take an instance of program `prog`: it is named in the mask and holds none of the program (R246, R295). -/
def coreOpen (s : State) (n : GNode) (k : Nat) : Bool :=
  bit k n.coreMask && !(coreGet k s).ctxs.any (fun c => decide (c.prog = n.target))

/-- Priority of the running context, where a core holds one or two. -/
def runningPrio (s : State) (k : Nat) : Option Nat :=
  match (coreGet k s).ctxs with
  | [] => none
  | c :: t => if t.length < 2 then some c.prio else none

/-- Placement of an instance (R246): the idle core of lowest index, otherwise for URGENT and NORMAL the core running the
lowest lower priority, of lowest index. -/
def ecPlace (n : GNode) (s : State) : Option Nat :=
  let open_ := (List.range 64).filter (coreOpen s n)
  match open_.find? (fun k => (coreGet k s).ctxs.isEmpty) with
  | some k => some k
  | none =>
    let at_ := fun (p : Nat) => open_.find? (fun k => decide (runningPrio s k = some p) && decide (p < prioOf n))
    match at_ 0 with
    | some k => some k
    | none => at_ 1

/-- A free register bank of a core (R293). -/
def freeBank (c : EcCore) : Nat :=
  ((List.range 3).find? (fun b => !c.ctxs.any (fun x => decide (x.bank = b)))).getD 0

/-- Pre-emption counted where the core runs a context (R248, R294). -/
def notePreempt (k : Nat) (s : State) : State :=
  match (coreGet k s).ctxs with
  | [] => s
  | c :: _ =>
    let s := count (ecAddr k 0x20) 0 1 (count 0x10040028 0 1 s)
    statSet c.node { statGet c.node s with preempted := true } s

/-- An instance starts on core `k`: input copy and entry (R290, R294). -/
def ecStart (k node block sub : Nat) (s : State) : State :=
  match s.sched.graph[node]?, progOf node s with
  | some n, some p =>
    let s := inputCopy k p block sub (notePreempt k s)
    let c := coreGet k s
    coreSet k { c with ctxs := ctxNew p node block sub n.target (prioOf n) (freeBank c) :: c.ctxs } s
  | _, _ => s

/-- A node's instance on a core. -/
def ctxOf (k node : Nat) (s : State) : Option EcCtx := (coreGet k s).ctxs.find? (fun c => decide (c.node = node))

/-- A context leaves its core: the most recently pre-empted one resumes (R247, R296). -/
def dropCtx (k node : Nat) (s : State) : State :=
  let c := coreGet k s
  coreSet k { c with ctxs := c.ctxs.filter (fun x => decide (x.node ≠ node)) } s

/-- The context of a node's instance replaced. -/
def ctxSet (k : Nat) (x : EcCtx) (s : State) : State :=
  let c := coreGet k s
  coreSet k { c with ctxs := c.ctxs.map (fun y => if y.node = x.node then x else y) } s

/-- First index of the output samples of an instance (R289). -/
def outIndex (s : State) (p : EcProg) (node block sub : Nat) : Int :=
  (s.B : Int) * block + ecOff s node + (if p.subBlock then (s.S : Int) * sub else 0)

/-- The stop state of function (kind, i) on samples from index `o` on, its window of block `a` beginning at B·a + `off`. -/
def fnFadeAt (s : State) (f : FnState) (off o : Int) (l : List Int) : List Int :=
  (l.zipIdx).map (fun ((x : Int), (n : Nat)) =>
    let q := o + (n : Int) - ((s.B : Int) * (if f.st = 2 then f.act else f.since) + off)
    if f.st = 2 then (if q < 0 then x else if q < s.B then fadeOut s.lgB q.toNat x else 0)
    else if 3 ≤ f.st then 0
    else if f.since ≠ 0 && decide (0 ≤ q) && decide (q < s.B) then fadeIn s.lgB q.toNat x
    else x)

/-- The output copy (R289, R291) with the program's stop fade (R254), a marked word as 0 with MEM_POISON (R269); zeros where
the instance was abandoned (R251). -/
def outputCopy (k : Nat) (c : Option EcCtx) (p : EcProg) (node block sub : Nat) (s : State) : State :=
  let n := ecWidth s p
  let o := outIndex s p node block sub
  p.regions.foldl (fun s r =>
    if r.kind ≠ 1 then s
    else (List.range (r.len / max 1 n)).foldl (fun s l =>
      let s := if c.isSome then deliverMarked k r.yMem (r.base + l * n) n s else s
      let xs := (List.range n).map (fun i => match c with
        | some c => signExt 32 (ctxWord k c r (r.base + l * n + i) s)
        | none => 0)
      let ys := fnFadeAt s (fnGet 7 node s) (ecOff s node) o xs
      { s with smp := { s.smp with lane := smpPut (r.lane + l) o ys s.smp.lane } }) s) s

/-- The instance of a node on core `k` has ended and can be reported complete (R291). -/
def ecFinished (k node : Nat) (s : State) : Bool :=
  match ctxOf k node s with
  | some c => c.ended && c.moves.isEmpty
  | none => false

/-- Completion of a node's instance on core `k`: output copy, counters, and the context leaves (R291, R299). -/
def ecFinish (k node : Nat) (s : State) : State :=
  match ctxOf k node s, progOf node s with
  | some c, some p =>
    let s := outputCopy k (some c) p node c.block c.sub s
    let e := coreGet k s
    let s := coreSet k { e with last := c.ran % 2 ^ 32, peak := max e.peak (c.ran % 2 ^ 32) } s
    let s := count (ecAddr k 0x1C) 0 1 s
    dropCtx k node (if c.sat then count (ecAddr k 0x30) 0 1 s else s)
  | _, _ => s

/-! ### Block moves -/

/-- Words of the program that a move covers lie in one region with the rights it needs, and its external bytes in the grant
(R282). -/
def moveOk (p : EcProg) (b : BlockMove) : Bool :=
  decide (b.ext % 4 = 0) && decide (1 ≤ b.len) && decide (b.len ≤ 4096) && decide (p.grantBase ≤ b.ext)
    && decide (b.ext + 4 * b.len ≤ p.grantBase + p.grantLen)
    && p.regions.any (fun r => decide (r.yMem = b.yMem) && decide (r.base ≤ b.word)
        && decide (b.word + b.len ≤ r.base + r.len) && (b.out || (decide (r.kind ≠ 0) && decide (r.kind ≠ 3))))

/-- The move that a BMOV starts. -/
def moveOf (c : EcCtx) : BlockMove :=
  ⟨c.bmExt, bit 15 c.bmLoc, c.bmLoc % 2 ^ 13, c.bmLen % 2 ^ 13, bit 16 c.bmLen⟩

/-- Poisoned external words that a move reads are delivered as zeros and reported (R499, R500, R507). -/
def movePoison (ext len : Nat) (s : State) : State :=
  if inDram ext (4 * len) s then
    (List.range ((ext + 4 * len + 7) / 8 - ext / 8)).foldl (fun s i =>
      let a := 8 * (ext / 8 + i)
      if isPoisoned s a then deliverPoison a 4 s.clk.safe s else s) s
  else (List.range len).foldl (fun s i =>
    let w := fabOff ext / 4 + i
    if s.mem.fabPoison.contains w then burstCheck (sramPoison (Config.sramArray 192) w s.clk.safe s) else s) s

/-- An external word carries a poison mark. -/
def extBad (s : State) (a : Nat) : Bool :=
  if inDram a 4 s then isPoisoned s a else s.mem.fabPoison.contains (fabOff a / 4)

/-- An external word as a move reads it: a marked one is 0. -/
def extWord (s : State) (a : Nat) : Nat :=
  if inDram a 4 s then dramWord s a
  else if s.mem.fabPoison.contains (fabOff a / 4) then 0 else wordAt (fabOff a) s.mem.fab

/-- Words written to the external memory; those at the positions `bad` carry a poison mark (R500). -/
def extPut (a : Nat) (ws bad : List Nat) (s : State) : State :=
  let bytes := ws.flatMap (leBytes 4)
  if inDram a bytes.length s then bad.foldl (fun s i => markPoison (a + 4 * i) s) (dramPut a bytes s)
  else
    let w := fabOff a / 4
    { s with mem := { s.mem with
      fab := putBytes (fabOff a) bytes s.mem.fab
      fabPoison := bad.map (w + ·)
        ++ s.mem.fabPoison.filter (fun x => decide (x < w) || decide (w + ws.length ≤ x)) } }

/-- A block move copies its words (R282, R284); poison marks go with them (R500). -/
def moveCopy (k : Nat) (c : EcCtx) (p : EcProg) (b : BlockMove) (s : State) : EcCtx × State :=
  match regionAt p b.yMem b.word with
  | none => (c, s)
  | some r =>
    if b.out then
      let bad := (List.range b.len).filter (fun i => s.ec.poison.contains (coreKey k b.yMem (b.word + i)))
      let ws := (List.range b.len).map (fun i => ctxWord k c r (b.word + i) s)
      (c, extPut b.ext ws bad (deliverMarked k b.yMem b.word b.len s))
    else
      let ws := (List.range b.len).map (fun i => extWord s (b.ext + 4 * i))
      let bad := (List.range b.len).filter (fun i => extBad s (b.ext + 4 * i))
      let s := coreWrite k b.yMem b.word ws (movePoison b.ext b.len s)
      (noteStored r ((List.range b.len).map (b.word + ·)) c,
        { s with ec := { s.ec with poison := bad.map (fun i => coreKey k b.yMem (b.word + i)) ++ s.ec.poison } })

/-- BLOCK_MOVE_COMPLETE: move `i` of the context in bank `bank` of core `k` completes and ends the stalls it caused
(R283, R284). -/
def moveDone (k bank i : Nat) (s : State) : State :=
  match (coreGet k s).ctxs.find? (fun c => decide (c.bank = bank)) with
  | none => s
  | some c =>
    match c.moves[i]?, s.ec.progs[c.prog]? with
    | some b, some p =>
      let (c, s) := moveCopy k c p b s
      ctxSet k { c with moves := c.moves.eraseIdx i, stalled := false } s
    | _, _ => s

/-! ### Registers -/

/-- The core is named in the CORE_MASK of a program of the applied image (R264). -/
def coreUsed (k : Nat) (s : State) : Bool := s.ec.progs.any (fun p => bit k p.coreMask)

/-- EC.STATUS: an ended instance is STALLED while it waits for its block moves, then COPYING until its completion. -/
def ecStatus (k : Nat) (s : State) : Nat :=
  let c := coreGet k s
  (match c.ctxs with
    | [] => 0
    | x :: _ => (if x.ended then (if x.moves.isEmpty then 3 else 2) else if x.stalled then 2 else 1) + x.bank * 4)
    + c.ctxs.length * 16 + bitIf (coreUsed k s) 31

/-- EC.CTX of a bank. -/
def ecCtxWord (k bank : Nat) (s : State) : Nat :=
  match (coreGet k s).ctxs.find? (fun c => decide (c.bank = bank)) with
  | some c => c.node + c.prio * 2 ^ 12 + 2 ^ 31
  | none => 0

/-- The RO registers of a core's page but for EC.MEM_DATA. -/
def ecReg (off k : Nat) (s : State) : Nat :=
  let c := coreGet k s
  match off with
  | 0x00 => ecStatus k s
  | 0x04 => match c.ctxs with | x :: _ => x.pc | [] => 0
  | 0x08 => ecCtxWord k 0 s
  | 0x0C => ecCtxWord k 1 s
  | 0x10 => ecCtxWord k 2 s
  | 0x14 => c.last
  | 0x28 => c.faultInfo
  | 0x2C => c.faultPc
  | 0x50 => s.ec.progErr
  | _ => 0

/-- EC.MEM_DATA: the word at EC.MEM_ADDR (R299). -/
def memData (k addr : Nat) (s : State) : Nat :=
  let w := addr % 2 ^ 13
  match bits 15 14 addr with
  | 0 => coreWord k false w s
  | 1 => coreWord k true w s
  | 2 => sget 0 (k * 2 ^ 13 + w) s.ec.text % 2 ^ 32
  | _ => sget 0 (k * 2 ^ 13 + w) s.ec.text / 2 ^ 32

end Sys2Proof.Machine
end

