-- ==== Sys2Proof/Machine/Scheduler.lean ====
section
/-!
DEFINITION. The dataflow scheduler (R231 to R253): readiness, dispatch, completion, release and deadlines of graph
instances, and the capture frames that the sections make (R223 to R226).
-/
namespace Sys2Proof.Machine

/-! ### Instances -/

/-- Sub-block of a node's instance of the present moment: 0 for a block-rate node. -/
def nodeSub (s : State) (n : GNode) : Nat := if n.subBlock then s.grid.sub else 0

/-- The node's latest instance is that of the current block or sub-block period. -/
def atNow (s : State) (n : GNode) (i : Nat) : Bool :=
  let t := statGet i s
  t.any && decide (t.block = s.grid.block) && decide (t.sub = nodeSub s n)

/-- Every predecessor's instance has been released, over a STREAM edge dispatched (R233, R237). -/
def predsDone (s : State) (n : GNode) : Bool :=
  n.preds.all (fun e => match s.sched.graph[e.pred]? with
    | some p => atNow s p e.pred && (e.stream || (statGet e.pred s).released)
    | none => true)

/-- The node's own previous instance has been released (R233). -/
def prevDone (s : State) (i : Nat) : Bool := !(statGet i s).any || (statGet i s).released

/-- The instance of the current block or period is ready and has not been dispatched. -/
def ready (s : State) (n : GNode) (i : Nat) : Bool := !atNow s n i && prevDone s i && predsDone s n

/-- A chain has nothing to produce: its bus is stopped and it owes no window (R257, R646). -/
def chainSilent (s : State) (sel : Nat) : Bool :=
  match chainBus s sel with
  | some b => stopped 5 b s && !(chGet sel s).tail
  | none => true

/-- A function that a section of class `cls` serves is stopped. -/
def workStopped (s : State) (cls k : Nat) : Bool :=
  match cls with
  | 0 => stopped 4 k s
  | 1 => stopped 4 k s
  | 2 => stopped 5 k s && plainBus s k
  | 3 => chainSilent s k
  | 4 => chainSilent s k
  | 7 => chainSilent s (1536 + k)
  | _ => false

/-- The node serves only stopped functions: it is treated as released with zero outputs (R257). -/
def skips (s : State) (n : GNode) (i : Nat) : Bool :=
  if n.kind = 1 then stopped 7 i s
  else if n.kind = 0 then
    let work := (statGet i s).work
    (stopped 6 i s && !(workChains n.cls work).any (fun sel => (chGet sel s).tail))
      || (!work.isEmpty && work.all (workStopped s n.cls))
  else false

/-- The new status of a node at its dispatch. -/
def statStart (s : State) (n : GNode) (i time : Nat) : NodeStat :=
  { block := s.grid.block, sub := nodeSub s n, any := true, released := false, start := time % 256, release := 0
    missed := false, preempted := false, skipped := false, work := (statGet i s).work }

/-- Ready nodes that serve only stopped functions are released without dispatch, in topological order (R257). -/
def skipNodes (s : State) : State :=
  (s.sched.graph.zipIdx).foldl (fun (s : State) (e : GNode × Nat) =>
    if ready s e.1 e.2 && skips s e.1 e.2 then
      statSet e.2 { statStart s e.1 e.2 0 with released := true, skipped := true } s
    else s) s

/-! ### Waiting for slices (R337) -/

/-- A unit of the slice table is worked on by node `i`. -/
def unitOfNode (s : State) (n : GNode) (i : Nat) (u : Nat × Nat × Nat) : Bool :=
  let work := (statGet i s).work
  match u.1 with
  | 1 => decide (n.kind = 0) && decide (n.cls = 0) && work.contains u.2.2
  | 2 => decide (n.kind = 0) && decide (n.cls = 0) && work.contains u.2.2
  | 3 => (decide (n.cls = 3) && work.contains u.2.2) || (decide (n.cls = 7) && (work.map (1536 + ·)).contains u.2.2)
  | 5 => decide (n.kind = 1) && decide (n.target = u.2.2)
  | 6 => decide (n.cls = 2) && work.contains u.2.2
  | _ => false

/-- Units of slice `k` of the TWIN record. -/
def sliceUnits (k : Nat) (s : State) : List (Nat × Nat × Nat) :=
  match s.img.twin.slices[k]? with
  | some (f, n) => (s.img.twin.units.drop f).take n
  | none => []

/-- The units of the slice that is due at the current block (R337). -/
def dueUnits (s : State) : List (Nat × Nat × Nat) :=
  if decide (s.twin.phase = 3) && decide (s.twin.waitEnd = s.grid.block) then sliceUnits s.twin.slice s else []

/-- The tone generators of the block wait for the slice that is due: their lanes are made before the first instance. -/
def toneWaits (s : State) : Bool := (dueUnits s).any (fun u => decide (u.1 = 4))

/-- The node waits for the slice that is due at the current block (R337). -/
def awaitsSlice (s : State) (n : GNode) (i : Nat) : Bool := toneWaits s || (dueUnits s).any (unitOfNode s n i)

/-! ### Shared ADC samples (R318, R328) -/

/-- The partner's ADC samples of sub-block `q` have been received, or the unit has decided to use its own: keys 2q and
2q + 1 of the list. -/
def adcHas (q : Nat) (own : Bool) (s : State) : Bool := s.twin.adcGot.contains (2 * q + (if own then 1 else 0))

/-- A consumer of the ADC samples of sub-block `q` is dispatched (R318). -/
def adcNeed (q : Nat) (s : State) : State :=
  let note := fun (x : Nat) (run : Bool) (s : State) =>
    { s with twin := { s.twin with adcGot := x :: s.twin.adcGot, adcMissRun := run } }
  if !standby s || adcHas q true s then s
  else if adcHas q false s then { s with twin := { s.twin with adcMissRun := false } }
  else
    let run := s.twin.adcMissRun
    let s := count 0x10030084 0 1 (note (2 * q + 1) true s)
    let s := lapse { s with twin := { s.twin with adcMiss := true, localAdc := true } }
    if run then s else raise 0x45 0 s

/-- The instance reads an ADC lane: object sections by their source lanes, matrix and direct sections, and programs by their
INPUT regions. -/
def readsAdc (s : State) (n : GNode) (i : Nat) : Bool :=
  let lanes := s.img.adcLane.filterMap id
  if lanes.isEmpty then false
  else if n.kind = 1 then
    match progOf i s with
    | some p => p.regions.any (fun r => decide (r.kind = 0) && !r.fromBus
        && lanes.any (fun l => decide (r.lane ≤ l) && decide (l < r.lane + r.len / max 1 (ecWidth s p))))
    | none => false
  else decide (n.kind = 0) && (decide (n.cls = 2) || decide (n.cls = 7)
    || (decide (n.cls = 0) && s.img.objs.any (fun o => lanes.contains o.src)))

/-- ADC_MISS: the sub-blocks that the instance reads. -/
def adcCheck (n : GNode) (i : Nat) (s : State) : State :=
  if !readsAdc s n i then s
  else if n.subBlock then (if period s < 2 then s else adcNeed (period s - 2) s)
  else if s.grid.block = 0 then s
  else (List.range 4).foldl (fun s k => adcNeed (4 * (s.grid.block - 1) + k) s) s

/-! ### Choosing an instance (R236, R238, R246) -/

/-- Units of an execution class (table "Execution classes"). -/
def classUnits (cls : Nat) : Nat := nth 0 [4, 4, 1, 8, 8, 16, 64, 1] cls

/-- Instances of a class that occupy a unit. -/
def classBusy (s : State) (cls : Nat) : Nat :=
  (s.sched.inFlight.filter (fun x => !x.complete
    && (match s.sched.graph[x.node]? with | some n => decide (n.cls = cls) | none => false))).length

/-- BACKGROUND instances in flight. -/
def backgroundCount (s : State) : Nat :=
  (s.sched.inFlight.filter (fun x => match s.sched.graph[x.node]? with | some n => n.background | none => false)).length

/-- An instance is past its deadline at `time`/256 of its period (R249). -/
def GNode.past (n : GNode) (time : Nat) : Bool := !n.background && decide (n.deadline < time % 256)

/-- The ready list of a class at `time`/256 of the period: block-rate nodes, then sub-block nodes, each in increasing index
(R236). No instance is dispatched after its deadline (R250). -/
def readyList (cls time : Nat) (s : State) : List (GNode × Nat) :=
  let l := (s.sched.graph.zipIdx).filter (fun e => decide (e.1.cls = cls) && ready s e.1 e.2 && !skips s e.1 e.2
    && !e.1.past time && !awaitsSlice s e.1 e.2 && (!e.1.background || decide (backgroundCount s < 8)))
  l.filter (fun e => !e.1.subBlock) ++ l.filter (fun e => e.1.subBlock)

/-- The instance to dispatch, with its core for a program. -/
def pick (cls time : Nat) (s : State) : Option (GNode × Nat × Nat) :=
  if cls = 6 then (readyList 6 time s).findSome? (fun e => (ecPlace e.1 s).map (fun k => (e.1, e.2, k)))
  else if classUnits cls ≤ classBusy s cls then none
  else ((readyList cls time s).head?).map (fun e => (e.1, e.2, 0))

/-- Generator `k` as the tick of block `a` leaves it: the fix, the requests and the start that act there (R221, R222, R244). -/
def toneAt (a k : Nat) (s : State) : State :=
  let s := (s.mx.pending.filter (fun f => decide (f.act = a))).foldl (fun s f =>
    let s := overlay f.set s
    if (touched f.set 0x10170014 0x10170014).contains k then toneMode a k s else s) s
  let s := (s.sched.dl1.filter (fun r => decide (r.act = a)
    && (match r.kind with | .pause g _ => decide (g = k) | _ => false))).foldl (fun s r => actRequest r s) s
  toneStart k { s with grid := { s.grid with block := a } }

/-- What the direct path sees of a generator's lane ahead of its window: the next window run on without keeping it. -/
def toneAhead (a k : Nat) (s : State) : State :=
  match nth none s.img.tgLanes k with
  | none => s
  | some lane =>
    let t := toneAt (a + 1) k s
    let (xs, _) := toneWindow t (tgPar t k) (s.j0 (a + 1)) (tgGet k t)
    { s with smp := { s.smp with lane := smpPut lane (s.j0 (a + 1)) xs s.smp.lane } }

/-- Tone-generator sections run before the first instance of a block (R217), after the slice that brings their state (R337). -/
def toneFirst (s : State) : State :=
  let a := s.grid.block
  if a < s.sched.tgRan || toneWaits s then s
  else
    let s := (List.range s.img.tgLanes.length).foldl (fun s k => toneAhead a k (toneSection a k s)) s
    { s with sched := { s.sched with tgRan := a + 1 } }

/-! ### Capture frames (R223 to R226) -/

/-- Sample `i` of a capture channel. -/
def capSample (c : Nat) (i : Int) (s : State) : Int :=
  if c < 8 then (match nth none s.img.adcLane c with | some l => smpGet s.smp.lane l i | none => 0)
  else
    let w := rget 0x10170058 (c - 8) s
    if bit 16 w then smpGet s.smp.out (w % 8192) i else smpGet s.smp.bus (w % 8192) i

/-- Bytes of capture frame `m` (table "Capture frame"). POISON is set where a poisoned word was delivered in a block that
makes the frame: DEDUCED (assumption 62). -/
def capFrame (m : Nat) (s : State) : List Nat :=
  let cs := capChannels s
  let bad := !s.grid.met || (s.grid.lapse ≠ 0 && decide (m ≤ s.grid.lapse + 2))
  leBytes 8 m ++ leBytes 4 (cs.foldl (fun a c => a + 2 ^ c) 0) ++ leBytes 4 (bitIf (decide (m < s.grid.poisonIn)) 0 + bitIf bad 1)
    ++ cs.flatMap (fun c => (smpListOf s c (s.B * m)).flatMap (fun x => leBytes 4 (pattern 32 x)))
where
  smpListOf (s : State) (c : Nat) (i : Nat) : List Int := (List.range s.B).map (fun (q : Nat) => capSample c (((i + q : Nat)) : Int) s)

/-- Every engine section of the current block has been released or abandoned, so that its outputs stand (R240). -/
def sectionsDone (s : State) : Bool :=
  (s.sched.graph.zipIdx).all (fun e => decide (e.1.kind ≠ 0) || e.1.subBlock
    || (atNow s e.1 e.2 && (statGet e.2 s).released))

/-- CAPTURE_FRAME_WRITE: once the sections of block a are done, frame a − 1 is written (R225, R226). -/
def captureTry (s : State) : State :=
  let c := s.cap
  let m := s.grid.block - 1
  let due := c.running && decide (c.m0 < s.grid.block) && (match c.stop with | some e => decide (m < e) | none => true)
    && (match c.last with | some l => decide (l < m) | none => true) && decide (0 < capFrames s)
  if due && sectionsDone s then
    let pos := (m - c.m0) % capFrames s
    let taps := (List.range 16).filterMap (fun i =>
      if bit 31 (rget 0x10170058 i s) then
        some (i, (List.range s.B).map (fun (q : Nat) => capSample (8 + i) (((s.B * m + q : Nat)) : Int) s))
      else none)
    let s := dramPut (c.base + pos * capFrameBytes s) (capFrame m s) s
    { s with cap := { s.cap with last := some m, taps := lastN 17 (c.taps ++ [(m, taps)]), wrapped := c.wrapped || (c.stop.isNone && decide (capFrames s ≤ m - c.m0)) } }
  else s

/-- What follows a release: nodes that serve only stopped functions, and a capture frame whose sections are done. -/
def settleNow (s : State) : State := captureTry (skipNodes s)

/-! ### Dispatch (R236, R238, R244, R246) -/

/-- Every entry of the delay lists that has come due is handed to its owner (R244). -/
def allLists (s : State) : State := startAct (stopBathAct s)

/-- The machine as the scheduler finds it when it dispatches: due entries handed over, generator lanes made, and what needs no
unit released. -/
def readied (s : State) : State := settleNow (toneFirst (allLists s))

/-- INSTANCE_DISPATCH: the head of the ready list of class `cls` is dispatched at `time`/256 of its period. -/
def dispatch (cls time : Nat) (s : State) : State :=
  if !s.grid.running then s
  else
    let s := readied s
    if 256 ≤ s.sched.inFlight.length then s
    else match pick cls time s with
      | none => s
      | some (n, i, k) =>
        let s := adcCheck n i s
        let s := statSet i (statStart s n i time) s
        let fl := s.sched.inFlight ++ [⟨i, s.grid.block, nodeSub s n, false, k, Held.none⟩]
        let s := { s with sched := { s.sched with inFlight := fl, peak := max s.sched.peak fl.length } }
        if cls = 6 then ecStart k i s.grid.block (nodeSub s n) s else s

/-! ### Release buffers (R239, R240) -/

/-- Keys at which two stores differ, with the values of the second; `n` bounds the entries of both. -/
def sdiff : Nat → Sparse Int → Sparse Int → List (Nat × Int)
  | 0, _, _ => []
  | _, [], b => b
  | n + 1, (j, _) :: a, [] => (j, 0) :: sdiff n a []
  | n + 1, (j, u) :: a, (k, v) :: b =>
    if j < k then (j, 0) :: sdiff n a ((k, v) :: b)
    else if k < j then (k, v) :: sdiff n ((j, u) :: a) b
    else if u = v then sdiff n a b else (k, v) :: sdiff n a b

/-- The samples that a step from store `a` to store `b` writes. -/
def written (a b : Sparse Int) : List (Nat × Int) := sdiff (a.length + b.length) a b

/-- Samples written to a store. -/
def putAll (l : List (Nat × Int)) (m : Sparse Int) : Sparse Int := l.foldl (fun m e => sset 0 e.1 e.2 m) m

/-- A release buffer's outputs made visible (R240). -/
def heldApply (h : Held) (s : State) : State :=
  let s := { s with smp := { s.smp with
    lane := putAll h.lane s.smp.lane, bus := putAll h.bus s.smp.bus
    align := putAll h.align s.smp.align, out := putAll h.out s.smp.out } }
  let s := h.handed.foldl (fun s e => objSet e.1 { objGet e.1 s with handed := e.2 } s) s
  h.pan.foldl (fun s e => objSet e.1 { objGet e.1 s with panSub := e.2 } s) s

/-- The outputs that an instance of class `cls` with its work makes, from `v` to `t`. -/
def heldOf (cls : Nat) (work : List Nat) (v t : State) : Held where
  lane := written v.smp.lane t.smp.lane
  bus := written v.smp.bus t.smp.bus
  align := written v.smp.align t.smp.align
  out := written v.smp.out t.smp.out
  handed := if cls = 0 then work.map (fun k => (k, (objGet k t).handed)) else []
  pan := if cls = 1 then work.map (fun k => (k, (objGet k t).panSub)) else []

/-- The machine `t` without those outputs, which stand as in `s`: an instance's own state stays. -/
def withhold (cls : Nat) (work : List Nat) (s t : State) : State :=
  let t := { t with smp := { t.smp with
    lane := s.smp.lane, bus := s.smp.bus, align := s.smp.align, out := s.smp.out } }
  match cls with
  | 0 => work.foldl (fun t k => objSet k { objGet k t with handed := (objGet k s).handed } t) t
  | 1 => work.foldl (fun t k => objSet k { objGet k t with panSub := (objGet k s).panSub } t) t
  | _ => t

/-- The producer over a STREAM edge has produced all its data (R237). -/
def streamsDone (n : GNode) (s : State) : Bool :=
  n.preds.all (fun e => !e.stream || (match s.sched.inFlight.find? (fun x => decide (x.node = e.pred)) with
    | some x => x.complete
    | none => true))

/-- What an instance sees: released outputs, and through its fabric queues the outputs of its STREAM predecessors (R237,
R239). -/
def streamed (n : GNode) (s : State) : State :=
  n.preds.foldl (fun v e => if e.stream then
      match s.sched.inFlight.find? (fun x => decide (x.node = e.pred)) with
      | some x => heldApply x.held v
      | none => v
    else v) s

/-! ### Completion -/

/-- Lane or bus samples of the window shaped by the stop state of engine section `i` (R256, R257). -/
def shapeNode (i a : Nat) (l : List Int) (s : State) : List Int := fnShape (fnGet 6 i s) true s.lgB a l

/-- The output of a bus over the window of block `a` replaced, with its returns. -/
def busReplace (a k : Nat) (ys : List Int) (s : State) : State :=
  let j := s.j0 a
  let s := { s with smp := { s.smp with bus := smpPut k j ys s.smp.bus } }
  (s.img.returns.filter (fun r => decide (r.1 = k) && (genInstance s k).isNone)).foldl
    (fun s r => { s with smp := { s.smp with lane := smpPut r.2 (j + s.B) ys s.smp.lane } }) s

/-- An engine section of class `cls` works on function `k` of its work, for block `a` and sub-block `sub`. -/
def sectionOne (cls i a sub k : Nat) (s : State) : State :=
  let own := decide (fnGet 6 i s ≠ ⟨0, false, 0, 0⟩)
  match cls with
  | 0 =>
    let s := objSection a k s
    match own, s.img.objs[k]? with
    | true, some o => { s with smp := { s.smp with
        lane := smpPut o.out (s.j0 a) (shapeNode i a (smpList s.smp.lane o.out (s.j0 a) s.B) s) s.smp.lane } }
    | _, _ => s
  | 1 => panSection k s
  | 2 =>
    let s := matrixSection a k s
    if own && busExists s k && (directChannel s k).isNone then
      busReplace a k (shapeNode i a (smpList s.smp.bus k (s.j0 a) s.B) s) s
    else s
  | 3 =>
    let s := spkDynamics a k s
    if isGen s k then genOutput a k s else s
  | 4 => convSection a k s
  | 7 => directSection (4 * a + sub) k s
  | _ => s

/-- The work of an engine section (R239). -/
def runSection (n : GNode) (x : Inst) (work : List Nat) (s : State) : State :=
  let s := work.foldl (fun s k => sectionOne n.cls x.node x.block x.sub k s) s
  let s := statSet x.node { statGet x.node s with work := work } s
  if n.cls = 2 then fixPrepare (matrixReport x.block s) else s

/-- The in-flight instance of node `i` is replaced. -/
def flightSet (i : Nat) (f : Inst → Inst) (s : State) : State :=
  { s with sched := { s.sched with inFlight := s.sched.inFlight.map (fun x => if x.node = i then f x else x) } }

/-- The in-flight instance of node `i`. -/
def flightOf (i : Nat) (s : State) : Option Inst := s.sched.inFlight.find? (fun x => decide (x.node = i))

/-- INSTANCE_COMPLETE: node `i`'s unit finishes; `work` names the functions that an engine section served. The outputs wait
in its release buffer (R240). A consumer over a STREAM edge finishes after its producer (R237). -/
def complete (i : Nat) (work : List Nat) (s : State) : State :=
  match flightOf i s, s.sched.graph[i]? with
  | some x, some n =>
    if x.complete || !streamsDone n s || (decide (n.kind = 1) && !ecFinished x.core i s) then s
    else
      let v := streamed n s
      let t := if n.kind = 1 then ecFinish x.core i v else if n.kind = 0 then runSection n x work v else v
      flightSet i (fun x => { x with complete := true, held := heldOf n.cls work v t }) (withhold n.cls work s t)
  | _, _ => s

/-! ### Abandoned instances (R250 to R252, R296) -/

/-- Zeros in place of the outputs for function `k` of an engine section (R251). -/
def zeroOne (cls a sub k : Nat) (s : State) : State :=
  let z := List.replicate s.B (0 : Int)
  match cls with
  | 0 => match s.img.objs[k]? with
    | some o => { s with smp := { s.smp with lane := smpPut o.out (s.j0 a) z s.smp.lane } }
    | none => s
  | 1 => objSet k { objGet k s with panSub := [], handed := [] } s
  | 2 => busReplace a k z s
  | 3 =>
    let c := chGet k s
    chSet k (if isGen s k then { c with zeroOut := lastN 4 (c.zeroOut ++ [s.j0 a + (bits 8 2 (rget 0x10080010 k s) : Nat)]) }
      else { c with zeroAlign := lastN 4 (c.zeroAlign ++ [(s.B : Int) * a]) }) s
  | 4 =>
    let c := chGet k s
    chSet k { c with zeroOut := lastN 4 (c.zeroOut ++ [(s.B : Int) * a + outOff s]) } s
  | 7 => { s with smp := { s.smp with
      out := smpPut (1536 + k) ((s.S : Int) * (4 * a + sub + 3)) (List.replicate s.S 0) s.smp.out } }
  | _ => s

/-- What the sections of a chain class still owe of the block before the abandoned one: their stage and output indices
below the abandoned window, made here as they would have been (R194, R646). -/
def oweBefore (n : GNode) (x : Option Inst) (i block : Nat) (work : List Nat) (s : State) : State :=
  if n.cls ≠ 3 && n.cls ≠ 4 then s
  else match x with
    | some x => if x.complete then heldApply x.held s else work.foldl (fun s k => sectionOne n.cls i block 0 k s) s
    | none => work.foldl (fun s k => sectionOne n.cls i block 0 k s) s

/-- An instance is abandoned: zeros for its outputs, its context and release buffer dropped, and it counts as released (R250,
R251, R296). A transfer's buffer is not known: the spec gives its descriptor no format (assumption 60). -/
def abandon (i block sub : Nat) (missed : Bool) (work : List Nat) (s : State) : State :=
  match s.sched.graph[i]? with
  | none => s
  | some n =>
    let core := ((flightOf i s).map Inst.core).getD 0
    let s := if n.kind = 1 then
        match progOf i s with
        | some p => outputCopy core none p i block sub (dropCtx core i s)
        | none => s
      else if n.kind = 0 then work.foldl (fun s k => zeroOne n.cls block sub k s) (oweBefore n (flightOf i s) i block work s)
      else s
    let t := statGet i s
    let s := statSet i { t with block := block, sub := sub, any := true, released := true, release := 0xFF, missed := missed } s
    settleNow { s with sched := { s.sched with inFlight := s.sched.inFlight.filter (fun y => decide (y.node ≠ i)) } }

/-- A node whose instance of the current block or period has been neither released nor abandoned, and that has a deadline:
its block and sub-block (R249, R250). -/
def overdue (i : Nat) (s : State) : Option (Nat × Nat) :=
  match s.sched.graph[i]? with
  | none => none
  | some n =>
    if n.background then none
    else match flightOf i s with
      | some x => some (x.block, x.sub)
      | none => if atNow s n i then none else some (s.grid.block, nodeSub s n)

/-- DEADLINE_MISS: node `i` misses its deadline; `work` names the functions that the section would have served, `missing`
the DACs that find samples missing, with the first output index and their number. -/
def deadlineMiss (i : Nat) (work : List Nat) (missing : List (Nat × Nat × Nat)) (s : State) : State :=
  if !s.grid.running then s
  else match overdue i s with
    | none => s
    | some (b, sub) =>
      let s := abandon i b sub true work s
      let s := count 0x10040020 0 1 { s with
        grid := { s.grid with overload := true }
        sched := { s.sched with missLast := i % 4096 + 2 ^ 31 } }
      let s := raiseOnce 0x32 i (lapse s)
      missing.foldl (fun s e => dacUnderrun e.1 e.2.1 e.2.2 s) s

/-- At the end of a block or sub-block every instance that `p` selects and that has been neither released nor abandoned has
missed its deadline (R249, R250, R253); its latest work names its functions. -/
def missAll (p : GNode → Bool) (s : State) : State :=
  (s.sched.graph.zipIdx).foldl (fun s e =>
    if p e.1 && (overdue e.2 s).isSome then deadlineMiss e.2 (statGet e.2 s).work [] s else s) s

/-- A sub-block period ends (R253). -/
def closePeriod (s : State) : State := missAll GNode.subBlock (allLists s)

/-- A block ends (R253). -/
def closeBlock (s : State) : State := missAll (fun _ => true) (allLists s)

/-! ### Release (R240, R241) -/

/-- Every member of the same flow with a lower SEQ has been released in the same block or sub-block. -/
def flowClear (s : State) (n : GNode) : Bool :=
  match n.flow with
  | none => true
  | some f => (s.sched.graph.zipIdx).all (fun e =>
      decide (e.1.flow ≠ some f) || decide (n.seq ≤ e.1.seq) || (atNow s e.1 e.2 && (statGet e.2 s).released))

/-- INSTANCE_RELEASE: a completed instance is released at `time`/256 of its period and its outputs become visible; one that
is past its deadline has missed it (R249, R250). -/
def release (i time : Nat) (s : State) : State :=
  match flightOf i s, s.sched.graph[i]? with
  | some x, some n =>
    if x.complete && flowClear s n then
      if n.past time then deadlineMiss i (statGet i s).work [] s
      else
        let s := statSet i { statGet i s with released := true, release := time % 256 } s
        settleNow (heldApply x.held { s with sched := { s.sched with
          inFlight := s.sched.inFlight.filter (fun y => decide (y.node ≠ i))
          loadNow := if n.subBlock then s.sched.loadNow else time % 256 } })
    else s
  | _, _ => s

/-- A fault of the running instance of core `k` (R297). -/
def ecFault (k cause : Nat) (s : State) : State :=
  let c := coreGet k s
  match c.ctxs with
  | [] => s
  | x :: _ =>
    let s := coreSet k { c with faultInfo := cause + x.node * 2 ^ 4 + 2 ^ 31, faultPc := x.pc } s
    let s := raise 0x37 x.node (count (ecAddr k 0x24) 0 1 s)
    let s := if cause = 5 then setPoison s else s
    abandon x.node x.block x.sub false [] s

/-! ### Ticks and registers -/

/-- At a block tick the block that ended reports its load (chapter 07, SCHED.LOAD). -/
def schedTick (s : State) : State :=
  let v := s.sched.loadNow
  { s with sched := { s.sched with load := v, loadPeak := max s.sched.loadPeak v, loadNow := 0 } }

/-- SCHED.NODE_STATE of a node. -/
def nodeStateWord (i : Nat) (s : State) : Nat :=
  let t := statGet i s
  t.start + t.release * 2 ^ 8 + bitIf t.missed 16 + bitIf t.preempted 17 + bitIf t.skipped 18

/-- Device-made events that DL2 holds (R242): crossfade ends, tone-generator and sweep starts, capture start and end. -/
def dl2Fill (s : State) : Nat :=
  (s.conv.filter (fun e => !e.2.xfDone)).length + (s.tg.filter (fun e => e.2.armed)).length
    + (s.tg.filter (fun e =>
        let p := tgPar s e.1
        let per : Nat := max 1 (p.period * s.B)
        e.2.running && decide (e.2.mode = 2)
          && (decide (e.2.sweeps < bits 13 6 p.ctrl) || decide (p.len ≤ (toneRel s e.2).toNat % per)))).length
    + (if s.cap.armed then 1 else 0) + (if s.cap.running && s.cap.stop.isSome then 1 else 0)

/-- The RO registers of the SCHED block; `fsel` and `nsel` are the selected function and node. -/
def schedReg (off fsel nsel : Nat) (s : State) : Nat :=
  match off with
  | 0x00 => if s.sched.valid then s.sched.graph.length + s.sched.flows * 2 ^ 13 + 2 ^ 31 else 0
  | 0x04 => s.sched.inFlight.length + backgroundCount s * 2 ^ 12
  | 0x08 => s.sched.graphErr
  | 0x10 => s.sched.load
  | 0x24 => s.sched.missLast
  | 0x30 => s.mx.pending.length
  | 0x34 => s.sched.dl1.length
  | 0x38 => dl2Fill s
  | 0x3C => s.sched.dl3.length
  | 0x54 =>
    let kind := bits 19 16 fsel
    if 1 ≤ kind ∧ kind ≤ 7 then
      let f := fnGet kind (fsel % 8192) s
      f.st + bitIf f.deferred 3
    else 0
  | 0x74 => nodeStateWord (nsel % 4096) s
  | _ => 0

end Sys2Proof.Machine
end

