-- ==== Sys2Proof/Machine/EffectRows.lean ====
section
/-!
DEFINITION. Issue of bundles on the effect cores (chapter 08): move slots, compute and control operations, faults, loops and
delay slots, and the meaning of each operation's row.
-/
namespace Sys2Proof.Machine

/-! ### Move slots -/

/-- What one move slot does: an address update, a load, a store, or a fault cause; a stall is told apart. -/
structure MoveOut where
  stall : Bool
  fault : Option Nat
  addr : Option (Nat × Nat)
  load : Option (Nat × BitVec 32)
  store : Option (EcRegion × Nat × Nat)
  /-- The word loaded was uncorrectable (R269): its word address. -/
  bad : Option Nat
deriving DecidableEq, Repr

/-- A slot that does nothing. -/
def MoveOut.none : MoveOut := ⟨false, Option.none, Option.none, Option.none, Option.none, Option.none⟩

/-- A word lies in an outstanding move of one direction (R284). -/
def inMove (c : EcCtx) (out y : Bool) (w : Nat) : Bool :=
  c.moves.any (fun b => decide (b.out = out) && decide (b.yMem = y) && decide (b.word ≤ w) && decide (w < b.word + b.len))

/-- One move slot of a bundle on the context `c` of core `k` (R267, R271, R272, R284, R288). -/
def moveSlot (k : Nat) (c : EcCtx) (p : EcProg) (y : Bool) (m : MoveSlot) (bad : Bool) (s : State) : MoveOut :=
  if m.kind = 0 then MoveOut.none
  else
    let pi := (if y then 4 else 0) + m.p
    let pv := nth 0 c.p pi
    let w := effAddr pv m.disp
    let upd := updateAddr m.u pv (nth 0 c.m ((if y then 4 else 0) + m.m))
    let addr := if m.u = 0 then Option.none else upd.map (fun v => (pi, v))
    let fin := fun (o : MoveOut) => if upd.isNone then { o with fault := o.fault.or (some 2) } else { o with addr := addr }
    if m.kind = 3 then fin MoveOut.none
    else if 0x2000 ≤ w then { MoveOut.none with fault := some 1 }
    else match regionAt p y w with
      | Option.none => { MoveOut.none with fault := some 1 }
      | some r =>
        if m.kind = 1 then
          if inMove c false y w then { MoveOut.none with stall := true }
          else
            let poisoned := bad || s.ec.poison.contains (coreKey k y w)
            fin { MoveOut.none with
              load := some (m.reg, if poisoned then 0 else BitVec.ofNat 32 (ctxWord k c r w s))
              bad := if poisoned then some w else Option.none }
        else if r.kind = 0 || r.kind = 3 then { MoveOut.none with fault := some 1 }
        else if inMove c true y w then { MoveOut.none with stall := true }
        else fin { MoveOut.none with store := some (r, w, ((nth 0 c.d m.reg : BitVec 32)).toNat) }

/-- A store made by a slot. -/
def moveStore (k : Nat) (o : MoveOut) (c : EcCtx) (s : State) : EcCtx × State :=
  match o.store with
  | Option.none => (c, s)
  | some (r, w, v) => (noteStored r [w] c, coreWrite k r.yMem w [v] s)

/-- A slot loaded an uncorrectable word (R269, R502, R507): its delivery counts, and the word keeps its mark. -/
def moveBad (k : Nat) (y : Bool) (array : Nat) (fresh : Bool) (o : MoveOut) (s : State) : State :=
  match o.bad with
  | Option.none => s
  | some w =>
    if fresh then burstCheck (coreMark k y w (sramPoison array w s.clk.safe s)) else deliverWord k y w s

/-! ### Visibility (R276, R277) -/

/-- Loads that become visible after this bundle reach their registers; the others move one bundle on. -/
def landLoads (c : EcCtx) : EcCtx :=
  let due := c.loads.filter (fun l => decide (l.left ≤ 1))
  let c := due.foldl (fun (c : EcCtx) l => { c with d := c.d.set l.reg l.val }) c
  { c with loads := (c.loads.filter (fun l => decide (1 < l.left))).map (fun l => { l with left := l.left - 1 }) }

/-- The address update of a slot. -/
def landAddr (o : MoveOut) (c : EcCtx) : EcCtx :=
  match o.addr with
  | some (i, v) => { c with p := c.p.set i v }
  | Option.none => c

/-- The load of a slot starts: the third bundle from here sees it. -/
def startLoad (o : MoveOut) (c : EcCtx) : EcCtx :=
  match o.load with
  | some (r, v) => { c with loads := c.loads ++ [⟨2, r, v⟩] }
  | Option.none => c

/-! ### Control -/

/-- A loop counter. -/
def EcCtx.lc (c : EcCtx) (level : Nat) : Nat := if level = 0 then c.lc0 else c.lc1

/-- A loop counter set. -/
def EcCtx.setLc (c : EcCtx) (level v : Nat) : EcCtx := if level = 0 then { c with lc0 := v } else { c with lc1 := v }

/-- The level is active. -/
def EcCtx.looping (c : EcCtx) (level : Nat) : Bool := c.loops.any (fun l => decide (l.level = level))

/-- Loops whose end bundle has just executed (R275), whatever other loop a taken branch has left active: the address that
follows. -/
def loopEnd (pc : Nat) : Nat → EcCtx → EcCtx × Nat
  | 0, c => (c, (pc + 1) % 8192)
  | n + 1, c =>
    match c.loops.find? (fun l => decide (l.last = pc)) with
    | none => (c, (pc + 1) % 8192)
    | some l =>
      if 1 < c.lc l.level then (c.setLc l.level (c.lc l.level - 1), l.first)
      else loopEnd pc n { c with loops := c.loops.filter (fun q => decide (q.level ≠ l.level)) }

/-- The address after the bundle at `pc`, with loop ends and owed delay slots (R275). -/
def advance (pc : Nat) (c : EcCtx) : EcCtx :=
  let (c, next) := loopEnd pc 2 c
  match c.delay with
  | Option.none => { c with pc := next }
  | some (1, some t) => { c with pc := t, delay := Option.none }
  | some (1, Option.none) => { c with pc := next, delay := Option.none, ended := true }
  | some (n, t) => { c with pc := next, delay := some (n - 1, t) }

/-- A branch that is taken: two delay slots follow. -/
def branch (t : Option Nat) (pc : Nat) (c : EcCtx) : EcCtx := { c with pc := (pc + 1) % 8192, delay := some (2, t) }

/-- A control operation executed at `pc` (table "Control operations"), on the context after its moves; flags and registers
are those of `o`, as the bundle found them. Answers a fault cause or the context. -/
def controlEffect (pc : Nat) (q : Control) (o c : EcCtx) : Nat ⊕ EcCtx :=
  let taken := condHolds q.cond o
  let level := q.cond % 2
  match q.op with
  | 1 => .inr (if taken then branch (some q.target) pc c else advance pc c)
  | 2 => .inr (if taken then branch (some q.target) pc { c with lr := (pc + 3) % 8192 } else advance pc c)
  | 3 => .inr (if taken then branch (some o.lr) pc c else advance pc c)
  | 4 =>
    if o.looping level then .inl 3
    else
      let n := (o.d.getD q.reg 0).toNat % 65536
      let c := c.setLc level n
      if n = 0 then .inr { c with pc := (q.target + 1) % 8192 }
      else .inr (advance pc { c with loops := ⟨level, (pc + 1) % 8192, q.target⟩ :: c.loops })
  | 5 => .inr (advance pc { c with loops := c.loops.filter (fun l => decide (l.level ≠ level)) })
  | 6 => .inr (advance pc { c with moves := c.moves ++ [moveOf o] })
  | 8 => .inr (branch Option.none pc c)
  | _ => .inr (advance pc c)

/-! ### Issue -/

/-- FAB cycles pass on a core: the running context's, and the pre-empted ones' since their dispatch (R270, R299). -/
def passCycles (n : Nat) (e : EcCore) : EcCore :=
  { e with ctxs := (e.ctxs.zipIdx).map (fun ((c : EcCtx), (i : Nat)) =>
      { c with cyc := c.cyc + n, ran := if i = 0 then c.ran + n else c.ran }) }

/-- The bundle stalls before it issues (R278): WAITM, a fifth block move. -/
def stalls (b : Bundle) (c : EcCtx) : Bool :=
  match b with
  | .c q _ _ => (decide (q.op = 7) && !c.moves.isEmpty) || (decide (q.op = 6) && decide (4 ≤ c.moves.length))
  | _ => false

/-- The bundle's own fault (R275, R282). -/
def bundleFault (p : EcProg) (b : Bundle) (c : EcCtx) : Option Nat :=
  match b with
  | .c q _ _ =>
    if q.op = 4 && c.looping (q.cond % 2) then some 3
    else if q.op = 6 && !moveOk p (moveOf c) then some 4
    else Option.none
  | _ => Option.none

/-- Move slots of a bundle. -/
def bundleMoves : Bundle → Option (MoveSlot × MoveSlot)
  | .a _ x y => some (x, y)
  | .c _ x y => some (x, y)
  | _ => Option.none

/-- Compute, control or long immediate of a bundle at `pc`, after its moves; the address follows. -/
def bundleEffect (pc : Nat) (b : Bundle) (o c : EcCtx) : EcCtx :=
  match b with
  | .a q _ _ => advance pc (computeEffect q o c)
  | .b code imm => advance pc (writeCode true c code imm)
  | .c q _ _ => match controlEffect pc q o c with | .inr c => c | .inl _ => c
  | .illegal => c

/-- A MOVC of a code that names no register gives a free value (R270 gives none). -/
def movcFree (b : Bundle) (c : EcCtx) (s : State) : EcCtx × State :=
  match b with
  | .a q _ _ =>
    if q.op = 0x1B && (decide (q.imm % 64 < 0x10) || decide (0x28 < q.imm % 64)) then
      let (v, s) := nextFree s
      (c.setD q.d ((v % 2 ^ 32 : Nat) : Int), s)
    else (c, s)
  | _ => (c, s)

/-- One bundle of the running context of core `k` issues (R273 to R297): all sources are read before any result lands. -/
def issue (k : Nat) (b : Bundle) (env : EcEnv) (c : EcCtx) (p : EcProg) (s : State) : State :=
  let stall := fun (s : State) => ctxSet k { c with stalled := true } s
  if stalls b c then stall s
  else
    let (x, y) := match bundleMoves b with
      | some (x, y) => (moveSlot k c p false x env.xBad s, moveSlot k c p true y env.yBad s)
      | Option.none => (MoveOut.none, MoveOut.none)
    match x.fault.or (y.fault.or (bundleFault p b c)) with
    | some cause => ecFault k cause s
    | Option.none =>
      if x.stall || y.stall then stall s
      else
        let pc := c.pc
        let c0 := { c with stalled := false }
        let (c1, s) := moveStore k x c0 s
        let (c1, s) := moveStore k y c1 s
        let s := moveBad k true env.array env.yBad y (moveBad k false env.array env.xBad x s)
        let c2 := startLoad y (startLoad x (landAddr y (landAddr x (landLoads c1))))
        let (c3, s) := movcFree b (bundleEffect pc b c0 c2) s
        ctxSet k c3 s

/-- The bundle that core `k` would issue next: context, program and bundle word; none on an idle core, after DONE, or where
the address lies outside the program's text. -/
def fetched (k : Nat) (s : State) : Option (EcCtx × EcProg × Option Nat) :=
  match (coreGet k s).ctxs with
  | [] => Option.none
  | c :: _ =>
    if c.ended then Option.none
    else match s.ec.progs[c.prog]? with
      | Option.none => Option.none
      | some p =>
        let inText := decide (p.textAddr ≤ c.pc) && decide (c.pc < p.textAddr + p.text.length)
        some (c, p, if inText then some (sget 0 (k * 2 ^ 13 + c.pc) s.ec.text) else Option.none)

/-- A row of an operation on core `k`: it issues the core's next bundle where that is of the operation `want`; a fetch
outside the text or with an uncorrectable error faults (R291, R297). -/
def issueRow (want : Bundle → Bool) (k : Nat) (env : EcEnv) (s : State) : State :=
  match fetched k s with
  | Option.none => s
  | some (c, p, w) =>
    match w with
    | Option.none => ecFault k 6 s
    | some w =>
      if !want (decodeBundle w) then s
      else
        let s := coreSet k (passCycles env.cycles (coreGet k s)) s
        if env.fetchBad then burstCheck (ecFault k 5 (sramPoison env.array c.pc s.clk.safe s))
        else match (coreGet k s).ctxs with
          | c :: _ => issue k (decodeBundle w) env c p s
          | [] => s

/-- The bundle's compute slot holds operation `op`. -/
def isCompute (op : Nat) (b : Bundle) : Bool := match b with | .a q _ _ => decide (q.op = op) | _ => false

/-- The bundle's control slot holds operation `op`. -/
def isControl (op : Nat) (b : Bundle) : Bool := match b with | .c q _ _ => decide (q.op = op) | _ => false

/-- The bundle is a long immediate. -/
def isLdi (b : Bundle) : Bool := match b with | .b _ _ => true | _ => false

end Sys2Proof.Machine
end

