-- ==== Sys2Proof/Machine/Registration.lean ====
section
/-!
DEFINITION. Registration of twins (R329 to R333), the shared ADC samples on the link (R328), and link repair (R303).
-/
namespace Sys2Proof.Machine

/-! ### Hashes (R330) -/

/-- One byte into the CRC-64 (table "Registration hash"). -/
def crc64Byte (crc b : Nat) : Nat :=
  (List.range 8).foldl (fun (c : Nat) _ =>
    if c / 2 ^ 63 = 1 then (c * 2 % 2 ^ 64) ^^^ 0x42F0E1EBA9EA3693 else c * 2 % 2 ^ 64) (crc ^^^ (b * 2 ^ 56))

/-- CRC-64 of bytes. -/
def crc64 (l : List Nat) : Nat := l.foldl crc64Byte (2 ^ 64 - 1) ^^^ (2 ^ 64 - 1)

/-- Samples or words as 32-bit big-endian words. -/
def words32 (l : List Int) : List Nat := l.flatMap (fun x => beBytes 4 (pattern 32 x))

/-- Packets of a transmit stream whose first index lies in block `n`. -/
def packetsOf (s : State) (c : TxCfg) (n : Nat) : List Nat :=
  let p := max 1 c.ptime
  let lo := (s.B * n + p - 1) / p
  (List.range ((s.B * (n + 1) + p - 1) / p - lo)).map (lo + ·)

/-- Samples of tap `i` in capture frame `n`, as the frame was written; none where it was not. -/
def tapSamples (s : State) (n i : Nat) : List Int :=
  match s.cap.taps.find? (fun f => decide (f.1 = n)) with
  | some f => ((f.2.find? (fun t => decide (t.1 = i))).map Prod.snd).getD []
  | none => []

/-- What an item contributes for block `n` (R330). -/
def itemBytes (s : State) (n : Nat) (item : Nat × Nat × Nat) : List Nat :=
  let i := item.2.2
  let o : Int := ((s.B * n : Nat) : Int)
  match item.1 with
  | 1 =>
    if (portCfg s i).dir ≠ 2 then []
    else
      let rows := (List.range s.B).map (fun (q : Nat) => txWords s i (o + (q : Int)))
      (List.range (enabledSlots (portCfg s i)).length).flatMap (fun j => words32 (rows.map (fun r => nth 0 r j)))
  | 2 =>
    match s.img.tx[i]? with
    | some c => (packetsOf s c n).flatMap (fun m =>
        if txSkipped s i c m then [] else let r := txRtp s i c m; slice 2 6 r ++ r.drop 12)
    | none => []
  | 3 => words32 (smpList s.smp.dac i o s.B)
  | 4 => words32 (srcSamples s (nth none s.img.ampSrc i) o s.B)
  | 5 => words32 (tapSamples s n i)
  | _ => []

/-- The hash of group `g` for block `n` (R330). -/
def groupHash (s : State) (n g : Nat) : Nat :=
  crc64 (beBytes 8 n ++ (s.img.twin.items.filter (fun x => decide (x.2.1 = g))).flatMap (itemBytes s n))

/-! ### Lapses and resync -/

/-- The first slice and its installing block, from a block on (R336). -/
def planStart (b : Nat) (s : State) : Option (Nat × Nat × Nat) :=
  match s.img.twin.levels with
  | [] => none
  | (w, f, _) :: _ => some (0, f, b + w)

/-- The plan's wait from block `b` on: the first level, or the output settle (R336). -/
def planWait (b : Nat) (s : State) : State :=
  match planStart b s with
  | some (l, k, e) => { s with twin := { s.twin with phase := 2, level := l, slice := k, waitEnd := e, parts := [] } }
  | none => { s with twin := { s.twin with phase := 4, level := 0, slice := 0, waitEnd := b + s.img.twin.outSettle, parts := [] } }

/-- A lapse on either unit restarts the plan from level 0, or the count of matching blocks (R338); the holder sends the slices
anew. -/
def planLapse (s : State) : State :=
  let t := s.twin
  if t.acts then
    match t.plan with
    | some (l, _, b) =>
      if decide (l = s.img.twin.levels.length) && decide (b ≤ s.grid.block) then { s with twin := { t with plan := none } }
      else { s with twin := { t with plan := planStart s.grid.block s } }
    | none => s
  else if t.st ≠ 4 then s
  else if 2 ≤ t.phase && decide (t.phase ≤ 4) then planWait s.grid.block s
  else if t.phase = 5 then { s with twin := { t with matchRun := 0 } }
  else s

/-! ### Comparison (R332, R333) -/

/-- The unit compares blocks: it does not act and is not declared-divergent (R331, R346). -/
def compares (s : State) : Bool := standby s && !s.twin.divergent

/-- A compared block decides the unit's state: in LATENT, and in the counting phase of RESYNC (R307, R338). -/
def decides (s : State) : Bool := decide (s.twin.st = 1) || (decide (s.twin.st = 4) && decide (s.twin.phase = 5))

/-- A block whose hashes are equal. -/
def hashMatch (s : State) : State :=
  let run := min (s.twin.matchRun + 1) 0xFFFFFF
  let s := { s with twin := { s.twin with matchRun := run } }
  if s.twin.st = 4 && decides s && decide (4096 ≤ run) then enterLatent s else s

/-- A block whose hashes differ (table "Registration decisions"). Where the table of R307 lists no transition the run of matching
blocks ends and nothing is recorded as a divergence: DEDUCED (assumption 67). -/
def hashDiffer (n mask : Nat) (explained : Bool) (s : State) : State :=
  let s := { s with twin := { s.twin with mismatch := mask, mismatchBlk := n } }
  if !decides s then { s with twin := { s.twin with matchRun := 0 } }
  else if explained then
    let s := count 0x10030074 0 1 { s with twin := { s.twin with expl := s.grid.block :: lastHour s.twin.expl s } }
    raise 0x48 0 (enterResync false s)
  else
    let l := s.grid.block :: lastHour s.twin.unexpl s
    let s := raise 0x49 0 (count 0x10030070 0 1 { s with twin := { s.twin with unexpl := l } })
    let s := if 3 ≤ l.length && !s.twin.degraded then raise 0x4A 0 { s with twin := { s.twin with degraded := true } } else s
    enterSuspect s

/-- Block `n` is compared as soon as both HASH frames are held (R331, R332). -/
def compareBlock (n : Nat) (s : State) : State :=
  match s.twin.ownHash.find? (fun h => decide (h.block = n)), s.twin.peerHash.find? (fun h => decide (h.block = n)) with
  | some a, some b =>
    if !compares s then s
    else
      let s := { s with twin := { s.twin with
        ownHash := s.twin.ownHash.filter (fun h => decide (h.block ≠ n))
        peerHash := s.twin.peerHash.filter (fun h => decide (h.block ≠ n))
        compared := some (a, b) } }
      let mask := (List.range s.img.twin.groups).foldl (fun m g => if nth 0 a.hashes g = nth 0 b.hashes g then m else m + 2 ^ g) 0
      let near := fun (l : Option Nat) => match l with | some m => decide (n ≤ m + s.img.twin.explain) | none => false
      if mask = 0 then hashMatch s else hashDiffer n mask (near a.lapse || near b.lapse) s
  | _, _ => s

/-- Hash lists keep the latest 32 blocks. -/
def keepHash (h : BlockHash) (l : List BlockHash) : List BlockHash := lastN 31 (l.filter (fun x => decide (x.block ≠ h.block))) ++ [h]

/-- HASH_SEAL: at the tick of block n + SEAL_BLOCKS the hashes of block n are sealed and sent (R331). -/
def hashSeal (s : State) : State :=
  let k := s.img.twin.sealBlocks
  if !s.img.twin.pair || s.twin.starting || decide (s.grid.block < s.twin.proposal + k) then s
  else
    let n := s.grid.block - k
    let hs := (List.range s.img.twin.groups).map (groupHash s n)
    let s := { s with twin := { s.twin with ownHash := keepHash ⟨n, some s.grid.lapse, hs⟩ s.twin.ownHash } }
    let s := linkSend 0x10 (beBytes 8 n ++ beBytes 8 s.grid.lapse ++ hs.flatMap (beBytes 8)) s
    compareBlock n s

/-- HASH_FRAME: the partner's hashes of a block (R331, R332); a lapse that it newly reports counts under R338. -/
def hashReceive (p : List Nat) (s : State) : State :=
  let n := be (slice 0 8 p)
  let m := be (slice 8 8 p)
  let fresh := match s.twin.peerHash.getLast? with | some h => decide (h.lapse ≠ some m) | none => false
  let hs := (List.range s.img.twin.groups).map (fun g => be (slice (16 + 8 * g) 8 p))
  let s := { s with twin := { s.twin with peerHash := keepHash ⟨n, some m, hs⟩ s.twin.peerHash } }
  compareBlock n (if fresh then planLapse s else s)

/-- HASH_COMPARE_TIMEOUT: blocks whose peer frame is absent at the tick of n + SEAL_BLOCKS + 2 are not compared (R331,
R332). -/
def hashTimeout (s : State) : State :=
  let past := fun (h : BlockHash) => decide (h.block + s.img.twin.sealBlocks + 2 ≤ s.grid.block)
  if s.twin.ownHash.any past then
    let s := { s with twin := { s.twin with
      matchRun := if compares s && s.twin.st = 4 then 0 else s.twin.matchRun
      ownHash := s.twin.ownHash.filter (fun h => !past h) } }
    s
  else s

/-! ### Shared ADC samples (R328) -/

/-- ADC_SUB_SEND: the holder sends the samples of sub-block `q` of its ADC lanes. -/
def adcShare (q : Nat) (s : State) : State :=
  if !s.twin.acts || !hasPartner s then s
  else
    let xs := (List.range 8).flatMap (fun k => match nth none s.img.adcLane k with
      | some l => smpList s.smp.lane l ((s.S * q : Nat) : Int) s.S
      | none => List.replicate s.S 0)
    linkSend 0x02 (beBytes 8 (q / 4) ++ [q % 4, 0, 0, 0, 0, 0, 0, 0] ++ words32 xs) s

/-- ADC_SUB_FRAME: the holder's samples take the lanes of a standby unit, unless a consumer has used its own (R318). -/
def adcReceive (p : List Nat) (s : State) : State :=
  let q := 4 * be (slice 0 8 p) + nth 0 p 8 % 4
  if !standby s || adcHas q true s || adcHas q false s then s
  else
    let s := { s with twin := { s.twin with adcGot := (2 * q) :: s.twin.adcGot } }
    (List.range 8).foldl (fun s k => match nth none s.img.adcLane k with
      | some l =>
        let xs := (List.range s.S).map (fun i => signExt 32 (be (slice (16 + 4 * (s.S * k + i)) 4 p)))
        { s with smp := { s.smp with lane := smpPut l ((s.S * q : Nat) : Int) xs s.smp.lane } }
      | none => s) s

/-- Own ADC samples of sub-block `q` arrive: a standby unit's lanes take them unless the holder's are there (R52, R318). -/
def adcKeeps (q : Nat) (s : State) : Bool := !standby s || !adcHas q false s

/-- Entries of the list that no later dispatch asks for leave it. -/
def adcTrim (s : State) : State :=
  { s with twin := { s.twin with
    localAdc := false, adcGot := s.twin.adcGot.filter (fun x => decide (4 * s.grid.block ≤ x / 2 + 64)) } }

/-! ### Link repair (R303) -/

/-- LINK_RESEND_TIMEOUT: 50 µs without acknowledgement: the window is resent. -/
def resendTimeout (s : State) : State := if s.twin.txq.isEmpty || !linkOk s then s else resend (min 64 s.twin.txq.length) s

/-- NAK_FRAME: the frames before the expected SEQ are acknowledged and the others of the window resent. -/
def nakReceive (p : List Nat) (s : State) : State :=
  let n := s.twin.txq.length
  let s := ackFrames ((be (slice 0 2 p) + 65535) % 65536) s
  if s.twin.txq.isEmpty then s else resend (min 64 n - (n - s.twin.txq.length)) s

end Sys2Proof.Machine
end

