-- ==== Sys2Proof/Machine/Resync.lean ====
section
/-!
DEFINITION. Resync of a standby unit (R335 to R341): the bulk phase, the settle waits and the slices.
-/
namespace Sys2Proof.Machine

/-! ### Records -/

/-- A signed value on `n` bytes, big-endian. -/
def beInt (n : Nat) (x : Int) : List Nat := beBytes n (pattern (8 * n) x)

/-- A signed big-endian field. -/
def beSigned (o n : Nat) (l : List Nat) : Int := signExt (8 * n) (be (slice o n l))

/-- A list cut into lists of at most `n` entries. -/
def cutList {α : Type} (n : Nat) : Nat → List α → List (List α)
  | 0, _ => []
  | fuel + 1, l => if l.isEmpty then [] else l.take n :: cutList n fuel (l.drop n)

/-- Records of a fixed length out of the bytes of a piece. -/
def recordsOf (n : Nat) (l : List Nat) : List (List Nat) := cutList n (l.length + 1) l

/-- Ramp record (table "Ramp record"). -/
def rampRecord (owner index : Nat) (r : Ramp) : List Nat :=
  [owner, 0, 0, 0] ++ beBytes 4 index ++ beInt 4 r.s ++ beInt 4 r.t ++ beInt 8 r.b0
    ++ [if r.len = 0 then 0 else Nat.log2 r.len] ++ List.replicate 7 0

/-- Owner, index and ramp of a ramp record. -/
def rampOf (l : List Nat) : Nat × Nat × Ramp :=
  (nth 0 l 0, be (slice 4 4 l), ⟨beSigned 8 4 l, beSigned 12 4 l, beSigned 16 8 l, if nth 0 l 24 = 0 then 0 else 2 ^ nth 0 l 24⟩)

/-- An FX register that a piece carries. -/
def isFxKey (k : Nat) : Bool := (fxMask (k / 65536)).isSome

/-- Payload of the request relay of a DL1 entry. -/
def relayBytes (kind flags target boundary : Nat) : List Nat :=
  [kind, flags, 0, 0] ++ beBytes 4 target ++ beBytes 8 boundary ++ beBytes 8 0

/-- A record of kind 0x8. -/
def dlRecord (list sub key : Nat) (rest : List Nat) : List Nat :=
  [list, sub, 0, 0] ++ beBytes 8 key ++ beBytes 4 rest.length ++ rest

/-- Pending entries of DL0 to DL3 (kind 0x8); DL2's entries are those that the engines' state gives. -/
def dlRecords (s : State) : List (List Nat) :=
  s.mx.pending.map (fun f => dlRecord 0 0xFF f.act (sealBytes f.reg f.act (if f.late then 1 else 0) f.set ++ f.set.bytes))
    ++ s.sched.dl1.map (fun r =>
      let (k, f, t) := r.kind.relay
      let rest := relayBytes k f t r.at_.toNat
      if r.direct then dlRecord 1 (r.act % 4) (r.act / 4) rest else dlRecord 1 0xFF r.act rest)
    ++ (s.conv.filter (fun e => !e.2.xfDone)).map (fun e =>
      dlRecord 2 0xFF (passed s (e.2.xfAt + e.2.xfLen)) ([1, 0, 0, 0] ++ beBytes 4 e.1 ++ beBytes 8 0))
    ++ (s.tg.filter (fun e => e.2.armed)).map (fun e =>
      dlRecord 2 0xFF (e.2.m + 1) ([2, 0, 0, 0] ++ beBytes 4 e.1 ++ beBytes 8 e.2.m))
    ++ (s.tg.filter (fun e => e.2.running && decide (e.2.mode = 2))).filterMap (fun e =>
      let p := tgPar s e.1
      let per := max 1 (p.period * s.B)
      let n := ((toneRel s e.2).toNat + per - 1) / per
      if bits 13 6 p.ctrl < n then none
      else
        let o : Int := (s.B : Int) * e.2.m + e.2.delay + ((n * per : Nat) : Int)
        some (dlRecord 2 0xFF (passed s o) ([3, 0, 0, 0] ++ beBytes 4 e.1 ++ beBytes 8 n)))
    ++ (if s.cap.armed then [dlRecord 2 0xFF s.cap.m0 ([4, 0, 0, 0] ++ beBytes 4 0 ++ beBytes 8 0)] else [])
    ++ (match s.cap.stop with
      | some e => if s.cap.running then [dlRecord 2 0xFF e ([5, 0, 0, 0] ++ beBytes 4 0 ++ beBytes 8 0)] else []
      | none => [])
    ++ s.sched.dl3.map (fun r => dlRecord 3 0xFF r.act
      (relayBytes (if r.start then 5 else 4) 0 r.target ((s.B : Int) * r.act + fnOff r.kind r.index s).toNat))

/-- Words of slot `i` up to its last byte that is not 0, in runs of 4,096 words from offset 0 (kind 0x5): offset and words. -/
def slotRuns (s : State) (i : Nat) : List (Nat × List Nat) :=
  let a := slotAddr s i
  let n := s.mem.dram.foldl (fun m c => if a ≤ c.1 ∧ c.1 < a + 262272 then max m ((c.1 - a) / 4 + 1) else m) 0
  let l := getBytes a (4 * n) s.mem.dram
  ((cutList 4096 (n + 1) ((List.range n).map (fun k => le (slice (4 * k) 4 l)))).zipIdx).map (fun (w, i) => (4 * 4096 * i, w))

/-! ### The holder's side -/

/-- Records of a bulk kind as the holder stands (table "Bulk piece kinds"); kind 0x5 is built piece by piece. -/
def bulkRecords (kind : Nat) (s : State) : List (List Nat) :=
  match kind with
  | 0x1 => (s.bus.regs.filter (fun e => isFxKey e.1)).map (fun e =>
      let a := e.1 / 65536
      beBytes 4 a ++ beBytes 2 (if unselected a then 0xFFFF else e.1 % 65536) ++ [0, 0] ++ beBytes 4 e.2)
  | 0x2 => (liveSet s.mx).map (fun e =>
      beBytes 8 (nodeWord (e.1 / 5120) (e.1 % 5120) e.2.gain e.2.ramp e.2.noCount))
  | 0x3 => s.mx.ramps.map (fun e => rampRecord 1 e.1 e.2) ++ s.mx.factors.map (fun e => rampRecord 2 e.1 e.2)
      ++ s.chain.map (fun e => rampRecord 3 e.1 e.2.trim) ++ s.chain.flatMap (fun e => e.2.mutes.map (rampRecord 4 e.1))
  | 0x4 => s.chain.filterMap (fun e =>
      let (a1, a2, b) := alignPair e.2.aligns ((s.B : Int) * (s.grid.block + 1))
      if a1 ≠ a2 ∧ (s.B : Int) * s.grid.block ≤ b + 2 * s.B then
        some (beBytes 2 e.1 ++ [0, 0] ++ beBytes 4 a1 ++ beBytes 4 a2 ++ [0, 0, 0, 0] ++ beBytes 8 (b / (s.B : Int)).toNat)
      else none)
  | 0x6 => s.slot.map (fun e => beBytes 2 e.1 ++ [slotState e.1 s, 0])
  | 0x7 => s.conv.map (fun e =>
      let c := e.2
      beBytes 2 e.1 ++ beBytes 2 c.slot ++ beBytes 2 c.old ++ [if c.xfLen = 0 then 0 else Nat.log2 c.xfLen - 2, bitIf (!c.xfDone) 0]
        ++ beBytes 8 c.xfAt.toNat ++ List.replicate 8 0)
  | 0x8 => dlRecords s
  | 0x9 => s.sched.fn.map (fun e =>
      beBytes 4 (e.1 % 65536 + e.1 / 65536 * 2 ^ 16) ++ [e.2.st, bitIf e.2.deferred 0, 0, 0]
        ++ beBytes 8 (if e.2.st = 0 then e.2.since else e.2.act))
  | 0xA => [[rget 0x10170050 0 s % 4, bitIf s.cap.running 0 + bitIf s.cap.done 1 + bitIf s.cap.late 2 + bitIf s.cap.wrapped 3,
      0, 0] ++ beBytes 8 s.cap.m0 ++ beBytes 8 (s.cap.last.getD (2 ^ 64 - 1)) ++ [0, 0, 0, 0]]
  | 0xB => (mirrorEntries (s.mx.open_.bytes.length + 1) s.mx.open_.bytes).getD []
  | _ => []

/-- Records gathered into pieces of at most 32,000 record bytes. -/
def gather : List (List Nat) → List (List Nat) → Nat → List (List (List Nat))
  | [], acc, _ => [acc.reverse]
  | r :: t, acc, n =>
    if 32000 < n + r.length && !acc.isEmpty then acc.reverse :: gather t [r] r.length else gather t (r :: acc) (n + r.length)

/-- The pieces of one kind: count and record bytes. -/
def kindPieces (kind : Nat) (s : State) : List (Nat × Nat × List Nat) :=
  if kind = 5 then
    s.slot.flatMap (fun e => (slotRuns s e.1).map (fun r =>
      (5, r.2.length, beBytes 2 e.1 ++ [0, 0] ++ beBytes 4 r.1 ++ r.2.flatMap (beBytes 4))))
  else (gather (bulkRecords kind s) [] 0).map (fun l => (kind, l.length, l.flatten))

/-- Every piece of the holder's closed-form state. -/
def bulkPieces (s : State) : List (Nat × Nat × List Nat) :=
  (List.range 11).flatMap (fun i => kindPieces (i + 1) s)

/-- RESYNC_REQUEST: the holder begins the bulk phase (R335) and plans the slices that follow it. -/
def bulkSend (s : State) : State :=
  if !s.twin.acts || !hasPartner s || s.twin.divergent then s
  else
    let l := bulkPieces s
    let s := (l.zipIdx).foldl (fun s (e : (Nat × Nat × List Nat) × Nat) =>
      linkSend 0x20 (beBytes 4 e.2 ++ beBytes 8 s.grid.block ++ [e.1.1, 0, 0, 0] ++ beBytes 4 e.1.2.1 ++ e.1.2.2) s) s
    let s := controlSend 0x0A (beBytes 4 l.length ++ beBytes 8 s.grid.block) s
    { s with twin := { s.twin with plan := planStart (s.grid.block + 1) s } }

/-! ### Recursive units (R341) -/

/-- A keyframe as an OPS record (R65). -/
def kfBytes (k : Keyframe) : List Nat :=
  beBytes 2 k.obj
    ++ beBytes 2 (bitIf k.coord 0 + bitIf k.interp 1 + bitIf k.jump 2 + bitIf k.hasPos 3 + bitIf k.hasGain 4 + bitIf k.hasExt 5
      + bitIf k.hasZone 6 + bitIf k.hasLock 7)
    ++ beBytes 8 k.t ++ beInt 4 k.pos.x ++ beInt 4 k.pos.y ++ beInt 4 k.pos.z ++ beInt 3 k.gain ++ [k.zone]
    ++ beInt 2 k.ext.x ++ beInt 2 k.ext.y ++ beInt 2 k.ext.z ++ beBytes 2 k.lockTol ++ beBytes 2 k.interpLen ++ [0, 0]

/-- A segment: ts, vs, te, ve. -/
def segBytes (g : Seg) : List Nat :=
  beInt 8 g.ts ++ beInt 4 g.vs.x ++ beInt 4 g.vs.y ++ beInt 4 g.vs.z ++ beInt 8 g.te
    ++ beInt 4 g.ve.x ++ beInt 4 g.ve.y ++ beInt 4 g.ve.z

/-- A segment at an offset. -/
def segOf (o : Nat) (l : List Nat) : Seg :=
  let v := fun o => V3.mk (beSigned o 4 l) (beSigned (o + 4) 4 l) (beSigned (o + 8) 4 l)
  ⟨beSigned o 8 l, v (o + 8), beSigned (o + 20) 8 l, v (o + 28)⟩

/-- Bytes brought to a length with zeros. -/
def padTo (n : Nat) (l : List Nat) : List Nat := l ++ List.replicate (n - l.length) 0

/-- A pending zone and lock setting, 14 bytes. -/
def zlBytes (z : ZoneLock) : List Nat :=
  let (has, on, tol) := match z.lock with | some (on, tol) => (true, on, tol) | none => (false, false, 0)
  beBytes 8 z.t ++ [z.zone.getD 0, bitIf z.zone.isSome 0 + bitIf has 1 + bitIf on 2] ++ beBytes 2 tol ++ [0, 0]

/-- Object metadata, 512 bytes. -/
def metaBytes (o : ObjState) : List Nat :=
  padTo 320 ((o.queue.take 8).flatMap kfBytes) ++ [o.queue.length, bitIf o.cart 0 + bitIf o.lock 1, o.zone, 0]
    ++ beBytes 2 o.lockTol ++ [0, 0] ++ beBytes 8 (o.popped.getD (2 ^ 64 - 1))
    ++ segBytes o.pos ++ segBytes o.gain ++ segBytes o.ext ++ padTo 56 ((o.pendingZL.take 4).flatMap zlBytes)

/-- Object metadata installed. -/
def metaInstall (l : List Nat) (o : ObjState) : ObjState :=
  let f := nth 0 l 321
  { o with
    queue := (List.range (nth 0 l 320)).map (fun i => (parseRecord (slice (40 * i) 40 l)).1)
    cart := bit 0 f
    lock := bit 1 f
    zone := nth 0 l 322
    lockTol := be (slice 324 2 l)
    popped := if be (slice 328 8 l) = 2 ^ 64 - 1 then none else some (be (slice 328 8 l))
    pos := segOf 336 l
    gain := segOf 376 l
    ext := segOf 416 l
    pendingZL := (List.range 4).filterMap (fun i =>
      let e := slice (456 + 14 * i) 14 l
      let g := nth 0 e 9
      if g % 4 = 0 then none
      else some ⟨be (slice 0 8 e), if bit 0 g then some (nth 0 e 8) else none,
        if bit 1 g then some (bit 2 g, be (slice 10 2 e)) else none⟩) }

/-- Lane that carries the return of a bus. -/
def returnLane (k : Nat) (s : State) : Option Nat := (s.img.returns.find? (fun r => decide (r.1 = k))).map Prod.snd

/-- First core of a program, where its PERSISTENT regions stand. -/
def firstCore (p : EcProg) : Nat := ((List.range 64).find? (fun k => bit k p.coreMask)).getD 0

/-- The generator of DAC `i` as the sections of the current block leave it: run on to output index B(n + 3), since the block-n
sections produce the output indices [B(n + 2), B(n + 3)) (R463). -/
def genAhead (i : Nat) (s : State) : DacState :=
  let o := s.S * (period s + 1)
  (genRun s.S (List.replicate (s.B * (s.grid.block + 3) - o) 0) ((o : Nat) : Int) (dacGet i s) []).2

/-- State bytes of a unit as the holder's instances of the current block leave them (table "State bytes of recursive
units"). -/
def unitState (s : State) (u : Nat × Nat × Nat) : List Nat :=
  let i := u.2.2
  match u.1 with
  | 1 => metaBytes (objGet i s)
  | 2 =>
    let o := objGet i s
    beInt 8 o.b ++ beInt 8 o.e ++ beInt 4 o.dly ++ beInt 4 o.y ++ beInt 4 o.air
      ++ beBytes 4 (bitIf o.glideRun 0 + bitIf o.clampRun 1)
  | 3 => beInt 8 (chGet i s).env ++ List.replicate 8 0
  | 4 =>
    let g := tgGet i s
    let p := tgPar s i
    let rel := ((s.B : Int) * s.grid.block - (s.B : Int) * g.m - g.delay).toNat
    let q := if g.mode = 2 then rel % max 1 (p.period * s.B) else 0
    beBytes 8 g.phase ++ beBytes 8 g.inc ++ beBytes 4 q
      ++ [g.sweeps, bitIf g.running 0 + bitIf (g.mode = 2 && decide (q < p.len)) 1 + bitIf (g.pause = 1 || g.pause = 2) 2
        + bitIf g.offAt.isSome 3, 0, 0] ++ beBytes 8 g.m ++ beBytes 8 g.delay ++ List.replicate 8 0
  | 5 =>
    match (s.ec.progs[i]?).bind (fun p => (p.regions[u.2.1]?).map (fun r => (p, r))) with
    | some (p, r) => (List.range r.len).flatMap (fun w => beBytes 4 (coreWord (firstCore p) r.yMem (r.base + w) s))
    | none => []
  | 6 =>
    match returnLane i s with
    | some l => words32 (smpList s.smp.lane l ((s.B : Int) * s.grid.block) s.B)
    | none => words32 (List.replicate s.B 0)
  | _ => let d := genAhead i s; beBytes 4 d.phi ++ beBytes 4 d.inc ++ List.replicate 8 0

/-- A unit's state installed at the current block. -/
def unitInstall (u : Nat × Nat × Nat) (l : List Nat) (s : State) : State :=
  let i := u.2.2
  match u.1 with
  | 1 => objSet i (metaInstall l (objGet i s)) s
  | 2 => objSet i { objGet i s with
      b := beSigned 0 8 l, e := beSigned 8 8 l, dly := beSigned 16 4 l, y := beSigned 20 4 l, air := beSigned 24 4 l
      glideRun := bit 0 (be (slice 28 4 l)), clampRun := bit 1 (be (slice 28 4 l)) } s
  | 3 => chSet i { chGet i s with env := beSigned 0 8 l } s
  | 4 =>
    let g := tgGet i s
    let f := nth 0 l 21
    let off := match bit 3 f, g.offAt with
      | true, some o => some o
      | true, none => some (s.j0 s.grid.block).toNat
      | false, _ => none
    let pause := if bit 2 f then (if g.pause = 1 then 1 else 2) else if g.pause = 3 then 3 else 0
    tgSet i { g with
      phase := be (slice 0 8 l), inc := be (slice 8 8 l), sweeps := nth 0 l 20, running := bit 0 f
      mode := if !bit 0 f then g.mode else if tgMode i s ≠ 0 then tgMode i s
        else if bit 1 f || be (slice 16 4 l) ≠ 0 || nth 0 l 20 ≠ 0 then 2 else 1
      armed := g.armed && !bit 0 f, pause := pause, offAt := off
      m := be (slice 24 8 l), delay := be (slice 32 8 l) } s
  | 5 =>
    match (s.ec.progs[i]?).bind (fun p => (p.regions[u.2.1]?).map (fun r => (p, r))) with
    | some (p, r) =>
      let ws := (List.range r.len).map (fun w => be (slice (4 * w) 4 l))
      ((List.range 64).filter (fun k => bit k p.coreMask)).foldl (fun s k => coreWrite k r.yMem r.base ws s) s
    | none => s
  | 6 =>
    let xs := (List.range s.B).map (fun q => beSigned (4 * q) 4 l)
    (s.img.returns.filter (fun r => decide (r.1 = i))).foldl
      (fun s r => { s with smp := { s.smp with lane := smpPut r.2 (s.j0 s.grid.block) xs s.smp.lane } }) s
  | _ => dacSet i { dacGet i s with
      setAt := some (((s.B * (s.grid.block + 2) : Nat) : Int), be (slice 0 4 l), be (slice 4 4 l)) } s
where
  /-- MODE of a generator in effect; a run that fades out after an OFF has none, and shows a sweep by its position. -/
  tgMode (i : Nat) (s : State) : Nat := (tgPar s i).ctrl % 4

/-- The bytes of slice `k`. -/
def sliceBytes (k : Nat) (s : State) : List Nat := (sliceUnits k s).flatMap (unitState s)

/-- The units of a slice installed in slice-table order. -/
def unitsInstall : List (Nat × Nat × Nat) → List Nat → State → State
  | [], _, s => s
  | u :: t, l, s => unitsInstall t (l.drop (unitBytes s u)) (unitInstall u (l.take (unitBytes s u)) s)

/-- The slice after slice `k` of level `l`, for blocks from `b` on: level, slice, installing block; none after the last. -/
def planNext (l k b : Nat) (s : State) : Option (Nat × Nat × Nat) :=
  match s.img.twin.levels[l]? with
  | some (_, f, n) =>
    if k + 1 < f + n then some (l, k + 1, b)
    else match s.img.twin.levels[l + 1]? with
      | some (w, g, _) => some (l + 1, g, b + w)
      | none => none
  | none => none

/-- Every instance of the current block that works on a unit of the slice has been released, and the tone generators that it
carries have run. -/
def sliceReady (k : Nat) (s : State) : Bool :=
  (!(sliceUnits k s).any (fun u => decide (u.1 = 4)) || decide (s.grid.block < s.sched.tgRan)) && (s.sched.graph.zipIdx).all (fun e =>
    !(sliceUnits k s).any (unitOfNode s e.1 e.2) || (atNow s e.1 e.2 && (statGet e.2 s).released))

/-- SLICE_SEND: the holder sends the slice for block s as soon as the block-(s − 1) instances are released (R337). A slice that
it could not send before the tick of s goes for the next block; no message tells it of one that the link has lost: DEDUCED
(assumption 105). -/
def sliceSend (s : State) : State :=
  match s.twin.plan with
  | none => s
  | some (l, k, b) =>
    if !s.twin.acts || !hasPartner s then { s with twin := { s.twin with plan := none } }
    else if l = s.img.twin.levels.length then
      if b ≤ s.grid.block then { s with twin := { s.twin with plan := none } } else s
    else
      let b := max b (s.grid.block + 1)
      if b ≠ s.grid.block + 1 || !sliceReady k s then s
      else
        let bytes := sliceBytes k s
        let cuts := cutList 16384 (bytes.length + 1) bytes
        let s := (cuts.zipIdx).foldl (fun s (e : List Nat × Nat) =>
          linkSend 0x03 (beBytes 2 k ++ [e.2, cuts.length] ++ beBytes 8 b ++ beBytes 4 (16384 * e.2) ++ e.1) s) s
        let next := (planNext l k (b + 1) s).getD (s.img.twin.levels.length, 0, b + 1 + s.img.twin.outSettle)
        { s with twin := { s.twin with plan := some next } }

/-! ### The standby's side: bulk -/

/-- The FX registers of kind 0x1 in place of the unit's own. -/
def installRegs (rs : List (List Nat)) (s : State) : State :=
  let own := s.bus.regs.filter (fun e => !isFxKey e.1)
  { s with bus := { s.bus with
    regs := rs.foldl (fun m r =>
      let a := be (slice 0 4 r)
      let i := be (slice 4 2 r)
      sset (regReset a) (rkey a (if i = 0xFFFF then 0 else i)) (be (slice 8 4 r)) m) own } }

/-- Chains after kinds 0x3 and 0x4: trim, mute ramps, alignment and the parameters in effect. -/
def installChain (rs : List (Nat × Nat × Ramp)) (al : List (List Nat)) (s : State) (sel : Nat) : State :=
  let c := chGet sel s
  let of_ := fun k => (rs.filter (fun r => decide (r.1 = k) && decide (r.2.1 = sel))).map (fun r => r.2.2)
  let aligns := match al.find? (fun r => decide (be (slice 0 2 r) = sel)) with
    | some r => [(0, be (slice 4 4 r)), ((s.B : Int) * be (slice 16 8 r), be (slice 8 4 r))]
    | none => [(0, rget 0x10080030 sel s)]
  chSet sel { c with
    trim := ((of_ 3).head?).getD (Ramp.settled (trimTarget s sel))
    mutes := lastN 8 (of_ 4)
    aligns := aligns
    vers := [dynVer s sel 0] } s

/-- Filters and crossfades of kind 0x7. -/
def installConv (rs : List (List Nat)) (s : State) : State :=
  { s with conv := rs.foldl (fun m r =>
      sset ConvState.empty (be (slice 0 2 r)) { ConvState.empty with
        slot := be (slice 2 2 r), old := be (slice 4 2 r), xfLen := rampLen (nth 0 r 6), xfDone := !bit 0 (nth 0 r 7)
        xfAt := be (slice 8 8 r) } m) [] }

/-- Fades of a transmit stream whose stop bath acted, or whose START did, at block `b` (R387). -/
def txStopped (st k b : Nat) (s : State) : State :=
  let w : Int := (s.B : Int) * b + fnOff 3 k s
  let fades := if st = 0 then (if b = 0 then [] else [(-(s.B : Int), true), (w, false)]) else if 2 ≤ st then [(w, true)] else []
  txSet k { txGet k s with fades := fades } s

/-- Stop states of kind 0x9. -/
def installStops (rs : List (List Nat)) (s : State) : State :=
  let s := rs.foldl (fun s r =>
    if bits 19 16 (be (slice 0 4 r)) = 3 then txStopped (nth 0 r 4) (be (slice 0 4 r) % 8192) (be (slice 8 8 r)) s else s) s
  { s with sched := { s.sched with
    fn := rs.foldl (fun m r =>
      let t := be (slice 0 4 r)
      let key := bits 19 16 t * 65536 + t % 8192
      let st := nth 0 r 4
      let b := be (slice 8 8 r)
      sset ⟨0, false, 0, 0⟩ key ⟨st, bit 0 (nth 0 r 5), if st = 0 then 0 else b, if st = 0 then b else 0⟩ m) [] } }

/-- Capture state of kind 0xA. -/
def installCapture (r : List Nat) (s : State) : State :=
  let f := nth 0 r 1
  let mode := nth 0 r 0
  let last := be (slice 12 8 r)
  { s with cap := { s.cap with
    running := bit 0 f, done := bit 1 f, late := bit 2 f, wrapped := bit 3 f, m0 := be (slice 4 8 r)
    stop := if mode = 1 then some (rget 0x1017005C 0 s + rget 0x10170060 0 s * 2 ^ 32 + rget 0x10170064 0 s) else none
    last := if last = 2 ^ 64 - 1 then none else some last
    armed := decide (mode ≠ 0) && !bit 0 f && !bit 1 f } }

/-- The staged set that mirror entries make, and the machine with their loads. -/
def setOf (entries : List Nat) (s : State) : Staged × State :=
  let open_ := s.mx.open_
  let s := { s with mx := { s.mx with open_ := Staged.empty } }
  let s := ((mirrorEntries (entries.length + 1) entries).getD []).foldl (fun s e => takeEntry e s) s
  (s.mx.open_, { s with mx := { s.mx with open_ := open_ } })

/-- One record of kind 0x8 entered in its list. A crossfade end and a sweep start follow from kind 0x7 and from the generator's
slice (DEDUCED, assumption 69). -/
def takeDl (l : List Nat) (s : State) : State :=
  let act := be (slice 4 8 l)
  let rest := slice 16 (be (slice 12 4 l)) l
  match nth 0 l 0 with
  | 0 =>
    let (t, s) := setOf (rest.drop 40) s
    let f : Fix := ⟨act, act, decide (nth 0 rest 16 = 1), t, be (slice 0 8 rest)⟩
    let s := { s with mx := { s.mx with pending := s.mx.pending ++ [f] } }
    (commitsOf t).foldl (fun s i => slotSet i { slotGet i s with committed := true } s) s
  | 2 =>
    match nth 0 rest 0 with
    | 2 =>
      let k := be (slice 4 4 rest)
      tgSet k { tgGet k s with mode := (tgPar s k).ctrl % 4, armed := true, m := be (slice 8 8 rest) } s
    | 4 => { s with cap := { s.cap with armed := true, m0 := act } }
    | 5 => { s with cap := { s.cap with stop := some act } }
    | _ => s
  | _ => relayReceive rest s

/-- The records of a kind-0x8 piece one after another. -/
def takeDls : Nat → List Nat → State → State
  | 0, _, s => s
  | n + 1, l, s => if l.length < 16 then s else takeDls n (l.drop (16 + be (slice 12 4 l))) (takeDl l s)

/-- The pieces of one kind, in order. -/
def piecesOf (kind : Nat) (s : State) : List Piece := s.twin.pieces.filter (fun p => decide (p.kind = kind))

/-- A piece of the kinds that the lists, the slots and the open set are made of. -/
def pieceLoad (p : Piece) (s : State) : State :=
  match p.kind with
  | 0x5 =>
    let i := be (slice 0 2 p.records)
    let o := be (slice 4 4 p.records) / 4 * 4
    let ws := (List.range p.count).map (fun k => be (slice (8 + 4 * k) 4 p.records))
    dramPut (slotAddr s i + o) (ws.flatMap (leBytes 4)) s
  | 0x6 =>
    (recordsOf 4 p.records).foldl (fun s r =>
      let i := be (slice 0 2 r)
      slotSet i { slotGet i s with state := nth 0 r 2 } s) s
  | 0x8 => takeDls p.count p.records s
  | 0xB => ((mirrorEntries (p.records.length + 1) p.records).getD []).foldl (fun s e => takeEntry e s) s
  | _ => s

/-- The lists, the slots' states and the open set emptied, and made anew from the pieces. -/
def installLists (s : State) : State :=
  let s := { s with
    slot := s.slot.map (fun (e : Nat × Slot) => (e.1, { e.2 with state := 0, committed := false }))
    mx := { s.mx with pending := [], open_ := Staged.empty }
    sched := { s.sched with dl1 := [], dl3 := [] } }
  s.twin.pieces.foldl (fun s p => pieceLoad p s) s

/-- BULK_PIECE_FRAME: a piece is assembled in the bulk phase (R335). -/
def pieceReceive (p : List Nat) (s : State) : State :=
  if !keepsMirror s || s.twin.phase ≠ 1 then s
  else
    let x : Piece := ⟨be (slice 0 4 p), be (slice 4 8 p), nth 0 p 12, be (slice 16 4 p), p.drop 20⟩
    { s with twin := { s.twin with pieces := s.twin.pieces ++ [x] } }

/-- BULK_END: the number of pieces sent. -/
def bulkEndReceive (b : List Nat) (s : State) : State :=
  if keepsMirror s && s.twin.phase = 1 then { s with twin := { s.twin with bulkEnd := some (be (slice 0 4 b)) } } else s

/-- Records of the pieces of a kind with records of `n` bytes. -/
def pieceRecs (kind n : Nat) (s : State) : List (List Nat) := (piecesOf kind s).flatMap (fun p => recordsOf n p.records)

/-- The assembled closed-form state in place of the unit's own (R335). -/
def installBulk (s : State) : State :=
  let rs := (pieceRecs 3 32 s).map rampOf
  let own := fun k => (rs.filter (fun r => decide (r.1 = k))).map (fun r => (r.2.1, r.2.2))
  let al := pieceRecs 4 24 s
  let nodes := (pieceRecs 2 8 s).map be
  let conv := pieceRecs 7 24 s
  let stops := pieceRecs 9 16 s
  let capt := pieceRecs 0xA 24 s
  let s := installRegs (pieceRecs 1 12 s) s
  let ents := nodes.foldl (fun m w => sput (wordNode w) ⟨wordGain w, wordRamp w, wordNoCount w⟩ m) ([] : Sparse NodeEnt)
  let s := { s with mx := { s.mx with
    setA := ents, setB := ents, prepared := none, replay := []
    ramps := (own 1).foldl (fun m r => sput r.1 r.2 m) []
    factors := (own 2).foldl (fun m r => sput r.1 r.2 m) [] } }
  let s := installConv conv s
  let chains := ((s.chain.map Prod.fst) ++ ((rs.filter (fun r => decide (3 ≤ r.1))).map (fun r => r.2.1))).eraseDups
  let s := chains.foldl (fun s sel => installChain rs al s sel) s
  let s := installStops stops s
  let s := match capt with | r :: _ => installCapture r s | [] => s
  let s := (List.range 8).foldl (fun s k =>
    let v := genVer k 0 false s
    if dacGet k s = DacState.reset && v.mode = 0 then s else dacSet k { dacGet k s with vers := [v] } s) s
  { s with mx := { s.mx with setA := liveSet s.mx, setB := liveSet s.mx } }

/-- The machine with `b` as its current block. -/
def atBlock (b : Nat) (s : State) : State := { s with grid := { s.grid with block := b } }

/-- A frame kept since the capture takes effect as at its receipt. -/
def replayFrame (e : Nat × Nat × Bool × List Nat) (s : State) : State :=
  let now := s.grid.block
  let s := atBlock e.1 s
  atBlock now (match e.2.1 with
    | 0x11 => mirrorReceive e.2.2.2 s
    | 0x12 => sealReceive e.2.2.2 e.2.2.1 s
    | _ => relayReceive e.2.2.2 s)

/-- The assembled state as at the tick i1 (R335): what the pieces hold, the frames kept since, and the entries of DL0 to DL3
that have come due since the capture, block by block. -/
def assemble (cap : Nat) (s : State) : State :=
  let now := s.grid.block
  let log := s.twin.relayLog
  let s := { s with twin := { s.twin with phase := 2 } }
  let s := atBlock now (installLists (atBlock cap (installBulk s)))
  let s := log.foldl (fun s e => replayFrame e s)
    { s with twin := { s.twin with pieces := [], bulkEnd := none, relayLog := [] } }
  atBlock now ((List.range (now - (cap + 1))).foldl (fun s i => allLists (atBlock (cap + 1 + i) s)) s)

/-- BULK_INSTALL: the first tick after the last piece has been replayed (R335). -/
def bulkInstall (s : State) : State :=
  match s.twin.bulkEnd with
  | some n =>
    let whole := (List.range n).all (fun k => s.twin.pieces.any (fun p => decide (p.num = k)))
    if keepsMirror s && s.twin.phase = 1 && whole && s.grid.running then
      let cap := s.twin.pieces.foldl (fun m p => min m p.capture) s.grid.block
      let s := assemble cap s
      if s.twin.st = 4 then planWait s.grid.block s else s
    else s
  | none => s

/-! ### Settling and slices -/

/-- SETTLE_EXPIRY: the wait of the current phase ends (R336, R338). -/
def settleExpiry (s : State) : State :=
  let t := s.twin
  if !keepsMirror s || s.grid.block < t.waitEnd then s
  else if t.phase = 2 then { s with twin := { t with phase := 3, waitEnd := s.grid.block } }
  else if t.phase = 4 then { s with twin := { t with phase := 5, matchRun := 0 } }
  else s

/-- SLICE_FRAME: a part is kept until its block (R337). -/
def sliceReceive (p : List Nat) (s : State) : State :=
  if !keepsMirror s || s.twin.phase < 2 || 3 < s.twin.phase then s
  else
    let x : SlicePart := ⟨be (slice 0 2 p), nth 0 p 2, nth 0 p 3, be (slice 4 8 p), p.drop 16⟩
    let old := s.twin.parts.filter (fun y => decide (s.grid.block ≤ y.block)
      && !(decide (y.slice = x.slice) && decide (y.part = x.part) && decide (y.block = x.block)))
    { s with twin := { s.twin with parts := old ++ [x] } }

/-- The bytes of the slice that is due, once it has arrived whole. -/
def sliceWhole (s : State) : Option (List Nat) :=
  let mine := s.twin.parts.filter (fun y => decide (y.slice = s.twin.slice) && decide (y.block = s.grid.block))
  match mine with
  | [] => none
  | y :: _ =>
    let l := (List.range y.parts).map (fun k => mine.find? (fun z => decide (z.part = k)))
    if l.all Option.isSome then
      let bytes := (l.filterMap (fun z => z.map SlicePart.bytes)).flatten
      if bytes.length = ((sliceUnits s.twin.slice s).map (unitBytes s)).foldl (· + ·) 0 then some bytes else none
    else none

/-- A slice is due at the current block. -/
def sliceDue (s : State) : Bool := keepsMirror s && s.twin.phase = 3 && decide (s.twin.waitEnd = s.grid.block)

/-- The state after the slice of block `b − 1`: the next slice, the next level's wait or the output settle. -/
def sliceNext (b : Nat) (s : State) : State :=
  let t := { s.twin with parts := [] }
  match planNext t.level t.slice b s with
  | some (l, k, e) =>
    { s with twin := { t with level := l, slice := k, waitEnd := e, phase := if l = t.level then 3 else 2 } }
  | none => { s with twin := { t with phase := 4, waitEnd := b + s.img.twin.outSettle } }

/-- SLICE_INSTALL: the whole slice is installed before its units' instances of the block are dispatched (R337). -/
def sliceInstall (s : State) : State :=
  if !sliceDue s then s
  else match sliceWhole s with
    | none => s
    | some l => sliceNext (s.grid.block + 1) (unitsInstall (sliceUnits s.twin.slice s) l s)

/-- SLICE_TIMEOUT: a slice not whole by 1/8 of the block period is discarded and tried again at the next block (R337). -/
def sliceTimeout (s : State) : State :=
  if !sliceDue s then s
  else
    let t := s.twin
    count 0x10030088 0 1 { s with twin := { t with
      sliceLate := true, waitEnd := s.grid.block + 1, parts := t.parts.filter (fun y => decide (s.grid.block < y.block)) } }

/-- TWIN.CMD.RESYNC: a unit in RESYNC restarts from the bulk phase (R338). -/
def cmdResync (s : State) : State :=
  if s.twin.st = 4 && !s.twin.starting && !s.twin.acts && !s.twin.divergent then enterResync false s else s

end Sys2Proof.Machine
end

