-- ==== Sys2Proof/Machine/Measure.lean ====
section
/-!
DEFINITION. The deconvolution job interface (R227 to R229) and the MEAS registers.
-/
namespace Sys2Proof.Machine

/-! ### Deconvolution -/

/-- Bytes of the descriptor of a job. -/
def descBytes (a : Nat) (s : State) : List Nat := (List.range 64).map (fun i => dramByte s (a + i))

/-- The fields of a descriptor are within their ranges (table "Deconvolution job descriptor"). -/
def descOk (d : List Nat) (s : State) : Bool :=
  let u := fun o n => le (slice o n d)
  let out := u 48 4
  decide (u 8 4 * s.B ≤ 1048576) && decide (u 12 1 < 24) && decide (u 13 3 = 0) && decide (u 40 8 % 4 = 0)
    && decide (1024 ≤ out) && decide (out ≤ 65536) && decide (2 ^ Nat.log2 out = out) && decide (u 52 4 ≤ out / 2)

/-- Every frame that the job uses is held by the capture ring, with its channel. -/
def framesHeld (d : List Nat) (s : State) : Bool :=
  let u := fun o n => le (slice o n d)
  let first := u 0 8
  let n := u 8 4
  (capChannels s).contains (u 12 1) && decide (s.cap.m0 ≤ first)
    && (match s.cap.last with
      | some l => decide (first + n ≤ l + 1) && decide (l < first + capFrames s)
      | none => decide (n = 0))

/-- DECONV_GO (R228): a job starts unless one runs; the program writes STATUS = running. -/
def deconvGo (master v : Nat) (s : State) : State :=
  if !bit 0 v || s.deconv.busy then s
  else
    let a := rget 0x10170090 master s + rget 0x10170094 master s * 2 ^ 32
    dramPut (a + 56) (leBytes 4 1)
      { s with deconv := ⟨true, false, 1, a, s.deconv.job + 1⟩ }

/-- Result words of job `j`: free values, each a 32-bit word. -/
def resultWords (j n : Nat) : List Nat := (List.range n).flatMap (fun i => leBytes 4 (Config.deconvWord j i % 2 ^ 32))

/-- DECONV_JOB_DONE (R228): the job ends with STATUS invalid, missing, saturated or done. The spec gives the program's result
by its meaning and not to the bit: its words are free values, `shift` and `saturated` are what the program found. -/
def deconvDone (shift : Nat) (saturated : Bool) (s : State) : State :=
  if !s.deconv.busy then s
  else
    let a := s.deconv.desc
    let d := descBytes a s
    let status := if !descOk d s then 3 else if !framesHeld d s then 4 else if saturated then 5 else 2
    let fin := fun (s : State) =>
      dramPut (a + 56) (leBytes 4 status) { s with deconv := { s.deconv with busy := false, done := true, status := status } }
    if status = 3 || status = 4 then fin s
    else
      let n := le (slice 48 4 d)
      let s := dramPut (le (slice 40 8 d)) (resultWords s.deconv.job n) s
      fin (dramPut (a + 60) (leBytes 4 (shift % 16)) s)

/-! ### Registers -/

/-- The RO registers of the MEAS block; `g` is the selected generator. -/
def measReg (off g : Nat) (s : State) : Nat :=
  let last := s.cap.last.getD 0
  match off with
  | 0x00 =>
    if s.img.applied then
      (List.range 16).foldl (fun a k => if (nth none s.img.tgLanes k).isSome then a + 2 ^ k else a) 0 + 2 ^ 31
    else 0
  | 0x3C => tgWord (tgGet g s)
  | 0x68 => s.cap.base % 2 ^ 32
  | 0x6C => s.cap.base / 2 ^ 32
  | 0x70 => s.cap.bytes
  | 0x74 => if s.img.applied then capFrames s else 0
  | 0x78 => last % 2 ^ 32
  | 0x7C => last / 2 ^ 32 % 2 ^ 27
  | 0x80 => bitIf s.cap.running 0 + bitIf s.cap.done 1 + bitIf s.cap.late 2 + bitIf s.cap.wrapped 3
  | 0x9C => bitIf s.deconv.busy 0 + (s.deconv.status % 16) * 16
  | _ => 0

end Sys2Proof.Machine
end

