-- ==== Sys2Proof/Machine/RegTable.lean ====
section
/-!
DEFINITION. The register index (chapter 18): which offsets carry a register, under which access code, with which fields,
and for which instance.
-/
namespace Sys2Proof.Machine

/-- Access codes (R17); `mix` is RO with W1C bits. -/
inductive Acc where
  | none | rw | ro | rc | w1c | wo | fx | mix
deriving DecidableEq, Repr

/-- Register rows of a block by the upper half of its address (chapter 18, register tables): first and last offset,
access. -/
def regRows (block : Nat) : List (Nat × Nat × Acc) :=
  match block with
  | 0x1000 => [(0x000, 0x004, .ro), (0x200, 0x20C, .ro), (0x210, 0x210, .mix), (0x214, 0x218, .ro), (0x300, 0x300, .rw),
      (0x304, 0x308, .ro), (0x30C, 0x30C, .rc), (0x310, 0x310, .rw)]
  | 0x1001 => [(0x00, 0x04, .ro), (0x08, 0x08, .mix), (0x10, 0x18, .rw), (0x1C, 0x1C, .ro), (0x20, 0x24, .rw),
      (0x28, 0x28, .ro), (0x30, 0x40, .rw), (0x44, 0x48, .ro), (0x60, 0x68, .rc)]
  | 0x1002 => [(0x00, 0x10, .ro), (0x14, 0x14, .wo), (0x18, 0x18, .ro), (0x1C, 0x1C, .wo), (0x20, 0x20, .ro)]
  | 0x1003 => [(0x00, 0x04, .ro), (0x08, 0x08, .rw), (0x0C, 0x0C, .wo), (0x10, 0x14, .rw), (0x18, 0x3C, .ro),
      (0x40, 0x40, .rw), (0x44, 0x5C, .ro), (0x60, 0x60, .mix), (0x64, 0x68, .ro), (0x70, 0x90, .rc), (0xC0, 0x13C, .ro)]
  | 0x1004 => [(0x00, 0x08, .ro), (0x0C, 0x0C, .rc), (0x10, 0x10, .ro), (0x14, 0x14, .rc), (0x20, 0x20, .rc),
      (0x24, 0x24, .ro), (0x28, 0x28, .rc), (0x30, 0x3C, .ro), (0x40, 0x48, .rw), (0x4C, 0x4C, .wo), (0x50, 0x50, .rw),
      (0x54, 0x54, .ro), (0x60, 0x64, .rc), (0x70, 0x70, .rw), (0x74, 0x74, .ro)]
  | 0x1005 => [(0x00, 0x00, .ro), (0x04, 0x04, .fx), (0x08, 0x08, .rw), (0x10, 0x20, .fx), (0x24, 0x28, .ro),
      (0x40, 0x64, .ro), (0x70, 0xB8, .fx), (0xC0, 0xE4, .rc)]
  | 0x1006 => [(0x00, 0x08, .ro), (0x10, 0x10, .rw), (0x14, 0x20, .ro), (0x24, 0x24, .rw), (0x28, 0x2C, .ro),
      (0x30, 0x30, .rw), (0x34, 0x34, .ro), (0x40, 0x50, .rc), (0x100, 0x17C, .fx)]
  | 0x1007 => [(0x00, 0x0C, .ro), (0x10, 0x10, .rw), (0x14, 0x14, .ro), (0x20, 0x28, .rw), (0x2C, 0x2C, .fx),
      (0x30, 0x34, .ro), (0x40, 0x40, .rw), (0x44, 0x44, .fx), (0x48, 0x4C, .ro), (0x60, 0x60, .rc), (0x64, 0x64, .ro)]
  | 0x1008 => [(0x00, 0x00, .ro), (0x04, 0x04, .rw), (0x08, 0x08, .ro), (0x10, 0x30, .fx), (0x34, 0x34, .ro),
      (0x40, 0x40, .wo), (0x44, 0x48, .rw), (0x4C, 0x58, .ro), (0x60, 0x60, .rc), (0x64, 0x64, .ro)]
  | 0x1009 => [(0x00, 0x00, .ro), (0x04, 0x04, .rw), (0x08, 0x08, .fx), (0x0C, 0x14, .ro), (0x20, 0x20, .rw),
      (0x24, 0x24, .ro), (0x28, 0x28, .rw), (0x2C, 0x2C, .wo), (0x30, 0x30, .fx), (0x34, 0x34, .ro), (0x40, 0x44, .rc)]
  | 0x100B => [(0x00, 0x08, .ro), (0x0C, 0x0C, .rc), (0x10, 0x10, .rw), (0x14, 0x14, .ro), (0x18, 0x18, .mix),
      (0x1C, 0x1C, .ro), (0x20, 0x40, .rc), (0x44, 0x44, .ro), (0x48, 0x48, .rc), (0x4C, 0x4C, .ro), (0x80, 0x80, .rw),
      (0x84, 0x84, .fx), (0x88, 0x88, .ro), (0x8C, 0xB4, .rc), (0xC0, 0xC0, .rw), (0xC4, 0xC4, .ro), (0xC8, 0xC8, .rc)]
  | 0x100C => [(0x00, 0x04, .ro), (0x08, 0x08, .mix), (0x10, 0x18, .ro), (0x1C, 0x28, .rw), (0x2C, 0x2C, .mix),
      (0x30, 0x34, .rw), (0x38, 0x38, .wo), (0x40, 0x40, .rw), (0x44, 0x58, .ro), (0x60, 0x60, .rw), (0x64, 0x68, .ro),
      (0x6C, 0x6C, .rw), (0x70, 0x74, .ro), (0x80, 0x94, .rc)]
  | 0x100D => [(0x00, 0x04, .ro), (0x08, 0x08, .rw), (0x0C, 0x0C, .ro), (0x10, 0x10, .mix), (0x14, 0x24, .ro),
      (0x28, 0x30, .rc), (0x40, 0x40, .rw), (0x44, 0x4C, .ro), (0x50, 0x50, .wo), (0x54, 0x58, .rw), (0x5C, 0x60, .ro),
      (0x64, 0x64, .w1c)]
  | 0x100E => [(0x00, 0x04, .ro), (0x08, 0x08, .rw), (0x0C, 0x10, .fx), (0x14, 0x1C, .ro), (0x20, 0x20, .mix),
      (0x24, 0x24, .rc)]
  | 0x100F => [(0x00, 0x00, .ro), (0x04, 0x04, .rw), (0x08, 0x18, .fx), (0x1C, 0x1C, .mix), (0x20, 0x24, .rc)]
  | 0x1010 => [(0x00, 0x00, .ro), (0x04, 0x04, .rw), (0x08, 0x08, .fx), (0x0C, 0x0C, .mix), (0x10, 0x10, .wo),
      (0x14, 0x14, .ro), (0x18, 0x20, .rc)]
  | 0x1011 => [(0x00, 0x00, .ro), (0x04, 0x04, .rw), (0x08, 0x08, .fx), (0x0C, 0x0C, .mix), (0x10, 0x10, .ro),
      (0x14, 0x14, .rc)]
  | 0x1012 => [(0x00, 0x04, .ro), (0x08, 0x08, .rw), (0x0C, 0x10, .ro), (0x14, 0x18, .rw), (0x1C, 0x24, .ro),
      (0x30, 0x34, .rc), (0x38, 0x40, .ro), (0x44, 0x4C, .rc), (0x50, 0x58, .ro)]
  | 0x1013 => [(0x00, 0x14, .ro), (0x20, 0x3C, .ro), (0x40, 0x44, .rw), (0x48, 0x48, .wo), (0x4C, 0x54, .ro),
      (0x58, 0x58, .rc)]
  | 0x1014 => [(0x00, 0x08, .ro), (0x0C, 0x0C, .mix), (0x10, 0x14, .rw), (0x18, 0x18, .ro), (0x20, 0x34, .rc),
      (0x40, 0x5C, .mix), (0x60, 0x7C, .rw), (0x80, 0x88, .ro), (0x8C, 0x8C, .rw), (0x90, 0x90, .ro), (0xA0, 0xA4, .ro)]
  | 0x1015 => [(0x00, 0x04, .rw), (0x08, 0x14, .ro), (0x18, 0x18, .wo), (0x1C, 0x24, .ro)]
  | 0x1016 => [(0x00, 0x0C, .ro), (0x10, 0x14, .rw), (0x18, 0x18, .wo), (0x1C, 0x2C, .ro), (0x30, 0x38, .rc)]
  | 0x1017 => [(0x00, 0x00, .ro), (0x10, 0x10, .rw), (0x14, 0x38, .fx), (0x3C, 0x3C, .ro), (0x40, 0x40, .wo),
      (0x44, 0x48, .rw), (0x50, 0x50, .fx), (0x54, 0x54, .rw), (0x58, 0x64, .fx), (0x68, 0x80, .ro), (0x90, 0x94, .rw),
      (0x98, 0x98, .wo), (0x9C, 0x9C, .ro)]
  | _ => []

/-- Rows of an effect core's page. -/
def ecRows : List (Nat × Nat × Acc) :=
  [(0x00, 0x14, .ro), (0x18, 0x24, .rc), (0x28, 0x2C, .ro), (0x30, 0x30, .rc), (0x40, 0x40, .rw), (0x44, 0x44, .ro),
    (0x50, 0x50, .ro)]

/-- The effect-core block. -/
def isEc (addr : Nat) : Bool := decide (addr / 65536 = 0x100A)

/-- Access code of a register address; none where the offset carries no register (R606). -/
def accOf (addr : Nat) : Acc :=
  let (rows, off) := if isEc addr then (ecRows, addr % 0x400) else (regRows (addr / 65536), addr % 65536)
  match rows.find? (fun r => decide (r.1 ≤ off) && decide (off ≤ r.2.1)) with
  | some r => if addr % 4 = 0 then r.2.2 else .none
  | none => .none

/-- Bits that an RW register keeps; the others are reserved (R18). -/
def rwMask (addr : Nat) : Nat :=
  if isEc addr then 0xDFFF
  else match addr with
  | 0x10000300 => 1
  | 0x10000310 => 1
  | 0x10010010 => 7
  | 0x10010014 => 0x80003FFF
  | 0x10010018 => 0xFFFFFF
  | 0x10010020 => 7
  | 0x10010030 => 0x3FFFFFF
  | 0x10010034 => 0xFFFFFF
  | 0x10010040 => 0x3FF
  | 0x10030008 => 3
  | 0x10030014 => 0x7FFFFFF
  | 0x10030040 => 0x3F
  | 0x10040040 => 0xF1FFF
  | 0x10040050 => 0xF1FFF
  | 0x10040070 => 0xFFF
  | 0x10050008 => 0x3FF
  | 0x10060010 => 0x3FF
  | 0x10060024 => 0x3F
  | 0x10060030 => 0x1FFFC
  | 0x10070010 => 0xF
  | 0x10070020 => 0x1FFF
  | 0x10070024 => 0x1FFF
  | 0x10070028 => 1
  | 0x10070040 => 0x1FFF
  | 0x10080004 => 0x7FF
  | 0x10090004 => 0x3FF
  | 0x10090020 => 0x7FF
  | 0x10090028 => 0x7FFFC
  | 0x100B0010 => 7
  | 0x100B0080 => 0x1FF
  | 0x100B00C0 => 0x1FF
  | 0x100C0020 => 0xF
  | 0x100C0040 => 1
  | 0x100C0060 => 3
  | 0x100D0008 => 0x1F
  | 0x100D0040 => 0xFF
  | 0x100E0008 => 7
  | 0x100F0004 => 7
  | 0x10100004 => 1
  | 0x10110004 => 1
  | 0x10120008 => 1
  | 0x10120014 => 0xFFF00000
  | 0x10130040 => 0xFFFFFFC
  | 0x10140014 => 0x1FFFFF
  | 0x1014008C => 0xFFFC
  | 0x10150000 => 0x3F
  | 0x10150004 => 0x181FF
  | 0x10160014 => 0x7FFFFFF
  | 0x10170010 => 0xF
  | 0x10170054 => 0xF
  | _ => 0xFFFFFFFF

/-- Registers of which each master has its own copy (R608). -/
def perMaster (addr : Nat) : Bool :=
  if isEc addr then decide (addr % 0x400 = 0x40)
  else [0x10010010, 0x10010020, 0x10030040, 0x10030010, 0x10030014, 0x10040040, 0x10040044, 0x10040048, 0x10040050,
    0x10040070, 0x10050008, 0x10060010, 0x10060024, 0x10060030, 0x10070010, 0x10070020, 0x10070024, 0x10070028, 0x10070040,
    0x10080004, 0x10080044, 0x10080048, 0x10090004, 0x10090020, 0x10090028, 0x100B0010, 0x100B0080, 0x100B00C0, 0x100C0040,
    0x100D0008, 0x100D0040, 0x100D0054, 0x100D0058, 0x100E0008, 0x100F0004, 0x10100004, 0x10110004, 0x10120008, 0x10120014,
    0x10120018, 0x1014008C, 0x10150000, 0x10160010, 0x10160014, 0x10170010, 0x10170044, 0x10170048, 0x10170054, 0x10170090,
    0x10170094].contains addr

/-- A master's copy of a selection. -/
def selOf (addr master : Nat) (s : State) : Nat := rget addr master s

/-- The instance that an access by a master reaches: the selection of the register's block (R608, R611). -/
def instOf (addr master : Nat) (s : State) : Nat :=
  if perMaster addr then master
  else if within 0x10010014 0x1001001C addr then selOf 0x10010010 master s
  else if within 0x10010024 0x10010028 addr then selOf 0x10010020 master s
  else if within 0x10050010 0x10050064 addr then selOf 0x10050008 master s
  else if within 0x10060014 0x1006002C addr then selOf 0x10060010 master s
  else if within 0x10070044 0x1007004C addr then selOf 0x10070040 master s
  else if within 0x10080008 0x10080058 addr then selOf 0x10080004 master s
  else if within 0x10090008 0x10090014 addr then selOf 0x10090004 master s
  else if within 0x10090024 0x10090030 addr then selOf 0x10090020 master s
  else if within 0x100B0014 0x100B004C addr then selOf 0x100B0010 master s
  else if within 0x100B0084 0x100B00B4 addr then selOf 0x100B0080 master s
  else if within 0x100B00C4 0x100B00C8 addr then selOf 0x100B00C0 master s
  else if within 0x100C0044 0x100C0058 addr then selOf 0x100C0040 master s
  else if within 0x100D000C 0x100D0030 addr then selOf 0x100D0008 master s
  else if within 0x100D0044 0x100D005C addr then selOf 0x100D0040 master s
  else if within 0x100E000C 0x100E0024 addr then selOf 0x100E0008 master s
  else if within 0x100F0008 0x100F0024 addr then selOf 0x100F0004 master s
  else if within 0x10100008 0x10100020 addr && addr ≠ 0x10100014 then selOf 0x10100004 master s
  else if within 0x10110008 0x10110014 addr then selOf 0x10110004 master s
  else if within 0x10150004 0x10150014 addr then selOf 0x10150000 master s
  else if within 0x10170014 0x10170040 addr then selOf 0x10170010 master s
  else if addr = 0x10170058 then selOf 0x10170054 master s
  else 0

/-- The words that a read of a low word latches (R537 and the register maps). -/
def latched (addr : Nat) : List Nat :=
  let upTo := fun (a b : Nat) => (List.range ((b - a) / 4 + 1)).map (fun i => a + 4 * i)
  match addr with
  | 0x10000200 => [0x10000204]
  | 0x10000214 => [0x10000218]
  | 0x10030024 => [0x10030028]
  | 0x10030030 => upTo 0x10030034 0x1003003C
  | 0x10030044 => upTo 0x10030048 0x10030058
  | 0x100300C0 => upTo 0x100300C4 0x100300FC
  | 0x10030100 => upTo 0x10030104 0x1003013C
  | 0x10050040 => upTo 0x10050044 0x10050064
  | 0x10060014 => upTo 0x10060018 0x10060020
  | 0x1007002C => [0x10070030, 0x10070034]
  | 0x10080050 => [0x1008004C, 0x10080054, 0x10080058]
  | 0x10090010 => [0x10090014]
  | 0x100B0040 => [0x100B0044]
  | 0x100B0048 => [0x100B004C]
  | 0x100C0010 => [0x100C0014, 0x100C0018]
  | 0x100C0044 => upTo 0x100C0048 0x100C0058
  | 0x100C0070 => [0x100C0074]
  | 0x100D0014 => upTo 0x100D0018 0x100D0024
  | 0x10120038 => [0x1012003C, 0x10120040]
  | 0x10140084 => [0x10140088]
  | 0x10150008 => [0x1015000C]
  | 0x10150010 => [0x10150014]
  | 0x1015001C => [0x10150020]
  | 0x10160020 => [0x10160024]
  | 0x10160028 => [0x1016002C]
  | 0x10170078 => [0x1017007C]
  | _ => []

/-- The low words, in address order. -/
def lowWords : List Nat :=
  [0x10000200, 0x10000214, 0x10030024, 0x10030030, 0x10030044, 0x100300C0, 0x10030100, 0x10050040, 0x10060014, 0x1007002C, 0x10080050, 0x10090010,
    0x100B0040, 0x100B0048, 0x100C0010, 0x100C0044, 0x100C0070, 0x100D0014, 0x10120038, 0x10140084, 0x10150008, 0x10150010,
    0x1015001C, 0x10160020, 0x10160028, 0x10170078]

/-- The word is read through a latch. -/
def isLatched (addr : Nat) : Bool := lowWords.any (fun a => (latched a).contains addr)

/-- Registers outside every gate (R534). -/
def ungated (addr : Nat) : Bool :=
  if isEc addr then decide (addr % 0x400 = 0x50)
  else decide (addr % 65536 = 0) || [0x10010004, 0x10030068, 0x10040008, 0x10060008, 0x100B0004, 0x100C0004, 0x100D0004,
    0x100E0004, 0x10120004, 0x10140004].contains addr

/-- The register of an access is clock-gated (R534): its instance's enable is 0. Selections belong to no instance. -/
def gated (addr master : Nat) (s : State) : Bool :=
  let off := fun (reg k : Nat) => !bit k (rget reg 0 s)
  if ungated addr then false
  else if isEc addr then
    let k := addr / 0x400 % 64
    off (if k < 32 then 0x10010038 else 0x1001003C) (k % 32)
  else
    let i := instOf addr master s
    let b := addr / 65536
    if perMaster addr then b = 0x1017 && off 0x10010030 25
    else if b = 0x100E then off 0x10010030 i
    else if b = 0x100F then off 0x10010030 (8 + i)
    else if b = 0x1010 then addr ≠ 0x10100014 && off 0x10010030 (16 + i)
    else if b = 0x1011 then off 0x10010030 (18 + i)
    else if within 0x100B0014 0x100B004C addr then off 0x10010030 (20 + i)
    else if b = 0x1017 then off 0x10010030 25
    else if within 0x100D000C 0x100D0030 addr then off 0x10010034 i
    else if within 0x100D0044 0x100D005C addr then off 0x10010034 (i / 8)
    else false

end Sys2Proof.Machine
end

