-- ==== Sys2Proof/Machine/Regs.lean ====
section
/-!
DEFINITION. Accesses of the control interconnect's masters: register reads and writes by access code (R17, R18), the latches
of wide registers (R537), and the crossbar (R510 to R515).
-/
namespace Sys2Proof.Machine

/-! ### Words of the CTL, EVC and SYS blocks -/

/-- Word `w` of a 256-bit set of event codes. -/
def codeWord (w : Nat) (x : BitVec 256) : Nat := x.toNat / 2 ^ (32 * w) % 2 ^ 32

/-- A 256-bit set with word `w` replaced. -/
def setCodeWord (w v : Nat) (x : BitVec 256) : BitVec 256 :=
  BitVec.ofNat 256 (x.toNat - codeWord w x * 2 ^ (32 * w) + v % 2 ^ 32 * 2 ^ (32 * w))

/-- CTL.EVT_CTRL. -/
def evtCtrl (s : State) : Nat := rget 0x10140014 0 s

/-- IRQ_N is driven low (R596). -/
def irqLow (s : State) : Bool :=
  decide (s.ev.pend &&& s.ev.irqEn ≠ 0#256) || (bit 17 (evtCtrl s) && !s.tcm.spiOut.isEmpty)

/-- Word of a byte string at an offset, big-endian, 0 beyond its end. -/
def wordIn (big : Bool) (off : Nat) (l : List Nat) : Nat :=
  let b := padTo 4 (slice off 4 l)
  if big then be b else le b

/-- The registers of the CTL block that are not plain. -/
def ctlReg (off sheetAt : Nat) (s : State) : Nat :=
  let t := s.tcm
  if 0x40 ≤ off ∧ off ≤ 0x5C then codeWord ((off - 0x40) / 4) s.ev.pend
  else if 0x60 ≤ off ∧ off ≤ 0x7C then codeWord ((off - 0x60) / 4) s.ev.irqEn
  else match off with
  | 0x00 => if t.valid then t.keys.length % 16 + bitIf t.spiPlain 4 + t.udpPort % 65536 * 256 + 2 ^ 31 else 0
  | 0x04 => t.recordErr
  | 0x08 => t.session
  | 0x0C => bitIf s.nvm.recovery 0 + bitIf (!t.spiOut.isEmpty) 1 + bitIf (irqLow s) 2 + bitIf t.authFail 8 + bitIf t.stale 9
      + bitIf t.evtLost 10
  | 0x18 => s.ev.eseq
  | 0x80 => s.sheet.bytes.length % 2 ^ 17 + bitIf s.sheet.cleared 29
      + bitIf (match s.sheet.pending with | some r => r.reg.isSome | none => false) 30 + bitIf s.sheet.valid 31
  | 0x84 => s.sheet.block % 2 ^ 32
  | 0x88 => s.sheet.block / 2 ^ 32
  | 0x90 => wordIn true sheetAt s.sheet.bytes
  | 0xA0 => Config.dieId % 2 ^ 32
  | 0xA4 => Config.dieId / 2 ^ 32 % 2 ^ 32
  | _ => 0

/-- The registers of the EVC block; `k` is the selected counter. -/
def evcReg (off k : Nat) (s : State) : Nat :=
  match off with
  | 0x04 => sget 0 k s.evc.src
  | 0x08 => sget 0 k s.evc.cnt % 2 ^ 32
  | 0x0C => sget 0 k s.evc.cnt / 2 ^ 32
  | 0x10 => sget 0 k s.evc.snap % 2 ^ 32
  | 0x14 => sget 0 k s.evc.snap / 2 ^ 32
  | 0x1C => s.evc.snapBlk % 2 ^ 32
  | 0x20 => s.evc.snapBlk / 2 ^ 32
  | 0x24 => bitIf s.evc.snapPending 0
  | _ => 0

/-- SYS.DET_STATUS.ANALOG_LOCAL: always in ALONE, and in a standby unit for the blocks of R318. -/
def analogLocal (s : State) : Bool :=
  if s.twin.acts then decide (s.twin.st = 0) && !s.twin.starting else s.twin.localAdc

/-- The registers of the SYS block that are not plain. -/
def sysReg (off : Nat) (s : State) : Nat :=
  let g := s.grid
  match off with
  | 0x000 => 0x1800
  | 0x004 => Config.stepping % 256
  | 0x200 => if g.running then g.block % 2 ^ 32 else 0
  | 0x204 => if g.running then g.block / 2 ^ 32 % 2 ^ 27 else 0
  | 0x208 => if g.running then g.sub else 0
  | 0x20C => if s.img.applied then s.img.rate + bitIf s.dbl 2 + s.B * 2 ^ 8 + s.S * 2 ^ 16 + 2 ^ 31 else 0
  | 0x210 => bitIf s.time.lock 0 + bitIf s.time.holdover 1 + bitIf g.memPoison 2 + bitIf g.overload 3 + bitIf g.lateFix 4
      + bitIf g.latePacket 5 + bitIf g.sapSubst 6 + bitIf (analogLocal s) 7 + bitIf s.twin.divergent 8
      + bitIf (g.running && g.met) 31
  | 0x214 => g.lapse % 2 ^ 32
  | 0x218 => g.lapse / 2 ^ 32 % 2 ^ 27
  | 0x304 => s.bus.errAddr
  | 0x308 => s.bus.errInfo
  | _ => 0

/-! ### Reads -/

/-- An FX register's value in effect (R17). The SPK registers of a selection number that names no chain, or an unbound one, read 0
once an image is applied: DEDUCED (assumption 103). -/
def fxNow (addr inst master : Nat) (s : State) : Nat :=
  if addr = 0x1007002C then
    pattern 32 (sget NodeEnt.none (5120 * rget 0x10070020 master s + rget 0x10070024 master s) (liveSet s.mx)).gain
  else if addr = 0x100500B8 ∨ addr = 0x10090030 then 0
  else if within 0x10050010 0x10050020 addr && s.img.applied && decide (s.img.objs.length ≤ inst) then 0
  else if within 0x10080010 0x10080030 addr && s.img.applied && (spkLacks s addr inst || (chainBus s inst).isNone) then 0
  else rget addr inst s

/-- The value of a register that is neither FX nor a counter, as `master` reaches it. -/
def stateReg (addr inst master : Nat) (s : State) : Nat :=
  let off := addr % 65536
  match addr / 65536 with
  | 0x1000 => sysReg off s
  | 0x1001 => clkReg off inst inst s
  | 0x1002 => pseqReg off s
  | 0x1003 => twinReg off (selOf 0x10030040 master s) s
  | 0x1004 => schedReg off (selOf 0x10040050 master s) (selOf 0x10040070 master s) s
  | 0x1005 => objReg off inst s
  | 0x1006 =>
    if off = 0x08 then rget addr 0 s
    else if off = 0x28 then
      if s.img.objs.length ≤ inst then 0 else (panSlotWords (objGet inst s) (selOf 0x10060024 master s)).1
    else if off = 0x2C then
      if s.img.objs.length ≤ inst then 0 else (panSlotWords (objGet inst s) (selOf 0x10060024 master s)).2
    else if off = 0x34 then wordIn false (selOf 0x10060030 master s) s.img.layout.body
    else panReg off inst s
  | 0x1007 => xpReg off (rget 0x10070020 master s) (rget 0x10070024 master s) (selOf 0x10070040 master s) s
  | 0x1008 => spkReg off inst s
  | 0x1009 => convReg off (selOf 0x10090004 master s) (selOf 0x10090020 master s) s
  | 0x100A =>
    let k := addr / 0x400 % 64
    if addr % 0x400 = 0x44 then memData k (rget (addr - 4) master s) s else ecReg (addr % 0x400) k s
  | 0x100B =>
    if off = 0x44 then (pnGet inst s).rxOctets / 2 ^ 32
    else if off = 0x4C then (pnGet inst s).txOctets / 2 ^ 32
    else netReg off inst (selOf 0x100B0080 master s) (selOf 0x100B00C0 master s) s
  | 0x100C => ptpReg off (selOf 0x100C0040 master s) s
  | 0x100D => sapReg off (selOf 0x100D0008 master s) (selOf 0x100D0040 master s) s
  | 0x100E => adcReg off inst s
  | 0x100F => dacReg off inst s
  | 0x1010 => ampReg off inst s
  | 0x1011 => hsdReg off inst s
  | 0x1012 => mcReg off (selOf 0x10120008 master s) s
  | 0x1013 => nvmReg off s
  | 0x1014 => ctlReg off (selOf 0x1014008C master s) s
  | 0x1015 => evcReg off (selOf 0x10150000 master s) s
  | 0x1016 => fixReg off s
  | 0x1017 => measReg off inst s
  | _ => 0

/-- RW registers whose value the block's state holds. -/
def heldByState (addr : Nat) : Bool :=
  [0x10010024, 0x10010040, 0x100C0024, 0x100C0028, 0x10130040, 0x10150004].contains addr || within 0x10140060 0x1014007C addr

/-- The value of an RC register, and the state after its read clears it (R17). -/
def readClear (addr inst : Nat) (s : State) : Nat × State :=
  if [0x100B000C, 0x100B0040, 0x100B0048, 0x100B008C].contains addr then netRead (addr % 65536) inst inst s
  else if addr = 0x1004000C then (s.sched.peak, { s with sched := { s.sched with peak := 0 } })
  else if addr = 0x10040014 then (s.sched.loadPeak, { s with sched := { s.sched with loadPeak := 0 } })
  else if isEc addr && decide (addr % 0x400 = 0x18) then
    let k := addr / 0x400 % 64
    ((coreGet k s).peak, coreSet k { coreGet k s with peak := 0 } s)
  else (cget addr inst s, cset addr inst 0 s)

/-- A register's value as `master` reads it, without what the read itself does. -/
def regNow (master addr : Nat) (s : State) : Nat :=
  let inst := instOf addr master s
  if gated addr master s then 0
  else match accOf addr with
  | .none => 0
  | .wo => 0
  | .rc => (readClear addr inst s).1
  | .fx => fxNow addr inst master s
  | .rw => if heldByState addr then stateReg addr inst master s else rget addr inst s
  | _ => stateReg addr inst master s

/-! ### Latches -/

/-- Key of a master's latch of a word; PAN slots latch under keys of their own. -/
def latchKey (addr master slot : Nat) : Nat := addr * 65536 + master + 16 * slot

def latchPut (key v : Nat) (s : State) : State := { s with bus := { s.bus with latch := sput key v s.bus.latch } }

/-- The read of a low word latches the other words of its value (R537), and that of PAN.ST_BOUNDARY_LO all slots. -/
def latchAll (master addr : Nat) (s : State) : State :=
  let inst := instOf addr master s
  let s' := (latched addr).foldl (fun t a => latchPut (latchKey a master 0) (regNow master a s) t) s
  if addr = 0x10060014 then
    (List.range 64).foldl (fun t k =>
      let w := if s.img.objs.length ≤ inst then (0, 0) else panSlotWords (objGet inst s) k
      latchPut (latchKey 0x10060028 master (k + 1)) w.1 (latchPut (latchKey 0x1006002C master (k + 1)) w.2 t)) s'
  else s'

/-- The latched value of a word, where its low word has been read. -/
def latchOf (master addr : Nat) (s : State) : Option Nat :=
  let slot := if addr = 0x10060028 ∨ addr = 0x1006002C then selOf 0x10060024 master s + 1 else 0
  (s.bus.latch.find? (fun e => decide (e.1 = latchKey addr master slot))).map Prod.snd

/-- What a latched word reads before a read of its low word latches it: its reset value (chapter 18). -/
def latchReset (addr : Nat) : Nat := if addr = 0x10080058 then 0x200000 else 0

/-- A read of a register by a master: the value and the state after it. -/
def regRead (master addr : Nat) (s : State) : Nat × State :=
  if gated addr master s then (0, s)
  else
    let inst := instOf addr master s
    let now := regNow master addr s
    let s := latchAll master addr s
    if accOf addr = .rc then (now, (readClear addr inst s).2)
    else if addr = 0x10060034 then
      (now, rset 0x10060030 master ((selOf 0x10060030 master s + 4) % 2 ^ 17) s)
    else if addr = 0x10140090 then
      (now, rset 0x1014008C master ((selOf 0x1014008C master s + 4) % 2 ^ 16) s)
    else if addr = 0x10130044 then nvmDataRead master s
    else if isEc addr && decide (addr % 0x400 = 0x44) then
      let a := rget (addr - 4) master s
      let s := if bits 15 14 a < 2 then deliverMarked (addr / 0x400 % 64) (decide (bits 15 14 a = 1)) (a % 2 ^ 13) 1 s else s
      (now, rset (addr - 4) master (a / 2 ^ 13 * 2 ^ 13 + (a + 1) % 2 ^ 13) s)
    else if isLatched addr || decide (addr = 0x10060028) || decide (addr = 0x1006002C) then
      ((latchOf master addr s).getD (latchReset addr), s)
    else (now, s)

/-! ### Writes -/

/-- Acting time of a timed request from a register pair (R32). -/
def timeOf (lo hi master v : Nat) (s : State) : Option Nat :=
  if bit 31 v then some (rget lo master s + rget hi master s * 2 ^ 32) else none

/-- SPK.MUTE (R184). -/
def muteWrite (master v : Nat) (s : State) : State :=
  requestAsk (.mute (selOf 0x10080004 master s) (bit 0 v) (bits 4 1 v)) (timeOf 0x10080044 0x10080048 master v s) s

/-- SAP.P_HOLD (R442). -/
def holdWrite (master v : Nat) (s : State) : State :=
  requestAsk (.hold (selOf 0x100D0040 master s) (bit 0 v) (bit 1 v)) (timeOf 0x100D0054 0x100D0058 master v s) s

/-- MEAS.TG_PAUSE (R222). -/
def pauseWrite (master v : Nat) (s : State) : State :=
  requestAsk (.pause (selOf 0x10170010 master s) (bit 0 v)) (timeOf 0x10170044 0x10170048 master v s) s

/-- SCHED.STOP_CMD (R255, R259): a write with both bits has no effect. -/
def stopCmdWrite (master v : Nat) (s : State) : State :=
  if bit 0 v = bit 1 v || !takesOwn s then s
  else stopAsk (bit 1 v) (rget 0x10040040 master s) (timeOf 0x10040044 0x10040048 master v s) none s

/-- TWIN.CMD.RESTART (R346): a holder with a LATENT partner releases first. -/
def restart (s : State) : State :=
  resetDevice 32 (if s.twin.acts && decide (s.twin.peer = 1) then tokenRelease 5 s else s)

/-- TWIN.CMD: a write with more than one bit 1 has no effect. -/
def twinCmdWrite (master v : Nat) (s : State) : State :=
  match v % 16 with
  | 1 => cmdRelease (cmdCount s)
  | 2 => cmdHandover master (cmdCount s)
  | 4 => restart (cmdCount s)
  | 8 => cmdResync (cmdCount s)
  | _ => s

/-- FIX.COMMIT (R156, R157): a write with both bits 1 has no effect. -/
def fixCommitWrite (master v : Nat) (s : State) : State :=
  if !takesOwn s then s
  else match v % 4 with
  | 1 => fixRequest (rget 0x10160010 master s + rget 0x10160014 master s * 2 ^ 32) none s
  | 2 => discardSet s
  | _ => s

/-- EVC_SRC_WRITE (R598). -/
def evcSrcWrite (k v : Nat) (s : State) : State :=
  { s with evc := { s.evc with src := sset 0 k (v &&& 0x181FF) s.evc.src, cnt := sset 0 k 0 s.evc.cnt } }

/-- EVC.CMD.SNAP (R599): a request while one is pending joins it. -/
def evcSnap (s : State) : State := { s with evc := { s.evc with snapPending := true } }

/-- EVC.CMD.CLEAR_SEL. -/
def evcClear (k : Nat) (s : State) : State := { s with evc := { s.evc with cnt := sset 0 k 0 s.evc.cnt } }

/-- EVC.CMD. -/
def evcCmdWrite (k v : Nat) (s : State) : State :=
  let s := if bit 1 v then evcClear k s else s
  if bit 0 v then evcSnap s else s

/-- A write of an FX register (R153): taken only by a unit that stages its own writes (R313). A push or a commit whose
reserved bits are not 0 is staged as the register write it is, and the fix that seals the set is rejected (R644). -/
def fxWrite (master addr inst v : Nat) (s : State) : State :=
  if !takesOwn s then s
  else if addr = 0x1007002C then nodeGainWrite master v s
  else if fxReservedOk addr v then
    if addr = 0x100500B8 then (if bit 0 v then kfPush s else s)
    else if addr = 0x10090030 then (if bit 0 v then stageCommit (selOf 0x10090020 master s) s else s)
    else stageReg addr inst v s
  else stageReg addr inst v (if addr = 0x100500B8 ∧ bit 0 v then kfPush s else s)

/-- Writes of 1 to the W1C bits of SYS.DET_STATUS. -/
def sysW1c (v : Nat) (s : State) : State :=
  { s with grid := { s.grid with
    memPoison := s.grid.memPoison && !bit 2 v, overload := s.grid.overload && !bit 3 v
    lateFix := s.grid.lateFix && !bit 4 v, latePacket := s.grid.latePacket && !bit 5 v
    sapSubst := s.grid.sapSubst && !bit 6 v } }

/-- Writes of 1 to the W1C bits of CTL.STATUS and CTL.PENDw. -/
def ctlW1c (off v : Nat) (s : State) : State :=
  if off = 0x0C then
    { s with tcm := { s.tcm with
      authFail := s.tcm.authFail && !bit 8 v, stale := s.tcm.stale && !bit 9 v, evtLost := s.tcm.evtLost && !bit 10 v } }
  else
    let w := (off - 0x40) / 4
    let p := codeWord w s.ev.pend
    { s with ev := { s.ev with pend := setCodeWord w (p - (p &&& v)) s.ev.pend } }

/-- A write to a register with W1C bits (R17). -/
def w1cWrite (addr inst v : Nat) (s : State) : State :=
  let off := addr % 65536
  match addr / 65536 with
  | 0x1000 => sysW1c v s
  | 0x1001 => clkW1c v s
  | 0x1003 => twinW1c v s
  | 0x100B => if bit 8 v then pnSet inst { pnGet inst s with linkChange := false } s else s
  | 0x100C => ptpW1c off v s
  | 0x100D => sapW1c off inst v s
  | 0x100E => adcW1c inst v s
  | 0x100F => dacW1c inst v s
  | 0x1010 => ampW1c inst v s
  | 0x1011 => hsW1c inst v s
  | 0x1014 => ctlW1c off v s
  | _ => s

/-- A write to an RW register (R17, R18): reserved bits are ignored; registers that R512, R520, R525 and R534 give to SV
alone drop other masters' writes. -/
def rwWrite (master addr inst v : Nat) (s : State) : State :=
  let svOnly := [0x10000300, 0x10010014, 0x10010018, 0x10010030, 0x10010034, 0x10010038, 0x1001003C, 0x10010040].contains addr
  let v := v &&& rwMask addr
  if svOnly && decide (master ≠ 0) then s
  else if within 0x10140060 0x1014007C addr then
    { s with ev := { s.ev with irqEn := setCodeWord (addr % 0x100 / 4 - 24) v s.ev.irqEn } }
  else match addr with
  | 0x10010018 => pllFracWrite inst v s
  | 0x10010024 => domCtrlWrite inst v s
  | 0x10010040 => { s with clk := { s.clk with trim := v } }
  | 0x100C001C => incWrite master v s
  | 0x100C0024 => epochWrite 0 v s
  | 0x100C0028 => epochWrite 1 v s
  | 0x100C006C => rset addr 0 v { s with time := { s.time with todSet := true } }
  | 0x10130040 => { s with nvm := { s.nvm with addr := v } }
  | 0x10130044 => nvmDataWrite v s
  | 0x10150004 => evcSrcWrite inst v s
  | _ => rset addr inst v s

/-- A write to a WO register. -/
def woWrite (master addr inst v : Nat) (s : State) : State :=
  match addr with
  | 0x10020014 => wdtKick master v s
  | 0x1002001C => softReset master v s
  | 0x1003000C => twinCmdWrite master v s
  | 0x1004004C => stopCmdWrite master v s
  | 0x10080040 => muteWrite master v s
  | 0x1009002C => if takesOwn s then loadData master v s else s
  | 0x100C0038 => if bit 0 v then ptpStep s else s
  | 0x100D0050 => holdWrite master v s
  | 0x10100010 => if bit 0 v then ampClear inst s else s
  | 0x10130048 => if v % 4 = 0 then s else nvmCommand (v % 4) master (bits 27 8 v) s
  | 0x10150018 => evcCmdWrite (selOf 0x10150000 master s) v s
  | 0x10160018 => fixCommitWrite master v s
  | 0x10170040 => pauseWrite master v s
  | 0x10170098 => deconvGo master v s
  | _ => s

/-- A write of a register by a master (R17). A gated register ignores it (R534), but an FX write to an instance that the
image leaves unconfigured is staged, and the fix that seals the set is rejected for it (R645). -/
def regWrite (master addr v : Nat) (s : State) : State :=
  let inst := instOf addr master s
  if gated addr master s && !(decide (accOf addr = .fx) && !fxInstance addr inst s) then s
  else match accOf addr with
  | .rw => rwWrite master addr inst v s
  | .wo => woWrite master addr inst v s
  | .fx => fxWrite master addr inst v s
  | .w1c => w1cWrite addr inst v s
  | .mix => w1cWrite addr inst v s
  | _ => s

/-! ### The crossbar -/

/-- The master can start a transaction: no reset holds it, and it is active (R510). -/
def masterActive (master : Nat) (s : State) : Bool :=
  !s.clk.inReset && decide (master < 5) && (decide (master ≠ 1) || !s.nvm.applied)
    && (decide (master ≠ 4) || bit 0 (rget 0x10000310 0 s))

/-- The answer of a transaction: the word read, and whether it met a bus error. -/
def busAnswer (master v : Nat) (err : Bool) (s : State) : State :=
  { s with bus := { s.bus with rdata := sset 0 master v s.bus.rdata, rerr := sset 0 master (if err then 1 else 0) s.bus.rerr } }

/-- Cause for which an access is not performed at all (R513). -/
def busRefused (master addr : Nat) (write : Bool) (s : State) : Option Nat :=
  let t := targetOf (bit 0 (rget 0x10000300 0 s)) addr
  if addr % 4 ≠ 0 then some 0
  else if t = .unmapped then some 2
  else if hasPath master t write then none
  else some 1

/-- The word of the boot ROM at a byte offset. -/
def romWord (a : Nat) : Nat := le ((List.range 4).map (fun i => Config.bootRom (a + i) % 256))

/-- One word read by a master (R510 to R515). -/
def busRead (master addr : Nat) (s : State) : State :=
  if !masterActive master s then s
  else match busRefused master addr false s with
  | some c => busAnswer master 0 true (busError master addr c false s)
  | none =>
    match targetOf (bit 0 (rget 0x10000300 0 s)) addr with
    | .rom => busAnswer master (romWord (localOffset addr)) false s
    | .sram => busAnswer master (wordAt (localOffset addr) s.mem.sram) false s
    | .window =>
      let (v, e, s') := windowRead master addr s
      match e with
      | some c => busAnswer master 0 true (busError master addr c false s')
      | none =>
        let a := windowAddr master addr s
        busAnswer master v false (if isPoisoned s a then burstCheck (deliverPoison a 6 s'.clk.safe s') else s')
    | _ => let (v, s') := regRead master addr s; busAnswer master v false s'

/-- One word written by a master (R510 to R515). -/
def busWrite (master addr v : Nat) (s : State) : State :=
  let v := v % 2 ^ 32
  if !masterActive master s then s
  else match busRefused master addr true s with
  | some c => busAnswer master (sget 0 master s.bus.rdata) true (busError master addr c true s)
  | none =>
    let s := busAnswer master (sget 0 master s.bus.rdata) false s
    match targetOf (bit 0 (rget 0x10000300 0 s)) addr with
    | .sram => { s with mem := { s.mem with sram := putWord (localOffset addr) v s.mem.sram } }
    | .window =>
      match windowWrite master addr v s with
      | (some c, s') => busAnswer master (sget 0 master s.bus.rdata) true (busError master addr c true s')
      | (none, s') => s'
    | .rom => s
    | _ => regWrite master addr v s

/-- A transaction's form is allowed (R511, R513): one aligned 32-bit word, or a burst of 2 to 16 of them within one 64-byte line
of a target that is not register space. -/
def formOk (addr bytes n : Nat) (s : State) : Bool :=
  decide (bytes = 4) && decide (addr % 4 = 0)
    && (decide (n = 1) || (decide (2 ≤ n) && decide (n ≤ 16) && decide (addr / 64 = (addr + 4 * n - 1) / 64)
      && decide (targetOf (bit 0 (rget 0x10000300 0 s)) addr ≠ .regs)))

/-- The words of a transaction from word `i` on, until one meets a bus error. -/
def eachWord (one : Nat → State → State) (master : Nat) : Nat → Nat → State → State
  | 0, _, s => s
  | n + 1, i, s =>
    let s := one i s
    if sget 0 master s.bus.rerr = 1 then s else eachWord one master n (i + 1) s

/-- A transaction of a master with its words, or its bus error (R511, R513). -/
def transaction (master addr bytes n : Nat) (write : Bool) (one : Nat → State → State) (s : State) : State :=
  if !masterActive master s then s
  else if formOk addr bytes n s then eachWord one master n 0 s
  else busAnswer master (if write then sget 0 master s.bus.rdata else 0) true (busError master addr 0 write s)

/-- A write transaction. -/
def busWrites (master addr bytes : Nat) (values : List Nat) (s : State) : State :=
  transaction master addr bytes values.length true (fun i s => busWrite master (addr + 4 * i) (nth 0 values i) s) s

/-- A read transaction: the words of a burst are kept for the master. -/
def busReads (master addr bytes n : Nat) (s : State) : State :=
  let keep := fun (s : State) => { s with bus := { s.bus with
    burst := sput master ((((s.bus.burst.find? (fun e => decide (e.1 = master))).map Prod.snd).getD [])
      ++ [sget 0 master s.bus.rdata]) s.bus.burst } }
  transaction master addr bytes n false (fun i s => keep (busRead master (addr + 4 * i) s))
    { s with bus := { s.bus with burst := sput master [] s.bus.burst } }

end Sys2Proof.Machine
end

