-- ==== Sys2Proof/Machine/Control.lean ====
section
/-!
DEFINITION. Control messages, event delivery, event counters and the contact sheet (chapter 17).
-/
namespace Sys2Proof.Machine

/-! ### Frames -/

/-- Fields of a frame's header (R577). -/
def frType (f : List Nat) : Nat := nth 0 f 1
def frFlags (f : List Nat) : Nat := nth 0 f 2
def frKey (f : List Nat) : Nat := nth 0 f 3
def frSeq (f : List Nat) : Nat := be (slice 4 4 f)
def frLen (f : List Nat) : Nat := be (slice 8 2 f)
def frStatus (f : List Nat) : Nat := be (slice 10 2 f)
def frSession (f : List Nat) : Nat := be (slice 12 4 f)
def frAuth (f : List Nat) : Bool := bit 1 (frFlags f)
def frPayload (f : List Nat) : List Nat := slice 16 (frLen f) f

/-- The frame is not rejected whole (R578). -/
def frameOk (f : List Nat) : Bool :=
  decide (nth 0 f 0 = 1) && decide (frFlags f < 4) && decide (frLen f ≤ 1400)
    && decide (f.length = 16 + frLen f + (if frAuth f then 16 else 0))

/-- Key and MAC (R578), or a frame without a MAC that R579 accepts. -/
def authOk (x : InFrame) (s : State) : Bool :=
  let f := x.bytes
  if frAuth f then
    decide (frKey f < s.tcm.keys.length)
      && decide ((hmac (keyBytes (frKey f) s) (f.take (16 + frLen f))).take 16 = f.drop (16 + frLen f))
  else x.spi && (s.tcm.spiPlain || s.nvm.recovery)

/-- Where the reply to a frame goes, and what it answers. -/
def replyTo (x : InFrame) : ReplyTo :=
  ⟨x.spi, x.addr, x.port, frType x.bytes, frKey x.bytes, frAuth x.bytes, frSeq x.bytes⟩

/-- Message types that a host sends. -/
def requestTypes : List Nat := [1, 2, 3, 4, 5, 6, 7, 9]

/-- TYPE, and OP of a SNAPSHOT, are listed (R589). -/
def typeListed (f : List Nat) : Bool :=
  requestTypes.contains (frType f) && (decide (frType f ≠ 7) || [1, 2].contains (nth 0 (frPayload f) 0) || (frPayload f).isEmpty)

/-- Addresses that a READ or WRITE request reaches (R586). -/
def accessAddrs (p : List Nat) : List Nat :=
  (List.range (be (slice 4 2 p))).map (fun i => be (slice 0 4 p) + (if bit 0 (nth 0 p 6) then 0 else 4 * i))

/-- The words of a WRITE request. -/
def accessWords (p : List Nat) : List Nat := (List.range (be (slice 4 2 p))).map (fun i => be (slice (8 + 4 * i) 4 p))

/-- Fields in range, reserved fields 0 and the payload length of the type (R589, table "Message types"). -/
def payloadOk (type : Nat) (p : List Nat) : Bool :=
  let n := be (slice 4 2 p)
  let stop := decide (p.length = 16) && decide (be (slice 0 4 p) &&& 0xFFF0E000 = 0) && decide (nth 0 p 4 < 2) && zeros 5 3 p
  match type with
  | 1 => decide (p.length = 8) && within 1 256 n && decide (nth 0 p 6 < 2) && zeros 7 1 p
  | 2 => within 1 348 n && decide (p.length = 8 + 4 * n) && decide (nth 0 p 6 < 2) && zeros 7 1 p
  | 3 => let m := be (slice 0 2 p); within 1 174 m && decide (p.length = 8 + 8 * m) && zeros 2 6 p
  | 4 => decide (p.length = 16) && zeros 8 8 p
  | 5 => stop
  | 6 => stop
  | 7 => decide (p.length = 16) && decide (nth 0 p 1 < 2) && zeros 2 2 p && zeros 10 6 p
      && (decide (nth 0 p 0 = 1) || within 4 1024 (be (slice 8 2 p)))
  | 9 => p.isEmpty
  | _ => false

/-- An address of the NVM block. -/
def inNvm (a : Nat) : Bool := decide (a / 65536 = 0x1013)

/-- What RECOVERY accepts (R570). -/
def recoveryOk (x : InFrame) : Bool :=
  x.spi && (decide (frType x.bytes = 1) || (decide (frType x.bytes = 2) && (accessAddrs (frPayload x.bytes)).all inNvm))

/-- A word that a unit which does not act lets a WRITE reach (R313): RESTART and RESYNC of TWIN.CMD and the NVM block; in
declared-divergent mode also the staged set, FIX.COMMIT, mutes, stop baths and STARTs. -/
def writeOk (a v : Nat) (s : State) : Bool :=
  inNvm a || (decide (a = 0x1003000C) && (decide (v % 16 = 4) || decide (v % 16 = 8)))
    || (takesOwn s && (decide (accOf a = .fx)
        || [0x10080040, 0x1004004C, 0x10160018, 0x1009002C].contains a))

/-- The twin state accepts the request (R313, table "Commands by state"). -/
def stateOk (type : Nat) (p : List Nat) (s : State) : Bool :=
  s.twin.acts || (match type with
    | 2 => ((accessAddrs p).zip (accessWords p)).all (fun e => writeOk e.1 e.2 s)
    | 1 => true
    | 7 => true
    | 9 => true
    | _ => takesOwn s)

/-- The key's rights allow the request (R590). -/
def rightsOk (x : InFrame) (s : State) : Bool :=
  let f := x.bytes
  !frAuth f || ((s.tcm.keys[frKey f]?).map Key.full).getD false
    || ((decide (frType f = 1) && !(accessAddrs (frPayload f)).any inNvm) || decide (frType f = 7) || decide (frType f = 9))

/-- A STALE reply, which carries the session in its header (R584, R585). -/
def staleReply (x : InFrame) (s : State) : State :=
  replyPlain (replyTo x) 5 [] (count 0x1014002C 0 1 { s with tcm := { s.tcm with stale := true } })

/-- How R584 and R585 take an authenticated request: its SEQ is accepted, was answered before, or is stale. -/
inductive SeqCase where
  | fresh
  | resend (f : List Nat)
  | stale
deriving DecidableEq, Repr

def seqCase (m : KeyMemo) (seq : Nat) : SeqCase :=
  match m.last with
  | none => .fresh
  | some l =>
    let d := (seq + 2 ^ 32 - l) % 2 ^ 32
    if 1 ≤ d ∧ d < 2 ^ 31 then .fresh
    else match m.replies.find? (fun e => decide (e.1 = seq)) with
      | some e => .resend e.2
      | none => .stale

/-- The request is accepted: LAST becomes its SEQ (R585). -/
def acceptRequest (x : InFrame) (s : State) : State :=
  let f := x.bytes
  let s := { s with tcm := { s.tcm with
    memo := sput (memoKey (frAuth f) (frKey f)) { memoOf (frAuth f) (frKey f) s with last := some (frSeq f) } s.tcm.memo } }
  evcOccur 0x102 1 (count 0x10140020 0 1 s)

/-- The checks of an accepted request in the order of R589, R570, R313 and R590, and its effect where they pass. -/
def checkedRequest (x : InFrame) (act : ReplyTo → List Nat → State → State) (s : State) : State :=
  let f := x.bytes
  let p := frPayload f
  let r := replyTo x
  if !typeListed f then reply r 2 [] s
  else if !payloadOk (frType f) p || decide (frStatus f ≠ 0) || bit 0 (frFlags f) then reply r 3 [] s
  else if s.nvm.recovery && !recoveryOk x then reply r 0xC [] s
  else if !s.nvm.recovery && !stateOk (frType f) p s then reply r 1 [] s
  else if !rightsOk x s then reply r 4 [] s
  else act r p s

/-- The control-message engine handles the frame at the front of its input (R578 to R585, R583). A row handles the frames of
its own message type; a frame that no row names by its type is handled by whichever row comes. -/
def tcmRow (mine : List Nat → Bool) (act : ReplyTo → List Nat → State → State) (s : State) : State :=
  match s.tcm.input with
  | [] => s
  | x :: t =>
    let f := x.bytes
    if s.clk.inReset || (frameOk f && typeListed f && !mine f) then s
    else
      let s := { s with tcm := { s.tcm with input := t } }
      if !frameOk f then count 0x10140024 0 1 s
      else if !authOk x s then
        raiseOnce 0x89 0 (count 0x10140028 0 1 { s with tcm := { s.tcm with authFail := true } })
      else if frSession f ≠ s.tcm.session then staleReply x s
      else match seqCase (memoOf (frAuth f) (frKey f) s) (frSeq f) with
        | .resend g => replySend (replyTo x) g s
        | .stale => raiseOnce 0x8A 0 (staleReply x s)
        | .fresh => checkedRequest x act (acceptRequest x s)

/-- The frame is of a type. -/
def ofType (type : Nat) (f : List Nat) : Bool := decide (frType f = type)

/-! ### The messages -/

/-- Words read in order: values, and the index of the first that met a bus error (R586). -/
def readWords : List Nat → Nat → State → List Nat × Option Nat × State
  | [], _, s => ([], none, s)
  | a :: t, i, s =>
    let s := busRead 2 a s
    let v := sget 0 2 s.bus.rdata
    let bad := decide (sget 0 2 s.bus.rerr = 1)
    let (vs, e, s) := readWords t (i + 1) s
    (v :: vs, if bad then some i else e, s)

/-- Words written in order (R586). -/
def writeWords : List (Nat × Nat) → Nat → State → Option Nat × State
  | [], _, s => (none, s)
  | (a, v) :: t, i, s =>
    let s := busWrite 2 a v s
    let bad := decide (sget 0 2 s.bus.rerr = 1)
    let (e, s) := writeWords t (i + 1) s
    (if bad then some i else e, s)

/-- Status and FIRST_ERR of an access. -/
def accessReply (r : ReplyTo) (e : Option Nat) (words : List Nat) (s : State) : State :=
  if s.clk.inReset then s
  else reply r (if e.isSome then 6 else 0) (beBytes 2 (e.getD 0xFFFF) ++ [0, 0] ++ words.flatMap (beBytes 4)) s

/-- TCM_READ (R586). -/
def tcmRead : State → State :=
  tcmRow (ofType 1) (fun r p s => let (vs, e, s) := readWords (accessAddrs p) 0 s; accessReply r e vs s)

/-- TCM_WRITE (R586). A write that resets the device leaves no reply. -/
def tcmWrite : State → State :=
  tcmRow (ofType 2) (fun r p s =>
    let (e, s) := writeWords ((accessAddrs p).zip (accessWords p)) 0 s
    accessReply r e [] s)

/-- TCM_STAGE (R587). -/
def tcmStage : State → State :=
  tcmRow (ofType 3) (fun r p s =>
    let ws := (List.range (be (slice 0 2 p))).map (fun i => be (slice (8 + 8 * i) 8 p))
    let (n, s) := stageNodes ws s
    reply r 0 (beBytes 2 n ++ [0, 0]) s)

/-- TCM_FIX (R588): its reply follows registration. -/
def tcmFix : State → State := tcmRow (ofType 4) (fun r p s => fixRequest (be (slice 0 8 p)) (some r) s)

/-- TCM_STOP_BATH and TCM_START (R588). -/
def tcmStop (start : Bool) : State → State :=
  tcmRow (ofType (if start then 6 else 5)) (fun r p s =>
    stopAsk start (be (slice 0 4 p)) (if bit 0 (nth 0 p 4) then some (be (slice 8 8 p)) else none) (some r) s)

/-- SNAPSHOT_TAKE (R600): BUSY while a capture is pending. -/
def snapshotTake : State → State :=
  tcmRow (fun f => ofType 7 f && decide (nth 0 (frPayload f) 0 ≠ 2)) (fun r p s =>
    if s.sheet.pending.isSome then reply r 0xA [] s
    else { s with sheet := { s.sheet with pending := some ⟨bit 0 (nth 0 p 1), s.grid.block, r, none⟩ } })

/-- SNAPSHOT_READ (R601): NO_SHEET without a sheet, or beyond its end. -/
def snapshotRead : State → State :=
  tcmRow (fun f => ofType 7 f && decide (nth 0 (frPayload f) 0 = 2)) (fun r p s =>
    let o := be (slice 4 4 p)
    let n := be (slice 8 2 p)
    if !s.sheet.valid || decide (s.sheet.bytes.length < o + n) then reply r 0xB [] s
    else reply r 0 (slice o n s.sheet.bytes) s)

/-- Both health records (R344): the partner's, or zeros. -/
def healthBytes (s : State) : List Nat := padTo 64 (healthRecord s) ++ padTo 64 s.twin.peerHealth

/-- TCM_HEALTH. -/
def tcmHealth : State → State := tcmRow (ofType 9) (fun r _ s => reply r 0 (healthBytes s) s)

/-! ### The SPI target port -/

/-- WRITE_FRAME (R581, R582). -/
def writeFrame (f : List Nat) (s : State) : State :=
  if s.clk.inReset then s else tcmInput ⟨true, 0, 0, f.map (· % 256)⟩ s

/-- READ_FRAME (R581), `n` bytes of the answer being clocked: the frame leaves the queue, and an early end is counted. -/
def readFrame (n : Nat) (s : State) : State :=
  if s.clk.inReset then s
  else match s.tcm.spiOut with
  | [] => { s with tcm := { s.tcm with miso := [0, 0].take n } }
  | (_, f) :: t =>
    let s := { s with tcm := { s.tcm with spiOut := t, miso := (beBytes 2 f.length ++ f).take n } }
    if n < 2 + f.length then dropFrame s else s

/-! ### Event delivery (R595) -/

/-- An event record (R593). -/
def evRecord (r : EvRec) : List Nat := beBytes 4 r.eseq ++ [r.code, 0] ++ beBytes 2 r.arg ++ beBytes 8 r.block

/-- One EVENT frame to each enabled destination. Records of a frame that finds no room in the SPI output queue are lost. -/
def eventFrame (rs : List EvRec) (s : State) : State :=
  let c := evtCtrl s
  let key := bits 20 18 c
  let addr := rget 0x10140010 0 s
  let f := tcmFrame 8 3 key s.ev.frameSeq 0 s.tcm.session (rs.flatMap evRecord) (some (keyBytes key s))
  let s := { s with ev := { s.ev with frameSeq := (s.ev.frameSeq + 1) % 2 ^ 32 } }
  let s := if addr ≠ 0 then mgmtSend addr (c % 65536) f s else s
  if !bit 16 c then s
  else if s.tcm.spiOut.length < 16 then { s with tcm := { s.tcm with spiOut := s.tcm.spiOut ++ [(true, f)] } }
  else count 0x10140034 0 rs.length
    { s with ev := { s.ev with lost := s.ev.lost + rs.length }, tcm := { s.tcm with evtLost := true } }

/-- Some destination is enabled, and its key exists. -/
def eventsGo (s : State) : Bool :=
  decide (bits 20 18 (evtCtrl s) < s.tcm.keys.length) && (decide (rget 0x10140010 0 s ≠ 0) || bit 16 (evtCtrl s))

/-- Delivery at a block tick: at most 4 frames of at most 32 records (R595); EV_EVENT_LOST once space allows. -/
def eventDelivery (s : State) : State :=
  let q := s.ev.sendQ
  let s := { s with ev := { s.ev with sendQ := q.drop 128 } }
  let s := if eventsGo s then (cutList 32 4 (q.take 128)).foldl (fun s rs => eventFrame rs s) s else s
  if s.ev.lost = 0 || decide (256 ≤ s.ev.sendQ.length) || (bit 16 (evtCtrl s) && decide (16 ≤ s.tcm.spiOut.length)) then s
  else
    let n := s.ev.lost
    raiseTick 0x8C (min n 0xFFFF) { s with ev := { s.ev with lost := 0 } }

/-! ### Event counters -/

/-- The block that ends is counted in its sources (R597, R599): once, before any snapshot of the tick that ends it. -/
def blockEnd (s : State) : State :=
  if !s.grid.running || s.evc.ended then s
  else
    let s := if s.grid.met then evcOccur 0x103 1 s else evcOccur 0x104 1 s
    let s := if s.time.holdover then evcOccur 0x105 1 s else s
    { s with evc := { s.evc with ended := true } }

/-- COUNTER_SNAPSHOT (R599): at the tick that ends the current block, before that tick's own occurrences. -/
def counterSnapshot (s : State) : State :=
  if !s.evc.snapPending || !s.grid.running then s
  else
    let s := blockEnd s
    let e := s.evc
    { s with evc := { e with
      snap := e.cnt, snapPending := false, snapBlk := s.grid.block + 1
      cnt := e.cnt.filter (fun x => !bit 16 (sget 0 x.1 e.src)) } }

/-! ### The contact sheet -/

/-- Addresses of a block's registers with an access code that a sheet reports, in increasing address (R601). -/
def sheetRows (base : Nat) (rows : List (Nat × Nat × Acc)) : List Nat :=
  (rows.filter (fun r => decide (r.2.2 = .ro) || decide (r.2.2 = .rc) || decide (r.2.2 = .mix))).flatMap (fun r =>
    (List.range ((r.2.1 - r.1) / 4 + 1)).map (fun i => base + r.1 + 4 * i))

/-- Every register that a sheet reports. -/
def sheetAddrs : List Nat :=
  (List.range 24).flatMap (fun b =>
    if b = 10 then (List.range 64).flatMap (fun k => sheetRows (0x100A0000 + 0x400 * k) ecRows)
    else sheetRows (0x10000000 + 65536 * b) (regRows (0x1000 + b)))

/-- Register pairs of the blocks that are not gated, for the control-message engine's selections (R609). -/
def sheetPairs (s : State) : List Nat :=
  (sheetAddrs.filter (fun a => !gated a 2 s)).flatMap (fun a => beBytes 4 a ++ beBytes 4 (regNow 2 a s))

/-- Counter `k` as it stands at the tick that ends the current block, before a snapshot of the same tick clears it. -/
def sheetCounter (s : State) (k : Nat) : Nat :=
  if s.evc.snapBlk = s.grid.block + 1 then sget 0 k s.evc.snap else sget 0 k s.evc.cnt

/-- The contact sheet of the tick of block k, the current block being k − 1 (R601). -/
def sheetBytes (s : State) : List Nat :=
  let k := s.grid.block + 1
  let body :=
    padTo 1024 (s.ev.log.flatMap evRecord)
      ++ (List.range 64).flatMap (fun j => beBytes 6 (sheetCounter s j) ++ beBytes 2 (sget 0 j s.evc.src % 65536))
      ++ healthBytes s
      ++ (List.range 4096).flatMap (fun i => beBytes 4 (nodeStateWord i s))
      ++ sheetPairs s
  let head := beBytes 8 k ++ beBytes 4 s.tcm.session ++ beBytes 4 (twinStateWord s) ++ beBytes 4 (sysReg 0x210 s)
    ++ padTo 16 (s.nvm.hash.take 16) ++ beBytes 8 (Config.dieId % 2 ^ 64) ++ List.replicate 12 0
  [0x53, 0x48, 0x54, 0x31] ++ beBytes 4 (64 + body.length) ++ head ++ body

/-- SNAPSHOT_REGISTER (R600): the first tick after a TAKE; a TAKE with CLEAR_COUNTERS asks for the counters' snapshot at the
tick of the capture. -/
def snapshotRegister (s : State) : State :=
  match s.sheet.pending with
  | none => s
  | some r =>
    if r.reg.isSome || !s.grid.running || decide (s.grid.block ≤ r.got) then s
    else
      let s := { s with sheet := { s.sheet with pending := some { r with reg := some s.grid.block } } }
      if r.clear then evcSnap s else s

/-- SHEET_CAPTURE (R600, R602): the tick that ends block c = k − 1, before any effect of block k. -/
def sheetCapture (s : State) : State :=
  match s.sheet.pending with
  | none => s
  | some r =>
    if r.reg.isNone || !s.grid.running then s
    else
      let s := blockEnd s
      let k := s.grid.block + 1
      let l := sheetBytes s
      let s := { s with sheet := ⟨true, l, k, r.clear, none⟩ }
      let g := s.grid
      let s := raiseTick 0x8D 0 { s with grid := { g with block := k }, ev := { s.ev with atTick := 0 } }
      reply r.reply 0 (beBytes 8 k ++ beBytes 4 l.length ++ [0, 0, 0, 0]) { s with grid := g }

end Sys2Proof.Machine
end

