-- ==== Sys2Proof/Machine/MemoryRows.lean ====
section
/-!
DEFINITION. The commands of DRAM and on-chip SRAM (chapter 14): refresh, temperature, parity alerts, error correction, scrubbing.
-/
namespace Sys2Proof.Machine

/-- A channel changed once it is trained and while it has not failed. -/
def onChannel (i : Nat) (f : Channel → Channel) (s : State) : State :=
  let c := chanGet i s
  if c.trained && !c.dead then chanSet i (f c) s else s

/-- REFRESH_DUE (R490, R491, R493): `waiting` says that the rank has reads or writes waiting, `off` gives the centre less the
sample point by byte lane; sample points are tracked while audio runs. -/
def refreshRow (i rank : Nat) (waiting : Bool) (off : List Int) (s : State) : State :=
  if s.mem.ranks ≤ rank then s
  else onChannel i (refreshDue rank waiting (if s.grid.running then off else [])) s

/-- ZQ_CALIBRATION (R490): ZQCS to each rank, while audio runs. -/
def zqCalibration (i : Nat) (s : State) : State :=
  if !s.grid.running then s
  else onChannel i (fun c => (List.range s.mem.ranks).foldl (fun c _ => pushRetry 1 c) c) s

/-- PARITY_ALERT (R496, R497): `again` says that the command of the latest replay failed again; its third consecutive failure
in a replay fails the channel. -/
def parityAlert (i : Nat) (again : Bool) (s : State) : State :=
  let s := onChannel i (fun c => { c with alert := true, streak := if again then c.streak + 1 else 0 }) s
  if 3 ≤ (chanGet i s).streak then channelFail i s else s

/-- ALERT_N_RETURN (R496): the retry buffer is replayed in its order, and stays as it is. -/
def alertReturn (i : Nat) (s : State) : State :=
  let c := chanGet i s
  if !c.alert || c.dead then s
  else raise 0x7B i (count 0x10120044 0 1 (chanSet i { c with alert := false } s))

/-- ALERT_TIMEOUT (R497). -/
def alertTimeout (i : Nat) (s : State) : State := if (chanGet i s).alert then channelFail i s else s

/-- Outcome of a read and of its repetition (R498, R499): 0 clean, 1 correctable, 2 uncorrectable. -/
def badTwice (first second : Nat) : Bool := decide (first = 2) && decide (second = 2)

/-- A read or write command enters its channel's retry buffer (R496). -/
def noteCommand (addr code : Nat) (s : State) : State := onChannel (channelOf addr) (pushRetry code) s

/-- DRAM_READ_COMPLETE (R498, R499, R502): a word read on a QoS port at a SAFE time. -/
def dramReadComplete (addr port first second safe : Nat) (s : State) : State :=
  let s := noteCommand addr 2 (setSafe safe s)
  if isPoisoned s addr || badTwice first second then
    burstCheck (deliverPoison addr port s.clk.safe (if badTwice first second then markPoison addr s else s))
  else
    let s := if first = 1 || first = 2 then correctRead addr s else s
    if first = 2 && second = 1 then correctRead addr s else s

/-- ECC_WRITE_BACK (R498): the corrected word is written back. -/
def eccWriteBack (addr : Nat) (s : State) : State :=
  let s := noteCommand addr 3 s
  { s with mem := { s.mem with writeBack := s.mem.writeBack.filter (· ≠ addr / 8) } }

/-- An uncorrectable word of an SRAM array keeps its error until it is written: a word of a core's data memory is marked
(R269). -/
def scrubMark (array word : Nat) (s : State) : State :=
  match (List.range 128).find? (fun i => decide (Config.sramArray i = array)) with
  | some i => coreMark (i / 2) (decide (i % 2 = 1)) (word % 8192) s
  | none => s

/-- SCRUB_READ (R506, R507): a word of an SRAM array; `last` says that it ends a pass. -/
def scrubRead (array word first second : Nat) (last : Bool) (safe : Nat) (s : State) : State :=
  let s := setSafe safe s
  let s := if badTwice first second then burstCheck (scrubMark array word (sramPoison array word s.clk.safe s))
    else if first = 1 || first = 2 then count 0x10120048 0 1 s else s
  if last then { s with mem := { s.mem with sramPasses := s.mem.sramPasses + 1 } } else s

/-- DRAM byte address of byte `x` of channel `c`. -/
def channelAddr (c x : Nat) : Nat := x / 256 * 512 + c * 256 + x % 256

/-- DRAM_SCRUB_READ (R508): the next line of both channels on port 7. `errs` lists the words with errors: channel × 8 + word,
outcome of the read, outcome of its repetition. -/
def dramScrubRead (errs : List (Nat × Nat × Nat)) (safe : Nat) (s : State) : State :=
  if !(s.mem.ch0.trained && s.mem.ch1.trained) then s
  else
    let line := s.mem.scrubLine
    let s := errs.foldl (fun s e =>
      dramReadComplete (channelAddr (e.1 / 8 % 2) (64 * line + 8 * (e.1 % 8))) 7 e.2.1 e.2.2 safe s) (setSafe safe s)
    if channelBytes s ≤ 64 * (line + 1) then
      { s with mem := { s.mem with scrubLine := 0, dramPasses := s.mem.dramPasses + 1 } }
    else { s with mem := { s.mem with scrubLine := line + 1 } }

/-- An access of the DRAM window at 0x8000_0000 + x (R514). -/
def windowAccess (master x : Nat) (write : Bool) (bytes n : Nat) (values : List Nat) (s : State) : State :=
  let a := 0x80000000 + x % 2 ^ 31
  if write then busWrites master a bytes values s else busReads master a bytes n s

end Sys2Proof.Machine
end

