-- ==== Sys2Proof/Machine/Tick.lean ====
section
/-!
DEFINITION. The block tick and the sub-block boundary (R22 to R26, R244): what they hold within themselves
(95_what_each_step_holds.md). Delay lists, requests and twin actions of a tick are commands of their own, which follow in the
queue in the order of R244.
-/
namespace Sys2Proof.Machine

/-- Samples that no section, transmit packet, hash or capture can reach any more leave the stores (the model's own: the
hardware's rings and lanes overwrite them). -/
def pruneSamples (s : State) : State :=
  let e : Int := s.B * s.grid.block
  let near := fun (m : Sparse Int) => smpPrune (e - 64 * s.B) m
  let p := s.smp
  { s with smp := { p with
    lane := near p.lane, bus := near p.bus, trim := near p.trim, out := near p.out, dac := near p.dac, wait := near p.wait
    dyn := smpPrune (e - 100000 - 64 * s.B) p.dyn, align := smpPrune (e - 36864 - 64 * s.B) p.align } }

/-- The block number advances (R24, R26): the new block begins with its conditions met, at sub-block 0. Records raised for this
tick before it keep their place in the tick's order (R593). -/
def gridAdvance (s : State) : State :=
  let n := s.grid.block + 1
  let tick := (s.ev.log.reverse.takeWhile (fun r => decide (r.block = n))).length
  { s with
    grid := { s.grid with block := n, sub := 0, prevMet := s.grid.met, met := true }
    ev := { s.ev with once := [], atTick := tick }
    evc := { s.evc with ended := false } }

/-- ADC samples of the sub-block that ended at the boundary of the current period arrive and are shared (R328, R453). -/
def adcBoundary (l : List AdcIn) (s : State) : State :=
  let q := period s
  if q = 0 then s
  else adcShare (q - 1) (adcArrive q l (adcKeeps (q - 1) s) s)

/-- The media clock at a tick: phase error, the servo's word, and the clock fault of R413. -/
def mediaStep (s : State) : State :=
  let (fault, s) := mediaTick s
  let s := mediaServo s
  if fault then mediaFault s else s

/-- The tick that starts audio is a block tick: its own work on the first block (R55, R375, R408, R412, R439, R595). The media
clock has just been aligned (R414), so no run of phase errors stands. -/
def firstTick (s : State) : State :=
  let s := eventDelivery { s with ev := { s.ev with once := [], atTick := 0 }, time := { s.time with mediaRun := 0 } }
  let s := mediaServo (mediaTick (lockTick (netTick s.grid.block s))).2
  serialTick (tickFrames (tickView s) s)

/-- AUDIO_START (R550): the grid starts, and its first tick does its work. -/
def startAudio (s : State) : State :=
  let t := audioStart s
  if s.grid.running || !t.grid.running then t else firstTick t

/-- BLOCK_TICK (R24): the block that ends hands over what came due in it and releases or abandons its instances (R253). -/
def blockTick (env : TickEnv) (s : State) : State :=
  if !s.grid.running then s
  else
    let s := blockEnd (closeBlock (setSafe env.safe s))
    let lapsed := !s.grid.met
    let s := evcOccur 0x101 1 (evcOccur 0x100 1 (gridAdvance (timeAdvance env.cycles s)))
    let n := s.grid.block
    let s := eventDelivery s
    let s := lockTick (slotTick (netTick n s))
    let s := healthTick (twinTick (mediaStep s))
    let s := tickFrames (tickView s) s
    let s := hashSeal s
    let s := if lapsed then planLapse s else s
    let s := schedTick (matrixTick n (serialTick s))
    let s := adcTrim (adcBoundary env.adc s)
    pruneSamples (analogSub (period s) (analogTick env.pvdd s))

/-- SUB_BLOCK_BOUNDARY (R244) of sub-blocks 1 to 3: `cycles` TIME cycles after the advance before. -/
def subBlock (cycles : Nat) (adc : List AdcIn) (s : State) : State :=
  if !s.grid.running || decide (3 ≤ s.grid.sub) then s
  else
    let s := closePeriod s
    let s := timeAdvance cycles { s with grid := { s.grid with sub := s.grid.sub + 1 } }
    let s := adcBoundary adc (evcOccur 0x101 1 s)
    analogSub (period s) s

end Sys2Proof.Machine
end

