-- ==== Sys2Proof/Machine/Commands.lean ====
section
/-!
DEFINITION. What the meanings of several commands share: instances named by operands, bytes received, frames of the twin link,
and register accesses that a row of its own names.
-/
namespace Sys2Proof.Machine

/-- The command acts on numbered instances: what each is, its number, how many there are. -/
def withInstances : List (String × Nat × Nat) → State → Host.Outcome State Fault Refusal
  | [], t => .next t
  | (what, i, n) :: r, t => if i < n then withInstances r t else .fault (.noSuchInstance what i)

/-- Bytes received, as numbers. -/
def bytesOf (l : List Byte) : List Nat := l.map BitVec.toNat

/-- A frame of a type received on the twin link: its payload, where it is taken, has its effect (R303, R304). -/
def onFrame (type : Nat) (frame : List Byte) (f : List Nat → State → State) (s : State) : State :=
  let (p, s) := linkReceive type none (bytesOf frame) s
  match p with
  | some p => f p s
  | none => s

/-- A CONTROL message of a code received on the twin link (R304). -/
def onControl (code : Nat) (frame : List Byte) (f : List Nat → State → State) (s : State) : State :=
  let (b, s) := controlReceive code (bytesOf frame) s
  match b with
  | some b => f b s
  | none => s

/-- TAKEBACK_REFUSED (R343): the hold-off of the home unit starts anew. -/
def takebackRefused (s : State) : State := { s with twin := { s.twin with latentAt := s.grid.block } }

/-- LATCHED_READ (R537): the low word of a wide register, or a word that its read latches. -/
def latchedRead (master addr : Nat) (s : State) : State :=
  if lowWords.contains addr || isLatched addr || addr = 0x10060028 || addr = 0x1006002C then busRead master addr s else s

/-- COUNTER_READ_CLEAR (R17). -/
def counterRead (master addr : Nat) (s : State) : State := if accOf addr = .rc then busRead master addr s else s

/-- W1C_WRITE (R17). -/
def w1cRow (master addr value : Nat) (s : State) : State :=
  if accOf addr = .w1c || accOf addr = .mix then busWrite master addr value s else s

/-- FX_REGISTER_WRITE (R153). -/
def fxRow (master addr value : Nat) (s : State) : State :=
  if accOf addr = .fx then busWrite master addr value s else s

end Sys2Proof.Machine
end

