-- ==== Sys2Proof/Machine/AnalogPorts.lean ====
section
/-!
DEFINITION. Meanings of the commands of converters, headset ports and power stages (chapter 13).
-/
namespace Sys2Proof.Machine

/-- COMPLIANCE_CHECK (R465): Once per millisecond each bound DAC is checked for OPEN and OVER. -/
def execComplianceCheck (dac : Nat) (flow : Bool) (microamps : Nat) (millivolts : Int) (s : State) : Host.Outcome
    State Fault Refusal :=
  withInstance "DAC" dac 8 (dacCheck dac flow microamps millivolts s)

/-- COMPLIANCE_MUTE_END (R465): 100 ms after a compliance condition clears, the DAC output stage resumes. -/
def execComplianceMuteEnd (dac : Nat) (s : State) : Host.Outcome State Fault Refusal :=
  withInstance "DAC" dac 8 (dacMuteEnd dac s)

/-- MIC_MEASURE (R466): Once per millisecond the headset port measures R_mic. -/
def execMicMeasure (port : Nat) (ohms : Nat) (s : State) : Host.Outcome State Fault Refusal :=
  withInstance "headset port" port 2 (hsMeasure port ohms s)

/-- HS_DET_CHANGE (R467): HSn_DET changes between plug and no plug. -/
def execHsDetChange (port : Nat) (plug : Bool) (s : State) : Host.Outcome State Fault Refusal :=
  withInstance "headset port" port 2 (hsDet port plug s)

/-- HS_INSERT_CONFIRM (R467): HSn_DET has shown a plug for 100 ms and an insertion is confirmed. -/
def execHsInsertConfirm (port : Nat) (s : State) : Host.Outcome State Fault Refusal :=
  withInstance "headset port" port 2 (hsInsert port s)

/-- HS_REMOVE_CONFIRM (R467): HSn_DET has shown no plug for 10 ms and a removal is confirmed. -/
def execHsRemoveConfirm (port : Nat) (s : State) : Host.Outcome State Fault Refusal :=
  withInstance "headset port" port 2 (hsRemove port s)

/-- HS_CLASSIFY_END (R467): The 50 ms classification after insertion ends and the accessory type is set. -/
def execHsClassifyEnd (port : Nat) (s : State) : Host.Outcome State Fault Refusal :=
  withInstance "headset port" port 2 (hsClassify port s)

/-- HS_BUTTON_FADE (R470): With MUTE_ON_BUTTON, at the tick after a press or release the ADC lane fades out or in. -/
def execHsButtonFade (port : Nat) (s : State) : Host.Outcome State Fault Refusal :=
  withInstance "headset port" port 2 (hsFade port s)

/-- HS_OUTPUT_RESUME (R471): At the first tick after a confirmed insertion the headphone DAC output resumes. -/
def execHsOutputResume (port : Nat) (s : State) : Host.Outcome State Fault Refusal :=
  withInstance "headset port" port 2 (hsResume port s)

/-- AMP_CURRENT_LIMIT (R476): The current limit cuts a PWM pulse short and the consecutive limited-cycle count advances.
-/
def execAmpCurrentLimit (amp : Nat) (previous : Bool) (s : State) : Host.Outcome State Fault Refusal :=
  withInstance "power stage" amp 2 (ampLimit amp previous s)

/-- AMP_RETRY_WAIT_END (R477): The 100 ms hiccup wait after a trip ends. -/
def execAmpRetryWaitEnd (amp : Nat) (s : State) : Host.Outcome State Fault Refusal :=
  withInstance "power stage" amp 2 (ampWaitEnd amp s)

/-- AMP_RESUME (R477): At the next tick the class-D channel resumes from 50 % duty. -/
def execAmpResume (amp : Nat) (s : State) : Host.Outcome State Fault Refusal :=
  withInstance "power stage" amp 2 (ampResume amp s)

/-- AMP_CLEAN_SECOND (R477): A channel runs 1.0 s without a trip and its try count returns to 0. -/
def execAmpCleanSecond (amp : Nat) (s : State) : Host.Outcome State Fault Refusal :=
  withInstance "power stage" amp 2 (ampClean amp s)

/-- AMP_DC_WINDOW (R478): A 50 ms window of the differential output average ends; two windows above 2.0 V latch the
channel. -/
def execAmpDcWindow (amp : Nat) (millivolts : Int) (s : State) : Host.Outcome State Fault Refusal :=
  withInstance "power stage" amp 2 (ampDc amp millivolts s)

/-- AMP_CLEAR (R479): AMP.CMD.CLEAR resets the try count and resumes a latched channel at the next tick. -/
def execAmpClear (master : Nat) (s : State) : Host.Outcome State Fault Refusal :=
  withInstance "master" master 5 (busWrite master 0x10100010 1 s)

/-- PVDD_LOW (R627): PVDD falls below 11.0 V and both class-D channels go to high impedance. -/
def execPvddLow (s : State) : Host.Outcome State Fault Refusal :=
  .next (pvddFall s)

/-- PVDD_RECOVER (R627): PVDD has stayed above 11.5 V for 10 ms and the channels resume at the next tick. -/
def execPvddRecover (s : State) : Host.Outcome State Fault Refusal :=
  .next (pvddRise s)

end Sys2Proof.Machine
end

