-- ==== Sys2Proof/Machine/Effects.lean ====
section
/-!
DEFINITION. Meanings of the commands of the effect cores (chapter 08).
-/
namespace Sys2Proof.Machine

/-- NOP (R276): Compute operation NOP issues with no effect beyond its move slots. -/
def execNop (core : Nat) (env : EcEnv) (s : State) : Host.Outcome State Fault Refusal :=
  withInstance "effect core" core 64 (issueRow (isCompute 0x00) core env s)

/-- ADD (R279): Compute operation ADD adds two d registers, saturating when S is set. -/
def execAdd (core : Nat) (env : EcEnv) (s : State) : Host.Outcome State Fault Refusal :=
  withInstance "effect core" core 64 (issueRow (isCompute 0x01) core env s)

/-- SUB (R279): Compute operation SUB subtracts two d registers, saturating when S is set. -/
def execSub (core : Nat) (env : EcEnv) (s : State) : Host.Outcome State Fault Refusal :=
  withInstance "effect core" core 64 (issueRow (isCompute 0x02) core env s)

/-- ADDI (R279): Compute operation ADDI adds a signed immediate to a d register. -/
def execAddi (core : Nat) (env : EcEnv) (s : State) : Host.Outcome State Fault Refusal :=
  withInstance "effect core" core 64 (issueRow (isCompute 0x03) core env s)

/-- AND (R273): Compute operation AND forms the bitwise and of two d registers. -/
def execAnd (core : Nat) (env : EcEnv) (s : State) : Host.Outcome State Fault Refusal :=
  withInstance "effect core" core 64 (issueRow (isCompute 0x04) core env s)

/-- OR (R273): Compute operation OR forms the bitwise or of two d registers. -/
def execOr (core : Nat) (env : EcEnv) (s : State) : Host.Outcome State Fault Refusal :=
  withInstance "effect core" core 64 (issueRow (isCompute 0x05) core env s)

/-- XOR (R273): Compute operation XOR forms the bitwise exclusive or of two d registers. -/
def execXor (core : Nat) (env : EcEnv) (s : State) : Host.Outcome State Fault Refusal :=
  withInstance "effect core" core 64 (issueRow (isCompute 0x06) core env s)

/-- ASR (R273): Compute operation ASR shifts a d register right arithmetically, truncating. -/
def execAsr (core : Nat) (env : EcEnv) (s : State) : Host.Outcome State Fault Refusal :=
  withInstance "effect core" core 64 (issueRow (isCompute 0x07) core env s)

/-- LSL (R279): Compute operation LSL shifts a d register left, saturating when S is set. -/
def execLsl (core : Nat) (env : EcEnv) (s : State) : Host.Outcome State Fault Refusal :=
  withInstance "effect core" core 64 (issueRow (isCompute 0x08) core env s)

/-- LSR (R273): Compute operation LSR shifts a d register right logically. -/
def execLsr (core : Nat) (env : EcEnv) (s : State) : Host.Outcome State Fault Refusal :=
  withInstance "effect core" core 64 (issueRow (isCompute 0x09) core env s)

/-- ABS (R279): Compute operation ABS takes the magnitude of a d register. -/
def execAbs (core : Nat) (env : EcEnv) (s : State) : Host.Outcome State Fault Refusal :=
  withInstance "effect core" core 64 (issueRow (isCompute 0x0A) core env s)

/-- NEG (R279): Compute operation NEG negates a d register. -/
def execNeg (core : Nat) (env : EcEnv) (s : State) : Host.Outcome State Fault Refusal :=
  withInstance "effect core" core 64 (issueRow (isCompute 0x0B) core env s)

/-- MIN (R273): Compute operation MIN takes the signed minimum of two d registers. -/
def execMin (core : Nat) (env : EcEnv) (s : State) : Host.Outcome State Fault Refusal :=
  withInstance "effect core" core 64 (issueRow (isCompute 0x0C) core env s)

/-- MAX (R273): Compute operation MAX takes the signed maximum of two d registers. -/
def execMax (core : Nat) (env : EcEnv) (s : State) : Host.Outcome State Fault Refusal :=
  withInstance "effect core" core 64 (issueRow (isCompute 0x0D) core env s)

/-- CMP (R273): Compute operation CMP sets sr.EQ and sr.LT from two d registers. -/
def execCmp (core : Nat) (env : EcEnv) (s : State) : Host.Outcome State Fault Refusal :=
  withInstance "effect core" core 64 (issueRow (isCompute 0x0E) core env s)

/-- MOV (R273): Compute operation MOV copies a d register. -/
def execMov (core : Nat) (env : EcEnv) (s : State) : Host.Outcome State Fault Refusal :=
  withInstance "effect core" core 64 (issueRow (isCompute 0x0F) core env s)

/-- MUL (R279): Compute operation MUL writes the exact product of two d registers to an accumulator. -/
def execMul (core : Nat) (env : EcEnv) (s : State) : Host.Outcome State Fault Refusal :=
  withInstance "effect core" core 64 (issueRow (isCompute 0x10) core env s)

/-- MAC (R279): Compute operation MAC adds the product of two d registers to an accumulator. -/
def execMac (core : Nat) (env : EcEnv) (s : State) : Host.Outcome State Fault Refusal :=
  withInstance "effect core" core 64 (issueRow (isCompute 0x11) core env s)

/-- MSU (R279): Compute operation MSU subtracts the product of two d registers from an accumulator. -/
def execMsu (core : Nat) (env : EcEnv) (s : State) : Host.Outcome State Fault Refusal :=
  withInstance "effect core" core 64 (issueRow (isCompute 0x12) core env s)

/-- CLRA (R273): Compute operation CLRA clears an accumulator. -/
def execClra (core : Nat) (env : EcEnv) (s : State) : Host.Outcome State Fault Refusal :=
  withInstance "effect core" core 64 (issueRow (isCompute 0x13) core env s)

/-- ADDA (R279): Compute operation ADDA adds one accumulator to another. -/
def execAdda (core : Nat) (env : EcEnv) (s : State) : Host.Outcome State Fault Refusal :=
  withInstance "effect core" core 64 (issueRow (isCompute 0x14) core env s)

/-- SHA (R280): Compute operation SHA shifts an accumulator left, or right with half-up rounding. -/
def execSha (core : Nat) (env : EcEnv) (s : State) : Host.Outcome State Fault Refusal :=
  withInstance "effect core" core 64 (issueRow (isCompute 0x15) core env s)

/-- RND (R280): Compute operation RND stores an accumulator into a d register rounded half-up by k bits. -/
def execRnd (core : Nat) (env : EcEnv) (s : State) : Host.Outcome State Fault Refusal :=
  withInstance "effect core" core 64 (issueRow (isCompute 0x16) core env s)

/-- LDA (R273): Compute operation LDA loads an accumulator from a sign-extended, shifted d register. -/
def execLda (core : Nat) (env : EcEnv) (s : State) : Host.Outcome State Fault Refusal :=
  withInstance "effect core" core 64 (issueRow (isCompute 0x17) core env s)

/-- MAXS (R274): Compute operation MAXS keeps a running maximum and its index. -/
def execMaxs (core : Nat) (env : EcEnv) (s : State) : Host.Outcome State Fault Refusal :=
  withInstance "effect core" core 64 (issueRow (isCompute 0x18) core env s)

/-- MINS (R274): Compute operation MINS keeps a running minimum and its index. -/
def execMins (core : Nat) (env : EcEnv) (s : State) : Host.Outcome State Fault Refusal :=
  withInstance "effect core" core 64 (issueRow (isCompute 0x19) core env s)

/-- MAXAS (R274): Compute operation MAXAS keeps a running maximum magnitude and its index. -/
def execMaxas (core : Nat) (env : EcEnv) (s : State) : Host.Outcome State Fault Refusal :=
  withInstance "effect core" core 64 (issueRow (isCompute 0x1A) core env s)

/-- MOVC (R270): Compute operation MOVC reads a control register into a d register. -/
def execMovc (core : Nat) (env : EcEnv) (s : State) : Host.Outcome State Fault Refusal :=
  withInstance "effect core" core 64 (issueRow (isCompute 0x1B) core env s)

/-- MOVTC (R270): Compute operation MOVTC writes a d register to a control register. -/
def execMovtc (core : Nat) (env : EcEnv) (s : State) : Host.Outcome State Fault Refusal :=
  withInstance "effect core" core 64 (issueRow (isCompute 0x1C) core env s)

/-- LDI (R270): A format-B bundle writes its 32-bit immediate to the named register. -/
def execLdi (core : Nat) (env : EcEnv) (s : State) : Host.Outcome State Fault Refusal :=
  withInstance "effect core" core 64 (issueRow isLdi core env s)

/-- CNOP (R275): Control operation CNOP issues with no control effect. -/
def execCnop (core : Nat) (env : EcEnv) (s : State) : Host.Outcome State Fault Refusal :=
  withInstance "effect core" core 64 (issueRow (isControl 0x00) core env s)

/-- BR (R275): Control operation BR continues at TARGET when COND holds, after two delay slots. -/
def execBr (core : Nat) (env : EcEnv) (s : State) : Host.Outcome State Fault Refusal :=
  withInstance "effect core" core 64 (issueRow (isControl 0x01) core env s)

/-- CALL (R275): Control operation CALL sets lr and continues at TARGET when COND holds, after two delay slots. -/
def execCall (core : Nat) (env : EcEnv) (s : State) : Host.Outcome State Fault Refusal :=
  withInstance "effect core" core 64 (issueRow (isControl 0x02) core env s)

/-- RET (R275): Control operation RET continues at lr when COND holds, after two delay slots. -/
def execRet (core : Nat) (env : EcEnv) (s : State) : Host.Outcome State Fault Refusal :=
  withInstance "effect core" core 64 (issueRow (isControl 0x03) core env s)

/-- LOOP (R275): Control operation LOOP starts a hardware loop at a level for d[REG] iterations. -/
def execLoop (core : Nat) (env : EcEnv) (s : State) : Host.Outcome State Fault Refusal :=
  withInstance "effect core" core 64 (issueRow (isControl 0x04) core env s)

/-- LBRK (R275): Control operation LBRK ends the loop at the named level. -/
def execLbrk (core : Nat) (env : EcEnv) (s : State) : Host.Outcome State Fault Refusal :=
  withInstance "effect core" core 64 (issueRow (isControl 0x05) core env s)

/-- BMOV (R282): Control operation BMOV starts a block move, stalling at a fifth outstanding move. -/
def execBmov (core : Nat) (env : EcEnv) (s : State) : Host.Outcome State Fault Refusal :=
  withInstance "effect core" core 64 (issueRow (isControl 0x06) core env s)

/-- WAITM (R278): Control operation WAITM stalls until every block move of the instance has completed. -/
def execWaitm (core : Nat) (env : EcEnv) (s : State) : Host.Outcome State Fault Refusal :=
  withInstance "effect core" core 64 (issueRow (isControl 0x07) core env s)

/-- DONE (R291): Control operation DONE ends the instance after its delay slots, writes and block moves. -/
def execDone (core : Nat) (env : EcEnv) (s : State) : Host.Outcome State Fault Refusal :=
  withInstance "effect core" core 64 (issueRow (isControl 0x08) core env s)

/-- BLOCK_MOVE_COMPLETE (R284): A block move completes, releasing any interlocked load or store and any WAITM stall. -/
def execBlockMoveComplete (core : Nat) (bank : Nat) (index : Nat) (s : State) : Host.Outcome State Fault Refusal :=
  withInstances [("effect core", core, 64), ("context bank", bank, 3)] (moveDone core bank index s)

end Sys2Proof.Machine
end

