-- ==== Sys2Proof/Machine/Flash.lean ====
section
/-!
DEFINITION. Meanings of the commands of the NVM controller (chapter 16).
-/
namespace Sys2Proof.Machine

/-- NVM_ERASE (R571): NVM.CMD OP 0b01 erases the 4 KiB sector holding PAGE, or is refused. -/
def execNvmErase (master : Nat) (page : BitVec 20) (s : State) : Host.Outcome State Fault Refusal :=
  withInstance "master" master 5 (busWrite master 0x10130048 (1 + page.toNat * 256) s)

/-- NVM_PROGRAM (R571): NVM.CMD OP 0b10 programs the page buffer to PAGE, or is refused. -/
def execNvmProgram (master : Nat) (page : BitVec 20) (s : State) : Host.Outcome State Fault Refusal :=
  withInstance "master" master 5 (busWrite master 0x10130048 (2 + page.toNat * 256) s)

/-- NVM_CHECK (R572): NVM.CMD OP 0b11 starts a CHECK of the copy holding PAGE. -/
def execNvmCheck (master : Nat) (page : BitVec 20) (s : State) : Host.Outcome State Fault Refusal :=
  withInstance "master" master 5 (busWrite master 0x10130048 (3 + page.toNat * 256) s)

/-- NVM_OP_DONE (R572): A flash erase, program or CHECK completes and BUSY, FAIL and CHECK results are set. -/
def execNvmOpDone (fail : Bool) (s : State) : Host.Outcome State Fault Refusal :=
  .next (nvmOpDone fail s)

/-- NVM_DATA_WRITE (R571): A write of NVM.DATA stores the word in the page buffer and adds 4 to NVM.ADDR. -/
def execNvmDataWrite (master : Nat) (value : Word) (s : State) : Host.Outcome State Fault Refusal :=
  withInstance "master" master 5 (busWrite master 0x10130044 value.toNat s)

/-- NVM_DATA_READ (R572): A read of NVM.DATA returns the flash word, or 0 where the control-message engine may not read,
and adds 4. -/
def execNvmDataRead (master : Nat) (s : State) : Host.Outcome State Fault Refusal :=
  withInstance "master" master 5 (busRead master 0x10130044 s)

/-- FAULT_LOG_WRITE (R575): The supervisor writes a fault-log entry within its rate, erasing a sector first when needed.
-/
def execFaultLogWrite (safe : Nat) (s : State) : Host.Outcome State Fault Refusal :=
  .next (faultLogWrite safe s)

end Sys2Proof.Machine
end

