-- ==== Sys2Proof/Machine/Grid.lean ====
section
/-!
DEFINITION. Meanings of the commands of the block grid (chapter 01).
-/
namespace Sys2Proof.Machine

/-- BLOCK_TICK (R24): The media clock reaches the tick of the next block; the block number advances by one and the delay
lists, merges and tick-bound actions run. -/
def execBlockTick (env : TickEnv) (s : State) : Host.Outcome State Fault Refusal :=
  .next (blockTick env s)

/-- SUB_BLOCK_BOUNDARY (R244): A sub-block boundary passes and the delay-list entries keyed to it are handed to their
owners. -/
def execSubBlockBoundary (cycles : Nat) (adc : List AdcIn) (s : State) : Host.Outcome State Fault Refusal :=
  .next (subBlock cycles adc s)

end Sys2Proof.Machine
end

