-- ==== Sys2Proof/Machine/Linking.lean ====
section
/-!
DEFINITION. Meanings of the commands of the twin link (chapter 09).
-/
namespace Sys2Proof.Machine

/-- TWIN_LINK_UP (R301): Both twin-link lanes have received 1,024 valid characters and are deskewed, so the link is up.
-/
def execTwinLinkUp (s : State) : Host.Outcome State Fault Refusal :=
  .next (linkSide true true true s)

/-- TWIN_LINK_DOWN (R301): Eight consecutive code errors or loss of signal bring the twin link down. -/
def execTwinLinkDown (lane0 : Bool) (lane1 : Bool) (s : State) : Host.Outcome State Fault Refusal :=
  .next (linkSide false lane0 lane1 s)

/-- LINK_LOSS_RESYNC (R334): At the first tick after link loss a non-divergent LATENT unit goes to RESYNC and stops
emitting. -/
def execLinkLossResync (s : State) : Host.Outcome State Fault Refusal :=
  .next (linkLossTick s)

/-- LINK_RESEND_TIMEOUT (R303): A reliable frame goes 50 us without acknowledgement and is resent go-back-N. -/
def execLinkResendTimeout (s : State) : Host.Outcome State Fault Refusal :=
  .next (resendTimeout s)

/-- LEASE_FRAME (R314): A LEASE frame is received on the twin link; a valid renewal resets the lease count. -/
def execLeaseFrame (frame : List Byte) (safe : Nat) (s : State) : Host.Outcome State Fault Refusal :=
  .next (leaseReceive (bytesOf frame) safe s)

/-- ADC_SUB_FRAME (R328): A forwarded sub-block of the holder's ADC samples is received. -/
def execAdcSubFrame (frame : List Byte) (s : State) : Host.Outcome State Fault Refusal :=
  .next (onFrame 0x02 frame adcReceive s)

/-- SLICE_FRAME (R337): A slice part of recursive state is received from the holder. -/
def execSliceFrame (frame : List Byte) (s : State) : Host.Outcome State Fault Refusal :=
  .next (onFrame 0x03 frame sliceReceive s)

/-- HASH_FRAME (R332): A HASH frame is received and a block with both hash frames is compared. -/
def execHashFrame (frame : List Byte) (s : State) : Host.Outcome State Fault Refusal :=
  .next (onFrame 0x10 frame hashReceive s)

/-- STAGE_MIRROR_FRAME (R325): Mirror entries of the holder's staged writes are received and added to the mirrored set.
-/
def execStageMirrorFrame (frame : List Byte) (s : State) : Host.Outcome State Fault Refusal :=
  .next (onFrame 0x11 frame mirrorReceive s)

/-- FIX_SEAL_FRAME (R325): A fix seal is received and checked against the mirrored set; a match registers the fix, a
mismatch puts the unit in SUSPECT. -/
def execFixSealFrame (frame : List Byte) (firstHalf : Bool) (s : State) : Host.Outcome State Fault Refusal :=
  .next (onFrame 0x12 frame (fun p t => sealReceive p firstHalf t) s)

/-- REQ_RELAY_FRAME (R327): A relayed request, alignment or slip is received and entered at its boundary, late ones with
a lapse. -/
def execReqRelayFrame (frame : List Byte) (s : State) : Host.Outcome State Fault Refusal :=
  .next (onFrame 0x13 frame relayReceive s)

/-- HEALTH_FRAME (R344): The partner's health record is received and stored in TWIN.PEER_HEALTH. -/
def execHealthFrame (frame : List Byte) (s : State) : Host.Outcome State Fault Refusal :=
  .next (onFrame 0x14 frame healthReceive s)

/-- BULK_PIECE_FRAME (R335): A closed-form state piece with its capture block is received and assembled. -/
def execBulkPieceFrame (frame : List Byte) (s : State) : Host.Outcome State Fault Refusal :=
  .next (onFrame 0x20 frame pieceReceive s)

/-- NAK_FRAME (R303): A NAK is received and reliable frames from the expected SEQ are resent. -/
def execNakFrame (frame : List Byte) (s : State) : Host.Outcome State Fault Refusal :=
  .next (onFrame 0x3F frame nakReceive s)

/-- HELLO (R308): A CONTROL HELLO is received and the handshake decides roles, compatibility and the first block. -/
def execHello (frame : List Byte) (s : State) : Host.Outcome State Fault Refusal :=
  .next (onControl 0x01 frame helloReceive s)

/-- HELLO_REPLY (R550): A CONTROL HELLO_REPLY is received, naming the join block for a joining unit. -/
def execHelloReply (frame : List Byte) (s : State) : Host.Outcome State Fault Refusal :=
  .next (onControl 0x02 frame helloReply s)

/-- HANDOVER (R320): A CONTROL HANDOVER naming h is received and acknowledged by the partner. -/
def execHandover (frame : List Byte) (s : State) : Host.Outcome State Fault Refusal :=
  .next (onControl 0x03 frame handoverReceive s)

/-- HANDOVER_ACK (R320): A CONTROL HANDOVER_ACK is received by the acting unit. -/
def execHandoverAck (frame : List Byte) (s : State) : Host.Outcome State Fault Refusal :=
  .next (onControl 0x04 frame handoverAck s)

/-- RELEASE (R317): A CONTROL RELEASE is received; the partner begins to act at the named block. -/
def execRelease (frame : List Byte) (s : State) : Host.Outcome State Fault Refusal :=
  .next (onControl 0x05 frame releaseReceive s)

/-- TAKEBACK (R343): A CONTROL TAKEBACK is received; the holder answers with a hand-over at c+8 or refuses. -/
def execTakeback (frame : List Byte) (s : State) : Host.Outcome State Fault Refusal :=
  .next (onControl 0x06 frame (fun _ t => takebackReceive t) s)

/-- TAKEBACK_REFUSED (R343): A CONTROL TAKEBACK_REFUSED is received by the home unit. -/
def execTakebackRefused (frame : List Byte) (s : State) : Host.Outcome State Fault Refusal :=
  .next (onControl 0x07 frame (fun _ t => takebackRefused t) s)

/-- EMIT (R324): A CONTROL EMIT is received, naming a block from which emission moves. -/
def execEmit (frame : List Byte) (s : State) : Host.Outcome State Fault Refusal :=
  .next (onControl 0x08 frame emitReceive s)

/-- RESYNC_REQUEST (R334): A CONTROL RESYNC_REQUEST asks the holder to begin the bulk phase. -/
def execResyncRequest (frame : List Byte) (s : State) : Host.Outcome State Fault Refusal :=
  .next (onControl 0x09 frame (fun _ t => bulkSend t) s)

/-- BULK_END (R335): A CONTROL BULK_END gives the number of pieces sent. -/
def execBulkEnd (frame : List Byte) (s : State) : Host.Outcome State Fault Refusal :=
  .next (onControl 0x0A frame bulkEndReceive s)

/-- DIVERGENT (R346): A CONTROL DIVERGENT message enters or leaves declared-divergent mode. -/
def execDivergent (frame : List Byte) (s : State) : Host.Outcome State Fault Refusal :=
  .next (onControl 0x0B frame divergentReceive s)

end Sys2Proof.Machine
end

