-- ==== Sys2Proof/Machine/Measuring.lean ====
section
/-!
DEFINITION. Meanings of the commands of filters, tone generators, capture and deconvolution (chapter 06).
-/
namespace Sys2Proof.Machine

/-- CROSSFADE_END (R214): A filter crossfade reaches K_x + L and the old slot leaves the chain. -/
def execCrossfadeEnd (chain : Nat) (s : State) : Host.Outcome State Fault Refusal :=
  withInstance "chain" chain 1024 (timerRow (crossfadeEnd chain) s)

/-- TG_START (R221): A tone generator's run starts at its start block with phase 0. -/
def execTgStart (gen : Nat) (s : State) : Host.Outcome State Fault Refusal :=
  withInstance "tone generator" gen 16 (timerRow (toneStart gen) s)

/-- SWEEP_START (R220): The next sweep of a LOG_SWEEP run starts from phase 0 and the initial increment. -/
def execSweepStart (gen : Nat) (s : State) : Host.Outcome State Fault Refusal :=
  withInstance "tone generator" gen 16 (timerRow (sweepStart gen) s)

/-- CAPTURE_START (R226): Capture begins writing frames at frame m0. -/
def execCaptureStart (s : State) : Host.Outcome State Fault Refusal :=
  .next (timerRow captureStart s)

/-- CAPTURE_END (R226): A ONE_SHOT capture has written its last frame and sets DONE. -/
def execCaptureEnd (s : State) : Host.Outcome State Fault Refusal :=
  .next (timerRow captureEnd s)

/-- CONV_LOAD_DATA (R210): A write of CONV.LOAD_DATA stores a word into the selected slot at once, or is dropped for a
slot in use. -/
def execConvLoadData (master : Nat) (value : Word) (s : State) : Host.Outcome State Fault Refusal :=
  withInstance "master" master 5 (busWrite master 0x1009002C value.toNat s)

/-- CONV_LOAD_COMMIT (R211): Writing 1 to CONV.LOAD_COMMIT stages the load of the selected slot into the open staged
set. -/
def execConvLoadCommit (master : Nat) (s : State) : Host.Outcome State Fault Refusal :=
  withInstance "master" master 5 (busWrite master 0x10090030 1 s)

/-- DECONV_GO (R228): Writing 1 to MEAS.DECONV_GO starts the deconvolution job at MEAS.DECONV_DESC. -/
def execDeconvGo (master : Nat) (s : State) : Host.Outcome State Fault Refusal :=
  withInstance "master" master 5 (busWrite master 0x10170098 1 s)

/-- DECONV_JOB_DONE (R228): A deconvolution job finishes and writes its STATUS and SHIFT. -/
def execDeconvJobDone (shift : Nat) (saturated : Bool) (s : State) : Host.Outcome State Fault Refusal :=
  .next (deconvDone shift saturated s)

end Sys2Proof.Machine
end

