-- ==== Sys2Proof/Machine/Memories.lean ====
section
/-!
DEFINITION. Meanings of the commands of DRAM and on-chip memory (chapter 14).
-/
namespace Sys2Proof.Machine

/-- REFRESH_DUE (R491): A rank's refresh interval expires and a refresh is issued or postponed within its limit. -/
def execRefreshDue (channel : Nat) (rank : Nat) (waiting : Bool) (offsets : List Int) (s : State) : Host.Outcome
    State Fault Refusal :=
  withInstances [("DRAM channel", channel, 2), ("rank", rank, 2)] (refreshRow channel rank waiting offsets s)

/-- ZQ_CALIBRATION (R490): Every ZQ_MS milliseconds ZQCS is issued to each rank after a refresh. -/
def execZqCalibration (channel : Nat) (s : State) : Host.Outcome State Fault Refusal :=
  withInstance "DRAM channel" channel 2 (zqCalibration channel s)

/-- DRAM_HOT_CHANGE (R492): DRAM_HOT changes level and the refresh mode is judged again. -/
def execDramHotChange (low : Bool) (s : State) : Host.Outcome State Fault Refusal :=
  .next (hotChange low s)

/-- DRAM_TEMP_READ (R492): Every 100 ms the supervisor reads the I2C temperature sensor and judges the refresh mode. -/
def execDramTempRead (reading : Option Int) (s : State) : Host.Outcome State Fault Refusal :=
  .next (tempRead reading s)

/-- PARITY_ALERT (R496): ALERT_n signals a command parity error and the retry buffer is replayed. -/
def execParityAlert (channel : Nat) (again : Bool) (s : State) : Host.Outcome State Fault Refusal :=
  withInstance "DRAM channel" channel 2 (parityAlert channel again s)

/-- ALERT_TIMEOUT (R497): ALERT_n stays low for more than 10 us and the channel fails. -/
def execAlertTimeout (channel : Nat) (s : State) : Host.Outcome State Fault Refusal :=
  withInstance "DRAM channel" channel 2 (alertTimeout channel s)

/-- DRAM_READ_COMPLETE (R499): A DRAM read returns; single errors are corrected and uncorrectable words are read again
or delivered poisoned. -/
def execDramReadComplete (addr : Nat) (port : Nat) (first : Nat) (second : Nat) (safe : Nat) (s : State) :
    Host.Outcome State Fault Refusal :=
  withInstance "QoS port" port 8 (dramReadComplete addr port first second safe s)

/-- ECC_WRITE_BACK (R498): A corrected DRAM word is written back within 1 ms unless a requester writes it first. -/
def execEccWriteBack (addr : Nat) (s : State) : Host.Outcome State Fault Refusal :=
  .next (eccWriteBack addr s)

/-- SCRUB_READ (R506): The SRAM scrubber reads a word and corrects and writes back a correctable error. -/
def execScrubRead (array : Nat) (word : Nat) (first : Nat) (second : Nat) (last : Bool) (safe : Nat) (s : State) :
    Host.Outcome State Fault Refusal :=
  .next (scrubRead array word first second last safe s)

/-- DRAM_SCRUB_READ (R508): The DRAM scrubber reads one 64-byte line every 256 ns on port 7. -/
def execDramScrubRead (errors : List (Nat × Nat × Nat)) (safe : Nat) (s : State) : Host.Outcome State Fault Refusal
    :=
  .next (dramScrubRead errors safe s)

/-- REMAP_WRITE (R512): A write of SYS.REMAP by SV switches the low window between boot ROM and working SRAM. -/
def execRemapWrite (master : Nat) (value : Word) (s : State) : Host.Outcome State Fault Refusal :=
  withInstance "master" master 5 (busWrite master 0x10000300 value.toNat s)

/-- DRAM_WINDOW_ACCESS (R514): An access at 0x8000_0000 + x reaches DRAM at the master's window base, host-region
limited for the control-message engine. -/
def execDramWindowAccess (master : Nat) (offset : BitVec 31) (write : Bool) (data : WindowData) (s : State) :
    Host.Outcome State Fault Refusal :=
  withInstance "master" master 5
    (windowAccess master offset.toNat write data.bytes data.count (data.values.map BitVec.toNat) s)

/-- ALERT_N_RETURN (R496): ALERT_n returns high after a command parity error, and the controller precharges all banks
and replays the retry buffer. -/
def execAlertNReturn (channel : Nat) (s : State) : Host.Outcome State Fault Refusal :=
  withInstance "DRAM channel" channel 2 (alertReturn channel s)

end Sys2Proof.Machine
end

