-- ==== Sys2Proof/Machine/Messages.lean ====
section
/-!
DEFINITION. Meanings of the commands of control messages, the SPI target port, event counters and the contact sheet
(chapter 17).
-/
namespace Sys2Proof.Machine

/-- TCM_READ (R586): A TCM READ request reads COUNT words and is answered. -/
def execTcmRead (s : State) : Host.Outcome State Fault Refusal :=
  .next (tcmRead s)

/-- TCM_WRITE (R586): A TCM WRITE request writes COUNT words, staging FX writes. -/
def execTcmWrite (s : State) : Host.Outcome State Fault Refusal :=
  .next (tcmWrite s)

/-- TCM_STAGE (R587): A TCM STAGE request appends node words to the open staged set. -/
def execTcmStage (s : State) : Host.Outcome State Fault Refusal :=
  .next (tcmStage s)

/-- TCM_FIX (R588): A TCM FIX request asks for a fix at a named block; its reply follows registration. -/
def execTcmFix (s : State) : Host.Outcome State Fault Refusal :=
  .next (tcmFix s)

/-- TCM_STOP_BATH (R588): A TCM STOP_BATH request asks for a stop bath of a target function. -/
def execTcmStopBath (s : State) : Host.Outcome State Fault Refusal :=
  .next (tcmStop false s)

/-- TCM_START (R588): A TCM START request asks for a START of a target function. -/
def execTcmStart (s : State) : Host.Outcome State Fault Refusal :=
  .next (tcmStop true s)

/-- SNAPSHOT_TAKE (R600): A TCM SNAPSHOT TAKE requests a contact sheet, or gets BUSY. -/
def execSnapshotTake (s : State) : Host.Outcome State Fault Refusal :=
  .next (snapshotTake s)

/-- SNAPSHOT_READ (R601): A TCM SNAPSHOT READ returns bytes of the latest contact sheet. -/
def execSnapshotRead (s : State) : Host.Outcome State Fault Refusal :=
  .next (snapshotRead s)

/-- TCM_HEALTH (R591): A TCM HEALTH request returns the own and partner health records. -/
def execTcmHealth (s : State) : Host.Outcome State Fault Refusal :=
  .next (tcmHealth s)

/-- WRITE_FRAME (R581): An SPI WRITE_FRAME transaction delivers one TCM frame to the SPI input queue. -/
def execWriteFrame (frame : List Byte) (s : State) : Host.Outcome State Fault Refusal :=
  .next (writeFrame (bytesOf frame) s)

/-- READ_FRAME (R581): An SPI READ_FRAME transaction returns the oldest frame of the SPI output queue. -/
def execReadFrame (clocked : Nat) (s : State) : Host.Outcome State Fault Refusal :=
  .next (readFrame clocked s)

/-- SNAPSHOT_REGISTER (R600): At the first tick after a TAKE, the contact sheet is registered for capture at the next
tick. -/
def execSnapshotRegister (s : State) : Host.Outcome State Fault Refusal :=
  .next (snapshotRegister s)

/-- SHEET_CAPTURE (R600): At the tick of k the contact sheet is captured and EV_SHEET_TAKEN is raised. -/
def execSheetCapture (s : State) : Host.Outcome State Fault Refusal :=
  .next (sheetCapture s)

/-- EVC_SRC_WRITE (R598): A write of EVC.SRC sets the selected counter's source and enable and zeroes it. -/
def execEvcSrcWrite (master : Nat) (value : Word) (s : State) : Host.Outcome State Fault Refusal :=
  withInstance "master" master 5 (busWrite master 0x10150004 value.toNat s)

/-- EVC_SNAP (R599): EVC.CMD.SNAP requests a snapshot of all 64 counters at the next tick. -/
def execEvcSnap (master : Nat) (s : State) : Host.Outcome State Fault Refusal :=
  withInstance "master" master 5 (busWrite master 0x10150018 1 s)

/-- EVC_CLEAR_SEL (R598): EVC.CMD.CLEAR_SEL sets the selected counter to 0 at once. -/
def execEvcClearSel (master : Nat) (s : State) : Host.Outcome State Fault Refusal :=
  withInstance "master" master 5 (busWrite master 0x10150018 2 s)

/-- COUNTER_SNAPSHOT (R599): At tick k all counters are copied to their snapshot registers and CLEAR_ON_SNAP counters
are cleared. -/
def execCounterSnapshot (s : State) : Host.Outcome State Fault Refusal :=
  .next (counterSnapshot s)

end Sys2Proof.Machine
end

