-- ==== Sys2Proof/Machine/Networking.lean ====
section
/-!
DEFINITION. Meanings of the commands of the network ports (chapter 10).
-/
namespace Sys2Proof.Machine

/-- FRAME_RECEIVE (R363): A frame on a media port is classified into a queue, admitted under its quota and stored with
its length word. -/
def execFrameReceive (port : Nat) (frame : List Byte) (codeError : Bool) (poison : Bool) (offset : Nat) (stamp :
    Nat) (s : State) : Host.Outcome State Fault Refusal :=
  withInstance "network port" port 5 (frameReceive port (bytesOf frame) codeError poison offset stamp s)

/-- NET_LINK_CHANGE (R350): A port's link goes down or comes up. -/
def execNetLinkChange (port : Nat) (up : Bool) (line : LineIn) (s : State) : Host.Outcome State Fault Refusal :=
  withInstance "network port" port 5 (domLink 1 (domLink 0 (linkChange port up line.fec line.lpi s)))

/-- TX_PACKET_SEND (R385): A transmit packet's due instant passes and it is sent in due order on each emitted leg. -/
def execTxPacketSend (port : Nat) (s : State) : Host.Outcome State Fault Refusal :=
  withInstance "network port" port 5 (txSend port s)

/-- LPI_ENTER (R356): MGMT's transmit path has been idle for LPI_IDLE and signals LPI. -/
def execLpiEnter (s : State) : Host.Outcome State Fault Refusal :=
  .next (lpiEnter s)

/-- LPI_WAKE (R356): A frame queued during LPI is sent once the wake time Tw has passed. -/
def execLpiWake (s : State) : Host.Outcome State Fault Refusal :=
  .next (lpiWake s)

/-- LLDP_FRAME (R356): An LLDP frame arrives on MGMT and the supervisor negotiates the EEE transmit wake time Tw from
its EEE TLV and reports it in NET.EEE. -/
def execLldpFrame (frame : List Byte) (s : State) : Host.Outcome State Fault Refusal :=
  .next (lldpFrame (bytesOf frame) s)

end Sys2Proof.Machine
end

