-- ==== Sys2Proof/Machine/Registers.lean ====
section
/-!
DEFINITION. Meanings of the commands of register accesses (chapters 00 and 18).
-/
namespace Sys2Proof.Machine

/-- LATCHED_READ (R537): A read of the low word of a wide register latches its other words from the same source cycle
into the reading master's latch. -/
def execLatchedRead (master : Nat) (addr : Word) (s : State) : Host.Outcome State Fault Refusal :=
  withInstance "master" master 5 (latchedRead master addr.toNat s)

/-- COUNTER_READ_CLEAR (R17): A read of an RC register returns its value and clears it to its reset value in the same
access. -/
def execCounterReadClear (master : Nat) (addr : Word) (s : State) : Host.Outcome State Fault Refusal :=
  withInstance "master" master 5 (counterRead master addr.toNat s)

/-- W1C_WRITE (R17): A write to a W1C register clears each bit written as 1. -/
def execW1cWrite (master : Nat) (addr : Word) (value : Word) (s : State) : Host.Outcome State Fault Refusal :=
  withInstance "master" master 5 (w1cRow master addr.toNat value.toNat s)

/-- REGISTER_WRITE (R17): A write to a register that has no row of its own takes effect under its access code, with
reserved bits handled under R18. -/
def execRegisterWrite (master : Nat) (addr : Word) (data : WriteData) (s : State) : Host.Outcome State Fault Refusal :=
  withInstance "master" master 5 (busWrites master addr.toNat data.bytes (data.values.map BitVec.toNat) s)

/-- LAY_DATA_READ (R104): A read of PAN.LAY_DATA returns the stored LAYOUT body word and advances PAN.LAY_ADDR by 4. -/
def execLayDataRead (master : Nat) (s : State) : Host.Outcome State Fault Refusal :=
  withInstance "master" master 5 (busRead master 0x10060034 s)

/-- MEM_DATA_READ (R299): A read of EC.MEM_DATA returns the effect-core memory word at EC.MEM_ADDR and advances the
address by 1. -/
def execMemDataRead (master : Nat) (core : Nat) (s : State) : Host.Outcome State Fault Refusal :=
  withInstances [("master", master, 5), ("effect core", core, 64)] (busRead master (ecAddr core 0x44) s)

/-- SHEET_DATA_READ (R601): A read of CTL.SHEET_DATA returns the contact-sheet word at CTL.SHEET_ADDR and adds 4. -/
def execSheetDataRead (master : Nat) (s : State) : Host.Outcome State Fault Refusal :=
  withInstance "master" master 5 (busRead master 0x10140090 s)

end Sys2Proof.Machine
end

