-- ==== Sys2Proof/Machine/Requesting.lean ====
section
/-!
DEFINITION. Meanings of the commands of mute, hold, pause, stop-bath and START requests (chapters 01, 05, 07, 12).
-/
namespace Sys2Proof.Machine

/-- SPK_MUTE (R184): A write of SPK.MUTE requests a mute or unmute of the selected chain with a ramp and acting time. -/
def execSpkMute (master : Nat) (value : Word) (s : State) : Host.Outcome State Fault Refusal :=
  withInstance "master" master 5 (busWrite master 0x10080040 value.toNat s)

/-- SAP_HOLD (R442): A write of SAP.P_HOLD requests an output or input hold or release of the selected port. -/
def execSapHold (master : Nat) (value : Word) (s : State) : Host.Outcome State Fault Refusal :=
  withInstance "master" master 5 (busWrite master 0x100D0050 value.toNat s)

/-- TG_PAUSE (R222): A write of MEAS.TG_PAUSE requests a pause or resume of the selected tone generator. -/
def execTgPause (master : Nat) (value : Word) (s : State) : Host.Outcome State Fault Refusal :=
  withInstance "master" master 5 (busWrite master 0x10170040 value.toNat s)

/-- REQUEST_REGISTER (R32): At the first tick after a mute, hold or pause request, it is registered, entered in DL1 at
its acting boundary and relayed. -/
def execRequestRegister (s : State) : Host.Outcome State Fault Refusal :=
  .next (requestRegister s)

/-- REQUEST_ACT (R35): A DL1 request comes due at its boundary and starts its ramp or hold. -/
def execRequestAct (s : State) : Host.Outcome State Fault Refusal :=
  .next (requestAct s)

/-- STOP_CMD_STOP (R255): SCHED.STOP_CMD.STOP requests a stop bath of the function in SCHED.STOP_TARGET. -/
def execStopCmdStop (master : Nat) (timed : Bool) (s : State) : Host.Outcome State Fault Refusal :=
  withInstance "master" master 5 (busWrite master 0x1004004C (1 + bitIf timed 31) s)

/-- STOP_CMD_START (R259): SCHED.STOP_CMD.START requests a START of the function in SCHED.STOP_TARGET. -/
def execStopCmdStart (master : Nat) (timed : Bool) (s : State) : Host.Outcome State Fault Refusal :=
  withInstance "master" master 5 (busWrite master 0x1004004C (2 + bitIf timed 31) s)

/-- STOP_REGISTER (R255): At the first tick after a stop-bath or START request, it is checked, registered in DL3 at its
acting block and relayed. -/
def execStopRegister (s : State) : Host.Outcome State Fault Refusal :=
  .next (stopRegister s)

/-- STOP_BATH_ACT (R256): A stop bath acts at its tick and fades the function's window to zero. -/
def execStopBathAct (s : State) : Host.Outcome State Fault Refusal :=
  .next (stopBathAct s)

/-- STOP_CLEAR (R257): In the block after the fade, the function is not dispatched and its state is cleared and queues
flushed. -/
def execStopClear (s : State) : Host.Outcome State Fault Refusal :=
  .next (stopClear s)

/-- STOP_DONE (R258): At the tick of a+2 the function becomes IDLE and EV_STOP_DONE is raised. -/
def execStopDone (s : State) : Host.Outcome State Fault Refusal :=
  .next (stopDone s)

/-- START_ACT (R260): A START acts on an IDLE function, which resumes from its cleared state with a one-block fade-in.
-/
def execStartAct (s : State) : Host.Outcome State Fault Refusal :=
  .next (startAct s)

end Sys2Proof.Machine
end

