-- ==== Sys2Proof/Machine/Scheduling.lean ====
section
/-!
DEFINITION. Meanings of the commands of the dataflow scheduler (chapter 07).
-/
namespace Sys2Proof.Machine

/-- INSTANCE_DISPATCH (R246): A ready instance is dispatched to a free unit of its class, or placed on an effect core by
interrupt or pre-emption. -/
def execInstanceDispatch (cls : Nat) (time : Nat) (s : State) : Host.Outcome State Fault Refusal :=
  withInstance "operation class" cls 8 (dispatch cls time s)

/-- INSTANCE_COMPLETE (R291): An instance's unit finishes its work and the results are held in the release buffer. -/
def execInstanceComplete (node : Nat) (work : List Nat) (s : State) : Host.Outcome State Fault Refusal :=
  withInstance "graph node" node 4096 (complete node work s)

/-- INSTANCE_RELEASE (R240): A completed instance is released once all lower-SEQ members of its flow are released, and
its successors become ready. -/
def execInstanceRelease (node : Nat) (time : Nat) (s : State) : Host.Outcome State Fault Refusal :=
  withInstance "graph node" node 4096 (sliceSend (release node time s))

/-- DEADLINE_MISS (R250): An instance is not released by its deadline and is abandoned; OVERLOAD is set and the miss is
counted. -/
def execDeadlineMiss (node : Nat) (work : List Nat) (missing : List (Nat × Nat × Nat)) (s : State) : Host.Outcome State
    Fault Refusal :=
  withInstance "graph node" node 4096 (deadlineMiss node work missing s)

end Sys2Proof.Machine
end

