-- ==== Sys2Proof/Machine/SerialPorts.lean ====
section
/-!
DEFINITION. Meanings of the commands of the serial audio ports (chapter 12).
-/
namespace Sys2Proof.Machine

/-- SERIAL_FRAME (R434): A serial frame starts; it takes its media sample index with slip correction and its words are
received or sent. -/
def execSerialFrame (group : Nat) (time : Int) (bclks : Nat) (words : List Nat) (s : State) : Host.Outcome State
    Fault Refusal :=
  withInstance "clock group" group 24 (serialFrame group time bclks words s)

/-- FRAME_ABSENT_TIMEOUT (R438): No frame starts within 2.5 C MEDIA cycles of the previous, which is a clock fault. -/
def execFrameAbsentTimeout (group : Nat) (s : State) : Host.Outcome State Fault Refusal :=
  withInstance "clock group" group 24 (frameAbsent group s)

/-- RATE_WINDOW_END (R436): A 16-block rate window ends and F and D are reported, with RATE_HIGH and rate faults
decided. -/
def execRateWindowEnd (group : Nat) (s : State) : Host.Outcome State Fault Refusal :=
  withInstance "clock group" group 24 (rateWindow group s)

/-- SAP_ALIGN (R433): At the first tick after stability, a follower clock group aligns and assigns the first frame's
index. -/
def execSapAlign (group : Nat) (time : Int) (s : State) : Host.Outcome State Fault Refusal :=
  withInstance "clock group" group 24 (sapAlign group time s)

end Sys2Proof.Machine
end

