-- ==== Sys2Proof/Machine/Staging.lean ====
section
/-!
DEFINITION. Meanings of the commands of the staged set and fixes (chapter 04).
-/
namespace Sys2Proof.Machine

/-- FX_REGISTER_WRITE (R153): A write to an FX register goes into the open staged set for the instance currently
selected, and is mirrored to the twin. -/
def execFxRegisterWrite (master : Nat) (addr : Word) (value : Word) (s : State) : Host.Outcome State Fault Refusal
    :=
  withInstance "master" master 5 (fxRow master addr.toNat value.toNat s)

/-- NODE_GAIN_WRITE (R153): A write of XP.NODE_GAIN stages a node word from the selected lane and bus, the written gain,
XP.RAMP_CTRL.LEN and NO_COUNT. -/
def execNodeGainWrite (master : Nat) (value : Word) (s : State) : Host.Outcome State Fault Refusal :=
  withInstance "master" master 5 (busWrite master 0x1007002C value.toNat s)

/-- KF_PUSH (R94): Writing 1 to OBJ.KF_PUSH appends the staged keyframe record to the staged set, or overflows it at the
65th push. -/
def execKfPush (master : Nat) (s : State) : Host.Outcome State Fault Refusal :=
  withInstance "master" master 5 (busWrite master 0x100500B8 1 s)

/-- FIX_COMMIT (R157): Writing 1 to FIX.COMMIT.COMMIT requests a fix for the block in FIX.BLOCK_LO and FIX.BLOCK_HI. -/
def execFixCommit (master : Nat) (s : State) : Host.Outcome State Fault Refusal :=
  withInstance "master" master 5 (busWrite master 0x10160018 1 s)

/-- FIX_DISCARD (R156): Writing 1 to FIX.COMMIT.DISCARD empties the open staged set and clears OVERFLOW. -/
def execFixDiscard (master : Nat) (s : State) : Host.Outcome State Fault Refusal :=
  withInstance "master" master 5 (busWrite master 0x10160018 2 s)

/-- FIX_REGISTER (R158): At the first block tick after a fix request, it is registered, checked, sealed with the staged
set and relayed, and a new staged set opens. -/
def execFixRegister (s : State) : Host.Outcome State Fault Refusal :=
  .next (fixRegister s)

/-- FIX_ACT (R162): A registered fix comes due at its acting block and its values take effect in every section of that
block. -/
def execFixAct (s : State) : Host.Outcome State Fault Refusal :=
  .next (fixAct s)

end Sys2Proof.Machine
end

