-- ==== Sys2Proof/Machine/Startup.lean ====
section
/-!
DEFINITION. Meanings of the commands of clocks, reset, power and start-up (chapter 15) and the image (chapter 16).
-/
namespace Sys2Proof.Machine

/-- POWER_ON (R542): VDD_AON rises through its power-on threshold; the whole device resets with cause POWER_ON and the
factory trim code is loaded. -/
def execPowerOn (s : State) : Host.Outcome State Fault Refusal :=
  .next (powerOn s)

/-- RESET_N_LOW (R543): RESET_N is driven low and the device enters reset with cause PIN. -/
def execResetNLow (s : State) : Host.Outcome State Fault Refusal :=
  .next (resetNLow s)

/-- PGOOD_CHANGE (R617): PGOOD changes level; while it is low the device is held in reset. -/
def execPgoodChange (high : Bool) (s : State) : Host.Outcome State Fault Refusal :=
  .next (pgoodChange high s)

/-- RESET_RELEASE (R543): Reset is released 1.0 ms after both PGOOD and RESET_N are high; STRAP_HOME is sampled and the
boot ledger begins. -/
def execResetRelease (strapHome : Bool) (testEn : Bool) (safe : Nat) (s : State) : Host.Outcome State Fault Refusal
    :=
  .next (resetRelease strapHome testEn safe s)

/-- SOFTWARE_RESET (R542): SV writes PSEQ.CMD.RESET and the device resets with cause SOFTWARE. -/
def execSoftwareReset (s : State) : Host.Outcome State Fault Refusal :=
  .next (busWrite 0 0x1002001C 1 s)

/-- REF_WINDOW_END (R523): A window of 32,000 SAFE cycles ends, and the reference and every running domain are counted
against SAFE. -/
def execRefWindowEnd (ref : Nat) (doms : List Nat) (s : State) : Host.Outcome State Fault Refusal :=
  .next (refWindow ref doms s)

/-- TRIM_WINDOW_END (R527): A trim window ends and the safelight trim code is discarded, coarse-corrected or stepped by
one towards zero error. -/
def execTrimWindowEnd (counted : Nat) (s : State) : Host.Outcome State Fault Refusal :=
  .next (trimWindow counted s)

/-- PLL_LOCK (R522): A PLL holds its phase detector within the lock window for 1,024 reference cycles and becomes
locked. -/
def execPllLock (pll : Nat) (s : State) : Host.Outcome State Fault Refusal :=
  withInstance "PLL" pll 6 (pllLock pll s)

/-- PLL_UNLOCK (R522): A PLL loses lock and the clock-fault handling of the table Clock faults begins. -/
def execPllUnlock (pll : Nat) (s : State) : Host.Outcome State Fault Refusal :=
  withInstance "PLL" pll 6 (pllUnlock pll s)

/-- CLOCK_FAULT_RESET (R533): 640,000 SAFE cycles after a clock fault, the power sequencer resets the device with cause
CLOCK_FAULT. -/
def execClockFaultReset (s : State) : Host.Outcome State Fault Refusal :=
  .next (clockFaultReset s)

/-- DOM_SWITCH_GO (R528): SV sets CLK.DOM_CTRL.GO to move a domain to another source, or the request is refused. -/
def execDomSwitchGo (src : Nat) (s : State) : Host.Outcome State Fault Refusal :=
  .next (busWrite 0 0x10010024 (src % 4 + 4) s)

/-- DIVIDER_STEP (R528): A 1 us step of a domain source switch completes: the divider moves one power of two, or the
glitch-free multiplexer changes source. -/
def execDividerStep (dom : Nat) (edge : Bool) (s : State) : Host.Outcome State Fault Refusal :=
  withInstance "clock domain" dom 7 (dividerStep dom edge s)

/-- ISLAND_START (R539): The next FAB power island is started at 50 us spacing: switch closed, isolation released and
its clock ramped. -/
def execIslandStart (s : State) : Host.Outcome State Fault Refusal :=
  .next (islandStart s)

/-- BOOT_STEP_END (R547): A step of the boot ledger completes and the next step begins. -/
def execBootStepEnd (flashLog2 : Nat) (s : State) : Host.Outcome State Fault Refusal :=
  .next (bootStepEnd flashLog2 s)

/-- TRAINING_COMPLETE (R488): DRAM training of both channels completes, or fails. -/
def execTrainingComplete (r0 : Option (Nat × Nat)) (r1 : Option (Nat × Nat)) (s : State) : Host.Outcome State Fault
    Refusal :=
  .next (trainingDone false r0 r1 s)

/-- TRAINING_RETRY (R489): 100 ms after a training failure the channel is trained once more; a second failure stops boot
until reset. -/
def execTrainingRetry (r0 : Option (Nat × Nat)) (r1 : Option (Nat × Nat)) (s : State) : Host.Outcome State Fault
    Refusal :=
  .next (trainingDone true r0 r1 s)

/-- IMAGE_APPLY (R569): The preferred copy's body has been read; it is hashed, checked record by record and applied, or
the other candidate is tried. -/
def execImageApply (s : State) : Host.Outcome State Fault Refusal :=
  .next (imageApply s)

/-- AUDIO_START (R550): Audio starts at the tick of the agreed first block, or a joining unit starts its grid at the
partner's named block and enters RESYNC. -/
def execAudioStart (s : State) : Host.Outcome State Fault Refusal :=
  .next (startAudio s)

/-- NO_PARTNER_TIMEOUT (R307): No heartbeat frame arrives within 1.0 s of reset release, so the unit has no partner and
goes ALONE. -/
def execNoPartnerTimeout (s : State) : Host.Outcome State Fault Refusal :=
  .next (noPartnerTimeout s)

/-- HELLO_TIMEOUT (R551): A waiting unit has no completed handshake 2.0 s after its step 9 ends; it enters ALONE and
starts at its own proposal. -/
def execHelloTimeout (s : State) : Host.Outcome State Fault Refusal :=
  .next (helloTimeout s)

/-- WDT_KICK (R545): SV writes 0x0000_5AC3 to PSEQ.WDT_KICK and the watchdog restarts. -/
def execWdtKick (s : State) : Host.Outcome State Fault Refusal :=
  .next (busWrite 0 0x10020014 0x5AC3 s)

/-- WATCHDOG_EXPIRY (R545): The watchdog expires; an acting unit releases TOKEN at once and the device resets. -/
def execWatchdogExpiry (s : State) : Host.Outcome State Fault Refusal :=
  .next (watchdogExpiry s)

/-- THERMAL_WARN (R546): The junction crosses 100 C upward, which sets THERMAL_WARN, or falls below 97 C, which clears
it. -/
def execThermalWarn (temp : Int) (s : State) : Host.Outcome State Fault Refusal :=
  .next (thermal temp s)

/-- THERMAL_SHUTDOWN (R546): The junction reaches 125 C; an acting unit releases the token and the device resets until
the junction is below 100 C. -/
def execThermalShutdown (s : State) : Host.Outcome State Fault Refusal :=
  .next (thermalShutdown s)

/-- GATE_WRITE (R534): SV writes a clock gate register, gating or ungating peripherals. -/
def execGateWrite (gate : Nat) (value : Word) (s : State) : Host.Outcome State Fault Refusal :=
  withInstance "gate register" gate 4 (busWrite 0 (0x10010030 + 4 * gate) value.toNat s)

/-- THERMAL_RESET_RELEASE (R546): The junction of a device held in thermal reset falls below 100 C and the device may
leave reset. -/
def execThermalResetRelease (s : State) : Host.Outcome State Fault Refusal :=
  .next (thermalRelease s)

end Sys2Proof.Machine
end

