-- ==== Sys2Proof/Machine/Timing.lean ====
section
/-!
DEFINITION. Meanings of the commands of precision time (chapter 11).
-/
namespace Sys2Proof.Machine

/-- PTP_ANNOUNCE (R395): An Announce message is received and used by the best master clock algorithm. -/
def execPtpAnnounce (port : Nat) (s : State) : Host.Outcome State Fault Refusal :=
  withInstance "media port" port 4 (ptpAnnounce port s)

/-- PTP_SYNC (R395): A Sync message is received and timestamped for the offset estimate. -/
def execPtpSync (port : Nat) (s : State) : Host.Outcome State Fault Refusal :=
  withInstance "media port" port 4 (ptpSync port s)

/-- PTP_FOLLOW_UP (R395): A Follow_Up message completes a two-step Sync measurement. -/
def execPtpFollowUp (port : Nat) (s : State) : Host.Outcome State Fault Refusal :=
  withInstance "media port" port 4 (ptpFollowUp port s)

/-- PTP_DELAY_REQ (R395): A Delay_Req message is received by a leader and answered. -/
def execPtpDelayReq (port : Nat) (s : State) : Host.Outcome State Fault Refusal :=
  withInstance "media port" port 4 (ptpDelayReq port s)

/-- PTP_DELAY_RESP (R395): A Delay_Resp message is received and completes a path-delay measurement. -/
def execPtpDelayResp (port : Nat) (s : State) : Host.Outcome State Fault Refusal :=
  withInstance "media port" port 4 (ptpDelayResp port s)

/-- SYNC_SEND (R396): A leader sends one-step Sync at its interval with originTimestamp written on the fly. -/
def execSyncSend (dom : Nat) (stamp : Nat) (s : State) : Host.Outcome State Fault Refusal :=
  withInstance "PTP domain slot" dom 2 (syncSend dom stamp s)

/-- ANNOUNCE_SEND (R409): A leader sends Announce at its interval. -/
def execAnnounceSend (dom : Nat) (s : State) : Host.Outcome State Fault Refusal :=
  withInstance "PTP domain slot" dom 2 (announceSend dom s)

/-- DELAY_REQ_SEND (R403): A follower sends Delay_Req at its delay-request interval. -/
def execDelayReqSend (dom : Nat) (stamp : Nat) (s : State) : Host.Outcome State Fault Refusal :=
  withInstance "PTP domain slot" dom 2 (delayReqSend dom stamp s)

/-- ANNOUNCE_TIMEOUT (R403): The announce receipt timeout expires and the domain leaves QUALIFIED. -/
def execAnnounceTimeout (dom : Nat) (s : State) : Host.Outcome State Fault Refusal :=
  withInstance "PTP domain slot" dom 2 (announceTimeout dom s)

/-- SYNC_TIMEOUT (R403): Four Sync intervals pass without a measurement, or 16 delay-request intervals without a path
delay, and the domain leaves QUALIFIED. -/
def execSyncTimeout (dom : Nat) (s : State) : Host.Outcome State Fault Refusal :=
  withInstance "PTP domain slot" dom 2 (syncTimeout dom s)

/-- EPOCH_HALF_ENTER (R393): CNT enters a half whose epoch entry may be unarmed; the hardware loads the expected value
and flags STALE. -/
def execEpochHalfEnter (cycles : Nat) (s : State) : Host.Outcome State Fault Refusal :=
  .next (timeAdvance cycles s)

/-- EPOCH_WRITE (R393): A write of PTP.EPOCH0 or PTP.EPOCH1 arms the entry, or is ignored with BAD_WRITE. -/
def execEpochWrite (master : Nat) (entry : Nat) (value : Word) (s : State) : Host.Outcome State Fault Refusal :=
  withInstances [("master", master, 5), ("epoch entry", entry, 2)] (busWrite master (0x100C0024 + 4 * entry)
    value.toNat s)

/-- INC_WRITE (R389): A write of PTP.INC_FRAC makes the new INC take effect at the next TIME cycle. -/
def execIncWrite (master : Nat) (value : Word) (s : State) : Host.Outcome State Fault Refusal :=
  withInstance "master" master 5 (busWrite master 0x100C001C value.toNat s)

/-- PTP_STEP (R391): PTP.STEP_CMD.STEP steps the time counter before audio, or is refused and counted. -/
def execPtpStep (master : Nat) (s : State) : Host.Outcome State Fault Refusal :=
  withInstance "master" master 5 (busWrite master 0x100C0038 1 s)

/-- PPS_EDGE (R410): An edge of the selected polarity on PPS_IN is timestamped and counted towards qualification. -/
def execPpsEdge (stamp : Nat) (s : State) : Host.Outcome State Fault Refusal :=
  .next (ppsEdge stamp s)

/-- PPS_TIMEOUT (R410): 2.0 s pass without a PPS_IN edge, so PPS_IN is lost. -/
def execPpsTimeout (s : State) : Host.Outcome State Fault Refusal :=
  .next (ppsLost s)

end Sys2Proof.Machine
end

