-- ==== Sys2Proof/Machine/Twinning.lean ====
section
/-!
DEFINITION. Meanings of the commands of lease, token, hand-over, resync and health (chapter 09).
-/
namespace Sys2Proof.Machine

/-- HEARTBEAT_FRAME (R305): A heartbeat frame is received; a valid renewal resets the lease count and its flags are
noted. -/
def execHeartbeatFrame (word : BitVec 64) (safe : Nat) (s : State) : Host.Outcome State Fault Refusal :=
  .next (heartbeatReceive word.toNat safe s)

/-- HEARTBEAT_TIMER (R305): While audio is not running, a heartbeat frame is sent every 21,333 SAFE cycles. -/
def execHeartbeatTimer (safe : Nat) (s : State) : Host.Outcome State Fault Refusal :=
  .next (heartbeatTimer safe s)

/-- LEASE_EXPIRY (R315): A standby unit's lease count reaches TWIN.LEASE_LIMIT. -/
def execLeaseExpiry (s : State) : Host.Outcome State Fault Refusal :=
  .next (leaseExpiry s)

/-- TAKEOVER (R315): At the first tick after lease expiry the standby unit takes the token and begins to act. -/
def execTakeover (s : State) : Host.Outcome State Fault Refusal :=
  .next (takeover s)

/-- OWN_LEASE_GUARD (R312): An acting unit's own last renewal is older than the guard, so it releases TOKEN and stops
acting. -/
def execOwnLeaseGuard (s : State) : Host.Outcome State Fault Refusal :=
  .next (leaseGuard s)

/-- TWIN_CMD_RELEASE (R317): TWIN.CMD.RELEASE makes the acting unit release the token. -/
def execTwinCmdRelease (master : Nat) (s : State) : Host.Outcome State Fault Refusal :=
  withInstance "master" master 5 (busWrite master 0x1003000C 1 s)

/-- TWIN_CMD_HANDOVER (R319): TWIN.CMD.HANDOVER requests a hand-over at the block in TWIN.HANDOVER_LO and
TWIN.HANDOVER_HI. -/
def execTwinCmdHandover (master : Nat) (s : State) : Host.Outcome State Fault Refusal :=
  withInstance "master" master 5 (busWrite master 0x1003000C 2 s)

/-- TWIN_CMD_RESTART (R346): TWIN.CMD.RESTART restarts the unit from NVM, a holder with a LATENT partner releasing
first. -/
def execTwinCmdRestart (master : Nat) (s : State) : Host.Outcome State Fault Refusal :=
  withInstance "master" master 5 (busWrite master 0x1003000C 4 s)

/-- TWIN_CMD_RESYNC (R338): TWIN.CMD.RESYNC restarts resync from the bulk phase. -/
def execTwinCmdResync (master : Nat) (s : State) : Host.Outcome State Fault Refusal :=
  withInstance "master" master 5 (busWrite master 0x1003000C 8 s)

/-- HANDOVER_REGISTER (R319): At the first tick after a hand-over request it is checked, refused or accepted and CONTROL
HANDOVER is sent. -/
def execHandoverRegister (s : State) : Host.Outcome State Fault Refusal :=
  .next (handoverRegister s)

/-- HANDOVER_COMMIT (R320): At the tick of h-1 the holder sets FLAGS.HANDOVER if acknowledged, or cancels. -/
def execHandoverCommit (s : State) : Host.Outcome State Fault Refusal :=
  .next (handoverCommit s)

/-- HANDOVER_SWITCH (R320): At the tick of h the old holder stops acting and the partner begins if it saw
FLAGS.HANDOVER. -/
def execHandoverSwitch (s : State) : Host.Outcome State Fault Refusal :=
  .next (handoverSwitch s)

/-- EMISSION_CHANGE (R324): At block e, packets from index Be move between the units' network legs. -/
def execEmissionChange (s : State) : Host.Outcome State Fault Refusal :=
  .next (emissionChange s)

/-- HASH_COMPARE_TIMEOUT (R331): A block whose peer hash frame is absent at n + SEAL_BLOCKS + 2 is not compared. -/
def execHashCompareTimeout (s : State) : Host.Outcome State Fault Refusal :=
  .next (hashTimeout s)

/-- BULK_INSTALL (R335): At the first tick after the last piece is replayed, the standby replaces its closed-form state.
-/
def execBulkInstall (s : State) : Host.Outcome State Fault Refusal :=
  .next (bulkInstall s)

/-- SETTLE_EXPIRY (R336): A resync settle wait of SETTLE_k or OUT_SETTLE blocks ends. -/
def execSettleExpiry (s : State) : Host.Outcome State Fault Refusal :=
  .next (settleExpiry s)

/-- SLICE_INSTALL (R337): A whole slice is installed at block s before its units' block-s instances are dispatched. -/
def execSliceInstall (s : State) : Host.Outcome State Fault Refusal :=
  .next (sliceInstall s)

/-- SLICE_TIMEOUT (R337): A slice has not arrived whole by 1/8 of the block period, so it is discarded and retried at
s+1. -/
def execSliceTimeout (s : State) : Host.Outcome State Fault Refusal :=
  .next (sliceTimeout s)

/-- SELF_TEST_DONE (R339): The SUSPECT self-test completes; a pass enters RESYNC, a failure stays SUSPECT. -/
def execSelfTestDone (bist : Bool) (clocks : Bool) (s : State) : Host.Outcome State Fault Refusal :=
  .next (selfTestDone bist clocks s)

/-- HEALTH_SEND (R344): After each second of SAFE time the unit sends its health record at the next block tick. -/
def execHealthSend (s : State) : Host.Outcome State Fault Refusal :=
  .next (healthSend s)

/-- SPARE_ROW_TEST (R345): Once per second a standby unit self-tests one spare SRAM row. -/
def execSpareRowTest (pass : Bool) (s : State) : Host.Outcome State Fault Refusal :=
  .next (spareRowTest pass s)

/-- TAKEBACK_HOLDOFF (R343): A home unit has been LATENT for HOLDOFF seconds and sends CONTROL TAKEBACK. -/
def execTakebackHoldoff (s : State) : Host.Outcome State Fault Refusal :=
  .next (takebackAsk s)

/-- HEARTBEATS_MISSING (R307): An EXPOSED unit sees heartbeats from its partner missing on both paths for the lease term
and goes to ALONE. -/
def execHeartbeatsMissing (s : State) : Host.Outcome State Fault Refusal :=
  .next (heartbeatsMissing s)

end Sys2Proof.Machine
end

