-- ==== Sys2Proof/Machine/Dispatch.lean ====
section
/-!
DEFINITION. What each command does: one arm per constructor.
-/
namespace Sys2Proof.Machine

/-- The effect of a command on everything but the queue. -/
def exec (i : Instr) (s : State) : Host.Outcome State Fault Refusal :=
  match i with
  | .powerOn => Sys2Proof.Machine.execPowerOn s
  | .resetNLow => Sys2Proof.Machine.execResetNLow s
  | .pgoodChange high => Sys2Proof.Machine.execPgoodChange high s
  | .resetRelease strapHome testEn safe => Sys2Proof.Machine.execResetRelease strapHome testEn safe s
  | .softwareReset => Sys2Proof.Machine.execSoftwareReset s
  | .refWindowEnd ref doms => Sys2Proof.Machine.execRefWindowEnd ref doms s
  | .trimWindowEnd counted => Sys2Proof.Machine.execTrimWindowEnd counted s
  | .pllLock pll => Sys2Proof.Machine.execPllLock pll s
  | .pllUnlock pll => Sys2Proof.Machine.execPllUnlock pll s
  | .clockFaultReset => Sys2Proof.Machine.execClockFaultReset s
  | .domSwitchGo src => Sys2Proof.Machine.execDomSwitchGo src s
  | .dividerStep dom edge => Sys2Proof.Machine.execDividerStep dom edge s
  | .islandStart => Sys2Proof.Machine.execIslandStart s
  | .bootStepEnd flashLog2 => Sys2Proof.Machine.execBootStepEnd flashLog2 s
  | .trainingComplete r0 r1 => Sys2Proof.Machine.execTrainingComplete r0 r1 s
  | .trainingRetry r0 r1 => Sys2Proof.Machine.execTrainingRetry r0 r1 s
  | .imageApply => Sys2Proof.Machine.execImageApply s
  | .audioStart => Sys2Proof.Machine.execAudioStart s
  | .noPartnerTimeout => Sys2Proof.Machine.execNoPartnerTimeout s
  | .helloTimeout => Sys2Proof.Machine.execHelloTimeout s
  | .wdtKick => Sys2Proof.Machine.execWdtKick s
  | .watchdogExpiry => Sys2Proof.Machine.execWatchdogExpiry s
  | .thermalWarn temp => Sys2Proof.Machine.execThermalWarn temp s
  | .thermalShutdown => Sys2Proof.Machine.execThermalShutdown s
  | .blockTick env => Sys2Proof.Machine.execBlockTick env s
  | .subBlockBoundary cycles adc => Sys2Proof.Machine.execSubBlockBoundary cycles adc s
  | .latchedRead master addr => Sys2Proof.Machine.execLatchedRead master addr s
  | .counterReadClear master addr => Sys2Proof.Machine.execCounterReadClear master addr s
  | .w1cWrite master addr value => Sys2Proof.Machine.execW1cWrite master addr value s
  | .registerWrite master addr data => Sys2Proof.Machine.execRegisterWrite master addr data s
  | .layDataRead master => Sys2Proof.Machine.execLayDataRead master s
  | .memDataRead master core => Sys2Proof.Machine.execMemDataRead master core s
  | .sheetDataRead master => Sys2Proof.Machine.execSheetDataRead master s
  | .fxRegisterWrite master addr value => Sys2Proof.Machine.execFxRegisterWrite master addr value s
  | .nodeGainWrite master value => Sys2Proof.Machine.execNodeGainWrite master value s
  | .kfPush master => Sys2Proof.Machine.execKfPush master s
  | .fixCommit master => Sys2Proof.Machine.execFixCommit master s
  | .fixDiscard master => Sys2Proof.Machine.execFixDiscard master s
  | .fixRegister => Sys2Proof.Machine.execFixRegister s
  | .fixAct => Sys2Proof.Machine.execFixAct s
  | .instanceDispatch cls time => Sys2Proof.Machine.execInstanceDispatch cls time s
  | .instanceComplete node work => Sys2Proof.Machine.execInstanceComplete node work s
  | .instanceRelease node time => Sys2Proof.Machine.execInstanceRelease node time s
  | .deadlineMiss node work missing => Sys2Proof.Machine.execDeadlineMiss node work missing s
  | .nop core env => Sys2Proof.Machine.execNop core env s
  | .add core env => Sys2Proof.Machine.execAdd core env s
  | .sub core env => Sys2Proof.Machine.execSub core env s
  | .addi core env => Sys2Proof.Machine.execAddi core env s
  | .and core env => Sys2Proof.Machine.execAnd core env s
  | .or core env => Sys2Proof.Machine.execOr core env s
  | .xor core env => Sys2Proof.Machine.execXor core env s
  | .asr core env => Sys2Proof.Machine.execAsr core env s
  | .lsl core env => Sys2Proof.Machine.execLsl core env s
  | .lsr core env => Sys2Proof.Machine.execLsr core env s
  | .abs core env => Sys2Proof.Machine.execAbs core env s
  | .neg core env => Sys2Proof.Machine.execNeg core env s
  | .min core env => Sys2Proof.Machine.execMin core env s
  | .max core env => Sys2Proof.Machine.execMax core env s
  | .cmp core env => Sys2Proof.Machine.execCmp core env s
  | .mov core env => Sys2Proof.Machine.execMov core env s
  | .mul core env => Sys2Proof.Machine.execMul core env s
  | .mac core env => Sys2Proof.Machine.execMac core env s
  | .msu core env => Sys2Proof.Machine.execMsu core env s
  | .clra core env => Sys2Proof.Machine.execClra core env s
  | .adda core env => Sys2Proof.Machine.execAdda core env s
  | .sha core env => Sys2Proof.Machine.execSha core env s
  | .rnd core env => Sys2Proof.Machine.execRnd core env s
  | .lda core env => Sys2Proof.Machine.execLda core env s
  | .maxs core env => Sys2Proof.Machine.execMaxs core env s
  | .mins core env => Sys2Proof.Machine.execMins core env s
  | .maxas core env => Sys2Proof.Machine.execMaxas core env s
  | .movc core env => Sys2Proof.Machine.execMovc core env s
  | .movtc core env => Sys2Proof.Machine.execMovtc core env s
  | .ldi core env => Sys2Proof.Machine.execLdi core env s
  | .cnop core env => Sys2Proof.Machine.execCnop core env s
  | .br core env => Sys2Proof.Machine.execBr core env s
  | .call core env => Sys2Proof.Machine.execCall core env s
  | .ret core env => Sys2Proof.Machine.execRet core env s
  | .loop core env => Sys2Proof.Machine.execLoop core env s
  | .lbrk core env => Sys2Proof.Machine.execLbrk core env s
  | .bmov core env => Sys2Proof.Machine.execBmov core env s
  | .waitm core env => Sys2Proof.Machine.execWaitm core env s
  | .done core env => Sys2Proof.Machine.execDone core env s
  | .blockMoveComplete core bank index => Sys2Proof.Machine.execBlockMoveComplete core bank index s
  | .spkMute master value => Sys2Proof.Machine.execSpkMute master value s
  | .sapHold master value => Sys2Proof.Machine.execSapHold master value s
  | .tgPause master value => Sys2Proof.Machine.execTgPause master value s
  | .requestRegister => Sys2Proof.Machine.execRequestRegister s
  | .requestAct => Sys2Proof.Machine.execRequestAct s
  | .stopCmdStop master timed => Sys2Proof.Machine.execStopCmdStop master timed s
  | .stopCmdStart master timed => Sys2Proof.Machine.execStopCmdStart master timed s
  | .stopRegister => Sys2Proof.Machine.execStopRegister s
  | .stopBathAct => Sys2Proof.Machine.execStopBathAct s
  | .stopClear => Sys2Proof.Machine.execStopClear s
  | .stopDone => Sys2Proof.Machine.execStopDone s
  | .startAct => Sys2Proof.Machine.execStartAct s
  | .crossfadeEnd chain => Sys2Proof.Machine.execCrossfadeEnd chain s
  | .tgStart gen => Sys2Proof.Machine.execTgStart gen s
  | .sweepStart gen => Sys2Proof.Machine.execSweepStart gen s
  | .captureStart => Sys2Proof.Machine.execCaptureStart s
  | .captureEnd => Sys2Proof.Machine.execCaptureEnd s
  | .convLoadData master value => Sys2Proof.Machine.execConvLoadData master value s
  | .convLoadCommit master => Sys2Proof.Machine.execConvLoadCommit master s
  | .deconvGo master => Sys2Proof.Machine.execDeconvGo master s
  | .deconvJobDone shift saturated => Sys2Proof.Machine.execDeconvJobDone shift saturated s
  | .twinLinkUp => Sys2Proof.Machine.execTwinLinkUp s
  | .twinLinkDown lane0 lane1 => Sys2Proof.Machine.execTwinLinkDown lane0 lane1 s
  | .linkLossResync => Sys2Proof.Machine.execLinkLossResync s
  | .linkResendTimeout => Sys2Proof.Machine.execLinkResendTimeout s
  | .leaseFrame frame safe => Sys2Proof.Machine.execLeaseFrame frame safe s
  | .adcSubFrame frame => Sys2Proof.Machine.execAdcSubFrame frame s
  | .sliceFrame frame => Sys2Proof.Machine.execSliceFrame frame s
  | .hashFrame frame => Sys2Proof.Machine.execHashFrame frame s
  | .stageMirrorFrame frame => Sys2Proof.Machine.execStageMirrorFrame frame s
  | .fixSealFrame frame firstHalf => Sys2Proof.Machine.execFixSealFrame frame firstHalf s
  | .reqRelayFrame frame => Sys2Proof.Machine.execReqRelayFrame frame s
  | .healthFrame frame => Sys2Proof.Machine.execHealthFrame frame s
  | .bulkPieceFrame frame => Sys2Proof.Machine.execBulkPieceFrame frame s
  | .nakFrame frame => Sys2Proof.Machine.execNakFrame frame s
  | .hello frame => Sys2Proof.Machine.execHello frame s
  | .helloReply frame => Sys2Proof.Machine.execHelloReply frame s
  | .handover frame => Sys2Proof.Machine.execHandover frame s
  | .handoverAck frame => Sys2Proof.Machine.execHandoverAck frame s
  | .release frame => Sys2Proof.Machine.execRelease frame s
  | .takeback frame => Sys2Proof.Machine.execTakeback frame s
  | .takebackRefused frame => Sys2Proof.Machine.execTakebackRefused frame s
  | .emit frame => Sys2Proof.Machine.execEmit frame s
  | .resyncRequest frame => Sys2Proof.Machine.execResyncRequest frame s
  | .bulkEnd frame => Sys2Proof.Machine.execBulkEnd frame s
  | .divergent frame => Sys2Proof.Machine.execDivergent frame s
  | .heartbeatFrame word safe => Sys2Proof.Machine.execHeartbeatFrame word safe s
  | .heartbeatTimer safe => Sys2Proof.Machine.execHeartbeatTimer safe s
  | .leaseExpiry => Sys2Proof.Machine.execLeaseExpiry s
  | .takeover => Sys2Proof.Machine.execTakeover s
  | .ownLeaseGuard => Sys2Proof.Machine.execOwnLeaseGuard s
  | .twinCmdRelease master => Sys2Proof.Machine.execTwinCmdRelease master s
  | .twinCmdHandover master => Sys2Proof.Machine.execTwinCmdHandover master s
  | .twinCmdRestart master => Sys2Proof.Machine.execTwinCmdRestart master s
  | .twinCmdResync master => Sys2Proof.Machine.execTwinCmdResync master s
  | .handoverRegister => Sys2Proof.Machine.execHandoverRegister s
  | .handoverCommit => Sys2Proof.Machine.execHandoverCommit s
  | .handoverSwitch => Sys2Proof.Machine.execHandoverSwitch s
  | .emissionChange => Sys2Proof.Machine.execEmissionChange s
  | .hashCompareTimeout => Sys2Proof.Machine.execHashCompareTimeout s
  | .bulkInstall => Sys2Proof.Machine.execBulkInstall s
  | .settleExpiry => Sys2Proof.Machine.execSettleExpiry s
  | .sliceInstall => Sys2Proof.Machine.execSliceInstall s
  | .sliceTimeout => Sys2Proof.Machine.execSliceTimeout s
  | .selfTestDone bist clocks => Sys2Proof.Machine.execSelfTestDone bist clocks s
  | .healthSend => Sys2Proof.Machine.execHealthSend s
  | .spareRowTest pass => Sys2Proof.Machine.execSpareRowTest pass s
  | .takebackHoldoff => Sys2Proof.Machine.execTakebackHoldoff s
  | .frameReceive port frame codeError poison offset stamp => Sys2Proof.Machine.execFrameReceive port frame codeError poison offset stamp s
  | .netLinkChange port up line => Sys2Proof.Machine.execNetLinkChange port up line s
  | .txPacketSend port => Sys2Proof.Machine.execTxPacketSend port s
  | .lpiEnter => Sys2Proof.Machine.execLpiEnter s
  | .lpiWake => Sys2Proof.Machine.execLpiWake s
  | .ptpAnnounce port => Sys2Proof.Machine.execPtpAnnounce port s
  | .ptpSync port => Sys2Proof.Machine.execPtpSync port s
  | .ptpFollowUp port => Sys2Proof.Machine.execPtpFollowUp port s
  | .ptpDelayReq port => Sys2Proof.Machine.execPtpDelayReq port s
  | .ptpDelayResp port => Sys2Proof.Machine.execPtpDelayResp port s
  | .syncSend dom stamp => Sys2Proof.Machine.execSyncSend dom stamp s
  | .announceSend dom => Sys2Proof.Machine.execAnnounceSend dom s
  | .delayReqSend dom stamp => Sys2Proof.Machine.execDelayReqSend dom stamp s
  | .announceTimeout dom => Sys2Proof.Machine.execAnnounceTimeout dom s
  | .syncTimeout dom => Sys2Proof.Machine.execSyncTimeout dom s
  | .epochHalfEnter cycles => Sys2Proof.Machine.execEpochHalfEnter cycles s
  | .epochWrite master entry value => Sys2Proof.Machine.execEpochWrite master entry value s
  | .incWrite master value => Sys2Proof.Machine.execIncWrite master value s
  | .ptpStep master => Sys2Proof.Machine.execPtpStep master s
  | .ppsEdge stamp => Sys2Proof.Machine.execPpsEdge stamp s
  | .ppsTimeout => Sys2Proof.Machine.execPpsTimeout s
  | .serialFrame group time bclks words => Sys2Proof.Machine.execSerialFrame group time bclks words s
  | .frameAbsentTimeout group => Sys2Proof.Machine.execFrameAbsentTimeout group s
  | .rateWindowEnd group => Sys2Proof.Machine.execRateWindowEnd group s
  | .sapAlign group time => Sys2Proof.Machine.execSapAlign group time s
  | .complianceCheck dac flow microamps millivolts => Sys2Proof.Machine.execComplianceCheck dac flow microamps millivolts s
  | .complianceMuteEnd dac => Sys2Proof.Machine.execComplianceMuteEnd dac s
  | .micMeasure port ohms => Sys2Proof.Machine.execMicMeasure port ohms s
  | .hsDetChange port plug => Sys2Proof.Machine.execHsDetChange port plug s
  | .hsInsertConfirm port => Sys2Proof.Machine.execHsInsertConfirm port s
  | .hsRemoveConfirm port => Sys2Proof.Machine.execHsRemoveConfirm port s
  | .hsClassifyEnd port => Sys2Proof.Machine.execHsClassifyEnd port s
  | .hsButtonFade port => Sys2Proof.Machine.execHsButtonFade port s
  | .hsOutputResume port => Sys2Proof.Machine.execHsOutputResume port s
  | .ampCurrentLimit amp previous => Sys2Proof.Machine.execAmpCurrentLimit amp previous s
  | .ampRetryWaitEnd amp => Sys2Proof.Machine.execAmpRetryWaitEnd amp s
  | .ampResume amp => Sys2Proof.Machine.execAmpResume amp s
  | .ampCleanSecond amp => Sys2Proof.Machine.execAmpCleanSecond amp s
  | .ampDcWindow amp millivolts => Sys2Proof.Machine.execAmpDcWindow amp millivolts s
  | .ampClear master => Sys2Proof.Machine.execAmpClear master s
  | .pvddLow => Sys2Proof.Machine.execPvddLow s
  | .pvddRecover => Sys2Proof.Machine.execPvddRecover s
  | .refreshDue channel rank waiting offsets => Sys2Proof.Machine.execRefreshDue channel rank waiting offsets s
  | .zqCalibration channel => Sys2Proof.Machine.execZqCalibration channel s
  | .dramHotChange low => Sys2Proof.Machine.execDramHotChange low s
  | .dramTempRead reading => Sys2Proof.Machine.execDramTempRead reading s
  | .parityAlert channel again => Sys2Proof.Machine.execParityAlert channel again s
  | .alertTimeout channel => Sys2Proof.Machine.execAlertTimeout channel s
  | .dramReadComplete addr port first second safe => Sys2Proof.Machine.execDramReadComplete addr port first second safe s
  | .eccWriteBack addr => Sys2Proof.Machine.execEccWriteBack addr s
  | .scrubRead array word first second last safe => Sys2Proof.Machine.execScrubRead array word first second last safe s
  | .dramScrubRead errors safe => Sys2Proof.Machine.execDramScrubRead errors safe s
  | .remapWrite master value => Sys2Proof.Machine.execRemapWrite master value s
  | .dramWindowAccess master offset write data => Sys2Proof.Machine.execDramWindowAccess master offset write data s
  | .gateWrite gate value => Sys2Proof.Machine.execGateWrite gate value s
  | .nvmErase master page => Sys2Proof.Machine.execNvmErase master page s
  | .nvmProgram master page => Sys2Proof.Machine.execNvmProgram master page s
  | .nvmCheck master page => Sys2Proof.Machine.execNvmCheck master page s
  | .nvmOpDone fail => Sys2Proof.Machine.execNvmOpDone fail s
  | .nvmDataWrite master value => Sys2Proof.Machine.execNvmDataWrite master value s
  | .nvmDataRead master => Sys2Proof.Machine.execNvmDataRead master s
  | .faultLogWrite safe => Sys2Proof.Machine.execFaultLogWrite safe s
  | .tcmRead => Sys2Proof.Machine.execTcmRead s
  | .tcmWrite => Sys2Proof.Machine.execTcmWrite s
  | .tcmStage => Sys2Proof.Machine.execTcmStage s
  | .tcmFix => Sys2Proof.Machine.execTcmFix s
  | .tcmStopBath => Sys2Proof.Machine.execTcmStopBath s
  | .tcmStart => Sys2Proof.Machine.execTcmStart s
  | .snapshotTake => Sys2Proof.Machine.execSnapshotTake s
  | .snapshotRead => Sys2Proof.Machine.execSnapshotRead s
  | .tcmHealth => Sys2Proof.Machine.execTcmHealth s
  | .writeFrame frame => Sys2Proof.Machine.execWriteFrame frame s
  | .readFrame clocked => Sys2Proof.Machine.execReadFrame clocked s
  | .snapshotRegister => Sys2Proof.Machine.execSnapshotRegister s
  | .sheetCapture => Sys2Proof.Machine.execSheetCapture s
  | .evcSrcWrite master value => Sys2Proof.Machine.execEvcSrcWrite master value s
  | .evcSnap master => Sys2Proof.Machine.execEvcSnap master s
  | .evcClearSel master => Sys2Proof.Machine.execEvcClearSel master s
  | .counterSnapshot => Sys2Proof.Machine.execCounterSnapshot s
  | .heartbeatsMissing => Sys2Proof.Machine.execHeartbeatsMissing s
  | .alertNReturn channel => Sys2Proof.Machine.execAlertNReturn channel s
  | .thermalResetRelease => Sys2Proof.Machine.execThermalResetRelease s
  | .lldpFrame frame => Sys2Proof.Machine.execLldpFrame frame s

end Sys2Proof.Machine
end

