-- ==== Sys2Proof/Laws/Store.lean ====
section
/-!
SUPPORT. Laws of the sparse stores: reading after writing, and the canonical form that every write keeps.
-/
namespace Sys2Proof.Machine

/-! ### The canonical form -/

/-- A store is canonical: keys strictly rising, and no entry equal to what an unlisted key reads as. -/
def Canon {α : Type} (d : α) (m : Sparse α) : Prop := m.Pairwise (fun a b => a.1 < b.1) ∧ ∀ c ∈ m, c.2 ≠ d

theorem canon_nil {α : Type} (d : α) : Canon d [] := ⟨.nil, by simp⟩

theorem canon_cons {α : Type} {d : α} {c : Nat × α} {m : Sparse α} :
    Canon d (c :: m) ↔ (∀ e ∈ m, c.1 < e.1) ∧ c.2 ≠ d ∧ Canon d m := by
  simp only [Canon, List.pairwise_cons, List.mem_cons, forall_eq_or_imp]
  tauto

/-- Memory.wf decides the canonical form of a byte store. -/
theorem memory_wf_iff (u : Byte) (m : List Host.Cell) : Memory.wf u m = true ↔ Canon u m := by
  induction m with
  | nil => simp [Memory.wf, Canon]
  | cons c t ih =>
    cases t with
    | nil => simp [Memory.wf, Canon]
    | cons e t =>
      rw [Memory.wf, Bool.and_eq_true, Bool.and_eq_true, ih, canon_cons (c := c), canon_cons (c := e)]
      simp only [decide_eq_true_eq, List.mem_cons, forall_eq_or_imp]
      constructor
      · rintro ⟨⟨h1, h2⟩, h3, h4⟩
        exact ⟨⟨h2, fun x hx => h2.trans (h3 x hx)⟩, h1, h3, h4⟩
      · rintro ⟨⟨h1, -⟩, h2, h3⟩
        exact ⟨⟨h2, h1⟩, h3⟩

/-- Erasing entries keeps the form. -/
theorem canon_filter {α : Type} {d : α} {m : Sparse α} (p : Nat × α → Bool) (h : Canon d m) : Canon d (m.filter p) :=
  ⟨h.1.sublist (List.filter_sublist (p := p)), fun c hc => h.2 c (List.filter_sublist.subset hc)⟩

theorem canon_append {α : Type} {d : α} {a b : Sparse α} (ha : Canon d a) (hb : Canon d b)
    (h : ∀ x ∈ a, ∀ y ∈ b, x.1 < y.1) : Canon d (a ++ b) :=
  ⟨List.pairwise_append.mpr ⟨ha.1, hb.1, h⟩, fun c hc => (List.mem_append.mp hc).elim (ha.2 c) (hb.2 c)⟩

/-- The cells of consecutive values are canonical, and their keys are the keys written. -/
theorem cellsAt_mem {α : Type} [DecidableEq α] (d : α) (k : Nat) (l : List α) :
    Canon d (cellsAt d k l) ∧ ∀ c ∈ cellsAt d k l, k ≤ c.1 ∧ c.1 < k + l.length := by
  induction l generalizing k with
  | nil => exact ⟨canon_nil d, by simp [cellsAt]⟩
  | cons v t ih =>
    obtain ⟨h1, h2⟩ := ih (k + 1)
    have hb : ∀ c ∈ cellsAt d (k + 1) t, k ≤ c.1 ∧ c.1 < k + (v :: t).length := fun c hc => by
      have := h2 c hc
      simp only [List.length_cons]
      omega
    rw [cellsAt]
    split
    · exact ⟨h1, hb⟩
    · rename_i hv
      refine ⟨canon_cons.mpr ⟨fun e he => ?_, hv, h1⟩, ?_⟩
      · have := (h2 e he).1
        simp only
        omega
      · intro c hc
        rcases List.mem_cons.mp hc with rfl | hc
        · simp
        · exact hb c hc

/-- Writing consecutive keys keeps the form. -/
theorem canon_ssetList {α : Type} [DecidableEq α] {d : α} (k : Nat) (l : List α) {m : Sparse α} (h : Canon d m) :
    Canon d (ssetList d k l m) := by
  obtain ⟨h1, h2⟩ := cellsAt_mem d k l
  refine canon_append (canon_append (canon_filter _ h) h1 ?_) (canon_filter _ h) ?_
  · intro x hx y hy
    have hx : x.1 < k := by simpa using (List.mem_filter.mp hx).2
    exact hx.trans_le (h2 y hy).1
  · intro x hx y hy
    have hy : k + l.length ≤ y.1 := by simpa using (List.mem_filter.mp hy).2
    rcases List.mem_append.mp hx with hx | hx
    · have : x.1 < k := by simpa using (List.mem_filter.mp hx).2
      omega
    · have := (h2 x hx).2
      omega

/-- A write of bytes keeps a byte store canonical. -/
theorem putBytes_wf (a : Nat) (l : List Nat) {m : List Host.Cell} (h : Memory.wf 0 m = true) :
    Memory.wf 0 (putBytes a l m) = true :=
  (memory_wf_iff 0 _).mpr (canon_ssetList a _ ((memory_wf_iff 0 m).mp h))

/-! ### Reading after writing -/

/-- A key that no entry names reads as an unlisted key does. -/
theorem sget_absent {α : Type} (d : α) (k : Nat) (m : Sparse α) (h : ∀ c ∈ m, c.1 ≠ k) : sget d k m = d := by
  induction m with
  | nil => rfl
  | cons c t ih =>
    rw [sget, if_neg (h c (by simp))]
    exact ih fun e he => h e (by simp [he])

@[simp] theorem sget_sput_self {α : Type} (d : α) (k : Nat) (v : α) (m : Sparse α) : sget d k (sput k v m) = v := by
  induction m with
  | nil => simp [sput, sget]
  | cons c t ih =>
    rw [sput]
    split
    · simp [sget]
    · split
      · simp [sget]
      · rename_i h
        rw [sget, if_neg h, ih]

theorem sget_sput_of_ne {α : Type} (d : α) {j k : Nat} (h : j ≠ k) (v : α) (m : Sparse α) :
    sget d j (sput k v m) = sget d j m := by
  induction m with
  | nil => simp [sput, sget, h.symm]
  | cons c t ih =>
    rw [sput]
    split
    · rw [sget, if_neg h.symm]
    · split
      · rename_i hk
        rw [sget, if_neg h.symm, sget, if_neg (hk ▸ h.symm)]
      · rw [sget, ih, ← sget]

theorem sget_sdel_of_ne {α : Type} (d : α) {j k : Nat} (h : j ≠ k) (m : Sparse α) : sget d j (sdel k m) = sget d j m := by
  induction m with
  | nil => rfl
  | cons c t ih =>
    rw [sdel, List.filter_cons]
    split
    · rw [sget, sget, ← sdel, ih]
    · rename_i hk
      rw [sget, if_neg (by intro e; simp_all), ← sdel, ih]

/-- A deleted key reads as an unlisted key does. -/
theorem sget_sdel_self {α : Type} (d : α) (k : Nat) (m : Sparse α) : sget d k (sdel k m) = d :=
  sget_absent d k _ fun e he => by simpa using (List.mem_filter.mp he).2

/-- A write leaves every other key alone. -/
theorem sget_sset_of_ne {α : Type} [DecidableEq α] (d e : α) {j k : Nat} (h : j ≠ k) (v : α) (m : Sparse α) :
    sget d j (sset e k v m) = sget d j m := by
  rw [sset]
  split
  · exact sget_sdel_of_ne d h m
  · exact sget_sput_of_ne d h v m

/-- A read after a write of the same key gives the value written. -/
@[simp] theorem sget_sset_self {α : Type} [DecidableEq α] (d : α) (k : Nat) (v : α) (m : Sparse α) :
    sget d k (sset d k v m) = v := by
  rw [sset]
  split
  · rename_i hv
    rw [sget_sdel_self, hv]
  · exact sget_sput_self d k v m

/-! ### Reading after writing consecutive keys -/

theorem sget_append {α : Type} (d : α) (k : Nat) (a b : Sparse α) :
    sget d k (a ++ b) = if (∃ c ∈ a, c.1 = k) then sget d k a else sget d k b := by
  induction a with
  | nil => simp
  | cons c t ih =>
    rw [List.cons_append, sget, sget]
    by_cases h : c.1 = k
    · rw [if_pos h, if_pos h, if_pos ⟨c, by simp, h⟩]
    · rw [if_neg h, if_neg h, ih]
      simp only [List.mem_cons, exists_eq_or_imp, h, false_or]

/-- Entries that a filter keeps read as before. -/
theorem sget_filter {α : Type} (d : α) (k : Nat) (p : Nat → Bool) (h : p k = true) (m : Sparse α) :
    sget d k (m.filter (fun c => p c.1)) = sget d k m := by
  induction m with
  | nil => rfl
  | cons c t ih =>
    rw [List.filter_cons]
    split
    · rw [sget, sget, ih]
    · rename_i hc
      rw [sget, if_neg (by rintro rfl; exact hc h), ih]

theorem sget_cellsAt {α : Type} [DecidableEq α] (d : α) (k j : Nat) (l : List α) (h : j < l.length) :
    sget d (k + j) (cellsAt d k l) = l[j] := by
  induction l generalizing k j with
  | nil => simp at h
  | cons v t ih =>
    have ht := (cellsAt_mem d (k + 1) t).2
    rw [cellsAt]
    cases j with
    | zero =>
      split
      · rename_i hv
        rw [sget_absent d _ _ fun c hc => by have := (ht c hc).1; omega, List.getElem_cons_zero, hv]
      · simp [sget]
    | succ j =>
      have := ih (k + 1) j (by simpa using h)
      rw [show k + (j + 1) = k + 1 + j by omega]
      split
      · rw [this, List.getElem_cons_succ]
      · rw [sget, if_neg (by omega), this, List.getElem_cons_succ]

/-- A read of a key written among consecutive keys gives its value. -/
theorem sget_ssetList {α : Type} [DecidableEq α] (d : α) (k j : Nat) (l : List α) (h : j < l.length) (m : Sparse α) :
    sget d (k + j) (ssetList d k l m) = l[j] := by
  have hl : ¬ ∃ c ∈ m.filter (fun c => decide (c.1 < k)), c.1 = k + j := by
    rintro ⟨c, hc, e⟩
    have := (List.mem_filter.mp hc).2
    simp only [decide_eq_true_eq] at this
    omega
  rw [ssetList, List.append_assoc, sget_append, if_neg hl, sget_append]
  split
  · exact sget_cellsAt d k j l h
  · rename_i hn
    have hd : sget d (k + j) (cellsAt d k l) = d := sget_absent _ _ _ fun c hc e => hn ⟨c, hc, e⟩
    rw [← sget_cellsAt d k j l h, hd]
    refine sget_absent _ _ _ fun c hc e => ?_
    have := (List.mem_filter.mp hc).2
    simp only [decide_eq_true_eq] at this
    omega

/-- A write of consecutive keys leaves every other key alone. -/
theorem sget_ssetList_of_ne {α : Type} [DecidableEq α] (d : α) (k j : Nat) (l : List α) (h : j < k ∨ k + l.length ≤ j)
    (m : Sparse α) : sget d j (ssetList d k l m) = sget d j m := by
  have hc := (cellsAt_mem d k l).2
  rw [ssetList, List.append_assoc, sget_append]
  rcases h with h | h
  · have e := sget_filter d j (fun n => decide (n < k)) (by simpa using h) m
    split
    · exact e
    · rename_i hn
      rw [sget_append, if_neg (by rintro ⟨c, hx, rfl⟩; have := hc c hx; omega)]
      rw [sget_absent d j _ fun c hx e' => by
        have := (List.mem_filter.mp hx).2
        simp only [decide_eq_true_eq] at this
        omega]
      rw [← e]
      exact (sget_absent _ _ _ fun c hx e' => hn ⟨c, hx, e'⟩).symm
  · rw [if_neg (by
      rintro ⟨c, hx, rfl⟩
      have := (List.mem_filter.mp hx).2
      simp only [decide_eq_true_eq] at this
      omega)]
    rw [sget_append, if_neg (by rintro ⟨c, hx, rfl⟩; have := hc c hx; omega)]
    exact sget_filter d j (fun n => decide (k + l.length ≤ n)) (by simpa using h) m

end Sys2Proof.Machine
end

