-- ==== Sys2Proof/WellFormed.lean ====
section
/-!
DEFINITION. Commands that can be given to the part: every instance that a command names exists (R9, R348 and the tables of
the chapters that own the instances).
-/
namespace Sys2Proof

/-- The command names only instances that the hardware has. -/
def Instr.wf (i : Instr) : Bool :=
  match i with
  | .powerOn => true
  | .resetNLow => true
  | .pgoodChange _ => true
  | .resetRelease _ _ _ => true
  | .softwareReset => true
  | .refWindowEnd _ _ => true
  | .trimWindowEnd _ => true
  | .pllLock pll => decide (pll < 6)
  | .pllUnlock pll => decide (pll < 6)
  | .clockFaultReset => true
  | .domSwitchGo _ => true
  | .dividerStep dom _ => decide (dom < 7)
  | .islandStart => true
  | .bootStepEnd _ => true
  | .trainingComplete _ _ => true
  | .trainingRetry _ _ => true
  | .imageApply => true
  | .audioStart => true
  | .noPartnerTimeout => true
  | .helloTimeout => true
  | .wdtKick => true
  | .watchdogExpiry => true
  | .thermalWarn _ => true
  | .thermalShutdown => true
  | .blockTick _ => true
  | .subBlockBoundary _ _ => true
  | .latchedRead master _ => decide (master < 5)
  | .counterReadClear master _ => decide (master < 5)
  | .w1cWrite master _ _ => decide (master < 5)
  | .registerWrite master _ _ => decide (master < 5)
  | .layDataRead master => decide (master < 5)
  | .memDataRead master core => decide (master < 5) && decide (core < 64)
  | .sheetDataRead master => decide (master < 5)
  | .fxRegisterWrite master _ _ => decide (master < 5)
  | .nodeGainWrite master _ => decide (master < 5)
  | .kfPush master => decide (master < 5)
  | .fixCommit master => decide (master < 5)
  | .fixDiscard master => decide (master < 5)
  | .fixRegister => true
  | .fixAct => true
  | .instanceDispatch cls _ => decide (cls < 8)
  | .instanceComplete node _ => decide (node < 4096)
  | .instanceRelease node _ => decide (node < 4096)
  | .deadlineMiss node _ _ => decide (node < 4096)
  | .nop core _ => decide (core < 64)
  | .add core _ => decide (core < 64)
  | .sub core _ => decide (core < 64)
  | .addi core _ => decide (core < 64)
  | .and core _ => decide (core < 64)
  | .or core _ => decide (core < 64)
  | .xor core _ => decide (core < 64)
  | .asr core _ => decide (core < 64)
  | .lsl core _ => decide (core < 64)
  | .lsr core _ => decide (core < 64)
  | .abs core _ => decide (core < 64)
  | .neg core _ => decide (core < 64)
  | .min core _ => decide (core < 64)
  | .max core _ => decide (core < 64)
  | .cmp core _ => decide (core < 64)
  | .mov core _ => decide (core < 64)
  | .mul core _ => decide (core < 64)
  | .mac core _ => decide (core < 64)
  | .msu core _ => decide (core < 64)
  | .clra core _ => decide (core < 64)
  | .adda core _ => decide (core < 64)
  | .sha core _ => decide (core < 64)
  | .rnd core _ => decide (core < 64)
  | .lda core _ => decide (core < 64)
  | .maxs core _ => decide (core < 64)
  | .mins core _ => decide (core < 64)
  | .maxas core _ => decide (core < 64)
  | .movc core _ => decide (core < 64)
  | .movtc core _ => decide (core < 64)
  | .ldi core _ => decide (core < 64)
  | .cnop core _ => decide (core < 64)
  | .br core _ => decide (core < 64)
  | .call core _ => decide (core < 64)
  | .ret core _ => decide (core < 64)
  | .loop core _ => decide (core < 64)
  | .lbrk core _ => decide (core < 64)
  | .bmov core _ => decide (core < 64)
  | .waitm core _ => decide (core < 64)
  | .done core _ => decide (core < 64)
  | .blockMoveComplete core bank _ => decide (core < 64) && decide (bank < 3)
  | .spkMute master _ => decide (master < 5)
  | .sapHold master _ => decide (master < 5)
  | .tgPause master _ => decide (master < 5)
  | .requestRegister => true
  | .requestAct => true
  | .stopCmdStop master _ => decide (master < 5)
  | .stopCmdStart master _ => decide (master < 5)
  | .stopRegister => true
  | .stopBathAct => true
  | .stopClear => true
  | .stopDone => true
  | .startAct => true
  | .crossfadeEnd chain => decide (chain < 1024)
  | .tgStart gen => decide (gen < 16)
  | .sweepStart gen => decide (gen < 16)
  | .captureStart => true
  | .captureEnd => true
  | .convLoadData master _ => decide (master < 5)
  | .convLoadCommit master => decide (master < 5)
  | .deconvGo master => decide (master < 5)
  | .deconvJobDone _ _ => true
  | .twinLinkUp => true
  | .twinLinkDown _ _ => true
  | .linkLossResync => true
  | .linkResendTimeout => true
  | .leaseFrame _ _ => true
  | .adcSubFrame _ => true
  | .sliceFrame _ => true
  | .hashFrame _ => true
  | .stageMirrorFrame _ => true
  | .fixSealFrame _ _ => true
  | .reqRelayFrame _ => true
  | .healthFrame _ => true
  | .bulkPieceFrame _ => true
  | .nakFrame _ => true
  | .hello _ => true
  | .helloReply _ => true
  | .handover _ => true
  | .handoverAck _ => true
  | .release _ => true
  | .takeback _ => true
  | .takebackRefused _ => true
  | .emit _ => true
  | .resyncRequest _ => true
  | .bulkEnd _ => true
  | .divergent _ => true
  | .heartbeatFrame _ _ => true
  | .heartbeatTimer _ => true
  | .leaseExpiry => true
  | .takeover => true
  | .ownLeaseGuard => true
  | .twinCmdRelease master => decide (master < 5)
  | .twinCmdHandover master => decide (master < 5)
  | .twinCmdRestart master => decide (master < 5)
  | .twinCmdResync master => decide (master < 5)
  | .handoverRegister => true
  | .handoverCommit => true
  | .handoverSwitch => true
  | .emissionChange => true
  | .hashCompareTimeout => true
  | .bulkInstall => true
  | .settleExpiry => true
  | .sliceInstall => true
  | .sliceTimeout => true
  | .selfTestDone _ _ => true
  | .healthSend => true
  | .spareRowTest _ => true
  | .takebackHoldoff => true
  | .frameReceive port _ _ _ _ _ => decide (port < 5)
  | .netLinkChange port _ _ => decide (port < 5)
  | .txPacketSend port => decide (port < 5)
  | .lpiEnter => true
  | .lpiWake => true
  | .ptpAnnounce port => decide (port < 4)
  | .ptpSync port => decide (port < 4)
  | .ptpFollowUp port => decide (port < 4)
  | .ptpDelayReq port => decide (port < 4)
  | .ptpDelayResp port => decide (port < 4)
  | .syncSend dom _ => decide (dom < 2)
  | .announceSend dom => decide (dom < 2)
  | .delayReqSend dom _ => decide (dom < 2)
  | .announceTimeout dom => decide (dom < 2)
  | .syncTimeout dom => decide (dom < 2)
  | .epochHalfEnter _ => true
  | .epochWrite master entry _ => decide (master < 5) && decide (entry < 2)
  | .incWrite master _ => decide (master < 5)
  | .ptpStep master => decide (master < 5)
  | .ppsEdge _ => true
  | .ppsTimeout => true
  | .serialFrame group _ _ _ => decide (group < 24)
  | .frameAbsentTimeout group => decide (group < 24)
  | .rateWindowEnd group => decide (group < 24)
  | .sapAlign group _ => decide (group < 24)
  | .complianceCheck dac _ _ _ => decide (dac < 8)
  | .complianceMuteEnd dac => decide (dac < 8)
  | .micMeasure port _ => decide (port < 2)
  | .hsDetChange port _ => decide (port < 2)
  | .hsInsertConfirm port => decide (port < 2)
  | .hsRemoveConfirm port => decide (port < 2)
  | .hsClassifyEnd port => decide (port < 2)
  | .hsButtonFade port => decide (port < 2)
  | .hsOutputResume port => decide (port < 2)
  | .ampCurrentLimit amp _ => decide (amp < 2)
  | .ampRetryWaitEnd amp => decide (amp < 2)
  | .ampResume amp => decide (amp < 2)
  | .ampCleanSecond amp => decide (amp < 2)
  | .ampDcWindow amp _ => decide (amp < 2)
  | .ampClear master => decide (master < 5)
  | .pvddLow => true
  | .pvddRecover => true
  | .refreshDue channel rank _ _ => decide (channel < 2) && decide (rank < 2)
  | .zqCalibration channel => decide (channel < 2)
  | .dramHotChange _ => true
  | .dramTempRead _ => true
  | .parityAlert channel _ => decide (channel < 2)
  | .alertTimeout channel => decide (channel < 2)
  | .dramReadComplete _ port _ _ _ => decide (port < 8)
  | .eccWriteBack _ => true
  | .scrubRead _ _ _ _ _ _ => true
  | .dramScrubRead _ _ => true
  | .remapWrite master _ => decide (master < 5)
  | .dramWindowAccess master _ _ _ => decide (master < 5)
  | .gateWrite gate _ => decide (gate < 4)
  | .nvmErase master _ => decide (master < 5)
  | .nvmProgram master _ => decide (master < 5)
  | .nvmCheck master _ => decide (master < 5)
  | .nvmOpDone _ => true
  | .nvmDataWrite master _ => decide (master < 5)
  | .nvmDataRead master => decide (master < 5)
  | .faultLogWrite _ => true
  | .tcmRead => true
  | .tcmWrite => true
  | .tcmStage => true
  | .tcmFix => true
  | .tcmStopBath => true
  | .tcmStart => true
  | .snapshotTake => true
  | .snapshotRead => true
  | .tcmHealth => true
  | .writeFrame _ => true
  | .readFrame _ => true
  | .snapshotRegister => true
  | .sheetCapture => true
  | .evcSrcWrite master _ => decide (master < 5)
  | .evcSnap master => decide (master < 5)
  | .evcClearSel master => decide (master < 5)
  | .counterSnapshot => true
  | .heartbeatsMissing => true
  | .alertNReturn channel => decide (channel < 2)
  | .thermalResetRelease => true
  | .lldpFrame _ => true

end Sys2Proof
end

