-- ==== Sys2Proof/Safety.lean ====
section
/-!
DEFINITION. What counts as a safe run, in the terms that the claims use.
-/
namespace Sys2Proof.Machine

/-- The byte stores of the machine are canonical: DRAM, working SRAM and FAB SRAM, whose unlisted bytes read 0, and the flash,
whose unlisted bytes are erased. -/
def State.memOk (s : State) : Bool :=
  Memory.wf 0 s.mem.dram && Memory.wf 0 s.mem.sram && Memory.wf 0 s.mem.fab && Memory.wf 0xFF s.nvm.flash

/-- A command completes in a state: it answers a next state. -/
def Completes (c : Instr) (s : State) : Prop := ∃ t, exec c s = .next t

/-- A step neither faults nor is refused. -/
def StepsOn (s : State) : Prop := ∃ t, step s = .next t

/-- Every command that waits names only instances of the hardware. -/
def QueueOk (s : State) : Prop := ∀ c ∈ s.pending, c.wf = true

/-- The machine `t` is the machine `s` after a reset with these causes (R542): only SAFE time, the levels of balls, the
trim code, the cause and count of resets, what has left on the heartbeat line and the twin link, the flash and the queue are
left. -/
def ResetOf (causes : Nat) (s t : State) : Prop :=
  t = { keepBalls s (State.fresh t.clk (Nvm.reset s.nvm.flash) s.tcm.draws s.free s.pending) with
        twin := { Twin.reset with hbSeq := t.twin.hbSeq, hbWord := t.twin.hbWord, sent := t.twin.sent } }
    ∧ t.clk = { Clk.reset with
        safe := s.clk.safe, resetAt := s.clk.safe, kickAt := s.clk.safe, pgoodAt := s.clk.pgoodAt, resetN := t.clk.resetN
        pgood := s.clk.pgood, hotHold := t.clk.hotHold, cause := causes, resets := min (s.clk.resets + 1) 65535
        trim := s.clk.trim }

/-- The control interconnect performs an access of a master at an address (R510 to R513), and the clock of what it reaches
runs (R534). -/
def Serves (master addr : Nat) (write : Bool) (s : State) : Prop :=
  masterActive master s = true ∧ busRefused master addr write s = none ∧ gated addr master s = false

/-- The state after the interconnect has answered a master's write without a bus error. -/
def answered (master : Nat) (s : State) : State := busAnswer master (sget 0 master s.bus.rdata) false s

/-- Two bus states differ at most in what masters were answered. -/
def SameRegs (a b : Bus) : Prop := a.regs = b.regs ∧ a.ctr = b.ctr ∧ a.total = b.total

/-- A write of a master has put the open staged set into the state `o`, its mirror entries apart, and nothing else has changed
but the answer to the master and the frames that mirror the write to the partner. -/
def Staging (o : Staged) (master : Nat) (s t : State) : Prop :=
  t = { answered master s with
    mx := { s.mx with open_ := { o with bytes := t.mx.open_.bytes } }
    twin := { s.twin with txq := t.twin.txq, txSeq := t.twin.txSeq } }

/-- One event of this code has been raised (R593, R594). -/
def Rings (code : Nat) (s t : State) : Prop :=
  t.ev.eseq = (s.ev.eseq + 1) % 2 ^ 32 ∧ t.ev.pend = s.ev.pend ||| (1#256 <<< code)

/-- The state `t` is the state `u` but for events, their delivery, and counters. -/
def Heard (u t : State) : Prop :=
  t = { u with
    bus := { u.bus with ctr := t.bus.ctr, total := t.bus.total }, ev := t.ev, evc := { u.evc with cnt := t.evc.cnt }
    tcm := { u.tcm with evtLost := t.tcm.evtLost } }

/-- A counter has advanced by `n` and saturates. -/
def Counts (addr inst n : Nat) (s t : State) : Prop := cget addr inst t = min (cget addr inst s + n) 0xFFFFFFFF

/-- A control message of this type at the front of the input passes every check (R578, R579, R584, R585, R589, R570, R313,
R590): the frame `x` is the first, `rest` waits behind it. -/
def Accepted (type : Nat) (x : InFrame) (rest : List InFrame) (s : State) : Prop :=
  let f := x.bytes
  s.tcm.input = x :: rest ∧ s.clk.inReset = false ∧ s.nvm.recovery = false ∧ frameOk f = true ∧ frType f = type
    ∧ typeListed f = true ∧ authOk x s = true ∧ frSession f = s.tcm.session
    ∧ seqCase (memoOf (frAuth f) (frKey f) s) (frSeq f) = .fresh ∧ payloadOk type (frPayload f) = true ∧ frStatus f = 0
    ∧ bit 0 (frFlags f) = false ∧ stateOk type (frPayload f) s = true ∧ rightsOk x s = true

/-- The state after that frame is accepted (R585): it has left the input, and its SEQ is the key's latest. -/
def accepted (x : InFrame) (rest : List InFrame) (s : State) : State :=
  acceptRequest x { s with tcm := { s.tcm with input := rest } }

/-! ### Frames of the twin link -/

/-- The payload of a frame. -/
def payload (frame : List Byte) : List Nat := slice 8 (be (slice 4 2 (bytesOf frame))) (bytesOf frame)

/-- A frame of this type that the link takes (R302 to R304): the link is up, the frame is whole, its CRC and its layout are
right, and in the reliable stream it is the next one. -/
def Taken (type : Nat) (frame : List Byte) (s : State) : Prop :=
  let l := bytesOf frame
  let n := be (slice 4 2 l)
  s.twin.linkUp = true ∧ nth 0 l 0 = type ∧ n + 12 ≤ l.length ∧ n ≤ 32768
    ∧ crc32 (l.take (8 + n)) = be (slice (8 + n) 4 l) ∧ layoutOk s type (slice 8 n l) = true
    ∧ (isReliable type = true → be (slice 2 2 l) = s.twin.rxSeq)

/-- The state after the link has taken a frame: its time is noted, what it acknowledges is no longer queued, and the stream goes
on. A NAK acknowledges by its payload. -/
def tookFrame (type : Nat) (frame : List Byte) (s : State) : State :=
  { s with twin := { s.twin with
    linkAt := s.clk.safe
    txq := if type = 0x3F then s.twin.txq else s.twin.txq.filter (fun f => !seqLe f.seq (be (slice 6 2 (bytesOf frame))))
    rxSeq := if isReliable type then (s.twin.rxSeq + 1) % 65536 else s.twin.rxSeq } }

/-! ### Effect cores -/

/-- An exact result brought into `n` signed bits: saturated with S = 1, wrapped with S = 0 (R279). -/
def fitTo (n : Nat) (sat : Bool) (x : Int) : Int :=
  if sat then max (-(2 ^ (n - 1))) (min (2 ^ (n - 1) - 1) x) else (x + 2 ^ (n - 1)) % 2 ^ n - 2 ^ (n - 1)

/-- Saturation changes the result (R279). -/
def unfit (n : Nat) (sat : Bool) (x : Int) : Bool := sat && (decide (x < -(2 ^ (n - 1))) || decide (2 ^ (n - 1) ≤ x))

/-- Core `k` issues bundle `b` of program `p` next, in the context `c`, and its fetch is sound (R291). -/
def Issues (k : Nat) (b : Bundle) (env : EcEnv) (c : EcCtx) (p : EcProg) (s : State) : Prop :=
  k < 64 ∧ env.fetchBad = false ∧ ∃ w, fetched k s = some (c, p, some w) ∧ decodeBundle w = b

/-- The context with the bundle's FAB cycles passed and no stall. -/
def EcCtx.run (c : EcCtx) (env : EcEnv) : EcCtx :=
  { c with cyc := c.cyc + env.cycles, ran := c.ran + env.cycles, stalled := false }

/-- The state in which the running context of core `k` is `c`, the cycles of a bundle having passed for every context of the
core. -/
def ranAs (k : Nat) (env : EcEnv) (c : EcCtx) (s : State) : State :=
  ctxSet k c (coreSet k (passCycles env.cycles (coreGet k s)) s)

end Sys2Proof.Machine
end

