-- ==== Sys2Proof/Certificates/Slice0/Obligations.lean ====
section
/-!
DEFINITION. The statements for the provers, chapter by chapter.
-/
open Sys2Proof Sys2Proof.Machine

/-! ### The whole machine -/

/-- A step with a command in front of the queue is that command's effect with the queue's rest (the model's queue of
commands: assumption 2). -/
def Obligations.StepRunsFront : Prop :=
  ∀ (c : Instr) (rest : List Instr) (s : State),
    step { s with pending := c :: rest } = exec c { s with pending := rest }

/-- On an empty queue the block idles (the model's choice: assumption 2). -/
def Obligations.StepIdles : Prop := ∀ s : State, s.pending = [] → step s = .next s

/-- Registers right after power-on reset (chapter 18 and the chapters that own them), as the supervisor's reads find them;
the device is held in reset, no audio runs, and the byte stores are canonical. Choices of the model: assumptions 3, 10. -/
def Obligations.ResetValues : Prop :=
  let s := State.reset
  s.pending = [] ∧ s.clk.inReset = true ∧ s.grid.running = false
    ∧ regNow 0 0x10000000 s = 0x1800 ∧ regNow 0 0x10020000 s = 1 ∧ regNow 0 0x10020004 s = 0 ∧ regNow 0 0x10020008 s = 1
    ∧ regNow 0 0x10050004 s = 0x0055C000 ∧ regNow 0 0x10080014 s = 0x00200000 ∧ regNow 0 0x10070010 s = 5
    ∧ regNow 0 0x10030008 s = 1 ∧ regNow 0 0x10090008 s = 0xFFF ∧ regNow 0 0x100C0020 s = 4
    ∧ regNow 0 0x10130050 s = 0x0FFF0000 ∧ regNow 0 0x1001001C s = 0 ∧ s.memOk = true

/-- Every step keeps DRAM, working SRAM, FAB SRAM and the flash canonical: no address listed twice, none listed that reads as an
unlisted one, addresses rising. Choices of the model: assumption 1. -/
def Obligations.StepKeepsMemory : Prop :=
  ∀ s t : State, s.memOk = true → step s = .next t → t.memOk = true

/-- The flash is written only when a flash operation ends and when a fault-log entry is written. -/
def Obligations.FlashWriters : Prop :=
  ∀ (c : Instr) (s t : State), exec c s = .next t → t.nvm.flash ≠ s.nvm.flash →
    (∃ fail, c = .nvmOpDone fail) ∨ ∃ safe, c = .faultLogWrite safe

/-- Every command that names only instances of the hardware completes, in every state. A command that names an instance that
the hardware does not have stops by that name, and nothing else stops: no command is refused. Choices of the model:
assumption 9. -/
def Obligations.CommandsComplete : Prop :=
  ∀ (c : Instr) (s : State), (c.wf = true → Completes c s)
    ∧ (c.wf = false → ∃ what i, exec c s = .fault (.noSuchInstance what i)) ∧ ∀ r : Refusal, exec c s ≠ .refused r

/-- No command's effect reaches the queue of the commands that wait: a step only takes its front. While a queue holds only
well-formed commands a step goes on, and leaves such a queue. -/
def Obligations.QueueKept : Prop :=
  (∀ (c : Instr) (s t : State), exec c s = .next t → t.pending = s.pending)
    ∧ ∀ s : State, QueueOk s → ∃ t, step s = .next t ∧ QueueOk t ∧ t.pending = s.pending.tail

/-! ### Registers -/

/-- COUNTER_READ_CLEAR: an RC register's read answers the value it held and sets it to its reset value in the same access: 0
for a counter; the whole pool, no margin and 0 for the registers that the blocks hold. Choices of the model: assumption 81. -/
def Obligations.CounterReadClears : Prop :=
  ∀ (m : Nat) (addr : Word) (s : State), m < 5 → Serves m addr.toNat false s → accOf addr.toNat = .rc →
    let a := addr.toNat
    let i := instOf a m s
    let held := isEc a && decide (a % 0x400 = 0x18) || [0x100B000C, 0x100B0040, 0x100B0048, 0x100B008C, 0x1004000C, 0x10040014].contains a
    ∃ t, exec (.counterReadClear m addr) s = .next t
      ∧ t = { s with bus := t.bus, sched := t.sched, ec := t.ec, net := t.net }
      ∧ sget 0 m t.bus.rdata = regNow m a s ∧ sget 0 m t.bus.rerr = 0 ∧ t.bus.regs = s.bus.regs ∧ t.bus.total = s.bus.total
      ∧ cget a i t = (if held then cget a i s else 0)
      ∧ (∀ b j, rkey b j ≠ rkey a i → cget b j t = cget b j s)
      ∧ t.sched = (if a = 0x1004000C then { s.sched with peak := 0 }
          else if a = 0x10040014 then { s.sched with loadPeak := 0 } else s.sched)
      ∧ (∀ k, coreGet k t = if isEc a ∧ a % 0x400 = 0x18 ∧ k = a / 0x400 % 64 then { coreGet k s with peak := 0 } else coreGet k s)
      ∧ t.net.poolMin = (if a = 0x100B000C then 0x10000 else s.net.poolMin)
      ∧ (pnGet i t).rxOctets = (if a = 0x100B0040 then 0 else (pnGet i s).rxOctets)
      ∧ (pnGet i t).txOctets = (if a = 0x100B0048 then 0 else (pnGet i s).txOctets)
      ∧ (rxGet i t).margin = (if a = 0x100B008C then 65535 else (rxGet i s).margin)

/-- LATCHED_READ: a read of the low word of a wide register latches every other word of it, from the same source cycle, in the
reading master's own latch; a read of such a word answers what is latched, and its reset value before anything is. -/
def Obligations.LatchedReads : Prop :=
  ∀ (m : Nat) (addr : Word) (s : State), m < 5 → Serves m addr.toNat false s →
    (addr.toNat ∈ lowWords → accOf addr.toNat ≠ .rc →
      ∃ t, exec (.latchedRead m addr) s = .next t ∧ t = { s with bus := t.bus } ∧ SameRegs t.bus s.bus
        ∧ sget 0 m t.bus.rdata = regNow m addr.toNat s
        ∧ (∀ a ∈ latched addr.toNat, latchOf m a t = some (regNow m a s))
        ∧ ∀ k a, k < 5 → k ≠ m → latchOf k a t = latchOf k a s)
    ∧ (isLatched addr.toNat = true → accOf addr.toNat ≠ .rc → addr.toNat ∉ lowWords →
      ∃ t, exec (.latchedRead m addr) s = .next t ∧ t = { s with bus := t.bus } ∧ SameRegs t.bus s.bus
        ∧ t.bus.latch = s.bus.latch
        ∧ sget 0 m t.bus.rdata = (latchOf m addr.toNat s).getD (latchReset addr.toNat))

/-- W1C_WRITE: each status bit written as 1 is cleared, each written as 0 stays, and nothing else changes but the answer to
the master. -/
def Obligations.StatusBitsClear : Prop :=
  ∀ (m : Nat) (v : Word) (s : State), m < 5 →
    let keep := fun (old : Bool) (k : Nat) => old && !bit k v.toNat
    let at_ := fun (a : Nat) (f : State → Nat → State) => Serves m a true s →
      exec (.w1cWrite m (BitVec.ofNat 32 a) v) s = .next (f (answered m s) (instOf a m s))
    at_ 0x10000210 (fun t _ => { t with grid := { t.grid with
        memPoison := keep t.grid.memPoison 2, overload := keep t.grid.overload 3, lateFix := keep t.grid.lateFix 4
        latePacket := keep t.grid.latePacket 5, sapSubst := keep t.grid.sapSubst 6 } })
    ∧ at_ 0x10010008 (fun t _ => { t with clk := { t.clk with
        refLoss := keep t.clk.refLoss 8, pllUnlock := keep t.clk.pllUnlock 9, switchForced := keep t.clk.switchForced 10 } })
    ∧ at_ 0x10030060 (fun t _ => { t with twin := { t.twin with
        adcMiss := keep t.twin.adcMiss 3, sliceLate := keep t.twin.sliceLate 4 } })
    ∧ at_ 0x100C0008 (fun t _ => { t with time := { t.time with
        lockChange := keep t.time.lockChange 8, switched := keep t.time.switched 9, gmChange := keep t.time.gmChange 10
        ppsLoss := keep t.time.ppsLoss 11 } })
    ∧ at_ 0x100C002C (fun t _ => { t with time := { t.time with
        stale := keep t.time.stale 3, badWrite := keep t.time.badWrite 4 } })
    ∧ at_ 0x100B0018 (fun t p => if bit 8 v.toNat then pnSet p { pnGet p t with linkChange := false } t else t)
    ∧ at_ 0x100D0010 (fun t g => grpSet g { grpGet g t with
        clockLoss := keep (grpGet g t).clockLoss 8, slip := keep (grpGet g t).slip 9
        rateChange := keep (grpGet g t).rateChange 10, resync := keep (grpGet g t).resync 11 } t)
    ∧ at_ 0x100E0020 (fun t k => adcSet k { adcGet k t with
        overload := keep (adcGet k t).overload 1, switched := keep (adcGet k t).switched 2 } t)
    ∧ at_ 0x100F001C (fun t k => dacSet k { dacGet k t with
        openEv := keep (dacGet k t).openEv 8, overEv := keep (dacGet k t).overEv 9 } t)
    ∧ at_ 0x1010000C (fun t k => ampSet k { ampGet k t with
        trip := keep (ampGet k t).trip 8, dcFault := keep (ampGet k t).dcFault 9, clip := keep (ampGet k t).clip 10 } t)
    ∧ at_ 0x1011000C (fun t k => hsSet k { hsGet k t with
        insert := keep (hsGet k t).insert 8, remove := keep (hsGet k t).remove 9, press := keep (hsGet k t).press 10
        typeChange := keep (hsGet k t).typeChange 11 } t)
    ∧ at_ 0x1014000C (fun t _ => { t with tcm := { t.tcm with
        authFail := keep t.tcm.authFail 8, stale := keep t.tcm.stale 9, evtLost := keep t.tcm.evtLost 10 } })
    ∧ (Serves m 0x100D0064 true s → ∃ t, exec (.w1cWrite m 0x100D0064 v) s = .next t
        ∧ t = { answered m s with sap := { s.sap with agEvent := t.sap.agEvent } }
        ∧ ∀ k < 32, bit k t.sap.agEvent = keep (bit k s.sap.agEvent) k)

/-- W1C_WRITE of CTL.PENDw clears exactly the pending bits of the 32 event codes of word w that are written as 1. -/
def Obligations.PendingEventsClear : Prop :=
  ∀ (m w : Nat) (v : Word) (s : State), m < 5 → w < 8 → Serves m (0x10140040 + 4 * w) true s →
    exec (.w1cWrite m (BitVec.ofNat 32 (0x10140040 + 4 * w)) v) s
      = .next { answered m s with ev := { s.ev with pend := s.ev.pend &&& ~~~(v.setWidth 256 <<< (32 * w)) } }

/-- REGISTER_WRITE: an RW register with no row of its own takes the bits that are not reserved, at once; a write of an RO
register and of an offset that carries no register is ignored; an access that is not one aligned word, and a burst to register
space, are bus errors and perform nothing. -/
def Obligations.PlainRegisterWrites : Prop :=
  (∀ (m : Nat) (addr v : Word) (s : State), m < 5 → Serves m addr.toNat true s →
    let a := addr.toNat
    let i := instOf a m s
    0x10000000 ≤ a → a < 0x10180000 →
    (accOf a = .rw → heldByState a = false → a ∉ [0x100C001C, 0x100C006C, 0x10130044] → (a, i) ≠ (0x10010018, 5) →
      (m = 0 ∨ a ∉ [0x10000300, 0x10010014, 0x10010018, 0x10010030, 0x10010034, 0x10010038, 0x1001003C]) →
      ∃ t, exec (.registerWrite m addr ⟨4, [v]⟩) s = .next t ∧ t = { s with bus := t.bus } ∧ t.bus.ctr = s.bus.ctr
        ∧ rget a i t = v.toNat &&& rwMask a ∧ (∀ b j, rkey b j ≠ rkey a i → rget b j t = rget b j s))
    ∧ (a ∈ [0x10000300, 0x10010014, 0x10010018, 0x10010030, 0x10010034, 0x10010038, 0x1001003C, 0x10010040] → m ≠ 0 →
      exec (.registerWrite m addr ⟨4, [v]⟩) s = .next (answered m s))
    ∧ (accOf a = .ro ∨ accOf a = .rc ∨ accOf a = .none → exec (.registerWrite m addr ⟨4, [v]⟩) s = .next (answered m s)))
  ∧ ∀ (m : Nat) (addr : Word) (bytes : Nat) (values : List Word) (s : State), m < 5 → masterActive m s = true →
    0x10000000 ≤ addr.toNat → addr.toNat < 0x10130000 → bytes ≠ 4 ∨ addr.toNat % 4 ≠ 0 ∨ values.length ≠ 1 →
    ∃ t, exec (.registerWrite m addr ⟨bytes, values⟩) s = .next t ∧ Counts 0x1000030C 0 1 s t ∧ Rings 0x7F s t
      ∧ t = { s with bus := t.bus, ev := t.ev, evc := t.evc, tcm := t.tcm } ∧ t.bus.regs = s.bus.regs
      ∧ sget 0 m t.bus.rerr = 1 ∧ t.bus.errAddr = addr.toNat ∧ t.bus.errInfo = m + 2 ^ 6 + 2 ^ 31

/-- LAY_DATA_READ, MEM_DATA_READ and SHEET_DATA_READ answer the word at the master's own indirect address and move that
address on, and change nothing else; a word of an effect core's memory that carries an uncorrectable error reads as 0. -/
def Obligations.IndirectReads : Prop :=
  ∀ (m : Nat) (s : State), m < 5 →
    (Serves m 0x10060034 false s → ∃ t, exec (.layDataRead m) s = .next t ∧ t = { s with bus := t.bus }
      ∧ sget 0 m t.bus.rdata = wordIn false (rget 0x10060030 m s) s.img.layout.body
      ∧ rget 0x10060030 m t = (rget 0x10060030 m s + 4) % 2 ^ 17 ∧ t.bus.ctr = s.bus.ctr)
    ∧ (Serves m 0x10140090 false s → ∃ t, exec (.sheetDataRead m) s = .next t ∧ t = { s with bus := t.bus }
      ∧ sget 0 m t.bus.rdata = wordIn true (rget 0x1014008C m s) s.sheet.bytes
      ∧ rget 0x1014008C m t = (rget 0x1014008C m s + 4) % 2 ^ 16 ∧ t.bus.ctr = s.bus.ctr)
    ∧ (∀ k < 64, Serves m (ecAddr k 0x44) false s →
      (∀ y, s.ec.poison.contains (coreKey k y (rget (ecAddr k 0x40) m s % 2 ^ 13)) = false) →
      ∃ t, exec (.memDataRead m k) s = .next t ∧ t = { s with bus := t.bus }
      ∧ sget 0 m t.bus.rdata = memData k (rget (ecAddr k 0x40) m s) s
      ∧ rget (ecAddr k 0x40) m t % 2 ^ 13 = (rget (ecAddr k 0x40) m s + 1) % 2 ^ 13
      ∧ rget (ecAddr k 0x40) m t / 2 ^ 13 = rget (ecAddr k 0x40) m s / 2 ^ 13 ∧ t.bus.ctr = s.bus.ctr)
    ∧ ∀ k < 64, Serves m (ecAddr k 0x44) false s →
      let a := rget (ecAddr k 0x40) m s
      bits 15 14 a < 2 → s.ec.poison.contains (coreKey k (decide (bits 15 14 a = 1)) (a % 2 ^ 13)) = true →
      ∃ t, exec (.memDataRead m k) s = .next t ∧ sget 0 m t.bus.rdata = 0 ∧ Counts 0x1012004C 0 1 s t
        ∧ t.grid.memPoison = true ∧ t.ec = s.ec

/-! ### Reset, clocks and boot (chapter 15) -/

/-- RESET_N_LOW, SOFTWARE_RESET, CLOCK_FAULT_RESET, WATCHDOG_EXPIRY and THERMAL_SHUTDOWN reset the whole device but what R542
leaves, with their own cause bit, the watchdog's when its timeout has passed since the latest kick and the clock fault's
640,000 SAFE cycles after it; without a clock fault none is due; a trigger while the device is in reset joins the causes.
Choices of the model: assumptions 42, 43, 109. -/
def Obligations.Resets : Prop :=
  ∀ s : State,
    (s.clk.inReset = false →
      (∃ t, exec .resetNLow s = .next t ∧ ResetOf 2 s t ∧ t.clk.resetN = false ∧ t.clk.inReset = true)
      ∧ (∃ t, exec .watchdogExpiry s = .next t ∧ ResetOf 4 (setSafe (s.clk.kickAt + 32000 * wdtTimeout s) s) t
        ∧ t.clk.inReset = true)
      ∧ (∀ at_, s.clk.faultAt = some at_ → ∃ t, exec .clockFaultReset s = .next t ∧ ResetOf 8 (setSafe (at_ + 640000) s) t
        ∧ t.clk.inReset = true)
      ∧ (∃ t, exec .thermalShutdown s = .next t ∧ ResetOf 16 s t ∧ t.clk.inReset = true ∧ t.clk.hotHold = true)
      ∧ (Serves 0 0x1002001C true s → ∃ t, exec .softwareReset s = .next t ∧ ResetOf 32 s t ∧ t.clk.inReset = true))
    ∧ (s.clk.inReset = true → exec .resetNLow s
        = .next { s with clk := { s.clk with cause := s.clk.cause ||| 2, resetN := false } })
    ∧ (s.clk.faultAt = none → exec .clockFaultReset s = .next s)

/-- POWER_ON starts the device anew with the factory trim code and the cause POWER_ON; PGOOD low holds it in reset; and
RESET_RELEASE, with PGOOD high and the junction cool, begins the boot ledger with STRAP_HOME sampled and a session drawn.
Choices of the model: assumptions 42, 43. -/
def Obligations.PowerAndRelease : Prop :=
  ∀ s : State,
    (∃ t, exec .powerOn s = .next t ∧ t.clk = { Clk.reset with resetN := s.clk.resetN } ∧ t.nvm = Nvm.reset s.nvm.flash
      ∧ t.clk.cause = 1 ∧ t.clk.trim = Config.factoryTrim % 1024 ∧ t.bus = Bus.reset ∧ t.twin = Twin.reset
      ∧ t.pending = s.pending)
    ∧ (∃ t, exec (.pgoodChange false) s = .next t ∧ t.clk.pgood = false ∧ t.clk.inReset = true ∧ t.nvm.flash = s.nvm.flash)
    ∧ (s.clk.pgood = false → exec (.pgoodChange true) s
        = .next { s with clk := { s.clk with pgood := true, pgoodAt := s.clk.safe } })
    ∧ (s.clk.pgood = true → exec (.pgoodChange true) s = .next s)
    ∧ (∀ (home test : Bool) (safe : Nat), s.clk.inReset = true → s.clk.pgood = true → s.clk.hotHold = false →
      ∃ t, exec (.resetRelease home test safe) s = .next t
        ∧ t = { s with clk := t.clk, twin := { s.twin with home := home }, tcm := t.tcm }
        ∧ t.clk.inReset = false ∧ t.clk.step = 1 ∧ t.clk.testMode = test ∧ t.clk.safe = max s.clk.safe safe
        ∧ t.clk.cause = s.clk.cause ∧ t.tcm.session ≠ 0 ∧ t.tcm.session < 2 ^ 32)
    ∧ ∀ (home test : Bool) (safe : Nat), s.clk.hotHold = true → exec (.resetRelease home test safe) s = .next s

/-- THERMAL_WARN sets HEALTH.THERMAL_WARN from 100 °C (400 quarter degrees) and raises EV_THERMAL_WARN when it was clear,
keeps it from 97 °C and clears it below; THERMAL_RESET_RELEASE lets a cooled device leave reset; WDT_KICK restarts the
watchdog; and the watchdog's timeout is 2,000 ms until the image is applied. Choices of the model: assumptions 10, 96. -/
def Obligations.WatchdogAndHeat : Prop :=
  ∀ s : State,
    (∀ temp : Int, ∃ t, exec (.thermalWarn temp) s = .next t
      ∧ t.clk = { s.clk with temp := temp, warn := decide (400 ≤ temp) || (s.clk.warn && decide (388 ≤ temp)) }
      ∧ t = { s with clk := t.clk, ev := t.ev, evc := t.evc, bus := t.bus, tcm := t.tcm }
      ∧ t.ev.eseq = (if 400 ≤ temp ∧ s.clk.warn = false then (s.ev.eseq + 1) % 2 ^ 32 else s.ev.eseq)
      ∧ t.ev.pend = (if 400 ≤ temp ∧ s.clk.warn = false then s.ev.pend ||| 1#256 <<< 0x84 else s.ev.pend))
    ∧ exec .thermalResetRelease s = .next { s with clk := { s.clk with hotHold := false } }
    ∧ (Serves 0 0x10020014 true s → exec .wdtKick s
        = .next { answered 0 s with clk := { s.clk with kickAt := s.clk.safe } })
    ∧ (s.nvm.applied = false → wdtTimeout s = 2000) ∧ (s.nvm.applied = true → wdtTimeout s = s.clk.wdtMs)

/-- REF_WINDOW_END: the reference is qualified after 8 passing windows in a row, a failing window sets the run back to 0, and
two failing windows in a row after that are a reference loss; qualification at step 2 begins step 3. -/
def Obligations.ReferenceWindows : Prop :=
  ∀ (ref : Nat) (doms : List Nat) (s : State), s.clk.inReset = false →
    let pass := 24500 ≤ ref ∧ ref ≤ 25500
    ∃ t, exec (.refWindowEnd ref doms) s = .next t ∧ t.clk.refCount = ref % 65536 ∧ t.pending = s.pending
      ∧ (s.clk.refOk = false →
          (¬ pass → t = { s with clk := { s.clk with refCount := ref % 65536, refRun := 0 } })
          ∧ (pass → s.clk.refRun + 1 < 8 →
              t = { s with clk := { s.clk with refCount := ref % 65536, refRun := s.clk.refRun + 1 } })
          ∧ (pass → 8 ≤ s.clk.refRun + 1 → t.clk.refOk = true
              ∧ t.clk.step = (if s.clk.step = 2 then 3 else s.clk.step)
              ∧ (s.clk.step = 2 → ∀ p < 5, bit 31 (rget 0x10010014 p t) = true)))
      ∧ (s.clk.refOk = true →
          (pass → t.clk.refOk = true ∧ t.clk.refBad = 0)
          ∧ (¬ pass → s.clk.refBad = 0 → t.clk.refOk = true ∧ t.clk.refBad = 1)
          ∧ (¬ pass → s.clk.refBad ≠ 0 → t.clk.refOk = false ∧ t.clk.refLoss = true ∧ t.clk.faultAt.isSome))

/-- TRIM_WINDOW_END: a window more than 2 % off is discarded and counted; the first good one moves the code by the rounded
error in 100 ppm steps, and a later one by one step towards zero error when it is more than 75 ppm off. The reference must
be qualified, and its windows expect 32,000,000 cycles; the code here stays within its ten bits. -/
def Obligations.TrimWindows : Prop :=
  ∀ (counted : Nat) (s : State), s.clk.refOk = true → s.clk.trimSrcCfg = 0 → s.clk.trim < 1024 →
    let d : Int := (counted : Int) - 32000000
    (32000000 < 50 * d.natAbs → ∃ t, exec (.trimWindowEnd counted) s = .next t ∧ t.clk.trim = s.clk.trim
      ∧ t.clk.trimDone = s.clk.trimDone ∧ cget 0x10010068 0 t = min (cget 0x10010068 0 s + 1) 0xFFFFFFFF)
    ∧ (¬ 32000000 < 50 * d.natAbs → s.clk.trimDone = false →
      0 ≤ (s.clk.trim : Int) - rhu (d * 10 ^ 4) 32000000 → (s.clk.trim : Int) - rhu (d * 10 ^ 4) 32000000 < 1024 →
      ∃ t, exec (.trimWindowEnd counted) s = .next t ∧ t = { s with clk := t.clk }
        ∧ (t.clk.trim : Int) = s.clk.trim - rhu (d * 10 ^ 4) 32000000 ∧ t.clk.trimDone = true)
    ∧ (¬ 32000000 < 50 * d.natAbs → s.clk.trimDone = true → 0 < s.clk.trim → s.clk.trim < 1023 →
      ∃ t, exec (.trimWindowEnd counted) s = .next t ∧ t = { s with clk := t.clk } ∧ t.clk.trimDone = true
        ∧ (t.clk.trim : Int) = s.clk.trim + (if 75 * 32000000 < (d.natAbs : Int) * 10 ^ 6 then (if 0 < d then -1 else 1) else 0))

/-- PLL_LOCK locks a programmed PLL, and leaves one that is not; PLL_UNLOCK of a locked one counts the loss, sets CLK.STATUS.PLL_UNLOCK, raises
EV_CLK_PLL_UNLOCK and leaves a clock fault from which a reset is due; losing CPLL also sends CTRL to SAFE. -/
def Obligations.PllLocks : Prop :=
  ∀ (p : Nat) (s : State), p < 6 →
    (bit 31 (rget 0x10010014 p s) = true → ∃ t, exec (.pllLock p) s = .next t ∧ (pllGet p t).locked = true
      ∧ (pllGet p t).losses = (pllGet p s).losses ∧ (∀ q, q ≠ p → pllGet q t = pllGet q s)
      ∧ t = { s with clk := { s.clk with pll := t.clk.pll } })
    ∧ (bit 31 (rget 0x10010014 p s) = false → exec (.pllLock p) s = .next s)
    ∧ ((pllGet p s).locked = false → exec (.pllUnlock p) s = .next s)
    ∧ ((pllGet p s).locked = true → ∃ t, exec (.pllUnlock p) s = .next t ∧ (pllGet p t).locked = false
      ∧ (pllGet p t).losses = min ((pllGet p s).losses + 1) 65535 ∧ (∀ q, q ≠ p → pllGet q t = pllGet q s)
      ∧ t.clk.pllUnlock = true ∧ t.clk.faultAt = s.clk.faultAt.or (some s.clk.safe) ∧ t.clk.inReset = s.clk.inReset
      ∧ cget 0x10010064 0 t = min (cget 0x10010064 0 s + 1) 0xFFFFFFFF
      ∧ (p = 0 → (domainGet 1 s).src ≠ 0 → (domainGet 1 t).dest = some 0))

/-- DOM_SWITCH_GO begins a switch of the domain that SV selects, or is refused with CLK.DOM_CTRL.RESULT set and no change
made: a switch in progress, a source that does not run, a domain that does not change. -/
def Obligations.DomainSwitchRequests : Prop :=
  ∀ (src : Nat) (s : State), src < 4 → Serves 0 0x10010024 true s →
    let k := rget 0x10010020 0 s
    let d := domainGet k s
    ∃ t, exec (.domSwitchGo src) s = .next t ∧ (∀ j, j ≠ k → domainGet j t = domainGet j s)
      ∧ t = { s with clk := { s.clk with dom := t.clk.dom }, bus := t.bus } ∧ t.bus.ctr = s.bus.ctr
      ∧ domainGet k t = (if goRefusal k src s ≠ 0 then { d with result := goRefusal k src s }
          else { d with dest := some src, moved := false, result := 0, forced := false })
      ∧ (d.dest.isSome = true → goRefusal k src s = 1)
      ∧ (d.dest.isSome = false → src = 2 ∨ (src = 1 ∧ (pllGet (pllOf k) s).locked = false) → goRefusal k src s = 2)
      ∧ (d.dest.isSome = false → src = 0 → k = 0 ∨ 7 ≤ k ∨ s.grid.running = true → goRefusal k src s = 3)
      ∧ (d.dest.isSome = false → src = 0 → 0 < k → k < 7 → s.grid.running = false → goRefusal k src s = 0)

/-- DIVIDER_STEP: the divider doubles in 1 µs steps down to a sixteenth, the multiplexer changes source, forced and counted
where the old source shows no edge, and the divider halves back to 1, which ends the switch. -/
def Obligations.DividerSteps : Prop :=
  ∀ (k : Nat) (edge : Bool) (src : Nat) (s : State), k < 7 → (domainGet k s).dest = some src →
    let d := domainGet k s
    (d.moved = false → edge = true → d.src ≠ 2 → d.div < 4 → ∃ t, exec (.dividerStep k edge) s = .next t
      ∧ domainGet k t = { d with div := d.div + 1 } ∧ t = { s with clk := { s.clk with dom := t.clk.dom } })
    ∧ (d.moved = false → edge = true → d.src = 2 ∨ 4 ≤ d.div → ∃ t, exec (.dividerStep k edge) s = .next t
      ∧ domainGet k t = { d with src := src, moved := true, div := 4, forced := false }
      ∧ t = { s with clk := { s.clk with dom := t.clk.dom } })
    ∧ (d.moved = false → edge = false → ∃ t, exec (.dividerStep k edge) s = .next t
      ∧ domainGet k t = { d with src := src, moved := true, div := 4, forced := true } ∧ t.clk.switchForced = true
      ∧ cget 0x10010060 0 t = min (cget 0x10010060 0 s + 1) 0xFFFFFFFF ∧ t.ev.eseq = (s.ev.eseq + 1) % 2 ^ 32)
    ∧ (d.moved = true → 1 < d.div → ∃ t, exec (.dividerStep k edge) s = .next t
      ∧ domainGet k t = { d with div := d.div - 1 } ∧ t = { s with clk := { s.clk with dom := t.clk.dom } })
    ∧ (d.moved = true → d.div ≤ 1 → ∃ t, exec (.dividerStep k edge) s = .next t
      ∧ domainGet k t = { d with div := 0, dest := none, moved := false }
      ∧ t = { s with clk := { s.clk with dom := t.clk.dom } })

/-- ISLAND_START switches on the lowest island that is off, in step 4; BOOT_STEP_END ends each step of the boot ledger once
what the step waits for has come about; and GATE_WRITE stores a gate register's bits. Choices of the model: assumption 44. -/
def Obligations.BootLedger : Prop :=
  ∀ s : State, s.clk.inReset = false →
    (∀ i < 16, s.clk.step = 4 → bit i s.clk.islands = false → (∀ j < i, bit j s.clk.islands = true) →
      ∃ t, exec .islandStart s = .next t ∧ t.clk.islands = s.clk.islands + 2 ^ i
        ∧ t = { s with clk := { s.clk with islands := t.clk.islands, dom := t.clk.dom } })
    ∧ (s.clk.testMode = false → s.nvm.recovery = false → ∀ log2 : Nat,
      (s.clk.step = 1 → exec (.bootStepEnd log2) s = .next { s with clk := { s.clk with step := 2 } })
      ∧ (s.clk.step = 2 → exec (.bootStepEnd log2) s
          = .next (if s.clk.refOk then programFixed { s with clk := { s.clk with step := 3 } } else s))
      ∧ (s.clk.step = 3 →
          let on := (∀ p < 5, (pllGet p s).locked = true) ∧ (domainGet 1 s).src = 1
          (on → ∃ t, exec (.bootStepEnd log2) s = .next t ∧ t = { s with clk := { s.clk with step := 4, dom := t.clk.dom } }
            ∧ ∀ k, domainGet k t = if (k = 3 ∨ k = 4 ∨ k = 5) ∧ (domainGet k s).src = 2
                then { domainGet k s with src := 1, div := 0 } else domainGet k s)
          ∧ (¬on → exec (.bootStepEnd log2) s = .next s))
      ∧ (s.clk.step = 7 → s.mem.ch0.trained = true → s.mem.ch1.trained = true → (pllGet 5 s).locked = true →
          ∃ t, exec (.bootStepEnd log2) s = .next t ∧ t.clk = { s.clk with step := 8, dom := t.clk.dom }
            ∧ (domainGet 6 t).src ≠ 2)
      ∧ (s.clk.step = 9 → s.time.lock = true → ∃ t, exec (.bootStepEnd log2) s = .next t ∧ t.clk = { s.clk with step := 10 })
      ∧ (s.clk.step = 4 → islandCount s = 16 → exec (.bootStepEnd log2) s = .next { s with clk := { s.clk with step := 5 } })
      ∧ (s.clk.step = 4 → islandCount s ≠ 16 → exec (.bootStepEnd log2) s = .next s)
      ∧ (s.clk.step = 5 → exec (.bootStepEnd log2) s
          = .next { s with clk := { s.clk with step := 6 }, mem := { s.mem with sram := [] } })
      ∧ (s.clk.step = 6 → exec (.bootStepEnd log2) s = .next (step6 log2 s))
      ∧ (s.clk.step = 8 → s.nvm.applied = true → exec (.bootStepEnd log2) s
          = .next { s with clk := { s.clk with step := 9 } })
      ∧ (s.clk.step = 10 → s.twin.starting = false → exec (.bootStepEnd log2) s
          = .next { s with clk := { s.clk with step := 11 } }))
    ∧ (s.clk.step ≠ 4 → exec .islandStart s = .next s)
    ∧ ∀ (g : Nat) (v : Word), g < 4 → Serves 0 (0x10010030 + 4 * g) true s →
      ∃ t, exec (.gateWrite g v) s = .next t ∧ t = { s with bus := t.bus } ∧ t.bus.ctr = s.bus.ctr
        ∧ rget (0x10010030 + 4 * g) 0 t = v.toNat &&& rwMask (0x10010030 + 4 * g)
        ∧ ∀ b j, rkey b j ≠ rkey (0x10010030 + 4 * g) 0 → rget b j t = rget b j s

/-- TRAINING_COMPLETE and TRAINING_RETRY at step 7: a channel that passes is trained; one that fails records its step and
lane and is trained once more; its second failure leaves it untrained, logs it and raises EV_DRAM_TRAIN_FAIL. Choices of the
model: assumption 44. -/
def Obligations.DramTraining : Prop :=
  ∀ (r0 r1 : Option (Nat × Nat)) (s : State), s.clk.inReset = false → s.clk.step = 7 → s.nvm.recovery = false →
    (s.mem.ch0.trained = false → s.mem.ch0.fails = 0 → ∃ t, exec (.trainingComplete r0 r1) s = .next t
      ∧ (r0 = none → t.mem.ch0.trained = true)
      ∧ ∀ st lane, r0 = some (st, lane) → t.mem.ch0.trained = false ∧ t.mem.ch0.failed = true ∧ t.mem.ch0.fails = 1
          ∧ t.mem.ch0.failStep = st % 8 ∧ t.mem.ch0.failLane = lane % 16)
    ∧ (s.mem.ch0.trained = false → s.mem.ch0.fails = 1 → s.mem.ch1.trained = true → s.mem.ch1.fails = 0 →
      ∃ t, exec (.trainingRetry r0 r1) s = .next t ∧ t.mem.ch1 = s.mem.ch1
      ∧ (r0 = none → t.mem.ch0.trained = true ∧ t.ev = s.ev)
      ∧ ∀ st lane, r0 = some (st, lane) → t.mem.ch0.trained = false ∧ t.mem.ch0.fails = 2
          ∧ t.ev.eseq = (s.ev.eseq + 1) % 2 ^ 32)

/-- IMAGE_APPLY at step 8: a body whose SHA-256 is not the header's fails its copy with code 4; one whose records all pass,
to its very end, is applied; else the copy fails with the failing record's error. Choices of the model: assumption 48. -/
def Obligations.ImageApplied : Prop :=
  ∀ s : State, s.clk.inReset = false → s.clk.step = 8 → s.nvm.applied = false → s.nvm.recovery = false →
    let body := bodyOf s.clk.copyB s
    let same := decide (sha256 body = slice 32 32 (headerOf s.clk.copyB s))
    ∃ t, exec .imageApply s = .next t
      ∧ (same = false → t = failCopy 2 ⟨4, 0, false, 0, 0⟩ s)
      ∧ (same = true → ∀ e, runRecords body 14 0 1 ⟨s, []⟩ = .error e → t = failCopy 2 e s)
      ∧ (same = true → ∀ k o, runRecords body 14 0 1 ⟨s, []⟩ = .ok (k, o) →
          (o ≠ body.length → t = failCopy 2 ⟨5, 14, false, 0, 0⟩ s)
          ∧ (o = body.length → t.nvm.applied = true ∧ t.nvm.copyB = s.clk.copyB ∧ t.img.applied = true
              ∧ t.nvm.hash = slice 32 32 (headerOf s.clk.copyB s) ∧ t.pending = s.pending))

/-- NO_PARTNER_TIMEOUT, 1.0 s after the release of reset, and HELLO_TIMEOUT, 2.0 s after step 9, send a starting unit to ALONE;
AUDIO_START of a unit in ALONE starts the grid at its own proposal, at sub-block 0, the block before counting as one that met
the guarantee's conditions, and begins to act. Choices of the model: assumptions 43, 109. -/
def Obligations.AudioStarts : Prop :=
  ∀ s : State, s.clk.inReset = false →
    (s.twin.starting = true → s.twin.hbAt = none →
      (∃ t, exec .noPartnerTimeout s = .next t ∧ t = { setSafe (s.clk.relAt + 32000000) s with twin := t.twin }
        ∧ t.twin.noPartner = true
        ∧ (s.twin.handshake = true → t.twin.starting = false ∧ t.twin.st = 0 ∧ t.twin.peer = 7)
        ∧ (s.twin.handshake = false → t.twin = { s.twin with noPartner := true })))
    ∧ (s.twin.starting = true → s.twin.handshake = true →
      ∃ t, exec .helloTimeout s = .next t ∧ t.twin.starting = false ∧ t.twin.st = 0 ∧ t.twin.peer = 7
        ∧ t.twin.noPartner = true ∧ t.ev.eseq = (s.ev.eseq + 1) % 2 ^ 32 ∧ t.ev.pend = s.ev.pend ||| 1#256 <<< 0x4E
        ∧ t = { setSafe (s.twin.shakeAt + 64000000) s with twin := t.twin, ev := t.ev, evc := t.evc, bus := t.bus, tcm := t.tcm })
    ∧ (s.clk.step = 11 → s.clk.audio = false → s.twin.st = 0 →
      ∃ t, exec .audioStart s = .next t ∧ t.grid.running = true ∧ t.grid.block = s.twin.proposal ∧ t.grid.sub = 0
        ∧ t.grid.prevMet = true ∧ t.clk.audio = true ∧ t.clk.bootMs = (s.clk.safe - s.clk.pgoodAt) / 32000
        ∧ t.twin.acts = true ∧ t.twin.tenure = s.twin.proposal ∧ t.pending = s.pending
        ∧ (s.img.objs = [] → t.mem = s.mem))

/-! ### Effect cores (chapter 08) -/

/-- The compute operations on d registers and flags: NOP, ADD, SUB, ADDI, AND, OR, XOR, ASR, LSL, LSR, ABS, NEG, MIN, MAX, CMP
and MOV read their sources as the bundle found them, and write exactly the destination, with saturation and sr.SAT under S
where the operation has it; loads that are due land first, and nothing but the core's contexts changes. -/
def Obligations.ComputeRegisters : Prop :=
  ∀ (k : Nat) (env : EcEnv) (c : EcCtx) (p : EcProg) (s : State) (q : Compute) (x y : MoveSlot), x.kind = 0 → y.kind = 0 →
    let a : BitVec 32 := c.d.getD q.sa 0
    let b : BitVec 32 := c.d.getD q.sb 0
    let does := fun (op : Nat) (row : Nat → EcEnv → Instr) (f : EcCtx → EcCtx) =>
      Issues k (.a { q with op := op } x y) env c p s →
        exec (row k env) s = .next (ranAs k env (advance c.pc (f (landLoads (c.run env)))) s)
    let put := fun (v : BitVec 32) (z : EcCtx) => { z with d := z.d.set q.d v }
    let fit := fun (v : Int) (z : EcCtx) =>
      { z with d := z.d.set q.d (BitVec.ofInt 32 (fitTo 32 q.sat v)), sat := z.sat || unfit 32 q.sat v }
    does 0x00 .nop (fun z => z)
    ∧ does 0x01 .add (fit (a.toInt + b.toInt)) ∧ does 0x02 .sub (fit (a.toInt - b.toInt))
    ∧ does 0x03 .addi (fit (a.toInt + signExt 7 q.imm))
    ∧ does 0x04 .and (put (a &&& b)) ∧ does 0x05 .or (put (a ||| b)) ∧ does 0x06 .xor (put (a ^^^ b))
    ∧ does 0x07 .asr (put (a.sshiftRight (q.imm % 32)))
    ∧ does 0x08 .lsl (fit (a.toInt * 2 ^ (q.imm % 32)))
    ∧ does 0x09 .lsr (put (a >>> (q.imm % 32)))
    ∧ does 0x0A .abs (fit a.toInt.natAbs) ∧ does 0x0B .neg (fit (-a.toInt))
    ∧ does 0x0C .min (put (if a.slt b then a else b)) ∧ does 0x0D .max (put (if a.slt b then b else a))
    ∧ does 0x0E .cmp (fun z => { z with eq := decide (a = b), lt := a.slt b })
    ∧ does 0x0F .mov (put a)

/-- The compute operations on accumulators: MUL, MAC, MSU, CLRA, ADDA, SHA, RND and LDA form products and sums exactly, and
fit the result into 80 bits, or 32 for RND, at the end; a right shift rounds half up. -/
def Obligations.ComputeAccumulators : Prop :=
  ∀ (k : Nat) (env : EcEnv) (c : EcCtx) (p : EcProg) (s : State) (q : Compute) (x y : MoveSlot), x.kind = 0 → y.kind = 0 →
    let a : Int := (c.d.getD q.sa 0).toInt
    let b : Int := (c.d.getD q.sb 0).toInt
    let ad : Int := c.acc.getD (q.d % 4) 0
    let as : Int := c.acc.getD (q.sa % 4) 0
    let n : Int := signExt 7 q.imm
    let halfUp := fun (v : Int) (j : Nat) => if j = 0 then v else (v + 2 ^ (j - 1)) / 2 ^ j
    let does := fun (op : Nat) (row : Nat → EcEnv → Instr) (f : EcCtx → EcCtx) =>
      Issues k (.a { q with op := op } x y) env c p s →
        exec (row k env) s = .next (ranAs k env (advance c.pc (f (landLoads (c.run env)))) s)
    let fit := fun (sat : Bool) (v : Int) (z : EcCtx) =>
      { z with acc := z.acc.set (q.d % 4) (fitTo 80 sat v), sat := z.sat || unfit 80 sat v }
    does 0x10 .mul (fit q.sat (a * b)) ∧ does 0x11 .mac (fit q.sat (ad + a * b)) ∧ does 0x12 .msu (fit q.sat (ad - a * b))
    ∧ does 0x13 .clra (fun z => { z with acc := z.acc.set (q.d % 4) 0 })
    ∧ does 0x14 .adda (fit q.sat (ad + as))
    ∧ does 0x15 .sha (fit q.sat (if 0 ≤ n then ad * 2 ^ n.toNat else halfUp ad (-n).toNat))
    ∧ does 0x16 .rnd (fun z => { z with
        d := z.d.set q.d (BitVec.ofInt 32 (fitTo 32 q.sat (halfUp as (q.imm % 64))))
        sat := z.sat || unfit 32 q.sat (halfUp as (q.imm % 64)) })
    ∧ does 0x17 .lda (fit false (a * 2 ^ (q.imm % 64)))

/-- MAXS, MINS and MAXAS replace the running extreme and its index only when the comparison is strict; MOVC reads a register
code as the bundle found it; MOVTC and LDI write one, LDI alone names the d registers, and MOVTC alone clears sr.SAT. Choices
of the model: assumptions 64, 65, 106. -/
def Obligations.ScansAndCodes : Prop :=
  ∀ (k : Nat) (env : EcEnv) (c : EcCtx) (p : EcProg) (s : State) (q : Compute) (x y : MoveSlot), x.kind = 0 → y.kind = 0 →
    let a : BitVec 32 := c.d.getD q.sa 0
    let b : BitVec 32 := c.d.getD q.sb 0
    let top : BitVec 32 := c.d.getD q.d 0
    let size : BitVec 32 := BitVec.ofInt 32 (min a.toInt.natAbs (2 ^ 31 - 1))
    let code := q.imm % 64
    let does := fun (op : Nat) (row : Nat → EcEnv → Instr) (f : EcCtx → EcCtx) =>
      Issues k (.a { q with op := op } x y) env c p s →
        exec (row k env) s = .next (ranAs k env (advance c.pc (f (landLoads (c.run env)))) s)
    let two := fun (v : BitVec 32) (z : EcCtx) => { z with d := (z.d.set q.d v).set (q.d + 1) b }
    does 0x18 .maxs (fun z => if top.slt a then two a z else z)
    ∧ does 0x19 .mins (fun z => if a.slt top then two a z else z)
    ∧ does 0x1A .maxas (fun z => if top.slt size then two size z else z)
    ∧ (0x10 ≤ code → code ≤ 0x28 → does 0x1B .movc (fun z =>
        { z with d := z.d.set q.d (BitVec.ofNat 32 (readCode (c.run env) code)) }))
    ∧ (code < 0x10 ∨ 0x28 < code → Issues k (.a { q with op := 0x1B } x y) env c p s →
        exec (.movc k env) s = .next (ranAs k env (advance c.pc
          { landLoads (c.run env) with d := (landLoads (c.run env)).d.set q.d (BitVec.ofNat 32 (Config.freeValue s.free)) })
          { s with free := s.free + 1 }))
    ∧ (code < 0x10 ∨ code = 0x22 ∨ code = 0x23 ∨ code = 0x24 ∨ 0x28 < code → does 0x1C .movtc (fun z => z))
    ∧ (0x10 ≤ code → code < 0x18 → does 0x1C .movtc (fun z => { z with p := z.p.set (code - 0x10) (a.toNat % 65536) }))
    ∧ (0x18 ≤ code → code < 0x20 → does 0x1C .movtc (fun z => { z with m := z.m.set (code - 0x18) (a.toNat % 2 ^ 31) }))
    ∧ (code = 0x20 → does 0x1C .movtc (fun z =>
        { z with eq := bit 0 a.toNat, lt := bit 1 a.toNat, sat := bit 2 a.toNat }))
    ∧ (code = 0x21 → does 0x1C .movtc (fun z => { z with lr := a.toNat % 8192 }))
    ∧ (0x25 ≤ code → code ≤ 0x28 → does 0x1C .movtc (fun z => writeCode false z code a.toNat))
    ∧ ∀ (r v : Nat), Issues k (.b r v) env c p s →
        (0x10 ≤ r → exec (.ldi k env) s
          = .next (ranAs k env (advance c.pc (writeCode true (landLoads (c.run env)) r v)) s))
        ∧ (r = 0x20 → ∃ z, exec (.ldi k env) s = .next (ranAs k env z s) ∧ z.sat = (bit 2 v || c.sat))
        ∧ (r < 0x10 →
        exec (.ldi k env) s = .next (ranAs k env (advance c.pc
          { landLoads (c.run env) with d := (landLoads (c.run env)).d.set r (BitVec.ofNat 32 v) }) s))

/-- Control operations: CNOP goes on; a taken BR, CALL or RET owes two delay slots before its target, and CALL keeps the
address after them in lr; LOOP at a level not active begins a loop or, with a count of 0, passes over it; LBRK ends one; DONE
owes two delay slots before the end; WAITM stalls while a block move is outstanding; BMOV starts one. Choices of the model:
assumption 63. -/
def Obligations.ControlOperations : Prop :=
  ∀ (k : Nat) (env : EcEnv) (c : EcCtx) (p : EcProg) (s : State) (q : Control) (x y : MoveSlot), x.kind = 0 → y.kind = 0 →
    let z := landLoads (c.run env)
    let level := q.cond % 2
    let count := (c.d.getD q.reg 0).toNat % 65536
    let does := fun (op : Nat) (row : Nat → EcEnv → Instr) (z' : EcCtx) =>
      Issues k (.c { q with op := op } x y) env c p s → exec (row k env) s = .next (ranAs k env z' s)
    let slots := fun (t : Option Nat) (z : EcCtx) => { z with pc := (c.pc + 1) % 8192, delay := some (2, t) }
    let taken := condHolds q.cond c
    does 0 .cnop (advance c.pc z)
    ∧ does 1 .br (if taken then slots (some q.target) z else advance c.pc z)
    ∧ does 2 .call (if taken then slots (some q.target) { z with lr := (c.pc + 3) % 8192 } else advance c.pc z)
    ∧ does 3 .ret (if taken then slots (some c.lr) z else advance c.pc z)
    ∧ (c.looping level = false → count = 0 → does 4 .loop { z.setLc level 0 with pc := (q.target + 1) % 8192 })
    ∧ (c.looping level = false → count ≠ 0 → does 4 .loop
        (advance c.pc { z.setLc level count with loops := ⟨level, (c.pc + 1) % 8192, q.target⟩ :: z.loops }))
    ∧ does 5 .lbrk (advance c.pc { z with loops := z.loops.filter (fun l => decide (l.level ≠ level)) })
    ∧ (c.moves.length < 4 → moveOk p (moveOf c) = true → does 6 .bmov
        (advance c.pc { z with moves := z.moves ++ [moveOf c] }))
    ∧ (4 ≤ c.moves.length → does 6 .bmov { c.run env with stalled := true })
    ∧ (c.moves = [] → does 7 .waitm (advance c.pc z))
    ∧ (c.moves ≠ [] → does 7 .waitm { c.run env with stalled := true })
    ∧ does 8 .done (slots none z)

/-- Where a bundle goes on: to the next address modulo 8,192; after the second delay slot to the branch's target, or to the
end of the instance; from a loop's last bundle, with its counter above 1, to its first with the counter one less, and with
the counter at 1 out of the loop; a loop ends whatever inner loop a branch has left active, and two loops may end together. -/
def Obligations.BundleSequence : Prop :=
  ∀ (pc : Nat) (c : EcCtx),
    (c.delay = none → c.loops = [] → advance pc c = { c with pc := (pc + 1) % 8192 })
    ∧ (∀ t, c.loops = [] → c.delay = some (2, t) → advance pc c = { c with pc := (pc + 1) % 8192, delay := some (1, t) })
    ∧ (∀ t, c.loops = [] → c.delay = some (1, some t) → advance pc c = { c with pc := t, delay := none })
    ∧ (c.loops = [] → c.delay = some (1, none) →
        advance pc c = { c with pc := (pc + 1) % 8192, delay := none, ended := true })
    ∧ (∀ l r, c.delay = none → c.loops = l :: r → l.last = pc → 1 < c.lc l.level →
        advance pc c = { c.setLc l.level (c.lc l.level - 1) with pc := l.first })
    ∧ (∀ l, c.delay = none → c.loops = [l] → l.last = pc → c.lc l.level ≤ 1 →
        advance pc c = { c with loops := [], pc := (pc + 1) % 8192 })
    ∧ (c.delay = none → (∀ l ∈ c.loops, l.last ≠ pc) → advance pc c = { c with pc := (pc + 1) % 8192 })
    ∧ (∀ l q, c.delay = none → c.loops = [l, q] → l.last ≠ pc → q.last = pc → 1 < c.lc q.level →
        advance pc c = { c.setLc q.level (c.lc q.level - 1) with pc := q.first })
    ∧ ∀ l q, c.delay = none → c.loops = [l, q] → l.last = pc → q.last = pc → l.level ≠ q.level → c.lc l.level ≤ 1 →
        1 < c.lc q.level → advance pc c = { c.setLc q.level (c.lc q.level - 1) with loops := [q], pc := q.first }

/-- The X slot of a bundle: an X load of a word in a region enters its register two bundles later, an X store puts the
register's old value into the memory at once, each with the slot's address update; a store to an INPUT or CONST region and an
access outside every region fault with cause 0x1, which is counted and recorded. Choices of the model: assumption 64. -/
def Obligations.MoveSlots : Prop :=
  ∀ (k : Nat) (env : EcEnv) (c : EcCtx) (p : EcProg) (s : State) (q : Compute) (x y : MoveSlot), y.kind = 0 →
    Issues k (.a { q with op := 0 } x y) env c p s → c.moves = [] → x.u = 2 → x.p < 4 →
    let pv := nth 0 c.p x.p
    let w := effAddr pv x.disp
    let z := landLoads (c.run env)
    let z' := { z with p := z.p.set x.p ((pv + 1) % 65536) }
    (∀ r, regionAt p false w = some r → w < 0x2000 → x.kind = 1 → env.xBad = false →
      s.ec.poison.contains (coreKey k false w) = false →
      exec (.nop k env) s = .next (ranAs k env (advance c.pc
        { z' with loads := z'.loads ++ [⟨2, x.reg, BitVec.ofNat 32 (ctxWord k c r w s)⟩] }) s))
    ∧ (∀ r, regionAt p false w = some r → w < 0x2000 → x.kind = 2 → r.kind ≠ 0 → r.kind ≠ 3 →
      ∃ t, exec (.nop k env) s = .next t ∧ coreWord k r.yMem w t = (nth 0 c.d x.reg : BitVec 32).toNat
        ∧ (∀ j yy v, coreKey j yy v ≠ coreKey k r.yMem w → coreWord j yy v t = coreWord j yy v s)
        ∧ t = { s with ec := { s.ec with cores := t.ec.cores, data := t.ec.data, poison := t.ec.poison } })
    ∧ ((0x2000 ≤ w ∨ regionAt p false w = none) → x.kind = 1 ∨ x.kind = 2 →
      ∃ t, exec (.nop k env) s = .next t ∧ (coreGet k t).faultInfo = 1 + c.node * 2 ^ 4 + 2 ^ 31
        ∧ (coreGet k t).faultPc = c.pc ∧ t.pending = s.pending)

/-- BLOCK_MOVE_COMPLETE of an outbound move stores the context's words little-endian in DRAM, or in FAB SRAM, and of an inbound
move brings the external words in, marked ones as 0; either way the move leaves the context, whose stall ends, and the queue
is left alone. Choices of the model: assumptions 48, 64, 106. -/
def Obligations.BlockMoves : Prop :=
  ∀ (k bank i : Nat) (c : EcCtx) (p : EcProg) (b : BlockMove) (r : EcRegion) (s : State), k < 64 → bank < 3 →
    (coreGet k s).ctxs.find? (fun c => decide (c.bank = bank)) = some c → c.moves[i]? = some b →
    s.ec.progs[c.prog]? = some p → regionAt p b.yMem b.word = some r →
    let bytes := (List.range b.len).flatMap (fun j => leBytes 4 (ctxWord k c r (b.word + j) s))
    (b.out = true → s.ec.poison = [] → inDram b.ext (4 * b.len) s = true → exec (.blockMoveComplete k bank i) s
        = .next (ctxSet k { c with moves := c.moves.eraseIdx i, stalled := false } (dramPut b.ext bytes s)))
    ∧ (b.out = true → s.ec.poison = [] → inDram b.ext (4 * b.len) s = false →
        ∃ t, exec (.blockMoveComplete k bank i) s = .next t ∧ t = { s with ec := t.ec, mem := t.mem }
          ∧ t.mem.fab = putBytes (fabOff b.ext) bytes s.mem.fab ∧ t.mem.dram = s.mem.dram)
    ∧ (b.out = false → b.ext % 4 = 0 → ∃ t, exec (.blockMoveComplete k bank i) s = .next t ∧ t.pending = s.pending
        ∧ t.mem.dram = s.mem.dram ∧ t.mem.fab = s.mem.fab
        ∧ ∀ j < b.len, b.word + j < 2 ^ 13 → coreWord k b.yMem (b.word + j) t = extWord s (b.ext + 4 * j))

/-! ### The staged set and fixes (chapter 04) -/

/-- FX_REGISTER_WRITE, NODE_GAIN_WRITE and KF_PUSH go into the open staged set while it has room for one more, and overflow
it where it has none, an FX write also where its instance has no function in the image and stands gated; nothing takes effect;
a unit that takes no writes of its own drops them. Choices of the model: assumption 53. -/
def Obligations.FxWrites : Prop :=
  ∀ (m : Nat) (s : State), m < 5 →
    let o := s.mx.open_
    (∀ (addr v : Word), accOf addr.toNat = .fx → addr.toNat ∉ [0x1007002C, 0x100500B8, 0x10090030] →
      masterActive m s = true → busRefused m addr.toNat true s = none →
      gated addr.toNat m s = false ∨ fxInstance addr.toNat (instOf addr.toNat m s) s = false →
      (takesOwn s = false → exec (.fxRegisterWrite m addr v) s = .next (answered m s))
      ∧ (takesOwn s = true → 16384 ≤ o.regCount →
          exec (.fxRegisterWrite m addr v) s = .next (overflowSet (answered m s)))
      ∧ (takesOwn s = true → o.regCount < 16384 → ∃ t, exec (.fxRegisterWrite m addr v) s = .next t
          ∧ Staging { o with regs := upsert (rkey addr.toNat (instOf addr.toNat m s)) v.toNat o.regs
                             regCount := o.regCount + 1 } m s t))
    ∧ (∀ v : Word, Serves m 0x1007002C true s →
        let w := nodeWord (rget 0x10070020 m s) (rget 0x10070024 m s) (signExt 24 (v.toNat % 2 ^ 24)) (rget 0x10070010 m s)
          (bit 0 (rget 0x10070028 m s)) + (if fxReservedOk 0x1007002C v.toNat then 0 else 2 ^ 55)
        (takesOwn s = false → exec (.nodeGainWrite m v) s = .next (answered m s))
        ∧ (takesOwn s = true → 262144 ≤ o.nodeCount → exec (.nodeGainWrite m v) s = .next (overflowSet (answered m s)))
        ∧ (takesOwn s = true → o.nodeCount < 262144 → ∃ t, exec (.nodeGainWrite m v) s = .next t
            ∧ Staging { o with nodes := upsertNode w o.nodes, nodeCount := o.nodeCount + 1 } m s t))
    ∧ (Serves m 0x100500B8 true s →
        let word := fun j => ((o.regs.find? (fun e => decide (e.1 = rkey (0x10050090 + 4 * j) 0))).map Prod.snd).getD
          (rget (0x10050090 + 4 * j) 0 s)
        (takesOwn s = false → exec (.kfPush m) s = .next (answered m s))
        ∧ (takesOwn s = true → 64 ≤ o.kfs.length → exec (.kfPush m) s = .next (overflowSet (answered m s)))
        ∧ (takesOwn s = true → o.kfs.length < 64 → ∃ t, exec (.kfPush m) s = .next t
            ∧ Staging { o with kfs := o.kfs ++ [((List.range 10).map (fun j => beBytes 4 (word j))).flatten] } m s t))

/-- FIX_COMMIT queues a request for the block in FIX.BLOCK_LO and FIX.BLOCK_HI; FIX_DISCARD empties the open set and clears
its overflow, and its committed loads leave their slots, FREE but where they are IN_USE. Choices of the model: assumption 55. -/
def Obligations.FixRequests : Prop :=
  ∀ (m : Nat) (s : State), m < 5 → Serves m 0x10160018 true s →
    (takesOwn s = false → exec (.fixCommit m) s = .next (answered m s) ∧ exec (.fixDiscard m) s = .next (answered m s))
    ∧ (takesOwn s = true →
      exec (.fixCommit m) s = .next { answered m s with mx := { s.mx with requests := s.mx.requests
          ++ [⟨rget 0x10160010 m s + rget 0x10160014 m s * 2 ^ 32, s.grid.block, none⟩] } }
      ∧ ∃ t, exec (.fixDiscard m) s = .next t
        ∧ t = { answered m s with
            mx := { s.mx with open_ := Staged.empty }, slot := t.slot
            twin := { s.twin with txq := t.twin.txq, txSeq := t.twin.txSeq } }
        ∧ (∀ i, i ∉ commitsOf s.mx.open_ → slotGet i t = slotGet i s)
        ∧ ∀ i ∈ commitsOf s.mx.open_, slotGet i t
            = { slotGet i s with committed := false, state := if (slotGet i s).state = 3 then 3 else 0 })

/-- FIX_REGISTER: at the first tick after a request it is checked and sealed with the open set, a new set opens, and
FIX.RESULT takes its code; an accepted fix is pending with its acting block, late ones with LATE_FIX; a refused one is
counted. Choices of the model: assumptions 56, 57, 58. -/
def Obligations.FixRegisters : Prop :=
  ∀ (s : State) (r : FixReq), s.grid.running = true → s.mx.requests = [r] → r.got < s.grid.block →
    (∀ f ∈ s.mx.pending, s.grid.block < f.act) →
    (takesOwn s = false → ∃ t, exec .fixRegister s = .next t ∧ t.mx = { s.mx with requests := [] })
    ∧ (takesOwn s = true →
      let code := fixCode r.block s.mx.open_ { s with mx := { s.mx with requests := [] } }
      ∃ t, exec .fixRegister s = .next t
        ∧ t.mx = { s.mx with
            requests := [], result := code, resultSeq := (s.mx.resultSeq + 1) % 65536, open_ := Staged.empty
            pending := if code ≤ 1
              then s.mx.pending ++ [⟨r.block, actingBlock r.block s.grid.block, decide (code = 1), s.mx.open_, s.grid.block⟩]
              else s.mx.pending }
        ∧ (16 ≤ s.mx.pending.length → code = 2)
        ∧ (s.mx.pending = [] → s.grid.block + 524288 < r.block → code = 4)
        ∧ (s.mx.pending = [] → r.block ≤ s.grid.block + 524288 → s.mx.open_.overflow = true → code = 5)
        ∧ t.grid = { s.grid with lateFix := s.grid.lateFix || decide (code = 1) }
        ∧ cget 0x10160038 0 t = (if code ≤ 1 then cget 0x10160038 0 s else min (cget 0x10160038 0 s + 1) 0xFFFFFFFF)
        ∧ t.pending = s.pending)

/-- FIX_ACT: when the block of a pending fix has come, the staged gain set and the live one change places, its registers hold
the values it carries, and it is no longer pending. Choices of the model: assumption 57. -/
def Obligations.FixActs : Prop :=
  ∀ (s : State) (f : Fix), s.grid.running = true →
    s.mx.pending.filter (fun g => decide (g.act ≤ s.grid.block)) = [f] → f.set.kfs = [] →
    ∃ t, exec .fixAct s = .next t ∧ t.mx.liveB = !s.mx.liveB ∧ t.mx.acted = s.grid.block ∧ t.mx.prepared = none
      ∧ t.mx.replay = f.set.nodes ∧ t.mx.pending = s.mx.pending.filter (fun g => decide (g ≠ f))
      ∧ t.mx.open_ = s.mx.open_ ∧ t.mx.requests = s.mx.requests
      ∧ (s.mx.prepared = some s.grid.block → liveSet t.mx = stagedSet s.mx ∧ stagedSet t.mx = liveSet s.mx)
      ∧ (∀ a i v, i < 65536 → a ≠ commitAddr → f.set.regs = [(rkey a i, v)] → rget a i t = fxFields a v
          ∧ ∀ b j, rkey b j ≠ rkey a i → rget b j t = rget b j s)
      ∧ (f.set.regs = [] → ∀ b j, rget b j t = rget b j s)
      ∧ cget 0x10160030 0 t = min (cget 0x10160030 0 s + 1) 0xFFFFFFFF

/-! ### Requests and the stop bath (chapters 01, 05, 07) -/

/-- SPK_MUTE, SAP_HOLD and TG_PAUSE wait for the next tick where the unit takes requests and the named function exists;
others are dropped. REQUEST_REGISTER gives a waiting request its acting boundary, the next block's for time zero, and enters
it in DL1, or refuses it where 1,024 wait; REQUEST_ACT, no fix being due before it, starts its mute ramp, hold or pause and
takes it off the list. Choices of the model: assumptions 58, 104. -/
def Obligations.Requests : Prop :=
  ∀ (m : Nat) (v : Word) (s : State), m < 5 →
    let at_ := fun (lo hi : Nat) => if bit 31 v.toNat then some (rget lo m s + rget hi m s * 2 ^ 32) else none
    let asks := fun (row : Nat → Word → Instr) (addr : Nat) (k : ReqKind) (time : Option Nat) => Serves m addr true s →
      exec (row m v) s = .next (if takesOwn s && reqTarget s k then { answered m s with sched := { s.sched with
          reqWait := s.sched.reqWait
            ++ [⟨k, time, 0, 0, reqDirect s k, if reqDirect s k then period s else s.grid.block⟩] } }
        else answered m s)
    asks .spkMute 0x10080040 (.mute (selOf 0x10080004 m s) (bit 0 v.toNat) (bits 4 1 v.toNat)) (at_ 0x10080044 0x10080048)
    ∧ asks .sapHold 0x100D0050 (.hold (selOf 0x100D0040 m s) (bit 0 v.toNat) (bit 1 v.toNat)) (at_ 0x100D0054 0x100D0058)
    ∧ asks .tgPause 0x10170040 (.pause (selOf 0x10170010 m s) (bit 0 v.toNat)) (at_ 0x10170044 0x10170048)
    ∧ (∀ r, s.grid.running = true → s.sched.reqWait = [r] → reqDue s r = true →
        ∃ t, exec .requestRegister s = .next t ∧ t.sched = { s.sched with
            reqWait := [], dl1 := if takesOwn s && decide (s.sched.dl1.length < 1024)
              then s.sched.dl1 ++ [reqTimed r s] else s.sched.dl1 }
          ∧ (r.direct = false → r.time = none → reqTimed r s = { r with
              act := s.grid.block + 1, at_ := (s.B : Int) * (s.grid.block + 1 : Nat) + reqOff s r.kind }))
    ∧ (∀ r, s.grid.running = true → s.sched.dl1 = [r] → dl1Due s r = true → (∀ f ∈ s.mx.pending, s.grid.block < f.act) →
        ∃ t, exec .requestAct s = .next t ∧ t.sched = { s.sched with dl1 := [] }
          ∧ (∀ sel mute code, r.kind = .mute sel mute code → t = { s with sched := t.sched, chain := t.chain }
              ∧ chGet sel t = { chGet sel s with
                  mutePending := (chGet sel s).mutePending - 1
                  mutes := lastN 8 ((chGet sel s).mutes ++ [⟨rampsAt (chGet sel s).mutes r.at_, if mute then 0 else 2 ^ 21,
                    r.at_, rampLen code⟩]) })
          ∧ (∀ p hiz, r.kind = .hold p true hiz → t = portSet p
              { portGet p s with
                holds := addHold r.at_ (if hiz && decide ((portCfg s p).dir = 2) then 2 else 1) (portGet p s).holds }
              { s with sched := t.sched })
          ∧ (∀ p hiz, r.kind = .hold p false hiz → t = portSet p
              { portGet p s with holds := addHold r.at_ 0 (portGet p s).holds } { s with sched := t.sched })
          ∧ (∀ g, r.kind = .pause g true → (tgGet g s).running = true → (tgGet g s).pause = 0 → (tgGet g t).pause = 1)
          ∧ ∀ g, r.kind = .pause g false → (tgGet g s).pause = 2 → (tgGet g t).pause = 3)

/-- STOP_CMD_STOP and STOP_CMD_START wait for the next tick; STOP_REGISTER enters them in DL3 with their acting block and
makes a running function PENDING_STOP and an idle one PENDING_START, defers a START that would act before the function is
IDLE, or refuses a function that does not exist. Choices of the model: assumptions 58, 59. -/
def Obligations.StopRequests : Prop :=
  ∀ (m : Nat) (timed : Bool) (s : State), m < 5 →
    let target := rget 0x10040040 m s
    let time := if timed then some (rget 0x10040044 m s + rget 0x10040048 m s * 2 ^ 32) else none
    let asked := fun (start : Bool) => if takesOwn s then { answered m s with sched := { s.sched with
        stopWait := s.sched.stopWait ++ [⟨start, bits 19 16 target, target % 8192, time, 0, s.grid.block, none⟩] } }
      else answered m s
    (Serves m 0x1004004C true s → exec (.stopCmdStop m timed) s = .next (asked false)
      ∧ exec (.stopCmdStart m timed) s = .next (asked true))
    ∧ ∀ r, s.grid.running = true → s.sched.stopWait = [r] → r.got < s.grid.block →
      ∃ t, exec .stopRegister s = .next t ∧ t.sched.stopWait = []
        ∧ (takesOwn s = false → t.sched = { s.sched with stopWait := [] })
        ∧ (takesOwn s = true → fnExists r.kind r.index s = false → t.sched = { s.sched with stopWait := [] }
            ∧ cget 0x10040060 0 t = min (cget 0x10040060 0 s + 1) 0xFFFFFFFF ∧ t.ev.eseq = (s.ev.eseq + 1) % 2 ^ 32)
        ∧ (takesOwn s = true → fnExists r.kind r.index s = true → s.sched.dl3.length < 1024 →
            let a := blockFor s (fnOff r.kind r.index s) s.grid.block r.time
            let f := fnGet r.kind r.index s
            let entered := t.sched.dl3 = s.sched.dl3 ++ [{ r with act := a }]
            (r.time = none → a = s.grid.block + 1)
            ∧ ((∀ x ∈ s.sched.dl3, x.start = true → ¬(x.kind = r.kind ∧ x.index = r.index)) →
              (r.start = false → entered
                ∧ fnGet r.kind r.index t = if f.st = 0 then { f with st := 1, act := a } else f)
              ∧ (r.start = true → f.st = 0 ∨ f.act + 2 ≤ a → f.st ≠ 4 → entered ∧ fnGet r.kind r.index t = f)
              ∧ (r.start = true → f.st = 4 → f.act < a → entered ∧ fnGet r.kind r.index t = { f with st := 5 })
              ∧ (r.start = true → 1 ≤ f.st → f.st ≤ 3 → f.act + 1 = a → Rings 0x35 s t
                ∧ t.sched.dl3 = s.sched.dl3 ++ [{ r with act := f.act + 2 }]
                ∧ fnGet r.kind r.index t = { f with deferred := true })))

/-- The stop bath: at its block STOP_BATH_ACT fades the function's window, in the block after it STOP_CLEAR clears it, at the
tick of a + 2 STOP_DONE makes it IDLE with EV_STOP_DONE, or PENDING_START where a START waits for it, and START_ACT makes it
RUNNING again. Choices of the model: assumptions 14, 59. -/
def Obligations.StopBath : Prop :=
  ∀ s : State,
    (∀ r, s.grid.running = true → s.sched.dl3 = [r] → r.act ≤ s.grid.block →
      let f := fnGet r.kind r.index s
      (r.start = false → f.st ≤ 1 → ∃ t, exec .stopBathAct s = .next t ∧ t.sched.dl3 = []
        ∧ fnGet r.kind r.index t = { f with st := 2, act := s.grid.block })
      ∧ (r.start = true → f.st = 4 ∨ f.st = 5 → f.act < r.act → fnsIn 2 s = [] → fnsIn 3 s = [] →
        ∃ t, exec .startAct s = .next t ∧ t.sched.dl3 = [] ∧ fnGet r.kind r.index t = ⟨0, false, 0, s.grid.block⟩))
    ∧ (∀ kind i f, i < 65536 → f.act + 1 ≤ s.grid.block → fnsIn 2 s = [(kind * 65536 + i, f)] →
      ∃ t, exec .stopClear s = .next t ∧ fnGet kind i t = { f with st := 3 } ∧ t.sched.dl3 = s.sched.dl3)
    ∧ ∀ kind i f, i < 65536 → f.act + 2 ≤ s.grid.block → fnsIn 3 s = [(kind * 65536 + i, f)] → fnsIn 2 s = [] →
      fnGet kind i s = f →
      ∃ t, exec .stopDone s = .next t ∧ t.sched.dl3 = s.sched.dl3
        ∧ fnGet kind i t = { f with st := if (pendingStart kind i s).isSome then 5 else 4 }
        ∧ t.ev.eseq = (s.ev.eseq + 1) % 2 ^ 32 ∧ t.ev.pend = s.ev.pend ||| 1#256 <<< 0x34

/-! ### The scheduler (chapter 07) -/

/-- INSTANCE_DISPATCH hands over what the delay lists owe and puts the head of the class's ready list in flight;
INSTANCE_COMPLETE marks it complete, an effect-core program's when its context has ended and a STREAM consumer's once its
producers have finished, with its outputs held back; INSTANCE_RELEASE releases a complete instance whose flow is clear within
its deadline, and its outputs become visible; DEADLINE_MISS abandons an instance that is overdue, sets OVERLOAD, lapses and
counts the miss. Choices of the model: assumptions 60, 83, 85. -/
def Obligations.Scheduling : Prop :=
  ∀ (i time : Nat) (work : List Nat) (s : State), i < 4096 →
    (∀ cls n j core, cls < 8 → s.grid.running = true →
      let ahead := readied s
      ahead.sched.inFlight.length < 256 → pick cls time ahead = some (n, j, core) →
      ∃ t, exec (.instanceDispatch cls time) s = .next t
        ∧ t.sched.inFlight = ahead.sched.inFlight ++ [⟨j, ahead.grid.block, nodeSub ahead n, false, core, Held.none⟩]
        ∧ (statGet j t).start = time % 256 ∧ (statGet j t).released = false ∧ (statGet j t).block = ahead.grid.block)
    ∧ (∀ x n, flightOf i s = some x → s.sched.graph[i]? = some n → x.complete = false → streamsDone n s = true →
      n.kind ≠ 1 ∨ ecFinished x.core i s = true →
      ∃ t held, exec (.instanceComplete i work) s = .next t
        ∧ t.sched.inFlight = s.sched.inFlight.map (fun y =>
            if y.node = i then { y with complete := true, held := held } else y)
        ∧ t.sched.graph = s.sched.graph ∧ t.smp.lane = s.smp.lane ∧ t.smp.bus = s.smp.bus ∧ t.smp.out = s.smp.out)
    ∧ (∀ x n, flightOf i s = some x → s.sched.graph[i]? = some n → x.complete = true → flowClear s n = true →
      n.past time = false → atNow s n i = true →
      ∃ t, exec (.instanceRelease i time) s = .next t
        ∧ t = { s with
            sched := t.sched, smp := t.smp, obj := t.obj, mem := t.mem, cap := t.cap, twin := t.twin, bus := t.bus }
        ∧ t.bus.regs = s.bus.regs
        ∧ t.smp.lane = putAll x.held.lane s.smp.lane ∧ t.smp.bus = putAll x.held.bus s.smp.bus
        ∧ t.smp.align = putAll x.held.align s.smp.align ∧ t.smp.out = putAll x.held.out s.smp.out
        ∧ t.sched.inFlight = s.sched.inFlight.filter (fun y => decide (y.node ≠ i))
        ∧ statGet i t = { statGet i s with released := true, release := time % 256 }
        ∧ t.sched.loadNow = if n.subBlock then s.sched.loadNow else time % 256)
    ∧ ∀ b sub, s.grid.running = true → overdue i s = some (b, sub) →
      ∃ t, exec (.deadlineMiss i work []) s = .next t ∧ t.grid.overload = true ∧ t.grid.met = false
        ∧ t.sched.missLast = i + 2 ^ 31
        ∧ t.sched.inFlight = s.sched.inFlight.filter (fun y => decide (y.node ≠ i))
        ∧ (∀ n, s.sched.graph[i]? = some n → b = s.grid.block → sub = nodeSub s n → statGet i t = { statGet i s with
            block := b, sub := sub, any := true, released := true, release := 0xFF, missed := true })
        ∧ cget 0x10040020 0 t = min (cget 0x10040020 0 s + 1) 0xFFFFFFFF

/-- BLOCK_TICK ends the block, whose unfinished instances have missed their deadlines, begins the next block at sub-block 0,
remembers whether the block that ended met the guarantee's conditions, and hands on its load; SUB_BLOCK_BOUNDARY ends a
sub-block in the same way and begins the next of four; before audio runs neither changes anything. Choices of the model:
assumptions 7, 8. -/
def Obligations.Ticks : Prop :=
  ∀ (s : State) (env : TickEnv) (cycles : Nat) (adc : List AdcIn),
    (s.grid.running = true → ∃ t, exec (.blockTick env) s = .next t ∧ t.grid.block = s.grid.block + 1 ∧ t.grid.sub = 0
      ∧ t.grid.running = true ∧ t.grid.prevMet = (closeBlock (setSafe env.safe s)).grid.met ∧ t.pending = s.pending ∧ t.sched.loadNow = 0
      ∧ t.sched.load = s.sched.loadNow)
    ∧ (s.grid.running = true → s.grid.sub < 3 → ∃ t, exec (.subBlockBoundary cycles adc) s = .next t
      ∧ t.grid.block = s.grid.block ∧ t.grid.sub = s.grid.sub + 1 ∧ t.time.cnt = (s.time.cnt + cycles * s.time.inc) % 2 ^ 64
      ∧ t.sched = (closePeriod s).sched ∧ t.pending = s.pending)
    ∧ (s.grid.running = false → exec (.blockTick env) s = .next s ∧ exec (.subBlockBoundary cycles adc) s = .next s)

/-! ### Filters and measuring (chapter 06) -/

/-- CROSSFADE_END, TG_START, SWEEP_START, CAPTURE_START and CAPTURE_END when their time has come: the fixes and requests that are
due have acted before them, and where none is due nothing else has changed. Choices of the model: assumptions 61, 62. -/
def Obligations.MeasuringEvents : Prop :=
  ∀ (s : State) (k : Nat),
    let u := requestAct s
    let par := rget 0x1017001C k u + rget 0x10170020 k u * 2 ^ 32
    (k < 1024 → (convGet k u).xfDone = false → (convGet k u).xfAt + (convGet k u).xfLen ≤ (u.B : Int) * u.grid.block →
      exec (.crossfadeEnd k) s = .next (convSet k { convGet k u with xfDone := true } u))
    ∧ (k < 16 → (tgGet k u).armed = true → (tgGet k u).m + 1 ≤ u.grid.block →
      exec (.tgStart k) s = .next (tgSet k { tgGet k u with armed := false, running := true, phase := 0, inc := par } u))
    ∧ (k < 16 → (tgGet k u).running = true → (tgGet k u).mode = 2 → (tgGet k u).pause ≠ 2 → u.sched.tgRan ≤ u.grid.block →
      0 < toneRel u (tgGet k u) → toneRel u (tgGet k u) % max 1 ((rget 0x10170030 k u % 2 ^ 24) * u.B : Nat) = 0 →
      exec (.sweepStart k) s = .next (tgSet k { tgGet k u with phase := 0, inc := par } u))
    ∧ (u.cap.armed = true → u.cap.m0 ≤ u.grid.block →
      exec .captureStart s = .next { u with cap := { u.cap with armed := false, running := true } })
    ∧ (∀ e l, u.cap.running = true → u.cap.stop = some e → u.cap.last = some l → e ≤ l + 1 →
      exec .captureEnd s = .next { u with cap := { u.cap with running := false, done := true } })
    ∧ (s.grid.running = true → s.sched.dl1 = [] → (∀ f ∈ s.mx.pending, s.grid.block < f.act) → u = s)

/-- CONV_LOAD_DATA stores a word of a slot that is neither IN_USE nor committed in the slot's place in DRAM, or drops and counts
it; CONV_LOAD_COMMIT stages the slot's
load; DECONV_GO starts a job unless one runs, DECONV_JOB_DONE ends it with its status: 3 invalid, 4 missing, 5 saturated, 2
done. Choices of the model: assumptions 23, 55, 101. -/
def Obligations.LoadsAndJobs : Prop :=
  ∀ (m : Nat) (v : Word) (s : State), m < 5 →
    let slot := rget 0x10090020 m s
    let off := rget 0x10090028 m s
    let busy := decide (s.img.slots ≤ slot) || (slotGet slot s).committed || decide ((slotGet slot s).state = 3)
    (Serves m 0x1009002C true s → takesOwn s = true → ∃ t, exec (.convLoadData m v) s = .next t
      ∧ rget 0x10090028 m t = (off + 4) % 2 ^ 19
      ∧ (busy = true → t = { s with bus := t.bus } ∧ cget 0x10090040 0 t = min (cget 0x10090040 0 s + 1) 0xFFFFFFFF)
      ∧ (busy = false → off < 262272 → slotGet slot t = { slotGet slot s with state := 1 }
          ∧ t.mem = (dramPut (slotAddr s slot + off) (leBytes 4 v.toNat) s).mem)
      ∧ (busy = false → 262272 ≤ off → t = { s with bus := t.bus } ∧ cget 0x10090040 0 t = cget 0x10090040 0 s))
    ∧ (Serves m 0x10090030 true s → takesOwn s = true → s.mx.open_.regCount < 16384 →
      ∃ t, exec (.convLoadCommit m) s = .next t
        ∧ Staging { s.mx.open_ with
            regs := upsert (rkey commitAddr (selOf 0x10090020 m s)) 1 s.mx.open_.regs
            regCount := s.mx.open_.regCount + 1 } m s t)
    ∧ (Serves m 0x10170098 true s →
      let a := rget 0x10170090 m s + rget 0x10170094 m s * 2 ^ 32
      (s.deconv.busy = true → exec (.deconvGo m) s = .next (answered m s))
      ∧ (s.deconv.busy = false → exec (.deconvGo m) s = .next (dramPut (a + 56) (leBytes 4 1)
          { answered m s with deconv := ⟨true, false, 1, a, s.deconv.job + 1⟩ })))
    ∧ ∀ shift saturated, s.deconv.busy = true →
      let d := descBytes s.deconv.desc s
      ∃ t, exec (.deconvJobDone shift saturated) s = .next t
        ∧ t.deconv = { s.deconv with busy := false, done := true
                                     status := if !descOk d s then 3 else if !framesHeld d s then 4
                                       else if saturated then 5 else 2 }
        ∧ t = { s with deconv := t.deconv, mem := t.mem, bus := t.bus } ∧ t.mem.sram = s.mem.sram ∧ t.bus.regs = s.bus.regs

/-! ### Twin operation (chapter 09) -/

/-- The twin link and the heartbeat line: the link up and down, its loss at the next tick, resending, LEASE and heartbeat
frames with their renewals, the heartbeat timer, health records and NAKs. Choices of the model: assumptions 34, 46, 94. -/
def Obligations.TwinLink : Prop :=
  ∀ s : State,
    (∃ t, exec .twinLinkUp s = .next t ∧ t = { s with twin := t.twin }
      ∧ t.twin.linkUp = true ∧ t.twin.lane0 = true ∧ t.twin.lane1 = true
      ∧ (s.twin.linkUp = false → s.img.twin.pair = true → s.twin.peerDown = false → t.twin.rxSeq = 0
        ∧ t.twin.lost = (s.twin.lost && decide (s.twin.st = 1))
        ∧ (s.twin.st = 4 → s.twin.starting = false → s.twin.acts = false → s.twin.divergent = false → t.twin.phase = 1)))
    ∧ (∀ a b, ∃ t, exec (.twinLinkDown a b) s = .next t ∧ t = { s with twin := t.twin }
      ∧ t.twin.linkUp = false ∧ t.twin.lane0 = a ∧ t.twin.lane1 = b
      ∧ (linkOk s = true → t.twin.txq = [] ∧ t.twin.lost = true))
    ∧ (s.twin.lost = true → s.twin.st = 1 → s.twin.starting = false → s.twin.divergent = false →
      ∃ t, exec .linkLossResync s = .next t ∧ t.twin.st = 4 ∧ t.twin.lost = false
        ∧ t.twin.phase = (if linkOk s then 1 else 0)
        ∧ t.ev.eseq = (s.ev.eseq + 1) % 2 ^ 32 ∧ t.ev.pend = s.ev.pend ||| 1#256 <<< 0x4F)
    ∧ (s.twin.lost = true → s.twin.st ≠ 1 →
      exec .linkLossResync s = .next { s with twin := { s.twin with lost := false } })
    ∧ (s.twin.txq ≠ [] → linkOk s = true →
      exec .linkResendTimeout s = .next (count 0x1003007C 0 (min 64 s.twin.txq.length) s))
    ∧ (∀ frame safe, Taken 0x01 frame s →
      let p := payload frame
      let now := max s.clk.safe safe
      ∃ t, exec (.leaseFrame frame safe) s = .next t ∧ t.clk = { s.clk with safe := now }
        ∧ t.twin.linkAt = now ∧ t.twin.expired = s.twin.expired
        ∧ (s.twin.acts = false ∨ nth 0 p 0 = 0 ∨ nth 0 p 0 = 2 → t.twin.peerTenure = be (slice 12 8 p))
        ∧ (s.twin.hello ≠ [] → t.twin.peer = if nth 0 p 0 = 15 then 7 else nth 0 p 0 % 8)
        ∧ (bit 0 (nth 0 p 1) = true → nth 0 p 0 = 0 ∨ nth 0 p 0 = 2 → t.twin.leaseAt = now
            ∧ (s.twin.acts = true → t.twin.dualRun = true
              ∧ (be (slice 12 8 p) < s.twin.tenure → t.twin.dual = true)
              ∧ (s.twin.tenure < be (slice 12 8 p) → t.twin.dual = false)))
        ∧ (bit 0 (nth 0 p 1) = false → t.twin.leaseAt = s.twin.leaseAt))
    ∧ (∀ (word : BitVec 64) safe,
      let w := word.toNat
      let now := max s.clk.safe safe
      let good := w / 2 ^ 56 = 0xD5 ∧ w % 256 = crc8 (beBytes 6 (w / 2 ^ 8 % 2 ^ 48))
      (¬good → exec (.heartbeatFrame word safe) s
        = .next (count 0x10030080 0 1 { s with clk := { s.clk with safe := now } }))
      ∧ (good → ∃ t, exec (.heartbeatFrame word safe) s = .next t ∧ t.clk = { s.clk with safe := now }
        ∧ t.twin.hbAt = some now ∧ t.twin.peerDown = bit 50 w ∧ t.twin.peerHome = bit 47 w
        ∧ (bit 44 w = true → w / 2 ^ 52 % 16 = 0 ∨ w / 2 ^ 52 % 16 = 2 → t.twin.leaseAt = now)))
    ∧ (∀ safe, s.grid.running = false → s.clk.inReset = false →
      exec (.heartbeatTimer safe) s = .next { s with
        clk := { s.clk with safe := max s.clk.safe safe }
        twin := { s.twin with
          hbWord := hbFrame (stateCode s) (hbFlags s) s.grid.block s.twin.hbSeq, hbSeq := (s.twin.hbSeq + 1) % 4096 } })
    ∧ (∀ frame, Taken 0x14 frame s → exec (.healthFrame frame) s = .next { tookFrame 0x14 frame s with
        twin := { (tookFrame 0x14 frame s).twin with
          peerHealth := payload frame, peerDegraded := bit 1 (nth 0 (payload frame) 1) } })
    ∧ ∀ frame, Taken 0x3F frame s →
      let n := s.twin.txq.length
      ∃ t, exec (.nakFrame frame) s = .next t
        ∧ t = { s with bus := t.bus, twin := { s.twin with txq := t.twin.txq, linkAt := s.clk.safe } }
        ∧ t.twin.txq = s.twin.txq.filter (fun f => !seqLe f.seq ((be (slice 0 2 (payload frame)) + 65535) % 65536))
        ∧ cget 0x1003007C 0 t = if t.twin.txq = [] then cget 0x1003007C 0 s
            else min (cget 0x1003007C 0 s + (min 64 n - (n - t.twin.txq.length))) 0xFFFFFFFF

/-- Frames that mirror the holder: ADC samples, slice parts, hashes, staged writes, seals, relayed requests and bulk pieces,
each when its frame is taken. Choices of the model: assumptions 54, 67, 94. -/
def Obligations.MirrorFrames : Prop :=
  ∀ (s : State) (frame : List Byte),
    let p := payload frame
    (Taken 0x02 frame s →
      let q := 4 * be (slice 0 8 p) + nth 0 p 8 % 4
      let u := tookFrame 0x02 frame s
      standby s = true → adcHas q true s = false → adcHas q false s = false →
      ∃ t, exec (.adcSubFrame frame) s = .next t
        ∧ t = { u with smp := { s.smp with lane := t.smp.lane }, twin := { u.twin with adcGot := (2 * q) :: s.twin.adcGot } })
    ∧ (Taken 0x03 frame s → keepsMirror s = true → 2 ≤ s.twin.phase → s.twin.phase ≤ 3 →
      let x : SlicePart := ⟨be (slice 0 2 p), nth 0 p 2, nth 0 p 3, be (slice 4 8 p), p.drop 16⟩
      ∃ t old, exec (.sliceFrame frame) s = .next t
        ∧ t = { tookFrame 0x03 frame s with twin := { (tookFrame 0x03 frame s).twin with parts := old ++ [x] } }
        ∧ ∀ y, y ∈ old ↔ y ∈ s.twin.parts ∧ s.grid.block ≤ y.block
            ∧ ¬(y.slice = x.slice ∧ y.part = x.part ∧ y.block = x.block))
    ∧ (Taken 0x10 frame s → s.twin.peerHash = [] →
      let n := be (slice 0 8 p)
      let m := be (slice 8 8 p)
      let hs := (List.range s.img.twin.groups).map (fun g => be (slice (16 + 8 * g) 8 p))
      let u := tookFrame 0x10 frame s
      (s.twin.ownHash = [] → exec (.hashFrame frame) s
        = .next { u with twin := { u.twin with peerHash := [⟨n, some m, hs⟩] } })
      ∧ (∀ a, s.twin.ownHash = [a] → a.block = n → compares s = true → s.twin.st = 1 →
          (a.hashes = hs → ∃ t, exec (.hashFrame frame) s = .next t ∧ t = { u with twin := t.twin }
            ∧ t.twin.matchRun = min (s.twin.matchRun + 1) 0xFFFFFF ∧ t.twin.st = 1 ∧ t.twin.ownHash = []
            ∧ t.twin.peerHash = [] ∧ t.twin.compared = some (a, ⟨n, some m, hs⟩))
          ∧ ((∃ g < s.img.twin.groups, nth 0 a.hashes g ≠ nth 0 hs g) →
            let explained := n ≤ m + s.img.twin.explain ∨ ∃ l, a.lapse = some l ∧ n ≤ l + s.img.twin.explain
            ∃ t, exec (.hashFrame frame) s = .next t ∧ t.twin.mismatchBlk = n
              ∧ (explained → t.twin.st = 4) ∧ (¬explained → t.twin.st = 3))))
    ∧ (Taken 0x11 frame s ∨ Taken 0x12 frame s ∨ Taken 0x13 frame s → holds s = true → ∀ firstHalf type, nth 0 (bytesOf frame) 0 = type →
      exec (if type = 0x11 then .stageMirrorFrame frame else if type = 0x12 then .fixSealFrame frame firstHalf
        else .reqRelayFrame frame) s
      = .next { tookFrame type frame s with twin := { (tookFrame type frame s).twin with
          relayLog := s.twin.relayLog ++ [(s.grid.block, type, type = 0x12 && firstHalf, p)] } })
    ∧ (Taken 0x11 frame s → keepsMirror s = true → holds s = false → ∀ e, mirrorEntries (p.length + 1) p = some [e] → nth 0 e 0 = 1 →
      s.mx.open_.regCount < 16384 →
      let inst := be (slice 8 2 e)
      ∃ t, exec (.stageMirrorFrame frame) s = .next t
        ∧ t = { tookFrame 0x11 frame s with mx := { s.mx with open_ := { s.mx.open_ with
            regs := upsert (rkey (be (slice 4 4 e)) (if inst = 0xFFFF then 0 else inst)) (be (slice 12 4 e)) s.mx.open_.regs
            regCount := s.mx.open_.regCount + 1, bytes := t.mx.open_.bytes } } })
    ∧ (∀ firstHalf, Taken 0x12 frame s → keepsMirror s = true → holds s = false →
      let c := be (slice 0 8 p)
      let act := be (slice 8 8 p)
      let code := nth 0 p 16
      ∃ t, exec (.fixSealFrame frame firstHalf) s = .next t ∧ t.mx.open_ = Staged.empty
        ∧ (sealBytes c act code s.mx.open_ ≠ p → t.twin.st = 3 ∧ t.mx.pending = s.mx.pending)
        ∧ (sealBytes c act code s.mx.open_ = p → t.mx.result = code ∧ t.mx.resultSeq = (s.mx.resultSeq + 1) % 65536
            ∧ t.mx.pending = if code ≤ 1 then s.mx.pending
                ++ [⟨act, sealAct c act code firstHalf s, decide (code = 1), s.mx.open_, c⟩] else s.mx.pending))
    ∧ (Taken 0x13 frame s → keepsMirror s = true → holds s = false → s.sched.dl1.length < 1024 →
      let f := nth 0 p 1
      let target := be (slice 4 4 p)
      let b := be (slice 8 8 p)
      let u := tookFrame 0x13 frame s
      let enters := fun (kind : ReqKind) => ∃ t r, exec (.reqRelayFrame frame) s = .next t
        ∧ t.sched = { s.sched with dl1 := s.sched.dl1 ++ [r] } ∧ r.kind = kind
        ∧ (reqDirect s kind = false →
            r.act = max (((b : Int) - reqOff s kind) / (s.B : Int)).toNat (s.grid.block + 1))
      (nth 0 p 0 = 1 → enters (.mute target (bit 0 f) (bits 4 1 f)))
      ∧ (nth 0 p 0 = 2 → enters (.hold target (bit 0 f) (bit 1 f)))
      ∧ (nth 0 p 0 = 3 → enters (.pause target (bit 0 f)))
      ∧ (nth 0 p 0 = 6 ∨ nth 0 p 0 = 7 → exec (.reqRelayFrame frame) s = .next { u with
          twin := { u.twin with serial := s.twin.serial ++ [(nth 0 p 0, f, target, b, be (slice 16 8 p))] } }))
    ∧ (Taken 0x20 frame s → keepsMirror s = true → s.twin.phase = 1 →
      ∃ t, exec (.bulkPieceFrame frame) s = .next t ∧ t.twin.pieces = s.twin.pieces
        ++ [⟨be (slice 0 4 p), be (slice 4 8 p), nth 0 p 12, be (slice 16 4 p), p.drop 20⟩])

/-- CONTROL messages of the partner, each when its frame is taken: the handshake, hand-over and its acknowledgement, release,
take-back and its refusal, emission, the bulk phase and the declared-divergent mode. Choices of the model: assumptions 68,
94. -/
def Obligations.ControlMessages : Prop :=
  ∀ (s : State) (frame : List Byte), Taken 0x15 frame s →
    let p := payload frame
    let b := p.drop 4
    let u := tookFrame 0x15 frame s
    let c := compat b s
    (nth 0 p 0 = 0x01 → s.img.twin.pair = true →
      (s.twin.starting = false → s.twin.acts = true → nth 0 b 45 = 15 → ∃ t, exec (.hello frame) s = .next t
        ∧ t.twin.st = 2 ∧ t.twin.peer = (if c = 0 then 4 else if c = 2 then 1 else 3) ∧ t.twin.divergent = decide (c = 2)
        ∧ t.twin.hello = b ∧ t.twin.peerDie = be (slice 36 8 b))
      ∧ (s.twin.starting = true → s.twin.handshake = true → nth 0 b 45 = 15 → ∃ t, exec (.hello frame) s = .next t
        ∧ t.twin.starting = false ∧ t.twin.handshake = false
        ∧ t.twin.proposal = max s.twin.proposal (be (slice 52 8 b))
        ∧ (s.twin.home = true → bit 0 (nth 0 b 44) = false → t.twin.st = 2)
        ∧ (s.twin.home = false → bit 0 (nth 0 b 44) = true → t.twin.st = if c = 0 then 4 else 3)))
    ∧ (nth 0 p 0 = 0x02 → s.img.twin.pair = true → s.twin.starting = true → s.twin.handshake = true →
      be (slice 68 8 b) ≠ 0 → ∃ t, exec (.helloReply frame) s = .next t
        ∧ t.twin.starting = false ∧ t.twin.handshake = false ∧ t.twin.proposal = be (slice 68 8 b)
        ∧ t.twin.peer = nth 0 b 45 % 8 ∧ t.twin.st = if c = 0 then 4 else 3)
    ∧ (nth 0 p 0 = 0x03 → s.twin.st = 1 → s.twin.acts = false → s.twin.starting = false →
      ∃ t, exec (.handover frame) s = .next t ∧ t = { s with twin := t.twin }
        ∧ t.twin.hoAck = some (be (slice 0 8 b)) ∧ t.twin.hoSeen = false)
    ∧ (∀ h, nth 0 p 0 = 0x04 → s.twin.handover = some ⟨h, 1⟩ → be (slice 0 8 b) = h →
      exec (.handoverAck frame) s = .next { u with twin := { u.twin with handover := some ⟨h, 2⟩ } })
    ∧ (nth 0 p 0 = 0x05 → standby s = true →
      exec (.release frame) s = .next { u with twin := { u.twin with releaseAt := some (be (slice 0 8 b)) } })
    ∧ (nth 0 p 0 = 0x06 → s.twin.acts = true → ∃ t, exec (.takeback frame) s = .next t ∧ t = { s with twin := t.twin }
      ∧ t.twin.handover = if bit 0 (rget 0x10030008 0 s) && !s.twin.degraded && !s.twin.peerDegraded && !s.twin.divergent
          && decide (s.twin.peer = 1) && s.twin.handover.isNone then some ⟨s.grid.block + 8, 1⟩ else s.twin.handover)
    ∧ (nth 0 p 0 = 0x07 → exec (.takebackRefused frame) s
        = .next { u with twin := { u.twin with latentAt := s.grid.block } })
    ∧ (nth 0 p 0 = 0x08 → s.twin.acts = false → s.twin.starting = false → s.twin.hoAck ≠ some (be (slice 0 8 b)) →
      ∃ t, exec (.emit frame) s = .next t ∧ t = { u with twin := { u.twin with
          emitLog := t.twin.emitLog, emitAt := some (be (slice 0 8 b), false, bit 1 (nth 0 b 8)) } })
    ∧ (nth 0 p 0 = 0x09 → s.twin.acts = true → hasPartner s = true → s.twin.divergent = false →
      ∃ t, exec (.resyncRequest frame) s = .next t ∧ t = { s with twin := t.twin }
        ∧ t.twin.plan = planStart (s.grid.block + 1) s)
    ∧ (nth 0 p 0 = 0x0A → keepsMirror s = true → s.twin.phase = 1 →
      exec (.bulkEnd frame) s = .next { u with twin := { u.twin with bulkEnd := some (be (slice 0 4 b)) } })
    ∧ (nth 0 p 0 = 0x0B → s.twin.acts = false → s.twin.starting = false →
      (bit 0 (nth 0 b 0) = true → s.twin.st = 3 ∨ s.twin.st = 4 → exec (.divergent frame) s = .next { u with
        twin := { u.twin with divergent := true, barred := false, st := 1, phase := 0, latentAt := s.grid.block } })
      ∧ (bit 0 (nth 0 b 0) = false → s.twin.divergent = true → s.twin.st = 1 →
        ∃ t, exec (.divergent frame) s = .next t ∧ t.twin.divergent = false ∧ t.twin.st = 4 ∧ t.twin.phase = 1)
      ∧ (bit 0 (nth 0 b 0) = false → s.twin.divergent = false → s.twin.barred = true →
        ∃ t, exec (.divergent frame) s = .next t ∧ Heard u t ∧ Rings 0x4D s t))

/-- The token: lease expiry and takeover, the own-lease guard, missing heartbeats, TWIN.CMD's four commands, and a hand-over
from its registration to the switch, with the change of emission. Choices of the model: assumptions 46, 68, 88. -/
def Obligations.TokenAndHandOver : Prop :=
  ∀ s : State,
    (standby s = true → exec .leaseExpiry s
      = .next (setSafe (s.twin.leaseAt + leaseLimit s) { s with twin := { s.twin with expired := true } }))
    ∧ (s.twin.expired = true → standby s = true → s.grid.running = true → ∃ t, exec .takeover s = .next t
      ∧ t.twin.acts = true ∧ t.twin.st = 0 ∧ t.twin.peer = 7 ∧ t.twin.tenure = s.grid.block ∧ t.twin.expired = false
      ∧ t.twin.emitA = true ∧ t.twin.emitB = true ∧ t.mem = s.mem ∧ t.pending = s.pending
      ∧ t.ev.pend.getLsbD 0x40 = true ∧ (s.twin.st ≠ 1 → t.ev.pend.getLsbD 0x41 = true))
    ∧ (s.twin.acts = true → s.img.twin.pair = true → ∃ t, exec .ownLeaseGuard s = .next t
      ∧ t.clk = { s.clk with safe := max s.clk.safe (s.twin.renewAt + ownGuard s + 1) }
      ∧ t.twin = { s.twin with acts := false } ∧ t.grid = s.grid ∧ t.mem = s.mem)
    ∧ (s.twin.st = 2 → s.twin.starting = false →
      (s.twin.acts = true → ∃ t, exec .heartbeatsMissing s = .next t
        ∧ t = { setSafe (max s.twin.linkAt (s.twin.hbAt.getD 0) + leaseLimit s) s with twin := t.twin }
        ∧ t.twin.st = 0 ∧ t.twin.peer = 7 ∧ t.twin.hello = [] ∧ t.twin.handover = none
        ∧ t.twin.emitA = true ∧ t.twin.emitB = true)
      ∧ (s.twin.acts = false → exec .heartbeatsMissing s = .next s))
    ∧ (∀ m < 5, Serves m 0x1003000C true s →
      let seq := (s.twin.cmdSeq + 1) % 65536
      let told := fun (code : Nat) => { answered m s with twin := { s.twin with cmdSeq := seq, cmdCode := code } }
      (s.twin.acts = false → exec (.twinCmdRelease m) s = .next (told 5) ∧ exec (.twinCmdHandover m) s = .next (told 5))
      ∧ (s.twin.acts = true → hasPartner s = false →
          exec (.twinCmdRelease m) s = .next (told 1) ∧ exec (.twinCmdHandover m) s = .next (told 1))
      ∧ (s.twin.acts = true → hasPartner s = true →
          (∃ t, exec (.twinCmdRelease m) s = .next t ∧ t.twin.acts = false ∧ t.twin.st = 3 ∧ t.twin.releasing = true
            ∧ t.twin.emitA = false ∧ t.twin.emitB = false ∧ t.twin.cmdCode = 0 ∧ t.twin.cmdSeq = seq ∧ t.mem = s.mem)
          ∧ (s.twin.hoWait.isSome = true → exec (.twinCmdHandover m) s = .next (told 4))
          ∧ (s.twin.hoWait = none → exec (.twinCmdHandover m) s = .next { answered m s with twin := { s.twin with
              cmdSeq := seq, cmdCode := 0
              hoWait := some (rget 0x10030010 m s + (rget 0x10030014 m s % 2 ^ 27) * 2 ^ 32) } }))
      ∧ (∃ t, exec (.twinCmdRestart m) s = .next t ∧ ResetOf 32 s t ∧ t.clk.inReset = true)
      ∧ (∃ t, exec (.twinCmdResync m) s = .next t ∧ t = { answered m s with twin := t.twin } ∧ t.twin.cmdSeq = seq
          ∧ t.twin.cmdCode = s.twin.cmdCode ∧ t.twin.st = s.twin.st
          ∧ t.twin.phase = if s.twin.st = 4 ∧ s.twin.starting = false ∧ s.twin.acts = false ∧ s.twin.divergent = false
              then 1 else s.twin.phase))
    ∧ (∀ h, s.twin.hoWait = some h →
      let told := fun (code : Nat) => { s with twin := { s.twin with hoWait := none, cmdCode := code } }
      (h ≤ s.grid.block + 1 → exec .handoverRegister s = .next (told 3))
      ∧ (s.grid.block + 1 < h →
          (s.twin.peer ≠ 1 → exec .handoverRegister s = .next (told 2))
          ∧ (s.twin.peer = 1 → s.twin.handover.isSome = true → exec .handoverRegister s = .next (told 4))
          ∧ (s.twin.peer = 1 → s.twin.handover = none → s.twin.acts = false → exec .handoverRegister s = .next (told 5))
          ∧ (s.twin.peer = 1 → s.twin.handover = none → s.twin.acts = true → ∃ t, exec .handoverRegister s = .next t
              ∧ t = { told 0 with twin := { (told 0).twin with
                  handover := some ⟨h, 1⟩, txq := t.twin.txq, txSeq := t.twin.txSeq } })))
    ∧ (∀ h, s.twin.handover = some ⟨h, 2⟩ → s.grid.block + 1 = h →
      exec .handoverCommit s = .next { s with twin := { s.twin with handover := some ⟨h, 3⟩ } })
    ∧ (∀ h, s.twin.handover = some ⟨h, 1⟩ → s.grid.block + 1 = h → ∃ t, exec .handoverCommit s = .next t
      ∧ t.twin = { s.twin with handover := none, cmdCode := 6 } ∧ t.ev.eseq = (s.ev.eseq + 1) % 2 ^ 32
      ∧ t.ev.pend = s.ev.pend ||| 1#256 <<< 0x46)
    ∧ (∀ h, s.twin.handover = some ⟨h, 3⟩ → h ≤ s.grid.block → ∃ t, exec .handoverSwitch s = .next t
      ∧ t.twin.acts = false ∧ t.twin.handover = none ∧ t.twin.st = 1 ∧ t.twin.peer = 2 ∧ t.twin.leaseAt = s.clk.safe
      ∧ t.mem = s.mem
      ∧ cget 0x1003008C 0 t = min (cget 0x1003008C 0 s + 1) 0xFFFFFFFF)
    ∧ (s.twin.handover = none → s.twin.hoAck = some s.grid.block → s.twin.hoSeen = true → s.twin.st = 1 →
      ∃ t, exec .handoverSwitch s = .next t ∧ t.twin.acts = true ∧ t.twin.st = 2 ∧ t.twin.peer = 1
      ∧ t.twin.tenure = s.grid.block ∧ t.twin.hoAck = none ∧ t.mem = s.mem
      ∧ cget 0x1003008C 0 t = min (cget 0x1003008C 0 s + 1) 0xFFFFFFFF)
    ∧ ∀ e a b, s.twin.emitAt = some (e, a, b) → e ≤ s.grid.block →
      exec .emissionChange s = .next { s with twin := { s.twin with emitA := a, emitB := b, emitAt := none } }

/-- Resync from the bulk install over the settle waits and slices, the self-test of a SUSPECT unit, the hash time-out, the
health record, the spare-row test and the take-back hold-off. Choices of the model: assumptions 68, 69. -/
def Obligations.ResyncAndHealth : Prop :=
  ∀ s : State,
    (s.twin.ownHash.any (fun h => decide (h.block + s.img.twin.sealBlocks + 2 ≤ s.grid.block)) = true →
      exec .hashCompareTimeout s = .next { s with twin := { s.twin with
        matchRun := if compares s && decide (s.twin.st = 4) then 0 else s.twin.matchRun
        ownHash := s.twin.ownHash.filter (fun h => decide (s.grid.block < h.block + s.img.twin.sealBlocks + 2)) } })
    ∧ (∀ n, s.twin.bulkEnd = some n → keepsMirror s = true → s.twin.phase = 1 → s.grid.running = true →
      (∀ k < n, ∃ x ∈ s.twin.pieces, x.num = k) → s.twin.st = 4 → s.twin.relayLog = [] →
      (∀ x ∈ s.twin.pieces, s.grid.block ≤ x.capture + 1) → ∃ t, exec .bulkInstall s = .next t
        ∧ t.twin.pieces = [] ∧ t.twin.bulkEnd = none ∧ t.mx.setA = t.mx.setB ∧ t.grid.block = s.grid.block
        ∧ (s.img.twin.levels = [] → t.twin.phase = 4 ∧ t.twin.waitEnd = s.grid.block + s.img.twin.outSettle)
        ∧ ∀ w f k l, s.img.twin.levels = (w, f, k) :: l →
            t.twin.phase = 2 ∧ t.twin.slice = f ∧ t.twin.waitEnd = s.grid.block + w)
    ∧ (keepsMirror s = true → s.twin.waitEnd ≤ s.grid.block →
      (s.twin.phase = 2 → exec .settleExpiry s
        = .next { s with twin := { s.twin with phase := 3, waitEnd := s.grid.block } })
      ∧ (s.twin.phase = 4 → exec .settleExpiry s = .next { s with twin := { s.twin with phase := 5, matchRun := 0 } }))
    ∧ (keepsMirror s = true → s.twin.phase = 3 → s.twin.waitEnd = s.grid.block →
      (∀ l, sliceWhole s = some l → ∃ t, exec .sliceInstall s = .next t ∧ t.twin.parts = [] ∧ t.grid = s.grid
        ∧ (planNext s.twin.level s.twin.slice (s.grid.block + 1) s = none →
            t.twin.phase = 4 ∧ t.twin.waitEnd = s.grid.block + 1 + s.img.twin.outSettle)
        ∧ ∀ i k e, planNext s.twin.level s.twin.slice (s.grid.block + 1) s = some (i, k, e) → t.twin.level = i
            ∧ t.twin.slice = k ∧ t.twin.waitEnd = e ∧ t.twin.phase = if i = s.twin.level then 3 else 2)
      ∧ exec .sliceTimeout s = .next (count 0x10030088 0 1 { s with twin := { s.twin with
          sliceLate := true, waitEnd := s.grid.block + 1
          parts := s.twin.parts.filter (fun y => decide (s.grid.block < y.block)) } }))
    ∧ (s.twin.starting = false → s.twin.st = 3 →
      (s.twin.barred = false → ∃ t, exec (.selfTestDone true true) s = .next t ∧ t = { s with twin := t.twin }
        ∧ t.twin.st = 4 ∧ t.twin.phase = 1)
      ∧ (s.twin.barred = true → exec (.selfTestDone true true) s = .next s)
      ∧ ∀ bist clocks, (bist && clocks) = false → ∃ t, exec (.selfTestDone bist clocks) s = .next t
        ∧ t.twin = { s.twin with
            bistFail := s.twin.bistFail || !bist, clockFault := s.twin.clockFault || !clocks }
        ∧ t.ev.eseq = (s.ev.eseq + 1) % 2 ^ 32)
    ∧ (∃ t, exec .healthSend s = .next t ∧ t = { s with twin := t.twin }
      ∧ t.twin.health = healthRecord t
      ∧ t.twin.healthBase = (total 0x10120030 s + total 0x10120048 s, total 0x10030078 s + total 0x10030090 s, total 0x10030080 s)
      ∧ (linkOk s = true → t.twin.txSeq = (s.twin.txSeq + 1) % 65536))
    ∧ (s.twin.acts = false → s.twin.starting = false → ∀ pass, exec (.spareRowTest pass) s = .next { s with
        mem := { s.mem with
          bistNext := (s.mem.bistNext + 1) % 2048, bistRows := s.mem.bistRows + 1
          bistFailed := if pass then s.mem.bistFailed else min 2047 (s.mem.bistFailed + 1) }
        twin := if pass then s.twin else { s.twin with bistFail := true, degraded := true } })
    ∧ (s.twin.home = true → s.twin.st = 1 → s.twin.starting = false → s.twin.divergent = false → s.twin.degraded = false →
      s.twin.peerDegraded = false → s.twin.latentAt + secondBlocks s.img.twin.holdoff s ≤ s.grid.block → ∃ t, exec .takebackHoldoff s = .next t
        ∧ t = { s with twin := { s.twin with latentAt := s.grid.block, txq := t.twin.txq, txSeq := t.twin.txSeq } }
        ∧ (linkOk s = true → t.twin.txq = s.twin.txq ++ [⟨s.twin.txSeq, 0x15, [6, 0, 0, 0]⟩]))

/-! ### Network and time (chapters 10 and 11) -/

/-- The network ports: what a received frame enters and counts, link changes with their first frames, transmission in its order
and when it is due, LPI and LLDP. Choices of the model: assumptions 25, 36, 38, 107. -/
def Obligations.Network : Prop :=
  ∀ (s : State) (p : Nat), p < 5 →
    let v := pnGet p s
    (∀ frame codeError poison offset stamp,
      let f := bytesOf frame
      let n := f.length
      let body := f.take (n - 4)
      let got := pnSet p { v with rxOctets := octets v.rxOctets n } s
      let stored := storeFrame p false false false stamp body got
      let good := 64 ≤ n ∧ n ≤ (netCfg s p).maxFrame ∧ le (f.drop (n - 4)) = crc32 body ∧ codeError = false
        ∧ poison = false ∧ sumsOk body = true
      let receive := exec (.frameReceive p frame codeError poison offset stamp) s
      ((netCfg s p).mode = 0 ∨ v.link = false → receive = .next s)
      ∧ ((netCfg s p).mode ≠ 0 → v.link = true →
        (n < 64 → receive = .next (count 0x100B0024 p 1 got))
        ∧ (good → p < 4 → isPtp body = true →
          (admits s p 65536 (cellsUsed got).length = false → receive = .next (quotaDrop p got))
          ∧ (admits s p 65536 (cellsUsed got).length = true → ∃ t, receive = .next t ∧ Counts 0x100B0020 p 1 s t
            ∧ t.net.poolMin = min s.net.poolMin (poolFree t)
            ∧ pnGet p t = { v with rxOctets := octets v.rxOctets n, ptpQ := v.ptpQ.push stored }))
        ∧ (∀ u k b c, good → p < 4 → isPtp body = false → udpOf body = some u →
          findLeg s p (etherOf body).2.1 u = some (k, b) → s.img.rx[k]? = some c →
          let rtp := slice (u.off + 8) (u.len - 8) body
          let now := blockNow s
          let ts := extendTs ((be (slice 4 4 rtp) + 2 ^ 32 - c.tsOffset) % 2 ^ 32) ((s.B * now : Nat) : Int)
          c.type < 4 → (fnGet 2 k s).st = 0 →
          admits s p (if b then c.cellsB else c.cellsA) (legCells b (rxGet k s)) = true →
          12 ≤ rtp.length → nth 0 rtp 0 / 64 = 2 → nth 0 rtp 0 % 16 = 0 → nth 0 rtp 1 % 128 = c.pt →
          (c.ssrcCheck = true → be (slice 8 4 rtp) = c.ssrc) →
          (rtpPayload rtp).length = c.ptime * c.channels * sampleBytes c.type →
          (rxGet k s).minBlock ≤ dueBlock s c ts → now < dueBlock s c ts → dueBlock s c ts ≤ now + c.depth + 2 →
          ∃ t, receive = .next t ∧ Counts 0x100B0020 p 1 s t
            ∧ (rxGet k t).leg b = ((rxGet k s).leg b).push ⟨stored, true, ts, be (slice 2 2 rtp), now⟩)
        ∧ (good → forSupervisor s p body = false →
          (p < 4 → isPtp body = false ∧ ∀ u, udpOf body = some u → findLeg s p (etherOf body).2.1 u = none) →
          receive = .next (count 0x100B0030 p 1 got))))
    ∧ (∀ up fec lpi,
      let c := netCfg s p
      let w := { v with
        link := up, fecLock := up && fec && decide (c.mode = 3), rxLpi := up && lpi && p = 4 && c.mode = 5 && c.eee }
      let frames := fun (q : Queue Stored) => q.items.map Stored.frame
      ∃ t, exec (.netLinkChange p up ⟨fec, lpi⟩) s = .next t ∧ t.mem = s.mem ∧ t.twin = s.twin ∧ t.img = s.img
        ∧ (v.link = up → t.net = (pnSet p w s).net)
        ∧ (v.link ≠ up → t.ev.pend.getLsbD 0x51 = true
          ∧ pnGet p t = { w with linkChange := true, txLpi := false, svOut := (pnGet p t).svOut }
          ∧ frames (pnGet p t).svOut = frames v.svOut
            ++ if up = false then []
              else if p = 4 then (if c.mode = 5 ∧ c.eee = true then [lldpOwn s] else [])
              else if portGroups s p = [] then [] else [igmpReport s p]))
    ∧ (∀ f q, v.svOut.next = (some f, q) → (p = 4 → v.txLpi = false) →
      (v.link = true → ∃ t, exec (.txPacketSend p) s = .next t ∧ Counts 0x100B0034 p 1 s t
        ∧ pnGet p t = { v with svOut := q, sent := f.frame, txOctets := octets v.txOctets (max 64 (f.frame.length + 4)) })
      ∧ (v.link = false → exec (.txPacketSend p) s = .next (count 0x100B0038 p 1 (pnSet p { v with svOut := q } s))))
    ∧ (∀ due k b m c, p < 4 → v.svOut.next.1 = none → v.link = true → txHead s p = some (due, k, b, m) →
      s.img.tx[k]? = some c →
      let u := txSet k (if b then { txGet k s with nextB := m + 1 } else { txGet k s with nextA := m + 1 }) s
      let f := txPacket s k c (if b then c.legB else c.legA) m
      (txReached s ≤ due → exec (.txPacketSend p) s = .next s)
      ∧ (due < txReached s → admits s p c.cells 0 = false → exec (.txPacketSend p) s = .next (quotaDrop p u))
      ∧ (due < txReached s → admits s p c.cells 0 = true →
        (emits s b (m * c.ptime) = true → ∃ t, exec (.txPacketSend p) s = .next t
          ∧ Counts 0x100B0034 p 1 s t ∧ Counts 0x100B00C8 k 1 s t ∧ (pnGet p t).sent = f ∧ txGet k t = txGet k u)
        ∧ (emits s b (m * c.ptime) = false → exec (.txPacketSend p) s = .next (noteCells (cellsOf f.length) u))))
    ∧ exec .lpiEnter s = .next (
        if eeeOn s = true ∧ (pnGet 4 s).txLpi = false ∧ (pnGet 4 s).svOut.items = [] ∧ s.tcm.mgmtOut = [] then
          count 0x100B003C 4 1 (pnSet 4 { pnGet 4 s with txLpi := true } s)
        else s)
    ∧ (∀ f q, (pnGet 4 s).txLpi = true → (pnGet 4 s).svOut.next = (some f, q) → (pnGet 4 s).link = true →
      ∃ t, exec .lpiWake s = .next t ∧ Counts 0x100B0034 4 1 s t ∧ pnGet 4 t = { pnGet 4 s with
        txLpi := false, svOut := q, sent := f.frame
        txOctets := octets (pnGet 4 s).txOctets (max 64 (f.frame.length + 4)) })
    ∧ ∀ frame,
      let f := bytesOf frame
      let tlv := eeeTlv f.length (f.drop (etherOf f).2.2)
      (∀ w, (etherOf f).1 = 0x88CC → eeeOn s = true → tlv = some w →
        let t := { s with net := { s.net with
          twTx := be (slice 2 2 w), twRx := Config.wakeRx % 65536, peerTw := be (slice 0 2 w) } }
        (t.net.twTx = s.net.twTx → t.net.peerTw = s.net.peerTw → exec (.lldpFrame frame) s = .next t)
        ∧ (t.net.twTx ≠ s.net.twTx ∨ t.net.peerTw ≠ s.net.peerTw →
          exec (.lldpFrame frame) s = .next (svSend 4 (lldpOwn t) t)))
      ∧ ((etherOf f).1 ≠ 0x88CC ∨ eeeOn s = false ∨ tlv = none → exec (.lldpFrame frame) s = .next s)

/-- IEEE 1588 messages at the head of a port's queue and those that a domain sends, with the time-outs: data sets, the two
timestamps of a measurement, path delay, sequence numbers and states. Choices of the model: assumptions 21, 38, 39, 40, 108. -/
def Obligations.PtpMessages : Prop :=
  (∀ (s : State) (p k : Nat) (x : Stored) (q : Queue Stored), p < 4 → k < 2 →
    let q0 := (pnGet p s).ptpQ.settle (fun y => y.error || y.poison)
    q0.next = (some x, q) →
    let u := pnSet p { pnGet p s with ptpQ := q } (pnSet p { pnGet p s with ptpQ := q0 } s)
    let ts := x.stamp
    let d := domGet k s
    (ptpMessage x.frame = none → ∀ row ∈ [Instr.ptpAnnounce, .ptpSync, .ptpFollowUp, .ptpDelayReq, .ptpDelayResp],
      exec (row p) s = .next (count 0x100C0090 0 1 u))
    ∧ ∀ m, ptpMessage x.frame = some m →
      let seq := be (slice 30 2 m)
      let is := fun (type : Nat) => ptpKnown m = true ∧ nth 0 m 0 % 16 = type ∧ domOf s p (nth 0 m 4) = some k
      let ours := d.leader = some (be (slice 20 10 m))
      let measures := fun (t : State) (t1 t2 : Int) => (domGet k t).t1 = t1 ∧ (domGet k t).t2 = t2
        ∧ (domGet k t).measured = true ∧ (domGet k t).sync = none
        ∧ (domGet k t).offset = (match d.path with | some x => some (t2 - t1 - x) | none => d.offset)
      (ptpKnown m = false → ∀ row ∈ [Instr.ptpAnnounce, .ptpSync, .ptpFollowUp, .ptpDelayReq, .ptpDelayResp],
        exec (row p) s = .next (count 0x100C0090 0 1 u))
      ∧ (is 0xB → announceOk m = true →
        let id := be (slice 20 10 m)
        let now := ingressTime s p ts
        ∃ t, exec (.ptpAnnounce p) s = .next t ∧ t.net = u.net
          ∧ (domGet k t).foreign = d.foreign.filter (fun f => decide (f.ident ≠ id) && (decide (d.leader = some f.ident)
              || decide (now - f.last ≤ 4 * intervalOf (domCfg s k).logAnnounce)))
            ++ [⟨id, announceRank m, be (slice 53 8 m), now,
              (d.foreign.find? (fun f => decide (f.ident = id))).map Foreign.last⟩])
      ∧ (is 0xB → announceOk m = false → exec (.ptpAnnounce p) s = .next u)
      ∧ (is 0 → ours →
        (bit 1 (nth 0 m 6) = true → exec (.ptpSync p) s = .next
          (domSet k { d with twoStep := true, sync := some (seq, ingressTime s p ts, ptpCorr m) } u))
        ∧ (bit 1 (nth 0 m 6) = false → ∃ t, exec (.ptpSync p) s = .next t ∧ (domGet k t).twoStep = false
          ∧ measures t (ptpStamp m + ptpCorr m) (ingressTime s p ts)))
      ∧ (is 8 → ours → ∀ t2 corr, d.sync = some (seq, t2, corr) → ∃ t, exec (.ptpFollowUp p) s = .next t
        ∧ measures t (ptpStamp m + ptpCorr m + corr) t2)
      ∧ (is 1 → d.st = 4 → (pnGet p s).link = true →
        let t1 := ingressTime s p ts
        ∃ t, exec (.ptpDelayReq p) s = .next t ∧ Counts 0x100B0034 p 1 s t ∧ (pnGet p t).ptpQ = q
          ∧ (pnGet p t).sent = ptpFrame s k p 320 (ptpHeader (clockId s p) 9 54 (domCfg s k).domain 0
              (ptpCorr m - t1 % 2 ^ 16) seq (domCfg s k).logDelayReq ++ stampBytes (t1 / 2 ^ 16).toNat ++ slice 20 10 m))
      ∧ (is 9 → ours → ∀ t3, d.req = some (seq, t3) → slice 44 8 m = clockId s p → d.measured = true →
        exec (.ptpDelayResp p) s = .next (domSet k { d with
          path := some ((2 * ((d.t2 - d.t1) + (ptpStamp m - ptpCorr m - t3)) + 2) / 4), pathAt := t3, req := none } u)))
  ∧ ∀ (s : State) (k : Nat), k < 2 →
    let d := domGet k s
    let p := domPort s k
    let sends := fun (t : State) (udp : Nat) (m : List Nat) => Counts 0x100B0034 p 1 s t
      ∧ (pnGet p t).sent = ptpFrame s k p udp m
    (d.st = 4 → s.img.ptp.leaderEn = true → s.twin.acts = true → (pnGet p s).link = true →
      (∀ ts,
        let e := egressTime s p ts
        ∃ t, exec (.syncSend k ts) s = .next t ∧ domGet k t = { d with syncSeq := (d.syncSeq + 1) % 65536 }
          ∧ sends t 319 (ptpHeader (clockId s p) 0 44 (domCfg s k).domain 0 ((e % 2 ^ 32 / 2 ^ 16 : Nat) : Int) d.syncSeq
              (domCfg s k).logSync ++ stampBytes (e / 2 ^ 32)))
      ∧ ∃ t, exec (.announceSend k) s = .next t ∧ domGet k t = { d with annSeq := (d.annSeq + 1) % 65536 }
          ∧ sends t 320 (ptpHeader (clockId s p) 0xB 64 (domCfg s k).domain 0x003C 0 d.annSeq (domCfg s k).logAnnounce
              ++ List.replicate 10 0 ++ beBytes 2 s.img.ptp.utcOffset
              ++ [0, s.img.ptp.prio1, if s.time.ppsOk then s.img.ptp.clockClass else 7, s.img.ptp.accuracy]
              ++ beBytes 2 s.img.ptp.variance ++ [s.img.ptp.prio2] ++ clockId s p ++ [0, 0, 0x20]))
    ∧ (d.st = 2 ∨ d.st = 3 →
      (∀ ts, (pnGet p s).link = true → ∃ t, exec (.delayReqSend k ts) s = .next t
        ∧ domGet k t = { d with
            req := some (d.reqSeq, ((egressTime s p ts / 2 ^ 16 : Nat) : Int)), reqSeq := (d.reqSeq + 1) % 65536 }
        ∧ sends t 319 (ptpHeader (clockId s p) 1 44 (domCfg s k).domain 0 0 d.reqSeq 127 ++ List.replicate 10 0))
      ∧ (let fs := d.foreign.filter (fun f => decide (d.leader ≠ some f.ident))
        let w := domSet k { d.restart with foreign := fs, leader := none, st := 1 } s
        let leads := s.img.ptp.leaderEn = true ∧ s.twin.acts = true ∧ s.time.ppsOk = true
        ∃ t, exec (.announceTimeout k) s = .next t ∧ (domGet k t).foreign = fs
          ∧ (bestForeign w k = none → ¬leads → (domGet k t).st = 1 ∧ (domGet k t).leader = none)
          ∧ (bestForeign w k = none → leads → (domCfg s k).profile ≠ 0 → (domGet k t).st = 4))
      ∧ exec (.syncTimeout k) s = .next (domSet k { d with
          measured := false, st := if d.leader.isSome then 2 else 1, run := 0, lockRun := 0 } s))
    ∧ (d.st = 0 ∨ d.st = 4 → exec (.announceTimeout k) s = .next s ∧ exec (.syncTimeout k) s = .next s)

/-- The time counter: it runs on into a half with or without an armed entry; writes of entries and of the increment, which the
supervisor's servo holds in its range, the step before audio, and PPS edges and their absence. Choices of the model: assumption
41, and 108 for a write of the entry in use once audio has started, which takes only the value that the entry holds. -/
def Obligations.TimeCounter : Prop :=
  ∀ s : State,
    let t0 := s.time
    (∀ cycles,
      let v := t0.cnt + cycles * t0.inc
      t0.cnt < 2 ^ 64 →
      (v / 2 ^ 63 = t0.cnt / 2 ^ 63 →
        exec (.epochHalfEnter cycles) s = .next { s with time := { t0 with cnt := v % 2 ^ 64 } })
      ∧ (t0.cnt < 2 ^ 63 → v / 2 ^ 63 = 1 →
        (t0.armed1 = true → exec (.epochHalfEnter cycles) s
          = .next { s with time := { t0 with cnt := v % 2 ^ 64, armed0 := false } })
        ∧ (t0.armed1 = false → ∃ t, exec (.epochHalfEnter cycles) s = .next t ∧ Rings 0x59 s t ∧ Counts 0x100C0094 0 1 s t
          ∧ t.time = { t0 with
              cnt := v % 2 ^ 64, epoch1 := t0.epoch0, armed1 := true, armed0 := false, stale := true }))
      ∧ (2 ^ 63 ≤ t0.cnt → v / 2 ^ 63 = 2 →
        (t0.armed0 = true → exec (.epochHalfEnter cycles) s
          = .next { s with time := { t0 with cnt := v % 2 ^ 64, armed1 := false } })
        ∧ (t0.armed0 = false → ∃ t, exec (.epochHalfEnter cycles) s = .next t ∧ Rings 0x59 s t ∧ Counts 0x100C0094 0 1 s t
          ∧ t.time = { t0 with
              cnt := v % 2 ^ 64, epoch0 := (t0.epoch1 + 1) % 2 ^ 32, armed0 := true, armed1 := false, stale := true })))
    ∧ (∀ (m e : Nat) (v : Word), m < 5 → e < 2 → Serves m (0x100C0024 + 4 * e) true s →
      let expected := if t0.cnt / 2 ^ 63 % 2 = 0 then t0.epoch0
        else if e = 1 then t0.epoch1 else (t0.epoch1 + 1) % 2 ^ 32
      (s.grid.running = true → v.toNat ≠ expected →
        exec (.epochWrite m e v) s = .next { answered m s with time := { t0 with badWrite := true } })
      ∧ (s.grid.running = false ∨ v.toNat = expected → exec (.epochWrite m e v) s = .next { answered m s with
          time := if e = 0 then { t0 with epoch0 := v.toNat, armed0 := true }
            else { t0 with epoch1 := v.toNat, armed1 := true } }))
    ∧ (∀ (m : Nat) (v : Word), m < 5 → Serves m 0x100C001C true s →
      let asked := rget 0x100C0020 0 s % 16 * 2 ^ 32 + v.toNat
      let (lo, hi) := incRange s
      exec (.incWrite m v) s = .next (setInc
        (if m ≠ 0 then asked else if t0.holdover = true then t0.inc else max lo (min hi asked)) (answered m s)))
    ∧ (t0.sel = none → incRange s = (17171279250, 17188459118))
    ∧ (∀ i, (setInc i s).time = { t0 with inc := i } ∧ rget 0x100C001C 0 (setInc i s) = i % 2 ^ 32
      ∧ rget 0x100C0020 0 (setInc i s) = i / 2 ^ 32 % 16)
    ∧ (∀ m < 5, Serves m 0x100C0038 true s →
      let lo := rget 0x100C0030 0 s
      let hi := rget 0x100C0034 0 s
      let moved := fun (lo hi : Nat) => (((hi * 2 ^ 64 + lo * 2 ^ 32) / 2 ^ 16 : Nat) : Int) - timeNow s
      (s.grid.running = true → exec (.ptpStep m) s = .next (count 0x100C008C 0 1 (answered m s)))
      ∧ (s.grid.running = false → lo < 2 ^ 32 → hi < 2 ^ 32 → exec (.ptpStep m) s = .next { answered m s with
          time := { t0 with
            cnt := lo * 2 ^ 32, epoch0 := if lo < 2 ^ 31 then hi else (hi + 1) % 2 ^ 32, epoch1 := hi
            armed0 := true, armed1 := true
            dom0 := t0.dom0.stepped (domCfg s 0) (moved lo hi), dom1 := t0.dom1.stepped (domCfg s 1) (moved lo hi)
            ppsAt := t0.ppsAt.map (fun a => (a + moved lo hi * 2 ^ 16).toNat) } }))
    ∧ (∀ ts a, t0.ppsAt = some a →
      let t := extended s ts
      let off : Int := (t : Int) - a - 10 ^ 9 * 2 ^ 32
      (s.grid.running = true → -1000 * 2 ^ 32 ≤ off → off < 1000 * 2 ^ 32 →
        let run := min 8 (t0.ppsRun + 1)
        exec (.ppsEdge ts) s = .next { s with time := { t0 with
          ppsAt := some t, ppsRun := run, ppsOk := t0.ppsOk || decide (8 ≤ run)
          ppsOffset := rhu ((t : Int) - ((t / 2 ^ 32 + 500000000) / 10 ^ 9 * 10 ^ 9 * 2 ^ 32 : Nat)) (2 ^ 32) } })
      ∧ (t0.ppsOk = true → off < -1000 * 2 ^ 32 ∨ 1000 * 2 ^ 32 ≤ off → ∃ u, exec (.ppsEdge ts) s = .next u ∧ Rings 0x5D s u
        ∧ u.time.ppsOk = false ∧ u.time.ppsRun = 0 ∧ u.time.ppsLoss = true))
    ∧ (t0.ppsOk = true → exec .ppsTimeout s
      = .next (raise 0x5D 0 { s with time := { t0 with ppsRun := 0, ppsOk := false, ppsLoss := true } }))
    ∧ (t0.ppsOk = false → exec .ppsTimeout s = .next { s with time := { t0 with ppsRun := 0 } })

/-! ### Serial audio ports (chapter 12) -/

/-- Serial frames on the group that leads and on an aligned follower, with slips; absent frames, rate windows and alignment.
Choices of the model: assumption 33. -/
def Obligations.SerialPorts : Prop :=
  ∀ (s : State) (g : Nat), g < 24 →
    let v := grpGet g s
    let c : Int := s.C
    (∀ (t : Int) bclks words,
      let sends := fun (u : State) (i : Nat) => ∀ q < 8, let r := portCfg s (8 * g + q)
        r.dir = 2 → let ws := (txWords s (8 * g + q) i).map (pattern r.word)
        (portGet (8 * g + q) u).words = ws ∧ (portGet (8 * g + q) u).ball = ballBits r ws
      ((grpCfg s g).mode = 1 → s.twin.acts = true → s.grid.running = true →
        let i := (t / c).toNat
        ∃ u, exec (.serialFrame g t bclks words) s = .next u ∧ sends u i
          ∧ grpGet g u = { v with
              aligned := true, ever := true, next := i + 1, idx := i, phase := 0, last := some t, lastIdx := some i
              fsync := syncBits (grpCfg s g) }
          ∧ ∀ q j k, q < 8 → let r := portCfg s (8 * g + q)
            r.dir = 1 → (∀ h < 8, h ≠ q → (portCfg s (8 * g + h)).dir ≠ 1) → (enabledSlots r)[j]? = some k → i < 2 ^ 64 →
            (fnGet 1 (8 * g + q) s).st = 0 → (fnGet 1 (8 * g + q) s).since = 0 → crossingTook s i = false →
            smpGet u.smp.lane (r.laneBase + j) i = if inputHold s (8 * g + q) i = 0 then
              pcmIn r.word (signExt r.word (slotWord r k (nth 0 words q))) else 0)
      ∧ ((grpCfg s g).mode = 2 → v.aligned = true → s.grid.running = true →
        (∀ t0, v.last = some t0 → bclks = (grpCfg s g).frameBits ∧ 2 * (t - t0) < 5 * c) → takesRelays s = false →
        let phi := t - c * v.next
        let n := if s.S * c ≤ phi then ((phi - s.S * c) / c).toNat + 1 else 0
        let i := v.next + n
        (0 ≤ phi → ∃ u, exec (.serialFrame g t bclks words) s = .next u ∧ sends u i
          ∧ (grpGet g u).next = i + 1 ∧ (grpGet g u).idx = i ∧ (grpGet g u).phase = t - c * i
          ∧ (grpGet g u).aligned = true ∧ (grpGet g u).last = some t ∧ (n ≠ 0 → Counts 0x100D0028 g n s u)
          ∧ (grpGet g u).slip = (v.slip || decide (n ≠ 0)))
        ∧ (phi < 0 → ∃ u, exec (.serialFrame g t bclks words) s = .next u ∧ (grpGet g u).next = v.next
          ∧ Counts 0x100D002C g 1 s u ∧ (grpGet g u).slip = true)))
    ∧ ((grpCfg s g).mode = 2 →
      (v.aligned = true → ∃ u, exec (.frameAbsentTimeout g) s = .next u ∧ Counts 0x100D0030 g 1 s u
        ∧ grpGet g u = { v with aligned := false, clockLoss := true, stable := 0 } ∧ u.ev.pend.getLsbD 0x64 = true)
      ∧ (v.aligned = false → exec (.frameAbsentTimeout g) s = .next (grpSet g { v with stable := 0 } s)))
    ∧ ((grpCfg s g).mode = 1 →
      exec (.rateWindowEnd g) s = .next (grpSet g { v with frames := 16 * s.B, drift := 0 } s))
    ∧ (∀ a b, (grpCfg s g).mode = 2 → v.won = true → v.winLast = some a → v.winPrev = some b →
      a < c * (s.B * s.grid.block : Nat) →
      let d := a - b - c * v.winF
      let high := decide ((grpCfg s g).rateTol * 524288 < d.natAbs * 1000000)
      ∃ u, exec (.rateWindowEnd g) s = .next u
        ∧ (grpGet g u).frames = v.winF ∧ (grpGet g u).drift = d ∧ (grpGet g u).rateHigh = high
        ∧ (grpGet g u).rateChange = (v.rateChange || decide (high ≠ v.rateHigh)) ∧ (grpGet g u).winF = 0
        ∧ (grpGet g u).aligned = (v.aligned && decide (d.natAbs ≤ 524)))
    ∧ (∀ t : Int, s.grid.running = true → v.aligned = false → 8 ≤ v.stable →
      ((grpCfg s g).mode = 1 → ∃ u, exec (.sapAlign g t) s = .next u ∧ (v.ever = true → Rings 0x65 s u)
        ∧ Heard (grpSet g { v with
          aligned := true, ever := true, stable := 0, next := ((t + c / 2) / c).toNat
          resync := v.resync || v.ever } s) u)
      ∧ ((grpCfg s g).mode = 2 → takesRelays s = false → ∃ u, exec (.sapAlign g t) s = .next u
        ∧ grpGet g u = { v with
            aligned := true, ever := true, stable := 0, next := (alignOwn s g t).1.toNat
            resync := v.resync || v.ever }))

/-! ### Converters, headset ports and power stages (chapter 13) -/

/-- Compliance checks of a DAC and their mute, and a headset port: plug detection, classification, the microphone resistance
with its types and buttons, the button's fade and the output that resumes. Choices of the model: assumptions 28, 29. -/
def Obligations.DacsAndHeadsets : Prop :=
  (∀ (s : State) (k : Nat), k < 8 →
    let d := dacGet k s
    (∀ flow uA (mV : Int), (s.img.dacSrc[k]?).isSome →
      let op := !flow && decide (500 ≤ uA)
      let ov := (if nth false s.img.dacHp k then decide (mV < -1500) else decide (mV < 300)) || decide (1500 < mV)
      let opNow := op && (d.openSeen || d.openNow)
      let ovNow := ov && (d.overSeen || d.overNow)
      let n := (if opNow && !d.openNow then 1 else 0) + (if ovNow && !d.overNow then 1 else 0)
      ∃ t, exec (.complianceCheck k flow uA mV) s = .next t
        ∧ dacGet k t = { d with
            openSeen := op, overSeen := ov, openNow := opNow, overNow := ovNow
            openEv := d.openEv || (opNow && !d.openNow), overEv := d.overEv || (ovNow && !d.overNow)
            tail := d.tail || ((d.openNow || d.overNow) && !opNow && !ovNow) }
        ∧ (n ≠ 0 → Counts 0x100F0020 k n s t) ∧ t.ev.eseq % 2 ^ 32 = (s.ev.eseq + n) % 2 ^ 32)
    ∧ exec (.complianceMuteEnd k) s
        = .next (if d.openNow = true ∨ d.overNow = true then s else dacSet k { d with tail := false } s))
  ∧ ∀ (s : State) (n : Nat), n < 2 →
    let h := hsGet n s
    (∀ plug, exec (.hsDetChange n plug) s = .next (hsSet n { h with
        det := plug
        st := if hsOn s n = true ∧ plug = true ∧ h.st = 1 then 2
          else if hsOn s n = true ∧ plug = false ∧ h.st = 2 then 1 else h.st } s))
    ∧ (hsOn s n = true → h.det = true → h.st = 2 → ∃ t, exec (.hsInsertConfirm n) s = .next t ∧ Rings 0x6D s t
      ∧ hsGet n t = { h with
          st := 3, insert := true, allLow := true, allFour := true, classified := 0, fourRun := 0, highRun := 0
          window := 0, windowRun := 0, upRun := 0, outDue := true })
    ∧ (hsOn s n = true → h.det = false → 3 ≤ h.st → ∃ t, exec (.hsRemoveConfirm n) s = .next t ∧ Rings 0x6E s t
      ∧ hsGet n t = { h with
          st := 1, type := 0, button := 0, remove := true, outOn := false, outDue := false, fadeDue := (hsGet n t).fadeDue })
    ∧ (h.st = 3 →
      (∀ r, hsOn s n = true → ∃ t, exec (.micMeasure n r) s = .next t ∧ hsGet n t = { h with
        ohms := min r 65535, classified := h.classified + 1, allLow := h.allLow && decide (r < 100)
        allFour := h.allFour && decide (1500 ≤ r) && decide (r ≤ 12000) })
      ∧ exec (.hsClassifyEnd n) s = .next (hsSet n { h with
          st := 4, type := if h.classified = 0 then 3 else if h.allLow then 1 else if h.allFour then 2 else 3 } s))
    ∧ (h.st = 4 → hsOn s n = true → ∀ r,
      let measured := fun (P : State → Prop) => ∃ t, exec (.micMeasure n r) s = .next t
        ∧ (hsGet n t).ohms = min r 65535 ∧ (hsGet n t).st = 4 ∧ P t
      (∀ e ∈ [(1, 0, 40), (2, 75, 130), (3, 200, 330), (4, 520, 900)], e.2.1 ≤ r → r ≤ e.2.2 → h.type = 2 → h.button = 0 →
        measured (fun t => (hsGet n t).window = e.1
          ∧ if h.window = e.1 ∧ 19 ≤ h.windowRun then
              (hsGet n t).button = e.1 ∧ (hsGet n t).press = true ∧ Counts 0x10110014 n 1 s t ∧ Rings 0x70 s t
            else (hsGet n t).button = 0 ∧ t.ev = s.ev))
      ∧ (1500 ≤ r → h.type = 2 → r ≤ 12000 → h.button ≠ 0 → measured (fun t =>
          if 19 ≤ h.upRun then (hsGet n t).button = 0 ∧ Rings 0x70 s t else (hsGet n t).button = h.button ∧ t.ev = s.ev))
      ∧ (1500 ≤ r → r ≤ 12000 → h.type = 1 ∨ h.type = 3 → measured (fun t =>
          (hsGet n t).type = (if 199 ≤ h.fourRun then 2 else h.type)
            ∧ (hsGet n t).typeChange = (h.typeChange || decide (199 ≤ h.fourRun))))
      ∧ (12000 < r → h.type = 2 → measured (fun t =>
          (hsGet n t).type = (if 199 ≤ h.highRun then 3 else 2)
            ∧ (hsGet n t).typeChange = (h.typeChange || decide (199 ≤ h.highRun)))))
    ∧ (h.fadeDue = 1 → exec (.hsButtonFade n) s
        = .next (hsSet n { h with fadeDue := 2, fade := some (s.B * s.grid.block, true) } s))
    ∧ (h.fadeDue = 3 → exec (.hsButtonFade n) s
        = .next (hsSet n { h with fadeDue := 0, fade := some (s.B * s.grid.block, false) } s))
    ∧ (h.outDue = true → exec (.hsOutputResume n) s = .next (hsSet n { h with outOn := true, outDue := false } s))

/-- A power stage: limited cycles, trips and their waits, the clean second, the DC window, its latch and CLEAR, and the
supply of the stages. Choices of the model: assumptions 27, 30, 31. -/
def Obligations.Amplifiers : Prop :=
  (∀ (s : State) (k : Nat), k < 2 →
    let a := ampGet k s
    (∀ previous, ampDrives s k = true →
      let n := if previous then a.limited + 1 else 1
      (n < 4 → ∃ t, exec (.ampCurrentLimit k previous) s = .next t ∧ Counts 0x10100018 k 1 s t
        ∧ ampGet k t = { a with limited := n } ∧ t.ev = s.ev)
      ∧ (4 ≤ n → ∃ t, exec (.ampCurrentLimit k previous) s = .next t ∧ Counts 0x10100018 k 1 s t ∧ Counts 0x1010001C k 1 s t
        ∧ (bit 4 (rget 0x10100008 k s) = true → a.tries < 3 → Rings 0x71 s t
            ∧ ampGet k t = { a with limited := 0, trip := true, off := true, waiting := true })
        ∧ (bit 4 (rget 0x10100008 k s) = false ∨ 3 ≤ a.tries → t.ev.eseq = (s.ev.eseq + 2) % 2 ^ 32
            ∧ t.ev.pend = s.ev.pend ||| (1#256 <<< 0x71) ||| (1#256 <<< 0x72)
            ∧ ampGet k t = { a with
                limited := 0, trip := true, off := true, waiting := false, latched := true, resume := false })))
    ∧ (ampDrives s k = false → ∀ previous, exec (.ampCurrentLimit k previous) s = .next s)
    ∧ (a.waiting = true → exec (.ampRetryWaitEnd k) s = .next (ampSet k { a with resume := true } s))
    ∧ (a.resume = true → s.ana.pvddLow = false → exec (.ampResume k) s = .next (ampSet k { a with
        off := false, resume := false, waiting := false, latched := false, limited := 0
        tries := if a.waiting then min (a.tries + 1) 3 else a.tries } s))
    ∧ (ampDrives s k = true → exec (.ampCleanSecond k) s = .next (ampSet k { a with tries := 0 } s))
    ∧ (∀ mV : Int, (s.img.ampSrc[k]?).isSome →
      (mV.natAbs ≤ 2000 → exec (.ampDcWindow k mV) s = .next (ampSet k { a with dcRun := 0 } s))
      ∧ (2000 < mV.natAbs → a.dcRun = 0 → exec (.ampDcWindow k mV) s = .next (ampSet k { a with dcRun := 1 } s))
      ∧ (2000 < mV.natAbs → 1 ≤ a.dcRun → a.latched = false → ∃ t, exec (.ampDcWindow k mV) s = .next t
        ∧ ampGet k t = { a with
            dcRun := 0, dcFault := true, latched := true, waiting := false, off := true, resume := false }
        ∧ t.ev.eseq = (s.ev.eseq + 2) % 2 ^ 32
        ∧ t.ev.pend = s.ev.pend ||| (1#256 <<< 0x72) ||| (1#256 <<< 0x73))))
  ∧ (∀ (s : State) (m : Nat), m < 5 → Serves m 0x10100010 true s →
    let k := instOf 0x10100010 m s
    exec (.ampClear m) s = .next (if (ampGet k s).latched then
      ampSet k { ampGet k s with tries := 0, resume := true } (answered m s) else answered m s))
  ∧ ∀ s : State,
    exec .pvddLow s = .next { s with ana := { s.ana with pvddLow := true } }
    ∧ (s.ana.pvddLow = false → exec .pvddRecover s = .next s)
    ∧ (s.ana.pvddLow = true → ∃ t, exec .pvddRecover s = .next t ∧ t = { s with ana := t.ana } ∧ t.ana.pvddLow = false
      ∧ ∀ k < 2, ampGet k t = if (ampGet k s).off then ampGet k s else { ampGet k s with off := true, resume := true })

/-! ### Memories (chapters 14 and 16) -/

/-- DRAM channels: refresh with its postponing, ZQ calibration, temperature, parity alerts and the retry buffer; corrected and
poisoned reads, scrubbing, the remap of the low window, and the DRAM windows' words and bursts with their bus errors. Choices of
the model: assumption 79. -/
def Obligations.Memory : Prop :=
  (∀ (s : State) (i : Nat), i < 2 →
    let c := chanGet i s
    (∀ r waiting off, r < 2 → r < s.mem.ranks → c.trained = true → c.dead = false →
      let late := waiting = true ∧ owedOf r c < if c.doubleRate then 4 else 8
      (late → exec (.refreshDue i r waiting off) s = .next (chanSet i (setOwed r (owedOf r c + 1) c) s))
      ∧ (¬late → ∃ t, exec (.refreshDue i r waiting off) s = .next t ∧ t = chanSet i (chanGet i t) s
        ∧ (chanGet i t).retry = lastN 16 (c.retry ++ List.replicate (if waiting then 1 else owedOf r c + 1) 0)
        ∧ owedOf r (chanGet i t) = (if waiting then owedOf r c else 0)
        ∧ (s.grid.running = false → (chanGet i t).points = c.points)
        ∧ (s.grid.running = true → ∀ lane x, off[lane]? = some x →
            sget 0 (r * 16 + lane) (chanGet i t).points
              = sget 0 (r * 16 + lane) c.points + if x > 0 then 1 else if x < 0 then -1 else 0)))
    ∧ (s.grid.running = true → c.trained = true → c.dead = false → s.mem.ranks = 1 ∨ s.mem.ranks = 2 →
      exec (.zqCalibration i) s
        = .next (chanSet i { c with retry := lastN 16 (c.retry ++ List.replicate s.mem.ranks 1) } s))
    ∧ (c.trained = true → c.dead = false → ∀ again,
      let n := if again then c.streak + 1 else 0
      (n < 3 → exec (.parityAlert i again) s = .next (chanSet i { c with alert := true, streak := n } s))
      ∧ (3 ≤ n → ∃ t, exec (.parityAlert i again) s = .next t ∧ Rings 0x7C s t
        ∧ chanGet i t = { c with alert := true, streak := n, dead := true }))
    ∧ (c.alert = true → c.dead = false →
      (∃ t, exec (.alertTimeout i) s = .next t ∧ Rings 0x7C s t ∧ chanGet i t = { c with dead := true })
      ∧ ∃ t, exec (.alertNReturn i) s = .next t ∧ Rings 0x7B s t ∧ Counts 0x10120044 0 1 s t
        ∧ chanGet i t = { c with alert := false }))
  ∧ (∀ (s : State) (low : Bool),
    let doubles := fun (t : State) (on : Bool) => ∀ i < 2, (chanGet i t).doubleRate = on
      ∧ (on = true → (chanGet i s).doubleRate = false → (chanGet i t).owed0 = 0 ∧ (chanGet i t).owed1 = 0)
    (∃ t, exec (.dramHotChange low) s = .next t ∧ t = { s with mem := t.mem } ∧ t.mem.hotLow = low
      ∧ (s.mem.tempI2c = true → t.mem.ch0 = s.mem.ch0 ∧ t.mem.ch1 = s.mem.ch1)
      ∧ (s.mem.tempI2c = false → doubles t low))
    ∧ (s.mem.tempI2c = true →
      (∀ x : Int, ∃ t, exec (.dramTempRead (some x)) s = .next t ∧ t = { s with mem := t.mem } ∧ t.mem.temp = x
        ∧ t.mem.tempFails = 0 ∧ (340 < x → doubles t true) ∧ (x ≤ 332 → doubles t false)
        ∧ (332 < x → x ≤ 340 → t.mem.ch0 = s.mem.ch0 ∧ t.mem.ch1 = s.mem.ch1))
      ∧ (s.mem.tempFails < 2 → exec (.dramTempRead none) s
          = .next { s with mem := { s.mem with tempFails := s.mem.tempFails + 1 } })
      ∧ (s.mem.tempFails = 2 → ∃ t, exec (.dramTempRead none) s = .next t ∧ Rings 0x7A s t ∧ doubles t true
          ∧ t.mem.tempFails = 3)))
  ∧ (∀ (s : State) (addr port safe : Nat), port < 8 →
    let now := max s.clk.safe safe
    let queued := fun (t : State) => t.mem.writeBack.head? = some (addr / 8)
    let read := fun a b => exec (.dramReadComplete addr port a b safe) s
    (isPoisoned s addr = false →
      (∀ b, read 0 b = .next (noteCommand addr 2 { s with clk := { s.clk with safe := now } }))
      ∧ (∀ a b, (a = 1 ∨ a = 2 ∧ b = 0) → ∃ t, read a b = .next t ∧ Counts 0x10120030 0 1 s t ∧ queued t)
      ∧ (∃ t, read 2 1 = .next t ∧ Counts 0x10120030 0 2 s t ∧ queued t))
    ∧ (s.mem.poisonTimes.length < 16 → ∀ a b, isPoisoned s addr = true ∨ a = 2 ∧ b = 2 → ∃ t, read a b = .next t
      ∧ Counts 0x10120034 0 1 s t ∧ t.ev.pend.getLsbD 0x7D = true ∧ t.grid.memPoison = true
      ∧ t.mem.eccAddr = addr / 8 * 8 ∧ t.mem.eccInfo = port + channelOf addr * 8 + 2 ^ 31
      ∧ isPoisoned t addr = true ∧ t.mem.dram = s.mem.dram)
    ∧ (∃ t, exec (.eccWriteBack addr) s = .next t ∧ t.mem.writeBack = s.mem.writeBack.filter (· ≠ addr / 8)
      ∧ { t with mem := { t.mem with writeBack := s.mem.writeBack } } = noteCommand addr 3 s)
    ∧ ∀ code, let c := chanGet (channelOf addr) s
      (c.trained = true ∧ c.dead = false →
        noteCommand addr code s = chanSet (channelOf addr) { c with retry := lastN 16 (c.retry ++ [code]) } s)
      ∧ (c.trained = false ∨ c.dead = true → noteCommand addr code s = s))
  ∧ (∀ (s : State) (array word a b safe : Nat) (last : Bool),
    let now := max s.clk.safe safe
    let passes := s.mem.sramPasses + if last then 1 else 0
    (a = 0 → exec (.scrubRead array word a b last safe) s
      = .next { s with clk := { s.clk with safe := now }, mem := { s.mem with sramPasses := passes } })
    ∧ (a = 1 ∨ a = 2 ∧ b ≠ 2 → exec (.scrubRead array word a b last safe) s = .next { count 0x10120048 0 1 s with
        clk := { s.clk with safe := now }, mem := { s.mem with sramPasses := passes } })
    ∧ (a = 2 → b = 2 → s.mem.poisonTimes.length < 16 → ∃ t, exec (.scrubRead array word a b last safe) s = .next t
      ∧ Counts 0x1012004C 0 1 s t ∧ t.ev.pend.getLsbD 0x7E = true ∧ t.grid.memPoison = true
      ∧ t.mem.sramInfo = array % 256 + word % 2 ^ 22 * 256 + 2 ^ 31 ∧ t.mem.sramPasses = passes))
  ∧ (∀ (s : State) (safe : Nat), s.mem.ch0.trained = true → s.mem.ch1.trained = true →
    let line := s.mem.scrubLine
    let done := channelBytes s ≤ 64 * (line + 1)
    let moved := fun (t : State) => t.mem.scrubLine = (if done then 0 else line + 1)
      ∧ t.mem.dramPasses = s.mem.dramPasses + if done then 1 else 0
    (∃ t, exec (.dramScrubRead [] safe) s = .next t ∧ moved t
      ∧ t = { s with clk := { s.clk with safe := max s.clk.safe safe }, mem := t.mem } ∧ t.mem.dram = s.mem.dram)
    ∧ ∀ e < 16,
      let at_ := (64 * line + 8 * (e % 8)) / 256 * 512 + e / 8 * 256 + (64 * line + 8 * (e % 8)) % 256
      isPoisoned s at_ = false → ∃ t, exec (.dramScrubRead [(e, 1, 0)] safe) s = .next t ∧ moved t
        ∧ Counts 0x10120030 0 1 s t ∧ t.mem.writeBack.head? = some (at_ / 8))
  ∧ ∀ (s : State) (m : Nat), m < 5 →
    (∀ v : Word, Serves m 0x10000300 true s → exec (.remapWrite m v) s
      = .next (if m = 0 then rset 0x10000300 0 (v.toNat % 2) (answered m s) else answered m s))
    ∧ ∀ (x : BitVec 31) (n : Nat) (vs : List Word),
      let at_ := 0x80000000 + x.toNat
      let a := windowBase m s + x.toNat
      let whole := 1 ≤ n ∧ n ≤ 16 ∧ (2 ≤ n → at_ / 64 = (at_ + 4 * n - 1) / 64) ∧ a + 4 * n ≤ dramBytes s
        ∧ ∀ i < n, isPoisoned s (a + 4 * i) = false
      (Serves m at_ false s → whole → ∃ t, exec (.dramWindowAccess m x false ⟨4, n, []⟩) s = .next t
        ∧ t = { s with bus := t.bus } ∧ SameRegs t.bus s.bus ∧ sget 0 m t.bus.rerr = 0
        ∧ sget [] m t.bus.burst = (List.range n).map (fun i => dramWord s (a + 4 * i)))
      ∧ (Serves m at_ true s → whole → vs.length = n → a % 4 = 0 →
        (m = 2 → s.mem.hostBase ≤ a ∧ a + 4 * n ≤ s.mem.hostBase + s.mem.hostLen) →
        (∀ j < 4 * n, dramReserved s (a + j) = false) →
        ∃ t, exec (.dramWindowAccess m x true ⟨4, n, vs⟩) s = .next t ∧ t = { s with bus := t.bus, mem := t.mem }
          ∧ SameRegs t.bus s.bus ∧ sget 0 m t.bus.rerr = 0
          ∧ ∀ b, dramByte t b = if a ≤ b ∧ b < a + 4 * n then
              (nth 0 vs ((b - a) / 4)).toNat / 256 ^ ((b - a) % 4) % 256 else dramByte s b)
      ∧ (∀ write bytes v,
        let stops := fun (k : Nat) (ws : List Word) =>
          ∃ t, exec (.dramWindowAccess m x write ⟨bytes, k, ws⟩) s = .next t ∧ t.mem = s.mem
            ∧ sget 0 m t.bus.rerr = 1 ∧ Counts 0x1000030C 0 1 s t ∧ Rings 0x7F s t
        (masterActive m s = true → formOk at_ bytes (if write then vs.length else n) s = false → stops n vs)
        ∧ (Serves m at_ write s → bytes = 4 →
          dramBytes s < a + 4 ∨ m = 2 ∧ write = true ∧ ¬(s.mem.hostBase ≤ a ∧ a + 4 ≤ s.mem.hostBase + s.mem.hostLen) →
          stops 1 [v]))

/-- The NVM controller: what a command needs, what an operation leaves in the flash when it ends, the data port, and fault-
log entries within their rate. Choices of the model: assumptions 5, 45. -/
def Obligations.NvmOperations : Prop :=
  (∀ (s : State) (m : Nat) (page : BitVec 20), m < 5 → Serves m 0x10130048 true s →
    let a := page.toNat * 256
    let may := s.nvm.op = 0 ∧ (a < ringBase s ∨ ringBase s + 65536 ≤ a) ∧ a < flashSize s ∧ (m = 0 ∨ m = 2)
    (¬may → ∀ row ∈ [Instr.nvmErase, .nvmProgram, .nvmCheck],
      exec (row m page) s = .next { answered m s with nvm := { s.nvm with refused := true } })
    ∧ (may →
      exec (.nvmErase m page) s
        = .next { answered m s with nvm := { s.nvm with op := 1, opAddr := a, refused := false, fail := false } }
      ∧ exec (.nvmProgram m page) s
        = .next { answered m s with nvm := { s.nvm with op := 2, opAddr := a, refused := false, fail := false } }
      ∧ exec (.nvmCheck m page) s = .next { answered m s with nvm := { s.nvm with
          op := 3, opAddr := a, refused := false, fail := false, checkDone := false, checkPass := false } }))
  ∧ (∀ s : State,
    let a := s.nvm.opAddr
    let byte := fun (x : Nat) (t : State) => sget 0xFF x t.nvm.flash
    (s.nvm.op = 0 → ∀ fail, exec (.nvmOpDone fail) s = .next s)
    ∧ (s.nvm.op = 1 → ∃ t, exec (.nvmOpDone false) s = .next t
      ∧ t = { s with nvm := { s.nvm with op := 0, fail := false, flash := t.nvm.flash } }
      ∧ ∀ x, byte x t = if a / 4096 * 4096 ≤ x ∧ x < a / 4096 * 4096 + 4096 then 0xFF else byte x s)
    ∧ (s.nvm.op = 2 → Memory.wf 0xFF s.nvm.flash = true → ∃ t, exec (.nvmOpDone false) s = .next t
      ∧ t = { s with nvm := { s.nvm with op := 0, fail := false, flash := t.nvm.flash } }
      ∧ ∀ x, byte x t = if a ≤ x ∧ x < a + 256 then
          byte x s &&& BitVec.ofNat 8 (sget 0 ((x - a) / 4) s.nvm.page / 256 ^ ((x - a) % 4)) else byte x s)
    ∧ (s.nvm.op = 1 ∨ s.nvm.op = 2 → ∃ t, exec (.nvmOpDone true) s = .next t ∧ t.nvm.op = 0 ∧ t.nvm.fail = true
      ∧ ∀ x, (if s.nvm.op = 1 then x < a / 4096 * 4096 ∨ a / 4096 * 4096 + 4096 ≤ x else x < a ∨ a + 256 ≤ x) →
          byte x t = byte x s)
    ∧ (s.nvm.op = 3 → ∀ fail, exec (.nvmOpDone fail) s = .next { s with nvm := { s.nvm with
        op := 0, fail := fail, checkDone := true, checkPass := copyCheck a s } }))
  ∧ (∀ (s : State) (m : Nat), m < 5 →
    let a := s.nvm.addr
    (∀ v : Word, Serves m 0x10130044 true s → exec (.nvmDataWrite m v) s = .next { answered m s with nvm := { s.nvm with
      page := sset 0 (a / 4 % 64) v.toNat s.nvm.page, addr := (a + 4) % 2 ^ 28 } })
    ∧ (Serves m 0x10130044 false s →
      let header := fun copyB => copyPresent copyB s = true ∧ copyBase copyB ≤ a ∧ a < copyBase copyB + 256
      let ring := ringBase s ≤ a ∧ a < ringBase s + 65536
      ∃ t, exec (.nvmDataRead m) s = .next t
        ∧ t = { s with bus := t.bus, nvm := { s.nvm with addr := (a + 4) % 2 ^ 28 } } ∧ SameRegs t.bus s.bus
        ∧ (a < flashSize s → m ≠ 2 ∨ header false ∨ header true ∨ ring →
            sget 0 m t.bus.rdata = le (flashBytes a 4 s))
        ∧ (flashSize s ≤ a ∨ (m = 2 ∧ ¬header false ∧ ¬header true ∧ ¬ring) → sget 0 m t.bus.rdata = 0)))
  ∧ ∀ (s : State) (safe kind data : Nat) (rest : List (Nat × Nat)), s.nvm.log2 ≠ 0 → s.ev.logQ = (kind, data) :: rest →
    let now := max s.clk.safe safe
    let recent := s.nvm.flogTimes.filter (fun t => decide (now < t + 32000000))
    let at_ := s.nvm.flogHead
    let body := leBytes 4 (s.nvm.flogSeq + 1) ++ leBytes 8 (if s.clk.audio then s.grid.block else 0)
      ++ leBytes 4 ((now - s.clk.resetAt) / 32000) ++ leBytes 2 kind ++ [0, 0] ++ leBytes 8 data
    let entry := body ++ leBytes 4 (crc32 body)
    (4 ≤ recent.length → ∃ t, exec (.faultLogWrite safe) s = .next t ∧ t.ev.logQ = rest ∧ Counts 0x10130058 0 1 s t
      ∧ t.nvm = { s.nvm with flogTimes := recent, flogDrops := s.nvm.flogDrops + 1 })
    ∧ (recent.length < 4 → s.nvm.flogDrops = 0 → Memory.wf 0xFF s.nvm.flash = true → ∃ t, exec (.faultLogWrite safe) s = .next t ∧ t.ev.logQ = rest
      ∧ t.nvm = { s.nvm with
          flash := t.nvm.flash, flogSeq := s.nvm.flogSeq + 1, flogTimes := recent ++ [now]
          flogHead := if at_ + 32 = ringBase s + 65536 then ringBase s else at_ + 32 }
      ∧ ∀ x, sget 0xFF x t.nvm.flash =
          let old := if at_ % 4096 = 0 ∧ at_ ≤ x ∧ x < at_ + 4096 then 0xFF else sget 0xFF x s.nvm.flash
          if at_ ≤ x ∧ x < at_ + 32 then old &&& BitVec.ofNat 8 (nth 0 entry (x - at_)) else old)

/-! ### Control messages, counters and the contact sheet (chapter 17) -/

/-- Host messages at the front of the input: a malformed, a false, a stale and a repeated one, and each type accepted; frames
of the SPI port. Choices of the model: assumptions 52, 73, 74, 75, 76. -/
def Obligations.HostMessages : Prop :=
  (∀ (s : State) (x : InFrame) (rest : List InFrame), s.tcm.input = x :: rest → s.clk.inReset = false →
    let f := x.bytes
    let gone := { s with tcm := { s.tcm with input := rest } }
    ∀ row ∈ [Instr.tcmRead, .tcmWrite, .tcmStage, .tcmFix, .tcmStopBath, .tcmStart, .snapshotTake, .snapshotRead, .tcmHealth],
      (frameOk f = false → exec row s = .next (count 0x10140024 0 1 gone))
      ∧ (frameOk f = true → typeListed f = false →
        (authOk x s = false → ∃ t, exec row s = .next t ∧ t.tcm.authFail = true ∧ t.tcm.input = rest
          ∧ Counts 0x10140028 0 1 s t)
        ∧ (authOk x s = true → frSession f ≠ s.tcm.session → ∃ t, exec row s = .next t ∧ t.tcm.stale = true
          ∧ t.tcm.input = rest ∧ t.tcm.memo = s.tcm.memo)
        ∧ (authOk x s = true → frSession f = s.tcm.session → ∀ g,
          seqCase (memoOf (frAuth f) (frKey f) s) (frSeq f) = .resend g →
          exec row s = .next (replySend (replyTo x) g gone))))
  ∧ (∀ (s : State) (x : InFrame) (rest : List InFrame),
    let u := accepted x rest s
    let p := frPayload x.bytes
    let r := replyTo x
    let timed := if bit 0 (nth 0 p 4) then some (be (slice 8 8 p)) else none
    (Accepted 1 x rest s → ∀ vs e t, readWords (accessAddrs p) 0 u = (vs, e, t) → t.clk.inReset = false →
      exec .tcmRead s = .next (reply r (if e = none then 0 else 6)
        (beBytes 2 (e.getD 0xFFFF) ++ [0, 0] ++ vs.flatMap (beBytes 4)) t))
    ∧ (Accepted 2 x rest s → ∀ e t, writeWords ((accessAddrs p).zip (accessWords p)) 0 u = (e, t) →
      exec .tcmWrite s = .next (if t.clk.inReset then t
        else reply r (if e = none then 0 else 6) (beBytes 2 (e.getD 0xFFFF) ++ [0, 0]) t))
    ∧ (Accepted 3 x rest s → ∀ n t,
      stageNodes ((List.range (be (slice 0 2 p))).map (fun i => be (slice (8 + 8 * i) 8 p))) u = (n, t) →
      exec .tcmStage s = .next (reply r 0 (beBytes 2 n ++ [0, 0]) t))
    ∧ (Accepted 4 x rest s → exec .tcmFix s = .next (fixRequest (be (slice 0 8 p)) (some r) u))
    ∧ (Accepted 5 x rest s → exec .tcmStopBath s = .next (stopAsk false (be (slice 0 4 p)) timed (some r) u))
    ∧ (Accepted 6 x rest s → exec .tcmStart s = .next (stopAsk true (be (slice 0 4 p)) timed (some r) u))
    ∧ (Accepted 7 x rest s → nth 0 p 0 = 1 →
      (s.sheet.pending = none → exec .snapshotTake s = .next { u with
        sheet := { s.sheet with pending := some ⟨bit 0 (nth 0 p 1), s.grid.block, r, none⟩ } })
      ∧ (s.sheet.pending.isSome → exec .snapshotTake s = .next (reply r 0xA [] u)))
    ∧ (Accepted 7 x rest s → nth 0 p 0 = 2 →
      let o := be (slice 4 4 p)
      let n := be (slice 8 2 p)
      (s.sheet.valid = true → o + n ≤ s.sheet.bytes.length →
        exec .snapshotRead s = .next (reply r 0 (slice o n s.sheet.bytes) u))
      ∧ (s.sheet.valid = false ∨ s.sheet.bytes.length < o + n → exec .snapshotRead s = .next (reply r 0xB [] u)))
    ∧ (Accepted 9 x rest s → exec .tcmHealth s
        = .next (reply r 0 (padTo 64 (healthRecord u) ++ padTo 64 s.twin.peerHealth) u)))
  ∧ ∀ s : State, s.clk.inReset = false →
    (∀ frame,
      let waiting := (s.tcm.input.filter Sys2Proof.Machine.InFrame.spi).length
      (waiting < 16 → exec (.writeFrame frame) s
        = .next { s with tcm := { s.tcm with input := s.tcm.input ++ [⟨true, 0, 0, bytesOf frame⟩] } })
      ∧ (16 ≤ waiting → ∃ t, exec (.writeFrame frame) s = .next t ∧ t.tcm.input = s.tcm.input
        ∧ Counts 0x10140030 0 1 s t))
    ∧ ∀ clocked,
      (s.tcm.spiOut = [] → exec (.readFrame clocked) s
        = .next { s with tcm := { s.tcm with miso := [0, 0].take clocked } })
      ∧ ∀ b f l, s.tcm.spiOut = (b, f) :: l →
        let u := { s with tcm := { s.tcm with spiOut := l, miso := (beBytes 2 f.length ++ f).take clocked } }
        exec (.readFrame clocked) s = .next (if clocked < 2 + f.length then count 0x10140030 0 1 u else u)

/-- A write to EVC.SRC sets the selected counter's source and enable at once, and the counter to 0; a counter with ENABLE 0
holds its value at every occurrence. -/
def Obligations.EventCounterSources : Prop :=
  (∀ (s : State) (m : Nat) (v : Word), m < 5 → Serves m 0x10150004 true s →
    let k := rget 0x10150000 m s
    ∃ t, exec (.evcSrcWrite m v) s = .next t
      ∧ t = { answered m s with evc := { s.evc with src := sset 0 k (v.toNat &&& 0x181FF) s.evc.src, cnt := sset 0 k 0 s.evc.cnt } }
      ∧ sget 0 k t.evc.cnt = 0 ∧ sget 0 k t.evc.src % 512 = v.toNat % 512
      ∧ (bit 15 (sget 0 k t.evc.src) = bit 15 v.toNat)
      ∧ ∀ j, j ≠ k → sget 0 j t.evc.cnt = sget 0 j s.evc.cnt ∧ sget 0 j t.evc.src = sget 0 j s.evc.src)
  ∧ ∀ (s : State) (src n j : Nat), bit 15 (sget 0 j s.evc.src) = false →
      sget 0 j (evcOccur src n s).evc.cnt = sget 0 j s.evc.cnt

/-- The contact sheet's registration and capture, and the event counters' snapshots and clearing. Choices of the model:
assumption 78. -/
def Obligations.SheetsAndCounters : Prop :=
  (∀ (s : State) (r : SheetReq), s.sheet.pending = some r → s.grid.running = true →
    (r.reg = none → r.got < s.grid.block → exec .snapshotRegister s = .next { s with
      sheet := { s.sheet with pending := some { r with reg := some s.grid.block } }
      evc := { s.evc with snapPending := s.evc.snapPending || r.clear } })
    ∧ (r.reg.isSome → ∃ t, exec .sheetCapture s = .next t
      ∧ t.sheet = ⟨true, sheetBytes (blockEnd s), s.grid.block + 1, r.clear, none⟩ ∧ t.grid = s.grid ∧ Rings 0x8D s t
      ∧ (r.reply.spi = false → t.tcm.mgmtOut = s.tcm.mgmtOut ++ [⟨r.reply.addr, r.reply.port, replyFrame r.reply 0
          (beBytes 8 (s.grid.block + 1) ++ beBytes 4 (sheetBytes (blockEnd s)).length ++ [0, 0, 0, 0]) s⟩])))
  ∧ (∀ (s : State) (m : Nat), m < 5 →
    let k := rget 0x10150000 m s
    (Serves m 0x10150018 true s →
      exec (.evcSnap m) s = .next { answered m s with evc := { s.evc with snapPending := true } }
      ∧ exec (.evcClearSel m) s = .next { answered m s with evc := { s.evc with cnt := sset 0 k 0 s.evc.cnt } }))
  ∧ ∀ s : State, s.evc.snapPending = true → s.grid.running = true →
    let e := (blockEnd s).evc
    ∃ t, exec .counterSnapshot s = .next t ∧ t = { s with evc := t.evc } ∧ t.evc.snapPending = false
      ∧ t.evc.snapBlk = s.grid.block + 1 ∧ t.evc.src = s.evc.src
      ∧ ∀ j, sget 0 j t.evc.snap = sget 0 j e.cnt
        ∧ sget 0 j t.evc.cnt = if bit 16 (sget 0 j s.evc.src) then 0 else sget 0 j e.cnt

/-! ### What commands leave alone -/

/-- Frames: beside events and counters, commands of the analog ports change only the analog blocks; of the network only ports
and streams, the domains that move, and the frames in and out of MGMT; of precision time only ports and time; of the serial ports only these,
their lanes, the relays of slips and the guarantee; of refresh, temperature, parity and write-back no byte and no poison; of
the flash only the NVM controller, SAFE time, what is to be logged, and free values. -/
def Obligations.CommandFrames : Prop :=
  ∀ s t : State,
    (∀ (k n : Nat) (b : Bool) (v : Int), ∀ c ∈ [Instr.complianceCheck k b n v, .complianceMuteEnd k, .micMeasure k n,
        .hsDetChange k b, .hsInsertConfirm k, .hsRemoveConfirm k, .hsClassifyEnd k, .hsButtonFade k, .hsOutputResume k,
        .ampCurrentLimit k b, .ampRetryWaitEnd k, .ampResume k, .ampCleanSecond k, .ampDcWindow k v, .pvddLow, .pvddRecover],
      exec c s = .next t → Heard { s with ana := t.ana } t)
    ∧ (∀ (p off ts : Nat) (f : List Byte) (a b d : Bool), ∀ c ∈ [Instr.frameReceive p f a b off ts, .netLinkChange p a ⟨b, d⟩,
        .txPacketSend p, .lpiEnter, .lpiWake, .lldpFrame f],
      exec c s = .next t → Heard { s with
        net := t.net
        time := { s.time with dom0 := t.time.dom0, dom1 := t.time.dom1, gmChange := t.time.gmChange }
        tcm := { s.tcm with input := t.tcm.input, mgmtOut := t.tcm.mgmtOut } } t)
    ∧ (∀ k n : Nat, ∀ c ∈ [Instr.ptpAnnounce k, .ptpSync k, .ptpFollowUp k, .ptpDelayReq k, .ptpDelayResp k, .syncSend k n,
        .announceSend k, .delayReqSend k n, .announceTimeout k, .syncTimeout k, .epochHalfEnter n, .ppsEdge n, .ppsTimeout],
      exec c s = .next t → Heard { s with net := { s.net with port := t.net.port }, time := t.time } t)
    ∧ (∀ (g n : Nat) (x : Int) (l : List Nat), ∀ c ∈ [Instr.serialFrame g x n l, .frameAbsentTimeout g, .rateWindowEnd g,
        .sapAlign g x],
      exec c s = .next t → Heard { s with
        sap := t.sap, smp := { s.smp with lane := t.smp.lane, wait := t.smp.wait }
        grid := { s.grid with sapSubst := t.grid.sapSubst, met := t.grid.met, lapse := t.grid.lapse }
        twin := { s.twin with serial := t.twin.serial, txq := t.twin.txq, txSeq := t.twin.txSeq } } t)
    ∧ (∀ (k n : Nat) (b : Bool) (l : List Int) (r : Option Int), ∀ c ∈ [Instr.refreshDue k n b l, .zqCalibration k,
        .dramHotChange b, .dramTempRead r, .parityAlert k b, .alertTimeout k, .alertNReturn k, .eccWriteBack n],
      exec c s = .next t → Heard { s with
        mem := { t.mem with
          dram := s.mem.dram, sram := s.mem.sram, fab := s.mem.fab, poison := s.mem.poison
          fabPoison := s.mem.fabPoison } } t)
    ∧ ∀ (n : Nat) (b : Bool), ∀ c ∈ [Instr.nvmOpDone b, .faultLogWrite n],
      exec c s = .next t → t = { s with
        nvm := t.nvm, clk := { s.clk with safe := t.clk.safe }, ev := { s.ev with logQ := t.ev.logQ }, free := t.free
        bus := { s.bus with ctr := t.bus.ctr, total := t.bus.total } }
end

