-- ==== Sys2Proof/Laws/State.lean ====
section
/-!
SUPPORT. What each shared update leaves alone, one lemma per field, and what registers and counters read after it.
-/
namespace Sys2Proof.Machine

/-! ### A register set -/

@[simp] theorem rset_grid (addr inst v s) : (rset addr inst v s).grid = s.grid := rfl
@[simp] theorem rset_ev (addr inst v s) : (rset addr inst v s).ev = s.ev := rfl
@[simp] theorem rset_evc (addr inst v s) : (rset addr inst v s).evc = s.evc := rfl
@[simp] theorem rset_tcm (addr inst v s) : (rset addr inst v s).tcm = s.tcm := rfl
@[simp] theorem rset_sheet (addr inst v s) : (rset addr inst v s).sheet = s.sheet := rfl
@[simp] theorem rset_img (addr inst v s) : (rset addr inst v s).img = s.img := rfl
@[simp] theorem rset_obj (addr inst v s) : (rset addr inst v s).obj = s.obj := rfl
@[simp] theorem rset_mx (addr inst v s) : (rset addr inst v s).mx = s.mx := rfl
@[simp] theorem rset_chain (addr inst v s) : (rset addr inst v s).chain = s.chain := rfl
@[simp] theorem rset_conv (addr inst v s) : (rset addr inst v s).conv = s.conv := rfl
@[simp] theorem rset_slot (addr inst v s) : (rset addr inst v s).slot = s.slot := rfl
@[simp] theorem rset_tg (addr inst v s) : (rset addr inst v s).tg = s.tg := rfl
@[simp] theorem rset_cap (addr inst v s) : (rset addr inst v s).cap = s.cap := rfl
@[simp] theorem rset_deconv (addr inst v s) : (rset addr inst v s).deconv = s.deconv := rfl
@[simp] theorem rset_smp (addr inst v s) : (rset addr inst v s).smp = s.smp := rfl
@[simp] theorem rset_sched (addr inst v s) : (rset addr inst v s).sched = s.sched := rfl
@[simp] theorem rset_ec (addr inst v s) : (rset addr inst v s).ec = s.ec := rfl
@[simp] theorem rset_mem (addr inst v s) : (rset addr inst v s).mem = s.mem := rfl
@[simp] theorem rset_twin (addr inst v s) : (rset addr inst v s).twin = s.twin := rfl
@[simp] theorem rset_ana (addr inst v s) : (rset addr inst v s).ana = s.ana := rfl
@[simp] theorem rset_sap (addr inst v s) : (rset addr inst v s).sap = s.sap := rfl
@[simp] theorem rset_net (addr inst v s) : (rset addr inst v s).net = s.net := rfl
@[simp] theorem rset_time (addr inst v s) : (rset addr inst v s).time = s.time := rfl
@[simp] theorem rset_clk (addr inst v s) : (rset addr inst v s).clk = s.clk := rfl
@[simp] theorem rset_nvm (addr inst v s) : (rset addr inst v s).nvm = s.nvm := rfl
@[simp] theorem rset_free (addr inst v s) : (rset addr inst v s).free = s.free := rfl
@[simp] theorem rset_pending (addr inst v s) : (rset addr inst v s).pending = s.pending := rfl

/-! ### A counter set -/

@[simp] theorem cset_grid (addr inst v s) : (cset addr inst v s).grid = s.grid := rfl
@[simp] theorem cset_ev (addr inst v s) : (cset addr inst v s).ev = s.ev := rfl
@[simp] theorem cset_evc (addr inst v s) : (cset addr inst v s).evc = s.evc := rfl
@[simp] theorem cset_tcm (addr inst v s) : (cset addr inst v s).tcm = s.tcm := rfl
@[simp] theorem cset_sheet (addr inst v s) : (cset addr inst v s).sheet = s.sheet := rfl
@[simp] theorem cset_img (addr inst v s) : (cset addr inst v s).img = s.img := rfl
@[simp] theorem cset_obj (addr inst v s) : (cset addr inst v s).obj = s.obj := rfl
@[simp] theorem cset_mx (addr inst v s) : (cset addr inst v s).mx = s.mx := rfl
@[simp] theorem cset_chain (addr inst v s) : (cset addr inst v s).chain = s.chain := rfl
@[simp] theorem cset_conv (addr inst v s) : (cset addr inst v s).conv = s.conv := rfl
@[simp] theorem cset_slot (addr inst v s) : (cset addr inst v s).slot = s.slot := rfl
@[simp] theorem cset_tg (addr inst v s) : (cset addr inst v s).tg = s.tg := rfl
@[simp] theorem cset_cap (addr inst v s) : (cset addr inst v s).cap = s.cap := rfl
@[simp] theorem cset_deconv (addr inst v s) : (cset addr inst v s).deconv = s.deconv := rfl
@[simp] theorem cset_smp (addr inst v s) : (cset addr inst v s).smp = s.smp := rfl
@[simp] theorem cset_sched (addr inst v s) : (cset addr inst v s).sched = s.sched := rfl
@[simp] theorem cset_ec (addr inst v s) : (cset addr inst v s).ec = s.ec := rfl
@[simp] theorem cset_mem (addr inst v s) : (cset addr inst v s).mem = s.mem := rfl
@[simp] theorem cset_twin (addr inst v s) : (cset addr inst v s).twin = s.twin := rfl
@[simp] theorem cset_ana (addr inst v s) : (cset addr inst v s).ana = s.ana := rfl
@[simp] theorem cset_sap (addr inst v s) : (cset addr inst v s).sap = s.sap := rfl
@[simp] theorem cset_net (addr inst v s) : (cset addr inst v s).net = s.net := rfl
@[simp] theorem cset_time (addr inst v s) : (cset addr inst v s).time = s.time := rfl
@[simp] theorem cset_clk (addr inst v s) : (cset addr inst v s).clk = s.clk := rfl
@[simp] theorem cset_nvm (addr inst v s) : (cset addr inst v s).nvm = s.nvm := rfl
@[simp] theorem cset_free (addr inst v s) : (cset addr inst v s).free = s.free := rfl
@[simp] theorem cset_pending (addr inst v s) : (cset addr inst v s).pending = s.pending := rfl

/-! ### A counter advanced -/

@[simp] theorem count_grid (addr inst n s) : (count addr inst n s).grid = s.grid := rfl
@[simp] theorem count_ev (addr inst n s) : (count addr inst n s).ev = s.ev := rfl
@[simp] theorem count_evc (addr inst n s) : (count addr inst n s).evc = s.evc := rfl
@[simp] theorem count_tcm (addr inst n s) : (count addr inst n s).tcm = s.tcm := rfl
@[simp] theorem count_sheet (addr inst n s) : (count addr inst n s).sheet = s.sheet := rfl
@[simp] theorem count_img (addr inst n s) : (count addr inst n s).img = s.img := rfl
@[simp] theorem count_obj (addr inst n s) : (count addr inst n s).obj = s.obj := rfl
@[simp] theorem count_mx (addr inst n s) : (count addr inst n s).mx = s.mx := rfl
@[simp] theorem count_chain (addr inst n s) : (count addr inst n s).chain = s.chain := rfl
@[simp] theorem count_conv (addr inst n s) : (count addr inst n s).conv = s.conv := rfl
@[simp] theorem count_slot (addr inst n s) : (count addr inst n s).slot = s.slot := rfl
@[simp] theorem count_tg (addr inst n s) : (count addr inst n s).tg = s.tg := rfl
@[simp] theorem count_cap (addr inst n s) : (count addr inst n s).cap = s.cap := rfl
@[simp] theorem count_deconv (addr inst n s) : (count addr inst n s).deconv = s.deconv := rfl
@[simp] theorem count_smp (addr inst n s) : (count addr inst n s).smp = s.smp := rfl
@[simp] theorem count_sched (addr inst n s) : (count addr inst n s).sched = s.sched := rfl
@[simp] theorem count_ec (addr inst n s) : (count addr inst n s).ec = s.ec := rfl
@[simp] theorem count_mem (addr inst n s) : (count addr inst n s).mem = s.mem := rfl
@[simp] theorem count_twin (addr inst n s) : (count addr inst n s).twin = s.twin := rfl
@[simp] theorem count_ana (addr inst n s) : (count addr inst n s).ana = s.ana := rfl
@[simp] theorem count_sap (addr inst n s) : (count addr inst n s).sap = s.sap := rfl
@[simp] theorem count_net (addr inst n s) : (count addr inst n s).net = s.net := rfl
@[simp] theorem count_time (addr inst n s) : (count addr inst n s).time = s.time := rfl
@[simp] theorem count_clk (addr inst n s) : (count addr inst n s).clk = s.clk := rfl
@[simp] theorem count_nvm (addr inst n s) : (count addr inst n s).nvm = s.nvm := rfl
@[simp] theorem count_free (addr inst n s) : (count addr inst n s).free = s.free := rfl
@[simp] theorem count_pending (addr inst n s) : (count addr inst n s).pending = s.pending := rfl

/-! ### SAFE time taken over -/

@[simp] theorem setSafe_grid (n s) : (setSafe n s).grid = s.grid := rfl
@[simp] theorem setSafe_ev (n s) : (setSafe n s).ev = s.ev := rfl
@[simp] theorem setSafe_evc (n s) : (setSafe n s).evc = s.evc := rfl
@[simp] theorem setSafe_tcm (n s) : (setSafe n s).tcm = s.tcm := rfl
@[simp] theorem setSafe_sheet (n s) : (setSafe n s).sheet = s.sheet := rfl
@[simp] theorem setSafe_bus (n s) : (setSafe n s).bus = s.bus := rfl
@[simp] theorem setSafe_img (n s) : (setSafe n s).img = s.img := rfl
@[simp] theorem setSafe_obj (n s) : (setSafe n s).obj = s.obj := rfl
@[simp] theorem setSafe_mx (n s) : (setSafe n s).mx = s.mx := rfl
@[simp] theorem setSafe_chain (n s) : (setSafe n s).chain = s.chain := rfl
@[simp] theorem setSafe_conv (n s) : (setSafe n s).conv = s.conv := rfl
@[simp] theorem setSafe_slot (n s) : (setSafe n s).slot = s.slot := rfl
@[simp] theorem setSafe_tg (n s) : (setSafe n s).tg = s.tg := rfl
@[simp] theorem setSafe_cap (n s) : (setSafe n s).cap = s.cap := rfl
@[simp] theorem setSafe_deconv (n s) : (setSafe n s).deconv = s.deconv := rfl
@[simp] theorem setSafe_smp (n s) : (setSafe n s).smp = s.smp := rfl
@[simp] theorem setSafe_sched (n s) : (setSafe n s).sched = s.sched := rfl
@[simp] theorem setSafe_ec (n s) : (setSafe n s).ec = s.ec := rfl
@[simp] theorem setSafe_mem (n s) : (setSafe n s).mem = s.mem := rfl
@[simp] theorem setSafe_twin (n s) : (setSafe n s).twin = s.twin := rfl
@[simp] theorem setSafe_ana (n s) : (setSafe n s).ana = s.ana := rfl
@[simp] theorem setSafe_sap (n s) : (setSafe n s).sap = s.sap := rfl
@[simp] theorem setSafe_net (n s) : (setSafe n s).net = s.net := rfl
@[simp] theorem setSafe_time (n s) : (setSafe n s).time = s.time := rfl
@[simp] theorem setSafe_nvm (n s) : (setSafe n s).nvm = s.nvm := rfl
@[simp] theorem setSafe_free (n s) : (setSafe n s).free = s.free := rfl
@[simp] theorem setSafe_pending (n s) : (setSafe n s).pending = s.pending := rfl

/-! ### An occurrence of a counter source -/

@[simp] theorem evcOccur_grid (src n s) : (evcOccur src n s).grid = s.grid := rfl
@[simp] theorem evcOccur_ev (src n s) : (evcOccur src n s).ev = s.ev := rfl
@[simp] theorem evcOccur_tcm (src n s) : (evcOccur src n s).tcm = s.tcm := rfl
@[simp] theorem evcOccur_sheet (src n s) : (evcOccur src n s).sheet = s.sheet := rfl
@[simp] theorem evcOccur_bus (src n s) : (evcOccur src n s).bus = s.bus := rfl
@[simp] theorem evcOccur_img (src n s) : (evcOccur src n s).img = s.img := rfl
@[simp] theorem evcOccur_obj (src n s) : (evcOccur src n s).obj = s.obj := rfl
@[simp] theorem evcOccur_mx (src n s) : (evcOccur src n s).mx = s.mx := rfl
@[simp] theorem evcOccur_chain (src n s) : (evcOccur src n s).chain = s.chain := rfl
@[simp] theorem evcOccur_conv (src n s) : (evcOccur src n s).conv = s.conv := rfl
@[simp] theorem evcOccur_slot (src n s) : (evcOccur src n s).slot = s.slot := rfl
@[simp] theorem evcOccur_tg (src n s) : (evcOccur src n s).tg = s.tg := rfl
@[simp] theorem evcOccur_cap (src n s) : (evcOccur src n s).cap = s.cap := rfl
@[simp] theorem evcOccur_deconv (src n s) : (evcOccur src n s).deconv = s.deconv := rfl
@[simp] theorem evcOccur_smp (src n s) : (evcOccur src n s).smp = s.smp := rfl
@[simp] theorem evcOccur_sched (src n s) : (evcOccur src n s).sched = s.sched := rfl
@[simp] theorem evcOccur_ec (src n s) : (evcOccur src n s).ec = s.ec := rfl
@[simp] theorem evcOccur_mem (src n s) : (evcOccur src n s).mem = s.mem := rfl
@[simp] theorem evcOccur_twin (src n s) : (evcOccur src n s).twin = s.twin := rfl
@[simp] theorem evcOccur_ana (src n s) : (evcOccur src n s).ana = s.ana := rfl
@[simp] theorem evcOccur_sap (src n s) : (evcOccur src n s).sap = s.sap := rfl
@[simp] theorem evcOccur_net (src n s) : (evcOccur src n s).net = s.net := rfl
@[simp] theorem evcOccur_time (src n s) : (evcOccur src n s).time = s.time := rfl
@[simp] theorem evcOccur_clk (src n s) : (evcOccur src n s).clk = s.clk := rfl
@[simp] theorem evcOccur_nvm (src n s) : (evcOccur src n s).nvm = s.nvm := rfl
@[simp] theorem evcOccur_free (src n s) : (evcOccur src n s).free = s.free := rfl
@[simp] theorem evcOccur_pending (src n s) : (evcOccur src n s).pending = s.pending := rfl

/-! ### An event raised -/

@[simp] theorem raiseAt_grid (tick code arg s) : (raiseAt tick code arg s).grid = s.grid := by
  simp only [raiseAt, evcOccur_grid]
  split <;> rfl
@[simp] theorem raiseAt_sheet (tick code arg s) : (raiseAt tick code arg s).sheet = s.sheet := by
  simp only [raiseAt, evcOccur_sheet]
  split <;> rfl
@[simp] theorem raiseAt_img (tick code arg s) : (raiseAt tick code arg s).img = s.img := by
  simp only [raiseAt, evcOccur_img]
  split <;> rfl
@[simp] theorem raiseAt_obj (tick code arg s) : (raiseAt tick code arg s).obj = s.obj := by
  simp only [raiseAt, evcOccur_obj]
  split <;> rfl
@[simp] theorem raiseAt_mx (tick code arg s) : (raiseAt tick code arg s).mx = s.mx := by
  simp only [raiseAt, evcOccur_mx]
  split <;> rfl
@[simp] theorem raiseAt_chain (tick code arg s) : (raiseAt tick code arg s).chain = s.chain := by
  simp only [raiseAt, evcOccur_chain]
  split <;> rfl
@[simp] theorem raiseAt_conv (tick code arg s) : (raiseAt tick code arg s).conv = s.conv := by
  simp only [raiseAt, evcOccur_conv]
  split <;> rfl
@[simp] theorem raiseAt_slot (tick code arg s) : (raiseAt tick code arg s).slot = s.slot := by
  simp only [raiseAt, evcOccur_slot]
  split <;> rfl
@[simp] theorem raiseAt_tg (tick code arg s) : (raiseAt tick code arg s).tg = s.tg := by
  simp only [raiseAt, evcOccur_tg]
  split <;> rfl
@[simp] theorem raiseAt_cap (tick code arg s) : (raiseAt tick code arg s).cap = s.cap := by
  simp only [raiseAt, evcOccur_cap]
  split <;> rfl
@[simp] theorem raiseAt_deconv (tick code arg s) : (raiseAt tick code arg s).deconv = s.deconv := by
  simp only [raiseAt, evcOccur_deconv]
  split <;> rfl
@[simp] theorem raiseAt_smp (tick code arg s) : (raiseAt tick code arg s).smp = s.smp := by
  simp only [raiseAt, evcOccur_smp]
  split <;> rfl
@[simp] theorem raiseAt_sched (tick code arg s) : (raiseAt tick code arg s).sched = s.sched := by
  simp only [raiseAt, evcOccur_sched]
  split <;> rfl
@[simp] theorem raiseAt_ec (tick code arg s) : (raiseAt tick code arg s).ec = s.ec := by
  simp only [raiseAt, evcOccur_ec]
  split <;> rfl
@[simp] theorem raiseAt_mem (tick code arg s) : (raiseAt tick code arg s).mem = s.mem := by
  simp only [raiseAt, evcOccur_mem]
  split <;> rfl
@[simp] theorem raiseAt_twin (tick code arg s) : (raiseAt tick code arg s).twin = s.twin := by
  simp only [raiseAt, evcOccur_twin]
  split <;> rfl
@[simp] theorem raiseAt_ana (tick code arg s) : (raiseAt tick code arg s).ana = s.ana := by
  simp only [raiseAt, evcOccur_ana]
  split <;> rfl
@[simp] theorem raiseAt_sap (tick code arg s) : (raiseAt tick code arg s).sap = s.sap := by
  simp only [raiseAt, evcOccur_sap]
  split <;> rfl
@[simp] theorem raiseAt_net (tick code arg s) : (raiseAt tick code arg s).net = s.net := by
  simp only [raiseAt, evcOccur_net]
  split <;> rfl
@[simp] theorem raiseAt_time (tick code arg s) : (raiseAt tick code arg s).time = s.time := by
  simp only [raiseAt, evcOccur_time]
  split <;> rfl
@[simp] theorem raiseAt_clk (tick code arg s) : (raiseAt tick code arg s).clk = s.clk := by
  simp only [raiseAt, evcOccur_clk]
  split <;> rfl
@[simp] theorem raiseAt_nvm (tick code arg s) : (raiseAt tick code arg s).nvm = s.nvm := by
  simp only [raiseAt, evcOccur_nvm]
  split <;> rfl
@[simp] theorem raiseAt_free (tick code arg s) : (raiseAt tick code arg s).free = s.free := by
  simp only [raiseAt, evcOccur_free]
  split <;> rfl
@[simp] theorem raiseAt_pending (tick code arg s) : (raiseAt tick code arg s).pending = s.pending := by
  simp only [raiseAt, evcOccur_pending]
  split <;> rfl

/-! ### An event raised inside a block -/

@[simp] theorem raise_grid (code arg s) : (raise code arg s).grid = s.grid := raiseAt_grid ..
@[simp] theorem raise_sheet (code arg s) : (raise code arg s).sheet = s.sheet := raiseAt_sheet ..
@[simp] theorem raise_img (code arg s) : (raise code arg s).img = s.img := raiseAt_img ..
@[simp] theorem raise_obj (code arg s) : (raise code arg s).obj = s.obj := raiseAt_obj ..
@[simp] theorem raise_mx (code arg s) : (raise code arg s).mx = s.mx := raiseAt_mx ..
@[simp] theorem raise_chain (code arg s) : (raise code arg s).chain = s.chain := raiseAt_chain ..
@[simp] theorem raise_conv (code arg s) : (raise code arg s).conv = s.conv := raiseAt_conv ..
@[simp] theorem raise_slot (code arg s) : (raise code arg s).slot = s.slot := raiseAt_slot ..
@[simp] theorem raise_tg (code arg s) : (raise code arg s).tg = s.tg := raiseAt_tg ..
@[simp] theorem raise_cap (code arg s) : (raise code arg s).cap = s.cap := raiseAt_cap ..
@[simp] theorem raise_deconv (code arg s) : (raise code arg s).deconv = s.deconv := raiseAt_deconv ..
@[simp] theorem raise_smp (code arg s) : (raise code arg s).smp = s.smp := raiseAt_smp ..
@[simp] theorem raise_sched (code arg s) : (raise code arg s).sched = s.sched := raiseAt_sched ..
@[simp] theorem raise_ec (code arg s) : (raise code arg s).ec = s.ec := raiseAt_ec ..
@[simp] theorem raise_mem (code arg s) : (raise code arg s).mem = s.mem := raiseAt_mem ..
@[simp] theorem raise_twin (code arg s) : (raise code arg s).twin = s.twin := raiseAt_twin ..
@[simp] theorem raise_ana (code arg s) : (raise code arg s).ana = s.ana := raiseAt_ana ..
@[simp] theorem raise_sap (code arg s) : (raise code arg s).sap = s.sap := raiseAt_sap ..
@[simp] theorem raise_net (code arg s) : (raise code arg s).net = s.net := raiseAt_net ..
@[simp] theorem raise_time (code arg s) : (raise code arg s).time = s.time := raiseAt_time ..
@[simp] theorem raise_clk (code arg s) : (raise code arg s).clk = s.clk := raiseAt_clk ..
@[simp] theorem raise_nvm (code arg s) : (raise code arg s).nvm = s.nvm := raiseAt_nvm ..
@[simp] theorem raise_free (code arg s) : (raise code arg s).free = s.free := raiseAt_free ..
@[simp] theorem raise_pending (code arg s) : (raise code arg s).pending = s.pending := raiseAt_pending ..

/-! ### An event raised at the block tick -/

@[simp] theorem raiseTick_grid (code arg s) : (raiseTick code arg s).grid = s.grid := raiseAt_grid ..
@[simp] theorem raiseTick_sheet (code arg s) : (raiseTick code arg s).sheet = s.sheet := raiseAt_sheet ..
@[simp] theorem raiseTick_img (code arg s) : (raiseTick code arg s).img = s.img := raiseAt_img ..
@[simp] theorem raiseTick_obj (code arg s) : (raiseTick code arg s).obj = s.obj := raiseAt_obj ..
@[simp] theorem raiseTick_mx (code arg s) : (raiseTick code arg s).mx = s.mx := raiseAt_mx ..
@[simp] theorem raiseTick_chain (code arg s) : (raiseTick code arg s).chain = s.chain := raiseAt_chain ..
@[simp] theorem raiseTick_conv (code arg s) : (raiseTick code arg s).conv = s.conv := raiseAt_conv ..
@[simp] theorem raiseTick_slot (code arg s) : (raiseTick code arg s).slot = s.slot := raiseAt_slot ..
@[simp] theorem raiseTick_tg (code arg s) : (raiseTick code arg s).tg = s.tg := raiseAt_tg ..
@[simp] theorem raiseTick_cap (code arg s) : (raiseTick code arg s).cap = s.cap := raiseAt_cap ..
@[simp] theorem raiseTick_deconv (code arg s) : (raiseTick code arg s).deconv = s.deconv := raiseAt_deconv ..
@[simp] theorem raiseTick_smp (code arg s) : (raiseTick code arg s).smp = s.smp := raiseAt_smp ..
@[simp] theorem raiseTick_sched (code arg s) : (raiseTick code arg s).sched = s.sched := raiseAt_sched ..
@[simp] theorem raiseTick_ec (code arg s) : (raiseTick code arg s).ec = s.ec := raiseAt_ec ..
@[simp] theorem raiseTick_mem (code arg s) : (raiseTick code arg s).mem = s.mem := raiseAt_mem ..
@[simp] theorem raiseTick_twin (code arg s) : (raiseTick code arg s).twin = s.twin := raiseAt_twin ..
@[simp] theorem raiseTick_ana (code arg s) : (raiseTick code arg s).ana = s.ana := raiseAt_ana ..
@[simp] theorem raiseTick_sap (code arg s) : (raiseTick code arg s).sap = s.sap := raiseAt_sap ..
@[simp] theorem raiseTick_net (code arg s) : (raiseTick code arg s).net = s.net := raiseAt_net ..
@[simp] theorem raiseTick_time (code arg s) : (raiseTick code arg s).time = s.time := raiseAt_time ..
@[simp] theorem raiseTick_clk (code arg s) : (raiseTick code arg s).clk = s.clk := raiseAt_clk ..
@[simp] theorem raiseTick_nvm (code arg s) : (raiseTick code arg s).nvm = s.nvm := raiseAt_nvm ..
@[simp] theorem raiseTick_free (code arg s) : (raiseTick code arg s).free = s.free := raiseAt_free ..
@[simp] theorem raiseTick_pending (code arg s) : (raiseTick code arg s).pending = s.pending := raiseAt_pending ..

/-! ### An event raised at most once per block -/

@[simp] theorem raiseOnce_grid (code arg s) : (raiseOnce code arg s).grid = s.grid := by
  unfold raiseOnce
  split
  · rfl
  · exact raise_grid ..
@[simp] theorem raiseOnce_sheet (code arg s) : (raiseOnce code arg s).sheet = s.sheet := by
  unfold raiseOnce
  split
  · rfl
  · exact raise_sheet ..
@[simp] theorem raiseOnce_img (code arg s) : (raiseOnce code arg s).img = s.img := by
  unfold raiseOnce
  split
  · rfl
  · exact raise_img ..
@[simp] theorem raiseOnce_obj (code arg s) : (raiseOnce code arg s).obj = s.obj := by
  unfold raiseOnce
  split
  · rfl
  · exact raise_obj ..
@[simp] theorem raiseOnce_mx (code arg s) : (raiseOnce code arg s).mx = s.mx := by
  unfold raiseOnce
  split
  · rfl
  · exact raise_mx ..
@[simp] theorem raiseOnce_chain (code arg s) : (raiseOnce code arg s).chain = s.chain := by
  unfold raiseOnce
  split
  · rfl
  · exact raise_chain ..
@[simp] theorem raiseOnce_conv (code arg s) : (raiseOnce code arg s).conv = s.conv := by
  unfold raiseOnce
  split
  · rfl
  · exact raise_conv ..
@[simp] theorem raiseOnce_slot (code arg s) : (raiseOnce code arg s).slot = s.slot := by
  unfold raiseOnce
  split
  · rfl
  · exact raise_slot ..
@[simp] theorem raiseOnce_tg (code arg s) : (raiseOnce code arg s).tg = s.tg := by
  unfold raiseOnce
  split
  · rfl
  · exact raise_tg ..
@[simp] theorem raiseOnce_cap (code arg s) : (raiseOnce code arg s).cap = s.cap := by
  unfold raiseOnce
  split
  · rfl
  · exact raise_cap ..
@[simp] theorem raiseOnce_deconv (code arg s) : (raiseOnce code arg s).deconv = s.deconv := by
  unfold raiseOnce
  split
  · rfl
  · exact raise_deconv ..
@[simp] theorem raiseOnce_smp (code arg s) : (raiseOnce code arg s).smp = s.smp := by
  unfold raiseOnce
  split
  · rfl
  · exact raise_smp ..
@[simp] theorem raiseOnce_sched (code arg s) : (raiseOnce code arg s).sched = s.sched := by
  unfold raiseOnce
  split
  · rfl
  · exact raise_sched ..
@[simp] theorem raiseOnce_ec (code arg s) : (raiseOnce code arg s).ec = s.ec := by
  unfold raiseOnce
  split
  · rfl
  · exact raise_ec ..
@[simp] theorem raiseOnce_mem (code arg s) : (raiseOnce code arg s).mem = s.mem := by
  unfold raiseOnce
  split
  · rfl
  · exact raise_mem ..
@[simp] theorem raiseOnce_twin (code arg s) : (raiseOnce code arg s).twin = s.twin := by
  unfold raiseOnce
  split
  · rfl
  · exact raise_twin ..
@[simp] theorem raiseOnce_ana (code arg s) : (raiseOnce code arg s).ana = s.ana := by
  unfold raiseOnce
  split
  · rfl
  · exact raise_ana ..
@[simp] theorem raiseOnce_sap (code arg s) : (raiseOnce code arg s).sap = s.sap := by
  unfold raiseOnce
  split
  · rfl
  · exact raise_sap ..
@[simp] theorem raiseOnce_net (code arg s) : (raiseOnce code arg s).net = s.net := by
  unfold raiseOnce
  split
  · rfl
  · exact raise_net ..
@[simp] theorem raiseOnce_time (code arg s) : (raiseOnce code arg s).time = s.time := by
  unfold raiseOnce
  split
  · rfl
  · exact raise_time ..
@[simp] theorem raiseOnce_clk (code arg s) : (raiseOnce code arg s).clk = s.clk := by
  unfold raiseOnce
  split
  · rfl
  · exact raise_clk ..
@[simp] theorem raiseOnce_nvm (code arg s) : (raiseOnce code arg s).nvm = s.nvm := by
  unfold raiseOnce
  split
  · rfl
  · exact raise_nvm ..
@[simp] theorem raiseOnce_free (code arg s) : (raiseOnce code arg s).free = s.free := by
  unfold raiseOnce
  split
  · rfl
  · exact raise_free ..
@[simp] theorem raiseOnce_pending (code arg s) : (raiseOnce code arg s).pending = s.pending := by
  unfold raiseOnce
  split
  · rfl
  · exact raise_pending ..

/-! ### A condition of the guarantee failing -/

@[simp] theorem lapseAt_sheet (tick s) : (lapseAt tick s).sheet = s.sheet := by
  unfold lapseAt
  split
  · rfl
  · split
    · simp only []
      split
      · exact raiseAt_sheet ..
      · rfl
    · rfl
@[simp] theorem lapse_sheet (s) : (lapse s).sheet = s.sheet := lapseAt_sheet ..
@[simp] theorem lapseTick_sheet (s) : (lapseTick s).sheet = s.sheet := lapseAt_sheet ..
@[simp] theorem lapseAt_img (tick s) : (lapseAt tick s).img = s.img := by
  unfold lapseAt
  split
  · rfl
  · split
    · simp only []
      split
      · exact raiseAt_img ..
      · rfl
    · rfl
@[simp] theorem lapse_img (s) : (lapse s).img = s.img := lapseAt_img ..
@[simp] theorem lapseTick_img (s) : (lapseTick s).img = s.img := lapseAt_img ..
@[simp] theorem lapseAt_obj (tick s) : (lapseAt tick s).obj = s.obj := by
  unfold lapseAt
  split
  · rfl
  · split
    · simp only []
      split
      · exact raiseAt_obj ..
      · rfl
    · rfl
@[simp] theorem lapse_obj (s) : (lapse s).obj = s.obj := lapseAt_obj ..
@[simp] theorem lapseTick_obj (s) : (lapseTick s).obj = s.obj := lapseAt_obj ..
@[simp] theorem lapseAt_mx (tick s) : (lapseAt tick s).mx = s.mx := by
  unfold lapseAt
  split
  · rfl
  · split
    · simp only []
      split
      · exact raiseAt_mx ..
      · rfl
    · rfl
@[simp] theorem lapse_mx (s) : (lapse s).mx = s.mx := lapseAt_mx ..
@[simp] theorem lapseTick_mx (s) : (lapseTick s).mx = s.mx := lapseAt_mx ..
@[simp] theorem lapseAt_chain (tick s) : (lapseAt tick s).chain = s.chain := by
  unfold lapseAt
  split
  · rfl
  · split
    · simp only []
      split
      · exact raiseAt_chain ..
      · rfl
    · rfl
@[simp] theorem lapse_chain (s) : (lapse s).chain = s.chain := lapseAt_chain ..
@[simp] theorem lapseTick_chain (s) : (lapseTick s).chain = s.chain := lapseAt_chain ..
@[simp] theorem lapseAt_conv (tick s) : (lapseAt tick s).conv = s.conv := by
  unfold lapseAt
  split
  · rfl
  · split
    · simp only []
      split
      · exact raiseAt_conv ..
      · rfl
    · rfl
@[simp] theorem lapse_conv (s) : (lapse s).conv = s.conv := lapseAt_conv ..
@[simp] theorem lapseTick_conv (s) : (lapseTick s).conv = s.conv := lapseAt_conv ..
@[simp] theorem lapseAt_slot (tick s) : (lapseAt tick s).slot = s.slot := by
  unfold lapseAt
  split
  · rfl
  · split
    · simp only []
      split
      · exact raiseAt_slot ..
      · rfl
    · rfl
@[simp] theorem lapse_slot (s) : (lapse s).slot = s.slot := lapseAt_slot ..
@[simp] theorem lapseTick_slot (s) : (lapseTick s).slot = s.slot := lapseAt_slot ..
@[simp] theorem lapseAt_tg (tick s) : (lapseAt tick s).tg = s.tg := by
  unfold lapseAt
  split
  · rfl
  · split
    · simp only []
      split
      · exact raiseAt_tg ..
      · rfl
    · rfl
@[simp] theorem lapse_tg (s) : (lapse s).tg = s.tg := lapseAt_tg ..
@[simp] theorem lapseTick_tg (s) : (lapseTick s).tg = s.tg := lapseAt_tg ..
@[simp] theorem lapseAt_cap (tick s) : (lapseAt tick s).cap = s.cap := by
  unfold lapseAt
  split
  · rfl
  · split
    · simp only []
      split
      · exact raiseAt_cap ..
      · rfl
    · rfl
@[simp] theorem lapse_cap (s) : (lapse s).cap = s.cap := lapseAt_cap ..
@[simp] theorem lapseTick_cap (s) : (lapseTick s).cap = s.cap := lapseAt_cap ..
@[simp] theorem lapseAt_deconv (tick s) : (lapseAt tick s).deconv = s.deconv := by
  unfold lapseAt
  split
  · rfl
  · split
    · simp only []
      split
      · exact raiseAt_deconv ..
      · rfl
    · rfl
@[simp] theorem lapse_deconv (s) : (lapse s).deconv = s.deconv := lapseAt_deconv ..
@[simp] theorem lapseTick_deconv (s) : (lapseTick s).deconv = s.deconv := lapseAt_deconv ..
@[simp] theorem lapseAt_smp (tick s) : (lapseAt tick s).smp = s.smp := by
  unfold lapseAt
  split
  · rfl
  · split
    · simp only []
      split
      · exact raiseAt_smp ..
      · rfl
    · rfl
@[simp] theorem lapse_smp (s) : (lapse s).smp = s.smp := lapseAt_smp ..
@[simp] theorem lapseTick_smp (s) : (lapseTick s).smp = s.smp := lapseAt_smp ..
@[simp] theorem lapseAt_sched (tick s) : (lapseAt tick s).sched = s.sched := by
  unfold lapseAt
  split
  · rfl
  · split
    · simp only []
      split
      · exact raiseAt_sched ..
      · rfl
    · rfl
@[simp] theorem lapse_sched (s) : (lapse s).sched = s.sched := lapseAt_sched ..
@[simp] theorem lapseTick_sched (s) : (lapseTick s).sched = s.sched := lapseAt_sched ..
@[simp] theorem lapseAt_ec (tick s) : (lapseAt tick s).ec = s.ec := by
  unfold lapseAt
  split
  · rfl
  · split
    · simp only []
      split
      · exact raiseAt_ec ..
      · rfl
    · rfl
@[simp] theorem lapse_ec (s) : (lapse s).ec = s.ec := lapseAt_ec ..
@[simp] theorem lapseTick_ec (s) : (lapseTick s).ec = s.ec := lapseAt_ec ..
@[simp] theorem lapseAt_mem (tick s) : (lapseAt tick s).mem = s.mem := by
  unfold lapseAt
  split
  · rfl
  · split
    · simp only []
      split
      · exact raiseAt_mem ..
      · rfl
    · rfl
@[simp] theorem lapse_mem (s) : (lapse s).mem = s.mem := lapseAt_mem ..
@[simp] theorem lapseTick_mem (s) : (lapseTick s).mem = s.mem := lapseAt_mem ..
@[simp] theorem lapseAt_twin (tick s) : (lapseAt tick s).twin = s.twin := by
  unfold lapseAt
  split
  · rfl
  · split
    · simp only []
      split
      · exact raiseAt_twin ..
      · rfl
    · rfl
@[simp] theorem lapse_twin (s) : (lapse s).twin = s.twin := lapseAt_twin ..
@[simp] theorem lapseTick_twin (s) : (lapseTick s).twin = s.twin := lapseAt_twin ..
@[simp] theorem lapseAt_ana (tick s) : (lapseAt tick s).ana = s.ana := by
  unfold lapseAt
  split
  · rfl
  · split
    · simp only []
      split
      · exact raiseAt_ana ..
      · rfl
    · rfl
@[simp] theorem lapse_ana (s) : (lapse s).ana = s.ana := lapseAt_ana ..
@[simp] theorem lapseTick_ana (s) : (lapseTick s).ana = s.ana := lapseAt_ana ..
@[simp] theorem lapseAt_sap (tick s) : (lapseAt tick s).sap = s.sap := by
  unfold lapseAt
  split
  · rfl
  · split
    · simp only []
      split
      · exact raiseAt_sap ..
      · rfl
    · rfl
@[simp] theorem lapse_sap (s) : (lapse s).sap = s.sap := lapseAt_sap ..
@[simp] theorem lapseTick_sap (s) : (lapseTick s).sap = s.sap := lapseAt_sap ..
@[simp] theorem lapseAt_net (tick s) : (lapseAt tick s).net = s.net := by
  unfold lapseAt
  split
  · rfl
  · split
    · simp only []
      split
      · exact raiseAt_net ..
      · rfl
    · rfl
@[simp] theorem lapse_net (s) : (lapse s).net = s.net := lapseAt_net ..
@[simp] theorem lapseTick_net (s) : (lapseTick s).net = s.net := lapseAt_net ..
@[simp] theorem lapseAt_time (tick s) : (lapseAt tick s).time = s.time := by
  unfold lapseAt
  split
  · rfl
  · split
    · simp only []
      split
      · exact raiseAt_time ..
      · rfl
    · rfl
@[simp] theorem lapse_time (s) : (lapse s).time = s.time := lapseAt_time ..
@[simp] theorem lapseTick_time (s) : (lapseTick s).time = s.time := lapseAt_time ..
@[simp] theorem lapseAt_clk (tick s) : (lapseAt tick s).clk = s.clk := by
  unfold lapseAt
  split
  · rfl
  · split
    · simp only []
      split
      · exact raiseAt_clk ..
      · rfl
    · rfl
@[simp] theorem lapse_clk (s) : (lapse s).clk = s.clk := lapseAt_clk ..
@[simp] theorem lapseTick_clk (s) : (lapseTick s).clk = s.clk := lapseAt_clk ..
@[simp] theorem lapseAt_nvm (tick s) : (lapseAt tick s).nvm = s.nvm := by
  unfold lapseAt
  split
  · rfl
  · split
    · simp only []
      split
      · exact raiseAt_nvm ..
      · rfl
    · rfl
@[simp] theorem lapse_nvm (s) : (lapse s).nvm = s.nvm := lapseAt_nvm ..
@[simp] theorem lapseTick_nvm (s) : (lapseTick s).nvm = s.nvm := lapseAt_nvm ..
@[simp] theorem lapseAt_free (tick s) : (lapseAt tick s).free = s.free := by
  unfold lapseAt
  split
  · rfl
  · split
    · simp only []
      split
      · exact raiseAt_free ..
      · rfl
    · rfl
@[simp] theorem lapse_free (s) : (lapse s).free = s.free := lapseAt_free ..
@[simp] theorem lapseTick_free (s) : (lapseTick s).free = s.free := lapseAt_free ..
@[simp] theorem lapseAt_pending (tick s) : (lapseAt tick s).pending = s.pending := by
  unfold lapseAt
  split
  · rfl
  · split
    · simp only []
      split
      · exact raiseAt_pending ..
      · rfl
    · rfl
@[simp] theorem lapse_pending (s) : (lapse s).pending = s.pending := lapseAt_pending ..
@[simp] theorem lapseTick_pending (s) : (lapseTick s).pending = s.pending := lapseAt_pending ..

/-! ### What raising an event does -/

/-- Raising an event writes the events, the counters bound to it and, where a record is lost, its count and mark. -/
theorem raiseAt_frame (tick code arg s) : raiseAt tick code arg s = { s with
    ev := (raiseAt tick code arg s).ev, evc := (raiseAt tick code arg s).evc, bus := (raiseAt tick code arg s).bus
    tcm := (raiseAt tick code arg s).tcm } := by
  simp only [raiseAt, evcOccur]
  split <;> rfl

theorem raise_frame (code arg s) : raise code arg s = { s with
    ev := (raise code arg s).ev, evc := (raise code arg s).evc, bus := (raise code arg s).bus
    tcm := (raise code arg s).tcm } := raiseAt_frame ..

/-- Raising an event takes the next ESEQ. -/
@[simp] theorem raiseAt_eseq (tick code arg s) : (raiseAt tick code arg s).ev.eseq = (s.ev.eseq + 1) % 2 ^ 32 := by
  simp only [raiseAt, evcOccur_ev]
  split <;> rfl

/-- Raising an event sets its pending bit. -/
@[simp] theorem raiseAt_pend (tick code arg s) :
    (raiseAt tick code arg s).ev.pend = s.ev.pend ||| (1#256 <<< (code % 256)) := by
  simp only [raiseAt, evcOccur_ev]
  split <;> rfl

/-- Raising an event leaves the interrupt enables and the actions alone. -/
@[simp] theorem raiseAt_irqEn (tick code arg s) : (raiseAt tick code arg s).ev.irqEn = s.ev.irqEn := by
  simp only [raiseAt, evcOccur_ev]
  split <;> rfl

@[simp] theorem raise_eseq (code arg s) : (raise code arg s).ev.eseq = (s.ev.eseq + 1) % 2 ^ 32 := raiseAt_eseq ..
@[simp] theorem raise_pend (code arg s) : (raise code arg s).ev.pend = s.ev.pend ||| (1#256 <<< (code % 256)) :=
  raiseAt_pend ..
@[simp] theorem raiseTick_eseq (code arg s) : (raiseTick code arg s).ev.eseq = (s.ev.eseq + 1) % 2 ^ 32 := raiseAt_eseq ..
@[simp] theorem raiseTick_pend (code arg s) :
    (raiseTick code arg s).ev.pend = s.ev.pend ||| (1#256 <<< (code % 256)) := raiseAt_pend ..

/-- Raising an event counts at most EVT_LOST_CNT, and writes no register. -/
theorem raiseAt_bus (tick code arg s) : (raiseAt tick code arg s).bus = s.bus
    ∨ (raiseAt tick code arg s).bus = (count 0x10140034 0 1 s).bus := by
  simp only [raiseAt, evcOccur_bus]
  split
  · exact .inr rfl
  · exact .inl rfl

@[simp] theorem rget_raiseAt (a i tick code arg s) : rget a i (raiseAt tick code arg s) = rget a i s := by
  have h : (raiseAt tick code arg s).bus.regs = s.bus.regs := by
    rcases raiseAt_bus tick code arg s with h | h
    · rw [h]
    · rw [h]; rfl
  unfold rget
  rw [h]
@[simp] theorem rget_raise (a i code arg s) : rget a i (raise code arg s) = rget a i s := rget_raiseAt ..
@[simp] theorem rget_raiseTick (a i code arg s) : rget a i (raiseTick code arg s) = rget a i s := rget_raiseAt ..

/-- A counter other than EVT_LOST_CNT is left alone by an event. -/
theorem cget_raiseAt {a i : Nat} (h : rkey a i ≠ rkey 0x10140034 0) (tick code arg s) :
    cget a i (raiseAt tick code arg s) = cget a i s := by
  have hc : ∀ t : State, t.bus.ctr = (count 0x10140034 0 1 s).bus.ctr → cget a i t = cget a i s := fun t e => by
    unfold cget
    rw [e]
    exact sget_sset_of_ne _ _ h ..
  rcases raiseAt_bus tick code arg s with e | e
  · unfold cget; rw [e]
  · exact hc _ (by rw [e])

/-! ### Reading after writing -/

theorem rget_rset_of_ne {a b i j : Nat} (h : rkey a i ≠ rkey b j) (v : Nat) (s : State) :
    rget a i (rset b j v s) = rget a i s := sget_sset_of_ne _ _ h ..

@[simp] theorem rget_rset_self (a i v : Nat) (s : State) : rget a i (rset a i v s) = v := sget_sset_self ..

@[simp] theorem cget_cset_self (a i v : Nat) (s : State) : cget a i (cset a i v s) = v := sget_sset_self ..

theorem cget_cset_of_ne {a b i j : Nat} (h : rkey a i ≠ rkey b j) (v : Nat) (s : State) :
    cget a i (cset b j v s) = cget a i s := sget_sset_of_ne _ _ h ..

/-- A counter advanced reads the saturated sum. -/
@[simp] theorem cget_count_self (a i n : Nat) (s : State) :
    cget a i (count a i n s) = min (cget a i s + n) 0xFFFFFFFF := cget_cset_self ..

/-- A counter is left alone by another counter's advance. -/
theorem cget_count_of_ne {a b i j : Nat} (h : rkey a i ≠ rkey b j) (n : Nat) (s : State) :
    cget a i (count b j n s) = cget a i s := cget_cset_of_ne h ..

end Sys2Proof.Machine
end

