-- ==== Sys2Proof/Laws/Bus.lean ====
section
/-!
SUPPORT. What an access of a master is, where the control interconnect performs it and it reaches a register.
-/
namespace Sys2Proof.Machine

/-- An address of the register space or of the NVM block reaches a register, whatever the remap. -/
theorem targetOf_register (r : Bool) {a : Nat} (h : 0x10000000 ≤ a) (h' : a < 0x10180000) :
    targetOf r a = .regs ∨ targetOf r a = .nvm := by
  unfold targetOf
  rw [if_neg (by omega), if_neg (by omega), if_neg (by omega)]
  split
  · exact .inr rfl
  · rw [if_pos (by omega)]; exact .inl rfl

/-- A served write of a register address is the register's write after the answer. -/
theorem busWrite_register {m a : Nat} (v : Nat) {s : State} (h : Serves m a true s) (l : 0x10000000 ≤ a)
    (u : a < 0x10180000) : busWrite m a v s = regWrite m a (v % 2 ^ 32) (answered m s) := by
  obtain ⟨h1, h2, -⟩ := h
  have ht := fun r => targetOf_register r l u
  unfold busWrite
  simp only [h1, h2, Bool.not_true, Bool.false_eq_true, if_false]
  rcases ht (bit 0 (rget 0x10000300 0 (answered m s))) with h | h <;> simp only [answered] at h ⊢ <;> rw [h]

/-- A served read of a register address is the register's read, answered. -/
theorem busRead_register {m a : Nat} {s : State} (h : Serves m a false s) (l : 0x10000000 ≤ a) (u : a < 0x10180000) :
    busRead m a s = busAnswer m (regRead m a s).1 false (regRead m a s).2 := by
  obtain ⟨h1, h2, -⟩ := h
  have ht := targetOf_register (bit 0 (rget 0x10000300 0 s)) l u
  unfold busRead
  generalize windowRead m a s = w
  generalize regRead m a s = r
  generalize targetOf (bit 0 (rget 0x10000300 0 s)) a = t at ht
  obtain ⟨w1, w2, w3⟩ := w
  obtain ⟨v, s'⟩ := r
  rw [h1, h2]
  rcases ht with rfl | rfl <;> rfl

/-- The answer to a write leaves registers, selections and gates alone. -/
@[simp] theorem rget_answered (a i m : Nat) (s : State) : rget a i (answered m s) = rget a i s := rfl
@[simp] theorem cget_answered (a i m : Nat) (s : State) : cget a i (answered m s) = cget a i s := rfl
@[simp] theorem instOf_answered (a m k : Nat) (s : State) : instOf a m (answered k s) = instOf a m s := by
  simp only [instOf, selOf, rget_answered]
@[simp] theorem gated_answered (a m k : Nat) (s : State) : gated a m (answered k s) = gated a m s := by
  simp only [gated, instOf_answered, rget_answered]

/-- A served write whose instance's clock runs acts under its register's access code (R17). -/
theorem regWrite_served {m a : Nat} (v : Nat) {s : State} (h : Serves m a true s) :
    regWrite m a v (answered m s) = match accOf a with
      | .rw => rwWrite m a (instOf a m s) v (answered m s)
      | .wo => woWrite m a (instOf a m s) v (answered m s)
      | .fx => fxWrite m a (instOf a m s) v (answered m s)
      | .w1c => w1cWrite a (instOf a m s) v (answered m s)
      | .mix => w1cWrite a (instOf a m s) v (answered m s)
      | _ => answered m s := by
  unfold regWrite
  simp only [gated_answered, h.2.2, instOf_answered]
  cases accOf a <;> rfl

/-- Registers stand only in the register space. -/
theorem accOf_range {a : Nat} (h : accOf a ≠ .none) : 0x10000000 ≤ a ∧ a < 0x10180000 := by
  by_contra hn
  apply h
  have hb : a / 65536 < 0x1000 ∨ 0x1018 ≤ a / 65536 := by omega
  have he : isEc a = false := by
    unfold isEc
    simp only [decide_eq_false_iff_not]
    omega
  have hr : regRows (a / 65536) = [] := by
    generalize a / 65536 = b at hb
    unfold regRows
    split <;> first | rfl | (exfalso; omega)
  unfold accOf
  simp [he, hr]

end Sys2Proof.Machine
end

