-- ==== Sys2Proof/Laws/Kept.lean ====
section
/-!
SUPPORT. How to say that a function of the model leaves the queue of commands, DRAM, working SRAM, FAB SRAM and the flash alone, and
the steps of such proofs.
-/
namespace Sys2Proof.Machine

/-- What most commands leave as it is: the queue, DRAM, working SRAM, FAB SRAM and the flash. -/
def State.kept (s : State) : List Instr × List Host.Cell × List Host.Cell × List Host.Cell × List Host.Cell :=
  (s.pending, s.mem.dram, s.mem.sram, s.mem.fab, s.nvm.flash)

theorem kept_upd (s :
    State) (x_grid x_ev x_evc x_tcm x_sheet x_bus x_img x_obj x_mx x_chain x_conv x_slot x_tg x_cap x_deconv x_smp x_sched x_ec x_twin x_ana x_sap x_net x_time x_clk x_free) : State.kept ⟨x_grid, x_ev, x_evc, x_tcm, x_sheet, x_bus, x_img, x_obj, x_mx, x_chain, x_conv, x_slot, x_tg, x_cap, x_deconv, x_smp, x_sched, x_ec, s.mem, x_twin, x_ana, x_sap, x_net, x_time, x_clk, s.nvm, x_free, s.pending⟩ = s.kept := by unfold State.kept; exact Eq.refl _
theorem kept_updMem (s :
    State) (x_grid x_ev x_evc x_tcm x_sheet x_bus x_img x_obj x_mx x_chain x_conv x_slot x_tg x_cap x_deconv x_smp x_sched x_ec x_twin x_ana x_sap x_net x_time x_clk x_free) (m_poison m_writeBack m_fabPoison m_valid m_density m_ranks m_qosTarget m_tempI2c m_i2cAddr m_zqMs m_setup m_recordErr m_ch0 m_ch1 m_hotLow m_temp m_tempFails m_eccAddr m_eccInfo m_sramInfo m_dramPasses m_sramPasses m_scrubLine m_poisonTimes m_bistNext m_bistFailed m_bistRows m_hostBase m_hostLen) : State.kept ⟨x_grid, x_ev, x_evc, x_tcm, x_sheet, x_bus, x_img, x_obj, x_mx, x_chain, x_conv, x_slot, x_tg, x_cap, x_deconv, x_smp, x_sched, x_ec, ⟨s.mem.dram, m_poison, m_writeBack, s.mem.sram, s.mem.fab, m_fabPoison, m_valid, m_density, m_ranks, m_qosTarget, m_tempI2c, m_i2cAddr, m_zqMs, m_setup, m_recordErr, m_ch0, m_ch1, m_hotLow, m_temp, m_tempFails, m_eccAddr, m_eccInfo, m_sramInfo, m_dramPasses, m_sramPasses, m_scrubLine, m_poisonTimes, m_bistNext, m_bistFailed, m_bistRows, m_hostBase, m_hostLen⟩, x_twin, x_ana, x_sap, x_net, x_time, x_clk, s.nvm, x_free, s.pending⟩ = s.kept := by unfold State.kept; exact Eq.refl _
theorem kept_updNvm (s :
    State) (x_grid x_ev x_evc x_tcm x_sheet x_bus x_img x_obj x_mx x_chain x_conv x_slot x_tg x_cap x_deconv x_smp x_sched x_ec x_twin x_ana x_sap x_net x_time x_clk x_free) (n_log2 n_aHdr n_bHdr n_aBody n_bBody n_copyB n_applied n_tie n_recovery n_keyFused n_errCode n_errRecord n_errCopyB n_errValid n_errIndex n_genA n_genB n_hash n_addr n_page n_op n_opAddr n_refused n_fail n_checkDone n_checkPass n_flogHead n_flogSeq n_flogTimes n_flogDrops) : State.kept ⟨x_grid, x_ev, x_evc, x_tcm, x_sheet, x_bus, x_img, x_obj, x_mx, x_chain, x_conv, x_slot, x_tg, x_cap, x_deconv, x_smp, x_sched, x_ec, s.mem, x_twin, x_ana, x_sap, x_net, x_time, x_clk, ⟨s.nvm.flash, n_log2, n_aHdr, n_bHdr, n_aBody, n_bBody, n_copyB, n_applied, n_tie, n_recovery, n_keyFused, n_errCode, n_errRecord, n_errCopyB, n_errValid, n_errIndex, n_genA, n_genB, n_hash, n_addr, n_page, n_op, n_opAddr, n_refused, n_fail, n_checkDone, n_checkPass, n_flogHead, n_flogSeq, n_flogTimes, n_flogDrops⟩, x_free, s.pending⟩ = s.kept := by unfold State.kept; exact Eq.refl _
theorem kept_updBoth (s :
    State) (x_grid x_ev x_evc x_tcm x_sheet x_bus x_img x_obj x_mx x_chain x_conv x_slot x_tg x_cap x_deconv x_smp x_sched x_ec x_twin x_ana x_sap x_net x_time x_clk x_free) (m_poison m_writeBack m_fabPoison m_valid m_density m_ranks m_qosTarget m_tempI2c m_i2cAddr m_zqMs m_setup m_recordErr m_ch0 m_ch1 m_hotLow m_temp m_tempFails m_eccAddr m_eccInfo m_sramInfo m_dramPasses m_sramPasses m_scrubLine m_poisonTimes m_bistNext m_bistFailed m_bistRows m_hostBase m_hostLen) (n_log2 n_aHdr n_bHdr n_aBody n_bBody n_copyB n_applied n_tie n_recovery n_keyFused n_errCode n_errRecord n_errCopyB n_errValid n_errIndex n_genA n_genB n_hash n_addr n_page n_op n_opAddr n_refused n_fail n_checkDone n_checkPass n_flogHead n_flogSeq n_flogTimes n_flogDrops) : State.kept ⟨x_grid, x_ev, x_evc, x_tcm, x_sheet, x_bus, x_img, x_obj, x_mx, x_chain, x_conv, x_slot, x_tg, x_cap, x_deconv, x_smp, x_sched, x_ec, ⟨s.mem.dram, m_poison, m_writeBack, s.mem.sram, s.mem.fab, m_fabPoison, m_valid, m_density, m_ranks, m_qosTarget, m_tempI2c, m_i2cAddr, m_zqMs, m_setup, m_recordErr, m_ch0, m_ch1, m_hotLow, m_temp, m_tempFails, m_eccAddr, m_eccInfo, m_sramInfo, m_dramPasses, m_sramPasses, m_scrubLine, m_poisonTimes, m_bistNext, m_bistFailed, m_bistRows, m_hostBase, m_hostLen⟩, x_twin, x_ana, x_sap, x_net, x_time, x_clk, ⟨s.nvm.flash, n_log2, n_aHdr, n_bHdr, n_aBody, n_bBody, n_copyB, n_applied, n_tie, n_recovery, n_keyFused, n_errCode, n_errRecord, n_errCopyB, n_errValid, n_errIndex, n_genA, n_genB, n_hash, n_addr, n_page, n_op, n_opAddr, n_refused, n_fail, n_checkDone, n_checkPass, n_flogHead, n_flogSeq, n_flogTimes, n_flogDrops⟩, x_free, s.pending⟩ = s.kept := by unfold State.kept; exact Eq.refl _

theorem kept_foldl {α : Type} (f : State → α → State) (h : ∀ s x, (f s x).kept = s.kept) (l : List α) (s : State) :
    (l.foldl f s).kept = s.kept := by
  induction l generalizing s with
  | nil => rfl
  | cons x t ih => rw [List.foldl_cons, ih, h]
theorem kept_foldl_snd {α β : Type} (f : β × State → α → β × State) (h : ∀ p x, (f p x).2.kept = p.2.kept) (l : List α)
    (p : β × State) : (l.foldl f p).2.kept = p.2.kept := by
  induction l generalizing p with
  | nil => rfl
  | cons x t ih => rw [List.foldl_cons, ih, h]
theorem kept_ite {c : Prop} [Decidable c] {a b : State} {x} (ha : a.kept = x) (hb : b.kept = x) :
    (if c then a else b).kept = x := by split <;> assumption
theorem kept_ite_snd {α : Type} {c : Prop} [Decidable c] {a b : α × State} {x} (ha : a.2.kept = x) (hb : b.2.kept = x) :
    (if c then a else b).2.kept = x := by split <;> assumption
theorem kept_ite_fst {α : Type} {c : Prop} [Decidable c] {a b : State × α} {x} (ha : a.1.kept = x) (hb : b.1.kept = x) :
    (if c then a else b).1.kept = x := by split <;> assumption
theorem kept_ite_snd2 {α β : Type} {c : Prop} [Decidable c] {a b : α × β × State} {x} (ha : a.2.2.kept = x) (hb : b.2.2.kept = x) :
    (if c then a else b).2.2.kept = x := by split <;> assumption
theorem ite_kept (c : Prop) [Decidable c] (a b : State) : (if c then a else b).kept = if c then a.kept else b.kept := by
  split <;> rfl
theorem ite_snd {α β : Type} (c : Prop) [Decidable c] (a b : α × β) :
    (if c then a else b).2 = if c then a.2 else b.2 := by split <;> rfl
theorem ite_fst {α β : Type} (c : Prop) [Decidable c] (a b : α × β) :
    (if c then a else b).1 = if c then a.1 else b.1 := by split <;> rfl
theorem ite_to {α : Type} {c : Prop} [Decidable c] {a b x : α} (ha : a = x) (hb : b = x) : (if c then a else b) = x := by
  split <;> assumption

/-- How the other functions treat the queue and the byte stores: queue and flash stay, DRAM, SRAM and FAB SRAM stay canonical. -/
def Keeps (s t : State) : Prop :=
  t.pending = s.pending ∧ t.nvm.flash = s.nvm.flash ∧ (Memory.wf 0 s.mem.dram = true → Memory.wf 0 t.mem.dram = true)
    ∧ (Memory.wf 0 s.mem.sram = true → Memory.wf 0 t.mem.sram = true)
    ∧ (Memory.wf 0 s.mem.fab = true → Memory.wf 0 t.mem.fab = true)
theorem Keeps.rfl_ (s : State) : Keeps s s := ⟨rfl, rfl, id, id, id⟩
theorem Keeps.trans {s t u : State} (a : Keeps s t) (b : Keeps t u) : Keeps s u :=
  ⟨b.1.trans a.1, b.2.1.trans a.2.1, fun h => b.2.2.1 (a.2.2.1 h), fun h => b.2.2.2.1 (a.2.2.2.1 h),
    fun h => b.2.2.2.2 (a.2.2.2.2 h)⟩
theorem Keeps.of_kept {s t : State} (h : t.kept = s.kept) : Keeps s t := by
  simp only [State.kept, Prod.mk.injEq] at h
  exact ⟨h.1, h.2.2.2.2, fun w => by rw [h.2.1]; exact w, fun w => by rw [h.2.2.1]; exact w,
    fun w => by rw [h.2.2.2.1]; exact w⟩
theorem Keeps.to_kept {s t u : State} (a : Keeps s t) (h : u.kept = t.kept) : Keeps s u := a.trans (.of_kept h)
theorem Keeps.ite {c : Prop} [Decidable c] {s a b : State} (ha : Keeps s a) (hb : Keeps s b) : Keeps s (if c then a else b) := by
  split <;> assumption
theorem Keeps.ite_snd {α : Type} {c : Prop} [Decidable c] {s : State} {a b : α × State} (ha : Keeps s a.2) (hb : Keeps s b.2) :
    Keeps s (if c then a else b).2 := by
  split <;> assumption
theorem Keeps.foldl {α : Type} {f : State → α → State} {s u : State} {l : List α} (h : ∀ s x, Keeps s (f s x))
    (hu : Keeps s u) : Keeps s (l.foldl f u) := by
  induction l generalizing u with
  | nil => exact hu
  | cons x t ih => exact ih (hu.trans (h u x))
theorem fresh_keeps (a b d e f) (s : State) (h : b.flash = s.nvm.flash) (hp : f = s.pending) :
    Keeps s (State.fresh a b d e f) := ⟨hp, h, fun _ => rfl, fun _ => rfl, fun _ => rfl⟩

/-- Every value that a check answers has a property. -/
def Yields {ε α : Type} (P : α → Prop) (x : Except ε α) : Prop := ∀ k, x = .ok k → P k
theorem Yields.ok {ε α : Type} {P : α → Prop} {a : α} (h : P a) : Yields (ε := ε) P (.ok a) := by
  intro k hk; cases hk; exact h
theorem Yields.pure {ε α : Type} {P : α → Prop} {a : α} (h : P a) : Yields (ε := ε) P (Pure.pure a) := Yields.ok h
theorem Yields.error {ε α : Type} {P : α → Prop} (e : ε) : Yields P (.error e : Except ε α) := by
  intro k hk; cases hk
theorem Yields.bind {ε α β : Type} {P : β → Prop} {x : Except ε α} {f : α → Except ε β} (h : ∀ a, Yields P (f a)) :
    Yields P (x >>= f) := by
  intro k hk
  cases x with
  | error e => cases hk
  | ok a => exact h a k hk
theorem Yields.seq {ε α β : Type} {P : β → Prop} {Q : α → Prop} {x : Except ε α} {f : α → Except ε β} (hx : Yields Q x)
    (h : ∀ a, Q a → Yields P (f a)) : Yields P (x >>= f) := by
  intro k hk
  cases x with
  | error e => cases hk
  | ok a => exact h a (hx a rfl) k hk
theorem Yields.mapError {ε δ α : Type} {P : α → Prop} {x : Except ε α} {f : ε → δ} (h : Yields P x) :
    Yields P (x.mapError f) := by
  intro k hk
  cases x with
  | error e => cases hk
  | ok a => cases hk; exact h _ rfl
end Sys2Proof.Machine
end

