-- ==== Sys2Proof/Laws/KeptBlocks.lean ====
section
/-!
SUPPORT. What the functions of the model leave alone (the shared operations, the objects, the panner, the matrix, the output chains and convolution): the queue, the byte stores and the flash.
-/
set_option linter.all false

namespace Sys2Proof.Machine

/-! ### Ops -/

theorem rset_kept (a0 a1 a2 s) : (rset a0 a1 a2 s).kept = s.kept := by
  simp only [rset, ↓kept_upd]

theorem cset_kept (a0 a1 a2 s) : (cset a0 a1 a2 s).kept = s.kept := by
  simp only [cset, ↓kept_upd]

theorem count_kept (a0 a1 a2 s) : (count a0 a1 a2 s).kept = s.kept := by
  unfold count
  extract_lets x0 x1
  have hx0 : x0.kept = s.kept := by
    unfold x0
    (repeat' (first
      | simp only [↓cset_kept, ↓kept_upd, ↓ite_kept, ite_self]
      | with_reducible refine kept_ite ?_ ?_
      | with_reducible split))
  try clear_value x0
  try clear_value x1
  (repeat' (first
    | simp only [↓hx0, ↓cset_kept, ↓kept_upd, ↓ite_kept, ite_self]
    | with_reducible refine kept_ite ?_ ?_
    | with_reducible split))

theorem evcOccur_kept (a0 a1 s) : (evcOccur a0 a1 s).kept = s.kept := by
  simp only [evcOccur, ↓kept_upd]

theorem raiseAt_kept (a0 a1 a2 s) : (raiseAt a0 a1 a2 s).kept = s.kept := by
  unfold raiseAt
  extract_lets x0 x1 x2 x3 x4 x5 x6 x7 x8 x9 x10 x11 x12 x13 x14
  try clear_value x0
  try clear_value x1
  try clear_value x2
  try clear_value x3
  try clear_value x4
  try clear_value x5
  try clear_value x6
  try clear_value x7
  try clear_value x8
  try clear_value x9
  try clear_value x10
  have hx11 : x11.kept = s.kept := by
    unfold x11
    (repeat' (first
      | simp only [↓count_kept, ↓evcOccur_kept, ↓kept_upd, ↓ite_kept, ite_self]
      | with_reducible refine kept_ite ?_ ?_
      | with_reducible split))
  try clear_value x11
  have hx12 : x12.kept = s.kept := by
    unfold x12
    (repeat' (first
      | simp only [↓hx11, ↓count_kept, ↓evcOccur_kept, ↓kept_upd, ↓ite_kept, ite_self]
      | with_reducible refine kept_ite ?_ ?_
      | with_reducible split))
  try clear_value x12
  try clear_value x13
  have hx14 : x14.kept = s.kept := by
    unfold x14
    (repeat' (first
      | simp only [↓hx11, ↓hx12, ↓count_kept, ↓evcOccur_kept, ↓kept_upd, ↓ite_kept, ite_self]
      | with_reducible refine kept_ite ?_ ?_
      | with_reducible split))
  try clear_value x14
  (repeat' (first
    | simp only [↓hx11, ↓hx12, ↓hx14, ↓count_kept, ↓evcOccur_kept, ↓kept_upd, ↓ite_kept, ite_self]
    | with_reducible refine kept_ite ?_ ?_
    | with_reducible split))

theorem logEntry_kept (a0 a1 s) : (logEntry a0 a1 s).kept = s.kept := by
  simp only [logEntry, ↓kept_upd]

theorem raise_kept (a0 a1 s) : (raise a0 a1 s).kept = s.kept := by
  simp only [raise, ↓raiseAt_kept, ↓kept_upd]

theorem raiseTick_kept (a0 a1 s) : (raiseTick a0 a1 s).kept = s.kept := by
  simp only [raiseTick, ↓raiseAt_kept, ↓kept_upd]

theorem raiseOnce_kept (a0 a1 s) : (raiseOnce a0 a1 s).kept = s.kept := by
  unfold raiseOnce
  (repeat' (first
    | simp only [↓raise_kept, ↓kept_upd, ↓ite_kept, ite_self]
    | with_reducible refine kept_ite ?_ ?_
    | with_reducible split))

theorem lapseAt_kept (a0 s) : (lapseAt a0 s).kept = s.kept := by
  unfold lapseAt
  extract_lets x0 x1
  try clear_value x0
  have hx1 : x1.kept = s.kept := by
    unfold x1
    (repeat' (first
      | simp only [↓raiseAt_kept, ↓kept_upd, ↓ite_kept, ite_self]
      | with_reducible refine kept_ite ?_ ?_
      | with_reducible split))
  try clear_value x1
  (repeat' (first
    | simp only [↓hx1, ↓raiseAt_kept, ↓kept_upd, ↓ite_kept, ite_self]
    | with_reducible refine kept_ite ?_ ?_
    | with_reducible split))

theorem lapse_kept (s) : (lapse s).kept = s.kept := by
  simp only [lapse, ↓lapseAt_kept, ↓kept_upd]

theorem lapseTick_kept (s) : (lapseTick s).kept = s.kept := by
  simp only [lapseTick, ↓lapseAt_kept, ↓kept_upd]

/-! ### Memory -/

theorem chanSet_kept (a0 a1 s) : (chanSet a0 a1 s).kept = s.kept := by
  unfold chanSet
  (repeat' (first
    | simp only [↓kept_upd, ↓kept_updMem, ↓kept_updNvm, ↓kept_updBoth, ↓ite_kept, ↓ite_snd, ↓ite_fst, ite_self, implies_true]
    | with_reducible refine kept_ite ?_ ?_
    | with_reducible refine kept_ite_snd ?_ ?_
    | with_reducible refine kept_ite_fst ?_ ?_
    | with_reducible refine kept_ite_snd2 ?_ ?_
    | with_reducible refine ite_to ?_ ?_
    | with_reducible refine Eq.trans (kept_foldl _ ?_ _ _) ?_
    | intro _ _
    | with_reducible split
    | (have h := congrArg (fun x : _ × State => x.2.kept) ‹_ = (_, _)›; simp only [] at h; exact h.symm)
    | (have h := congrArg (fun x : State × _ => x.1.kept) ‹_ = (_, _)›; simp only [] at h; exact h.symm)
    | (have h := congrArg (fun x : _ × _ × State => x.2.2.kept) ‹_ = (_, _, _)›; simp only [] at h; exact h.symm)
    | with_reducible rfl))

theorem setPoison_kept (s) : (setPoison s).kept = s.kept := by
  simp only [setPoison, ↓lapse_kept, ↓kept_upd]

theorem deliverPoison_kept (a0 a1 a2 s) : (deliverPoison a0 a1 a2 s).kept = s.kept := by
  unfold deliverPoison
  (repeat' (first
    | simp only [↓count_kept, ↓raise_kept, ↓logEntry_kept, ↓setPoison_kept, ↓kept_upd, ↓kept_updMem, ↓kept_updNvm,
        ↓kept_updBoth, ↓ite_kept, ↓ite_snd, ↓ite_fst, ite_self, implies_true]
    | with_reducible refine kept_ite ?_ ?_
    | with_reducible refine kept_ite_snd ?_ ?_
    | with_reducible refine kept_ite_fst ?_ ?_
    | with_reducible refine kept_ite_snd2 ?_ ?_
    | with_reducible refine ite_to ?_ ?_
    | with_reducible refine Eq.trans (kept_foldl _ ?_ _ _) ?_
    | intro _ _
    | with_reducible split
    | (have h := congrArg (fun x : _ × State => x.2.kept) ‹_ = (_, _)›; simp only [↓count_kept, ↓raise_kept,
        ↓logEntry_kept, ↓setPoison_kept, ] at h; exact h.symm)
    | (have h := congrArg (fun x : State × _ => x.1.kept) ‹_ = (_, _)›; simp only [↓count_kept, ↓raise_kept,
        ↓logEntry_kept, ↓setPoison_kept, ] at h; exact h.symm)
    | (have h := congrArg (fun x : _ × _ × State => x.2.2.kept) ‹_ = (_, _, _)›; simp only [↓count_kept, ↓raise_kept,
        ↓logEntry_kept, ↓setPoison_kept, ] at h; exact h.symm)
    | with_reducible rfl))

theorem dramWriteIn_keeps (a0 a1 s) : Keeps s (dramWriteIn a0 a1 s) := by
  rw [dramWriteIn]
  refine Keeps.ite (Keeps.rfl_ _) ?_
  have hw : ∀ u v,
      Keeps s { s with mem := { s.mem with dram := putBytes a0 a1 (if (s.mem.poison.contains (a0 / 8)) = true then putBytes (8 * (a0 / 8)) (List.replicate 8 0) s.mem.dram else s.mem.dram), poison := u, writeBack := v } } := by
    intro u v
    refine ⟨rfl, rfl, fun h => ?_, id, id⟩
    refine putBytes_wf _ _ ?_
    split
    · exact putBytes_wf _ _ h
    · exact h
  refine Keeps.ite ?_ ?_
  · exact (hw _ _).to_kept (count_kept ..)
  · exact hw _ _

theorem dramWrite_keeps (a0 a1 a2 s) : Keeps s (dramWrite a0 a1 a2 s) := by
  induction a0 generalizing a1 a2 s with
  | zero => exact Keeps.rfl_ _
  | succ n ih =>
    rw [dramWrite]
    refine Keeps.ite (Keeps.rfl_ _) ?_
    exact (dramWriteIn_keeps _ _ _).trans (ih _ _ _)

theorem dramPut_keeps (a0 a1 s) : Keeps s (dramPut a0 a1 s) := by
  unfold dramPut
  (repeat' (first
    | with_reducible exact Keeps.rfl_ _
    | with_reducible assumption
    | with_reducible refine Keeps.ite ?_ ?_
    | with_reducible refine Keeps.ite_snd ?_ ?_
    | with_reducible refine Keeps.trans ?_ (dramWrite_keeps ..)
    | with_reducible refine Keeps.foldl ?_ ?_
    | intro _ _
    | with_reducible split
    | simp only []
    | with_reducible refine Keeps.to_kept ?_ (kept_upd ..)
    | with_reducible refine Keeps.to_kept ?_ (kept_updMem ..)
    | with_reducible refine Keeps.to_kept ?_ (kept_updNvm ..)
    | with_reducible refine Keeps.to_kept ?_ (kept_updBoth ..)))

theorem correctRead_kept (a0 s) : (correctRead a0 s).kept = s.kept := by
  unfold correctRead
  (repeat' (first
    | simp only [↓count_kept, ↓kept_upd, ↓kept_updMem, ↓kept_updNvm, ↓kept_updBoth, ↓ite_kept, ↓ite_snd, ↓ite_fst,
        ite_self, implies_true]
    | with_reducible refine kept_ite ?_ ?_
    | with_reducible refine kept_ite_snd ?_ ?_
    | with_reducible refine kept_ite_fst ?_ ?_
    | with_reducible refine kept_ite_snd2 ?_ ?_
    | with_reducible refine ite_to ?_ ?_
    | with_reducible refine Eq.trans (kept_foldl _ ?_ _ _) ?_
    | intro _ _
    | with_reducible split
    | (have h := congrArg (fun x : _ × State => x.2.kept) ‹_ = (_, _)›; simp only [↓count_kept, ] at h; exact h.symm)
    | (have h := congrArg (fun x : State × _ => x.1.kept) ‹_ = (_, _)›; simp only [↓count_kept, ] at h; exact h.symm)
    | (have h := congrArg (fun x : _ × _ × State => x.2.2.kept) ‹_ = (_, _, _)›; simp only [↓count_kept, ] at h; exact h.symm)
    | with_reducible rfl))

theorem markPoison_kept (a0 s) : (markPoison a0 s).kept = s.kept := by
  unfold markPoison
  (repeat' (first
    | simp only [↓kept_upd, ↓kept_updMem, ↓kept_updNvm, ↓kept_updBoth, ↓ite_kept, ↓ite_snd, ↓ite_fst, ite_self, implies_true]
    | with_reducible refine kept_ite ?_ ?_
    | with_reducible refine kept_ite_snd ?_ ?_
    | with_reducible refine kept_ite_fst ?_ ?_
    | with_reducible refine kept_ite_snd2 ?_ ?_
    | with_reducible refine ite_to ?_ ?_
    | with_reducible refine Eq.trans (kept_foldl _ ?_ _ _) ?_
    | intro _ _
    | with_reducible split
    | (have h := congrArg (fun x : _ × State => x.2.kept) ‹_ = (_, _)›; simp only [] at h; exact h.symm)
    | (have h := congrArg (fun x : State × _ => x.1.kept) ‹_ = (_, _)›; simp only [] at h; exact h.symm)
    | (have h := congrArg (fun x : _ × _ × State => x.2.2.kept) ‹_ = (_, _, _)›; simp only [] at h; exact h.symm)
    | with_reducible rfl))

theorem sramPoison_kept (a0 a1 a2 s) : (sramPoison a0 a1 a2 s).kept = s.kept := by
  unfold sramPoison
  (repeat' (first
    | simp only [↓count_kept, ↓raise_kept, ↓logEntry_kept, ↓setPoison_kept, ↓kept_upd, ↓kept_updMem, ↓kept_updNvm,
        ↓kept_updBoth, ↓ite_kept, ↓ite_snd, ↓ite_fst, ite_self, implies_true]
    | with_reducible refine kept_ite ?_ ?_
    | with_reducible refine kept_ite_snd ?_ ?_
    | with_reducible refine kept_ite_fst ?_ ?_
    | with_reducible refine kept_ite_snd2 ?_ ?_
    | with_reducible refine ite_to ?_ ?_
    | with_reducible refine Eq.trans (kept_foldl _ ?_ _ _) ?_
    | intro _ _
    | with_reducible split
    | (have h := congrArg (fun x : _ × State => x.2.kept) ‹_ = (_, _)›; simp only [↓count_kept, ↓raise_kept,
        ↓logEntry_kept, ↓setPoison_kept, ] at h; exact h.symm)
    | (have h := congrArg (fun x : State × _ => x.1.kept) ‹_ = (_, _)›; simp only [↓count_kept, ↓raise_kept,
        ↓logEntry_kept, ↓setPoison_kept, ] at h; exact h.symm)
    | (have h := congrArg (fun x : _ × _ × State => x.2.2.kept) ‹_ = (_, _, _)›; simp only [↓count_kept, ↓raise_kept,
        ↓logEntry_kept, ↓setPoison_kept, ] at h; exact h.symm)
    | with_reducible rfl))

theorem refreshMode_kept (a0 s) : (refreshMode a0 s).kept = s.kept := by
  unfold refreshMode
  (repeat' (first
    | simp only [↓kept_upd, ↓kept_updMem, ↓kept_updNvm, ↓kept_updBoth, ↓ite_kept, ↓ite_snd, ↓ite_fst, ite_self, implies_true]
    | with_reducible refine kept_ite ?_ ?_
    | with_reducible refine kept_ite_snd ?_ ?_
    | with_reducible refine kept_ite_fst ?_ ?_
    | with_reducible refine kept_ite_snd2 ?_ ?_
    | with_reducible refine ite_to ?_ ?_
    | with_reducible refine Eq.trans (kept_foldl _ ?_ _ _) ?_
    | intro _ _
    | with_reducible split
    | (have h := congrArg (fun x : _ × State => x.2.kept) ‹_ = (_, _)›; simp only [] at h; exact h.symm)
    | (have h := congrArg (fun x : State × _ => x.1.kept) ‹_ = (_, _)›; simp only [] at h; exact h.symm)
    | (have h := congrArg (fun x : _ × _ × State => x.2.2.kept) ‹_ = (_, _, _)›; simp only [] at h; exact h.symm)
    | with_reducible rfl))

theorem hotChange_kept (a0 s) : (hotChange a0 s).kept = s.kept := by
  unfold hotChange
  extract_lets x0 x1
  have hx1 : x1.kept = s.kept := by
    unfold x1
    (repeat' (first
      | simp only [x0, ↓refreshMode_kept, ↓kept_upd, ↓kept_updMem, ↓kept_updNvm, ↓kept_updBoth, ↓ite_kept, ↓ite_snd,
          ↓ite_fst, ite_self, implies_true]
      | with_reducible refine kept_ite ?_ ?_
      | with_reducible refine kept_ite_snd ?_ ?_
      | with_reducible refine kept_ite_fst ?_ ?_
      | with_reducible refine kept_ite_snd2 ?_ ?_
      | with_reducible refine ite_to ?_ ?_
      | with_reducible refine Eq.trans (kept_foldl _ ?_ _ _) ?_
      | intro _ _
      | with_reducible split
      | (have h := congrArg (fun x : _ × State => x.2.kept) ‹_ = (_, _)›; simp only [↓refreshMode_kept, ] at h; exact h.symm)
      | (have h := congrArg (fun x : State × _ => x.1.kept) ‹_ = (_, _)›; simp only [↓refreshMode_kept, ] at h; exact h.symm)
      | (have h := congrArg (fun x : _ × _ × State => x.2.2.kept) ‹_ = (_, _, _)›; simp only [↓refreshMode_kept,
          ] at h; exact h.symm)
      | with_reducible rfl))
  try clear_value x1
  (repeat' (first
    | simp only [↓hx1, ↓refreshMode_kept, ↓kept_upd, ↓kept_updMem, ↓kept_updNvm, ↓kept_updBoth, ↓ite_kept, ↓ite_snd,
        ↓ite_fst, ite_self, implies_true]
    | with_reducible refine kept_ite ?_ ?_
    | with_reducible refine kept_ite_snd ?_ ?_
    | with_reducible refine kept_ite_fst ?_ ?_
    | with_reducible refine kept_ite_snd2 ?_ ?_
    | with_reducible refine ite_to ?_ ?_
    | with_reducible refine Eq.trans (kept_foldl _ ?_ _ _) ?_
    | intro _ _
    | with_reducible split
    | (have h := congrArg (fun x : _ × State => x.2.kept) ‹_ = (_, _)›; simp only [↓refreshMode_kept, ] at h; exact h.symm)
    | (have h := congrArg (fun x : State × _ => x.1.kept) ‹_ = (_, _)›; simp only [↓refreshMode_kept, ] at h; exact h.symm)
    | (have h := congrArg (fun x : _ × _ × State => x.2.2.kept) ‹_ = (_, _, _)›; simp only [↓refreshMode_kept,
        ] at h; exact h.symm)
    | with_reducible rfl))

theorem tempRead_kept (a0 s) : (tempRead a0 s).kept = s.kept := by
  unfold tempRead
  extract_lets x0 x1 x2
  try clear_value x1
  have hx2 : x2.kept = s.kept := by
    unfold x2
    (repeat' (first
      | simp only [x0, ↓refreshMode_kept, ↓raise_kept, ↓kept_upd, ↓kept_updMem, ↓kept_updNvm, ↓kept_updBoth, ↓ite_kept,
          ↓ite_snd, ↓ite_fst, ite_self, implies_true]
      | with_reducible refine kept_ite ?_ ?_
      | with_reducible refine kept_ite_snd ?_ ?_
      | with_reducible refine kept_ite_fst ?_ ?_
      | with_reducible refine kept_ite_snd2 ?_ ?_
      | with_reducible refine ite_to ?_ ?_
      | with_reducible refine Eq.trans (kept_foldl _ ?_ _ _) ?_
      | intro _ _
      | with_reducible split
      | (have h := congrArg (fun x : _ × State => x.2.kept) ‹_ = (_, _)›; simp only [↓refreshMode_kept, ↓raise_kept,
          ] at h; exact h.symm)
      | (have h := congrArg (fun x : State × _ => x.1.kept) ‹_ = (_, _)›; simp only [↓refreshMode_kept, ↓raise_kept,
          ] at h; exact h.symm)
      | (have h := congrArg (fun x : _ × _ × State => x.2.2.kept) ‹_ = (_, _, _)›; simp only [↓refreshMode_kept,
          ↓raise_kept, ] at h; exact h.symm)
      | with_reducible rfl))
  try clear_value x2
  (repeat' (first
    | simp only [x0, ↓hx2, ↓refreshMode_kept, ↓raise_kept, ↓kept_upd, ↓kept_updMem, ↓kept_updNvm, ↓kept_updBoth,
        ↓ite_kept, ↓ite_snd, ↓ite_fst, ite_self, implies_true]
    | with_reducible refine kept_ite ?_ ?_
    | with_reducible refine kept_ite_snd ?_ ?_
    | with_reducible refine kept_ite_fst ?_ ?_
    | with_reducible refine kept_ite_snd2 ?_ ?_
    | with_reducible refine ite_to ?_ ?_
    | with_reducible refine Eq.trans (kept_foldl _ ?_ _ _) ?_
    | intro _ _
    | with_reducible split
    | (have h := congrArg (fun x : _ × State => x.2.kept) ‹_ = (_, _)›; simp only [↓refreshMode_kept, ↓raise_kept,
        ] at h; exact h.symm)
    | (have h := congrArg (fun x : State × _ => x.1.kept) ‹_ = (_, _)›; simp only [↓refreshMode_kept, ↓raise_kept,
        ] at h; exact h.symm)
    | (have h := congrArg (fun x : _ × _ × State => x.2.2.kept) ‹_ = (_, _, _)›; simp only [↓refreshMode_kept,
        ↓raise_kept, ] at h; exact h.symm)
    | with_reducible rfl))

theorem channelFail_kept (a0 s) : (channelFail a0 s).kept = s.kept := by
  unfold channelFail
  (repeat' (first
    | simp only [↓raise_kept, ↓chanSet_kept, ↓kept_upd, ↓ite_kept, ite_self]
    | with_reducible refine kept_ite ?_ ?_
    | with_reducible split))

theorem busError_kept (a0 a1 a2 a3 s) : (busError a0 a1 a2 a3 s).kept = s.kept := by
  unfold busError
  extract_lets x0 x1
  try clear_value x0
  have hx1 : x1.kept = s.kept := by
    unfold x1
    (repeat' (first
      | simp only [↓raise_kept, ↓count_kept, ↓kept_upd, ↓ite_kept, ite_self]
      | with_reducible refine kept_ite ?_ ?_
      | with_reducible split))
  try clear_value x1
  (repeat' (first
    | simp only [↓hx1, ↓raise_kept, ↓count_kept, ↓kept_upd, ↓ite_kept, ite_self]
    | with_reducible refine kept_ite ?_ ?_
    | with_reducible split))

theorem windowRead_kept (a0 a1 s) : (windowRead a0 a1 s).2.2.kept = s.kept := by
  simp only [windowRead]; split <;> rfl

theorem windowWrite_keeps (a0 a1 a2 s) : Keeps s (windowWrite a0 a1 a2 s).2 := by
  simp only [windowWrite]; split
  · exact Keeps.rfl_ _
  split
  · exact Keeps.rfl_ _
  · exact dramPut_keeps ..

/-! ### Objects -/

theorem objSet_kept (a0 a1 s) : (objSet a0 a1 s).kept = s.kept := by
  simp only [objSet, ↓kept_upd]

theorem kfNote_kept (a0 a1 a2 s) : (kfNote a0 a1 a2 s).kept = s.kept := by
  simp only [kfNote, ↓raiseTick_kept, ↓count_kept, ↓kept_upd]

theorem enterKeyframe_kept (a0 a1 s) : (enterKeyframe a0 a1 s).kept = s.kept := by
  unfold enterKeyframe
  extract_lets x0 x1 x2 x3 x4
  try clear_value x0
  have hx2 : x2.kept = s.kept := by
    unfold x2
    (repeat' (first
      | simp only [↓kfNote_kept, ↓objSet_kept, ↓kept_upd, ↓ite_kept, ite_self]
      | with_reducible refine kept_ite ?_ ?_
      | with_reducible split))
  try clear_value x2
  try clear_value x3
  have hx4 : x4.kept = s.kept := by
    unfold x4
    (repeat' (first
      | simp only [↓hx2, ↓kfNote_kept, ↓objSet_kept, ↓kept_upd, ↓ite_kept, ite_self]
      | with_reducible refine kept_ite ?_ ?_
      | with_reducible split))
  try clear_value x4
  (repeat' (first
    | simp only [x1, ↓hx2, ↓hx4, ↓kfNote_kept, ↓objSet_kept, ↓kept_upd, ↓ite_kept, ite_self]
    | with_reducible refine kept_ite ?_ ?_
    | with_reducible split))

theorem fnSet_kept (a0 a1 a2 s) : (fnSet a0 a1 a2 s).kept = s.kept := by
  simp only [fnSet, ↓kept_upd]

theorem idleDrop_kept (a0 s) : (idleDrop a0 s).kept = s.kept := by
  simp only [idleDrop, ↓count_kept, ↓kept_upd]

theorem enterRecord_kept (a0 a1 s) : (enterRecord a0 a1 s).kept = s.kept := by
  unfold enterRecord
  (repeat' (first
    | simp only [↓kfNote_kept, ↓idleDrop_kept, ↓enterKeyframe_kept, ↓kept_upd, ↓ite_kept, ite_self]
    | with_reducible refine kept_ite ?_ ?_
    | with_reducible split))

theorem noteClamps_kept (a0 a1 a2 a3 s) : (noteClamps a0 a1 a2 a3 s).2.kept = s.kept := by
  unfold noteClamps
  extract_lets x0 x1 x2 x3
  have hx0 : x0.kept = s.kept := by
    unfold x0
    (repeat' (first
      | simp only [↓count_kept, ↓raise_kept, ↓kept_upd, ↓ite_kept, ite_self]
      | with_reducible refine kept_ite ?_ ?_
      | with_reducible split))
  try clear_value x0
  have hx1 : x1.kept = s.kept := by
    unfold x1
    (repeat' (first
      | simp only [↓hx0, ↓count_kept, ↓raise_kept, ↓kept_upd, ↓ite_kept, ite_self]
      | with_reducible refine kept_ite ?_ ?_
      | with_reducible split))
  try clear_value x1
  have hx2 : x2.kept = s.kept := by
    unfold x2
    (repeat' (first
      | simp only [↓hx0, ↓hx1, ↓count_kept, ↓raise_kept, ↓kept_upd, ↓ite_kept, ite_self]
      | with_reducible refine kept_ite ?_ ?_
      | with_reducible split))
  try clear_value x2
  have hx3 : x3.kept = s.kept := by
    unfold x3
    (repeat' (first
      | simp only [↓hx0, ↓hx1, ↓hx2, ↓count_kept, ↓raise_kept, ↓kept_upd, ↓ite_kept, ite_self]
      | with_reducible refine kept_ite ?_ ?_
      | with_reducible split))
  try clear_value x3
  (repeat' (first
    | simp only [↓hx0, ↓hx1, ↓hx2, ↓hx3, ↓count_kept, ↓raise_kept, ↓kept_upd, ↓ite_kept, ite_self]
    | with_reducible refine kept_ite ?_ ?_
    | with_reducible split))

theorem ringPut_keeps (a0 a1 a2 s) : Keeps s (ringPut a0 a1 a2 s) := by
  unfold ringPut
  (repeat' (first
    | with_reducible exact Keeps.rfl_ _
    | with_reducible assumption
    | with_reducible refine Keeps.ite ?_ ?_
    | with_reducible refine Keeps.ite_snd ?_ ?_
    | with_reducible refine Keeps.trans ?_ (dramPut_keeps ..)
    | with_reducible refine Keeps.foldl ?_ ?_
    | intro _ _
    | with_reducible split
    | simp only []
    | with_reducible refine Keeps.to_kept ?_ (kept_upd ..)
    | with_reducible refine Keeps.to_kept ?_ (kept_updMem ..)
    | with_reducible refine Keeps.to_kept ?_ (kept_updNvm ..)
    | with_reducible refine Keeps.to_kept ?_ (kept_updBoth ..)))

theorem delayStep_kept (a0 a1 s) : (delayStep a0 a1 s).kept = s.kept := by
  simp only [delayStep, ↓objSet_kept, ↓kept_upd]

/-! ### Panning -/

theorem panRun_kept (a0 a1 a2 a3 s) : (panRun a0 a1 a2 a3 s).2.kept = s.kept := by
  unfold panRun
  (repeat' (first
    | simp only [↓raise_kept, ↓kept_upd, ↓ite_kept, ite_self]
    | with_reducible refine kept_ite ?_ ?_
    | with_reducible split))

theorem panStep_kept (a0 a1 a2 s) : (panStep a0 a1 a2 s).2.kept = s.kept := by
  unfold panStep
  extract_lets x0 x1 x2 x3 x4 x5 x6 x7 x8 x9
  try clear_value x0
  try clear_value x1
  try clear_value x2
  try clear_value x3
  have hx5 : x5.kept = s.kept := by
    unfold x5
    (repeat' (first
      | simp only [x4, ↓raise_kept, ↓count_kept, ↓panRun_kept, ↓kept_upd, ↓ite_kept, ite_self]
      | with_reducible refine kept_ite ?_ ?_
      | with_reducible split))
  try clear_value x5
  have hx6 : x6.kept = s.kept := by
    unfold x6
    (repeat' (first
      | simp only [x4, ↓hx5, ↓raise_kept, ↓count_kept, ↓panRun_kept, ↓kept_upd, ↓ite_kept, ite_self]
      | with_reducible refine kept_ite ?_ ?_
      | with_reducible split))
  try clear_value x6
  have hx7 : x7.kept = s.kept := by
    unfold x7
    (repeat' (first
      | simp only [x4, ↓hx5, ↓hx6, ↓raise_kept, ↓count_kept, ↓panRun_kept, ↓kept_upd, ↓ite_kept, ite_self]
      | with_reducible refine kept_ite ?_ ?_
      | with_reducible split))
  try clear_value x7
  have hx8 : x8.kept = s.kept := by
    unfold x8
    (repeat' (first
      | simp only [x4, ↓hx5, ↓hx6, ↓hx7, ↓raise_kept, ↓count_kept, ↓panRun_kept, ↓kept_upd, ↓ite_kept, ite_self]
      | with_reducible refine kept_ite ?_ ?_
      | with_reducible split))
  try clear_value x8
  have hx9 : x9.kept = s.kept := by
    unfold x9
    (repeat' (first
      | simp only [↓hx5, ↓hx6, ↓hx7, ↓hx8, ↓raise_kept, ↓count_kept, ↓panRun_kept, ↓kept_upd, ↓ite_kept, ite_self]
      | with_reducible refine kept_ite ?_ ?_
      | with_reducible split))
  try clear_value x9
  (repeat' (first
    | simp only [↓hx5, ↓hx6, ↓hx7, ↓hx8, ↓hx9, ↓raise_kept, ↓count_kept, ↓panRun_kept, ↓kept_upd, ↓ite_kept, ite_self]
    | with_reducible refine kept_ite ?_ ?_
    | with_reducible split))

theorem panSection_kept (a0 s) : (panSection a0 s).kept = s.kept := by
  unfold panSection
  with_reducible refine kept_ite rfl ?_
  simp only [objSet_kept]
  refine kept_foldl_snd _ ?_ _ _
  intro p x
  simp only [panStep_kept]

/-! ### Matrix -/

theorem noteBusSat_kept (a0 s) : (noteBusSat a0 s).kept = s.kept := by
  unfold noteBusSat
  extract_lets x0 x1
  have hx0 : x0.kept = s.kept := by
    unfold x0
    (repeat' (first
      | simp only [↓raiseOnce_kept, ↓count_kept, ↓kept_upd, ↓ite_kept, ite_self]
      | with_reducible refine kept_ite ?_ ?_
      | with_reducible split))
  try clear_value x0
  try clear_value x1
  (repeat' (first
    | simp only [↓hx0, ↓raiseOnce_kept, ↓count_kept, ↓kept_upd, ↓ite_kept, ite_self]
    | with_reducible refine kept_ite ?_ ?_
    | with_reducible split))

theorem matrixSection_kept (a0 a1 s) : (matrixSection a0 a1 s).kept = s.kept := by
  unfold matrixSection
  (repeat' (first
    | simp only [↓noteBusSat_kept, ↓kept_upd, ↓kept_updMem, ↓kept_updNvm, ↓kept_updBoth, ↓ite_kept, ↓ite_snd, ↓ite_fst,
        ite_self, implies_true]
    | with_reducible refine kept_ite ?_ ?_
    | with_reducible refine kept_ite_snd ?_ ?_
    | with_reducible refine kept_ite_fst ?_ ?_
    | with_reducible refine kept_ite_snd2 ?_ ?_
    | with_reducible refine ite_to ?_ ?_
    | with_reducible refine Eq.trans (kept_foldl _ ?_ _ _) ?_
    | intro _ _
    | with_reducible split
    | (have h := congrArg (fun x : _ × State => x.2.kept) ‹_ = (_, _)›; simp only [↓noteBusSat_kept, ] at h; exact h.symm)
    | (have h := congrArg (fun x : State × _ => x.1.kept) ‹_ = (_, _)›; simp only [↓noteBusSat_kept, ] at h; exact h.symm)
    | (have h := congrArg (fun x : _ × _ × State => x.2.2.kept) ‹_ = (_, _, _)›; simp only [↓noteBusSat_kept,
        ] at h; exact h.symm)
    | with_reducible rfl))

theorem matrixReport_kept (a0 s) : (matrixReport a0 s).kept = s.kept := by
  simp only [matrixReport, ↓kept_upd]

theorem matrixTick_kept (a0 s) : (matrixTick a0 s).kept = s.kept := by
  simp only [matrixTick, ↓kept_upd]

/-! ### Chains -/

theorem chSet_kept (a0 a1 s) : (chSet a0 a1 s).kept = s.kept := by
  simp only [chSet, ↓kept_upd]

theorem noteSpkSat_kept (a0 a1 a2 s) : (noteSpkSat a0 a1 a2 s).kept = s.kept := by
  unfold noteSpkSat
  (repeat' (first
    | simp only [↓count_kept, ↓chSet_kept, ↓raise_kept, ↓kept_upd, ↓ite_kept, ite_self]
    | with_reducible refine kept_ite ?_ ?_
    | with_reducible split))

theorem spkDynamics_kept (a0 a1 s) : (spkDynamics a0 a1 s).kept = s.kept := by
  unfold spkDynamics
  (repeat' (first
    | simp only [↓noteSpkSat_kept, ↓chSet_kept, ↓kept_upd, ↓ite_kept, ite_self]
    | with_reducible refine kept_ite ?_ ?_
    | with_reducible split))

theorem genOutput_kept (a0 a1 s) : (genOutput a0 a1 s).kept = s.kept := by
  unfold genOutput
  extract_lets x0 x1 x2 x3 x4
  try clear_value x0
  try clear_value x1
  try clear_value x2
  try clear_value x3
  have hx4 : x4.kept = s.kept := by
    unfold x4
    (repeat' (first
      | simp only [↓kept_upd, ↓kept_updMem, ↓kept_updNvm, ↓kept_updBoth, ↓ite_kept, ↓ite_snd, ↓ite_fst, ite_self, implies_true]
      | with_reducible refine kept_ite ?_ ?_
      | with_reducible refine kept_ite_snd ?_ ?_
      | with_reducible refine kept_ite_fst ?_ ?_
      | with_reducible refine kept_ite_snd2 ?_ ?_
      | with_reducible refine ite_to ?_ ?_
      | with_reducible refine Eq.trans (kept_foldl _ ?_ _ _) ?_
      | intro _ _
      | with_reducible split
      | (have h := congrArg (fun x : _ × State => x.2.kept) ‹_ = (_, _)›; simp only [] at h; exact h.symm)
      | (have h := congrArg (fun x : State × _ => x.1.kept) ‹_ = (_, _)›; simp only [] at h; exact h.symm)
      | (have h := congrArg (fun x : _ × _ × State => x.2.2.kept) ‹_ = (_, _, _)›; simp only [] at h; exact h.symm)
      | with_reducible rfl))
  try clear_value x4
  (repeat' (first
    | simp only [↓hx4, ↓kept_upd, ↓kept_updMem, ↓kept_updNvm, ↓kept_updBoth, ↓ite_kept, ↓ite_snd, ↓ite_fst, ite_self,
        implies_true]
    | with_reducible refine kept_ite ?_ ?_
    | with_reducible refine kept_ite_snd ?_ ?_
    | with_reducible refine kept_ite_fst ?_ ?_
    | with_reducible refine kept_ite_snd2 ?_ ?_
    | with_reducible refine ite_to ?_ ?_
    | with_reducible refine Eq.trans (kept_foldl _ ?_ _ _) ?_
    | intro _ _
    | with_reducible split
    | (have h := congrArg (fun x : _ × State => x.2.kept) ‹_ = (_, _)›; simp only [] at h; exact h.symm)
    | (have h := congrArg (fun x : State × _ => x.1.kept) ‹_ = (_, _)›; simp only [] at h; exact h.symm)
    | (have h := congrArg (fun x : _ × _ × State => x.2.2.kept) ‹_ = (_, _, _)›; simp only [] at h; exact h.symm)
    | with_reducible rfl))

theorem spkOutput_kept (a0 a1 a2 s) : (spkOutput a0 a1 a2 s).kept = s.kept := by
  simp only [spkOutput, ↓noteSpkSat_kept, ↓chSet_kept, ↓kept_upd]

theorem directSection_kept (a0 a1 s) : (directSection a0 a1 s).kept = s.kept := by
  unfold directSection
  (repeat' (first
    | simp only [↓chSet_kept, ↓noteSpkSat_kept, ↓noteBusSat_kept, ↓kept_upd, ↓ite_kept, ite_self]
    | with_reducible refine kept_ite ?_ ?_
    | with_reducible split))

theorem chainInit_kept (a0 a1 s) : (chainInit a0 a1 s).kept = s.kept := by
  simp only [chainInit, ↓chSet_kept, ↓kept_upd]

theorem chainRestart_kept (a0 s) : (chainRestart a0 s).kept = s.kept := by
  unfold chainRestart
  extract_lets x0 x1 x2
  try clear_value x0
  have hx1 : x1.kept = s.kept := by
    unfold x1
    (repeat' (first
      | simp only [↓chainInit_kept, ↓chSet_kept, ↓kept_upd, ↓ite_kept, ite_self]
      | with_reducible refine kept_ite ?_ ?_
      | with_reducible split))
  try clear_value x1
  try clear_value x2
  (repeat' (first
    | simp only [↓hx1, ↓chainInit_kept, ↓chSet_kept, ↓kept_upd, ↓ite_kept, ite_self]
    | with_reducible refine kept_ite ?_ ?_
    | with_reducible split))

/-! ### Convolution -/

theorem slotSet_kept (a0 a1 s) : (slotSet a0 a1 s).kept = s.kept := by
  simp only [slotSet, ↓kept_upd]

theorem convSet_kept (a0 a1 s) : (convSet a0 a1 s).kept = s.kept := by
  simp only [convSet, ↓kept_upd]

theorem convSection_kept (a0 a1 s) : (convSection a0 a1 s).kept = s.kept := by
  unfold convSection
  (repeat' (first
    | simp only [↓setPoison_kept, ↓count_kept, ↓spkOutput_kept, ↓noteSpkSat_kept, ↓kept_upd, ↓ite_kept, ite_self]
    | with_reducible refine kept_ite ?_ ?_
    | with_reducible split))

theorem slotTick_kept (s) : (slotTick s).kept = s.kept := by
  simp only [slotTick, ↓kept_upd]

theorem crossfadeEnd_kept (a0 s) : (crossfadeEnd a0 s).kept = s.kept := by
  unfold crossfadeEnd
  (repeat' (first
    | simp only [↓convSet_kept, ↓kept_upd, ↓ite_kept, ite_self]
    | with_reducible refine kept_ite ?_ ?_
    | with_reducible split))

theorem tgSet_kept (a0 a1 s) : (tgSet a0 a1 s).kept = s.kept := by
  simp only [tgSet, ↓kept_upd]

theorem toneSection_kept (a0 a1 s) : (toneSection a0 a1 s).kept = s.kept := by
  unfold toneSection
  (repeat' (first
    | simp only [↓tgSet_kept, ↓kept_upd, ↓ite_kept, ite_self]
    | with_reducible refine kept_ite ?_ ?_
    | with_reducible split))

theorem toneMode_kept (a0 a1 s) : (toneMode a0 a1 s).kept = s.kept := by
  unfold toneMode
  (repeat' (first
    | simp only [↓tgSet_kept, ↓kept_upd, ↓ite_kept, ite_self]
    | with_reducible refine kept_ite ?_ ?_
    | with_reducible split))

theorem toneStart_kept (a0 s) : (toneStart a0 s).kept = s.kept := by
  unfold toneStart
  (repeat' (first
    | simp only [↓tgSet_kept, ↓kept_upd, ↓ite_kept, ite_self]
    | with_reducible refine kept_ite ?_ ?_
    | with_reducible split))

theorem sweepStart_kept (a0 s) : (sweepStart a0 s).kept = s.kept := by
  unfold sweepStart
  (repeat' (first
    | simp only [↓tgSet_kept, ↓kept_upd, ↓ite_kept, ite_self]
    | with_reducible refine kept_ite ?_ ?_
    | with_reducible split))

end Sys2Proof.Machine
end

