-- ==== Sys2Proof/Laws/KeptPorts.lean ====
section
/-!
SUPPORT. What the functions of the model leave alone (the analog ports, the twin-link frames, the serial ports, the network and time): the queue, the byte stores and the flash.
-/
set_option linter.all false

namespace Sys2Proof.Machine

/-! ### Analog -/

theorem adcSet_kept (a0 a1 s) : (adcSet a0 a1 s).kept = s.kept := by
  simp only [adcSet, ↓kept_upd]

theorem dacSet_kept (a0 a1 s) : (dacSet a0 a1 s).kept = s.kept := by
  simp only [dacSet, ↓kept_upd]

theorem ampSet_kept (a0 a1 s) : (ampSet a0 a1 s).kept = s.kept := by
  simp only [ampSet, ↓kept_upd]

theorem hsSet_kept (a0 a1 s) : (hsSet a0 a1 s).kept = s.kept := by
  simp only [hsSet, ↓kept_upd]

theorem adcSub_kept (a0 a1 a2 a3 a4 a5 s) : (adcSub a0 a1 a2 a3 a4 a5 s).kept = s.kept := by
  unfold adcSub
  (repeat' (first
    | simp only [↓adcSet_kept, ↓kept_upd, ↓ite_kept, ite_self]
    | with_reducible refine kept_ite ?_ ?_
    | with_reducible split))

theorem adcBlock_kept (a0 s) : (adcBlock a0 s).kept = s.kept := by
  unfold adcBlock
  extract_lets x0 x1 x2 x3 x4
  try clear_value x0
  try clear_value x1
  try clear_value x2
  have hx3 : x3.kept = s.kept := by
    unfold x3
    (repeat' (first
      | simp only [↓adcSet_kept, ↓count_kept, ↓raiseTick_kept, ↓kept_upd, ↓ite_kept, ite_self]
      | with_reducible refine kept_ite ?_ ?_
      | with_reducible split))
  try clear_value x3
  have hx4 : x4.kept = s.kept := by
    unfold x4
    (repeat' (first
      | simp only [↓hx3, ↓adcSet_kept, ↓count_kept, ↓raiseTick_kept, ↓kept_upd, ↓ite_kept, ite_self]
      | with_reducible refine kept_ite ?_ ?_
      | with_reducible split))
  try clear_value x4
  (repeat' (first
    | simp only [↓hx3, ↓hx4, ↓adcSet_kept, ↓count_kept, ↓raiseTick_kept, ↓kept_upd, ↓ite_kept, ite_self]
    | with_reducible refine kept_ite ?_ ?_
    | with_reducible split))

theorem dacSub_kept (a0 a1 s) : (dacSub a0 a1 s).kept = s.kept := by
  unfold dacSub
  (repeat' (first
    | simp only [↓dacSet_kept, ↓kept_upd, ↓ite_kept, ite_self]
    | with_reducible refine kept_ite ?_ ?_
    | with_reducible split))

theorem dacFix_kept (a0 a1 a2 s) : (dacFix a0 a1 a2 s).kept = s.kept := by
  simp only [dacFix, ↓dacSet_kept, ↓kept_upd]

theorem dacCheck_kept (a0 a1 a2 a3 s) : (dacCheck a0 a1 a2 a3 s).kept = s.kept := by
  unfold dacCheck
  extract_lets x0 x1 x2 x3 x4 x5 x6 x7 x8 x9
  try clear_value x0
  try clear_value x1
  try clear_value x2
  try clear_value x3
  try clear_value x4
  try clear_value x5
  try clear_value x6
  try clear_value x7
  have hx8 : x8.kept = s.kept := by
    unfold x8
    (repeat' (first
      | simp only [↓dacSet_kept, ↓raise_kept, ↓count_kept, ↓kept_upd, ↓ite_kept, ite_self]
      | with_reducible refine kept_ite ?_ ?_
      | with_reducible split))
  try clear_value x8
  have hx9 : x9.kept = s.kept := by
    unfold x9
    (repeat' (first
      | simp only [↓hx8, ↓dacSet_kept, ↓raise_kept, ↓count_kept, ↓kept_upd, ↓ite_kept, ite_self]
      | with_reducible refine kept_ite ?_ ?_
      | with_reducible split))
  try clear_value x9
  (repeat' (first
    | simp only [↓hx8, ↓hx9, ↓dacSet_kept, ↓raise_kept, ↓count_kept, ↓kept_upd, ↓ite_kept, ite_self]
    | with_reducible refine kept_ite ?_ ?_
    | with_reducible split))

theorem dacMuteEnd_kept (a0 s) : (dacMuteEnd a0 s).kept = s.kept := by
  unfold dacMuteEnd
  (repeat' (first
    | simp only [↓dacSet_kept, ↓kept_upd, ↓ite_kept, ite_self]
    | with_reducible refine kept_ite ?_ ?_
    | with_reducible split))

theorem dacUnderrun_kept (a0 a1 a2 s) : (dacUnderrun a0 a1 a2 s).kept = s.kept := by
  unfold dacUnderrun
  (repeat' (first
    | simp only [↓dacSet_kept, ↓raise_kept, ↓count_kept, ↓kept_upd, ↓ite_kept, ite_self]
    | with_reducible refine kept_ite ?_ ?_
    | with_reducible split))

theorem hsDet_kept (a0 a1 s) : (hsDet a0 a1 s).kept = s.kept := by
  simp only [hsDet, ↓hsSet_kept, ↓kept_upd]

theorem hsInsert_kept (a0 s) : (hsInsert a0 s).kept = s.kept := by
  unfold hsInsert
  (repeat' (first
    | simp only [↓raise_kept, ↓hsSet_kept, ↓kept_upd, ↓ite_kept, ite_self]
    | with_reducible refine kept_ite ?_ ?_
    | with_reducible split))

theorem hsRemove_kept (a0 s) : (hsRemove a0 s).kept = s.kept := by
  unfold hsRemove
  (repeat' (first
    | simp only [↓raise_kept, ↓hsSet_kept, ↓kept_upd, ↓ite_kept, ite_self]
    | with_reducible refine kept_ite ?_ ?_
    | with_reducible split))

theorem hsClassify_kept (a0 s) : (hsClassify a0 s).kept = s.kept := by
  unfold hsClassify
  (repeat' (first
    | simp only [↓hsSet_kept, ↓kept_upd, ↓ite_kept, ite_self]
    | with_reducible refine kept_ite ?_ ?_
    | with_reducible split))

theorem hsTypeRule_kept (a0 a1 s) : (hsTypeRule a0 a1 s).kept = s.kept := by
  unfold hsTypeRule
  (repeat' (first
    | simp only [↓hsSet_kept, ↓raise_kept, ↓kept_upd, ↓ite_kept, ite_self]
    | with_reducible refine kept_ite ?_ ?_
    | with_reducible split))

theorem hsButtonRule_kept (a0 a1 s) : (hsButtonRule a0 a1 s).kept = s.kept := by
  unfold hsButtonRule
  (repeat' (first
    | simp only [↓raise_kept, ↓count_kept, ↓hsSet_kept, ↓kept_upd, ↓ite_kept, ite_self]
    | with_reducible refine kept_ite ?_ ?_
    | with_reducible split))

theorem hsMeasure_kept (a0 a1 s) : (hsMeasure a0 a1 s).kept = s.kept := by
  unfold hsMeasure
  extract_lets x0 x1
  try clear_value x0
  have hx1 : x1.kept = s.kept := by
    unfold x1
    (repeat' (first
      | simp only [↓hsSet_kept, ↓hsButtonRule_kept, ↓hsTypeRule_kept, ↓kept_upd, ↓ite_kept, ite_self]
      | with_reducible refine kept_ite ?_ ?_
      | with_reducible split))
  try clear_value x1
  (repeat' (first
    | simp only [↓hx1, ↓hsSet_kept, ↓hsButtonRule_kept, ↓hsTypeRule_kept, ↓kept_upd, ↓ite_kept, ite_self]
    | with_reducible refine kept_ite ?_ ?_
    | with_reducible split))

theorem hsFade_kept (a0 s) : (hsFade a0 s).kept = s.kept := by
  unfold hsFade
  (repeat' (first
    | simp only [↓hsSet_kept, ↓kept_upd, ↓ite_kept, ite_self]
    | with_reducible refine kept_ite ?_ ?_
    | with_reducible split))

theorem hsResume_kept (a0 s) : (hsResume a0 s).kept = s.kept := by
  unfold hsResume
  (repeat' (first
    | simp only [↓hsSet_kept, ↓kept_upd, ↓ite_kept, ite_self]
    | with_reducible refine kept_ite ?_ ?_
    | with_reducible split))

theorem ampSub_kept (a0 a1 s) : (ampSub a0 a1 s).kept = s.kept := by
  unfold ampSub
  (repeat' (first
    | simp only [↓count_kept, ↓ampSet_kept, ↓kept_upd, ↓ite_kept, ite_self]
    | with_reducible refine kept_ite ?_ ?_
    | with_reducible split))

theorem ampLatch_kept (a0 s) : (ampLatch a0 s).kept = s.kept := by
  simp only [ampLatch, ↓raise_kept, ↓ampSet_kept, ↓kept_upd]

theorem ampLimit_kept (a0 a1 s) : (ampLimit a0 a1 s).kept = s.kept := by
  unfold ampLimit
  extract_lets x0 x1 x2 x3 x4
  try clear_value x0
  try clear_value x1
  have hx2 : x2.kept = s.kept := by
    unfold x2
    (repeat' (first
      | simp only [↓count_kept, ↓ampSet_kept, ↓raise_kept, ↓ampLatch_kept, ↓kept_upd, ↓ite_kept, ite_self]
      | with_reducible refine kept_ite ?_ ?_
      | with_reducible split))
  try clear_value x2
  try clear_value x3
  have hx4 : x4.kept = s.kept := by
    unfold x4
    (repeat' (first
      | simp only [↓hx2, ↓count_kept, ↓ampSet_kept, ↓raise_kept, ↓ampLatch_kept, ↓kept_upd, ↓ite_kept, ite_self]
      | with_reducible refine kept_ite ?_ ?_
      | with_reducible split))
  try clear_value x4
  (repeat' (first
    | simp only [↓hx2, ↓hx4, ↓count_kept, ↓ampSet_kept, ↓raise_kept, ↓ampLatch_kept, ↓kept_upd, ↓ite_kept, ite_self]
    | with_reducible refine kept_ite ?_ ?_
    | with_reducible split))

theorem ampWaitEnd_kept (a0 s) : (ampWaitEnd a0 s).kept = s.kept := by
  unfold ampWaitEnd
  (repeat' (first
    | simp only [↓ampSet_kept, ↓kept_upd, ↓ite_kept, ite_self]
    | with_reducible refine kept_ite ?_ ?_
    | with_reducible split))

theorem ampResume_kept (a0 s) : (ampResume a0 s).kept = s.kept := by
  unfold ampResume
  (repeat' (first
    | simp only [↓ampSet_kept, ↓kept_upd, ↓ite_kept, ite_self]
    | with_reducible refine kept_ite ?_ ?_
    | with_reducible split))

theorem ampClean_kept (a0 s) : (ampClean a0 s).kept = s.kept := by
  unfold ampClean
  (repeat' (first
    | simp only [↓ampSet_kept, ↓kept_upd, ↓ite_kept, ite_self]
    | with_reducible refine kept_ite ?_ ?_
    | with_reducible split))

theorem ampDc_kept (a0 a1 s) : (ampDc a0 a1 s).kept = s.kept := by
  unfold ampDc
  (repeat' (first
    | simp only [↓raise_kept, ↓ampLatch_kept, ↓ampSet_kept, ↓kept_upd, ↓ite_kept, ite_self]
    | with_reducible refine kept_ite ?_ ?_
    | with_reducible split))

theorem ampClear_kept (a0 s) : (ampClear a0 s).kept = s.kept := by
  unfold ampClear
  (repeat' (first
    | simp only [↓ampSet_kept, ↓kept_upd, ↓ite_kept, ite_self]
    | with_reducible refine kept_ite ?_ ?_
    | with_reducible split))

theorem pvddFall_kept (s) : (pvddFall s).kept = s.kept := by
  simp only [pvddFall, ↓kept_upd]

theorem pvddRise_kept (s) : (pvddRise s).kept = s.kept := by
  unfold pvddRise
  extract_lets x0 x1
  try clear_value x0
  have hx1 : x1.kept = s.kept := by
    unfold x1
    (repeat' (first
      | simp only [↓ampSet_kept, ↓kept_upd, ↓kept_updMem, ↓kept_updNvm, ↓kept_updBoth, ↓ite_kept, ↓ite_snd, ↓ite_fst,
          ite_self, implies_true]
      | with_reducible refine kept_ite ?_ ?_
      | with_reducible refine kept_ite_snd ?_ ?_
      | with_reducible refine kept_ite_fst ?_ ?_
      | with_reducible refine kept_ite_snd2 ?_ ?_
      | with_reducible refine ite_to ?_ ?_
      | with_reducible refine Eq.trans (kept_foldl _ ?_ _ _) ?_
      | intro _ _
      | with_reducible split
      | (have h := congrArg (fun x : _ × State => x.2.kept) ‹_ = (_, _)›; simp only [↓ampSet_kept, ] at h; exact h.symm)
      | (have h := congrArg (fun x : State × _ => x.1.kept) ‹_ = (_, _)›; simp only [↓ampSet_kept, ] at h; exact h.symm)
      | (have h := congrArg (fun x : _ × _ × State => x.2.2.kept) ‹_ = (_, _, _)›; simp only [↓ampSet_kept,
          ] at h; exact h.symm)
      | with_reducible rfl))
  try clear_value x1
  (repeat' (first
    | simp only [↓hx1, ↓ampSet_kept, ↓kept_upd, ↓kept_updMem, ↓kept_updNvm, ↓kept_updBoth, ↓ite_kept, ↓ite_snd, ↓ite_fst,
        ite_self, implies_true]
    | with_reducible refine kept_ite ?_ ?_
    | with_reducible refine kept_ite_snd ?_ ?_
    | with_reducible refine kept_ite_fst ?_ ?_
    | with_reducible refine kept_ite_snd2 ?_ ?_
    | with_reducible refine ite_to ?_ ?_
    | with_reducible refine Eq.trans (kept_foldl _ ?_ _ _) ?_
    | intro _ _
    | with_reducible split
    | (have h := congrArg (fun x : _ × State => x.2.kept) ‹_ = (_, _)›; simp only [↓ampSet_kept, ] at h; exact h.symm)
    | (have h := congrArg (fun x : State × _ => x.1.kept) ‹_ = (_, _)›; simp only [↓ampSet_kept, ] at h; exact h.symm)
    | (have h := congrArg (fun x : _ × _ × State => x.2.2.kept) ‹_ = (_, _, _)›; simp only [↓ampSet_kept, ] at h; exact h.symm)
    | with_reducible rfl))

theorem adcArrive_kept (a0 a1 a2 s) : (adcArrive a0 a1 a2 s).kept = s.kept := by
  unfold adcArrive
  (repeat' (first
    | simp only [↓adcSub_kept, ↓kept_upd, ↓kept_updMem, ↓kept_updNvm, ↓kept_updBoth, ↓ite_kept, ↓ite_snd, ↓ite_fst,
        ite_self, implies_true]
    | with_reducible refine kept_ite ?_ ?_
    | with_reducible refine kept_ite_snd ?_ ?_
    | with_reducible refine kept_ite_fst ?_ ?_
    | with_reducible refine kept_ite_snd2 ?_ ?_
    | with_reducible refine ite_to ?_ ?_
    | with_reducible refine Eq.trans (kept_foldl _ ?_ _ _) ?_
    | intro _ _
    | with_reducible split
    | (have h := congrArg (fun x : _ × State => x.2.kept) ‹_ = (_, _)›; simp only [↓adcSub_kept, ] at h; exact h.symm)
    | (have h := congrArg (fun x : State × _ => x.1.kept) ‹_ = (_, _)›; simp only [↓adcSub_kept, ] at h; exact h.symm)
    | (have h := congrArg (fun x : _ × _ × State => x.2.2.kept) ‹_ = (_, _, _)›; simp only [↓adcSub_kept, ] at h; exact h.symm)
    | with_reducible rfl))

theorem analogSub_kept (a0 s) : (analogSub a0 s).kept = s.kept := by
  unfold analogSub
  extract_lets x0
  have hx0 : x0.kept = s.kept := by
    unfold x0
    (repeat' (first
      | simp only [↓dacSub_kept, ↓ampSub_kept, ↓kept_upd, ↓kept_updMem, ↓kept_updNvm, ↓kept_updBoth, ↓ite_kept, ↓ite_snd,
          ↓ite_fst, ite_self, implies_true]
      | with_reducible refine kept_ite ?_ ?_
      | with_reducible refine kept_ite_snd ?_ ?_
      | with_reducible refine kept_ite_fst ?_ ?_
      | with_reducible refine kept_ite_snd2 ?_ ?_
      | with_reducible refine ite_to ?_ ?_
      | with_reducible refine Eq.trans (kept_foldl _ ?_ _ _) ?_
      | intro _ _
      | with_reducible split
      | (have h := congrArg (fun x : _ × State => x.2.kept) ‹_ = (_, _)›; simp only [↓dacSub_kept, ↓ampSub_kept,
          ] at h; exact h.symm)
      | (have h := congrArg (fun x : State × _ => x.1.kept) ‹_ = (_, _)›; simp only [↓dacSub_kept, ↓ampSub_kept,
          ] at h; exact h.symm)
      | (have h := congrArg (fun x : _ × _ × State => x.2.2.kept) ‹_ = (_, _, _)›; simp only [↓dacSub_kept, ↓ampSub_kept,
          ] at h; exact h.symm)
      | with_reducible rfl))
  try clear_value x0
  (repeat' (first
    | simp only [↓hx0, ↓dacSub_kept, ↓ampSub_kept, ↓kept_upd, ↓kept_updMem, ↓kept_updNvm, ↓kept_updBoth, ↓ite_kept,
        ↓ite_snd, ↓ite_fst, ite_self, implies_true]
    | with_reducible refine kept_ite ?_ ?_
    | with_reducible refine kept_ite_snd ?_ ?_
    | with_reducible refine kept_ite_fst ?_ ?_
    | with_reducible refine kept_ite_snd2 ?_ ?_
    | with_reducible refine ite_to ?_ ?_
    | with_reducible refine Eq.trans (kept_foldl _ ?_ _ _) ?_
    | intro _ _
    | with_reducible split
    | (have h := congrArg (fun x : _ × State => x.2.kept) ‹_ = (_, _)›; simp only [↓dacSub_kept, ↓ampSub_kept,
        ] at h; exact h.symm)
    | (have h := congrArg (fun x : State × _ => x.1.kept) ‹_ = (_, _)›; simp only [↓dacSub_kept, ↓ampSub_kept,
        ] at h; exact h.symm)
    | (have h := congrArg (fun x : _ × _ × State => x.2.2.kept) ‹_ = (_, _, _)›; simp only [↓dacSub_kept, ↓ampSub_kept,
        ] at h; exact h.symm)
    | with_reducible rfl))

theorem analogTick_kept (a0 s) : (analogTick a0 s).kept = s.kept := by
  unfold analogTick
  extract_lets x0 x1 x2
  have hx0 : x0.kept = s.kept := by
    unfold x0
    (repeat' (first
      | simp only [↓adcBlock_kept, ↓ampSet_kept, ↓kept_upd, ↓kept_updMem, ↓kept_updNvm, ↓kept_updBoth, ↓ite_kept,
          ↓ite_snd, ↓ite_fst, ite_self, implies_true]
      | with_reducible refine kept_ite ?_ ?_
      | with_reducible refine kept_ite_snd ?_ ?_
      | with_reducible refine kept_ite_fst ?_ ?_
      | with_reducible refine kept_ite_snd2 ?_ ?_
      | with_reducible refine ite_to ?_ ?_
      | with_reducible refine Eq.trans (kept_foldl _ ?_ _ _) ?_
      | intro _ _
      | with_reducible split
      | (have h := congrArg (fun x : _ × State => x.2.kept) ‹_ = (_, _)›; simp only [↓adcBlock_kept, ↓ampSet_kept,
          ] at h; exact h.symm)
      | (have h := congrArg (fun x : State × _ => x.1.kept) ‹_ = (_, _)›; simp only [↓adcBlock_kept, ↓ampSet_kept,
          ] at h; exact h.symm)
      | (have h := congrArg (fun x : _ × _ × State => x.2.2.kept) ‹_ = (_, _, _)›; simp only [↓adcBlock_kept,
          ↓ampSet_kept, ] at h; exact h.symm)
      | with_reducible rfl))
  try clear_value x0
  try clear_value x1
  have hx2 : x2.kept = s.kept := by
    unfold x2
    (repeat' (first
      | simp only [↓hx0, ↓adcBlock_kept, ↓ampSet_kept, ↓kept_upd, ↓kept_updMem, ↓kept_updNvm, ↓kept_updBoth, ↓ite_kept,
          ↓ite_snd, ↓ite_fst, ite_self, implies_true]
      | with_reducible refine kept_ite ?_ ?_
      | with_reducible refine kept_ite_snd ?_ ?_
      | with_reducible refine kept_ite_fst ?_ ?_
      | with_reducible refine kept_ite_snd2 ?_ ?_
      | with_reducible refine ite_to ?_ ?_
      | with_reducible refine Eq.trans (kept_foldl _ ?_ _ _) ?_
      | intro _ _
      | with_reducible split
      | (have h := congrArg (fun x : _ × State => x.2.kept) ‹_ = (_, _)›; simp only [↓adcBlock_kept, ↓ampSet_kept,
          ] at h; exact h.symm)
      | (have h := congrArg (fun x : State × _ => x.1.kept) ‹_ = (_, _)›; simp only [↓adcBlock_kept, ↓ampSet_kept,
          ] at h; exact h.symm)
      | (have h := congrArg (fun x : _ × _ × State => x.2.2.kept) ‹_ = (_, _, _)›; simp only [↓adcBlock_kept,
          ↓ampSet_kept, ] at h; exact h.symm)
      | with_reducible rfl))
  try clear_value x2
  (repeat' (first
    | simp only [↓hx0, ↓hx2, ↓adcBlock_kept, ↓ampSet_kept, ↓kept_upd, ↓kept_updMem, ↓kept_updNvm, ↓kept_updBoth,
        ↓ite_kept, ↓ite_snd, ↓ite_fst, ite_self, implies_true]
    | with_reducible refine kept_ite ?_ ?_
    | with_reducible refine kept_ite_snd ?_ ?_
    | with_reducible refine kept_ite_fst ?_ ?_
    | with_reducible refine kept_ite_snd2 ?_ ?_
    | with_reducible refine ite_to ?_ ?_
    | with_reducible refine Eq.trans (kept_foldl _ ?_ _ _) ?_
    | intro _ _
    | with_reducible split
    | (have h := congrArg (fun x : _ × State => x.2.kept) ‹_ = (_, _)›; simp only [↓adcBlock_kept, ↓ampSet_kept,
        ] at h; exact h.symm)
    | (have h := congrArg (fun x : State × _ => x.1.kept) ‹_ = (_, _)›; simp only [↓adcBlock_kept, ↓ampSet_kept,
        ] at h; exact h.symm)
    | (have h := congrArg (fun x : _ × _ × State => x.2.2.kept) ‹_ = (_, _, _)›; simp only [↓adcBlock_kept, ↓ampSet_kept,
        ] at h; exact h.symm)
    | with_reducible rfl))

theorem adcW1c_kept (a0 a1 s) : (adcW1c a0 a1 s).kept = s.kept := by
  simp only [adcW1c, ↓adcSet_kept, ↓kept_upd]

theorem dacW1c_kept (a0 a1 s) : (dacW1c a0 a1 s).kept = s.kept := by
  simp only [dacW1c, ↓dacSet_kept, ↓kept_upd]

theorem ampW1c_kept (a0 a1 s) : (ampW1c a0 a1 s).kept = s.kept := by
  simp only [ampW1c, ↓ampSet_kept, ↓kept_upd]

theorem hsW1c_kept (a0 a1 s) : (hsW1c a0 a1 s).kept = s.kept := by
  simp only [hsW1c, ↓hsSet_kept, ↓kept_upd]

/-! ### TwinLink -/

theorem linkSend_kept (a0 a1 s) : (linkSend a0 a1 s).kept = s.kept := by
  unfold linkSend
  (repeat' (first
    | simp only [↓kept_upd, ↓ite_kept, ite_self]
    | with_reducible refine kept_ite ?_ ?_
    | with_reducible split))

theorem controlSend_kept (a0 a1 s) : (controlSend a0 a1 s).kept = s.kept := by
  simp only [controlSend, ↓linkSend_kept, ↓kept_upd]

theorem relayReq_kept (a0 a1 a2 a3 a4 s) : (relayReq a0 a1 a2 a3 a4 s).kept = s.kept := by
  unfold relayReq
  (repeat' (first
    | simp only [↓linkSend_kept, ↓kept_upd, ↓ite_kept, ite_self]
    | with_reducible refine kept_ite ?_ ?_
    | with_reducible split))

theorem ackFrames_kept (a0 s) : (ackFrames a0 s).kept = s.kept := by
  simp only [ackFrames, ↓kept_upd]

theorem resend_kept (a0 s) : (resend a0 s).kept = s.kept := by
  simp only [resend, ↓count_kept, ↓kept_upd]

theorem linkReceive_kept (a0 a1 a2 s) : (linkReceive a0 a1 a2 s).2.kept = s.kept := by
  unfold linkReceive
  (repeat' (first
    | simp only [↓count_kept, ↓ackFrames_kept, ↓linkSend_kept, ↓kept_upd, ↓kept_updMem, ↓kept_updNvm, ↓kept_updBoth,
        ↓ite_kept, ↓ite_snd, ↓ite_fst, ite_self, implies_true]
    | with_reducible refine kept_ite ?_ ?_
    | with_reducible refine kept_ite_snd ?_ ?_
    | with_reducible refine kept_ite_fst ?_ ?_
    | with_reducible refine kept_ite_snd2 ?_ ?_
    | with_reducible refine ite_to ?_ ?_
    | with_reducible refine Eq.trans (kept_foldl _ ?_ _ _) ?_
    | intro _ _
    | with_reducible split
    | (have h := congrArg (fun x : _ × State => x.2.kept) ‹_ = (_, _)›; simp only [↓count_kept, ↓ackFrames_kept,
        ↓linkSend_kept, ] at h; exact h.symm)
    | (have h := congrArg (fun x : State × _ => x.1.kept) ‹_ = (_, _)›; simp only [↓count_kept, ↓ackFrames_kept,
        ↓linkSend_kept, ] at h; exact h.symm)
    | (have h := congrArg (fun x : _ × _ × State => x.2.2.kept) ‹_ = (_, _, _)›; simp only [↓count_kept, ↓ackFrames_kept,
        ↓linkSend_kept, ] at h; exact h.symm)
    | with_reducible rfl))

theorem controlReceive_kept (a0 a1 s) : (controlReceive a0 a1 s).2.kept = s.kept := by
  simp only [controlReceive, ↓linkReceive_kept, ↓kept_upd]

/-! ### Serial -/

theorem grpSet_kept (a0 a1 s) : (grpSet a0 a1 s).kept = s.kept := by
  simp only [grpSet, ↓kept_upd]

theorem portSet_kept (a0 a1 s) : (portSet a0 a1 s).kept = s.kept := by
  simp only [portSet, ↓kept_upd]

theorem rxFrame_kept (a0 a1 a2 s) : (rxFrame a0 a1 a2 s).kept = s.kept := by
  unfold rxFrame
  (repeat' (first
    | simp only [↓idleDrop_kept, ↓kept_upd, ↓kept_updMem, ↓kept_updNvm, ↓kept_updBoth, ↓ite_kept, ↓ite_snd, ↓ite_fst,
        ite_self, implies_true]
    | with_reducible refine kept_ite ?_ ?_
    | with_reducible refine kept_ite_snd ?_ ?_
    | with_reducible refine kept_ite_fst ?_ ?_
    | with_reducible refine kept_ite_snd2 ?_ ?_
    | with_reducible refine ite_to ?_ ?_
    | with_reducible refine Eq.trans (kept_foldl _ ?_ _ _) ?_
    | intro _ _
    | with_reducible split
    | (have h := congrArg (fun x : _ × State => x.2.kept) ‹_ = (_, _)›; simp only [↓idleDrop_kept, ] at h; exact h.symm)
    | (have h := congrArg (fun x : State × _ => x.1.kept) ‹_ = (_, _)›; simp only [↓idleDrop_kept, ] at h; exact h.symm)
    | (have h := congrArg (fun x : _ × _ × State => x.2.2.kept) ‹_ = (_, _, _)›; simp only [↓idleDrop_kept,
        ] at h; exact h.symm)
    | with_reducible rfl))

theorem sendWords_kept (a0 a1 a2 s) : (sendWords a0 a1 a2 s).kept = s.kept := by
  simp only [sendWords, ↓portSet_kept, ↓kept_upd]

theorem frameWords_kept (a0 a1 a2 s) : (frameWords a0 a1 a2 s).kept = s.kept := by
  unfold frameWords
  (repeat' (first
    | simp only [↓rxFrame_kept, ↓sendWords_kept, ↓kept_upd, ↓kept_updMem, ↓kept_updNvm, ↓kept_updBoth, ↓ite_kept,
        ↓ite_snd, ↓ite_fst, ite_self, implies_true]
    | with_reducible refine kept_ite ?_ ?_
    | with_reducible refine kept_ite_snd ?_ ?_
    | with_reducible refine kept_ite_fst ?_ ?_
    | with_reducible refine kept_ite_snd2 ?_ ?_
    | with_reducible refine ite_to ?_ ?_
    | with_reducible refine Eq.trans (kept_foldl _ ?_ _ _) ?_
    | intro _ _
    | with_reducible split
    | (have h := congrArg (fun x : _ × State => x.2.kept) ‹_ = (_, _)›; simp only [↓rxFrame_kept, ↓sendWords_kept,
        ] at h; exact h.symm)
    | (have h := congrArg (fun x : State × _ => x.1.kept) ‹_ = (_, _)›; simp only [↓rxFrame_kept, ↓sendWords_kept,
        ] at h; exact h.symm)
    | (have h := congrArg (fun x : _ × _ × State => x.2.2.kept) ‹_ = (_, _, _)›; simp only [↓rxFrame_kept,
        ↓sendWords_kept, ] at h; exact h.symm)
    | with_reducible rfl))

theorem zeroWords_kept (a0 s) : (zeroWords a0 s).kept = s.kept := by
  unfold zeroWords
  (repeat' (first
    | simp only [↓sendWords_kept, ↓kept_upd, ↓kept_updMem, ↓kept_updNvm, ↓kept_updBoth, ↓ite_kept, ↓ite_snd, ↓ite_fst,
        ite_self, implies_true]
    | with_reducible refine kept_ite ?_ ?_
    | with_reducible refine kept_ite_snd ?_ ?_
    | with_reducible refine kept_ite_fst ?_ ?_
    | with_reducible refine kept_ite_snd2 ?_ ?_
    | with_reducible refine ite_to ?_ ?_
    | with_reducible refine Eq.trans (kept_foldl _ ?_ _ _) ?_
    | intro _ _
    | with_reducible split
    | (have h := congrArg (fun x : _ × State => x.2.kept) ‹_ = (_, _)›; simp only [↓sendWords_kept, ] at h; exact h.symm)
    | (have h := congrArg (fun x : State × _ => x.1.kept) ‹_ = (_, _)›; simp only [↓sendWords_kept, ] at h; exact h.symm)
    | (have h := congrArg (fun x : _ × _ × State => x.2.2.kept) ‹_ = (_, _, _)›; simp only [↓sendWords_kept,
        ] at h; exact h.symm)
    | with_reducible rfl))

theorem setSapSubst_kept (s) : (setSapSubst s).kept = s.kept := by
  simp only [setSapSubst, ↓lapse_kept, ↓kept_upd]

theorem agNote_kept (a0 s) : (agNote a0 s).kept = s.kept := by
  simp only [agNote, ↓kept_upd]

theorem slipNote_kept (a0 s) : (slipNote a0 s).kept = s.kept := by
  unfold slipNote
  extract_lets x0 x1
  try clear_value x0
  have hx1 : x1.kept = s.kept := by
    unfold x1
    (repeat' (first
      | simp only [↓agNote_kept, ↓setSapSubst_kept, ↓grpSet_kept, ↓raise_kept, ↓kept_upd, ↓ite_kept, ite_self]
      | with_reducible refine kept_ite ?_ ?_
      | with_reducible split))
  try clear_value x1
  (repeat' (first
    | simp only [↓hx1, ↓agNote_kept, ↓setSapSubst_kept, ↓grpSet_kept, ↓raise_kept, ↓kept_upd, ↓ite_kept, ite_self]
    | with_reducible refine kept_ite ?_ ?_
    | with_reducible split))

theorem zeroLanes_kept (a0 a1 s) : (zeroLanes a0 a1 s).kept = s.kept := by
  simp only [zeroLanes, ↓kept_upd]

theorem grpFaultAt_kept (a0 a1 a2 s) : (grpFaultAt a0 a1 a2 s).kept = s.kept := by
  unfold grpFaultAt
  extract_lets x0 x1 x2 x3
  try clear_value x0
  have hx1 : x1.kept = s.kept := by
    unfold x1
    (repeat' (first
      | simp only [↓zeroWords_kept, ↓zeroLanes_kept, ↓grpSet_kept, ↓lapseAt_kept, ↓raiseAt_kept, ↓agNote_kept,
          ↓count_kept, ↓kept_upd, ↓ite_kept, ite_self]
      | with_reducible refine kept_ite ?_ ?_
      | with_reducible split))
  try clear_value x1
  try clear_value x2
  have hx3 : x3.kept = s.kept := by
    unfold x3
    (repeat' (first
      | simp only [↓hx1, ↓zeroWords_kept, ↓zeroLanes_kept, ↓grpSet_kept, ↓lapseAt_kept, ↓raiseAt_kept, ↓agNote_kept,
          ↓count_kept, ↓kept_upd, ↓ite_kept, ite_self]
      | with_reducible refine kept_ite ?_ ?_
      | with_reducible split))
  try clear_value x3
  (repeat' (first
    | simp only [↓hx1, ↓hx3, ↓zeroWords_kept, ↓zeroLanes_kept, ↓grpSet_kept, ↓lapseAt_kept, ↓raiseAt_kept, ↓agNote_kept,
        ↓count_kept, ↓kept_upd, ↓ite_kept, ite_self]
    | with_reducible refine kept_ite ?_ ?_
    | with_reducible split))

theorem grpFault_kept (a0 a1 s) : (grpFault a0 a1 s).kept = s.kept := by
  simp only [grpFault, ↓grpFaultAt_kept, ↓kept_upd]

theorem closeInterval_kept (a0 a1 a2 s) : (closeInterval a0 a1 a2 s).kept = s.kept := by
  unfold closeInterval
  (repeat' (first
    | simp only [↓grpSet_kept, ↓grpFault_kept, ↓kept_upd, ↓ite_kept, ite_self]
    | with_reducible refine kept_ite ?_ ?_
    | with_reducible split))

theorem relaySlips_kept (a0 a1 a2 a3 s) : (relaySlips a0 a1 a2 a3 s).kept = s.kept := by
  unfold relaySlips
  extract_lets x0
  have hx0 : x0.kept = s.kept := by
    unfold x0
    (repeat' (first
      | simp only [↓relayReq_kept, ↓kept_upd, ↓kept_updMem, ↓kept_updNvm, ↓kept_updBoth, ↓ite_kept, ↓ite_snd, ↓ite_fst,
          ite_self, implies_true]
      | with_reducible refine kept_ite ?_ ?_
      | with_reducible refine kept_ite_snd ?_ ?_
      | with_reducible refine kept_ite_fst ?_ ?_
      | with_reducible refine kept_ite_snd2 ?_ ?_
      | with_reducible refine ite_to ?_ ?_
      | with_reducible refine Eq.trans (kept_foldl _ ?_ _ _) ?_
      | intro _ _
      | with_reducible split
      | (have h := congrArg (fun x : _ × State => x.2.kept) ‹_ = (_, _)›; simp only [↓relayReq_kept, ] at h; exact h.symm)
      | (have h := congrArg (fun x : State × _ => x.1.kept) ‹_ = (_, _)›; simp only [↓relayReq_kept, ] at h; exact h.symm)
      | (have h := congrArg (fun x : _ × _ × State => x.2.2.kept) ‹_ = (_, _, _)›; simp only [↓relayReq_kept,
          ] at h; exact h.symm)
      | with_reducible rfl))
  try clear_value x0
  (repeat' (first
    | simp only [↓hx0, ↓relayReq_kept, ↓kept_upd, ↓kept_updMem, ↓kept_updNvm, ↓kept_updBoth, ↓ite_kept, ↓ite_snd,
        ↓ite_fst, ite_self, implies_true]
    | with_reducible refine kept_ite ?_ ?_
    | with_reducible refine kept_ite_snd ?_ ?_
    | with_reducible refine kept_ite_fst ?_ ?_
    | with_reducible refine kept_ite_snd2 ?_ ?_
    | with_reducible refine ite_to ?_ ?_
    | with_reducible refine Eq.trans (kept_foldl _ ?_ _ _) ?_
    | intro _ _
    | with_reducible split
    | (have h := congrArg (fun x : _ × State => x.2.kept) ‹_ = (_, _)›; simp only [↓relayReq_kept, ] at h; exact h.symm)
    | (have h := congrArg (fun x : State × _ => x.1.kept) ‹_ = (_, _)›; simp only [↓relayReq_kept, ] at h; exact h.symm)
    | (have h := congrArg (fun x : _ × _ × State => x.2.2.kept) ‹_ = (_, _, _)›; simp only [↓relayReq_kept,
        ] at h; exact h.symm)
    | with_reducible rfl))

theorem alignedFrame_kept (a0 a1 a2 s) : (alignedFrame a0 a1 a2 s).kept = s.kept := by
  unfold alignedFrame
  (repeat' (first
    | simp only [↓lapse_kept, ↓count_kept, ↓slipNote_kept, ↓relaySlips_kept, ↓zeroWords_kept, ↓grpSet_kept,
        ↓frameWords_kept, ↓kept_upd, ↓ite_kept, ite_self]
    | with_reducible refine kept_ite ?_ ?_
    | with_reducible split))

theorem leaderFrame_kept (a0 a1 a2 s) : (leaderFrame a0 a1 a2 s).kept = s.kept := by
  simp only [leaderFrame, ↓frameWords_kept, ↓grpSet_kept, ↓kept_upd]

theorem sharedFrame_kept (a0 a1 a2 s) : (sharedFrame a0 a1 a2 s).kept = s.kept := by
  unfold sharedFrame
  (repeat' (first
    | simp only [↓grpFault_kept, ↓frameWords_kept, ↓grpSet_kept, ↓zeroWords_kept, ↓kept_upd, ↓ite_kept, ite_self]
    | with_reducible refine kept_ite ?_ ?_
    | with_reducible split))

theorem serialFrame_kept (a0 a1 a2 a3 s) : (serialFrame a0 a1 a2 a3 s).kept = s.kept := by
  unfold serialFrame
  extract_lets x0 x1 x2 x3
  have hx0 : x0.kept = s.kept := by
    unfold x0
    (repeat' (first
      | simp only [↓leaderFrame_kept, ↓closeInterval_kept, ↓sharedFrame_kept, ↓grpSet_kept, ↓alignedFrame_kept,
          ↓zeroWords_kept, ↓kept_upd, ↓ite_kept, ite_self]
      | with_reducible refine kept_ite ?_ ?_
      | with_reducible split))
  try clear_value x0
  try clear_value x1
  have hx2 : x2.kept = s.kept := by
    unfold x2
    (repeat' (first
      | simp only [↓hx0, ↓leaderFrame_kept, ↓closeInterval_kept, ↓sharedFrame_kept, ↓grpSet_kept, ↓alignedFrame_kept,
          ↓zeroWords_kept, ↓kept_upd, ↓ite_kept, ite_self]
      | with_reducible refine kept_ite ?_ ?_
      | with_reducible split))
  try clear_value x2
  try clear_value x3
  (repeat' (first
    | simp only [↓hx0, ↓hx2, ↓leaderFrame_kept, ↓closeInterval_kept, ↓sharedFrame_kept, ↓grpSet_kept, ↓alignedFrame_kept,
        ↓zeroWords_kept, ↓kept_upd, ↓ite_kept, ite_self]
    | with_reducible refine kept_ite ?_ ?_
    | with_reducible split))

theorem frameAbsent_kept (a0 s) : (frameAbsent a0 s).kept = s.kept := by
  unfold frameAbsent
  (repeat' (first
    | simp only [↓grpFault_kept, ↓kept_upd, ↓ite_kept, ite_self]
    | with_reducible refine kept_ite ?_ ?_
    | with_reducible split))

theorem sapAlign_kept (a0 a1 s) : (sapAlign a0 a1 s).kept = s.kept := by
  unfold sapAlign
  (repeat' (first
    | simp only [↓grpSet_kept, ↓raiseTick_kept, ↓lapseTick_kept, ↓relayReq_kept, ↓kept_upd, ↓ite_kept, ite_self]
    | with_reducible refine kept_ite ?_ ?_
    | with_reducible split))

theorem rateWindow_kept (a0 s) : (rateWindow a0 s).kept = s.kept := by
  unfold rateWindow
  (repeat' (first
    | simp only [↓grpSet_kept, ↓raiseTick_kept, ↓grpFaultAt_kept, ↓kept_upd, ↓ite_kept, ite_self]
    | with_reducible refine kept_ite ?_ ?_
    | with_reducible split))

theorem serialTick_kept (s) : (serialTick s).kept = s.kept := by
  unfold serialTick
  (repeat' (first
    | simp only [↓lapseTick_kept, ↓kept_upd, ↓ite_kept, ite_self]
    | with_reducible refine kept_ite ?_ ?_
    | with_reducible split))

theorem leadersTakeover_kept (s) : (leadersTakeover s).kept = s.kept := by
  unfold leadersTakeover
  (repeat' (first
    | simp only [↓grpSet_kept, ↓kept_upd, ↓kept_updMem, ↓kept_updNvm, ↓kept_updBoth, ↓ite_kept, ↓ite_snd, ↓ite_fst,
        ite_self, implies_true]
    | with_reducible refine kept_ite ?_ ?_
    | with_reducible refine kept_ite_snd ?_ ?_
    | with_reducible refine kept_ite_fst ?_ ?_
    | with_reducible refine kept_ite_snd2 ?_ ?_
    | with_reducible refine ite_to ?_ ?_
    | with_reducible refine Eq.trans (kept_foldl _ ?_ _ _) ?_
    | intro _ _
    | with_reducible split
    | (have h := congrArg (fun x : _ × State => x.2.kept) ‹_ = (_, _)›; simp only [↓grpSet_kept, ] at h; exact h.symm)
    | (have h := congrArg (fun x : State × _ => x.1.kept) ‹_ = (_, _)›; simp only [↓grpSet_kept, ] at h; exact h.symm)
    | (have h := congrArg (fun x : _ × _ × State => x.2.2.kept) ‹_ = (_, _, _)›; simp only [↓grpSet_kept, ] at h; exact h.symm)
    | with_reducible rfl))

theorem sapW1c_kept (a0 a1 a2 s) : (sapW1c a0 a1 a2 s).kept = s.kept := by
  unfold sapW1c
  (repeat' (first
    | simp only [↓grpSet_kept, ↓kept_upd, ↓ite_kept, ite_self]
    | with_reducible refine kept_ite ?_ ?_
    | with_reducible split))

/-! ### Net -/

theorem pnSet_kept (a0 a1 s) : (pnSet a0 a1 s).kept = s.kept := by
  simp only [pnSet, ↓kept_upd]

theorem rxSet_kept (a0 a1 s) : (rxSet a0 a1 s).kept = s.kept := by
  simp only [rxSet, ↓kept_upd]

theorem txSet_kept (a0 a1 s) : (txSet a0 a1 s).kept = s.kept := by
  simp only [txSet, ↓kept_upd]

theorem raiseStream_kept (a0 a1 s) : (raiseStream a0 a1 s).kept = s.kept := by
  unfold raiseStream
  (repeat' (first
    | simp only [↓raise_kept, ↓kept_upd, ↓ite_kept, ite_self]
    | with_reducible refine kept_ite ?_ ?_
    | with_reducible split))

theorem noteCells_kept (a0 s) : (noteCells a0 s).kept = s.kept := by
  simp only [noteCells, ↓kept_upd]

theorem quotaDrop_kept (a0 s) : (quotaDrop a0 s).kept = s.kept := by
  simp only [quotaDrop, ↓raise_kept, ↓count_kept, ↓kept_upd]

theorem svSend_kept (a0 a1 s) : (svSend a0 a1 s).kept = s.kept := by
  simp only [svSend, ↓noteCells_kept, ↓pnSet_kept, ↓kept_upd]

theorem seqNote_kept (a0 a1 a2 s) : (seqNote a0 a1 a2 s).kept = s.kept := by
  unfold seqNote
  extract_lets x0 x1 x2 x3
  try clear_value x0
  try clear_value x1
  try clear_value x2
  have hx3 : x3.kept = s.kept := by
    unfold x3
    (repeat' (first
      | simp only [↓rxSet_kept, ↓count_kept, ↓kept_upd, ↓ite_kept, ite_self]
      | with_reducible refine kept_ite ?_ ?_
      | with_reducible split))
  try clear_value x3
  (repeat' (first
    | simp only [↓hx3, ↓rxSet_kept, ↓count_kept, ↓kept_upd, ↓ite_kept, ite_self]
    | with_reducible refine kept_ite ?_ ?_
    | with_reducible split))

theorem rxPush_kept (a0 a1 a2 s) : (rxPush a0 a1 a2 s).kept = s.kept := by
  simp only [rxPush, ↓noteCells_kept, ↓rxSet_kept, ↓kept_upd]

theorem streamPacket_kept (a0 a1 a2 a3 s) : (streamPacket a0 a1 a2 a3 s).kept = s.kept := by
  unfold streamPacket
  (repeat' (first
    | simp only [↓rxPush_kept, ↓count_kept, ↓rxSet_kept, ↓seqNote_kept, ↓raise_kept, ↓idleDrop_kept, ↓raiseStream_kept,
        ↓kept_upd, ↓ite_kept, ite_self]
    | with_reducible refine kept_ite ?_ ?_
    | with_reducible split))

theorem reportGroups_kept (a0 s) : (reportGroups a0 s).kept = s.kept := by
  unfold reportGroups
  (repeat' (first
    | simp only [↓svSend_kept, ↓kept_upd, ↓ite_kept, ite_self]
    | with_reducible refine kept_ite ?_ ?_
    | with_reducible split))

theorem reportChanges_kept (b1 s) : (reportChanges b1 s).kept = s.kept := by
  unfold reportChanges
  (repeat' (first
    | simp only [↓reportGroups_kept, ↓kept_upd, ↓kept_updMem, ↓kept_updNvm, ↓kept_updBoth, ↓ite_kept, ↓ite_snd, ↓ite_fst,
        ite_self, implies_true]
    | with_reducible refine kept_ite ?_ ?_
    | with_reducible refine kept_ite_snd ?_ ?_
    | with_reducible refine kept_ite_fst ?_ ?_
    | with_reducible refine kept_ite_snd2 ?_ ?_
    | with_reducible refine ite_to ?_ ?_
    | with_reducible refine Eq.trans (kept_foldl _ ?_ _ _) ?_
    | intro _ _
    | with_reducible split
    | (have h := congrArg (fun x : _ × State => x.2.kept) ‹_ = (_, _)›; simp only [↓reportGroups_kept, ] at h; exact h.symm)
    | (have h := congrArg (fun x : State × _ => x.1.kept) ‹_ = (_, _)›; simp only [↓reportGroups_kept, ] at h; exact h.symm)
    | (have h := congrArg (fun x : _ × _ × State => x.2.2.kept) ‹_ = (_, _, _)›; simp only [↓reportGroups_kept,
        ] at h; exact h.symm)
    | with_reducible rfl))

theorem admitStream_kept (a0 a1 a2 a3 a4 s) : (admitStream a0 a1 a2 a3 a4 s).kept = s.kept := by
  unfold admitStream
  (repeat' (first
    | simp only [↓idleDrop_kept, ↓quotaDrop_kept, ↓rxSet_kept, ↓streamPacket_kept, ↓count_kept, ↓kept_upd, ↓ite_kept, ite_self]
    | with_reducible refine kept_ite ?_ ?_
    | with_reducible split))

theorem lldpFrame_kept (a0 s) : (lldpFrame a0 s).kept = s.kept := by
  unfold lldpFrame
  (repeat' (first
    | simp only [↓svSend_kept, ↓kept_upd, ↓ite_kept, ite_self]
    | with_reducible refine kept_ite ?_ ?_
    | with_reducible split))

theorem supervisorFrame_kept (a0 a1 s) : (supervisorFrame a0 a1 s).kept = s.kept := by
  unfold supervisorFrame
  (repeat' (first
    | simp only [↓svSend_kept, ↓lldpFrame_kept, ↓kept_upd, ↓ite_kept, ite_self]
    | with_reducible refine kept_ite ?_ ?_
    | with_reducible split))

theorem tcmInput_kept (a0 s) : (tcmInput a0 s).kept = s.kept := by
  unfold tcmInput
  (repeat' (first
    | simp only [↓raiseOnce_kept, ↓count_kept, ↓kept_upd, ↓ite_kept, ite_self]
    | with_reducible refine kept_ite ?_ ?_
    | with_reducible split))

theorem supervisorRead_kept (a0 a1 s) : (supervisorRead a0 a1 s).kept = s.kept := by
  unfold supervisorRead
  (repeat' (first
    | simp only [↓tcmInput_kept, ↓supervisorFrame_kept, ↓kept_upd, ↓ite_kept, ite_self]
    | with_reducible refine kept_ite ?_ ?_
    | with_reducible split))

theorem classify_kept (a0 a1 a2 s) : (classify a0 a1 a2 s).kept = s.kept := by
  unfold classify
  (repeat' (first
    | simp only [↓quotaDrop_kept, ↓noteCells_kept, ↓count_kept, ↓pnSet_kept, ↓admitStream_kept, ↓supervisorRead_kept,
        ↓kept_upd, ↓ite_kept, ite_self]
    | with_reducible refine kept_ite ?_ ?_
    | with_reducible split))

theorem frameReceive_kept (a0 a1 a2 a3 a4 a5 s) : (frameReceive a0 a1 a2 a3 a4 a5 s).kept = s.kept := by
  unfold frameReceive
  (repeat' (first
    | simp only [↓pnSet_kept, ↓count_kept, ↓classify_kept, ↓kept_upd, ↓ite_kept, ite_self]
    | with_reducible refine kept_ite ?_ ?_
    | with_reducible split))

theorem rxDecide_kept (a0 a1 a2 a3 s) : (rxDecide a0 a1 a2 a3 s).2.kept = s.kept := by
  unfold rxDecide
  (repeat' (first
    | simp only [↓raiseStream_kept, ↓count_kept, ↓kept_upd, ↓ite_kept, ite_self]
    | with_reducible refine kept_ite ?_ ?_
    | with_reducible split))

theorem rxChoose_kept (a0 a1 a2 s) : (rxChoose a0 a1 a2 s).kept = s.kept := by
  unfold rxChoose
  (repeat' (first
    | simp only [↓rxDecide_kept, ↓count_kept, ↓rxSet_kept, ↓kept_upd, ↓kept_updMem, ↓kept_updNvm, ↓kept_updBoth,
        ↓ite_kept, ↓ite_snd, ↓ite_fst, ite_self, implies_true]
    | with_reducible refine kept_ite ?_ ?_
    | with_reducible refine kept_ite_snd ?_ ?_
    | with_reducible refine kept_ite_fst ?_ ?_
    | with_reducible refine kept_ite_snd2 ?_ ?_
    | with_reducible refine ite_to ?_ ?_
    | with_reducible refine Eq.trans (kept_foldl _ ?_ _ _) ?_
    | intro _ _
    | with_reducible split
    | (have h := congrArg (fun x : _ × State => x.2.kept) ‹_ = (_, _)›; simp only [↓rxDecide_kept, ↓count_kept,
        ↓rxSet_kept, ] at h; exact h.symm)
    | (have h := congrArg (fun x : State × _ => x.1.kept) ‹_ = (_, _)›; simp only [↓rxDecide_kept, ↓count_kept,
        ↓rxSet_kept, ] at h; exact h.symm)
    | (have h := congrArg (fun x : _ × _ × State => x.2.2.kept) ‹_ = (_, _, _)›; simp only [↓rxDecide_kept, ↓count_kept,
        ↓rxSet_kept, ] at h; exact h.symm)
    | with_reducible rfl))

theorem missNote_kept (a0 a1 a2 s) : (missNote a0 a1 a2 s).kept = s.kept := by
  unfold missNote
  (repeat' (first
    | simp only [↓rxSet_kept, ↓count_kept, ↓lapseTick_kept, ↓raiseTick_kept, ↓kept_upd, ↓ite_kept, ite_self]
    | with_reducible refine kept_ite ?_ ?_
    | with_reducible split))

theorem rxMerge_kept (a0 a1 a2 s) : (rxMerge a0 a1 a2 s).kept = s.kept := by
  unfold rxMerge
  extract_lets x0 x1 x2 x3 x4 x5 x6 x7 x8 x9 x10 x11 x12 x13 x14 x15 x16 x17
  try clear_value x0
  try clear_value x1
  try clear_value x2
  have hx3 : x3.kept = s.kept := by
    unfold x3
    (repeat' (first
      | simp only [↓rxChoose_kept, ↓rxSet_kept, ↓missNote_kept, ↓kept_upd, ↓kept_updMem, ↓kept_updNvm, ↓kept_updBoth,
          ↓ite_kept, ↓ite_snd, ↓ite_fst, ite_self, implies_true]
      | with_reducible refine kept_ite ?_ ?_
      | with_reducible refine kept_ite_snd ?_ ?_
      | with_reducible refine kept_ite_fst ?_ ?_
      | with_reducible refine kept_ite_snd2 ?_ ?_
      | with_reducible refine ite_to ?_ ?_
      | with_reducible refine Eq.trans (kept_foldl _ ?_ _ _) ?_
      | intro _ _
      | with_reducible split
      | (have h := congrArg (fun x : _ × State => x.2.kept) ‹_ = (_, _)›; simp only [↓rxChoose_kept, ↓rxSet_kept,
          ↓missNote_kept, ] at h; exact h.symm)
      | (have h := congrArg (fun x : State × _ => x.1.kept) ‹_ = (_, _)›; simp only [↓rxChoose_kept, ↓rxSet_kept,
          ↓missNote_kept, ] at h; exact h.symm)
      | (have h := congrArg (fun x : _ × _ × State => x.2.2.kept) ‹_ = (_, _, _)›; simp only [↓rxChoose_kept,
          ↓rxSet_kept, ↓missNote_kept, ] at h; exact h.symm)
      | with_reducible rfl))
  try clear_value x3
  try clear_value x4
  try clear_value x5
  try clear_value x6
  try clear_value x7
  try clear_value x8
  try clear_value x9
  try clear_value x10
  have hx11 : x11.kept = s.kept := by
    unfold x11
    (repeat' (first
      | simp only [↓hx3, ↓rxChoose_kept, ↓rxSet_kept, ↓missNote_kept, ↓kept_upd, ↓kept_updMem, ↓kept_updNvm,
          ↓kept_updBoth, ↓ite_kept, ↓ite_snd, ↓ite_fst, ite_self, implies_true]
      | with_reducible refine kept_ite ?_ ?_
      | with_reducible refine kept_ite_snd ?_ ?_
      | with_reducible refine kept_ite_fst ?_ ?_
      | with_reducible refine kept_ite_snd2 ?_ ?_
      | with_reducible refine ite_to ?_ ?_
      | with_reducible refine Eq.trans (kept_foldl _ ?_ _ _) ?_
      | intro _ _
      | with_reducible split
      | (have h := congrArg (fun x : _ × State => x.2.kept) ‹_ = (_, _)›; simp only [↓rxChoose_kept, ↓rxSet_kept,
          ↓missNote_kept, ] at h; exact h.symm)
      | (have h := congrArg (fun x : State × _ => x.1.kept) ‹_ = (_, _)›; simp only [↓rxChoose_kept, ↓rxSet_kept,
          ↓missNote_kept, ] at h; exact h.symm)
      | (have h := congrArg (fun x : _ × _ × State => x.2.2.kept) ‹_ = (_, _, _)›; simp only [↓rxChoose_kept,
          ↓rxSet_kept, ↓missNote_kept, ] at h; exact h.symm)
      | with_reducible rfl))
  try clear_value x11
  have hx12 : x12.kept = s.kept := by
    unfold x12
    (repeat' (first
      | simp only [↓hx3, ↓hx11, ↓rxChoose_kept, ↓rxSet_kept, ↓missNote_kept, ↓kept_upd, ↓kept_updMem, ↓kept_updNvm,
          ↓kept_updBoth, ↓ite_kept, ↓ite_snd, ↓ite_fst, ite_self, implies_true]
      | with_reducible refine kept_ite ?_ ?_
      | with_reducible refine kept_ite_snd ?_ ?_
      | with_reducible refine kept_ite_fst ?_ ?_
      | with_reducible refine kept_ite_snd2 ?_ ?_
      | with_reducible refine ite_to ?_ ?_
      | with_reducible refine Eq.trans (kept_foldl _ ?_ _ _) ?_
      | intro _ _
      | with_reducible split
      | (have h := congrArg (fun x : _ × State => x.2.kept) ‹_ = (_, _)›; simp only [↓rxChoose_kept, ↓rxSet_kept,
          ↓missNote_kept, ] at h; exact h.symm)
      | (have h := congrArg (fun x : State × _ => x.1.kept) ‹_ = (_, _)›; simp only [↓rxChoose_kept, ↓rxSet_kept,
          ↓missNote_kept, ] at h; exact h.symm)
      | (have h := congrArg (fun x : _ × _ × State => x.2.2.kept) ‹_ = (_, _, _)›; simp only [↓rxChoose_kept,
          ↓rxSet_kept, ↓missNote_kept, ] at h; exact h.symm)
      | with_reducible rfl))
  try clear_value x12
  try clear_value x13
  try clear_value x14
  try clear_value x15
  have hx16 : x16.kept = s.kept := by
    unfold x16
    (repeat' (first
      | simp only [↓hx3, ↓hx11, ↓hx12, ↓rxChoose_kept, ↓rxSet_kept, ↓missNote_kept, ↓kept_upd, ↓kept_updMem,
          ↓kept_updNvm, ↓kept_updBoth, ↓ite_kept, ↓ite_snd, ↓ite_fst, ite_self, implies_true]
      | with_reducible refine kept_ite ?_ ?_
      | with_reducible refine kept_ite_snd ?_ ?_
      | with_reducible refine kept_ite_fst ?_ ?_
      | with_reducible refine kept_ite_snd2 ?_ ?_
      | with_reducible refine ite_to ?_ ?_
      | with_reducible refine Eq.trans (kept_foldl _ ?_ _ _) ?_
      | intro _ _
      | with_reducible split
      | (have h := congrArg (fun x : _ × State => x.2.kept) ‹_ = (_, _)›; simp only [↓rxChoose_kept, ↓rxSet_kept,
          ↓missNote_kept, ] at h; exact h.symm)
      | (have h := congrArg (fun x : State × _ => x.1.kept) ‹_ = (_, _)›; simp only [↓rxChoose_kept, ↓rxSet_kept,
          ↓missNote_kept, ] at h; exact h.symm)
      | (have h := congrArg (fun x : _ × _ × State => x.2.2.kept) ‹_ = (_, _, _)›; simp only [↓rxChoose_kept,
          ↓rxSet_kept, ↓missNote_kept, ] at h; exact h.symm)
      | with_reducible rfl))
  try clear_value x16
  try clear_value x17
  (repeat' (first
    | simp only [↓hx3, ↓hx11, ↓hx12, ↓hx16, ↓rxChoose_kept, ↓rxSet_kept, ↓missNote_kept, ↓kept_upd, ↓kept_updMem,
        ↓kept_updNvm, ↓kept_updBoth, ↓ite_kept, ↓ite_snd, ↓ite_fst, ite_self, implies_true]
    | with_reducible refine kept_ite ?_ ?_
    | with_reducible refine kept_ite_snd ?_ ?_
    | with_reducible refine kept_ite_fst ?_ ?_
    | with_reducible refine kept_ite_snd2 ?_ ?_
    | with_reducible refine ite_to ?_ ?_
    | with_reducible refine Eq.trans (kept_foldl _ ?_ _ _) ?_
    | intro _ _
    | with_reducible split
    | (have h := congrArg (fun x : _ × State => x.2.kept) ‹_ = (_, _)›; simp only [↓rxChoose_kept, ↓rxSet_kept,
        ↓missNote_kept, ] at h; exact h.symm)
    | (have h := congrArg (fun x : State × _ => x.1.kept) ‹_ = (_, _)›; simp only [↓rxChoose_kept, ↓rxSet_kept,
        ↓missNote_kept, ] at h; exact h.symm)
    | (have h := congrArg (fun x : _ × _ × State => x.2.2.kept) ‹_ = (_, _, _)›; simp only [↓rxChoose_kept, ↓rxSet_kept,
        ↓missNote_kept, ] at h; exact h.symm)
    | with_reducible rfl))

theorem opsRelease_kept (a0 a1 a2 s) : (opsRelease a0 a1 a2 s).kept = s.kept := by
  unfold opsRelease
  (repeat' (first
    | simp only [↓rxDecide_kept, ↓raiseTick_kept, ↓lapseTick_kept, ↓enterRecord_kept, ↓rxSet_kept, ↓kept_upd,
        ↓kept_updMem, ↓kept_updNvm, ↓kept_updBoth, ↓ite_kept, ↓ite_snd, ↓ite_fst, ite_self, implies_true]
    | with_reducible refine kept_ite ?_ ?_
    | with_reducible refine kept_ite_snd ?_ ?_
    | with_reducible refine kept_ite_fst ?_ ?_
    | with_reducible refine kept_ite_snd2 ?_ ?_
    | with_reducible refine ite_to ?_ ?_
    | with_reducible refine Eq.trans (kept_foldl _ ?_ _ _) ?_
    | intro _ _
    | with_reducible split
    | (have h := congrArg (fun x : _ × State => x.2.kept) ‹_ = (_, _)›; simp only [↓rxDecide_kept, ↓raiseTick_kept,
        ↓lapseTick_kept, ↓enterRecord_kept, ↓rxSet_kept, ] at h; exact h.symm)
    | (have h := congrArg (fun x : State × _ => x.1.kept) ‹_ = (_, _)›; simp only [↓rxDecide_kept, ↓raiseTick_kept,
        ↓lapseTick_kept, ↓enterRecord_kept, ↓rxSet_kept, ] at h; exact h.symm)
    | (have h := congrArg (fun x : _ × _ × State => x.2.2.kept) ‹_ = (_, _, _)›; simp only [↓rxDecide_kept,
        ↓raiseTick_kept, ↓lapseTick_kept, ↓enterRecord_kept, ↓rxSet_kept, ] at h; exact h.symm)
    | with_reducible rfl))

theorem netTick_kept (a0 s) : (netTick a0 s).kept = s.kept := by
  unfold netTick
  extract_lets x0 x1 x2
  try clear_value x0
  have hx1 : x1.kept = s.kept := by
    unfold x1
    (repeat' (first
      | simp only [↓opsRelease_kept, ↓rxMerge_kept, ↓kept_upd, ↓kept_updMem, ↓kept_updNvm, ↓kept_updBoth, ↓ite_kept,
          ↓ite_snd, ↓ite_fst, ite_self, implies_true]
      | with_reducible refine kept_ite ?_ ?_
      | with_reducible refine kept_ite_snd ?_ ?_
      | with_reducible refine kept_ite_fst ?_ ?_
      | with_reducible refine kept_ite_snd2 ?_ ?_
      | with_reducible refine ite_to ?_ ?_
      | with_reducible refine Eq.trans (kept_foldl _ ?_ _ _) ?_
      | intro _ _
      | with_reducible split
      | (have h := congrArg (fun x : _ × State => x.2.kept) ‹_ = (_, _)›; simp only [↓opsRelease_kept, ↓rxMerge_kept,
          ] at h; exact h.symm)
      | (have h := congrArg (fun x : State × _ => x.1.kept) ‹_ = (_, _)›; simp only [↓opsRelease_kept, ↓rxMerge_kept,
          ] at h; exact h.symm)
      | (have h := congrArg (fun x : _ × _ × State => x.2.2.kept) ‹_ = (_, _, _)›; simp only [↓opsRelease_kept,
          ↓rxMerge_kept, ] at h; exact h.symm)
      | with_reducible rfl))
  try clear_value x1
  have hx2 : x2.kept = s.kept := by
    unfold x2
    (repeat' (first
      | simp only [↓hx1, ↓opsRelease_kept, ↓rxMerge_kept, ↓kept_upd, ↓kept_updMem, ↓kept_updNvm, ↓kept_updBoth,
          ↓ite_kept, ↓ite_snd, ↓ite_fst, ite_self, implies_true]
      | with_reducible refine kept_ite ?_ ?_
      | with_reducible refine kept_ite_snd ?_ ?_
      | with_reducible refine kept_ite_fst ?_ ?_
      | with_reducible refine kept_ite_snd2 ?_ ?_
      | with_reducible refine ite_to ?_ ?_
      | with_reducible refine Eq.trans (kept_foldl _ ?_ _ _) ?_
      | intro _ _
      | with_reducible split
      | (have h := congrArg (fun x : _ × State => x.2.kept) ‹_ = (_, _)›; simp only [↓opsRelease_kept, ↓rxMerge_kept,
          ] at h; exact h.symm)
      | (have h := congrArg (fun x : State × _ => x.1.kept) ‹_ = (_, _)›; simp only [↓opsRelease_kept, ↓rxMerge_kept,
          ] at h; exact h.symm)
      | (have h := congrArg (fun x : _ × _ × State => x.2.2.kept) ‹_ = (_, _, _)›; simp only [↓opsRelease_kept,
          ↓rxMerge_kept, ] at h; exact h.symm)
      | with_reducible rfl))
  try clear_value x2
  (repeat' (first
    | simp only [↓hx1, ↓hx2, ↓opsRelease_kept, ↓rxMerge_kept, ↓kept_upd, ↓kept_updMem, ↓kept_updNvm, ↓kept_updBoth,
        ↓ite_kept, ↓ite_snd, ↓ite_fst, ite_self, implies_true]
    | with_reducible refine kept_ite ?_ ?_
    | with_reducible refine kept_ite_snd ?_ ?_
    | with_reducible refine kept_ite_fst ?_ ?_
    | with_reducible refine kept_ite_snd2 ?_ ?_
    | with_reducible refine ite_to ?_ ?_
    | with_reducible refine Eq.trans (kept_foldl _ ?_ _ _) ?_
    | intro _ _
    | with_reducible split
    | (have h := congrArg (fun x : _ × State => x.2.kept) ‹_ = (_, _)›; simp only [↓opsRelease_kept, ↓rxMerge_kept,
        ] at h; exact h.symm)
    | (have h := congrArg (fun x : State × _ => x.1.kept) ‹_ = (_, _)›; simp only [↓opsRelease_kept, ↓rxMerge_kept,
        ] at h; exact h.symm)
    | (have h := congrArg (fun x : _ × _ × State => x.2.2.kept) ‹_ = (_, _, _)›; simp only [↓opsRelease_kept,
        ↓rxMerge_kept, ] at h; exact h.symm)
    | with_reducible rfl))

theorem rxClear_kept (a0 s) : (rxClear a0 s).kept = s.kept := by
  simp only [rxClear, ↓rxSet_kept, ↓kept_upd]

theorem sendFrame_kept (a0 a1 s) : (sendFrame a0 a1 s).kept = s.kept := by
  unfold sendFrame
  (repeat' (first
    | simp only [↓count_kept, ↓pnSet_kept, ↓kept_upd, ↓ite_kept, ite_self]
    | with_reducible refine kept_ite ?_ ?_
    | with_reducible split))

theorem txPacketOut_kept (a0 a1 a2 a3 a4 s) : (txPacketOut a0 a1 a2 a3 a4 s).kept = s.kept := by
  unfold txPacketOut
  extract_lets x0 x1 x2 x3
  try clear_value x0
  try clear_value x1
  have hx2 : x2.kept = s.kept := by
    unfold x2
    (repeat' (first
      | simp only [↓txSet_kept, ↓quotaDrop_kept, ↓noteCells_kept, ↓sendFrame_kept, ↓count_kept, ↓kept_upd, ↓ite_kept, ite_self]
      | with_reducible refine kept_ite ?_ ?_
      | with_reducible split))
  try clear_value x2
  have hx3 : x3.kept = s.kept := by
    unfold x3
    (repeat' (first
      | simp only [↓hx2, ↓txSet_kept, ↓quotaDrop_kept, ↓noteCells_kept, ↓sendFrame_kept, ↓count_kept, ↓kept_upd,
          ↓ite_kept, ite_self]
      | with_reducible refine kept_ite ?_ ?_
      | with_reducible split))
  try clear_value x3
  (repeat' (first
    | simp only [↓hx2, ↓hx3, ↓txSet_kept, ↓quotaDrop_kept, ↓noteCells_kept, ↓sendFrame_kept, ↓count_kept, ↓kept_upd,
        ↓ite_kept, ite_self]
    | with_reducible refine kept_ite ?_ ?_
    | with_reducible split))

theorem txSend_kept (a0 s) : (txSend a0 s).kept = s.kept := by
  unfold txSend
  (repeat' (first
    | simp only [↓sendFrame_kept, ↓pnSet_kept, ↓txPacketOut_kept, ↓kept_upd, ↓ite_kept, ite_self]
    | with_reducible refine kept_ite ?_ ?_
    | with_reducible split))

theorem txStart_kept (a0 s) : (txStart a0 s).kept = s.kept := by
  unfold txStart
  (repeat' (first
    | simp only [↓txSet_kept, ↓kept_upd, ↓kept_updMem, ↓kept_updNvm, ↓kept_updBoth, ↓ite_kept, ↓ite_snd, ↓ite_fst,
        ite_self, implies_true]
    | with_reducible refine kept_ite ?_ ?_
    | with_reducible refine kept_ite_snd ?_ ?_
    | with_reducible refine kept_ite_fst ?_ ?_
    | with_reducible refine kept_ite_snd2 ?_ ?_
    | with_reducible refine ite_to ?_ ?_
    | with_reducible refine Eq.trans (kept_foldl _ ?_ _ _) ?_
    | intro _ _
    | with_reducible split
    | (have h := congrArg (fun x : _ × State => x.2.kept) ‹_ = (_, _)›; simp only [↓txSet_kept, ] at h; exact h.symm)
    | (have h := congrArg (fun x : State × _ => x.1.kept) ‹_ = (_, _)›; simp only [↓txSet_kept, ] at h; exact h.symm)
    | (have h := congrArg (fun x : _ × _ × State => x.2.2.kept) ‹_ = (_, _, _)›; simp only [↓txSet_kept, ] at h; exact h.symm)
    | with_reducible rfl))

theorem linkGreet_kept (a0 s) : (linkGreet a0 s).kept = s.kept := by
  unfold linkGreet
  (repeat' (first
    | simp only [↓svSend_kept, ↓reportGroups_kept, ↓kept_upd, ↓ite_kept, ite_self]
    | with_reducible refine kept_ite ?_ ?_
    | with_reducible split))

theorem linkChange_kept (a0 a1 a2 a3 s) : (linkChange a0 a1 a2 a3 s).kept = s.kept := by
  unfold linkChange
  (repeat' (first
    | simp only [↓pnSet_kept, ↓raise_kept, ↓linkGreet_kept, ↓kept_upd, ↓ite_kept, ite_self]
    | with_reducible refine kept_ite ?_ ?_
    | with_reducible split))

theorem lpiEnter_kept (s) : (lpiEnter s).kept = s.kept := by
  unfold lpiEnter
  (repeat' (first
    | simp only [↓count_kept, ↓pnSet_kept, ↓kept_upd, ↓ite_kept, ite_self]
    | with_reducible refine kept_ite ?_ ?_
    | with_reducible split))

theorem lpiWake_kept (s) : (lpiWake s).kept = s.kept := by
  unfold lpiWake
  (repeat' (first
    | simp only [↓txSend_kept, ↓pnSet_kept, ↓kept_upd, ↓ite_kept, ite_self]
    | with_reducible refine kept_ite ?_ ?_
    | with_reducible split))

theorem netRead_kept (a0 a1 a2 s) : (netRead a0 a1 a2 s).2.kept = s.kept := by
  unfold netRead
  (repeat' (first
    | simp only [↓pnSet_kept, ↓rxSet_kept, ↓kept_upd, ↓ite_kept, ite_self]
    | with_reducible refine kept_ite ?_ ?_
    | with_reducible split))

/-! ### Time -/

theorem halfEnter_kept (a0 s) : (halfEnter a0 s).kept = s.kept := by
  unfold halfEnter
  (repeat' (first
    | simp only [↓raise_kept, ↓count_kept, ↓kept_upd, ↓ite_kept, ite_self]
    | with_reducible refine kept_ite ?_ ?_
    | with_reducible split))

theorem halvesEntered_kept (a0 a1 s) : (halvesEntered a0 a1 s).kept = s.kept := by
  induction a0 generalizing a1 s with
  | zero => rfl
  | succ n ih => rw [halvesEntered, ih]; simp only [halfEnter_kept]

theorem timeAdvance_kept (a0 s) : (timeAdvance a0 s).kept = s.kept := by
  simp only [timeAdvance, ↓halvesEntered_kept, ↓kept_upd]

theorem setInc_kept (a0 s) : (setInc a0 s).kept = s.kept := by
  unfold setInc
  extract_lets x0 x1
  have hx0 : x0.kept = s.kept := by
    unfold x0
    (repeat' (first
      | simp only [↓rset_kept, ↓kept_upd, ↓ite_kept, ite_self]
      | with_reducible refine kept_ite ?_ ?_
      | with_reducible split))
  try clear_value x0
  try clear_value x1
  (repeat' (first
    | simp only [↓hx0, ↓rset_kept, ↓kept_upd, ↓ite_kept, ite_self]
    | with_reducible refine kept_ite ?_ ?_
    | with_reducible split))

theorem incWrite_kept (a0 a1 s) : (incWrite a0 a1 s).kept = s.kept := by
  unfold incWrite
  (repeat' (first
    | simp only [↓setInc_kept, ↓kept_upd, ↓ite_kept, ite_self]
    | with_reducible refine kept_ite ?_ ?_
    | with_reducible split))

theorem epochWrite_kept (a0 a1 s) : (epochWrite a0 a1 s).kept = s.kept := by
  unfold epochWrite
  (repeat' (first
    | simp only [↓kept_upd, ↓ite_kept, ite_self]
    | with_reducible refine kept_ite ?_ ?_
    | with_reducible split))

theorem setTime_kept (a0 s) : (setTime a0 s).kept = s.kept := by
  simp only [setTime, ↓kept_upd]

theorem ptpStep_kept (s) : (ptpStep s).kept = s.kept := by
  unfold ptpStep
  (repeat' (first
    | simp only [↓count_kept, ↓setTime_kept, ↓kept_upd, ↓ite_kept, ite_self]
    | with_reducible refine kept_ite ?_ ?_
    | with_reducible split))

theorem domSet_kept (a0 a1 s) : (domSet a0 a1 s).kept = s.kept := by
  unfold domSet
  (repeat' (first
    | simp only [↓kept_upd, ↓ite_kept, ite_self]
    | with_reducible refine kept_ite ?_ ?_
    | with_reducible split))

theorem domDrop_kept (a0 s) : (domDrop a0 s).kept = s.kept := by
  unfold domDrop
  (repeat' (first
    | simp only [↓domSet_kept, ↓kept_upd, ↓ite_kept, ite_self]
    | with_reducible refine kept_ite ?_ ?_
    | with_reducible split))

theorem ptpTake_kept (a0 a1 s) : (ptpTake a0 a1 s).2.kept = s.kept := by
  unfold ptpTake
  (repeat' (first
    | simp only [↓pnSet_kept, ↓count_kept, ↓kept_upd, ↓ite_kept, ite_self]
    | with_reducible refine kept_ite ?_ ?_
    | with_reducible split))

theorem domGm_kept (a0 a1 s) : (domGm a0 a1 s).kept = s.kept := by
  unfold domGm
  extract_lets x0 x1 x2
  try clear_value x0
  have hx1 : x1.kept = s.kept := by
    unfold x1
    (repeat' (first
      | simp only [↓domSet_kept, ↓raise_kept, ↓count_kept, ↓kept_upd, ↓ite_kept, ite_self]
      | with_reducible refine kept_ite ?_ ?_
      | with_reducible split))
  try clear_value x1
  try clear_value x2
  (repeat' (first
    | simp only [↓hx1, ↓domSet_kept, ↓raise_kept, ↓count_kept, ↓kept_upd, ↓ite_kept, ite_self]
    | with_reducible refine kept_ite ?_ ?_
    | with_reducible split))

theorem domLead_kept (a0 s) : (domLead a0 s).kept = s.kept := by
  unfold domLead
  (repeat' (first
    | simp only [↓domGm_kept, ↓domSet_kept, ↓kept_upd, ↓ite_kept, ite_self]
    | with_reducible refine kept_ite ?_ ?_
    | with_reducible split))

theorem domDecide_kept (a0 a1 s) : (domDecide a0 a1 s).kept = s.kept := by
  unfold domDecide
  (repeat' (first
    | simp only [↓domLead_kept, ↓domSet_kept, ↓domGm_kept, ↓kept_upd, ↓ite_kept, ite_self]
    | with_reducible refine kept_ite ?_ ?_
    | with_reducible split))

theorem domLink_kept (a0 s) : (domLink a0 s).kept = s.kept := by
  unfold domLink
  (repeat' (first
    | simp only [↓domSet_kept, ↓domDecide_kept, ↓kept_upd, ↓ite_kept, ite_self]
    | with_reducible refine kept_ite ?_ ?_
    | with_reducible split))

theorem ptpAnnounce_kept (a0 s) : (ptpAnnounce a0 s).kept = s.kept := by
  unfold ptpAnnounce
  (repeat' (first
    | simp only [↓ptpTake_kept, ↓domDecide_kept, ↓domSet_kept, ↓kept_upd, ↓kept_updMem, ↓kept_updNvm, ↓kept_updBoth,
        ↓ite_kept, ↓ite_snd, ↓ite_fst, ite_self, implies_true]
    | with_reducible refine kept_ite ?_ ?_
    | with_reducible refine kept_ite_snd ?_ ?_
    | with_reducible refine kept_ite_fst ?_ ?_
    | with_reducible refine kept_ite_snd2 ?_ ?_
    | with_reducible refine ite_to ?_ ?_
    | with_reducible refine Eq.trans (kept_foldl _ ?_ _ _) ?_
    | intro _ _
    | with_reducible split
    | (have h := congrArg (fun x : _ × State => x.2.kept) ‹_ = (_, _)›; simp only [↓ptpTake_kept, ↓domDecide_kept,
        ↓domSet_kept, ] at h; exact h.symm)
    | (have h := congrArg (fun x : State × _ => x.1.kept) ‹_ = (_, _)›; simp only [↓ptpTake_kept, ↓domDecide_kept,
        ↓domSet_kept, ] at h; exact h.symm)
    | (have h := congrArg (fun x : _ × _ × State => x.2.2.kept) ‹_ = (_, _, _)›; simp only [↓ptpTake_kept,
        ↓domDecide_kept, ↓domSet_kept, ] at h; exact h.symm)
    | with_reducible rfl))

theorem ptpMeasure_kept (a0 a1 a2 s) : (ptpMeasure a0 a1 a2 s).kept = s.kept := by
  unfold ptpMeasure
  (repeat' (first
    | simp only [↓domSet_kept, ↓kept_upd, ↓ite_kept, ite_self]
    | with_reducible refine kept_ite ?_ ?_
    | with_reducible split))

theorem ptpSync_kept (a0 s) : (ptpSync a0 s).kept = s.kept := by
  unfold ptpSync
  (repeat' (first
    | simp only [↓ptpTake_kept, ↓domSet_kept, ↓ptpMeasure_kept, ↓kept_upd, ↓kept_updMem, ↓kept_updNvm, ↓kept_updBoth,
        ↓ite_kept, ↓ite_snd, ↓ite_fst, ite_self, implies_true]
    | with_reducible refine kept_ite ?_ ?_
    | with_reducible refine kept_ite_snd ?_ ?_
    | with_reducible refine kept_ite_fst ?_ ?_
    | with_reducible refine kept_ite_snd2 ?_ ?_
    | with_reducible refine ite_to ?_ ?_
    | with_reducible refine Eq.trans (kept_foldl _ ?_ _ _) ?_
    | intro _ _
    | with_reducible split
    | (have h := congrArg (fun x : _ × State => x.2.kept) ‹_ = (_, _)›; simp only [↓ptpTake_kept, ↓domSet_kept,
        ↓ptpMeasure_kept, ] at h; exact h.symm)
    | (have h := congrArg (fun x : State × _ => x.1.kept) ‹_ = (_, _)›; simp only [↓ptpTake_kept, ↓domSet_kept,
        ↓ptpMeasure_kept, ] at h; exact h.symm)
    | (have h := congrArg (fun x : _ × _ × State => x.2.2.kept) ‹_ = (_, _, _)›; simp only [↓ptpTake_kept, ↓domSet_kept,
        ↓ptpMeasure_kept, ] at h; exact h.symm)
    | with_reducible rfl))

theorem ptpFollowUp_kept (a0 s) : (ptpFollowUp a0 s).kept = s.kept := by
  unfold ptpFollowUp
  (repeat' (first
    | simp only [↓ptpTake_kept, ↓ptpMeasure_kept, ↓domSet_kept, ↓kept_upd, ↓kept_updMem, ↓kept_updNvm, ↓kept_updBoth,
        ↓ite_kept, ↓ite_snd, ↓ite_fst, ite_self, implies_true]
    | with_reducible refine kept_ite ?_ ?_
    | with_reducible refine kept_ite_snd ?_ ?_
    | with_reducible refine kept_ite_fst ?_ ?_
    | with_reducible refine kept_ite_snd2 ?_ ?_
    | with_reducible refine ite_to ?_ ?_
    | with_reducible refine Eq.trans (kept_foldl _ ?_ _ _) ?_
    | intro _ _
    | with_reducible split
    | (have h := congrArg (fun x : _ × State => x.2.kept) ‹_ = (_, _)›; simp only [↓ptpTake_kept, ↓ptpMeasure_kept,
        ↓domSet_kept, ] at h; exact h.symm)
    | (have h := congrArg (fun x : State × _ => x.1.kept) ‹_ = (_, _)›; simp only [↓ptpTake_kept, ↓ptpMeasure_kept,
        ↓domSet_kept, ] at h; exact h.symm)
    | (have h := congrArg (fun x : _ × _ × State => x.2.2.kept) ‹_ = (_, _, _)›; simp only [↓ptpTake_kept,
        ↓ptpMeasure_kept, ↓domSet_kept, ] at h; exact h.symm)
    | with_reducible rfl))

theorem ptpDelayReq_kept (a0 s) : (ptpDelayReq a0 s).kept = s.kept := by
  unfold ptpDelayReq
  (repeat' (first
    | simp only [↓ptpTake_kept, ↓sendFrame_kept, ↓kept_upd, ↓kept_updMem, ↓kept_updNvm, ↓kept_updBoth, ↓ite_kept,
        ↓ite_snd, ↓ite_fst, ite_self, implies_true]
    | with_reducible refine kept_ite ?_ ?_
    | with_reducible refine kept_ite_snd ?_ ?_
    | with_reducible refine kept_ite_fst ?_ ?_
    | with_reducible refine kept_ite_snd2 ?_ ?_
    | with_reducible refine ite_to ?_ ?_
    | with_reducible refine Eq.trans (kept_foldl _ ?_ _ _) ?_
    | intro _ _
    | with_reducible split
    | (have h := congrArg (fun x : _ × State => x.2.kept) ‹_ = (_, _)›; simp only [↓ptpTake_kept, ↓sendFrame_kept,
        ] at h; exact h.symm)
    | (have h := congrArg (fun x : State × _ => x.1.kept) ‹_ = (_, _)›; simp only [↓ptpTake_kept, ↓sendFrame_kept,
        ] at h; exact h.symm)
    | (have h := congrArg (fun x : _ × _ × State => x.2.2.kept) ‹_ = (_, _, _)›; simp only [↓ptpTake_kept,
        ↓sendFrame_kept, ] at h; exact h.symm)
    | with_reducible rfl))

theorem ptpDelayResp_kept (a0 s) : (ptpDelayResp a0 s).kept = s.kept := by
  unfold ptpDelayResp
  (repeat' (first
    | simp only [↓ptpTake_kept, ↓domSet_kept, ↓kept_upd, ↓kept_updMem, ↓kept_updNvm, ↓kept_updBoth, ↓ite_kept, ↓ite_snd,
        ↓ite_fst, ite_self, implies_true]
    | with_reducible refine kept_ite ?_ ?_
    | with_reducible refine kept_ite_snd ?_ ?_
    | with_reducible refine kept_ite_fst ?_ ?_
    | with_reducible refine kept_ite_snd2 ?_ ?_
    | with_reducible refine ite_to ?_ ?_
    | with_reducible refine Eq.trans (kept_foldl _ ?_ _ _) ?_
    | intro _ _
    | with_reducible split
    | (have h := congrArg (fun x : _ × State => x.2.kept) ‹_ = (_, _)›; simp only [↓ptpTake_kept, ↓domSet_kept,
        ] at h; exact h.symm)
    | (have h := congrArg (fun x : State × _ => x.1.kept) ‹_ = (_, _)›; simp only [↓ptpTake_kept, ↓domSet_kept,
        ] at h; exact h.symm)
    | (have h := congrArg (fun x : _ × _ × State => x.2.2.kept) ‹_ = (_, _, _)›; simp only [↓ptpTake_kept, ↓domSet_kept,
        ] at h; exact h.symm)
    | with_reducible rfl))

theorem delayReqSend_kept (a0 a1 s) : (delayReqSend a0 a1 s).kept = s.kept := by
  unfold delayReqSend
  (repeat' (first
    | simp only [↓sendFrame_kept, ↓domSet_kept, ↓kept_upd, ↓ite_kept, ite_self]
    | with_reducible refine kept_ite ?_ ?_
    | with_reducible split))

theorem syncSend_kept (a0 a1 s) : (syncSend a0 a1 s).kept = s.kept := by
  unfold syncSend
  (repeat' (first
    | simp only [↓sendFrame_kept, ↓domSet_kept, ↓kept_upd, ↓ite_kept, ite_self]
    | with_reducible refine kept_ite ?_ ?_
    | with_reducible split))

theorem announceSend_kept (a0 s) : (announceSend a0 s).kept = s.kept := by
  unfold announceSend
  (repeat' (first
    | simp only [↓sendFrame_kept, ↓domSet_kept, ↓kept_upd, ↓ite_kept, ite_self]
    | with_reducible refine kept_ite ?_ ?_
    | with_reducible split))

theorem announceTimeout_kept (a0 s) : (announceTimeout a0 s).kept = s.kept := by
  unfold announceTimeout
  (repeat' (first
    | simp only [↓domDecide_kept, ↓domSet_kept, ↓kept_upd, ↓ite_kept, ite_self]
    | with_reducible refine kept_ite ?_ ?_
    | with_reducible split))

theorem syncTimeout_kept (a0 s) : (syncTimeout a0 s).kept = s.kept := by
  unfold syncTimeout
  (repeat' (first
    | simp only [↓domDrop_kept, ↓domSet_kept, ↓kept_upd, ↓ite_kept, ite_self]
    | with_reducible refine kept_ite ?_ ?_
    | with_reducible split))

theorem ppsLost_kept (s) : (ppsLost s).kept = s.kept := by
  unfold ppsLost
  extract_lets x0 x1 x2
  try clear_value x0
  have hx1 : x1.kept = s.kept := by
    unfold x1
    (repeat' (first
      | simp only [↓raise_kept, ↓kept_upd, ↓ite_kept, ite_self]
      | with_reducible refine kept_ite ?_ ?_
      | with_reducible split))
  try clear_value x1
  try clear_value x2
  (repeat' (first
    | simp only [↓hx1, ↓raise_kept, ↓kept_upd, ↓ite_kept, ite_self]
    | with_reducible refine kept_ite ?_ ?_
    | with_reducible split))

theorem ppsEdge_kept (a0 s) : (ppsEdge a0 s).kept = s.kept := by
  unfold ppsEdge
  extract_lets x0 x1 x2 x3 x4 x5 x6 x7 x8 x9 x10 x11
  try clear_value x0
  try clear_value x1
  have hx2 : x2.kept = s.kept := by
    unfold x2
    (repeat' (first
      | simp only [↓ppsLost_kept, ↓setTime_kept, ↓kept_upd, ↓ite_kept, ite_self]
      | with_reducible refine kept_ite ?_ ?_
      | with_reducible split))
  try clear_value x2
  try clear_value x3
  try clear_value x4
  have hx5 : x5.kept = s.kept := by
    unfold x5
    (repeat' (first
      | simp only [↓hx2, ↓ppsLost_kept, ↓setTime_kept, ↓kept_upd, ↓ite_kept, ite_self]
      | with_reducible refine kept_ite ?_ ?_
      | with_reducible split))
  try clear_value x5
  try clear_value x6
  try clear_value x7
  try clear_value x8
  have hx9 : x9.kept = s.kept := by
    unfold x9
    (repeat' (first
      | simp only [↓hx2, ↓hx5, ↓ppsLost_kept, ↓setTime_kept, ↓kept_upd, ↓ite_kept, ite_self]
      | with_reducible refine kept_ite ?_ ?_
      | with_reducible split))
  try clear_value x9
  try clear_value x10
  try clear_value x11
  (repeat' (first
    | simp only [↓hx2, ↓hx5, ↓hx9, ↓ppsLost_kept, ↓setTime_kept, ↓kept_upd, ↓ite_kept, ite_self]
    | with_reducible refine kept_ite ?_ ?_
    | with_reducible split))

theorem lockTick_kept (s) : (lockTick s).kept = s.kept := by
  unfold lockTick
  (repeat' (first
    | simp only [↓setInc_kept, ↓raiseTick_kept, ↓count_kept, ↓lapseTick_kept, ↓kept_upd, ↓ite_kept, ite_self]
    | with_reducible refine kept_ite ?_ ?_
    | with_reducible split))

theorem mediaTick_kept (s) : (mediaTick s).2.kept = s.kept := by
  unfold mediaTick
  (repeat' (first
    | simp only [↓raiseTick_kept, ↓kept_upd, ↓ite_kept, ite_self]
    | with_reducible refine kept_ite ?_ ?_
    | with_reducible split))

theorem ptpW1c_kept (a0 a1 s) : (ptpW1c a0 a1 s).kept = s.kept := by
  unfold ptpW1c
  (repeat' (first
    | simp only [↓kept_upd, ↓ite_kept, ite_self]
    | with_reducible refine kept_ite ?_ ?_
    | with_reducible split))

end Sys2Proof.Machine
end

