-- ==== Sys2Proof/Laws/KeptTwin.lean ====
section
/-!
SUPPORT. What the functions of the model leave alone (twin operation, clocks and reset): the queue, the byte stores and the flash.
-/
set_option linter.all false

namespace Sys2Proof.Machine

/-! ### Twin -/

theorem setSafe_kept (a0 s) : (setSafe a0 s).kept = s.kept := by
  simp only [setSafe, ↓kept_upd]

theorem emitFrom_kept (a0 a1 a2 s) : (emitFrom a0 a1 a2 s).kept = s.kept := by
  simp only [emitFrom, ↓kept_upd]

theorem emitByState_kept (a0 s) : (emitByState a0 s).kept = s.kept := by
  simp only [emitByState, ↓emitFrom_kept, ↓kept_upd]

theorem emitPlan_kept (a0 a1 a2 s) : (emitPlan a0 a1 a2 s).kept = s.kept := by
  unfold emitPlan
  extract_lets x0 x1
  have hx0 : x0.kept = s.kept := by
    unfold x0
    (repeat' (first
      | simp only [↓emitFrom_kept, ↓kept_upd, ↓ite_kept, ite_self]
      | with_reducible refine kept_ite ?_ ?_
      | with_reducible split))
  try clear_value x0
  try clear_value x1
  (repeat' (first
    | simp only [↓hx0, ↓emitFrom_kept, ↓kept_upd, ↓ite_kept, ite_self]
    | with_reducible refine kept_ite ?_ ?_
    | with_reducible split))

theorem emitLeave_kept (b1 s) : (emitLeave b1 s).kept = s.kept := by
  unfold emitLeave
  (repeat' (first
    | simp only [↓emitByState_kept, ↓kept_upd, ↓ite_kept, ite_self]
    | with_reducible refine kept_ite ?_ ?_
    | with_reducible split))

theorem emissionChange_kept (s) : (emissionChange s).kept = s.kept := by
  unfold emissionChange
  (repeat' (first
    | simp only [↓kept_upd, ↓ite_kept, ite_self]
    | with_reducible refine kept_ite ?_ ?_
    | with_reducible split))

theorem peerMoved_kept (a0 s) : (peerMoved a0 s).kept = s.kept := by
  unfold peerMoved
  (repeat' (first
    | simp only [↓controlSend_kept, ↓emitPlan_kept, ↓kept_upd, ↓ite_kept, ite_self]
    | with_reducible refine kept_ite ?_ ?_
    | with_reducible split))

theorem stopActing_kept (s) : (stopActing s).kept = s.kept := by
  unfold stopActing
  extract_lets x0 x1
  try clear_value x0
  have hx1 : x1.kept = s.kept := by
    unfold x1
    (repeat' (first
      | simp only [↓domDecide_kept, ↓kept_upd, ↓kept_updMem, ↓kept_updNvm, ↓kept_updBoth, ↓ite_kept, ↓ite_snd, ↓ite_fst,
          ite_self, implies_true]
      | with_reducible refine kept_ite ?_ ?_
      | with_reducible refine kept_ite_snd ?_ ?_
      | with_reducible refine kept_ite_fst ?_ ?_
      | with_reducible refine kept_ite_snd2 ?_ ?_
      | with_reducible refine ite_to ?_ ?_
      | with_reducible refine Eq.trans (kept_foldl _ ?_ _ _) ?_
      | intro _ _
      | with_reducible split
      | (have h := congrArg (fun x : _ × State => x.2.kept) ‹_ = (_, _)›; simp only [↓domDecide_kept, ] at h; exact h.symm)
      | (have h := congrArg (fun x : State × _ => x.1.kept) ‹_ = (_, _)›; simp only [↓domDecide_kept, ] at h; exact h.symm)
      | (have h := congrArg (fun x : _ × _ × State => x.2.2.kept) ‹_ = (_, _, _)›; simp only [↓domDecide_kept,
          ] at h; exact h.symm)
      | with_reducible rfl))
  try clear_value x1
  (repeat' (first
    | simp only [↓hx1, ↓domDecide_kept, ↓kept_upd, ↓kept_updMem, ↓kept_updNvm, ↓kept_updBoth, ↓ite_kept, ↓ite_snd,
        ↓ite_fst, ite_self, implies_true]
    | with_reducible refine kept_ite ?_ ?_
    | with_reducible refine kept_ite_snd ?_ ?_
    | with_reducible refine kept_ite_fst ?_ ?_
    | with_reducible refine kept_ite_snd2 ?_ ?_
    | with_reducible refine ite_to ?_ ?_
    | with_reducible refine Eq.trans (kept_foldl _ ?_ _ _) ?_
    | intro _ _
    | with_reducible split
    | (have h := congrArg (fun x : _ × State => x.2.kept) ‹_ = (_, _)›; simp only [↓domDecide_kept, ] at h; exact h.symm)
    | (have h := congrArg (fun x : State × _ => x.1.kept) ‹_ = (_, _)›; simp only [↓domDecide_kept, ] at h; exact h.symm)
    | (have h := congrArg (fun x : _ × _ × State => x.2.2.kept) ‹_ = (_, _, _)›; simp only [↓domDecide_kept,
        ] at h; exact h.symm)
    | with_reducible rfl))

theorem startActing_kept (s) : (startActing s).kept = s.kept := by
  unfold startActing
  (repeat' (first
    | simp only [↓leadersTakeover_kept, ↓domDecide_kept, ↓kept_upd, ↓kept_updMem, ↓kept_updNvm, ↓kept_updBoth, ↓ite_kept,
        ↓ite_snd, ↓ite_fst, ite_self, implies_true]
    | with_reducible refine kept_ite ?_ ?_
    | with_reducible refine kept_ite_snd ?_ ?_
    | with_reducible refine kept_ite_fst ?_ ?_
    | with_reducible refine kept_ite_snd2 ?_ ?_
    | with_reducible refine ite_to ?_ ?_
    | with_reducible refine Eq.trans (kept_foldl _ ?_ _ _) ?_
    | intro _ _
    | with_reducible split
    | (have h := congrArg (fun x : _ × State => x.2.kept) ‹_ = (_, _)›; simp only [↓leadersTakeover_kept,
        ↓domDecide_kept, ] at h; exact h.symm)
    | (have h := congrArg (fun x : State × _ => x.1.kept) ‹_ = (_, _)›; simp only [↓leadersTakeover_kept,
        ↓domDecide_kept, ] at h; exact h.symm)
    | (have h := congrArg (fun x : _ × _ × State => x.2.2.kept) ‹_ = (_, _, _)›; simp only [↓leadersTakeover_kept,
        ↓domDecide_kept, ] at h; exact h.symm)
    | with_reducible rfl))

theorem hbSend_kept (s) : (hbSend s).kept = s.kept := by
  simp only [hbSend, ↓kept_upd]

theorem tickFrames_kept (b1 s) : (tickFrames b1 s).kept = s.kept := by
  unfold tickFrames
  (repeat' (first
    | simp only [↓linkSend_kept, ↓kept_upd, ↓ite_kept, ite_self]
    | with_reducible refine kept_ite ?_ ?_
    | with_reducible split))

theorem heartbeatTimer_kept (a0 s) : (heartbeatTimer a0 s).kept = s.kept := by
  unfold heartbeatTimer
  extract_lets x0
  have hx0 : x0.kept = s.kept := by
    unfold x0
    (repeat' (first
      | simp only [↓setSafe_kept, ↓hbSend_kept, ↓kept_upd, ↓ite_kept, ite_self]
      | with_reducible refine kept_ite ?_ ?_
      | with_reducible split))
  try clear_value x0
  (repeat' (first
    | simp only [↓hx0, ↓setSafe_kept, ↓hbSend_kept, ↓kept_upd, ↓ite_kept, ite_self]
    | with_reducible refine kept_ite ?_ ?_
    | with_reducible split))

theorem tokenRelease_kept (a0 s) : (tokenRelease a0 s).kept = s.kept := by
  unfold tokenRelease
  (repeat' (first
    | simp only [↓stopActing_kept, ↓controlSend_kept, ↓hbSend_kept, ↓emitByState_kept, ↓raise_kept, ↓logEntry_kept,
        ↓kept_upd, ↓ite_kept, ite_self]
    | with_reducible refine kept_ite ?_ ?_
    | with_reducible split))

theorem latentFault_kept (s) : (latentFault s).kept = s.kept := by
  unfold latentFault
  (repeat' (first
    | simp only [↓emitLeave_kept, ↓kept_upd, ↓ite_kept, ite_self]
    | with_reducible refine kept_ite ?_ ?_
    | with_reducible split))

theorem tokenFault_kept (a0 s) : (tokenFault a0 s).kept = s.kept := by
  unfold tokenFault
  (repeat' (first
    | simp only [↓tokenRelease_kept, ↓latentFault_kept, ↓kept_upd, ↓ite_kept, ite_self]
    | with_reducible refine kept_ite ?_ ?_
    | with_reducible split))

theorem burstCheck_kept (s) : (burstCheck s).kept = s.kept := by
  unfold burstCheck
  (repeat' (first
    | simp only [↓tokenFault_kept, ↓kept_upd, ↓ite_kept, ite_self]
    | with_reducible refine kept_ite ?_ ?_
    | with_reducible split))

theorem takeToken_kept (a0 s) : (takeToken a0 s).kept = s.kept := by
  unfold takeToken
  extract_lets x0 x1 x2 x3
  have hx0 : x0.kept = s.kept := by
    unfold x0
    (repeat' (first
      | simp only [↓raiseTick_kept, ↓emitByState_kept, ↓startActing_kept, ↓kept_upd, ↓ite_kept, ite_self]
      | with_reducible refine kept_ite ?_ ?_
      | with_reducible split))
  try clear_value x0
  have hx1 : x1.kept = s.kept := by
    unfold x1
    (repeat' (first
      | simp only [↓hx0, ↓raiseTick_kept, ↓emitByState_kept, ↓startActing_kept, ↓kept_upd, ↓ite_kept, ite_self]
      | with_reducible refine kept_ite ?_ ?_
      | with_reducible split))
  try clear_value x1
  try clear_value x2
  have hx3 : x3.kept = s.kept := by
    unfold x3
    (repeat' (first
      | simp only [↓hx0, ↓hx1, ↓raiseTick_kept, ↓emitByState_kept, ↓startActing_kept, ↓kept_upd, ↓ite_kept, ite_self]
      | with_reducible refine kept_ite ?_ ?_
      | with_reducible split))
  try clear_value x3
  (repeat' (first
    | simp only [↓hx0, ↓hx1, ↓hx3, ↓raiseTick_kept, ↓emitByState_kept, ↓startActing_kept, ↓kept_upd, ↓ite_kept, ite_self]
    | with_reducible refine kept_ite ?_ ?_
    | with_reducible split))

theorem leaseExpiry_kept (s) : (leaseExpiry s).kept = s.kept := by
  unfold leaseExpiry
  (repeat' (first
    | simp only [↓setSafe_kept, ↓kept_upd, ↓ite_kept, ite_self]
    | with_reducible refine kept_ite ?_ ?_
    | with_reducible split))

theorem takeover_kept (s) : (takeover s).kept = s.kept := by
  unfold takeover
  (repeat' (first
    | simp only [↓takeToken_kept, ↓kept_upd, ↓ite_kept, ite_self]
    | with_reducible refine kept_ite ?_ ?_
    | with_reducible split))

theorem leaseGuard_kept (s) : (leaseGuard s).kept = s.kept := by
  unfold leaseGuard
  (repeat' (first
    | simp only [↓stopActing_kept, ↓setSafe_kept, ↓kept_upd, ↓ite_kept, ite_self]
    | with_reducible refine kept_ite ?_ ?_
    | with_reducible split))

theorem heartbeatsMissing_kept (s) : (heartbeatsMissing s).kept = s.kept := by
  unfold heartbeatsMissing
  (repeat' (first
    | simp only [↓setSafe_kept, ↓emitByState_kept, ↓kept_upd, ↓ite_kept, ite_self]
    | with_reducible refine kept_ite ?_ ?_
    | with_reducible split))

theorem enterResync_kept (a0 s) : (enterResync a0 s).kept = s.kept := by
  unfold enterResync
  (repeat' (first
    | simp only [↓emitLeave_kept, ↓controlSend_kept, ↓kept_upd, ↓ite_kept, ite_self]
    | with_reducible refine kept_ite ?_ ?_
    | with_reducible split))

theorem enterSuspect_kept (s) : (enterSuspect s).kept = s.kept := by
  simp only [enterSuspect, ↓emitLeave_kept, ↓kept_upd]

theorem enterLatent_kept (s) : (enterLatent s).kept = s.kept := by
  simp only [enterLatent, ↓kept_upd]

theorem renewal_kept (s) : (renewal s).kept = s.kept := by
  unfold renewal
  (repeat' (first
    | simp only [↓raise_kept, ↓kept_upd, ↓ite_kept, ite_self]
    | with_reducible refine kept_ite ?_ ?_
    | with_reducible split))

theorem peerStandby_kept (s) : (peerStandby s).kept = s.kept := by
  simp only [peerStandby, ↓kept_upd]

theorem healthTick_kept (s) : (healthTick s).kept = s.kept := by
  simp only [healthTick, ↓kept_upd]

theorem twinTick_kept (s) : (twinTick s).kept = s.kept := by
  unfold twinTick
  extract_lets x0 x1 x2
  have hx0 : x0.kept = s.kept := by
    unfold x0
    (repeat' (first
      | simp only [↓takeToken_kept, ↓stopActing_kept, ↓enterResync_kept, ↓kept_upd, ↓ite_kept, ite_self]
      | with_reducible refine kept_ite ?_ ?_
      | with_reducible split))
  try clear_value x0
  try clear_value x1
  have hx2 : x2.kept = s.kept := by
    unfold x2
    (repeat' (first
      | simp only [↓hx0, ↓takeToken_kept, ↓stopActing_kept, ↓enterResync_kept, ↓kept_upd, ↓ite_kept, ite_self]
      | with_reducible refine kept_ite ?_ ?_
      | with_reducible split))
  try clear_value x2
  (repeat' (first
    | simp only [↓hx0, ↓hx2, ↓takeToken_kept, ↓stopActing_kept, ↓enterResync_kept, ↓kept_upd, ↓ite_kept, ite_self]
    | with_reducible refine kept_ite ?_ ?_
    | with_reducible split))

theorem linkLost_kept (s) : (linkLost s).kept = s.kept := by
  unfold linkLost
  extract_lets x0 x1
  try clear_value x0
  have hx1 : x1.kept = s.kept := by
    unfold x1
    (repeat' (first
      | simp only [↓emitByState_kept, ↓kept_upd, ↓ite_kept, ite_self]
      | with_reducible refine kept_ite ?_ ?_
      | with_reducible split))
  try clear_value x1
  (repeat' (first
    | simp only [↓hx1, ↓emitByState_kept, ↓kept_upd, ↓ite_kept, ite_self]
    | with_reducible refine kept_ite ?_ ?_
    | with_reducible split))

theorem linkRestored_kept (s) : (linkRestored s).kept = s.kept := by
  unfold linkRestored
  extract_lets x0 x1
  try clear_value x0
  have hx1 : x1.kept = s.kept := by
    unfold x1
    (repeat' (first
      | simp only [↓enterResync_kept, ↓peerMoved_kept, ↓kept_upd, ↓ite_kept, ite_self]
      | with_reducible refine kept_ite ?_ ?_
      | with_reducible split))
  try clear_value x1
  (repeat' (first
    | simp only [↓hx1, ↓enterResync_kept, ↓peerMoved_kept, ↓kept_upd, ↓ite_kept, ite_self]
    | with_reducible refine kept_ite ?_ ?_
    | with_reducible split))

theorem linkEdge_kept (a0 s) : (linkEdge a0 s).kept = s.kept := by
  unfold linkEdge
  (repeat' (first
    | simp only [↓linkRestored_kept, ↓linkLost_kept, ↓kept_upd, ↓ite_kept, ite_self]
    | with_reducible refine kept_ite ?_ ?_
    | with_reducible split))

theorem linkSide_kept (a0 a1 a2 s) : (linkSide a0 a1 a2 s).kept = s.kept := by
  simp only [linkSide, ↓linkEdge_kept, ↓kept_upd]

theorem linkLossTick_kept (s) : (linkLossTick s).kept = s.kept := by
  unfold linkLossTick
  (repeat' (first
    | simp only [↓raiseTick_kept, ↓emitByState_kept, ↓enterResync_kept, ↓kept_upd, ↓ite_kept, ite_self]
    | with_reducible refine kept_ite ?_ ?_
    | with_reducible split))

theorem peerFlags_kept (a0 a1 a2 a3 s) : (peerFlags a0 a1 a2 a3 s).kept = s.kept := by
  unfold peerFlags
  (repeat' (first
    | simp only [↓renewal_kept, ↓peerStandby_kept, ↓peerMoved_kept, ↓kept_upd, ↓ite_kept, ite_self]
    | with_reducible refine kept_ite ?_ ?_
    | with_reducible split))

theorem heartbeatReceive_kept (a0 a1 s) : (heartbeatReceive a0 a1 s).kept = s.kept := by
  unfold heartbeatReceive
  extract_lets x0 x1 x2 x3 x4 x5
  have hx0 : x0.kept = s.kept := by
    unfold x0
    (repeat' (first
      | simp only [↓setSafe_kept, ↓count_kept, ↓linkEdge_kept, ↓peerFlags_kept, ↓kept_upd, ↓ite_kept, ite_self]
      | with_reducible refine kept_ite ?_ ?_
      | with_reducible split))
  try clear_value x0
  try clear_value x1
  try clear_value x2
  try clear_value x3
  try clear_value x4
  have hx5 : x5.kept = s.kept := by
    unfold x5
    (repeat' (first
      | simp only [↓hx0, ↓setSafe_kept, ↓count_kept, ↓linkEdge_kept, ↓peerFlags_kept, ↓kept_upd, ↓ite_kept, ite_self]
      | with_reducible refine kept_ite ?_ ?_
      | with_reducible split))
  try clear_value x5
  (repeat' (first
    | simp only [↓hx0, ↓hx5, ↓setSafe_kept, ↓count_kept, ↓linkEdge_kept, ↓peerFlags_kept, ↓kept_upd, ↓ite_kept, ite_self]
    | with_reducible refine kept_ite ?_ ?_
    | with_reducible split))

theorem leaseReceive_kept (a0 a1 s) : (leaseReceive a0 a1 s).kept = s.kept := by
  unfold leaseReceive
  (repeat' (first
    | simp only [↓linkReceive_kept, ↓setSafe_kept, ↓peerFlags_kept, ↓kept_upd, ↓ite_kept, ite_self]
    | with_reducible refine kept_ite ?_ ?_
    | with_reducible split))

theorem cmdResult_kept (a0 s) : (cmdResult a0 s).kept = s.kept := by
  simp only [cmdResult, ↓kept_upd]

theorem cmdCount_kept (s) : (cmdCount s).kept = s.kept := by
  simp only [cmdCount, ↓kept_upd]

theorem cmdRelease_kept (s) : (cmdRelease s).kept = s.kept := by
  unfold cmdRelease
  (repeat' (first
    | simp only [↓cmdResult_kept, ↓tokenRelease_kept, ↓kept_upd, ↓ite_kept, ite_self]
    | with_reducible refine kept_ite ?_ ?_
    | with_reducible split))

theorem cmdHandover_kept (a0 s) : (cmdHandover a0 s).kept = s.kept := by
  unfold cmdHandover
  (repeat' (first
    | simp only [↓cmdResult_kept, ↓kept_upd, ↓ite_kept, ite_self]
    | with_reducible refine kept_ite ?_ ?_
    | with_reducible split))

theorem handoverBegin_kept (a0 s) : (handoverBegin a0 s).kept = s.kept := by
  simp only [handoverBegin, ↓controlSend_kept, ↓kept_upd]

theorem handoverRegister_kept (s) : (handoverRegister s).kept = s.kept := by
  unfold handoverRegister
  extract_lets x0 x1
  try clear_value x0
  have hx1 : x1.kept = s.kept := by
    unfold x1
    (repeat' (first
      | simp only [↓cmdResult_kept, ↓handoverBegin_kept, ↓kept_upd, ↓ite_kept, ite_self]
      | with_reducible refine kept_ite ?_ ?_
      | with_reducible split))
  try clear_value x1
  (repeat' (first
    | simp only [↓hx1, ↓cmdResult_kept, ↓handoverBegin_kept, ↓kept_upd, ↓ite_kept, ite_self]
    | with_reducible refine kept_ite ?_ ?_
    | with_reducible split))

theorem handoverReceive_kept (a0 s) : (handoverReceive a0 s).kept = s.kept := by
  unfold handoverReceive
  (repeat' (first
    | simp only [↓controlSend_kept, ↓kept_upd, ↓ite_kept, ite_self]
    | with_reducible refine kept_ite ?_ ?_
    | with_reducible split))

theorem handoverAck_kept (a0 s) : (handoverAck a0 s).kept = s.kept := by
  unfold handoverAck
  (repeat' (first
    | simp only [↓kept_upd, ↓ite_kept, ite_self]
    | with_reducible refine kept_ite ?_ ?_
    | with_reducible split))

theorem handoverCommit_kept (s) : (handoverCommit s).kept = s.kept := by
  unfold handoverCommit
  (repeat' (first
    | simp only [↓raiseTick_kept, ↓cmdResult_kept, ↓kept_upd, ↓ite_kept, ite_self]
    | with_reducible refine kept_ite ?_ ?_
    | with_reducible split))

theorem handoverSwitch_kept (s) : (handoverSwitch s).kept = s.kept := by
  unfold handoverSwitch
  extract_lets x0 x1 x2 x3 x4 x5 x6
  try clear_value x0
  try clear_value x2
  have hx3 : x3.kept = s.kept := by
    unfold x3
    (repeat' (first
      | simp only [↓evcOccur_kept, ↓count_kept, ↓stopActing_kept, ↓emitByState_kept, ↓enterLatent_kept,
          ↓startActing_kept, ↓kept_upd, ↓ite_kept, ite_self]
      | with_reducible refine kept_ite ?_ ?_
      | with_reducible split))
  try clear_value x3
  try clear_value x4
  have hx5 : x5.kept = s.kept := by
    unfold x5
    (repeat' (first
      | simp only [↓hx3, ↓evcOccur_kept, ↓count_kept, ↓stopActing_kept, ↓emitByState_kept, ↓enterLatent_kept,
          ↓startActing_kept, ↓kept_upd, ↓ite_kept, ite_self]
      | with_reducible refine kept_ite ?_ ?_
      | with_reducible split))
  try clear_value x5
  try clear_value x6
  (repeat' (first
    | simp only [x1, ↓hx3, ↓hx5, ↓evcOccur_kept, ↓count_kept, ↓stopActing_kept, ↓emitByState_kept, ↓enterLatent_kept,
        ↓startActing_kept, ↓kept_upd, ↓ite_kept, ite_self]
    | with_reducible refine kept_ite ?_ ?_
    | with_reducible split))

theorem tickView_kept (s) : (tickView s).kept = s.kept := by
  simp only [tickView, ↓takeover_kept, ↓handoverSwitch_kept, ↓handoverCommit_kept, ↓linkLossTick_kept, ↓kept_upd]

theorem releaseReceive_kept (a0 s) : (releaseReceive a0 s).kept = s.kept := by
  unfold releaseReceive
  (repeat' (first
    | simp only [↓kept_upd, ↓ite_kept, ite_self]
    | with_reducible refine kept_ite ?_ ?_
    | with_reducible split))

theorem takebackAsk_kept (s) : (takebackAsk s).kept = s.kept := by
  unfold takebackAsk
  (repeat' (first
    | simp only [↓controlSend_kept, ↓kept_upd, ↓ite_kept, ite_self]
    | with_reducible refine kept_ite ?_ ?_
    | with_reducible split))

theorem takebackReceive_kept (s) : (takebackReceive s).kept = s.kept := by
  unfold takebackReceive
  (repeat' (first
    | simp only [↓handoverBegin_kept, ↓controlSend_kept, ↓kept_upd, ↓ite_kept, ite_self]
    | with_reducible refine kept_ite ?_ ?_
    | with_reducible split))

theorem emitReceive_kept (a0 s) : (emitReceive a0 s).kept = s.kept := by
  unfold emitReceive
  (repeat' (first
    | simp only [↓emitPlan_kept, ↓kept_upd, ↓ite_kept, ite_self]
    | with_reducible refine kept_ite ?_ ?_
    | with_reducible split))

theorem divergentReceive_kept (a0 s) : (divergentReceive a0 s).kept = s.kept := by
  unfold divergentReceive
  extract_lets x0 x1 x2
  try clear_value x0
  try clear_value x1
  have hx2 : x2.kept = s.kept := by
    unfold x2
    (repeat' (first
      | simp only [↓enterLatent_kept, ↓enterResync_kept, ↓raise_kept, ↓kept_upd, ↓ite_kept, ite_self]
      | with_reducible refine kept_ite ?_ ?_
      | with_reducible split))
  try clear_value x2
  (repeat' (first
    | simp only [↓hx2, ↓enterLatent_kept, ↓enterResync_kept, ↓raise_kept, ↓kept_upd, ↓ite_kept, ite_self]
    | with_reducible refine kept_ite ?_ ?_
    | with_reducible split))

theorem noteHello_kept (a0 s) : (noteHello a0 s).kept = s.kept := by
  simp only [noteHello, ↓kept_upd]

theorem compatEvent_kept (a0 s) : (compatEvent a0 s).kept = s.kept := by
  unfold compatEvent
  (repeat' (first
    | simp only [↓raise_kept, ↓controlSend_kept, ↓kept_upd, ↓ite_kept, ite_self]
    | with_reducible refine kept_ite ?_ ?_
    | with_reducible split))

theorem joinState_kept (a0 s) : (joinState a0 s).kept = s.kept := by
  unfold joinState
  extract_lets x0 x1
  have hx0 : x0.kept = s.kept := by
    unfold x0
    (repeat' (first
      | simp only [↓raise_kept, ↓kept_upd, ↓ite_kept, ite_self]
      | with_reducible refine kept_ite ?_ ?_
      | with_reducible split))
  try clear_value x0
  try clear_value x1
  (repeat' (first
    | simp only [↓hx0, ↓raise_kept, ↓kept_upd, ↓ite_kept, ite_self]
    | with_reducible refine kept_ite ?_ ?_
    | with_reducible split))

theorem jointDecide_kept (s) : (jointDecide s).kept = s.kept := by
  unfold jointDecide
  extract_lets x0 x1 x2 x3 x4 x5 x6 x7 x8
  try clear_value x0
  try clear_value x1
  have hx2 : x2.kept = s.kept := by
    unfold x2
    (repeat' (first
      | simp only [↓raise_kept, ↓compatEvent_kept, ↓joinState_kept, ↓kept_upd, ↓ite_kept, ite_self]
      | with_reducible refine kept_ite ?_ ?_
      | with_reducible split))
  try clear_value x2
  try clear_value x3
  try clear_value x4
  have hx5 : x5.kept = s.kept := by
    unfold x5
    (repeat' (first
      | simp only [↓hx2, ↓raise_kept, ↓compatEvent_kept, ↓joinState_kept, ↓kept_upd, ↓ite_kept, ite_self]
      | with_reducible refine kept_ite ?_ ?_
      | with_reducible split))
  try clear_value x5
  try clear_value x6
  have hx7 : x7.kept = s.kept := by
    unfold x7
    (repeat' (first
      | simp only [↓hx2, ↓hx5, ↓raise_kept, ↓compatEvent_kept, ↓joinState_kept, ↓kept_upd, ↓ite_kept, ite_self]
      | with_reducible refine kept_ite ?_ ?_
      | with_reducible split))
  try clear_value x7
  try clear_value x8
  (repeat' (first
    | simp only [↓hx2, ↓hx5, ↓hx7, ↓raise_kept, ↓compatEvent_kept, ↓joinState_kept, ↓kept_upd, ↓ite_kept, ite_self]
    | with_reducible refine kept_ite ?_ ?_
    | with_reducible split))

theorem helloReceive_kept (a0 s) : (helloReceive a0 s).kept = s.kept := by
  unfold helloReceive
  (repeat' (first
    | simp only [↓noteHello_kept, ↓jointDecide_kept, ↓controlSend_kept, ↓compatEvent_kept, ↓emitByState_kept, ↓kept_upd,
        ↓ite_kept, ite_self]
    | with_reducible refine kept_ite ?_ ?_
    | with_reducible split))

theorem helloReply_kept (a0 s) : (helloReply a0 s).kept = s.kept := by
  unfold helloReply
  extract_lets x0 x1 x2 x3
  have hx0 : x0.kept = s.kept := by
    unfold x0
    (repeat' (first
      | simp only [↓noteHello_kept, ↓jointDecide_kept, ↓joinState_kept, ↓kept_upd, ↓ite_kept, ite_self]
      | with_reducible refine kept_ite ?_ ?_
      | with_reducible split))
  try clear_value x0
  try clear_value x1
  try clear_value x2
  try clear_value x3
  (repeat' (first
    | simp only [↓hx0, ↓noteHello_kept, ↓jointDecide_kept, ↓joinState_kept, ↓kept_upd, ↓ite_kept, ite_self]
    | with_reducible refine kept_ite ?_ ?_
    | with_reducible split))

theorem handshakeStart_kept (s) : (handshakeStart s).kept = s.kept := by
  unfold handshakeStart
  extract_lets x0 x1 x2 x3
  try clear_value x0
  have hx1 : x1.kept = s.kept := by
    unfold x1
    (repeat' (first
      | simp only [↓controlSend_kept, ↓jointDecide_kept, ↓kept_upd, ↓ite_kept, ite_self]
      | with_reducible refine kept_ite ?_ ?_
      | with_reducible split))
  try clear_value x1
  try clear_value x2
  have hx3 : x3.kept = s.kept := by
    unfold x3
    (repeat' (first
      | simp only [↓hx1, ↓controlSend_kept, ↓jointDecide_kept, ↓kept_upd, ↓ite_kept, ite_self]
      | with_reducible refine kept_ite ?_ ?_
      | with_reducible split))
  try clear_value x3
  (repeat' (first
    | simp only [↓hx1, ↓hx3, ↓controlSend_kept, ↓jointDecide_kept, ↓kept_upd, ↓ite_kept, ite_self]
    | with_reducible refine kept_ite ?_ ?_
    | with_reducible split))

theorem goAlone_kept (s) : (goAlone s).kept = s.kept := by
  unfold goAlone
  extract_lets x0 x1 x2
  try clear_value x0
  have hx1 : x1.kept = s.kept := by
    unfold x1
    (repeat' (first
      | simp only [↓kept_upd, ↓ite_kept, ite_self]
      | with_reducible refine kept_ite ?_ ?_
      | with_reducible split))
  try clear_value x1
  try clear_value x2
  (repeat' (first
    | simp only [↓hx1, ↓kept_upd, ↓ite_kept, ite_self]
    | with_reducible refine kept_ite ?_ ?_
    | with_reducible split))

theorem noPartnerTimeout_kept (s) : (noPartnerTimeout s).kept = s.kept := by
  unfold noPartnerTimeout
  (repeat' (first
    | simp only [↓goAlone_kept, ↓setSafe_kept, ↓kept_upd, ↓ite_kept, ite_self]
    | with_reducible refine kept_ite ?_ ?_
    | with_reducible split))

theorem helloTimeout_kept (s) : (helloTimeout s).kept = s.kept := by
  unfold helloTimeout
  (repeat' (first
    | simp only [↓raise_kept, ↓goAlone_kept, ↓setSafe_kept, ↓kept_upd, ↓ite_kept, ite_self]
    | with_reducible refine kept_ite ?_ ?_
    | with_reducible split))

theorem healthSend_kept (s) : (healthSend s).kept = s.kept := by
  simp only [healthSend, ↓linkSend_kept, ↓kept_upd]

theorem healthReceive_kept (a0 s) : (healthReceive a0 s).kept = s.kept := by
  simp only [healthReceive, ↓kept_upd]

theorem selfTestDone_kept (a0 a1 s) : (selfTestDone a0 a1 s).kept = s.kept := by
  unfold selfTestDone
  (repeat' (first
    | simp only [↓enterResync_kept, ↓raise_kept, ↓kept_upd, ↓ite_kept, ite_self]
    | with_reducible refine kept_ite ?_ ?_
    | with_reducible split))

theorem spareRowTest_kept (a0 s) : (spareRowTest a0 s).kept = s.kept := by
  unfold spareRowTest
  extract_lets x0 x1 x2
  have hx1 : x1.kept = s.kept := by
    unfold x1
    (repeat' (first
      | simp only [x0, ↓kept_upd, ↓kept_updMem, ↓kept_updNvm, ↓kept_updBoth, ↓ite_kept, ↓ite_snd, ↓ite_fst, ite_self,
          implies_true]
      | with_reducible refine kept_ite ?_ ?_
      | with_reducible refine kept_ite_snd ?_ ?_
      | with_reducible refine kept_ite_fst ?_ ?_
      | with_reducible refine kept_ite_snd2 ?_ ?_
      | with_reducible refine ite_to ?_ ?_
      | with_reducible refine Eq.trans (kept_foldl _ ?_ _ _) ?_
      | intro _ _
      | with_reducible split
      | (have h := congrArg (fun x : _ × State => x.2.kept) ‹_ = (_, _)›; simp only [] at h; exact h.symm)
      | (have h := congrArg (fun x : State × _ => x.1.kept) ‹_ = (_, _)›; simp only [] at h; exact h.symm)
      | (have h := congrArg (fun x : _ × _ × State => x.2.2.kept) ‹_ = (_, _, _)›; simp only [] at h; exact h.symm)
      | with_reducible rfl))
  try clear_value x1
  try clear_value x2
  (repeat' (first
    | simp only [↓hx1, ↓kept_upd, ↓kept_updMem, ↓kept_updNvm, ↓kept_updBoth, ↓ite_kept, ↓ite_snd, ↓ite_fst, ite_self,
        implies_true]
    | with_reducible refine kept_ite ?_ ?_
    | with_reducible refine kept_ite_snd ?_ ?_
    | with_reducible refine kept_ite_fst ?_ ?_
    | with_reducible refine kept_ite_snd2 ?_ ?_
    | with_reducible refine ite_to ?_ ?_
    | with_reducible refine Eq.trans (kept_foldl _ ?_ _ _) ?_
    | intro _ _
    | with_reducible split
    | (have h := congrArg (fun x : _ × State => x.2.kept) ‹_ = (_, _)›; simp only [] at h; exact h.symm)
    | (have h := congrArg (fun x : State × _ => x.1.kept) ‹_ = (_, _)›; simp only [] at h; exact h.symm)
    | (have h := congrArg (fun x : _ × _ × State => x.2.2.kept) ‹_ = (_, _, _)›; simp only [] at h; exact h.symm)
    | with_reducible rfl))

theorem twinW1c_kept (a0 s) : (twinW1c a0 s).kept = s.kept := by
  simp only [twinW1c, ↓kept_upd]

/-! ### Clocks -/

theorem keepBalls_keeps (s t) : Keeps t (keepBalls s t) := ⟨rfl, rfl, id, id, id⟩

theorem resetDevice_keeps (a0 s) : Keeps s (resetDevice a0 s) := by
  unfold resetDevice
  dsimp only
  refine Keeps.ite (.of_kept (kept_upd ..)) ?_
  refine Keeps.to_kept ?_ (kept_upd ..)
  refine Keeps.trans ?_ (keepBalls_keeps _ _)
  exact fresh_keeps _ _ _ _ _ _ rfl rfl

theorem powerOn_keeps (s) : Keeps s (powerOn s) := by
  refine Keeps.trans ?_ (keepBalls_keeps _ _)
  exact fresh_keeps _ _ _ _ _ _ rfl rfl

theorem resetNLow_keeps (s) : Keeps s (resetNLow s) := by
  unfold resetNLow
  extract_lets x0 x1
  have hx0 : Keeps s x0 := by
    unfold x0
    (repeat' (first
      | with_reducible exact Keeps.rfl_ _
      | with_reducible assumption
      | with_reducible refine Keeps.ite ?_ ?_
      | with_reducible refine Keeps.ite_snd ?_ ?_
      | with_reducible refine Keeps.trans ?_ (resetDevice_keeps ..)
      | with_reducible refine Keeps.foldl ?_ ?_
      | intro _ _
      | with_reducible split
      | simp only []
      | with_reducible refine Keeps.to_kept ?_ (kept_upd ..)
      | with_reducible refine Keeps.to_kept ?_ (kept_updMem ..)
      | with_reducible refine Keeps.to_kept ?_ (kept_updNvm ..)
      | with_reducible refine Keeps.to_kept ?_ (kept_updBoth ..)))
  try clear_value x0
  try clear_value x1
  (repeat' (first
    | with_reducible exact Keeps.rfl_ _
    | with_reducible assumption
    | with_reducible refine Keeps.ite ?_ ?_
    | with_reducible refine Keeps.ite_snd ?_ ?_
    | with_reducible refine Keeps.trans ?_ (resetDevice_keeps ..)
    | with_reducible refine Keeps.foldl ?_ ?_
    | intro _ _
    | with_reducible split
    | simp only []
    | with_reducible refine Keeps.to_kept ?_ (kept_upd ..)
    | with_reducible refine Keeps.to_kept ?_ (kept_updMem ..)
    | with_reducible refine Keeps.to_kept ?_ (kept_updNvm ..)
    | with_reducible refine Keeps.to_kept ?_ (kept_updBoth ..)))

theorem nextFree_kept (s) : (nextFree s).2.kept = s.kept := by
  simp only [nextFree, ↓kept_upd]

theorem pgoodChange_keeps (a0 s) : Keeps s (pgoodChange a0 s) := by
  unfold pgoodChange
  extract_lets x0 x1 x2
  try clear_value x0
  have hx1 : Keeps s x1 := by
    unfold x1
    (repeat' (first
      | with_reducible exact Keeps.rfl_ _
      | with_reducible assumption
      | with_reducible refine Keeps.ite ?_ ?_
      | with_reducible refine Keeps.ite_snd ?_ ?_
      | with_reducible refine Keeps.to_kept ?_ (nextFree_kept ..)
      | with_reducible refine Keeps.trans ?_ (resetDevice_keeps ..)
      | with_reducible refine Keeps.foldl ?_ ?_
      | intro _ _
      | with_reducible split
      | simp only []
      | with_reducible refine Keeps.to_kept ?_ (kept_upd ..)
      | with_reducible refine Keeps.to_kept ?_ (kept_updMem ..)
      | with_reducible refine Keeps.to_kept ?_ (kept_updNvm ..)
      | with_reducible refine Keeps.to_kept ?_ (kept_updBoth ..)))
  try clear_value x1
  try clear_value x2
  (repeat' (first
    | with_reducible exact Keeps.rfl_ _
    | with_reducible assumption
    | with_reducible refine Keeps.ite ?_ ?_
    | with_reducible refine Keeps.ite_snd ?_ ?_
    | with_reducible refine Keeps.to_kept ?_ (nextFree_kept ..)
    | with_reducible refine Keeps.trans ?_ (resetDevice_keeps ..)
    | with_reducible refine Keeps.foldl ?_ ?_
    | intro _ _
    | with_reducible split
    | simp only []
    | with_reducible refine Keeps.to_kept ?_ (kept_upd ..)
    | with_reducible refine Keeps.to_kept ?_ (kept_updMem ..)
    | with_reducible refine Keeps.to_kept ?_ (kept_updNvm ..)
    | with_reducible refine Keeps.to_kept ?_ (kept_updBoth ..)))

theorem resetRelease_kept (a0 a1 a2 s) : (resetRelease a0 a1 a2 s).kept = s.kept := by
  unfold resetRelease
  extract_lets x0 x1 x2 x3
  have hx0 : x0.kept = s.kept := by
    unfold x0
    (repeat' (first
      | simp only [↓setSafe_kept, ↓kept_upd, ↓ite_kept, ite_self]
      | with_reducible refine kept_ite ?_ ?_
      | with_reducible split))
  try clear_value x0
  try clear_value x1
  try clear_value x2
  try clear_value x3
  (repeat' (first
    | simp only [↓hx0, ↓setSafe_kept, ↓kept_upd, ↓ite_kept, ite_self]
    | with_reducible refine kept_ite ?_ ?_
    | with_reducible split))

theorem domainSet_kept (a0 a1 s) : (domainSet a0 a1 s).kept = s.kept := by
  simp only [domainSet, ↓kept_upd]

theorem pllSet_kept (a0 a1 s) : (pllSet a0 a1 s).kept = s.kept := by
  simp only [pllSet, ↓kept_upd]

theorem programPll_kept (a0 a1 a2 a3 s) : (programPll a0 a1 a2 a3 s).kept = s.kept := by
  simp only [programPll, ↓rset_kept, ↓kept_upd]

theorem programFixed_kept (s) : (programFixed s).kept = s.kept := by
  simp only [programFixed, ↓programPll_kept, ↓kept_upd]

theorem programApll_kept (a0 s) : (programApll a0 s).kept = s.kept := by
  unfold programApll
  (repeat' (first
    | simp only [↓programPll_kept, ↓kept_upd, ↓ite_kept, ite_self]
    | with_reducible refine kept_ite ?_ ?_
    | with_reducible split))

theorem pllFracWrite_kept (a0 a1 s) : (pllFracWrite a0 a1 s).kept = s.kept := by
  simp only [pllFracWrite, ↓rset_kept, ↓kept_upd]

theorem mediaServo_kept (s) : (mediaServo s).kept = s.kept := by
  unfold mediaServo
  (repeat' (first
    | simp only [↓nextFree_kept, ↓rset_kept, ↓kept_upd, ↓ite_kept, ite_self]
    | with_reducible refine kept_ite ?_ ?_
    | with_reducible split))

theorem ctrlToSafe_kept (s) : (ctrlToSafe s).kept = s.kept := by
  unfold ctrlToSafe
  (repeat' (first
    | simp only [↓domainSet_kept, ↓kept_upd, ↓ite_kept, ite_self]
    | with_reducible refine kept_ite ?_ ?_
    | with_reducible split))

theorem clockFault_kept (a0 a1 a2 s) : (clockFault a0 a1 a2 s).kept = s.kept := by
  unfold clockFault
  (repeat' (first
    | simp only [↓count_kept, ↓logEntry_kept, ↓tokenFault_kept, ↓ctrlToSafe_kept, ↓kept_upd, ↓ite_kept, ite_self]
    | with_reducible refine kept_ite ?_ ?_
    | with_reducible split))

theorem pllLock_kept (a0 s) : (pllLock a0 s).kept = s.kept := by
  unfold pllLock
  (repeat' (first
    | simp only [↓pllSet_kept, ↓kept_upd, ↓ite_kept, ite_self]
    | with_reducible refine kept_ite ?_ ?_
    | with_reducible split))

theorem pllUnlock_kept (a0 s) : (pllUnlock a0 s).kept = s.kept := by
  unfold pllUnlock
  extract_lets x0 x1 x2 x3
  try clear_value x0
  have hx1 : x1.kept = s.kept := by
    unfold x1
    (repeat' (first
      | simp only [↓pllSet_kept, ↓raise_kept, ↓clockFault_kept, ↓kept_upd, ↓ite_kept, ite_self]
      | with_reducible refine kept_ite ?_ ?_
      | with_reducible split))
  try clear_value x1
  try clear_value x2
  have hx3 : x3.kept = s.kept := by
    unfold x3
    (repeat' (first
      | simp only [↓hx1, ↓pllSet_kept, ↓raise_kept, ↓clockFault_kept, ↓kept_upd, ↓ite_kept, ite_self]
      | with_reducible refine kept_ite ?_ ?_
      | with_reducible split))
  try clear_value x3
  (repeat' (first
    | simp only [↓hx1, ↓hx3, ↓pllSet_kept, ↓raise_kept, ↓clockFault_kept, ↓kept_upd, ↓ite_kept, ite_self]
    | with_reducible refine kept_ite ?_ ?_
    | with_reducible split))

theorem mediaFault_kept (s) : (mediaFault s).kept = s.kept := by
  unfold mediaFault
  dsimp only
  simp only [↓clockFault_kept, ↓raiseTick_kept, ↓pllSet_kept, ↓kept_upd, ↓ite_kept, ite_self]

theorem refLost_kept (s) : (refLost s).kept = s.kept := by
  unfold refLost
  extract_lets x0 x1
  try clear_value x0
  have hx1 : x1.kept = s.kept := by
    unfold x1
    (repeat' (first
      | simp only [↓clockFault_kept, ↓raise_kept, ↓kept_upd, ↓ite_kept, ite_self]
      | with_reducible refine kept_ite ?_ ?_
      | with_reducible split))
  try clear_value x1
  (repeat' (first
    | simp only [↓hx1, ↓clockFault_kept, ↓raise_kept, ↓kept_upd, ↓ite_kept, ite_self]
    | with_reducible refine kept_ite ?_ ?_
    | with_reducible split))

theorem refWindow_kept (a0 a1 s) : (refWindow a0 a1 s).kept = s.kept := by
  unfold refWindow
  extract_lets x0 x1 x2 x3 x4 x5 x6 x7 x8
  try clear_value x0
  try clear_value x1
  have hx2 : x2.kept = s.kept := by
    unfold x2
    (repeat' (first
      | simp only [↓programFixed_kept, ↓domainSet_kept, ↓refLost_kept, ↓kept_upd, ↓kept_updMem, ↓kept_updNvm,
          ↓kept_updBoth, ↓ite_kept, ↓ite_snd, ↓ite_fst, ite_self, implies_true]
      | with_reducible refine kept_ite ?_ ?_
      | with_reducible refine kept_ite_snd ?_ ?_
      | with_reducible refine kept_ite_fst ?_ ?_
      | with_reducible refine kept_ite_snd2 ?_ ?_
      | with_reducible refine ite_to ?_ ?_
      | with_reducible refine Eq.trans (kept_foldl _ ?_ _ _) ?_
      | intro _ _
      | with_reducible split
      | (have h := congrArg (fun x : _ × State => x.2.kept) ‹_ = (_, _)›; simp only [↓programFixed_kept, ↓domainSet_kept,
          ↓refLost_kept, ] at h; exact h.symm)
      | (have h := congrArg (fun x : State × _ => x.1.kept) ‹_ = (_, _)›; simp only [↓programFixed_kept, ↓domainSet_kept,
          ↓refLost_kept, ] at h; exact h.symm)
      | (have h := congrArg (fun x : _ × _ × State => x.2.2.kept) ‹_ = (_, _, _)›; simp only [↓programFixed_kept,
          ↓domainSet_kept, ↓refLost_kept, ] at h; exact h.symm)
      | with_reducible rfl))
  try clear_value x2
  try clear_value x3
  try clear_value x4
  have hx5 : x5.kept = s.kept := by
    unfold x5
    (repeat' (first
      | simp only [↓hx2, ↓programFixed_kept, ↓domainSet_kept, ↓refLost_kept, ↓kept_upd, ↓kept_updMem, ↓kept_updNvm,
          ↓kept_updBoth, ↓ite_kept, ↓ite_snd, ↓ite_fst, ite_self, implies_true]
      | with_reducible refine kept_ite ?_ ?_
      | with_reducible refine kept_ite_snd ?_ ?_
      | with_reducible refine kept_ite_fst ?_ ?_
      | with_reducible refine kept_ite_snd2 ?_ ?_
      | with_reducible refine ite_to ?_ ?_
      | with_reducible refine Eq.trans (kept_foldl _ ?_ _ _) ?_
      | intro _ _
      | with_reducible split
      | (have h := congrArg (fun x : _ × State => x.2.kept) ‹_ = (_, _)›; simp only [↓programFixed_kept, ↓domainSet_kept,
          ↓refLost_kept, ] at h; exact h.symm)
      | (have h := congrArg (fun x : State × _ => x.1.kept) ‹_ = (_, _)›; simp only [↓programFixed_kept, ↓domainSet_kept,
          ↓refLost_kept, ] at h; exact h.symm)
      | (have h := congrArg (fun x : _ × _ × State => x.2.2.kept) ‹_ = (_, _, _)›; simp only [↓programFixed_kept,
          ↓domainSet_kept, ↓refLost_kept, ] at h; exact h.symm)
      | with_reducible rfl))
  try clear_value x5
  try clear_value x6
  have hx7 : x7.kept = s.kept := by
    unfold x7
    (repeat' (first
      | simp only [↓hx2, ↓hx5, ↓programFixed_kept, ↓domainSet_kept, ↓refLost_kept, ↓kept_upd, ↓kept_updMem, ↓kept_updNvm,
          ↓kept_updBoth, ↓ite_kept, ↓ite_snd, ↓ite_fst, ite_self, implies_true]
      | with_reducible refine kept_ite ?_ ?_
      | with_reducible refine kept_ite_snd ?_ ?_
      | with_reducible refine kept_ite_fst ?_ ?_
      | with_reducible refine kept_ite_snd2 ?_ ?_
      | with_reducible refine ite_to ?_ ?_
      | with_reducible refine Eq.trans (kept_foldl _ ?_ _ _) ?_
      | intro _ _
      | with_reducible split
      | (have h := congrArg (fun x : _ × State => x.2.kept) ‹_ = (_, _)›; simp only [↓programFixed_kept, ↓domainSet_kept,
          ↓refLost_kept, ] at h; exact h.symm)
      | (have h := congrArg (fun x : State × _ => x.1.kept) ‹_ = (_, _)›; simp only [↓programFixed_kept, ↓domainSet_kept,
          ↓refLost_kept, ] at h; exact h.symm)
      | (have h := congrArg (fun x : _ × _ × State => x.2.2.kept) ‹_ = (_, _, _)›; simp only [↓programFixed_kept,
          ↓domainSet_kept, ↓refLost_kept, ] at h; exact h.symm)
      | with_reducible rfl))
  try clear_value x7
  try clear_value x8
  (repeat' (first
    | simp only [↓hx2, ↓hx5, ↓hx7, ↓programFixed_kept, ↓domainSet_kept, ↓refLost_kept, ↓kept_upd, ↓kept_updMem,
        ↓kept_updNvm, ↓kept_updBoth, ↓ite_kept, ↓ite_snd, ↓ite_fst, ite_self, implies_true]
    | with_reducible refine kept_ite ?_ ?_
    | with_reducible refine kept_ite_snd ?_ ?_
    | with_reducible refine kept_ite_fst ?_ ?_
    | with_reducible refine kept_ite_snd2 ?_ ?_
    | with_reducible refine ite_to ?_ ?_
    | with_reducible refine Eq.trans (kept_foldl _ ?_ _ _) ?_
    | intro _ _
    | with_reducible split
    | (have h := congrArg (fun x : _ × State => x.2.kept) ‹_ = (_, _)›; simp only [↓programFixed_kept, ↓domainSet_kept,
        ↓refLost_kept, ] at h; exact h.symm)
    | (have h := congrArg (fun x : State × _ => x.1.kept) ‹_ = (_, _)›; simp only [↓programFixed_kept, ↓domainSet_kept,
        ↓refLost_kept, ] at h; exact h.symm)
    | (have h := congrArg (fun x : _ × _ × State => x.2.2.kept) ‹_ = (_, _, _)›; simp only [↓programFixed_kept,
        ↓domainSet_kept, ↓refLost_kept, ] at h; exact h.symm)
    | with_reducible rfl))

theorem trimWindow_kept (a0 s) : (trimWindow a0 s).kept = s.kept := by
  unfold trimWindow
  extract_lets x0 x1 x2 x3 x4 x5 x6 x7 x8 x9
  try clear_value x0
  try clear_value x1
  try clear_value x2
  try clear_value x3
  have hx4 : x4.kept = s.kept := by
    unfold x4
    (repeat' (first
      | simp only [↓count_kept, ↓nextFree_kept, ↓kept_upd, ↓ite_kept, ite_self]
      | with_reducible refine kept_ite ?_ ?_
      | with_reducible split))
  try clear_value x4
  try clear_value x5
  try clear_value x6
  try clear_value x7
  have hx8 : x8.kept = s.kept := by
    unfold x8
    (repeat' (first
      | simp only [↓hx4, ↓count_kept, ↓nextFree_kept, ↓kept_upd, ↓ite_kept, ite_self]
      | with_reducible refine kept_ite ?_ ?_
      | with_reducible split))
  try clear_value x8
  try clear_value x9
  (repeat' (first
    | simp only [↓hx4, ↓hx8, ↓count_kept, ↓nextFree_kept, ↓kept_upd, ↓ite_kept, ite_self]
    | with_reducible refine kept_ite ?_ ?_
    | with_reducible split))

theorem domCtrlWrite_kept (a0 a1 s) : (domCtrlWrite a0 a1 s).kept = s.kept := by
  unfold domCtrlWrite
  extract_lets x0 x1 x2
  have hx0 : x0.kept = s.kept := by
    unfold x0
    (repeat' (first
      | simp only [↓rset_kept, ↓domainSet_kept, ↓kept_upd, ↓ite_kept, ite_self]
      | with_reducible refine kept_ite ?_ ?_
      | with_reducible split))
  try clear_value x0
  try clear_value x1
  try clear_value x2
  (repeat' (first
    | simp only [↓hx0, ↓rset_kept, ↓domainSet_kept, ↓kept_upd, ↓ite_kept, ite_self]
    | with_reducible refine kept_ite ?_ ?_
    | with_reducible split))

theorem dividerStep_kept (a0 a1 s) : (dividerStep a0 a1 s).kept = s.kept := by
  unfold dividerStep
  (repeat' (first
    | simp only [↓domainSet_kept, ↓raise_kept, ↓count_kept, ↓kept_upd, ↓ite_kept, ite_self]
    | with_reducible refine kept_ite ?_ ?_
    | with_reducible split))

theorem startDomain_kept (a0 s) : (startDomain a0 s).kept = s.kept := by
  unfold startDomain
  dsimp only
  simp only [↓domainSet_kept, ↓ite_kept, ite_self]

theorem islandStart_kept (s) : (islandStart s).kept = s.kept := by
  unfold islandStart
  (repeat' (first
    | simp only [↓startDomain_kept, ↓kept_upd, ↓ite_kept, ite_self]
    | with_reducible refine kept_ite ?_ ?_
    | with_reducible split))

theorem islandsOff_kept (s) : (islandsOff s).kept = s.kept := by
  simp only [islandsOff, ↓kept_upd]

theorem wdtKick_kept (a0 a1 s) : (wdtKick a0 a1 s).kept = s.kept := by
  unfold wdtKick
  (repeat' (first
    | simp only [↓kept_upd, ↓ite_kept, ite_self]
    | with_reducible refine kept_ite ?_ ?_
    | with_reducible split))

theorem thermal_kept (a0 s) : (thermal a0 s).kept = s.kept := by
  unfold thermal
  extract_lets x0 x1 x2
  try clear_value x0
  try clear_value x1
  have hx2 : x2.kept = s.kept := by
    unfold x2
    (repeat' (first
      | simp only [↓raise_kept, ↓kept_upd, ↓ite_kept, ite_self]
      | with_reducible refine kept_ite ?_ ?_
      | with_reducible split))
  try clear_value x2
  (repeat' (first
    | simp only [↓hx2, ↓raise_kept, ↓kept_upd, ↓ite_kept, ite_self]
    | with_reducible refine kept_ite ?_ ?_
    | with_reducible split))

theorem thermalShutdown_keeps (s) : Keeps s (thermalShutdown s) := by
  unfold thermalShutdown
  extract_lets x0 x1
  have hx0 : Keeps s x0 := by
    unfold x0
    (repeat' (first
      | with_reducible exact Keeps.rfl_ _
      | with_reducible assumption
      | with_reducible refine Keeps.ite ?_ ?_
      | with_reducible refine Keeps.ite_snd ?_ ?_
      | with_reducible refine Keeps.trans ?_ (resetDevice_keeps ..)
      | with_reducible refine Keeps.to_kept ?_ (tokenRelease_kept ..)
      | with_reducible refine Keeps.foldl ?_ ?_
      | intro _ _
      | with_reducible split
      | simp only []
      | with_reducible refine Keeps.to_kept ?_ (kept_upd ..)
      | with_reducible refine Keeps.to_kept ?_ (kept_updMem ..)
      | with_reducible refine Keeps.to_kept ?_ (kept_updNvm ..)
      | with_reducible refine Keeps.to_kept ?_ (kept_updBoth ..)))
  try clear_value x0
  try clear_value x1
  (repeat' (first
    | with_reducible exact Keeps.rfl_ _
    | with_reducible assumption
    | with_reducible refine Keeps.ite ?_ ?_
    | with_reducible refine Keeps.ite_snd ?_ ?_
    | with_reducible refine Keeps.trans ?_ (resetDevice_keeps ..)
    | with_reducible refine Keeps.to_kept ?_ (tokenRelease_kept ..)
    | with_reducible refine Keeps.foldl ?_ ?_
    | intro _ _
    | with_reducible split
    | simp only []
    | with_reducible refine Keeps.to_kept ?_ (kept_upd ..)
    | with_reducible refine Keeps.to_kept ?_ (kept_updMem ..)
    | with_reducible refine Keeps.to_kept ?_ (kept_updNvm ..)
    | with_reducible refine Keeps.to_kept ?_ (kept_updBoth ..)))

theorem thermalRelease_kept (s) : (thermalRelease s).kept = s.kept := by
  simp only [thermalRelease, ↓kept_upd]

theorem softReset_keeps (a0 a1 s) : Keeps s (softReset a0 a1 s) := by
  unfold softReset
  (repeat' (first
    | with_reducible exact Keeps.rfl_ _
    | with_reducible assumption
    | with_reducible refine Keeps.ite ?_ ?_
    | with_reducible refine Keeps.ite_snd ?_ ?_
    | with_reducible refine Keeps.trans ?_ (resetDevice_keeps ..)
    | with_reducible refine Keeps.foldl ?_ ?_
    | intro _ _
    | with_reducible split
    | simp only []
    | with_reducible refine Keeps.to_kept ?_ (kept_upd ..)
    | with_reducible refine Keeps.to_kept ?_ (kept_updMem ..)
    | with_reducible refine Keeps.to_kept ?_ (kept_updNvm ..)
    | with_reducible refine Keeps.to_kept ?_ (kept_updBoth ..)))

theorem clkW1c_kept (a0 s) : (clkW1c a0 s).kept = s.kept := by
  simp only [clkW1c, ↓kept_upd]

end Sys2Proof.Machine
end

