-- ==== Sys2Proof/Laws/KeptImage.lean ====
section
/-!
SUPPORT. What the functions of the model leave alone (the configuration image and boot): the queue, the byte stores and the flash.
-/
set_option linter.all false

namespace Sys2Proof.Machine

/-! ### ImagePorts -/

theorem applyDram_kept (a0 s) : (applyDram a0 s).kept = s.kept := by
  unfold applyDram
  (repeat' (first
    | simp only [↓kept_upd, ↓kept_updMem, ↓kept_updNvm, ↓kept_updBoth, ↓ite_kept, ↓ite_snd, ↓ite_fst, ite_self, implies_true]
    | with_reducible refine kept_ite ?_ ?_
    | with_reducible refine kept_ite_snd ?_ ?_
    | with_reducible refine kept_ite_fst ?_ ?_
    | with_reducible refine kept_ite_snd2 ?_ ?_
    | with_reducible refine ite_to ?_ ?_
    | with_reducible refine Eq.trans (kept_foldl _ ?_ _ _) ?_
    | intro _ _
    | with_reducible split
    | (have h := congrArg (fun x : _ × State => x.2.kept) ‹_ = (_, _)›; simp only [] at h; exact h.symm)
    | (have h := congrArg (fun x : State × _ => x.1.kept) ‹_ = (_, _)›; simp only [] at h; exact h.symm)
    | (have h := congrArg (fun x : _ × _ × State => x.2.2.kept) ‹_ = (_, _, _)›; simp only [] at h; exact h.symm)
    | with_reducible rfl))

theorem applyClock_kept (a0 s) : (applyClock a0 s).kept = s.kept := by
  simp only [applyClock, ↓kept_upd]

theorem serialSection_kept (b k) : Yields (fun k' => k'.st.kept = k.st.kept) (serialSection b k) := by
  unfold serialSection
  (repeat' (first
    | with_reducible refine Yields.bind fun _ => ?_
    | with_reducible refine Yields.ok ?_
    | with_reducible refine Yields.pure ?_
    | with_reducible exact Yields.error _
    | with_reducible rfl
    | simp only [↓kept_upd, ↓kept_updMem, ↓kept_updNvm, ↓kept_updBoth, ↓ite_kept, ↓kept_foldl, ite_self, implies_true]
    | with_reducible refine kept_ite ?_ ?_
    | with_reducible refine Eq.trans (kept_foldl _ ?_ _ _) ?_
    | with_reducible split
    | with_reducible intro _))

theorem analogSection_kept (b k) : Yields (fun k' => k'.st.kept = k.st.kept) (analogSection b k) := by
  unfold analogSection
  (repeat' (first
    | with_reducible refine Yields.bind fun _ => ?_
    | with_reducible refine Yields.ok ?_
    | with_reducible refine Yields.pure ?_
    | with_reducible exact Yields.error _
    | with_reducible rfl
    | simp only [↓hsSet_kept, ↓rset_kept, ↓kept_upd, ↓kept_updMem, ↓kept_updNvm, ↓kept_updBoth, ↓ite_kept, ↓kept_foldl, ite_self,
        implies_true]
    | with_reducible refine kept_ite ?_ ?_
    | with_reducible refine Eq.trans (kept_foldl _ ?_ _ _) ?_
    | with_reducible split
    | with_reducible intro _))

theorem netRecord_kept (d b k) : Yields (fun k' => k'.st.kept = k.st.kept) (netRecord d b k) := by
  unfold netRecord
  (repeat' (first
    | with_reducible refine Yields.bind fun _ => ?_
    | with_reducible refine Yields.ok ?_
    | with_reducible refine Yields.pure ?_
    | with_reducible exact Yields.error _
    | with_reducible rfl
    | simp only [↓kept_upd, ↓kept_updMem, ↓kept_updNvm, ↓kept_updBoth, ↓ite_kept, ↓kept_foldl, ite_self, implies_true]
    | with_reducible refine kept_ite ?_ ?_
    | with_reducible refine Eq.trans (kept_foldl _ ?_ _ _) ?_
    | with_reducible split
    | with_reducible intro _))

theorem ptpRecord_kept (b k) : Yields (fun k' => k'.st.kept = k.st.kept) (ptpRecord b k) := by
  unfold ptpRecord
  (repeat' (first
    | with_reducible refine Yields.bind fun _ => ?_
    | with_reducible refine Yields.ok ?_
    | with_reducible refine Yields.pure ?_
    | with_reducible exact Yields.error _
    | with_reducible rfl
    | simp only [↓kept_upd, ↓kept_updMem, ↓kept_updNvm, ↓kept_updBoth, ↓ite_kept, ↓kept_foldl, ite_self, implies_true]
    | with_reducible refine kept_ite ?_ ?_
    | with_reducible refine Eq.trans (kept_foldl _ ?_ _ _) ?_
    | with_reducible split
    | with_reducible intro _))

/-! ### ImageLayout -/

theorem layoutRecord_kept (b k) : Yields (fun k' => k'.st.kept = k.st.kept) (layoutRecord b k) := by
  unfold layoutRecord
  (repeat' (first
    | with_reducible refine Yields.bind fun _ => ?_
    | with_reducible refine Yields.ok ?_
    | with_reducible refine Yields.pure ?_
    | with_reducible exact Yields.error _
    | with_reducible rfl
    | simp only [↓rset_kept, ↓kept_upd, ↓kept_updMem, ↓kept_updNvm, ↓kept_updBoth, ↓ite_kept, ↓kept_foldl, ite_self,
        implies_true]
    | with_reducible refine kept_ite ?_ ?_
    | with_reducible refine Eq.trans (kept_foldl _ ?_ _ _) ?_
    | with_reducible split
    | with_reducible intro _))

/-! ### ImageTables -/

theorem fxSet_kept (a0 a1 a2 s) : (fxSet a0 a1 a2 s).kept = s.kept := by
  simp only [fxSet, ↓rset_kept, ↓kept_upd]

theorem applyObj_kept (a0 a1 s) : (applyObj a0 a1 s).kept = s.kept := by
  simp only [applyObj, ↓fxSet_kept, ↓kept_upd]

theorem matrixInit_kept (s) : (matrixInit s).kept = s.kept := by
  simp only [matrixInit, ↓kept_upd]

theorem matrixRecord_kept (pk b k) : Yields (fun k' => k'.st.kept = k.st.kept) (matrixRecord pk b k) := by
  unfold matrixRecord
  (repeat' (first
    | with_reducible refine Yields.bind fun _ => ?_
    | with_reducible refine Yields.ok ?_
    | with_reducible refine Yields.pure ?_
    | with_reducible exact Yields.error _
    | with_reducible rfl
    | simp only [↓fxSet_kept, ↓matrixInit_kept, ↓kept_upd, ↓kept_updMem, ↓kept_updNvm, ↓kept_updBoth, ↓ite_kept,
        ↓kept_foldl, ite_self, implies_true]
    | with_reducible refine kept_ite ?_ ?_
    | with_reducible refine Eq.trans (kept_foldl _ ?_ _ _) ?_
    | with_reducible split
    | with_reducible intro _))

theorem dynamicsRecord_kept (b k) : Yields (fun k' => k'.st.kept = k.st.kept) (dynamicsRecord b k) := by
  unfold dynamicsRecord
  (repeat' (first
    | with_reducible refine Yields.bind fun _ => ?_
    | with_reducible refine Yields.ok ?_
    | with_reducible refine Yields.pure ?_
    | with_reducible exact Yields.error _
    | with_reducible rfl
    | simp only [↓fxSet_kept, ↓chainInit_kept, ↓kept_upd, ↓kept_updMem, ↓kept_updNvm, ↓kept_updBoth, ↓ite_kept,
        ↓kept_foldl, ite_self, implies_true]
    | with_reducible refine kept_ite ?_ ?_
    | with_reducible refine Eq.trans (kept_foldl _ ?_ _ _) ?_
    | with_reducible split
    | with_reducible intro _))

/-! ### ImageGraph -/

theorem graphRecord_kept (ec b k) : Yields (fun k' => k'.st.kept = k.st.kept) (graphRecord ec b k) := by
  unfold graphRecord
  (repeat' (first
    | with_reducible refine Yields.bind fun _ => ?_
    | with_reducible refine Yields.ok ?_
    | with_reducible refine Yields.pure ?_
    | with_reducible exact Yields.error _
    | with_reducible rfl
    | simp only [↓kept_upd, ↓kept_updMem, ↓kept_updNvm, ↓kept_updBoth, ↓ite_kept, ↓kept_foldl, ite_self, implies_true]
    | with_reducible refine kept_ite ?_ ?_
    | with_reducible refine Eq.trans (kept_foldl _ ?_ _ _) ?_
    | with_reducible split
    | with_reducible intro _))

theorem placeProgram_kept (s a1) : (placeProgram s a1).kept = s.kept := by
  unfold placeProgram
  (repeat' (first
    | simp only [↓kept_upd, ↓kept_updMem, ↓kept_updNvm, ↓kept_updBoth, ↓ite_kept, ↓ite_snd, ↓ite_fst, ite_self, implies_true]
    | with_reducible refine kept_ite ?_ ?_
    | with_reducible refine kept_ite_snd ?_ ?_
    | with_reducible refine kept_ite_fst ?_ ?_
    | with_reducible refine kept_ite_snd2 ?_ ?_
    | with_reducible refine ite_to ?_ ?_
    | with_reducible refine Eq.trans (kept_foldl _ ?_ _ _) ?_
    | intro _ _
    | with_reducible split
    | (have h := congrArg (fun x : _ × State => x.2.kept) ‹_ = (_, _)›; simp only [] at h; exact h.symm)
    | (have h := congrArg (fun x : State × _ => x.1.kept) ‹_ = (_, _)›; simp only [] at h; exact h.symm)
    | (have h := congrArg (fun x : _ × _ × State => x.2.2.kept) ‹_ = (_, _, _)›; simp only [] at h; exact h.symm)
    | with_reducible rfl))

theorem ecprogRecord_kept (d b k) : Yields (fun k' => k'.st.kept = k.st.kept) (ecprogRecord d b k) := by
  unfold ecprogRecord
  (repeat' (first
    | with_reducible refine Yields.bind fun _ => ?_
    | with_reducible refine Yields.ok ?_
    | with_reducible refine Yields.pure ?_
    | with_reducible exact Yields.error _
    | with_reducible rfl
    | simp only [↓placeProgram_kept, ↓kept_upd, ↓kept_updMem, ↓kept_updNvm, ↓kept_updBoth, ↓ite_kept, ↓kept_foldl,
        ite_self, implies_true]
    | with_reducible refine kept_ite ?_ ?_
    | with_reducible refine Eq.trans (kept_foldl _ ?_ _ _) ?_
    | with_reducible split
    | with_reducible intro _))

theorem twinRecord_kept (b k) : Yields (fun k' => k'.st.kept = k.st.kept) (twinRecord b k) := by
  unfold twinRecord
  (repeat' (first
    | with_reducible refine Yields.bind fun _ => ?_
    | with_reducible refine Yields.ok ?_
    | with_reducible refine Yields.pure ?_
    | with_reducible exact Yields.error _
    | with_reducible rfl
    | simp only [↓rset_kept, ↓kept_upd, ↓kept_updMem, ↓kept_updNvm, ↓kept_updBoth, ↓ite_kept, ↓kept_foldl, ite_self,
        implies_true]
    | with_reducible refine kept_ite ?_ ?_
    | with_reducible refine Eq.trans (kept_foldl _ ?_ _ _) ?_
    | with_reducible split
    | with_reducible intro _))

theorem keysRecord_kept (b k) : Yields (fun k' => k'.st.kept = k.st.kept) (keysRecord b k) := by
  unfold keysRecord
  (repeat' (first
    | with_reducible refine Yields.bind fun _ => ?_
    | with_reducible refine Yields.ok ?_
    | with_reducible refine Yields.pure ?_
    | with_reducible exact Yields.error _
    | with_reducible rfl
    | simp only [↓rset_kept, ↓kept_upd, ↓kept_updMem, ↓kept_updNvm, ↓kept_updBoth, ↓ite_kept, ↓kept_foldl, ite_self,
        implies_true]
    | with_reducible refine kept_ite ?_ ?_
    | with_reducible refine Eq.trans (kept_foldl _ ?_ _ _) ?_
    | with_reducible split
    | with_reducible intro _))

theorem eventsRecord_kept (b k) : Yields (fun k' => k'.st.kept = k.st.kept) (eventsRecord b k) := by
  unfold eventsRecord
  (repeat' (first
    | with_reducible refine Yields.bind fun _ => ?_
    | with_reducible refine Yields.ok ?_
    | with_reducible refine Yields.pure ?_
    | with_reducible exact Yields.error _
    | with_reducible rfl
    | simp only [↓kept_upd, ↓kept_updMem, ↓kept_updNvm, ↓kept_updBoth, ↓ite_kept, ↓kept_foldl, ite_self, implies_true]
    | with_reducible refine kept_ite ?_ ?_
    | with_reducible refine Eq.trans (kept_foldl _ ?_ _ _) ?_
    | with_reducible split
    | with_reducible intro _))

/-! ### Boot -/

theorem imageErr_kept (a0 a1 a2 a3 s) : (imageErr a0 a1 a2 a3 s).kept = s.kept := by
  unfold imageErr
  (repeat' (first
    | simp only [↓kept_upd, ↓kept_updMem, ↓kept_updNvm, ↓kept_updBoth, ↓ite_kept, ↓ite_snd, ↓ite_fst, ite_self, implies_true]
    | with_reducible refine kept_ite ?_ ?_
    | with_reducible refine kept_ite_snd ?_ ?_
    | with_reducible refine kept_ite_fst ?_ ?_
    | with_reducible refine kept_ite_snd2 ?_ ?_
    | with_reducible refine ite_to ?_ ?_
    | with_reducible refine Eq.trans (kept_foldl _ ?_ _ _) ?_
    | intro _ _
    | with_reducible split
    | (have h := congrArg (fun x : _ × State => x.2.kept) ‹_ = (_, _)›; simp only [] at h; exact h.symm)
    | (have h := congrArg (fun x : State × _ => x.1.kept) ‹_ = (_, _)›; simp only [] at h; exact h.symm)
    | (have h := congrArg (fun x : _ × _ × State => x.2.2.kept) ‹_ = (_, _, _)›; simp only [] at h; exact h.symm)
    | with_reducible rfl))

theorem ownError_kept (a0 a1 a2 a3 s) : (ownError a0 a1 a2 a3 s).kept = s.kept := by
  unfold ownError
  (repeat' (first
    | simp only [↓raise_kept, ↓rset_kept, ↓kept_upd, ↓kept_updMem, ↓kept_updNvm, ↓kept_updBoth, ↓ite_kept, ↓ite_snd,
        ↓ite_fst, ite_self, implies_true]
    | with_reducible refine kept_ite ?_ ?_
    | with_reducible refine kept_ite_snd ?_ ?_
    | with_reducible refine kept_ite_fst ?_ ?_
    | with_reducible refine kept_ite_snd2 ?_ ?_
    | with_reducible refine ite_to ?_ ?_
    | with_reducible refine Eq.trans (kept_foldl _ ?_ _ _) ?_
    | intro _ _
    | with_reducible split
    | (have h := congrArg (fun x : _ × State => x.2.kept) ‹_ = (_, _)›; simp only [↓raise_kept, ↓rset_kept,
        ] at h; exact h.symm)
    | (have h := congrArg (fun x : State × _ => x.1.kept) ‹_ = (_, _)›; simp only [↓raise_kept, ↓rset_kept,
        ] at h; exact h.symm)
    | (have h := congrArg (fun x : _ × _ × State => x.2.2.kept) ‹_ = (_, _, _)›; simp only [↓raise_kept, ↓rset_kept,
        ] at h; exact h.symm)
    | with_reducible rfl))

theorem enterRecovery_kept (s) : (enterRecovery s).kept = s.kept := by
  unfold enterRecovery
  (repeat' (first
    | simp only [↓kept_upd, ↓kept_updMem, ↓kept_updNvm, ↓kept_updBoth, ↓ite_kept, ↓ite_snd, ↓ite_fst, ite_self, implies_true]
    | with_reducible refine kept_ite ?_ ?_
    | with_reducible refine kept_ite_snd ?_ ?_
    | with_reducible refine kept_ite_fst ?_ ?_
    | with_reducible refine kept_ite_snd2 ?_ ?_
    | with_reducible refine ite_to ?_ ?_
    | with_reducible refine Eq.trans (kept_foldl _ ?_ _ _) ?_
    | intro _ _
    | with_reducible split
    | (have h := congrArg (fun x : _ × State => x.2.kept) ‹_ = (_, _)›; simp only [] at h; exact h.symm)
    | (have h := congrArg (fun x : State × _ => x.1.kept) ‹_ = (_, _)›; simp only [] at h; exact h.symm)
    | (have h := congrArg (fun x : _ × _ × State => x.2.2.kept) ‹_ = (_, _, _)›; simp only [] at h; exact h.symm)
    | with_reducible rfl))

theorem step7Apply_kept (a0 a1 s) : (step7Apply a0 a1 s).kept = s.kept := by
  unfold step7Apply
  extract_lets x0 x1 x2 x3 x4 x5 x6 x7
  try clear_value x0
  try clear_value x1
  try clear_value x2
  have hx4 : x4.kept = s.kept := by
    unfold x4
    (repeat' (first
      | simp only [x3, ↓applyDram_kept, ↓programApll_kept, ↓kept_upd, ↓kept_updMem, ↓kept_updNvm, ↓kept_updBoth,
          ↓ite_kept, ↓ite_snd, ↓ite_fst, ite_self, implies_true]
      | with_reducible refine kept_ite ?_ ?_
      | with_reducible refine kept_ite_snd ?_ ?_
      | with_reducible refine kept_ite_fst ?_ ?_
      | with_reducible refine kept_ite_snd2 ?_ ?_
      | with_reducible refine ite_to ?_ ?_
      | with_reducible refine Eq.trans (kept_foldl _ ?_ _ _) ?_
      | intro _ _
      | with_reducible split
      | (have h := congrArg (fun x : _ × State => x.2.kept) ‹_ = (_, _)›; simp only [↓applyDram_kept, ↓programApll_kept,
          ] at h; exact h.symm)
      | (have h := congrArg (fun x : State × _ => x.1.kept) ‹_ = (_, _)›; simp only [↓applyDram_kept, ↓programApll_kept,
          ] at h; exact h.symm)
      | (have h := congrArg (fun x : _ × _ × State => x.2.2.kept) ‹_ = (_, _, _)›; simp only [↓applyDram_kept,
          ↓programApll_kept, ] at h; exact h.symm)
      | with_reducible rfl))
  try clear_value x4
  try clear_value x5
  have hx6 : x6.kept = s.kept := by
    unfold x6
    (repeat' (first
      | simp only [↓hx4, ↓applyDram_kept, ↓programApll_kept, ↓kept_upd, ↓kept_updMem, ↓kept_updNvm, ↓kept_updBoth,
          ↓ite_kept, ↓ite_snd, ↓ite_fst, ite_self, implies_true]
      | with_reducible refine kept_ite ?_ ?_
      | with_reducible refine kept_ite_snd ?_ ?_
      | with_reducible refine kept_ite_fst ?_ ?_
      | with_reducible refine kept_ite_snd2 ?_ ?_
      | with_reducible refine ite_to ?_ ?_
      | with_reducible refine Eq.trans (kept_foldl _ ?_ _ _) ?_
      | intro _ _
      | with_reducible split
      | (have h := congrArg (fun x : _ × State => x.2.kept) ‹_ = (_, _)›; simp only [↓applyDram_kept, ↓programApll_kept,
          ] at h; exact h.symm)
      | (have h := congrArg (fun x : State × _ => x.1.kept) ‹_ = (_, _)›; simp only [↓applyDram_kept, ↓programApll_kept,
          ] at h; exact h.symm)
      | (have h := congrArg (fun x : _ × _ × State => x.2.2.kept) ‹_ = (_, _, _)›; simp only [↓applyDram_kept,
          ↓programApll_kept, ] at h; exact h.symm)
      | with_reducible rfl))
  try clear_value x6
  have hx7 : x7.kept = s.kept := by
    unfold x7
    simp only [↓refreshMode_kept, ↓ite_kept, ite_self, hx6]
  try clear_value x7
  (repeat' (first
    | simp only [↓hx4, ↓hx6, ↓hx7, ↓applyDram_kept, ↓programApll_kept, ↓kept_upd, ↓kept_updMem, ↓kept_updNvm, ↓kept_updBoth,
        ↓ite_kept, ↓ite_snd, ↓ite_fst, ite_self, implies_true]
    | with_reducible refine kept_ite ?_ ?_
    | with_reducible refine kept_ite_snd ?_ ?_
    | with_reducible refine kept_ite_fst ?_ ?_
    | with_reducible refine kept_ite_snd2 ?_ ?_
    | with_reducible refine ite_to ?_ ?_
    | with_reducible refine Eq.trans (kept_foldl _ ?_ _ _) ?_
    | intro _ _
    | with_reducible split
    | (have h := congrArg (fun x : _ × State => x.2.kept) ‹_ = (_, _)›; simp only [↓applyDram_kept, ↓programApll_kept,
        ] at h; exact h.symm)
    | (have h := congrArg (fun x : State × _ => x.1.kept) ‹_ = (_, _)›; simp only [↓applyDram_kept, ↓programApll_kept,
        ] at h; exact h.symm)
    | (have h := congrArg (fun x : _ × _ × State => x.2.2.kept) ‹_ = (_, _, _)›; simp only [↓applyDram_kept,
        ↓programApll_kept, ] at h; exact h.symm)
    | with_reducible rfl))

theorem stopEarly_kept (s) : (stopEarly s).kept = s.kept := by
  simp only [stopEarly, ↓rset_kept, ↓kept_upd]

theorem failCopy_kept (a0 a1 s) : (failCopy a0 a1 s).kept = s.kept := by
  induction a0 generalizing a1 s with
  | zero => exact enterRecovery_kept s
  | succ n ih =>
    unfold failCopy
    extract_lets x0 x1 x2 x3 x4 x5 x6
    have h1 : x1.kept = s.kept := kept_ite (ownError_kept ..) rfl
    have h2 : x2.kept = s.kept := (raise_kept ..).trans ((imageErr_kept ..).trans h1)
    have h3 : x3.kept = s.kept := (logEntry_kept ..).trans ((stopEarly_kept ..).trans h2)
    have h5 : x5.kept = s.kept := (kept_upd ..).trans h3
    refine kept_ite ((enterRecovery_kept _).trans h3) ?_
    generalize step7Check x6 = c
    cases c
    · exact (step7Apply_kept ..).trans h5
    · exact (ih ..).trans h5

theorem step7Enter_kept (a0 s) : (step7Enter a0 s).kept = s.kept := by
  unfold step7Enter
  extract_lets x0 x1 x2
  try clear_value x0
  try clear_value x1
  have hx2 : x2.kept = s.kept := by
    unfold x2
    (repeat' (first
      | simp only [↓failCopy_kept, ↓step7Apply_kept, ↓kept_upd, ↓ite_kept, ite_self]
      | with_reducible refine kept_ite ?_ ?_
      | with_reducible split))
  try clear_value x2
  (repeat' (first
    | simp only [↓hx2, ↓failCopy_kept, ↓step7Apply_kept, ↓kept_upd, ↓ite_kept, ite_self]
    | with_reducible refine kept_ite ?_ ?_
    | with_reducible split))

theorem flogScan_kept (s) : (flogScan s).kept = s.kept := by
  unfold flogScan
  (repeat' (first
    | simp only [↓kept_upd, ↓kept_updMem, ↓kept_updNvm, ↓kept_updBoth, ↓ite_kept, ↓ite_snd, ↓ite_fst, ite_self, implies_true]
    | with_reducible refine kept_ite ?_ ?_
    | with_reducible refine kept_ite_snd ?_ ?_
    | with_reducible refine kept_ite_fst ?_ ?_
    | with_reducible refine kept_ite_snd2 ?_ ?_
    | with_reducible refine ite_to ?_ ?_
    | with_reducible refine Eq.trans (kept_foldl _ ?_ _ _) ?_
    | intro _ _
    | with_reducible split
    | (have h := congrArg (fun x : _ × State => x.2.kept) ‹_ = (_, _)›; simp only [] at h; exact h.symm)
    | (have h := congrArg (fun x : State × _ => x.1.kept) ‹_ = (_, _)›; simp only [] at h; exact h.symm)
    | (have h := congrArg (fun x : _ × _ × State => x.2.2.kept) ‹_ = (_, _, _)›; simp only [] at h; exact h.symm)
    | with_reducible rfl))

theorem step6_keeps (a0 s) : Keeps s (step6 a0 s) := by
  unfold step6
  extract_lets x0 x1 x2 x3 x4 x5 x6 x7 x8 x9 x10 x11 x12 x13 x14 x15 x16 x17
  have hx1 : Keeps s x1 := by
    unfold x1
    (repeat' (first
      | with_reducible exact Keeps.rfl_ _
      | with_reducible assumption
      | with_reducible refine Keeps.ite ?_ ?_
      | with_reducible refine Keeps.ite_snd ?_ ?_
      | with_reducible refine Keeps.to_kept ?_ (flogScan_kept ..)
      | with_reducible refine Keeps.to_kept ?_ (logEntry_kept ..)
      | with_reducible refine Keeps.to_kept ?_ (imageErr_kept ..)
      | with_reducible refine Keeps.to_kept ?_ (enterRecovery_kept ..)
      | with_reducible refine Keeps.to_kept ?_ (raise_kept ..)
      | with_reducible refine Keeps.to_kept ?_ (step7Enter_kept ..)
      | with_reducible refine Keeps.foldl ?_ ?_
      | intro _ _
      | with_reducible split
      | simp only [x0, ]
      | with_reducible refine Keeps.to_kept ?_ (kept_upd ..)
      | with_reducible refine Keeps.to_kept ?_ (kept_updMem ..)
      | with_reducible refine Keeps.to_kept ?_ (kept_updNvm ..)
      | with_reducible refine Keeps.to_kept ?_ (kept_updBoth ..)))
  try clear_value x1
  have hx2 : Keeps s x2 := by
    unfold x2
    (repeat' (first
      | with_reducible exact Keeps.rfl_ _
      | with_reducible assumption
      | with_reducible refine Keeps.ite ?_ ?_
      | with_reducible refine Keeps.ite_snd ?_ ?_
      | with_reducible refine Keeps.to_kept ?_ (flogScan_kept ..)
      | with_reducible refine Keeps.to_kept ?_ (logEntry_kept ..)
      | with_reducible refine Keeps.to_kept ?_ (imageErr_kept ..)
      | with_reducible refine Keeps.to_kept ?_ (enterRecovery_kept ..)
      | with_reducible refine Keeps.to_kept ?_ (raise_kept ..)
      | with_reducible refine Keeps.to_kept ?_ (step7Enter_kept ..)
      | with_reducible refine Keeps.foldl ?_ ?_
      | intro _ _
      | with_reducible split
      | simp only []
      | with_reducible refine Keeps.to_kept ?_ (kept_upd ..)
      | with_reducible refine Keeps.to_kept ?_ (kept_updMem ..)
      | with_reducible refine Keeps.to_kept ?_ (kept_updNvm ..)
      | with_reducible refine Keeps.to_kept ?_ (kept_updBoth ..)))
  try clear_value x2
  try clear_value x3
  try clear_value x4
  have hx5 : Keeps s x5 := by
    unfold x5
    (repeat' (first
      | with_reducible exact Keeps.rfl_ _
      | with_reducible assumption
      | with_reducible refine Keeps.ite ?_ ?_
      | with_reducible refine Keeps.ite_snd ?_ ?_
      | with_reducible refine Keeps.to_kept ?_ (flogScan_kept ..)
      | with_reducible refine Keeps.to_kept ?_ (logEntry_kept ..)
      | with_reducible refine Keeps.to_kept ?_ (imageErr_kept ..)
      | with_reducible refine Keeps.to_kept ?_ (enterRecovery_kept ..)
      | with_reducible refine Keeps.to_kept ?_ (raise_kept ..)
      | with_reducible refine Keeps.to_kept ?_ (step7Enter_kept ..)
      | with_reducible refine Keeps.foldl ?_ ?_
      | intro _ _
      | with_reducible split
      | simp only []
      | with_reducible refine Keeps.to_kept ?_ (kept_upd ..)
      | with_reducible refine Keeps.to_kept ?_ (kept_updMem ..)
      | with_reducible refine Keeps.to_kept ?_ (kept_updNvm ..)
      | with_reducible refine Keeps.to_kept ?_ (kept_updBoth ..)))
  try clear_value x5
  have hx6 : Keeps s x6 := by
    unfold x6
    (repeat' (first
      | with_reducible exact Keeps.rfl_ _
      | with_reducible assumption
      | with_reducible refine Keeps.ite ?_ ?_
      | with_reducible refine Keeps.ite_snd ?_ ?_
      | with_reducible refine Keeps.to_kept ?_ (flogScan_kept ..)
      | with_reducible refine Keeps.to_kept ?_ (logEntry_kept ..)
      | with_reducible refine Keeps.to_kept ?_ (imageErr_kept ..)
      | with_reducible refine Keeps.to_kept ?_ (enterRecovery_kept ..)
      | with_reducible refine Keeps.to_kept ?_ (raise_kept ..)
      | with_reducible refine Keeps.to_kept ?_ (step7Enter_kept ..)
      | with_reducible refine Keeps.foldl ?_ ?_
      | intro _ _
      | with_reducible split
      | simp only []
      | with_reducible refine Keeps.to_kept ?_ (kept_upd ..)
      | with_reducible refine Keeps.to_kept ?_ (kept_updMem ..)
      | with_reducible refine Keeps.to_kept ?_ (kept_updNvm ..)
      | with_reducible refine Keeps.to_kept ?_ (kept_updBoth ..)))
  try clear_value x6
  try clear_value x7
  try clear_value x8
  try clear_value x9
  try clear_value x10
  have hx12 : Keeps s x12 := by
    unfold x12
    (repeat' (first
      | with_reducible exact Keeps.rfl_ _
      | with_reducible assumption
      | with_reducible refine Keeps.ite ?_ ?_
      | with_reducible refine Keeps.ite_snd ?_ ?_
      | with_reducible refine Keeps.to_kept ?_ (flogScan_kept ..)
      | with_reducible refine Keeps.to_kept ?_ (logEntry_kept ..)
      | with_reducible refine Keeps.to_kept ?_ (imageErr_kept ..)
      | with_reducible refine Keeps.to_kept ?_ (enterRecovery_kept ..)
      | with_reducible refine Keeps.to_kept ?_ (raise_kept ..)
      | with_reducible refine Keeps.to_kept ?_ (step7Enter_kept ..)
      | with_reducible refine Keeps.foldl ?_ ?_
      | intro _ _
      | with_reducible split
      | simp only [x11, ]
      | with_reducible refine Keeps.to_kept ?_ (kept_upd ..)
      | with_reducible refine Keeps.to_kept ?_ (kept_updMem ..)
      | with_reducible refine Keeps.to_kept ?_ (kept_updNvm ..)
      | with_reducible refine Keeps.to_kept ?_ (kept_updBoth ..)))
  try clear_value x12
  try clear_value x13
  try clear_value x14
  have hx16 : Keeps s x16 := by
    unfold x16
    (repeat' (first
      | with_reducible exact Keeps.rfl_ _
      | with_reducible assumption
      | with_reducible refine Keeps.ite ?_ ?_
      | with_reducible refine Keeps.ite_snd ?_ ?_
      | with_reducible refine Keeps.to_kept ?_ (flogScan_kept ..)
      | with_reducible refine Keeps.to_kept ?_ (logEntry_kept ..)
      | with_reducible refine Keeps.to_kept ?_ (imageErr_kept ..)
      | with_reducible refine Keeps.to_kept ?_ (enterRecovery_kept ..)
      | with_reducible refine Keeps.to_kept ?_ (raise_kept ..)
      | with_reducible refine Keeps.to_kept ?_ (step7Enter_kept ..)
      | with_reducible refine Keeps.foldl ?_ ?_
      | intro _ _
      | with_reducible split
      | simp only [x15, ]
      | with_reducible refine Keeps.to_kept ?_ (kept_upd ..)
      | with_reducible refine Keeps.to_kept ?_ (kept_updMem ..)
      | with_reducible refine Keeps.to_kept ?_ (kept_updNvm ..)
      | with_reducible refine Keeps.to_kept ?_ (kept_updBoth ..)))
  try clear_value x16
  have hx17 : Keeps s x17 := by
    unfold x17
    (repeat' (first
      | with_reducible exact Keeps.rfl_ _
      | with_reducible assumption
      | with_reducible refine Keeps.ite ?_ ?_
      | with_reducible refine Keeps.ite_snd ?_ ?_
      | with_reducible refine Keeps.to_kept ?_ (flogScan_kept ..)
      | with_reducible refine Keeps.to_kept ?_ (logEntry_kept ..)
      | with_reducible refine Keeps.to_kept ?_ (imageErr_kept ..)
      | with_reducible refine Keeps.to_kept ?_ (enterRecovery_kept ..)
      | with_reducible refine Keeps.to_kept ?_ (raise_kept ..)
      | with_reducible refine Keeps.to_kept ?_ (step7Enter_kept ..)
      | with_reducible refine Keeps.foldl ?_ ?_
      | intro _ _
      | with_reducible split
      | simp only []
      | with_reducible refine Keeps.to_kept ?_ (kept_upd ..)
      | with_reducible refine Keeps.to_kept ?_ (kept_updMem ..)
      | with_reducible refine Keeps.to_kept ?_ (kept_updNvm ..)
      | with_reducible refine Keeps.to_kept ?_ (kept_updBoth ..)))
  try clear_value x17
  (repeat' (first
    | with_reducible exact Keeps.rfl_ _
    | with_reducible assumption
    | with_reducible refine Keeps.ite ?_ ?_
    | with_reducible refine Keeps.ite_snd ?_ ?_
    | with_reducible refine Keeps.to_kept ?_ (flogScan_kept ..)
    | with_reducible refine Keeps.to_kept ?_ (logEntry_kept ..)
    | with_reducible refine Keeps.to_kept ?_ (imageErr_kept ..)
    | with_reducible refine Keeps.to_kept ?_ (enterRecovery_kept ..)
    | with_reducible refine Keeps.to_kept ?_ (raise_kept ..)
    | with_reducible refine Keeps.to_kept ?_ (step7Enter_kept ..)
    | with_reducible refine Keeps.foldl ?_ ?_
    | intro _ _
    | with_reducible split
    | simp only []
    | with_reducible refine Keeps.to_kept ?_ (kept_upd ..)
    | with_reducible refine Keeps.to_kept ?_ (kept_updMem ..)
    | with_reducible refine Keeps.to_kept ?_ (kept_updNvm ..)
    | with_reducible refine Keeps.to_kept ?_ (kept_updBoth ..)))

theorem trainChannel_kept (a0 a1 s) : (trainChannel a0 a1 s).kept = s.kept := by
  unfold trainChannel
  (repeat' (first
    | simp only [↓chanSet_kept, ↓logEntry_kept, ↓raise_kept, ↓kept_upd, ↓ite_kept, ite_self]
    | with_reducible refine kept_ite ?_ ?_
    | with_reducible split))

theorem trainingDone_kept (a0 a1 a2 s) : (trainingDone a0 a1 a2 s).kept = s.kept := by
  unfold trainingDone
  (repeat' (first
    | simp only [↓trainChannel_kept, ↓kept_upd, ↓ite_kept, ite_self]
    | with_reducible refine kept_ite ?_ ?_
    | with_reducible split))

theorem imageGates_kept (s) : (imageGates s).kept = s.kept := by
  simp only [imageGates, ↓rset_kept, ↓kept_upd]

theorem earlyStart_kept (s) : (earlyStart s).kept = s.kept := by
  unfold earlyStart
  (repeat' (first
    | simp only [↓domLink_kept, ↓rset_kept, ↓kept_upd, ↓ite_kept, ite_self]
    | with_reducible refine kept_ite ?_ ?_
    | with_reducible split))

end Sys2Proof.Machine
end

