-- ==== Sys2Proof/Laws/KeptControl.lean ====
section
/-!
SUPPORT. What the functions of the model leave alone (flash access, replies, fixes, requests and the effect cores and scheduler): the queue, the byte stores and the flash.
-/
set_option linter.all false

namespace Sys2Proof.Machine

/-! ### Nvm -/

theorem nvmCommand_kept (a0 a1 a2 s) : (nvmCommand a0 a1 a2 s).kept = s.kept := by
  unfold nvmCommand
  (repeat' (first
    | simp only [↓kept_upd, ↓kept_updMem, ↓kept_updNvm, ↓kept_updBoth, ↓ite_kept, ↓ite_snd, ↓ite_fst, ite_self, implies_true]
    | with_reducible refine kept_ite ?_ ?_
    | with_reducible refine kept_ite_snd ?_ ?_
    | with_reducible refine kept_ite_fst ?_ ?_
    | with_reducible refine kept_ite_snd2 ?_ ?_
    | with_reducible refine ite_to ?_ ?_
    | with_reducible refine Eq.trans (kept_foldl _ ?_ _ _) ?_
    | intro _ _
    | with_reducible split
    | (have h := congrArg (fun x : _ × State => x.2.kept) ‹_ = (_, _)›; simp only [] at h; exact h.symm)
    | (have h := congrArg (fun x : State × _ => x.1.kept) ‹_ = (_, _)›; simp only [] at h; exact h.symm)
    | (have h := congrArg (fun x : _ × _ × State => x.2.2.kept) ‹_ = (_, _, _)›; simp only [] at h; exact h.symm)
    | with_reducible rfl))

theorem freeBytes_kept (a0 s) : (freeBytes a0 s).2.kept = s.kept := by
  simp only [freeBytes, ↓kept_upd]

theorem nvmNext_kept (s) : (nvmNext s).kept = s.kept := by
  unfold nvmNext
  (repeat' (first
    | simp only [↓kept_upd, ↓kept_updMem, ↓kept_updNvm, ↓kept_updBoth, ↓ite_kept, ↓ite_snd, ↓ite_fst, ite_self, implies_true]
    | with_reducible refine kept_ite ?_ ?_
    | with_reducible refine kept_ite_snd ?_ ?_
    | with_reducible refine kept_ite_fst ?_ ?_
    | with_reducible refine kept_ite_snd2 ?_ ?_
    | with_reducible refine ite_to ?_ ?_
    | with_reducible refine Eq.trans (kept_foldl _ ?_ _ _) ?_
    | intro _ _
    | with_reducible split
    | (have h := congrArg (fun x : _ × State => x.2.kept) ‹_ = (_, _)›; simp only [] at h; exact h.symm)
    | (have h := congrArg (fun x : State × _ => x.1.kept) ‹_ = (_, _)›; simp only [] at h; exact h.symm)
    | (have h := congrArg (fun x : _ × _ × State => x.2.2.kept) ‹_ = (_, _, _)›; simp only [] at h; exact h.symm)
    | with_reducible rfl))

theorem nvmDataWrite_kept (a0 s) : (nvmDataWrite a0 s).kept = s.kept := by
  unfold nvmDataWrite
  (repeat' (first
    | simp only [↓nvmNext_kept, ↓kept_upd, ↓kept_updMem, ↓kept_updNvm, ↓kept_updBoth, ↓ite_kept, ↓ite_snd, ↓ite_fst,
        ite_self, implies_true]
    | with_reducible refine kept_ite ?_ ?_
    | with_reducible refine kept_ite_snd ?_ ?_
    | with_reducible refine kept_ite_fst ?_ ?_
    | with_reducible refine kept_ite_snd2 ?_ ?_
    | with_reducible refine ite_to ?_ ?_
    | with_reducible refine Eq.trans (kept_foldl _ ?_ _ _) ?_
    | intro _ _
    | with_reducible split
    | (have h := congrArg (fun x : _ × State => x.2.kept) ‹_ = (_, _)›; simp only [↓nvmNext_kept, ] at h; exact h.symm)
    | (have h := congrArg (fun x : State × _ => x.1.kept) ‹_ = (_, _)›; simp only [↓nvmNext_kept, ] at h; exact h.symm)
    | (have h := congrArg (fun x : _ × _ × State => x.2.2.kept) ‹_ = (_, _, _)›; simp only [↓nvmNext_kept, ] at h; exact h.symm)
    | with_reducible rfl))

theorem nvmDataRead_kept (a0 s) : (nvmDataRead a0 s).2.kept = s.kept := by
  simp only [nvmDataRead, ↓nvmNext_kept, ↓kept_upd]

/-! ### Replies -/

theorem dropFrame_kept (s) : (dropFrame s).kept = s.kept := by
  simp only [dropFrame, ↓count_kept, ↓kept_upd]

theorem spiReply_kept (a0 s) : (spiReply a0 s).kept = s.kept := by
  unfold spiReply
  (repeat' (first
    | simp only [↓dropFrame_kept, ↓kept_upd, ↓ite_kept, ite_self]
    | with_reducible refine kept_ite ?_ ?_
    | with_reducible split))

theorem mgmtSend_kept (a0 a1 a2 s) : (mgmtSend a0 a1 a2 s).kept = s.kept := by
  simp only [mgmtSend, ↓kept_upd]

theorem replySend_kept (a0 a1 s) : (replySend a0 a1 s).kept = s.kept := by
  unfold replySend
  (repeat' (first
    | simp only [↓spiReply_kept, ↓mgmtSend_kept, ↓kept_upd, ↓ite_kept, ite_self]
    | with_reducible refine kept_ite ?_ ?_
    | with_reducible split))

theorem replyPlain_kept (a0 a1 a2 s) : (replyPlain a0 a1 a2 s).kept = s.kept := by
  simp only [replyPlain, ↓replySend_kept, ↓kept_upd]

theorem reply_kept (a0 a1 a2 s) : (reply a0 a1 a2 s).kept = s.kept := by
  unfold reply
  extract_lets x0 x1 x2 x3
  try clear_value x0
  try clear_value x1
  try clear_value x2
  have hx3 : x3.kept = s.kept := by
    unfold x3
    (repeat' (first
      | simp only [↓replySend_kept, ↓kept_upd, ↓ite_kept, ite_self]
      | with_reducible refine kept_ite ?_ ?_
      | with_reducible split))
  try clear_value x3
  (repeat' (first
    | simp only [↓hx3, ↓replySend_kept, ↓kept_upd, ↓ite_kept, ite_self]
    | with_reducible refine kept_ite ?_ ?_
    | with_reducible split))

theorem replyIf_kept (a0 a1 a2 s) : (replyIf a0 a1 a2 s).kept = s.kept := by
  unfold replyIf
  (repeat' (first
    | simp only [↓reply_kept, ↓kept_upd, ↓ite_kept, ite_self]
    | with_reducible refine kept_ite ?_ ?_
    | with_reducible split))

/-! ### Fixes -/

theorem mirrorEntry_kept (a0 s) : (mirrorEntry a0 s).kept = s.kept := by
  unfold mirrorEntry
  extract_lets x0 x1 x2
  try clear_value x0
  try clear_value x1
  have hx2 : x2.kept = s.kept := by
    unfold x2
    (repeat' (first
      | simp only [↓linkSend_kept, ↓kept_upd, ↓ite_kept, ite_self]
      | with_reducible refine kept_ite ?_ ?_
      | with_reducible split))
  try clear_value x2
  (repeat' (first
    | simp only [↓hx2, ↓linkSend_kept, ↓kept_upd, ↓ite_kept, ite_self]
    | with_reducible refine kept_ite ?_ ?_
    | with_reducible split))

theorem overflowSet_kept (s) : (overflowSet s).kept = s.kept := by
  simp only [overflowSet, ↓kept_upd]

theorem stageKey_kept (a0 a1 a2 s) : (stageKey a0 a1 a2 s).kept = s.kept := by
  unfold stageKey
  (repeat' (first
    | simp only [↓overflowSet_kept, ↓mirrorEntry_kept, ↓kept_upd, ↓ite_kept, ite_self]
    | with_reducible refine kept_ite ?_ ?_
    | with_reducible split))

theorem stageReg_kept (a0 a1 a2 s) : (stageReg a0 a1 a2 s).kept = s.kept := by
  simp only [stageReg, ↓stageKey_kept, ↓kept_upd]

theorem stageCommit_kept (a0 s) : (stageCommit a0 s).kept = s.kept := by
  simp only [stageCommit, ↓stageKey_kept, ↓kept_upd]

theorem stageNodes_kept (a0 s) : (stageNodes a0 s).2.kept = s.kept := by
  unfold stageNodes
  extract_lets x0 x1 x2 x3 x4 x5
  try clear_value x0
  try clear_value x1
  try clear_value x2
  try clear_value x3
  have hx4 : x4.kept = s.kept := by
    unfold x4
    (repeat' (first
      | simp only [↓mirrorEntry_kept, ↓overflowSet_kept, ↓kept_upd, ↓ite_kept, ite_self]
      | with_reducible refine kept_ite ?_ ?_
      | with_reducible split))
  try clear_value x4
  have hx5 : x5.kept = s.kept := by
    unfold x5
    (repeat' (first
      | simp only [↓hx4, ↓mirrorEntry_kept, ↓overflowSet_kept, ↓kept_upd, ↓ite_kept, ite_self]
      | with_reducible refine kept_ite ?_ ?_
      | with_reducible split))
  try clear_value x5
  (repeat' (first
    | simp only [↓hx4, ↓hx5, ↓mirrorEntry_kept, ↓overflowSet_kept, ↓kept_upd, ↓ite_kept, ite_self]
    | with_reducible refine kept_ite ?_ ?_
    | with_reducible split))

theorem stageKf_kept (a0 s) : (stageKf a0 s).kept = s.kept := by
  unfold stageKf
  (repeat' (first
    | simp only [↓overflowSet_kept, ↓mirrorEntry_kept, ↓kept_upd, ↓ite_kept, ite_self]
    | with_reducible refine kept_ite ?_ ?_
    | with_reducible split))

theorem kfPush_kept (s) : (kfPush s).kept = s.kept := by
  simp only [kfPush, ↓stageKf_kept, ↓kept_upd]

theorem freeSlots_kept (a0 s) : (freeSlots a0 s).kept = s.kept := by
  unfold freeSlots
  (repeat' (first
    | simp only [↓slotSet_kept, ↓kept_upd, ↓kept_updMem, ↓kept_updNvm, ↓kept_updBoth, ↓ite_kept, ↓ite_snd, ↓ite_fst,
        ite_self, implies_true]
    | with_reducible refine kept_ite ?_ ?_
    | with_reducible refine kept_ite_snd ?_ ?_
    | with_reducible refine kept_ite_fst ?_ ?_
    | with_reducible refine kept_ite_snd2 ?_ ?_
    | with_reducible refine ite_to ?_ ?_
    | with_reducible refine Eq.trans (kept_foldl _ ?_ _ _) ?_
    | intro _ _
    | with_reducible split
    | (have h := congrArg (fun x : _ × State => x.2.kept) ‹_ = (_, _)›; simp only [↓slotSet_kept, ] at h; exact h.symm)
    | (have h := congrArg (fun x : State × _ => x.1.kept) ‹_ = (_, _)›; simp only [↓slotSet_kept, ] at h; exact h.symm)
    | (have h := congrArg (fun x : _ × _ × State => x.2.2.kept) ‹_ = (_, _, _)›; simp only [↓slotSet_kept, ] at h; exact h.symm)
    | with_reducible rfl))

theorem discardSet_kept (s) : (discardSet s).kept = s.kept := by
  unfold discardSet
  extract_lets x0 x1 x2
  try clear_value x0
  try clear_value x1
  have hx2 : x2.kept = s.kept := by
    unfold x2
    (repeat' (first
      | simp only [↓freeSlots_kept, ↓linkSend_kept, ↓kept_upd, ↓ite_kept, ite_self]
      | with_reducible refine kept_ite ?_ ?_
      | with_reducible split))
  try clear_value x2
  (repeat' (first
    | simp only [↓hx2, ↓freeSlots_kept, ↓linkSend_kept, ↓kept_upd, ↓ite_kept, ite_self]
    | with_reducible refine kept_ite ?_ ?_
    | with_reducible split))

theorem slotWrite_keeps (a0 a1 a2 s) : Keeps s (slotWrite a0 a1 a2 s) := by
  unfold slotWrite
  (repeat' (first
    | with_reducible exact Keeps.rfl_ _
    | with_reducible assumption
    | with_reducible refine Keeps.ite ?_ ?_
    | with_reducible refine Keeps.ite_snd ?_ ?_
    | with_reducible refine Keeps.to_kept ?_ (slotSet_kept ..)
    | with_reducible refine Keeps.trans ?_ (dramPut_keeps ..)
    | with_reducible refine Keeps.foldl ?_ ?_
    | intro _ _
    | with_reducible split
    | simp only []
    | with_reducible refine Keeps.to_kept ?_ (kept_upd ..)
    | with_reducible refine Keeps.to_kept ?_ (kept_updMem ..)
    | with_reducible refine Keeps.to_kept ?_ (kept_updNvm ..)
    | with_reducible refine Keeps.to_kept ?_ (kept_updBoth ..)))

theorem loadData_keeps (a0 a1 s) : Keeps s (loadData a0 a1 s) := by
  unfold loadData
  (repeat' (first
    | with_reducible exact Keeps.rfl_ _
    | with_reducible assumption
    | with_reducible refine Keeps.ite ?_ ?_
    | with_reducible refine Keeps.ite_snd ?_ ?_
    | with_reducible refine Keeps.to_kept ?_ (rset_kept ..)
    | with_reducible refine Keeps.to_kept ?_ (count_kept ..)
    | with_reducible refine Keeps.to_kept ?_ (mirrorEntry_kept ..)
    | with_reducible refine Keeps.trans ?_ (slotWrite_keeps ..)
    | with_reducible refine Keeps.foldl ?_ ?_
    | intro _ _
    | with_reducible split
    | simp only []
    | with_reducible refine Keeps.to_kept ?_ (kept_upd ..)
    | with_reducible refine Keeps.to_kept ?_ (kept_updMem ..)
    | with_reducible refine Keeps.to_kept ?_ (kept_updNvm ..)
    | with_reducible refine Keeps.to_kept ?_ (kept_updBoth ..)))

theorem nodeGainWrite_kept (a0 a1 s) : (nodeGainWrite a0 a1 s).kept = s.kept := by
  simp only [nodeGainWrite, ↓stageNodes_kept, ↓kept_upd]

theorem fixRequest_kept (a0 a1 s) : (fixRequest a0 a1 s).kept = s.kept := by
  simp only [fixRequest, ↓kept_upd]

theorem overlay_kept (a0 s) : (overlay a0 s).kept = s.kept := by
  simp only [overlay, ↓kept_upd]

theorem fixResult_kept (a0 s) : (fixResult a0 s).kept = s.kept := by
  simp only [fixResult, ↓kept_upd]

theorem noteLate_kept (s) : (noteLate s).kept = s.kept := by
  simp only [noteLate, ↓raiseTick_kept, ↓count_kept, ↓kept_upd]

theorem admitFix_kept (a0 s) : (admitFix a0 s).kept = s.kept := by
  unfold admitFix
  extract_lets x0 x1 x2
  try clear_value x0
  have hx1 : x1.kept = s.kept := by
    unfold x1
    (repeat' (first
      | simp only [↓slotSet_kept, ↓noteLate_kept, ↓kept_upd, ↓kept_updMem, ↓kept_updNvm, ↓kept_updBoth, ↓ite_kept,
          ↓ite_snd, ↓ite_fst, ite_self, implies_true]
      | with_reducible refine kept_ite ?_ ?_
      | with_reducible refine kept_ite_snd ?_ ?_
      | with_reducible refine kept_ite_fst ?_ ?_
      | with_reducible refine kept_ite_snd2 ?_ ?_
      | with_reducible refine ite_to ?_ ?_
      | with_reducible refine Eq.trans (kept_foldl _ ?_ _ _) ?_
      | intro _ _
      | with_reducible split
      | (have h := congrArg (fun x : _ × State => x.2.kept) ‹_ = (_, _)›; simp only [↓slotSet_kept, ↓noteLate_kept,
          ] at h; exact h.symm)
      | (have h := congrArg (fun x : State × _ => x.1.kept) ‹_ = (_, _)›; simp only [↓slotSet_kept, ↓noteLate_kept,
          ] at h; exact h.symm)
      | (have h := congrArg (fun x : _ × _ × State => x.2.2.kept) ‹_ = (_, _, _)›; simp only [↓slotSet_kept,
          ↓noteLate_kept, ] at h; exact h.symm)
      | with_reducible rfl))
  try clear_value x1
  have hx2 : x2.kept = s.kept := by
    unfold x2
    (repeat' (first
      | simp only [↓hx1, ↓slotSet_kept, ↓noteLate_kept, ↓kept_upd, ↓kept_updMem, ↓kept_updNvm, ↓kept_updBoth, ↓ite_kept,
          ↓ite_snd, ↓ite_fst, ite_self, implies_true]
      | with_reducible refine kept_ite ?_ ?_
      | with_reducible refine kept_ite_snd ?_ ?_
      | with_reducible refine kept_ite_fst ?_ ?_
      | with_reducible refine kept_ite_snd2 ?_ ?_
      | with_reducible refine ite_to ?_ ?_
      | with_reducible refine Eq.trans (kept_foldl _ ?_ _ _) ?_
      | intro _ _
      | with_reducible split
      | (have h := congrArg (fun x : _ × State => x.2.kept) ‹_ = (_, _)›; simp only [↓slotSet_kept, ↓noteLate_kept,
          ] at h; exact h.symm)
      | (have h := congrArg (fun x : State × _ => x.1.kept) ‹_ = (_, _)›; simp only [↓slotSet_kept, ↓noteLate_kept,
          ] at h; exact h.symm)
      | (have h := congrArg (fun x : _ × _ × State => x.2.2.kept) ‹_ = (_, _, _)›; simp only [↓slotSet_kept,
          ↓noteLate_kept, ] at h; exact h.symm)
      | with_reducible rfl))
  try clear_value x2
  (repeat' (first
    | simp only [↓hx1, ↓hx2, ↓slotSet_kept, ↓noteLate_kept, ↓kept_upd, ↓kept_updMem, ↓kept_updNvm, ↓kept_updBoth,
        ↓ite_kept, ↓ite_snd, ↓ite_fst, ite_self, implies_true]
    | with_reducible refine kept_ite ?_ ?_
    | with_reducible refine kept_ite_snd ?_ ?_
    | with_reducible refine kept_ite_fst ?_ ?_
    | with_reducible refine kept_ite_snd2 ?_ ?_
    | with_reducible refine ite_to ?_ ?_
    | with_reducible refine Eq.trans (kept_foldl _ ?_ _ _) ?_
    | intro _ _
    | with_reducible split
    | (have h := congrArg (fun x : _ × State => x.2.kept) ‹_ = (_, _)›; simp only [↓slotSet_kept, ↓noteLate_kept,
        ] at h; exact h.symm)
    | (have h := congrArg (fun x : State × _ => x.1.kept) ‹_ = (_, _)›; simp only [↓slotSet_kept, ↓noteLate_kept,
        ] at h; exact h.symm)
    | (have h := congrArg (fun x : _ × _ × State => x.2.2.kept) ‹_ = (_, _, _)›; simp only [↓slotSet_kept,
        ↓noteLate_kept, ] at h; exact h.symm)
    | with_reducible rfl))

theorem registerFix_kept (a0 s) : (registerFix a0 s).kept = s.kept := by
  unfold registerFix
  extract_lets x0 x1 x2 x3 x4 x5 x6
  try clear_value x0
  try clear_value x1
  try clear_value x2
  try clear_value x3
  have hx4 : x4.kept = s.kept := by
    unfold x4
    (repeat' (first
      | simp only [↓linkSend_kept, ↓fixResult_kept, ↓admitFix_kept, ↓raiseTick_kept, ↓count_kept, ↓freeSlots_kept,
          ↓replyIf_kept, ↓kept_upd, ↓ite_kept, ite_self]
      | with_reducible refine kept_ite ?_ ?_
      | with_reducible split))
  try clear_value x4
  have hx5 : x5.kept = s.kept := by
    unfold x5
    (repeat' (first
      | simp only [↓hx4, ↓linkSend_kept, ↓fixResult_kept, ↓admitFix_kept, ↓raiseTick_kept, ↓count_kept, ↓freeSlots_kept,
          ↓replyIf_kept, ↓kept_upd, ↓ite_kept, ite_self]
      | with_reducible refine kept_ite ?_ ?_
      | with_reducible split))
  try clear_value x5
  have hx6 : x6.kept = s.kept := by
    unfold x6
    (repeat' (first
      | simp only [↓hx4, ↓hx5, ↓linkSend_kept, ↓fixResult_kept, ↓admitFix_kept, ↓raiseTick_kept, ↓count_kept,
          ↓freeSlots_kept, ↓replyIf_kept, ↓kept_upd, ↓ite_kept, ite_self]
      | with_reducible refine kept_ite ?_ ?_
      | with_reducible split))
  try clear_value x6
  (repeat' (first
    | simp only [↓hx4, ↓hx5, ↓hx6, ↓linkSend_kept, ↓fixResult_kept, ↓admitFix_kept, ↓raiseTick_kept, ↓count_kept,
        ↓freeSlots_kept, ↓replyIf_kept, ↓kept_upd, ↓ite_kept, ite_self]
    | with_reducible refine kept_ite ?_ ?_
    | with_reducible split))

theorem fixReplay_kept (s) : (fixReplay s).kept = s.kept := by
  unfold fixReplay
  (repeat' (first
    | simp only [↓kept_upd, ↓ite_kept, ite_self]
    | with_reducible refine kept_ite ?_ ?_
    | with_reducible split))

theorem prepareFix_kept (a0 s) : (prepareFix a0 s).kept = s.kept := by
  unfold prepareFix
  extract_lets x0 x1 x2
  have hx0 : x0.kept = s.kept := by
    unfold x0
    (repeat' (first
      | simp only [↓fixReplay_kept, ↓kept_upd, ↓ite_kept, ite_self]
      | with_reducible refine kept_ite ?_ ?_
      | with_reducible split))
  try clear_value x0
  try clear_value x1
  try clear_value x2
  (repeat' (first
    | simp only [↓hx0, ↓fixReplay_kept, ↓kept_upd, ↓ite_kept, ite_self]
    | with_reducible refine kept_ite ?_ ?_
    | with_reducible split))

theorem fixPrepare_kept (s) : (fixPrepare s).kept = s.kept := by
  unfold fixPrepare
  extract_lets x0
  have hx0 : x0.kept = s.kept := by
    unfold x0
    (repeat' (first
      | simp only [↓fixReplay_kept, ↓prepareFix_kept, ↓kept_upd, ↓ite_kept, ite_self]
      | with_reducible refine kept_ite ?_ ?_
      | with_reducible split))
  try clear_value x0
  (repeat' (first
    | simp only [↓hx0, ↓fixReplay_kept, ↓prepareFix_kept, ↓kept_upd, ↓ite_kept, ite_self]
    | with_reducible refine kept_ite ?_ ?_
    | with_reducible split))

theorem fixFactors_kept (a0 a1 b1 s) : (fixFactors a0 a1 b1 s).kept = s.kept := by
  unfold fixFactors
  (repeat' (first
    | simp only [↓kept_upd, ↓kept_updMem, ↓kept_updNvm, ↓kept_updBoth, ↓ite_kept, ↓ite_snd, ↓ite_fst, ite_self, implies_true]
    | with_reducible refine kept_ite ?_ ?_
    | with_reducible refine kept_ite_snd ?_ ?_
    | with_reducible refine kept_ite_fst ?_ ?_
    | with_reducible refine kept_ite_snd2 ?_ ?_
    | with_reducible refine ite_to ?_ ?_
    | with_reducible refine Eq.trans (kept_foldl _ ?_ _ _) ?_
    | intro _ _
    | with_reducible split
    | (have h := congrArg (fun x : _ × State => x.2.kept) ‹_ = (_, _)›; simp only [] at h; exact h.symm)
    | (have h := congrArg (fun x : State × _ => x.1.kept) ‹_ = (_, _)›; simp only [] at h; exact h.symm)
    | (have h := congrArg (fun x : _ × _ × State => x.2.2.kept) ‹_ = (_, _, _)›; simp only [] at h; exact h.symm)
    | with_reducible rfl))

theorem fixChain_kept (a0 a1 b1 s) : (fixChain a0 a1 b1 s).kept = s.kept := by
  simp only [fixChain, ↓chSet_kept, ↓kept_upd]

theorem fixFilter_kept (a0 a1 s) : (fixFilter a0 a1 s).kept = s.kept := by
  unfold fixFilter
  extract_lets x0 x1 x2 x3
  try clear_value x0
  try clear_value x1
  try clear_value x2
  have hx3 : x3.kept = s.kept := by
    unfold x3
    (repeat' (first
      | simp only [↓slotSet_kept, ↓convSet_kept, ↓kept_upd, ↓ite_kept, ite_self]
      | with_reducible refine kept_ite ?_ ?_
      | with_reducible split))
  try clear_value x3
  (repeat' (first
    | simp only [↓hx3, ↓slotSet_kept, ↓convSet_kept, ↓kept_upd, ↓ite_kept, ite_self]
    | with_reducible refine kept_ite ?_ ?_
    | with_reducible split))

theorem fixCapture_kept (a0 s) : (fixCapture a0 s).kept = s.kept := by
  unfold fixCapture
  (repeat' (first
    | simp only [↓kept_upd, ↓ite_kept, ite_self]
    | with_reducible refine kept_ite ?_ ?_
    | with_reducible split))

theorem captureStart_kept (s) : (captureStart s).kept = s.kept := by
  unfold captureStart
  (repeat' (first
    | simp only [↓kept_upd, ↓ite_kept, ite_self]
    | with_reducible refine kept_ite ?_ ?_
    | with_reducible split))

theorem captureEnd_kept (s) : (captureEnd s).kept = s.kept := by
  unfold captureEnd
  (repeat' (first
    | simp only [↓kept_upd, ↓ite_kept, ite_self]
    | with_reducible refine kept_ite ?_ ?_
    | with_reducible split))

theorem fixRegs_kept (a0 a1 b1 s) : (fixRegs a0 a1 b1 s).kept = s.kept := by
  unfold fixRegs
  (repeat' (first
    | simp only [↓delayStep_kept, ↓fixChain_kept, ↓slotSet_kept, ↓fixFilter_kept, ↓toneMode_kept, ↓fixCapture_kept,
        ↓dacFix_kept, ↓adcSet_kept, ↓kept_upd, ↓kept_updMem, ↓kept_updNvm, ↓kept_updBoth, ↓ite_kept, ↓ite_snd, ↓ite_fst,
            ite_self, implies_true]
    | with_reducible refine kept_ite ?_ ?_
    | with_reducible refine kept_ite_snd ?_ ?_
    | with_reducible refine kept_ite_fst ?_ ?_
    | with_reducible refine kept_ite_snd2 ?_ ?_
    | with_reducible refine ite_to ?_ ?_
    | with_reducible refine Eq.trans (kept_foldl _ ?_ _ _) ?_
    | intro _ _
    | with_reducible split
    | (have h := congrArg (fun x : _ × State => x.2.kept) ‹_ = (_, _)›; simp only [↓delayStep_kept, ↓fixChain_kept,
        ↓slotSet_kept, ↓fixFilter_kept, ↓toneMode_kept, ↓fixCapture_kept, ↓dacFix_kept, ↓adcSet_kept, ] at h; exact h.symm)
    | (have h := congrArg (fun x : State × _ => x.1.kept) ‹_ = (_, _)›; simp only [↓delayStep_kept, ↓fixChain_kept,
        ↓slotSet_kept, ↓fixFilter_kept, ↓toneMode_kept, ↓fixCapture_kept, ↓dacFix_kept, ↓adcSet_kept, ] at h; exact h.symm)
    | (have h := congrArg (fun x : _ × _ × State => x.2.2.kept) ‹_ = (_, _, _)›; simp only [↓delayStep_kept,
        ↓fixChain_kept, ↓slotSet_kept, ↓fixFilter_kept, ↓toneMode_kept, ↓fixCapture_kept, ↓dacFix_kept, ↓adcSet_kept,
            ] at h; exact h.symm)
    | with_reducible rfl))

theorem actFix_kept (a0 s) : (actFix a0 s).kept = s.kept := by
  unfold actFix
  (repeat' (first
    | simp only [↓prepareFix_kept, ↓fixFactors_kept, ↓overlay_kept, ↓fixRegs_kept, ↓enterRecord_kept,
        ↓reportChanges_kept, ↓evcOccur_kept, ↓count_kept, ↓lapseTick_kept, ↓kept_upd, ↓kept_updMem, ↓kept_updNvm,
            ↓kept_updBoth, ↓ite_kept, ↓ite_snd, ↓ite_fst, ite_self, implies_true]
    | with_reducible refine kept_ite ?_ ?_
    | with_reducible refine kept_ite_snd ?_ ?_
    | with_reducible refine kept_ite_fst ?_ ?_
    | with_reducible refine kept_ite_snd2 ?_ ?_
    | with_reducible refine ite_to ?_ ?_
    | with_reducible refine Eq.trans (kept_foldl _ ?_ _ _) ?_
    | intro _ _
    | with_reducible split
    | (have h := congrArg (fun x : _ × State => x.2.kept) ‹_ = (_, _)›; simp only [↓prepareFix_kept, ↓fixFactors_kept,
        ↓overlay_kept, ↓fixRegs_kept, ↓enterRecord_kept, ↓reportChanges_kept, ↓evcOccur_kept, ↓count_kept,
            ↓lapseTick_kept, ] at h; exact h.symm)
    | (have h := congrArg (fun x : State × _ => x.1.kept) ‹_ = (_, _)›; simp only [↓prepareFix_kept, ↓fixFactors_kept,
        ↓overlay_kept, ↓fixRegs_kept, ↓enterRecord_kept, ↓reportChanges_kept, ↓evcOccur_kept, ↓count_kept,
            ↓lapseTick_kept, ] at h; exact h.symm)
    | (have h := congrArg (fun x : _ × _ × State => x.2.2.kept) ‹_ = (_, _, _)›; simp only [↓prepareFix_kept,
        ↓fixFactors_kept, ↓overlay_kept, ↓fixRegs_kept, ↓enterRecord_kept, ↓reportChanges_kept, ↓evcOccur_kept,
            ↓count_kept, ↓lapseTick_kept, ] at h; exact h.symm)
    | with_reducible rfl))

theorem fixAct_kept (s) : (fixAct s).kept = s.kept := by
  unfold fixAct
  (repeat' (first
    | simp only [↓actFix_kept, ↓kept_upd, ↓kept_updMem, ↓kept_updNvm, ↓kept_updBoth, ↓ite_kept, ↓ite_snd, ↓ite_fst,
        ite_self, implies_true]
    | with_reducible refine kept_ite ?_ ?_
    | with_reducible refine kept_ite_snd ?_ ?_
    | with_reducible refine kept_ite_fst ?_ ?_
    | with_reducible refine kept_ite_snd2 ?_ ?_
    | with_reducible refine ite_to ?_ ?_
    | with_reducible refine Eq.trans (kept_foldl _ ?_ _ _) ?_
    | intro _ _
    | with_reducible split
    | (have h := congrArg (fun x : _ × State => x.2.kept) ‹_ = (_, _)›; simp only [↓actFix_kept, ] at h; exact h.symm)
    | (have h := congrArg (fun x : State × _ => x.1.kept) ‹_ = (_, _)›; simp only [↓actFix_kept, ] at h; exact h.symm)
    | (have h := congrArg (fun x : _ × _ × State => x.2.2.kept) ‹_ = (_, _, _)›; simp only [↓actFix_kept, ] at h; exact h.symm)
    | with_reducible rfl))

theorem fixRegister_kept (s) : (fixRegister s).kept = s.kept := by
  unfold fixRegister
  extract_lets x0 x1 x2 x3
  have hx0 : x0.kept = s.kept := by
    unfold x0
    (repeat' (first
      | simp only [↓fixAct_kept, ↓registerFix_kept, ↓replyIf_kept, ↓kept_upd, ↓kept_updMem, ↓kept_updNvm, ↓kept_updBoth,
          ↓ite_kept, ↓ite_snd, ↓ite_fst, ite_self, implies_true]
      | with_reducible refine kept_ite ?_ ?_
      | with_reducible refine kept_ite_snd ?_ ?_
      | with_reducible refine kept_ite_fst ?_ ?_
      | with_reducible refine kept_ite_snd2 ?_ ?_
      | with_reducible refine ite_to ?_ ?_
      | with_reducible refine Eq.trans (kept_foldl _ ?_ _ _) ?_
      | intro _ _
      | with_reducible split
      | (have h := congrArg (fun x : _ × State => x.2.kept) ‹_ = (_, _)›; simp only [↓fixAct_kept, ↓registerFix_kept,
          ↓replyIf_kept, ] at h; exact h.symm)
      | (have h := congrArg (fun x : State × _ => x.1.kept) ‹_ = (_, _)›; simp only [↓fixAct_kept, ↓registerFix_kept,
          ↓replyIf_kept, ] at h; exact h.symm)
      | (have h := congrArg (fun x : _ × _ × State => x.2.2.kept) ‹_ = (_, _, _)›; simp only [↓fixAct_kept,
          ↓registerFix_kept, ↓replyIf_kept, ] at h; exact h.symm)
      | with_reducible rfl))
  try clear_value x0
  try clear_value x1
  try clear_value x2
  have hx3 : x3.kept = s.kept := by
    unfold x3
    (repeat' (first
      | simp only [↓hx0, ↓fixAct_kept, ↓registerFix_kept, ↓replyIf_kept, ↓kept_upd, ↓kept_updMem, ↓kept_updNvm,
          ↓kept_updBoth, ↓ite_kept, ↓ite_snd, ↓ite_fst, ite_self, implies_true]
      | with_reducible refine kept_ite ?_ ?_
      | with_reducible refine kept_ite_snd ?_ ?_
      | with_reducible refine kept_ite_fst ?_ ?_
      | with_reducible refine kept_ite_snd2 ?_ ?_
      | with_reducible refine ite_to ?_ ?_
      | with_reducible refine Eq.trans (kept_foldl _ ?_ _ _) ?_
      | intro _ _
      | with_reducible split
      | (have h := congrArg (fun x : _ × State => x.2.kept) ‹_ = (_, _)›; simp only [↓fixAct_kept, ↓registerFix_kept,
          ↓replyIf_kept, ] at h; exact h.symm)
      | (have h := congrArg (fun x : State × _ => x.1.kept) ‹_ = (_, _)›; simp only [↓fixAct_kept, ↓registerFix_kept,
          ↓replyIf_kept, ] at h; exact h.symm)
      | (have h := congrArg (fun x : _ × _ × State => x.2.2.kept) ‹_ = (_, _, _)›; simp only [↓fixAct_kept,
          ↓registerFix_kept, ↓replyIf_kept, ] at h; exact h.symm)
      | with_reducible rfl))
  try clear_value x3
  (repeat' (first
    | simp only [↓hx0, ↓hx3, ↓fixAct_kept, ↓registerFix_kept, ↓replyIf_kept, ↓kept_upd, ↓kept_updMem, ↓kept_updNvm,
        ↓kept_updBoth, ↓ite_kept, ↓ite_snd, ↓ite_fst, ite_self, implies_true]
    | with_reducible refine kept_ite ?_ ?_
    | with_reducible refine kept_ite_snd ?_ ?_
    | with_reducible refine kept_ite_fst ?_ ?_
    | with_reducible refine kept_ite_snd2 ?_ ?_
    | with_reducible refine ite_to ?_ ?_
    | with_reducible refine Eq.trans (kept_foldl _ ?_ _ _) ?_
    | intro _ _
    | with_reducible split
    | (have h := congrArg (fun x : _ × State => x.2.kept) ‹_ = (_, _)›; simp only [↓fixAct_kept, ↓registerFix_kept,
        ↓replyIf_kept, ] at h; exact h.symm)
    | (have h := congrArg (fun x : State × _ => x.1.kept) ‹_ = (_, _)›; simp only [↓fixAct_kept, ↓registerFix_kept,
        ↓replyIf_kept, ] at h; exact h.symm)
    | (have h := congrArg (fun x : _ × _ × State => x.2.2.kept) ‹_ = (_, _, _)›; simp only [↓fixAct_kept,
        ↓registerFix_kept, ↓replyIf_kept, ] at h; exact h.symm)
    | with_reducible rfl))

theorem takeEntry_keeps (a0 s) : Keeps s (takeEntry a0 s) := by
  unfold takeEntry
  extract_lets x0 x1 x2 x3
  try clear_value x0
  try clear_value x1
  try clear_value x2
  have hx3 : Keeps s x3 := by
    unfold x3
    (repeat' (first
      | with_reducible exact Keeps.rfl_ _
      | with_reducible assumption
      | with_reducible refine Keeps.ite ?_ ?_
      | with_reducible refine Keeps.ite_snd ?_ ?_
      | with_reducible refine Keeps.to_kept ?_ (stageReg_kept ..)
      | with_reducible refine Keeps.to_kept ?_ (stageNodes_kept ..)
      | with_reducible refine Keeps.to_kept ?_ (stageKf_kept ..)
      | with_reducible refine Keeps.trans ?_ (slotWrite_keeps ..)
      | with_reducible refine Keeps.to_kept ?_ (mirrorEntry_kept ..)
      | with_reducible refine Keeps.to_kept ?_ (stageCommit_kept ..)
      | with_reducible refine Keeps.to_kept ?_ (discardSet_kept ..)
      | with_reducible refine Keeps.foldl ?_ ?_
      | intro _ _
      | with_reducible split
      | simp only []
      | with_reducible refine Keeps.to_kept ?_ (kept_upd ..)
      | with_reducible refine Keeps.to_kept ?_ (kept_updMem ..)
      | with_reducible refine Keeps.to_kept ?_ (kept_updNvm ..)
      | with_reducible refine Keeps.to_kept ?_ (kept_updBoth ..)))
  try clear_value x3
  (repeat' (first
    | with_reducible exact Keeps.rfl_ _
    | with_reducible assumption
    | with_reducible refine Keeps.ite ?_ ?_
    | with_reducible refine Keeps.ite_snd ?_ ?_
    | with_reducible refine Keeps.to_kept ?_ (stageReg_kept ..)
    | with_reducible refine Keeps.to_kept ?_ (stageNodes_kept ..)
    | with_reducible refine Keeps.to_kept ?_ (stageKf_kept ..)
    | with_reducible refine Keeps.trans ?_ (slotWrite_keeps ..)
    | with_reducible refine Keeps.to_kept ?_ (mirrorEntry_kept ..)
    | with_reducible refine Keeps.to_kept ?_ (stageCommit_kept ..)
    | with_reducible refine Keeps.to_kept ?_ (discardSet_kept ..)
    | with_reducible refine Keeps.foldl ?_ ?_
    | intro _ _
    | with_reducible split
    | simp only []
    | with_reducible refine Keeps.to_kept ?_ (kept_upd ..)
    | with_reducible refine Keeps.to_kept ?_ (kept_updMem ..)
    | with_reducible refine Keeps.to_kept ?_ (kept_updNvm ..)
    | with_reducible refine Keeps.to_kept ?_ (kept_updBoth ..)))

theorem holdFrame_kept (a0 a1 a2 s) : (holdFrame a0 a1 a2 s).kept = s.kept := by
  simp only [holdFrame, ↓kept_upd]

theorem mirrorReceive_keeps (a0 s) : Keeps s (mirrorReceive a0 s) := by
  unfold mirrorReceive
  (repeat' (first
    | with_reducible exact Keeps.rfl_ _
    | with_reducible assumption
    | with_reducible refine Keeps.ite ?_ ?_
    | with_reducible refine Keeps.ite_snd ?_ ?_
    | with_reducible refine Keeps.to_kept ?_ (holdFrame_kept ..)
    | with_reducible refine Keeps.trans ?_ (takeEntry_keeps ..)
    | with_reducible refine Keeps.foldl ?_ ?_
    | intro _ _
    | with_reducible split
    | simp only []
    | with_reducible refine Keeps.to_kept ?_ (kept_upd ..)
    | with_reducible refine Keeps.to_kept ?_ (kept_updMem ..)
    | with_reducible refine Keeps.to_kept ?_ (kept_updNvm ..)
    | with_reducible refine Keeps.to_kept ?_ (kept_updBoth ..)))

theorem sealReceive_kept (a0 a1 s) : (sealReceive a0 a1 s).kept = s.kept := by
  unfold sealReceive
  (repeat' (first
    | simp only [↓holdFrame_kept, ↓enterSuspect_kept, ↓freeSlots_kept, ↓fixResult_kept, ↓admitFix_kept, ↓kept_upd,
        ↓ite_kept, ite_self]
    | with_reducible refine kept_ite ?_ ?_
    | with_reducible split))

/-! ### Requests -/

theorem requestAsk_kept (a0 a1 s) : (requestAsk a0 a1 s).kept = s.kept := by
  unfold requestAsk
  (repeat' (first
    | simp only [↓kept_upd, ↓ite_kept, ite_self]
    | with_reducible refine kept_ite ?_ ?_
    | with_reducible split))

theorem reqPending_kept (a0 a1 s) : (reqPending a0 a1 s).kept = s.kept := by
  unfold reqPending
  (repeat' (first
    | simp only [↓chSet_kept, ↓tgSet_kept, ↓kept_upd, ↓ite_kept, ite_self]
    | with_reducible refine kept_ite ?_ ?_
    | with_reducible split))

theorem dl1Enter_kept (a0 s) : (dl1Enter a0 s).kept = s.kept := by
  unfold dl1Enter
  (repeat' (first
    | simp only [↓raiseTick_kept, ↓reqPending_kept, ↓kept_upd, ↓ite_kept, ite_self]
    | with_reducible refine kept_ite ?_ ?_
    | with_reducible split))

theorem registerRequest_kept (a0 s) : (registerRequest a0 s).kept = s.kept := by
  unfold registerRequest
  extract_lets x0 x1 x2
  try clear_value x0
  try clear_value x1
  have hx2 : x2.kept = s.kept := by
    unfold x2
    (repeat' (first
      | simp only [↓dl1Enter_kept, ↓relayReq_kept, ↓kept_upd, ↓ite_kept, ite_self]
      | with_reducible refine kept_ite ?_ ?_
      | with_reducible split))
  try clear_value x2
  (repeat' (first
    | simp only [↓hx2, ↓dl1Enter_kept, ↓relayReq_kept, ↓kept_upd, ↓ite_kept, ite_self]
    | with_reducible refine kept_ite ?_ ?_
    | with_reducible split))

theorem requestRegister_kept (s) : (requestRegister s).kept = s.kept := by
  unfold requestRegister
  extract_lets x0 x1 x2
  try clear_value x0
  try clear_value x1
  have hx2 : x2.kept = s.kept := by
    unfold x2
    (repeat' (first
      | simp only [↓registerRequest_kept, ↓kept_upd, ↓kept_updMem, ↓kept_updNvm, ↓kept_updBoth, ↓ite_kept, ↓ite_snd,
          ↓ite_fst, ite_self, implies_true]
      | with_reducible refine kept_ite ?_ ?_
      | with_reducible refine kept_ite_snd ?_ ?_
      | with_reducible refine kept_ite_fst ?_ ?_
      | with_reducible refine kept_ite_snd2 ?_ ?_
      | with_reducible refine ite_to ?_ ?_
      | with_reducible refine Eq.trans (kept_foldl _ ?_ _ _) ?_
      | intro _ _
      | with_reducible split
      | (have h := congrArg (fun x : _ × State => x.2.kept) ‹_ = (_, _)›; simp only [↓registerRequest_kept,
          ] at h; exact h.symm)
      | (have h := congrArg (fun x : State × _ => x.1.kept) ‹_ = (_, _)›; simp only [↓registerRequest_kept,
          ] at h; exact h.symm)
      | (have h := congrArg (fun x : _ × _ × State => x.2.2.kept) ‹_ = (_, _, _)›; simp only [↓registerRequest_kept,
          ] at h; exact h.symm)
      | with_reducible rfl))
  try clear_value x2
  (repeat' (first
    | simp only [↓hx2, ↓registerRequest_kept, ↓kept_upd, ↓kept_updMem, ↓kept_updNvm, ↓kept_updBoth, ↓ite_kept, ↓ite_snd,
        ↓ite_fst, ite_self, implies_true]
    | with_reducible refine kept_ite ?_ ?_
    | with_reducible refine kept_ite_snd ?_ ?_
    | with_reducible refine kept_ite_fst ?_ ?_
    | with_reducible refine kept_ite_snd2 ?_ ?_
    | with_reducible refine ite_to ?_ ?_
    | with_reducible refine Eq.trans (kept_foldl _ ?_ _ _) ?_
    | intro _ _
    | with_reducible split
    | (have h := congrArg (fun x : _ × State => x.2.kept) ‹_ = (_, _)›; simp only [↓registerRequest_kept, ] at h; exact h.symm)
    | (have h := congrArg (fun x : State × _ => x.1.kept) ‹_ = (_, _)›; simp only [↓registerRequest_kept, ] at h; exact h.symm)
    | (have h := congrArg (fun x : _ × _ × State => x.2.2.kept) ‹_ = (_, _, _)›; simp only [↓registerRequest_kept,
        ] at h; exact h.symm)
    | with_reducible rfl))

theorem actRequest_kept (a0 s) : (actRequest a0 s).kept = s.kept := by
  unfold actRequest
  (repeat' (first
    | simp only [↓chSet_kept, ↓portSet_kept, ↓tgSet_kept, ↓kept_upd, ↓ite_kept, ite_self]
    | with_reducible refine kept_ite ?_ ?_
    | with_reducible split))

theorem actRequests_kept (a0 s) : (actRequests a0 s).kept = s.kept := by
  induction a0 generalizing s with
  | nil => rfl
  | cons r t ih =>
    rw [actRequests, ih]
    refine kept_ite ?_ ?_ <;> simp only [actRequest_kept, reqPending_kept]

theorem requestAct_kept (s) : (requestAct s).kept = s.kept := by
  unfold requestAct
  (repeat' (first
    | simp only [↓fixAct_kept, ↓actRequests_kept, ↓kept_upd, ↓ite_kept, ite_self]
    | with_reducible refine kept_ite ?_ ?_
    | with_reducible split))

theorem timersAct_kept (s) : (timersAct s).kept = s.kept := by
  unfold timersAct
  extract_lets x0 x1
  have hx0 : x0.kept = s.kept := by
    unfold x0
    (repeat' (first
      | simp only [↓crossfadeEnd_kept, ↓sweepStart_kept, ↓toneStart_kept, ↓captureEnd_kept, ↓captureStart_kept,
          ↓kept_upd, ↓kept_updMem, ↓kept_updNvm, ↓kept_updBoth, ↓ite_kept, ↓ite_snd, ↓ite_fst, ite_self, implies_true]
      | with_reducible refine kept_ite ?_ ?_
      | with_reducible refine kept_ite_snd ?_ ?_
      | with_reducible refine kept_ite_fst ?_ ?_
      | with_reducible refine kept_ite_snd2 ?_ ?_
      | with_reducible refine ite_to ?_ ?_
      | with_reducible refine Eq.trans (kept_foldl _ ?_ _ _) ?_
      | intro _ _
      | with_reducible split
      | (have h := congrArg (fun x : _ × State => x.2.kept) ‹_ = (_, _)›; simp only [↓crossfadeEnd_kept,
          ↓sweepStart_kept, ↓toneStart_kept, ↓captureEnd_kept, ↓captureStart_kept, ] at h; exact h.symm)
      | (have h := congrArg (fun x : State × _ => x.1.kept) ‹_ = (_, _)›; simp only [↓crossfadeEnd_kept,
          ↓sweepStart_kept, ↓toneStart_kept, ↓captureEnd_kept, ↓captureStart_kept, ] at h; exact h.symm)
      | (have h := congrArg (fun x : _ × _ × State => x.2.2.kept) ‹_ = (_, _, _)›; simp only [↓crossfadeEnd_kept,
          ↓sweepStart_kept, ↓toneStart_kept, ↓captureEnd_kept, ↓captureStart_kept, ] at h; exact h.symm)
      | with_reducible rfl))
  try clear_value x0
  have hx1 : x1.kept = s.kept := by
    unfold x1
    (repeat' (first
      | simp only [↓hx0, ↓crossfadeEnd_kept, ↓sweepStart_kept, ↓toneStart_kept, ↓captureEnd_kept, ↓captureStart_kept,
          ↓kept_upd, ↓kept_updMem, ↓kept_updNvm, ↓kept_updBoth, ↓ite_kept, ↓ite_snd, ↓ite_fst, ite_self, implies_true]
      | with_reducible refine kept_ite ?_ ?_
      | with_reducible refine kept_ite_snd ?_ ?_
      | with_reducible refine kept_ite_fst ?_ ?_
      | with_reducible refine kept_ite_snd2 ?_ ?_
      | with_reducible refine ite_to ?_ ?_
      | with_reducible refine Eq.trans (kept_foldl _ ?_ _ _) ?_
      | intro _ _
      | with_reducible split
      | (have h := congrArg (fun x : _ × State => x.2.kept) ‹_ = (_, _)›; simp only [↓crossfadeEnd_kept,
          ↓sweepStart_kept, ↓toneStart_kept, ↓captureEnd_kept, ↓captureStart_kept, ] at h; exact h.symm)
      | (have h := congrArg (fun x : State × _ => x.1.kept) ‹_ = (_, _)›; simp only [↓crossfadeEnd_kept,
          ↓sweepStart_kept, ↓toneStart_kept, ↓captureEnd_kept, ↓captureStart_kept, ] at h; exact h.symm)
      | (have h := congrArg (fun x : _ × _ × State => x.2.2.kept) ‹_ = (_, _, _)›; simp only [↓crossfadeEnd_kept,
          ↓sweepStart_kept, ↓toneStart_kept, ↓captureEnd_kept, ↓captureStart_kept, ] at h; exact h.symm)
      | with_reducible rfl))
  try clear_value x1
  (repeat' (first
    | simp only [↓hx0, ↓hx1, ↓crossfadeEnd_kept, ↓sweepStart_kept, ↓toneStart_kept, ↓captureEnd_kept, ↓captureStart_kept,
        ↓kept_upd, ↓kept_updMem, ↓kept_updNvm, ↓kept_updBoth, ↓ite_kept, ↓ite_snd, ↓ite_fst, ite_self, implies_true]
    | with_reducible refine kept_ite ?_ ?_
    | with_reducible refine kept_ite_snd ?_ ?_
    | with_reducible refine kept_ite_fst ?_ ?_
    | with_reducible refine kept_ite_snd2 ?_ ?_
    | with_reducible refine ite_to ?_ ?_
    | with_reducible refine Eq.trans (kept_foldl _ ?_ _ _) ?_
    | intro _ _
    | with_reducible split
    | (have h := congrArg (fun x : _ × State => x.2.kept) ‹_ = (_, _)›; simp only [↓crossfadeEnd_kept, ↓sweepStart_kept,
        ↓toneStart_kept, ↓captureEnd_kept, ↓captureStart_kept, ] at h; exact h.symm)
    | (have h := congrArg (fun x : State × _ => x.1.kept) ‹_ = (_, _)›; simp only [↓crossfadeEnd_kept, ↓sweepStart_kept,
        ↓toneStart_kept, ↓captureEnd_kept, ↓captureStart_kept, ] at h; exact h.symm)
    | (have h := congrArg (fun x : _ × _ × State => x.2.2.kept) ‹_ = (_, _, _)›; simp only [↓crossfadeEnd_kept,
        ↓sweepStart_kept, ↓toneStart_kept, ↓captureEnd_kept, ↓captureStart_kept, ] at h; exact h.symm)
    | with_reducible rfl))

theorem statSet_kept (a0 a1 s) : (statSet a0 a1 s).kept = s.kept := by
  simp only [statSet, ↓kept_upd]

theorem stopAsk_kept (a0 a1 a2 a3 s) : (stopAsk a0 a1 a2 a3 s).kept = s.kept := by
  simp only [stopAsk, ↓kept_upd]

theorem fnReview_kept (a0 a1 s) : (fnReview a0 a1 s).kept = s.kept := by
  unfold fnReview
  (repeat' (first
    | simp only [↓fnSet_kept, ↓raiseTick_kept, ↓kept_upd, ↓ite_kept, ite_self]
    | with_reducible refine kept_ite ?_ ?_
    | with_reducible split))

theorem fnAsked_kept (a0 s) : (fnAsked a0 s).kept = s.kept := by
  unfold fnAsked
  (repeat' (first
    | simp only [↓fnReview_kept, ↓fnSet_kept, ↓kept_upd, ↓ite_kept, ite_self]
    | with_reducible refine kept_ite ?_ ?_
    | with_reducible split))

theorem registerStop_kept (a0 s) : (registerStop a0 s).kept = s.kept := by
  unfold registerStop
  extract_lets x0 x1 x2 x3 x4 x5 x6
  try clear_value x1
  try clear_value x2
  try clear_value x3
  try clear_value x4
  have hx5 : x5.kept = s.kept := by
    unfold x5
    (repeat' (first
      | simp only [↓replyIf_kept, ↓raiseTick_kept, ↓count_kept, ↓fnAsked_kept, ↓relayReq_kept, ↓kept_upd, ↓ite_kept, ite_self]
      | with_reducible refine kept_ite ?_ ?_
      | with_reducible split))
  try clear_value x5
  have hx6 : x6.kept = s.kept := by
    unfold x6
    (repeat' (first
      | simp only [↓hx5, ↓replyIf_kept, ↓raiseTick_kept, ↓count_kept, ↓fnAsked_kept, ↓relayReq_kept, ↓kept_upd,
          ↓ite_kept, ite_self]
      | with_reducible refine kept_ite ?_ ?_
      | with_reducible split))
  try clear_value x6
  (repeat' (first
    | simp only [x0, ↓hx5, ↓hx6, ↓replyIf_kept, ↓raiseTick_kept, ↓count_kept, ↓fnAsked_kept, ↓relayReq_kept, ↓kept_upd,
        ↓ite_kept, ite_self]
    | with_reducible refine kept_ite ?_ ?_
    | with_reducible split))

theorem stopRegister_kept (s) : (stopRegister s).kept = s.kept := by
  unfold stopRegister
  extract_lets x0 x1 x2
  try clear_value x0
  try clear_value x1
  have hx2 : x2.kept = s.kept := by
    unfold x2
    (repeat' (first
      | simp only [↓registerStop_kept, ↓kept_upd, ↓kept_updMem, ↓kept_updNvm, ↓kept_updBoth, ↓ite_kept, ↓ite_snd,
          ↓ite_fst, ite_self, implies_true]
      | with_reducible refine kept_ite ?_ ?_
      | with_reducible refine kept_ite_snd ?_ ?_
      | with_reducible refine kept_ite_fst ?_ ?_
      | with_reducible refine kept_ite_snd2 ?_ ?_
      | with_reducible refine ite_to ?_ ?_
      | with_reducible refine Eq.trans (kept_foldl _ ?_ _ _) ?_
      | intro _ _
      | with_reducible split
      | (have h := congrArg (fun x : _ × State => x.2.kept) ‹_ = (_, _)›; simp only [↓registerStop_kept, ] at h; exact h.symm)
      | (have h := congrArg (fun x : State × _ => x.1.kept) ‹_ = (_, _)›; simp only [↓registerStop_kept, ] at h; exact h.symm)
      | (have h := congrArg (fun x : _ × _ × State => x.2.2.kept) ‹_ = (_, _, _)›; simp only [↓registerStop_kept,
          ] at h; exact h.symm)
      | with_reducible rfl))
  try clear_value x2
  (repeat' (first
    | simp only [↓hx2, ↓registerStop_kept, ↓kept_upd, ↓kept_updMem, ↓kept_updNvm, ↓kept_updBoth, ↓ite_kept, ↓ite_snd,
        ↓ite_fst, ite_self, implies_true]
    | with_reducible refine kept_ite ?_ ?_
    | with_reducible refine kept_ite_snd ?_ ?_
    | with_reducible refine kept_ite_fst ?_ ?_
    | with_reducible refine kept_ite_snd2 ?_ ?_
    | with_reducible refine ite_to ?_ ?_
    | with_reducible refine Eq.trans (kept_foldl _ ?_ _ _) ?_
    | intro _ _
    | with_reducible split
    | (have h := congrArg (fun x : _ × State => x.2.kept) ‹_ = (_, _)›; simp only [↓registerStop_kept, ] at h; exact h.symm)
    | (have h := congrArg (fun x : State × _ => x.1.kept) ‹_ = (_, _)›; simp only [↓registerStop_kept, ] at h; exact h.symm)
    | (have h := congrArg (fun x : _ × _ × State => x.2.2.kept) ‹_ = (_, _, _)›; simp only [↓registerStop_kept,
        ] at h; exact h.symm)
    | with_reducible rfl))

theorem fadeLanes_kept (a0 a1 a2 s) : (fadeLanes a0 a1 a2 s).kept = s.kept := by
  unfold fadeLanes
  (repeat' (first
    | simp only [↓kept_upd, ↓kept_updMem, ↓kept_updNvm, ↓kept_updBoth, ↓ite_kept, ↓ite_snd, ↓ite_fst, ite_self, implies_true]
    | with_reducible refine kept_ite ?_ ?_
    | with_reducible refine kept_ite_snd ?_ ?_
    | with_reducible refine kept_ite_fst ?_ ?_
    | with_reducible refine kept_ite_snd2 ?_ ?_
    | with_reducible refine ite_to ?_ ?_
    | with_reducible refine Eq.trans (kept_foldl _ ?_ _ _) ?_
    | intro _ _
    | with_reducible split
    | (have h := congrArg (fun x : _ × State => x.2.kept) ‹_ = (_, _)›; simp only [] at h; exact h.symm)
    | (have h := congrArg (fun x : State × _ => x.1.kept) ‹_ = (_, _)›; simp only [] at h; exact h.symm)
    | (have h := congrArg (fun x : _ × _ × State => x.2.2.kept) ‹_ = (_, _, _)›; simp only [] at h; exact h.symm)
    | with_reducible rfl))

theorem chainFade_kept (a0 a1 a2 s) : (chainFade a0 a1 a2 s).kept = s.kept := by
  simp only [chainFade, ↓chSet_kept, ↓kept_upd]

theorem fnFade_kept (a0 a1 a2 a3 s) : (fnFade a0 a1 a2 a3 s).kept = s.kept := by
  unfold fnFade
  (repeat' (first
    | simp only [↓portSet_kept, ↓fadeLanes_kept, ↓txSet_kept, ↓chainFade_kept, ↓kept_upd, ↓kept_updMem, ↓kept_updNvm,
        ↓kept_updBoth, ↓ite_kept, ↓ite_snd, ↓ite_fst, ite_self, implies_true]
    | with_reducible refine kept_ite ?_ ?_
    | with_reducible refine kept_ite_snd ?_ ?_
    | with_reducible refine kept_ite_fst ?_ ?_
    | with_reducible refine kept_ite_snd2 ?_ ?_
    | with_reducible refine ite_to ?_ ?_
    | with_reducible refine Eq.trans (kept_foldl _ ?_ _ _) ?_
    | intro _ _
    | with_reducible split
    | (have h := congrArg (fun x : _ × State => x.2.kept) ‹_ = (_, _)›; simp only [↓portSet_kept, ↓fadeLanes_kept,
        ↓txSet_kept, ↓chainFade_kept, ] at h; exact h.symm)
    | (have h := congrArg (fun x : State × _ => x.1.kept) ‹_ = (_, _)›; simp only [↓portSet_kept, ↓fadeLanes_kept,
        ↓txSet_kept, ↓chainFade_kept, ] at h; exact h.symm)
    | (have h := congrArg (fun x : _ × _ × State => x.2.2.kept) ‹_ = (_, _, _)›; simp only [↓portSet_kept,
        ↓fadeLanes_kept, ↓txSet_kept, ↓chainFade_kept, ] at h; exact h.symm)
    | with_reducible rfl))

theorem actStop_kept (a0 s) : (actStop a0 s).kept = s.kept := by
  unfold actStop
  (repeat' (first
    | simp only [↓fnFade_kept, ↓fnSet_kept, ↓kept_upd, ↓ite_kept, ite_self]
    | with_reducible refine kept_ite ?_ ?_
    | with_reducible split))

theorem cancelEntry_kept (a0 s) : (cancelEntry a0 s).kept = s.kept := by
  unfold cancelEntry
  (repeat' (first
    | simp only [↓fnSet_kept, ↓kept_upd, ↓ite_kept, ite_self]
    | with_reducible refine kept_ite ?_ ?_
    | with_reducible split))

theorem dl3Settle_kept (s) : (dl3Settle s).kept = s.kept := by
  unfold dl3Settle
  (repeat' (first
    | simp only [↓cancelEntry_kept, ↓kept_upd, ↓kept_updMem, ↓kept_updNvm, ↓kept_updBoth, ↓ite_kept, ↓ite_snd, ↓ite_fst,
        ite_self, implies_true]
    | with_reducible refine kept_ite ?_ ?_
    | with_reducible refine kept_ite_snd ?_ ?_
    | with_reducible refine kept_ite_fst ?_ ?_
    | with_reducible refine kept_ite_snd2 ?_ ?_
    | with_reducible refine ite_to ?_ ?_
    | with_reducible refine Eq.trans (kept_foldl _ ?_ _ _) ?_
    | intro _ _
    | with_reducible split
    | (have h := congrArg (fun x : _ × State => x.2.kept) ‹_ = (_, _)›; simp only [↓cancelEntry_kept, ] at h; exact h.symm)
    | (have h := congrArg (fun x : State × _ => x.1.kept) ‹_ = (_, _)›; simp only [↓cancelEntry_kept, ] at h; exact h.symm)
    | (have h := congrArg (fun x : _ × _ × State => x.2.2.kept) ‹_ = (_, _, _)›; simp only [↓cancelEntry_kept,
        ] at h; exact h.symm)
    | with_reducible rfl))

theorem restorePersistent_kept (a0 s) : (restorePersistent a0 s).kept = s.kept := by
  unfold restorePersistent
  (repeat' (first
    | simp only [↓kept_upd, ↓kept_updMem, ↓kept_updNvm, ↓kept_updBoth, ↓ite_kept, ↓ite_snd, ↓ite_fst, ite_self, implies_true]
    | with_reducible refine kept_ite ?_ ?_
    | with_reducible refine kept_ite_snd ?_ ?_
    | with_reducible refine kept_ite_fst ?_ ?_
    | with_reducible refine kept_ite_snd2 ?_ ?_
    | with_reducible refine ite_to ?_ ?_
    | with_reducible refine Eq.trans (kept_foldl _ ?_ _ _) ?_
    | intro _ _
    | with_reducible split
    | (have h := congrArg (fun x : _ × State => x.2.kept) ‹_ = (_, _)›; simp only [] at h; exact h.symm)
    | (have h := congrArg (fun x : State × _ => x.1.kept) ‹_ = (_, _)›; simp only [] at h; exact h.symm)
    | (have h := congrArg (fun x : _ × _ × State => x.2.2.kept) ‹_ = (_, _, _)›; simp only [] at h; exact h.symm)
    | with_reducible rfl))

theorem busSettle_kept (a0 s) : (busSettle a0 s).kept = s.kept := by
  simp only [busSettle, ↓kept_upd]

theorem relayRequest_kept (a0 a1 s) : (relayRequest a0 a1 s).kept = s.kept := by
  unfold relayRequest
  extract_lets x0 x1 x2 x3 x4 x5
  try clear_value x0
  try clear_value x1
  try clear_value x2
  try clear_value x3
  try clear_value x4
  have hx5 : x5.kept = s.kept := by
    unfold x5
    (repeat' (first
      | simp only [↓lapse_kept, ↓dl1Enter_kept, ↓kept_upd, ↓ite_kept, ite_self]
      | with_reducible refine kept_ite ?_ ?_
      | with_reducible split))
  try clear_value x5
  (repeat' (first
    | simp only [↓hx5, ↓lapse_kept, ↓dl1Enter_kept, ↓kept_upd, ↓ite_kept, ite_self]
    | with_reducible refine kept_ite ?_ ?_
    | with_reducible split))

theorem relayStop_kept (a0 a1 a2 s) : (relayStop a0 a1 a2 s).kept = s.kept := by
  unfold relayStop
  (repeat' (first
    | simp only [↓lapse_kept, ↓raiseTick_kept, ↓count_kept, ↓fnAsked_kept, ↓kept_upd, ↓ite_kept, ite_self]
    | with_reducible refine kept_ite ?_ ?_
    | with_reducible split))

theorem relayReceive_kept (a0 s) : (relayReceive a0 s).kept = s.kept := by
  unfold relayReceive
  (repeat' (first
    | simp only [↓holdFrame_kept, ↓relayRequest_kept, ↓relayStop_kept, ↓kept_upd, ↓ite_kept, ite_self]
    | with_reducible refine kept_ite ?_ ?_
    | with_reducible split))

/-! ### EffectCore -/

theorem coreSet_kept (a0 a1 s) : (coreSet a0 a1 s).kept = s.kept := by
  simp only [coreSet, ↓kept_upd]

theorem coreMark_kept (a0 a1 a2 s) : (coreMark a0 a1 a2 s).kept = s.kept := by
  unfold coreMark
  (repeat' (first
    | simp only [↓kept_upd, ↓ite_kept, ite_self]
    | with_reducible refine kept_ite ?_ ?_
    | with_reducible split))

theorem deliverWord_kept (a0 a1 a2 s) : (deliverWord a0 a1 a2 s).kept = s.kept := by
  simp only [deliverWord, ↓burstCheck_kept, ↓sramPoison_kept, ↓kept_upd]

theorem deliverMarked_kept (a0 a1 a2 a3 s) : (deliverMarked a0 a1 a2 a3 s).kept = s.kept := by
  unfold deliverMarked
  (repeat' (first
    | simp only [↓deliverWord_kept, ↓kept_upd, ↓kept_updMem, ↓kept_updNvm, ↓kept_updBoth, ↓ite_kept, ↓ite_snd, ↓ite_fst,
        ite_self, implies_true]
    | with_reducible refine kept_ite ?_ ?_
    | with_reducible refine kept_ite_snd ?_ ?_
    | with_reducible refine kept_ite_fst ?_ ?_
    | with_reducible refine kept_ite_snd2 ?_ ?_
    | with_reducible refine ite_to ?_ ?_
    | with_reducible refine Eq.trans (kept_foldl _ ?_ _ _) ?_
    | intro _ _
    | with_reducible split
    | (have h := congrArg (fun x : _ × State => x.2.kept) ‹_ = (_, _)›; simp only [↓deliverWord_kept, ] at h; exact h.symm)
    | (have h := congrArg (fun x : State × _ => x.1.kept) ‹_ = (_, _)›; simp only [↓deliverWord_kept, ] at h; exact h.symm)
    | (have h := congrArg (fun x : _ × _ × State => x.2.2.kept) ‹_ = (_, _, _)›; simp only [↓deliverWord_kept,
        ] at h; exact h.symm)
    | with_reducible rfl))

theorem coreWrite_kept (a0 a1 a2 a3 s) : (coreWrite a0 a1 a2 a3 s).kept = s.kept := by
  simp only [coreWrite, ↓kept_upd]

theorem inputCopy_kept (a0 a1 a2 a3 s) : (inputCopy a0 a1 a2 a3 s).kept = s.kept := by
  unfold inputCopy
  (repeat' (first
    | simp only [↓coreWrite_kept, ↓kept_upd, ↓kept_updMem, ↓kept_updNvm, ↓kept_updBoth, ↓ite_kept, ↓ite_snd, ↓ite_fst,
        ite_self, implies_true]
    | with_reducible refine kept_ite ?_ ?_
    | with_reducible refine kept_ite_snd ?_ ?_
    | with_reducible refine kept_ite_fst ?_ ?_
    | with_reducible refine kept_ite_snd2 ?_ ?_
    | with_reducible refine ite_to ?_ ?_
    | with_reducible refine Eq.trans (kept_foldl _ ?_ _ _) ?_
    | intro _ _
    | with_reducible split
    | (have h := congrArg (fun x : _ × State => x.2.kept) ‹_ = (_, _)›; simp only [↓coreWrite_kept, ] at h; exact h.symm)
    | (have h := congrArg (fun x : State × _ => x.1.kept) ‹_ = (_, _)›; simp only [↓coreWrite_kept, ] at h; exact h.symm)
    | (have h := congrArg (fun x : _ × _ × State => x.2.2.kept) ‹_ = (_, _, _)›; simp only [↓coreWrite_kept,
        ] at h; exact h.symm)
    | with_reducible rfl))

theorem notePreempt_kept (a0 s) : (notePreempt a0 s).kept = s.kept := by
  unfold notePreempt
  extract_lets x0
  have hx0 : x0.kept = s.kept := by
    unfold x0
    (repeat' (first
      | simp only [↓count_kept, ↓statSet_kept, ↓kept_upd, ↓ite_kept, ite_self]
      | with_reducible refine kept_ite ?_ ?_
      | with_reducible split))
  try clear_value x0
  (repeat' (first
    | simp only [↓hx0, ↓count_kept, ↓statSet_kept, ↓kept_upd, ↓ite_kept, ite_self]
    | with_reducible refine kept_ite ?_ ?_
    | with_reducible split))

theorem ecStart_kept (a0 a1 a2 a3 s) : (ecStart a0 a1 a2 a3 s).kept = s.kept := by
  unfold ecStart
  (repeat' (first
    | simp only [↓inputCopy_kept, ↓notePreempt_kept, ↓coreSet_kept, ↓kept_upd, ↓ite_kept, ite_self]
    | with_reducible refine kept_ite ?_ ?_
    | with_reducible split))

theorem dropCtx_kept (a0 a1 s) : (dropCtx a0 a1 s).kept = s.kept := by
  simp only [dropCtx, ↓coreSet_kept, ↓kept_upd]

theorem ctxSet_kept (a0 a1 s) : (ctxSet a0 a1 s).kept = s.kept := by
  simp only [ctxSet, ↓coreSet_kept, ↓kept_upd]

theorem outputCopy_kept (a0 a1 a2 a3 a4 a5 s) : (outputCopy a0 a1 a2 a3 a4 a5 s).kept = s.kept := by
  unfold outputCopy
  (repeat' (first
    | simp only [↓deliverMarked_kept, ↓kept_upd, ↓kept_updMem, ↓kept_updNvm, ↓kept_updBoth, ↓ite_kept, ↓ite_snd,
        ↓ite_fst, ite_self, implies_true]
    | with_reducible refine kept_ite ?_ ?_
    | with_reducible refine kept_ite_snd ?_ ?_
    | with_reducible refine kept_ite_fst ?_ ?_
    | with_reducible refine kept_ite_snd2 ?_ ?_
    | with_reducible refine ite_to ?_ ?_
    | with_reducible refine Eq.trans (kept_foldl _ ?_ _ _) ?_
    | intro _ _
    | with_reducible split
    | (have h := congrArg (fun x : _ × State => x.2.kept) ‹_ = (_, _)›; simp only [↓deliverMarked_kept, ] at h; exact h.symm)
    | (have h := congrArg (fun x : State × _ => x.1.kept) ‹_ = (_, _)›; simp only [↓deliverMarked_kept, ] at h; exact h.symm)
    | (have h := congrArg (fun x : _ × _ × State => x.2.2.kept) ‹_ = (_, _, _)›; simp only [↓deliverMarked_kept,
        ] at h; exact h.symm)
    | with_reducible rfl))

theorem ecFinish_kept (a0 a1 s) : (ecFinish a0 a1 s).kept = s.kept := by
  unfold ecFinish
  (repeat' (first
    | simp only [↓outputCopy_kept, ↓coreSet_kept, ↓count_kept, ↓dropCtx_kept, ↓kept_upd, ↓ite_kept, ite_self]
    | with_reducible refine kept_ite ?_ ?_
    | with_reducible split))

theorem movePoison_kept (a0 a1 s) : (movePoison a0 a1 s).kept = s.kept := by
  unfold movePoison
  (repeat' (first
    | simp only [↓deliverPoison_kept, ↓burstCheck_kept, ↓sramPoison_kept, ↓kept_upd, ↓kept_updMem, ↓kept_updNvm,
        ↓kept_updBoth, ↓ite_kept, ↓ite_snd, ↓ite_fst, ite_self, implies_true]
    | with_reducible refine kept_ite ?_ ?_
    | with_reducible refine kept_ite_snd ?_ ?_
    | with_reducible refine kept_ite_fst ?_ ?_
    | with_reducible refine kept_ite_snd2 ?_ ?_
    | with_reducible refine ite_to ?_ ?_
    | with_reducible refine Eq.trans (kept_foldl _ ?_ _ _) ?_
    | intro _ _
    | with_reducible split
    | (have h := congrArg (fun x : _ × State => x.2.kept) ‹_ = (_, _)›; simp only [↓deliverPoison_kept, ↓burstCheck_kept,
        ↓sramPoison_kept, ] at h; exact h.symm)
    | (have h := congrArg (fun x : State × _ => x.1.kept) ‹_ = (_, _)›; simp only [↓deliverPoison_kept, ↓burstCheck_kept,
        ↓sramPoison_kept, ] at h; exact h.symm)
    | (have h := congrArg (fun x : _ × _ × State => x.2.2.kept) ‹_ = (_, _, _)›; simp only [↓deliverPoison_kept,
        ↓burstCheck_kept, ↓sramPoison_kept, ] at h; exact h.symm)
    | with_reducible rfl))

/-! ### Scheduler -/

theorem skipNodes_kept (s) : (skipNodes s).kept = s.kept := by
  unfold skipNodes
  (repeat' (first
    | simp only [↓statSet_kept, ↓kept_upd, ↓kept_updMem, ↓kept_updNvm, ↓kept_updBoth, ↓ite_kept, ↓ite_snd, ↓ite_fst,
        ite_self, implies_true]
    | with_reducible refine kept_ite ?_ ?_
    | with_reducible refine kept_ite_snd ?_ ?_
    | with_reducible refine kept_ite_fst ?_ ?_
    | with_reducible refine kept_ite_snd2 ?_ ?_
    | with_reducible refine ite_to ?_ ?_
    | with_reducible refine Eq.trans (kept_foldl _ ?_ _ _) ?_
    | intro _ _
    | with_reducible split
    | (have h := congrArg (fun x : _ × State => x.2.kept) ‹_ = (_, _)›; simp only [↓statSet_kept, ] at h; exact h.symm)
    | (have h := congrArg (fun x : State × _ => x.1.kept) ‹_ = (_, _)›; simp only [↓statSet_kept, ] at h; exact h.symm)
    | (have h := congrArg (fun x : _ × _ × State => x.2.2.kept) ‹_ = (_, _, _)›; simp only [↓statSet_kept, ] at h; exact h.symm)
    | with_reducible rfl))

theorem adcNeed_kept (a0 s) : (adcNeed a0 s).kept = s.kept := by
  unfold adcNeed
  extract_lets x0 x1 x2 x3 x4 x5
  try clear_value x1
  try clear_value x2
  have hx3 : x3.kept = s.kept := by
    unfold x3
    (repeat' (first
      | simp only [x0, ↓count_kept, ↓lapse_kept, ↓raise_kept, ↓kept_upd, ↓ite_kept, ite_self]
      | with_reducible refine kept_ite ?_ ?_
      | with_reducible split))
  try clear_value x3
  try clear_value x4
  have hx5 : x5.kept = s.kept := by
    unfold x5
    (repeat' (first
      | simp only [↓hx3, ↓count_kept, ↓lapse_kept, ↓raise_kept, ↓kept_upd, ↓ite_kept, ite_self]
      | with_reducible refine kept_ite ?_ ?_
      | with_reducible split))
  try clear_value x5
  (repeat' (first
    | simp only [↓hx3, ↓hx5, ↓count_kept, ↓lapse_kept, ↓raise_kept, ↓kept_upd, ↓ite_kept, ite_self]
    | with_reducible refine kept_ite ?_ ?_
    | with_reducible split))

theorem adcCheck_kept (a0 a1 s) : (adcCheck a0 a1 s).kept = s.kept := by
  unfold adcCheck
  (repeat' (first
    | simp only [↓adcNeed_kept, ↓kept_upd, ↓kept_updMem, ↓kept_updNvm, ↓kept_updBoth, ↓ite_kept, ↓ite_snd, ↓ite_fst,
        ite_self, implies_true]
    | with_reducible refine kept_ite ?_ ?_
    | with_reducible refine kept_ite_snd ?_ ?_
    | with_reducible refine kept_ite_fst ?_ ?_
    | with_reducible refine kept_ite_snd2 ?_ ?_
    | with_reducible refine ite_to ?_ ?_
    | with_reducible refine Eq.trans (kept_foldl _ ?_ _ _) ?_
    | intro _ _
    | with_reducible split
    | (have h := congrArg (fun x : _ × State => x.2.kept) ‹_ = (_, _)›; simp only [↓adcNeed_kept, ] at h; exact h.symm)
    | (have h := congrArg (fun x : State × _ => x.1.kept) ‹_ = (_, _)›; simp only [↓adcNeed_kept, ] at h; exact h.symm)
    | (have h := congrArg (fun x : _ × _ × State => x.2.2.kept) ‹_ = (_, _, _)›; simp only [↓adcNeed_kept, ] at h; exact h.symm)
    | with_reducible rfl))

theorem toneAt_kept (a0 a1 s) : (toneAt a0 a1 s).kept = s.kept := by
  unfold toneAt
  extract_lets x0 x1 x2
  have hx0 : x0.kept = s.kept := by
    unfold x0
    (repeat' (first
      | simp only [↓overlay_kept, ↓toneMode_kept, ↓actRequest_kept, ↓toneStart_kept, ↓kept_upd, ↓kept_updMem,
          ↓kept_updNvm, ↓kept_updBoth, ↓ite_kept, ↓ite_snd, ↓ite_fst, ite_self, implies_true]
      | with_reducible refine kept_ite ?_ ?_
      | with_reducible refine kept_ite_snd ?_ ?_
      | with_reducible refine kept_ite_fst ?_ ?_
      | with_reducible refine kept_ite_snd2 ?_ ?_
      | with_reducible refine ite_to ?_ ?_
      | with_reducible refine Eq.trans (kept_foldl _ ?_ _ _) ?_
      | intro _ _
      | with_reducible split
      | (have h := congrArg (fun x : _ × State => x.2.kept) ‹_ = (_, _)›; simp only [↓overlay_kept, ↓toneMode_kept,
          ↓actRequest_kept, ↓toneStart_kept, ] at h; exact h.symm)
      | (have h := congrArg (fun x : State × _ => x.1.kept) ‹_ = (_, _)›; simp only [↓overlay_kept, ↓toneMode_kept,
          ↓actRequest_kept, ↓toneStart_kept, ] at h; exact h.symm)
      | (have h := congrArg (fun x : _ × _ × State => x.2.2.kept) ‹_ = (_, _, _)›; simp only [↓overlay_kept,
          ↓toneMode_kept, ↓actRequest_kept, ↓toneStart_kept, ] at h; exact h.symm)
      | with_reducible rfl))
  try clear_value x0
  have hx1 : x1.kept = s.kept := by
    unfold x1
    (repeat' (first
      | simp only [↓hx0, ↓overlay_kept, ↓toneMode_kept, ↓actRequest_kept, ↓toneStart_kept, ↓kept_upd, ↓kept_updMem,
          ↓kept_updNvm, ↓kept_updBoth, ↓ite_kept, ↓ite_snd, ↓ite_fst, ite_self, implies_true]
      | with_reducible refine kept_ite ?_ ?_
      | with_reducible refine kept_ite_snd ?_ ?_
      | with_reducible refine kept_ite_fst ?_ ?_
      | with_reducible refine kept_ite_snd2 ?_ ?_
      | with_reducible refine ite_to ?_ ?_
      | with_reducible refine Eq.trans (kept_foldl _ ?_ _ _) ?_
      | intro _ _
      | with_reducible split
      | (have h := congrArg (fun x : _ × State => x.2.kept) ‹_ = (_, _)›; simp only [↓overlay_kept, ↓toneMode_kept,
          ↓actRequest_kept, ↓toneStart_kept, ] at h; exact h.symm)
      | (have h := congrArg (fun x : State × _ => x.1.kept) ‹_ = (_, _)›; simp only [↓overlay_kept, ↓toneMode_kept,
          ↓actRequest_kept, ↓toneStart_kept, ] at h; exact h.symm)
      | (have h := congrArg (fun x : _ × _ × State => x.2.2.kept) ‹_ = (_, _, _)›; simp only [↓overlay_kept,
          ↓toneMode_kept, ↓actRequest_kept, ↓toneStart_kept, ] at h; exact h.symm)
      | with_reducible rfl))
  try clear_value x1
  try clear_value x2
  (repeat' (first
    | simp only [↓hx0, ↓hx1, ↓overlay_kept, ↓toneMode_kept, ↓actRequest_kept, ↓toneStart_kept, ↓kept_upd, ↓kept_updMem,
        ↓kept_updNvm, ↓kept_updBoth, ↓ite_kept, ↓ite_snd, ↓ite_fst, ite_self, implies_true]
    | with_reducible refine kept_ite ?_ ?_
    | with_reducible refine kept_ite_snd ?_ ?_
    | with_reducible refine kept_ite_fst ?_ ?_
    | with_reducible refine kept_ite_snd2 ?_ ?_
    | with_reducible refine ite_to ?_ ?_
    | with_reducible refine Eq.trans (kept_foldl _ ?_ _ _) ?_
    | intro _ _
    | with_reducible split
    | (have h := congrArg (fun x : _ × State => x.2.kept) ‹_ = (_, _)›; simp only [↓overlay_kept, ↓toneMode_kept,
        ↓actRequest_kept, ↓toneStart_kept, ] at h; exact h.symm)
    | (have h := congrArg (fun x : State × _ => x.1.kept) ‹_ = (_, _)›; simp only [↓overlay_kept, ↓toneMode_kept,
        ↓actRequest_kept, ↓toneStart_kept, ] at h; exact h.symm)
    | (have h := congrArg (fun x : _ × _ × State => x.2.2.kept) ‹_ = (_, _, _)›; simp only [↓overlay_kept,
        ↓toneMode_kept, ↓actRequest_kept, ↓toneStart_kept, ] at h; exact h.symm)
    | with_reducible rfl))

theorem toneAhead_kept (a0 a1 s) : (toneAhead a0 a1 s).kept = s.kept := by
  unfold toneAhead
  (repeat' (first
    | simp only [↓kept_upd, ↓ite_kept, ite_self]
    | with_reducible refine kept_ite ?_ ?_
    | with_reducible split))

theorem toneFirst_kept (s) : (toneFirst s).kept = s.kept := by
  unfold toneFirst
  extract_lets x0 x1 x2
  try clear_value x0
  have hx1 : x1.kept = s.kept := by
    unfold x1
    (repeat' (first
      | simp only [↓toneAhead_kept, ↓toneSection_kept, ↓kept_upd, ↓kept_updMem, ↓kept_updNvm, ↓kept_updBoth, ↓ite_kept,
          ↓ite_snd, ↓ite_fst, ite_self, implies_true]
      | with_reducible refine kept_ite ?_ ?_
      | with_reducible refine kept_ite_snd ?_ ?_
      | with_reducible refine kept_ite_fst ?_ ?_
      | with_reducible refine kept_ite_snd2 ?_ ?_
      | with_reducible refine ite_to ?_ ?_
      | with_reducible refine Eq.trans (kept_foldl _ ?_ _ _) ?_
      | intro _ _
      | with_reducible split
      | (have h := congrArg (fun x : _ × State => x.2.kept) ‹_ = (_, _)›; simp only [↓toneAhead_kept, ↓toneSection_kept,
          ] at h; exact h.symm)
      | (have h := congrArg (fun x : State × _ => x.1.kept) ‹_ = (_, _)›; simp only [↓toneAhead_kept, ↓toneSection_kept,
          ] at h; exact h.symm)
      | (have h := congrArg (fun x : _ × _ × State => x.2.2.kept) ‹_ = (_, _, _)›; simp only [↓toneAhead_kept,
          ↓toneSection_kept, ] at h; exact h.symm)
      | with_reducible rfl))
  try clear_value x1
  try clear_value x2
  (repeat' (first
    | simp only [↓hx1, ↓toneAhead_kept, ↓toneSection_kept, ↓kept_upd, ↓kept_updMem, ↓kept_updNvm, ↓kept_updBoth,
        ↓ite_kept, ↓ite_snd, ↓ite_fst, ite_self, implies_true]
    | with_reducible refine kept_ite ?_ ?_
    | with_reducible refine kept_ite_snd ?_ ?_
    | with_reducible refine kept_ite_fst ?_ ?_
    | with_reducible refine kept_ite_snd2 ?_ ?_
    | with_reducible refine ite_to ?_ ?_
    | with_reducible refine Eq.trans (kept_foldl _ ?_ _ _) ?_
    | intro _ _
    | with_reducible split
    | (have h := congrArg (fun x : _ × State => x.2.kept) ‹_ = (_, _)›; simp only [↓toneAhead_kept, ↓toneSection_kept,
        ] at h; exact h.symm)
    | (have h := congrArg (fun x : State × _ => x.1.kept) ‹_ = (_, _)›; simp only [↓toneAhead_kept, ↓toneSection_kept,
        ] at h; exact h.symm)
    | (have h := congrArg (fun x : _ × _ × State => x.2.2.kept) ‹_ = (_, _, _)›; simp only [↓toneAhead_kept,
        ↓toneSection_kept, ] at h; exact h.symm)
    | with_reducible rfl))

theorem heldApply_kept (a0 s) : (heldApply a0 s).kept = s.kept := by
  unfold heldApply
  extract_lets x0 x1 x2
  try clear_value x0
  have hx1 : x1.kept = s.kept := by
    unfold x1
    (repeat' (first
      | simp only [↓objSet_kept, ↓kept_upd, ↓kept_updMem, ↓kept_updNvm, ↓kept_updBoth, ↓ite_kept, ↓ite_snd, ↓ite_fst,
          ite_self, implies_true]
      | with_reducible refine kept_ite ?_ ?_
      | with_reducible refine kept_ite_snd ?_ ?_
      | with_reducible refine kept_ite_fst ?_ ?_
      | with_reducible refine kept_ite_snd2 ?_ ?_
      | with_reducible refine ite_to ?_ ?_
      | with_reducible refine Eq.trans (kept_foldl _ ?_ _ _) ?_
      | intro _ _
      | with_reducible split
      | (have h := congrArg (fun x : _ × State => x.2.kept) ‹_ = (_, _)›; simp only [↓objSet_kept, ] at h; exact h.symm)
      | (have h := congrArg (fun x : State × _ => x.1.kept) ‹_ = (_, _)›; simp only [↓objSet_kept, ] at h; exact h.symm)
      | (have h := congrArg (fun x : _ × _ × State => x.2.2.kept) ‹_ = (_, _, _)›; simp only [↓objSet_kept,
          ] at h; exact h.symm)
      | with_reducible rfl))
  try clear_value x1
  have hx2 : x2.kept = s.kept := by
    unfold x2
    (repeat' (first
      | simp only [↓hx1, ↓objSet_kept, ↓kept_upd, ↓kept_updMem, ↓kept_updNvm, ↓kept_updBoth, ↓ite_kept, ↓ite_snd,
          ↓ite_fst, ite_self, implies_true]
      | with_reducible refine kept_ite ?_ ?_
      | with_reducible refine kept_ite_snd ?_ ?_
      | with_reducible refine kept_ite_fst ?_ ?_
      | with_reducible refine kept_ite_snd2 ?_ ?_
      | with_reducible refine ite_to ?_ ?_
      | with_reducible refine Eq.trans (kept_foldl _ ?_ _ _) ?_
      | intro _ _
      | with_reducible split
      | (have h := congrArg (fun x : _ × State => x.2.kept) ‹_ = (_, _)›; simp only [↓objSet_kept, ] at h; exact h.symm)
      | (have h := congrArg (fun x : State × _ => x.1.kept) ‹_ = (_, _)›; simp only [↓objSet_kept, ] at h; exact h.symm)
      | (have h := congrArg (fun x : _ × _ × State => x.2.2.kept) ‹_ = (_, _, _)›; simp only [↓objSet_kept,
          ] at h; exact h.symm)
      | with_reducible rfl))
  try clear_value x2
  (repeat' (first
    | simp only [↓hx1, ↓hx2, ↓objSet_kept, ↓kept_upd, ↓kept_updMem, ↓kept_updNvm, ↓kept_updBoth, ↓ite_kept, ↓ite_snd,
        ↓ite_fst, ite_self, implies_true]
    | with_reducible refine kept_ite ?_ ?_
    | with_reducible refine kept_ite_snd ?_ ?_
    | with_reducible refine kept_ite_fst ?_ ?_
    | with_reducible refine kept_ite_snd2 ?_ ?_
    | with_reducible refine ite_to ?_ ?_
    | with_reducible refine Eq.trans (kept_foldl _ ?_ _ _) ?_
    | intro _ _
    | with_reducible split
    | (have h := congrArg (fun x : _ × State => x.2.kept) ‹_ = (_, _)›; simp only [↓objSet_kept, ] at h; exact h.symm)
    | (have h := congrArg (fun x : State × _ => x.1.kept) ‹_ = (_, _)›; simp only [↓objSet_kept, ] at h; exact h.symm)
    | (have h := congrArg (fun x : _ × _ × State => x.2.2.kept) ‹_ = (_, _, _)›; simp only [↓objSet_kept, ] at h; exact h.symm)
    | with_reducible rfl))

theorem withhold_kept (a0 a1 b1 s) : (withhold a0 a1 b1 s).kept = s.kept := by
  unfold withhold
  extract_lets x0 x1
  try clear_value x0
  have hx1 : x1.kept = s.kept := by
    unfold x1
    (repeat' (first
      | simp only [↓objSet_kept, ↓kept_upd, ↓kept_updMem, ↓kept_updNvm, ↓kept_updBoth, ↓ite_kept, ↓ite_snd, ↓ite_fst,
          ite_self, implies_true]
      | with_reducible refine kept_ite ?_ ?_
      | with_reducible refine kept_ite_snd ?_ ?_
      | with_reducible refine kept_ite_fst ?_ ?_
      | with_reducible refine kept_ite_snd2 ?_ ?_
      | with_reducible refine ite_to ?_ ?_
      | with_reducible refine Eq.trans (kept_foldl _ ?_ _ _) ?_
      | intro _ _
      | with_reducible split
      | (have h := congrArg (fun x : _ × State => x.2.kept) ‹_ = (_, _)›; simp only [↓objSet_kept, ] at h; exact h.symm)
      | (have h := congrArg (fun x : State × _ => x.1.kept) ‹_ = (_, _)›; simp only [↓objSet_kept, ] at h; exact h.symm)
      | (have h := congrArg (fun x : _ × _ × State => x.2.2.kept) ‹_ = (_, _, _)›; simp only [↓objSet_kept,
          ] at h; exact h.symm)
      | with_reducible rfl))
  try clear_value x1
  (repeat' (first
    | simp only [↓hx1, ↓objSet_kept, ↓kept_upd, ↓kept_updMem, ↓kept_updNvm, ↓kept_updBoth, ↓ite_kept, ↓ite_snd, ↓ite_fst,
        ite_self, implies_true]
    | with_reducible refine kept_ite ?_ ?_
    | with_reducible refine kept_ite_snd ?_ ?_
    | with_reducible refine kept_ite_fst ?_ ?_
    | with_reducible refine kept_ite_snd2 ?_ ?_
    | with_reducible refine ite_to ?_ ?_
    | with_reducible refine Eq.trans (kept_foldl _ ?_ _ _) ?_
    | intro _ _
    | with_reducible split
    | (have h := congrArg (fun x : _ × State => x.2.kept) ‹_ = (_, _)›; simp only [↓objSet_kept, ] at h; exact h.symm)
    | (have h := congrArg (fun x : State × _ => x.1.kept) ‹_ = (_, _)›; simp only [↓objSet_kept, ] at h; exact h.symm)
    | (have h := congrArg (fun x : _ × _ × State => x.2.2.kept) ‹_ = (_, _, _)›; simp only [↓objSet_kept, ] at h; exact h.symm)
    | with_reducible rfl))

theorem streamed_kept (a0 s) : (streamed a0 s).kept = s.kept := by
  unfold streamed
  (repeat' (first
    | simp only [↓heldApply_kept, ↓kept_upd, ↓kept_updMem, ↓kept_updNvm, ↓kept_updBoth, ↓ite_kept, ↓ite_snd, ↓ite_fst,
        ite_self, implies_true]
    | with_reducible refine kept_ite ?_ ?_
    | with_reducible refine kept_ite_snd ?_ ?_
    | with_reducible refine kept_ite_fst ?_ ?_
    | with_reducible refine kept_ite_snd2 ?_ ?_
    | with_reducible refine ite_to ?_ ?_
    | with_reducible refine Eq.trans (kept_foldl _ ?_ _ _) ?_
    | intro _ _
    | with_reducible split
    | (have h := congrArg (fun x : _ × State => x.2.kept) ‹_ = (_, _)›; simp only [↓heldApply_kept, ] at h; exact h.symm)
    | (have h := congrArg (fun x : State × _ => x.1.kept) ‹_ = (_, _)›; simp only [↓heldApply_kept, ] at h; exact h.symm)
    | (have h := congrArg (fun x : _ × _ × State => x.2.2.kept) ‹_ = (_, _, _)›; simp only [↓heldApply_kept,
        ] at h; exact h.symm)
    | with_reducible rfl))

theorem busReplace_kept (a0 a1 a2 s) : (busReplace a0 a1 a2 s).kept = s.kept := by
  unfold busReplace
  extract_lets x0 x1 x2
  try clear_value x0
  try clear_value x1
  have hx2 : x2.kept = s.kept := by
    unfold x2
    (repeat' (first
      | simp only [↓kept_upd, ↓kept_updMem, ↓kept_updNvm, ↓kept_updBoth, ↓ite_kept, ↓ite_snd, ↓ite_fst, ite_self, implies_true]
      | with_reducible refine kept_ite ?_ ?_
      | with_reducible refine kept_ite_snd ?_ ?_
      | with_reducible refine kept_ite_fst ?_ ?_
      | with_reducible refine kept_ite_snd2 ?_ ?_
      | with_reducible refine ite_to ?_ ?_
      | with_reducible refine Eq.trans (kept_foldl _ ?_ _ _) ?_
      | intro _ _
      | with_reducible split
      | (have h := congrArg (fun x : _ × State => x.2.kept) ‹_ = (_, _)›; simp only [] at h; exact h.symm)
      | (have h := congrArg (fun x : State × _ => x.1.kept) ‹_ = (_, _)›; simp only [] at h; exact h.symm)
      | (have h := congrArg (fun x : _ × _ × State => x.2.2.kept) ‹_ = (_, _, _)›; simp only [] at h; exact h.symm)
      | with_reducible rfl))
  try clear_value x2
  (repeat' (first
    | simp only [↓hx2, ↓kept_upd, ↓kept_updMem, ↓kept_updNvm, ↓kept_updBoth, ↓ite_kept, ↓ite_snd, ↓ite_fst, ite_self,
        implies_true]
    | with_reducible refine kept_ite ?_ ?_
    | with_reducible refine kept_ite_snd ?_ ?_
    | with_reducible refine kept_ite_fst ?_ ?_
    | with_reducible refine kept_ite_snd2 ?_ ?_
    | with_reducible refine ite_to ?_ ?_
    | with_reducible refine Eq.trans (kept_foldl _ ?_ _ _) ?_
    | intro _ _
    | with_reducible split
    | (have h := congrArg (fun x : _ × State => x.2.kept) ‹_ = (_, _)›; simp only [] at h; exact h.symm)
    | (have h := congrArg (fun x : State × _ => x.1.kept) ‹_ = (_, _)›; simp only [] at h; exact h.symm)
    | (have h := congrArg (fun x : _ × _ × State => x.2.2.kept) ‹_ = (_, _, _)›; simp only [] at h; exact h.symm)
    | with_reducible rfl))

theorem flightSet_kept (a0 a1 s) : (flightSet a0 a1 s).kept = s.kept := by
  simp only [flightSet, ↓kept_upd]

theorem zeroOne_kept (a0 a1 a2 a3 s) : (zeroOne a0 a1 a2 a3 s).kept = s.kept := by
  unfold zeroOne
  (repeat' (first
    | simp only [↓objSet_kept, ↓busReplace_kept, ↓chSet_kept, ↓kept_upd, ↓ite_kept, ite_self]
    | with_reducible refine kept_ite ?_ ?_
    | with_reducible split))

theorem schedTick_kept (s) : (schedTick s).kept = s.kept := by
  simp only [schedTick, ↓kept_upd]

end Sys2Proof.Machine
end

