-- ==== Sys2Proof/Laws/KeptRows.lean ====
section
/-!
SUPPORT. What the functions of the model leave alone (resync, measurement, the register bus, control messages and the rows): the queue, the byte stores and the flash.
-/
set_option linter.all false

namespace Sys2Proof.Machine

/-! ### EffectRows -/

theorem moveStore_kept (a0 a1 a2 s) : (moveStore a0 a1 a2 s).2.kept = s.kept := by
  unfold moveStore
  (repeat' (first
    | simp only [↓coreWrite_kept, ↓kept_upd, ↓ite_kept, ite_self]
    | with_reducible refine kept_ite ?_ ?_
    | with_reducible split))

theorem moveBad_kept (a0 a1 a2 a3 a4 s) : (moveBad a0 a1 a2 a3 a4 s).kept = s.kept := by
  unfold moveBad
  (repeat' (first
    | simp only [↓burstCheck_kept, ↓coreMark_kept, ↓sramPoison_kept, ↓deliverWord_kept, ↓kept_upd, ↓ite_kept, ite_self]
    | with_reducible refine kept_ite ?_ ?_
    | with_reducible split))

theorem movcFree_kept (a0 a1 s) : (movcFree a0 a1 s).2.kept = s.kept := by
  unfold movcFree
  (repeat' (first
    | simp only [↓nextFree_kept, ↓kept_upd, ↓ite_kept, ite_self]
    | with_reducible refine kept_ite ?_ ?_
    | with_reducible split))

/-! ### Registration -/

theorem planWait_kept (a0 s) : (planWait a0 s).kept = s.kept := by
  unfold planWait
  (repeat' (first
    | simp only [↓kept_upd, ↓ite_kept, ite_self]
    | with_reducible refine kept_ite ?_ ?_
    | with_reducible split))

theorem planLapse_kept (s) : (planLapse s).kept = s.kept := by
  unfold planLapse
  (repeat' (first
    | simp only [↓planWait_kept, ↓kept_upd, ↓ite_kept, ite_self]
    | with_reducible refine kept_ite ?_ ?_
    | with_reducible split))

theorem hashMatch_kept (s) : (hashMatch s).kept = s.kept := by
  unfold hashMatch
  extract_lets x0 x1 x2
  try clear_value x0
  try clear_value x1
  have hx2 : x2.kept = s.kept := by
    unfold x2
    (repeat' (first
      | simp only [↓enterLatent_kept, ↓kept_upd, ↓ite_kept, ite_self]
      | with_reducible refine kept_ite ?_ ?_
      | with_reducible split))
  try clear_value x2
  (repeat' (first
    | simp only [↓hx2, ↓enterLatent_kept, ↓kept_upd, ↓ite_kept, ite_self]
    | with_reducible refine kept_ite ?_ ?_
    | with_reducible split))

theorem hashDiffer_kept (a0 a1 a2 s) : (hashDiffer a0 a1 a2 s).kept = s.kept := by
  unfold hashDiffer
  extract_lets x0 x1 x2 x3 x4 x5 x6 x7
  try clear_value x0
  have hx1 : x1.kept = s.kept := by
    unfold x1
    (repeat' (first
      | simp only [↓count_kept, ↓raise_kept, ↓enterResync_kept, ↓enterSuspect_kept, ↓kept_upd, ↓ite_kept, ite_self]
      | with_reducible refine kept_ite ?_ ?_
      | with_reducible split))
  try clear_value x1
  try clear_value x2
  have hx3 : x3.kept = s.kept := by
    unfold x3
    (repeat' (first
      | simp only [↓hx1, ↓count_kept, ↓raise_kept, ↓enterResync_kept, ↓enterSuspect_kept, ↓kept_upd, ↓ite_kept, ite_self]
      | with_reducible refine kept_ite ?_ ?_
      | with_reducible split))
  try clear_value x3
  try clear_value x4
  have hx5 : x5.kept = s.kept := by
    unfold x5
    (repeat' (first
      | simp only [↓hx1, ↓hx3, ↓count_kept, ↓raise_kept, ↓enterResync_kept, ↓enterSuspect_kept, ↓kept_upd, ↓ite_kept, ite_self]
      | with_reducible refine kept_ite ?_ ?_
      | with_reducible split))
  try clear_value x5
  try clear_value x6
  have hx7 : x7.kept = s.kept := by
    unfold x7
    (repeat' (first
      | simp only [↓hx1, ↓hx3, ↓hx5, ↓count_kept, ↓raise_kept, ↓enterResync_kept, ↓enterSuspect_kept, ↓kept_upd,
          ↓ite_kept, ite_self]
      | with_reducible refine kept_ite ?_ ?_
      | with_reducible split))
  try clear_value x7
  (repeat' (first
    | simp only [↓hx1, ↓hx3, ↓hx5, ↓hx7, ↓count_kept, ↓raise_kept, ↓enterResync_kept, ↓enterSuspect_kept, ↓kept_upd,
        ↓ite_kept, ite_self]
    | with_reducible refine kept_ite ?_ ?_
    | with_reducible split))

theorem compareBlock_kept (a0 s) : (compareBlock a0 s).kept = s.kept := by
  unfold compareBlock
  (repeat' (first
    | simp only [↓hashMatch_kept, ↓hashDiffer_kept, ↓kept_upd, ↓ite_kept, ite_self]
    | with_reducible refine kept_ite ?_ ?_
    | with_reducible split))

theorem hashSeal_kept (s) : (hashSeal s).kept = s.kept := by
  unfold hashSeal
  extract_lets x0 x1 x2 x3 x4 x5
  try clear_value x0
  try clear_value x1
  try clear_value x2
  try clear_value x3
  have hx4 : x4.kept = s.kept := by
    unfold x4
    (repeat' (first
      | simp only [↓linkSend_kept, ↓compareBlock_kept, ↓kept_upd, ↓ite_kept, ite_self]
      | with_reducible refine kept_ite ?_ ?_
      | with_reducible split))
  try clear_value x4
  have hx5 : x5.kept = s.kept := by
    unfold x5
    (repeat' (first
      | simp only [↓hx4, ↓linkSend_kept, ↓compareBlock_kept, ↓kept_upd, ↓ite_kept, ite_self]
      | with_reducible refine kept_ite ?_ ?_
      | with_reducible split))
  try clear_value x5
  (repeat' (first
    | simp only [↓hx4, ↓hx5, ↓linkSend_kept, ↓compareBlock_kept, ↓kept_upd, ↓ite_kept, ite_self]
    | with_reducible refine kept_ite ?_ ?_
    | with_reducible split))

theorem hashReceive_kept (a0 s) : (hashReceive a0 s).kept = s.kept := by
  unfold hashReceive
  extract_lets x0 x1 x2 x3 x4 x5
  try clear_value x0
  try clear_value x1
  try clear_value x2
  try clear_value x3
  try clear_value x4
  have hx5 : x5.kept = s.kept := by
    unfold x5
    (repeat' (first
      | simp only [↓compareBlock_kept, ↓planLapse_kept, ↓kept_upd, ↓ite_kept, ite_self]
      | with_reducible refine kept_ite ?_ ?_
      | with_reducible split))
  try clear_value x5
  (repeat' (first
    | simp only [↓hx5, ↓compareBlock_kept, ↓planLapse_kept, ↓kept_upd, ↓ite_kept, ite_self]
    | with_reducible refine kept_ite ?_ ?_
    | with_reducible split))

theorem hashTimeout_kept (s) : (hashTimeout s).kept = s.kept := by
  unfold hashTimeout
  extract_lets x0 x1 x2
  try clear_value x1
  have hx2 : x2.kept = s.kept := by
    unfold x2
    (repeat' (first
      | simp only [x0, ↓kept_upd, ↓ite_kept, ite_self]
      | with_reducible refine kept_ite ?_ ?_
      | with_reducible split))
  try clear_value x2
  (repeat' (first
    | simp only [x0, ↓hx2, ↓kept_upd, ↓ite_kept, ite_self]
    | with_reducible refine kept_ite ?_ ?_
    | with_reducible split))

theorem adcShare_kept (a0 s) : (adcShare a0 s).kept = s.kept := by
  unfold adcShare
  (repeat' (first
    | simp only [↓linkSend_kept, ↓kept_upd, ↓ite_kept, ite_self]
    | with_reducible refine kept_ite ?_ ?_
    | with_reducible split))

theorem adcReceive_kept (a0 s) : (adcReceive a0 s).kept = s.kept := by
  unfold adcReceive
  extract_lets x0 x1 x2
  try clear_value x0
  try clear_value x1
  have hx2 : x2.kept = s.kept := by
    unfold x2
    (repeat' (first
      | simp only [↓kept_upd, ↓kept_updMem, ↓kept_updNvm, ↓kept_updBoth, ↓ite_kept, ↓ite_snd, ↓ite_fst, ite_self, implies_true]
      | with_reducible refine kept_ite ?_ ?_
      | with_reducible refine kept_ite_snd ?_ ?_
      | with_reducible refine kept_ite_fst ?_ ?_
      | with_reducible refine kept_ite_snd2 ?_ ?_
      | with_reducible refine ite_to ?_ ?_
      | with_reducible refine Eq.trans (kept_foldl _ ?_ _ _) ?_
      | intro _ _
      | with_reducible split
      | (have h := congrArg (fun x : _ × State => x.2.kept) ‹_ = (_, _)›; simp only [] at h; exact h.symm)
      | (have h := congrArg (fun x : State × _ => x.1.kept) ‹_ = (_, _)›; simp only [] at h; exact h.symm)
      | (have h := congrArg (fun x : _ × _ × State => x.2.2.kept) ‹_ = (_, _, _)›; simp only [] at h; exact h.symm)
      | with_reducible rfl))
  try clear_value x2
  (repeat' (first
    | simp only [↓hx2, ↓kept_upd, ↓kept_updMem, ↓kept_updNvm, ↓kept_updBoth, ↓ite_kept, ↓ite_snd, ↓ite_fst, ite_self,
        implies_true]
    | with_reducible refine kept_ite ?_ ?_
    | with_reducible refine kept_ite_snd ?_ ?_
    | with_reducible refine kept_ite_fst ?_ ?_
    | with_reducible refine kept_ite_snd2 ?_ ?_
    | with_reducible refine ite_to ?_ ?_
    | with_reducible refine Eq.trans (kept_foldl _ ?_ _ _) ?_
    | intro _ _
    | with_reducible split
    | (have h := congrArg (fun x : _ × State => x.2.kept) ‹_ = (_, _)›; simp only [] at h; exact h.symm)
    | (have h := congrArg (fun x : State × _ => x.1.kept) ‹_ = (_, _)›; simp only [] at h; exact h.symm)
    | (have h := congrArg (fun x : _ × _ × State => x.2.2.kept) ‹_ = (_, _, _)›; simp only [] at h; exact h.symm)
    | with_reducible rfl))

theorem adcTrim_kept (s) : (adcTrim s).kept = s.kept := by
  simp only [adcTrim, ↓kept_upd]

theorem resendTimeout_kept (s) : (resendTimeout s).kept = s.kept := by
  unfold resendTimeout
  (repeat' (first
    | simp only [↓resend_kept, ↓kept_upd, ↓ite_kept, ite_self]
    | with_reducible refine kept_ite ?_ ?_
    | with_reducible split))

theorem nakReceive_kept (a0 s) : (nakReceive a0 s).kept = s.kept := by
  unfold nakReceive
  (repeat' (first
    | simp only [↓ackFrames_kept, ↓resend_kept, ↓kept_upd, ↓ite_kept, ite_self]
    | with_reducible refine kept_ite ?_ ?_
    | with_reducible split))

/-! ### Resync -/

theorem bulkSend_kept (s) : (bulkSend s).kept = s.kept := by
  unfold bulkSend
  extract_lets x0 x1 x2 x3
  try clear_value x0
  have hx1 : x1.kept = s.kept := by
    unfold x1
    (repeat' (first
      | simp only [↓linkSend_kept, ↓controlSend_kept, ↓kept_upd, ↓kept_updMem, ↓kept_updNvm, ↓kept_updBoth, ↓ite_kept,
          ↓ite_snd, ↓ite_fst, ite_self, implies_true]
      | with_reducible refine kept_ite ?_ ?_
      | with_reducible refine kept_ite_snd ?_ ?_
      | with_reducible refine kept_ite_fst ?_ ?_
      | with_reducible refine kept_ite_snd2 ?_ ?_
      | with_reducible refine ite_to ?_ ?_
      | with_reducible refine Eq.trans (kept_foldl _ ?_ _ _) ?_
      | intro _ _
      | with_reducible split
      | (have h := congrArg (fun x : _ × State => x.2.kept) ‹_ = (_, _)›; simp only [↓linkSend_kept, ↓controlSend_kept,
          ] at h; exact h.symm)
      | (have h := congrArg (fun x : State × _ => x.1.kept) ‹_ = (_, _)›; simp only [↓linkSend_kept, ↓controlSend_kept,
          ] at h; exact h.symm)
      | (have h := congrArg (fun x : _ × _ × State => x.2.2.kept) ‹_ = (_, _, _)›; simp only [↓linkSend_kept,
          ↓controlSend_kept, ] at h; exact h.symm)
      | with_reducible rfl))
  try clear_value x1
  have hx2 : x2.kept = s.kept := by
    unfold x2
    (repeat' (first
      | simp only [↓hx1, ↓linkSend_kept, ↓controlSend_kept, ↓kept_upd, ↓kept_updMem, ↓kept_updNvm, ↓kept_updBoth,
          ↓ite_kept, ↓ite_snd, ↓ite_fst, ite_self, implies_true]
      | with_reducible refine kept_ite ?_ ?_
      | with_reducible refine kept_ite_snd ?_ ?_
      | with_reducible refine kept_ite_fst ?_ ?_
      | with_reducible refine kept_ite_snd2 ?_ ?_
      | with_reducible refine ite_to ?_ ?_
      | with_reducible refine Eq.trans (kept_foldl _ ?_ _ _) ?_
      | intro _ _
      | with_reducible split
      | (have h := congrArg (fun x : _ × State => x.2.kept) ‹_ = (_, _)›; simp only [↓linkSend_kept, ↓controlSend_kept,
          ] at h; exact h.symm)
      | (have h := congrArg (fun x : State × _ => x.1.kept) ‹_ = (_, _)›; simp only [↓linkSend_kept, ↓controlSend_kept,
          ] at h; exact h.symm)
      | (have h := congrArg (fun x : _ × _ × State => x.2.2.kept) ‹_ = (_, _, _)›; simp only [↓linkSend_kept,
          ↓controlSend_kept, ] at h; exact h.symm)
      | with_reducible rfl))
  try clear_value x2
  try clear_value x3
  (repeat' (first
    | simp only [↓hx1, ↓hx2, ↓linkSend_kept, ↓controlSend_kept, ↓kept_upd, ↓kept_updMem, ↓kept_updNvm, ↓kept_updBoth,
        ↓ite_kept, ↓ite_snd, ↓ite_fst, ite_self, implies_true]
    | with_reducible refine kept_ite ?_ ?_
    | with_reducible refine kept_ite_snd ?_ ?_
    | with_reducible refine kept_ite_fst ?_ ?_
    | with_reducible refine kept_ite_snd2 ?_ ?_
    | with_reducible refine ite_to ?_ ?_
    | with_reducible refine Eq.trans (kept_foldl _ ?_ _ _) ?_
    | intro _ _
    | with_reducible split
    | (have h := congrArg (fun x : _ × State => x.2.kept) ‹_ = (_, _)›; simp only [↓linkSend_kept, ↓controlSend_kept,
        ] at h; exact h.symm)
    | (have h := congrArg (fun x : State × _ => x.1.kept) ‹_ = (_, _)›; simp only [↓linkSend_kept, ↓controlSend_kept,
        ] at h; exact h.symm)
    | (have h := congrArg (fun x : _ × _ × State => x.2.2.kept) ‹_ = (_, _, _)›; simp only [↓linkSend_kept,
        ↓controlSend_kept, ] at h; exact h.symm)
    | with_reducible rfl))

theorem unitInstall_kept (a0 a1 s) : (unitInstall a0 a1 s).kept = s.kept := by
  unfold unitInstall
  (repeat' (first
    | simp only [↓objSet_kept, ↓chSet_kept, ↓tgSet_kept, ↓coreWrite_kept, ↓dacSet_kept, ↓kept_upd, ↓kept_updMem,
        ↓kept_updNvm, ↓kept_updBoth, ↓ite_kept, ↓ite_snd, ↓ite_fst, ite_self, implies_true]
    | with_reducible refine kept_ite ?_ ?_
    | with_reducible refine kept_ite_snd ?_ ?_
    | with_reducible refine kept_ite_fst ?_ ?_
    | with_reducible refine kept_ite_snd2 ?_ ?_
    | with_reducible refine ite_to ?_ ?_
    | with_reducible refine Eq.trans (kept_foldl _ ?_ _ _) ?_
    | intro _ _
    | with_reducible split
    | (have h := congrArg (fun x : _ × State => x.2.kept) ‹_ = (_, _)›; simp only [↓objSet_kept, ↓chSet_kept,
        ↓tgSet_kept, ↓coreWrite_kept, ↓dacSet_kept, ] at h; exact h.symm)
    | (have h := congrArg (fun x : State × _ => x.1.kept) ‹_ = (_, _)›; simp only [↓objSet_kept, ↓chSet_kept,
        ↓tgSet_kept, ↓coreWrite_kept, ↓dacSet_kept, ] at h; exact h.symm)
    | (have h := congrArg (fun x : _ × _ × State => x.2.2.kept) ‹_ = (_, _, _)›; simp only [↓objSet_kept, ↓chSet_kept,
        ↓tgSet_kept, ↓coreWrite_kept, ↓dacSet_kept, ] at h; exact h.symm)
    | with_reducible rfl))

theorem unitsInstall_kept (a0 a1 s) : (unitsInstall a0 a1 s).kept = s.kept := by
  induction a0 generalizing a1 s with
  | nil => rfl
  | cons r t ih => simp only [unitsInstall, ih, unitInstall_kept]

theorem sliceSend_kept (s) : (sliceSend s).kept = s.kept := by
  unfold sliceSend
  (repeat' (first
    | simp only [↓linkSend_kept, ↓kept_upd, ↓kept_updMem, ↓kept_updNvm, ↓kept_updBoth, ↓ite_kept, ↓ite_snd, ↓ite_fst,
        ite_self, implies_true]
    | with_reducible refine kept_ite ?_ ?_
    | with_reducible refine kept_ite_snd ?_ ?_
    | with_reducible refine kept_ite_fst ?_ ?_
    | with_reducible refine kept_ite_snd2 ?_ ?_
    | with_reducible refine ite_to ?_ ?_
    | with_reducible refine Eq.trans (kept_foldl _ ?_ _ _) ?_
    | intro _ _
    | with_reducible split
    | (have h := congrArg (fun x : _ × State => x.2.kept) ‹_ = (_, _)›; simp only [↓linkSend_kept, ] at h; exact h.symm)
    | (have h := congrArg (fun x : State × _ => x.1.kept) ‹_ = (_, _)›; simp only [↓linkSend_kept, ] at h; exact h.symm)
    | (have h := congrArg (fun x : _ × _ × State => x.2.2.kept) ‹_ = (_, _, _)›; simp only [↓linkSend_kept,
        ] at h; exact h.symm)
    | with_reducible rfl))

theorem installRegs_kept (a0 s) : (installRegs a0 s).kept = s.kept := by
  simp only [installRegs, ↓kept_upd]

theorem installChain_kept (a0 a1 s a3) : (installChain a0 a1 s a3).kept = s.kept := by
  simp only [installChain, ↓chSet_kept, ↓kept_upd]

theorem installConv_kept (a0 s) : (installConv a0 s).kept = s.kept := by
  simp only [installConv, ↓kept_upd]

theorem txStopped_kept (a0 a1 a2 s) : (txStopped a0 a1 a2 s).kept = s.kept := by
  simp only [txStopped, ↓txSet_kept, ↓kept_upd]

theorem installStops_kept (a0 s) : (installStops a0 s).kept = s.kept := by
  unfold installStops
  (repeat' (first
    | simp only [↓txStopped_kept, ↓kept_upd, ↓kept_updMem, ↓kept_updNvm, ↓kept_updBoth, ↓ite_kept, ↓ite_snd, ↓ite_fst,
        ite_self, implies_true]
    | with_reducible refine kept_ite ?_ ?_
    | with_reducible refine kept_ite_snd ?_ ?_
    | with_reducible refine kept_ite_fst ?_ ?_
    | with_reducible refine kept_ite_snd2 ?_ ?_
    | with_reducible refine ite_to ?_ ?_
    | with_reducible refine Eq.trans (kept_foldl _ ?_ _ _) ?_
    | intro _ _
    | with_reducible split
    | (have h := congrArg (fun x : _ × State => x.2.kept) ‹_ = (_, _)›; simp only [↓txStopped_kept, ] at h; exact h.symm)
    | (have h := congrArg (fun x : State × _ => x.1.kept) ‹_ = (_, _)›; simp only [↓txStopped_kept, ] at h; exact h.symm)
    | (have h := congrArg (fun x : _ × _ × State => x.2.2.kept) ‹_ = (_, _, _)›; simp only [↓txStopped_kept,
        ] at h; exact h.symm)
    | with_reducible rfl))

theorem installCapture_kept (a0 s) : (installCapture a0 s).kept = s.kept := by
  simp only [installCapture, ↓kept_upd]

theorem setOf_keeps (a0 s) : Keeps s (setOf a0 s).2 := by
  unfold setOf
  (repeat' (first
    | with_reducible exact Keeps.rfl_ _
    | with_reducible assumption
    | with_reducible refine Keeps.ite ?_ ?_
    | with_reducible refine Keeps.ite_snd ?_ ?_
    | with_reducible refine Keeps.trans ?_ (takeEntry_keeps ..)
    | with_reducible refine Keeps.foldl ?_ ?_
    | intro _ _
    | with_reducible split
    | simp only []
    | with_reducible refine Keeps.to_kept ?_ (kept_upd ..)
    | with_reducible refine Keeps.to_kept ?_ (kept_updMem ..)
    | with_reducible refine Keeps.to_kept ?_ (kept_updNvm ..)
    | with_reducible refine Keeps.to_kept ?_ (kept_updBoth ..)))

theorem takeDl_keeps (a0 s) : Keeps s (takeDl a0 s) := by
  unfold takeDl
  (repeat' (first
    | with_reducible exact Keeps.rfl_ _
    | with_reducible assumption
    | with_reducible refine Keeps.ite ?_ ?_
    | with_reducible refine Keeps.ite_snd ?_ ?_
    | with_reducible refine Keeps.trans ?_ (setOf_keeps ..)
    | with_reducible refine Keeps.to_kept ?_ (slotSet_kept ..)
    | with_reducible refine Keeps.to_kept ?_ (tgSet_kept ..)
    | with_reducible refine Keeps.to_kept ?_ (relayReceive_kept ..)
    | with_reducible refine Keeps.foldl ?_ ?_
    | intro _ _
    | with_reducible split
    | simp only []
    | with_reducible refine Keeps.to_kept ?_ (kept_upd ..)
    | with_reducible refine Keeps.to_kept ?_ (kept_updMem ..)
    | with_reducible refine Keeps.to_kept ?_ (kept_updNvm ..)
    | with_reducible refine Keeps.to_kept ?_ (kept_updBoth ..)))

theorem pieceReceive_kept (a0 s) : (pieceReceive a0 s).kept = s.kept := by
  unfold pieceReceive
  (repeat' (first
    | simp only [↓kept_upd, ↓ite_kept, ite_self]
    | with_reducible refine kept_ite ?_ ?_
    | with_reducible split))

theorem bulkEndReceive_kept (a0 s) : (bulkEndReceive a0 s).kept = s.kept := by
  unfold bulkEndReceive
  (repeat' (first
    | simp only [↓kept_upd, ↓ite_kept, ite_self]
    | with_reducible refine kept_ite ?_ ?_
    | with_reducible split))

theorem installBulk_kept (s) : (installBulk s).kept = s.kept := by
  unfold installBulk
  (repeat' (first
    | simp only [↓installRegs_kept, ↓installConv_kept, ↓installChain_kept, ↓installStops_kept, ↓installCapture_kept,
        ↓dacSet_kept, ↓kept_upd, ↓kept_updMem, ↓kept_updNvm, ↓kept_updBoth, ↓ite_kept, ↓ite_snd, ↓ite_fst, ite_self,
            implies_true]
    | with_reducible refine kept_ite ?_ ?_
    | with_reducible refine kept_ite_snd ?_ ?_
    | with_reducible refine kept_ite_fst ?_ ?_
    | with_reducible refine kept_ite_snd2 ?_ ?_
    | with_reducible refine ite_to ?_ ?_
    | with_reducible refine Eq.trans (kept_foldl _ ?_ _ _) ?_
    | intro _ _
    | with_reducible split
    | (have h := congrArg (fun x : _ × State => x.2.kept) ‹_ = (_, _)›; simp only [↓installRegs_kept, ↓installConv_kept,
        ↓installChain_kept, ↓installStops_kept, ↓installCapture_kept, ↓dacSet_kept, ] at h; exact h.symm)
    | (have h := congrArg (fun x : State × _ => x.1.kept) ‹_ = (_, _)›; simp only [↓installRegs_kept, ↓installConv_kept,
        ↓installChain_kept, ↓installStops_kept, ↓installCapture_kept, ↓dacSet_kept, ] at h; exact h.symm)
    | (have h := congrArg (fun x : _ × _ × State => x.2.2.kept) ‹_ = (_, _, _)›; simp only [↓installRegs_kept,
        ↓installConv_kept, ↓installChain_kept, ↓installStops_kept, ↓installCapture_kept, ↓dacSet_kept, ] at h; exact h.symm)
    | with_reducible rfl))

theorem atBlock_kept (a0 s) : (atBlock a0 s).kept = s.kept := by
  simp only [atBlock, ↓kept_upd]

theorem settleExpiry_kept (s) : (settleExpiry s).kept = s.kept := by
  unfold settleExpiry
  (repeat' (first
    | simp only [↓kept_upd, ↓ite_kept, ite_self]
    | with_reducible refine kept_ite ?_ ?_
    | with_reducible split))

theorem sliceReceive_kept (a0 s) : (sliceReceive a0 s).kept = s.kept := by
  unfold sliceReceive
  (repeat' (first
    | simp only [↓kept_upd, ↓ite_kept, ite_self]
    | with_reducible refine kept_ite ?_ ?_
    | with_reducible split))

theorem sliceNext_kept (a0 s) : (sliceNext a0 s).kept = s.kept := by
  unfold sliceNext
  (repeat' (first
    | simp only [↓kept_upd, ↓ite_kept, ite_self]
    | with_reducible refine kept_ite ?_ ?_
    | with_reducible split))

theorem sliceInstall_kept (s) : (sliceInstall s).kept = s.kept := by
  unfold sliceInstall
  (repeat' (first
    | simp only [↓sliceNext_kept, ↓unitsInstall_kept, ↓kept_upd, ↓ite_kept, ite_self]
    | with_reducible refine kept_ite ?_ ?_
    | with_reducible split))

theorem sliceTimeout_kept (s) : (sliceTimeout s).kept = s.kept := by
  unfold sliceTimeout
  (repeat' (first
    | simp only [↓count_kept, ↓kept_upd, ↓ite_kept, ite_self]
    | with_reducible refine kept_ite ?_ ?_
    | with_reducible split))

theorem cmdResync_kept (s) : (cmdResync s).kept = s.kept := by
  unfold cmdResync
  (repeat' (first
    | simp only [↓enterResync_kept, ↓kept_upd, ↓ite_kept, ite_self]
    | with_reducible refine kept_ite ?_ ?_
    | with_reducible split))

/-! ### Measure -/

theorem deconvGo_keeps (a0 a1 s) : Keeps s (deconvGo a0 a1 s) := by
  unfold deconvGo
  (repeat' (first
    | with_reducible exact Keeps.rfl_ _
    | with_reducible assumption
    | with_reducible refine Keeps.ite ?_ ?_
    | with_reducible refine Keeps.ite_snd ?_ ?_
    | with_reducible refine Keeps.trans ?_ (dramPut_keeps ..)
    | with_reducible refine Keeps.foldl ?_ ?_
    | intro _ _
    | with_reducible split
    | simp only []
    | with_reducible refine Keeps.to_kept ?_ (kept_upd ..)
    | with_reducible refine Keeps.to_kept ?_ (kept_updMem ..)
    | with_reducible refine Keeps.to_kept ?_ (kept_updNvm ..)
    | with_reducible refine Keeps.to_kept ?_ (kept_updBoth ..)))

theorem deconvDone_keeps (a0 a1 s) : Keeps s (deconvDone a0 a1 s) := by
  simp only [deconvDone]
  with_reducible refine Keeps.ite (Keeps.rfl_ _) ?_
  with_reducible refine Keeps.ite ?_ ?_
  · exact Keeps.trans (.of_kept (kept_upd ..)) (dramPut_keeps ..)
  · refine Keeps.trans ?_ (dramPut_keeps ..)
    refine Keeps.to_kept ?_ (kept_upd ..)
    exact (dramPut_keeps ..).trans (dramPut_keeps ..)

/-! ### Regs -/

theorem readClear_kept (a0 a1 s) : (readClear a0 a1 s).2.kept = s.kept := by
  unfold readClear
  (repeat' (first
    | simp only [↓netRead_kept, ↓coreSet_kept, ↓cset_kept, ↓kept_upd, ↓ite_kept, ite_self]
    | with_reducible refine kept_ite ?_ ?_
    | with_reducible split))

theorem latchPut_kept (a0 a1 s) : (latchPut a0 a1 s).kept = s.kept := by
  simp only [latchPut, ↓kept_upd]

theorem latchAll_kept (a0 a1 s) : (latchAll a0 a1 s).kept = s.kept := by
  unfold latchAll
  extract_lets x0 x1
  try clear_value x0
  have hx1 : x1.kept = s.kept := by
    unfold x1
    (repeat' (first
      | simp only [↓latchPut_kept, ↓kept_upd, ↓kept_updMem, ↓kept_updNvm, ↓kept_updBoth, ↓ite_kept, ↓ite_snd, ↓ite_fst,
          ite_self, implies_true]
      | with_reducible refine kept_ite ?_ ?_
      | with_reducible refine kept_ite_snd ?_ ?_
      | with_reducible refine kept_ite_fst ?_ ?_
      | with_reducible refine kept_ite_snd2 ?_ ?_
      | with_reducible refine ite_to ?_ ?_
      | with_reducible refine Eq.trans (kept_foldl _ ?_ _ _) ?_
      | intro _ _
      | with_reducible split
      | (have h := congrArg (fun x : _ × State => x.2.kept) ‹_ = (_, _)›; simp only [↓latchPut_kept, ] at h; exact h.symm)
      | (have h := congrArg (fun x : State × _ => x.1.kept) ‹_ = (_, _)›; simp only [↓latchPut_kept, ] at h; exact h.symm)
      | (have h := congrArg (fun x : _ × _ × State => x.2.2.kept) ‹_ = (_, _, _)›; simp only [↓latchPut_kept,
          ] at h; exact h.symm)
      | with_reducible rfl))
  try clear_value x1
  (repeat' (first
    | simp only [↓hx1, ↓latchPut_kept, ↓kept_upd, ↓kept_updMem, ↓kept_updNvm, ↓kept_updBoth, ↓ite_kept, ↓ite_snd,
        ↓ite_fst, ite_self, implies_true]
    | with_reducible refine kept_ite ?_ ?_
    | with_reducible refine kept_ite_snd ?_ ?_
    | with_reducible refine kept_ite_fst ?_ ?_
    | with_reducible refine kept_ite_snd2 ?_ ?_
    | with_reducible refine ite_to ?_ ?_
    | with_reducible refine Eq.trans (kept_foldl _ ?_ _ _) ?_
    | intro _ _
    | with_reducible split
    | (have h := congrArg (fun x : _ × State => x.2.kept) ‹_ = (_, _)›; simp only [↓latchPut_kept, ] at h; exact h.symm)
    | (have h := congrArg (fun x : State × _ => x.1.kept) ‹_ = (_, _)›; simp only [↓latchPut_kept, ] at h; exact h.symm)
    | (have h := congrArg (fun x : _ × _ × State => x.2.2.kept) ‹_ = (_, _, _)›; simp only [↓latchPut_kept,
        ] at h; exact h.symm)
    | with_reducible rfl))

theorem regRead_kept (a0 a1 s) : (regRead a0 a1 s).2.kept = s.kept := by
  unfold regRead
  (repeat' (first
    | simp only [↓latchAll_kept, ↓readClear_kept, ↓rset_kept, ↓nvmDataRead_kept, ↓deliverMarked_kept, ↓kept_upd,
        ↓ite_kept, ite_self]
    | with_reducible refine kept_ite ?_ ?_
    | with_reducible split))

theorem muteWrite_kept (a0 a1 s) : (muteWrite a0 a1 s).kept = s.kept := by
  simp only [muteWrite, ↓requestAsk_kept, ↓kept_upd]

theorem holdWrite_kept (a0 a1 s) : (holdWrite a0 a1 s).kept = s.kept := by
  simp only [holdWrite, ↓requestAsk_kept, ↓kept_upd]

theorem pauseWrite_kept (a0 a1 s) : (pauseWrite a0 a1 s).kept = s.kept := by
  simp only [pauseWrite, ↓requestAsk_kept, ↓kept_upd]

theorem stopCmdWrite_kept (a0 a1 s) : (stopCmdWrite a0 a1 s).kept = s.kept := by
  unfold stopCmdWrite
  (repeat' (first
    | simp only [↓stopAsk_kept, ↓kept_upd, ↓ite_kept, ite_self]
    | with_reducible refine kept_ite ?_ ?_
    | with_reducible split))

theorem restart_keeps (s) : Keeps s (restart s) := by
  unfold restart
  (repeat' (first
    | with_reducible exact Keeps.rfl_ _
    | with_reducible assumption
    | with_reducible refine Keeps.ite ?_ ?_
    | with_reducible refine Keeps.ite_snd ?_ ?_
    | with_reducible refine Keeps.trans ?_ (resetDevice_keeps ..)
    | with_reducible refine Keeps.to_kept ?_ (tokenRelease_kept ..)
    | with_reducible refine Keeps.foldl ?_ ?_
    | intro _ _
    | with_reducible split
    | simp only []
    | with_reducible refine Keeps.to_kept ?_ (kept_upd ..)
    | with_reducible refine Keeps.to_kept ?_ (kept_updMem ..)
    | with_reducible refine Keeps.to_kept ?_ (kept_updNvm ..)
    | with_reducible refine Keeps.to_kept ?_ (kept_updBoth ..)))

theorem twinCmdWrite_keeps (a0 a1 s) : Keeps s (twinCmdWrite a0 a1 s) := by
  unfold twinCmdWrite
  (repeat' (first
    | with_reducible exact Keeps.rfl_ _
    | with_reducible assumption
    | with_reducible refine Keeps.ite ?_ ?_
    | with_reducible refine Keeps.ite_snd ?_ ?_
    | with_reducible refine Keeps.to_kept ?_ (cmdRelease_kept ..)
    | with_reducible refine Keeps.to_kept ?_ (cmdCount_kept ..)
    | with_reducible refine Keeps.to_kept ?_ (cmdHandover_kept ..)
    | with_reducible refine Keeps.trans ?_ (restart_keeps ..)
    | with_reducible refine Keeps.to_kept ?_ (cmdResync_kept ..)
    | with_reducible refine Keeps.foldl ?_ ?_
    | intro _ _
    | with_reducible split
    | simp only []
    | with_reducible refine Keeps.to_kept ?_ (kept_upd ..)
    | with_reducible refine Keeps.to_kept ?_ (kept_updMem ..)
    | with_reducible refine Keeps.to_kept ?_ (kept_updNvm ..)
    | with_reducible refine Keeps.to_kept ?_ (kept_updBoth ..)))

theorem fixCommitWrite_kept (a0 a1 s) : (fixCommitWrite a0 a1 s).kept = s.kept := by
  unfold fixCommitWrite
  (repeat' (first
    | simp only [↓fixRequest_kept, ↓discardSet_kept, ↓kept_upd, ↓ite_kept, ite_self]
    | with_reducible refine kept_ite ?_ ?_
    | with_reducible split))

theorem evcSrcWrite_kept (a0 a1 s) : (evcSrcWrite a0 a1 s).kept = s.kept := by
  simp only [evcSrcWrite, ↓kept_upd]

theorem evcSnap_kept (s) : (evcSnap s).kept = s.kept := by
  simp only [evcSnap, ↓kept_upd]

theorem evcClear_kept (a0 s) : (evcClear a0 s).kept = s.kept := by
  simp only [evcClear, ↓kept_upd]

theorem evcCmdWrite_kept (a0 a1 s) : (evcCmdWrite a0 a1 s).kept = s.kept := by
  unfold evcCmdWrite
  extract_lets x0
  have hx0 : x0.kept = s.kept := by
    unfold x0
    (repeat' (first
      | simp only [↓evcClear_kept, ↓evcSnap_kept, ↓kept_upd, ↓ite_kept, ite_self]
      | with_reducible refine kept_ite ?_ ?_
      | with_reducible split))
  try clear_value x0
  (repeat' (first
    | simp only [↓hx0, ↓evcClear_kept, ↓evcSnap_kept, ↓kept_upd, ↓ite_kept, ite_self]
    | with_reducible refine kept_ite ?_ ?_
    | with_reducible split))

theorem fxWrite_kept (a0 a1 a2 a3 s) : (fxWrite a0 a1 a2 a3 s).kept = s.kept := by
  unfold fxWrite
  (repeat' (first
    | simp only [↓nodeGainWrite_kept, ↓kfPush_kept, ↓stageCommit_kept, ↓stageReg_kept, ↓kept_upd, ↓ite_kept, ite_self]
    | with_reducible refine kept_ite ?_ ?_
    | with_reducible split))

theorem sysW1c_kept (a0 s) : (sysW1c a0 s).kept = s.kept := by
  simp only [sysW1c, ↓kept_upd]

theorem ctlW1c_kept (a0 a1 s) : (ctlW1c a0 a1 s).kept = s.kept := by
  unfold ctlW1c
  (repeat' (first
    | simp only [↓kept_upd, ↓ite_kept, ite_self]
    | with_reducible refine kept_ite ?_ ?_
    | with_reducible split))

theorem w1cWrite_kept (a0 a1 a2 s) : (w1cWrite a0 a1 a2 s).kept = s.kept := by
  unfold w1cWrite
  (repeat' (first
    | simp only [↓sysW1c_kept, ↓clkW1c_kept, ↓twinW1c_kept, ↓pnSet_kept, ↓ptpW1c_kept, ↓sapW1c_kept, ↓adcW1c_kept,
        ↓dacW1c_kept, ↓ampW1c_kept, ↓hsW1c_kept, ↓ctlW1c_kept, ↓kept_upd, ↓ite_kept, ite_self]
    | with_reducible refine kept_ite ?_ ?_
    | with_reducible split))

theorem rwWrite_kept (a0 a1 a2 a3 s) : (rwWrite a0 a1 a2 a3 s).kept = s.kept := by
  unfold rwWrite
  (repeat' (first
    | simp only [↓pllFracWrite_kept, ↓domCtrlWrite_kept, ↓incWrite_kept, ↓epochWrite_kept, ↓rset_kept,
        ↓nvmDataWrite_kept, ↓evcSrcWrite_kept, ↓kept_upd, ↓kept_updMem, ↓kept_updNvm, ↓kept_updBoth, ↓ite_kept, ↓ite_snd,
            ↓ite_fst, ite_self, implies_true]
    | with_reducible refine kept_ite ?_ ?_
    | with_reducible refine kept_ite_snd ?_ ?_
    | with_reducible refine kept_ite_fst ?_ ?_
    | with_reducible refine kept_ite_snd2 ?_ ?_
    | with_reducible refine ite_to ?_ ?_
    | with_reducible refine Eq.trans (kept_foldl _ ?_ _ _) ?_
    | intro _ _
    | with_reducible split
    | (have h := congrArg (fun x : _ × State => x.2.kept) ‹_ = (_, _)›; simp only [↓pllFracWrite_kept,
        ↓domCtrlWrite_kept, ↓incWrite_kept, ↓epochWrite_kept, ↓rset_kept, ↓nvmDataWrite_kept, ↓evcSrcWrite_kept,
            ] at h; exact h.symm)
    | (have h := congrArg (fun x : State × _ => x.1.kept) ‹_ = (_, _)›; simp only [↓pllFracWrite_kept,
        ↓domCtrlWrite_kept, ↓incWrite_kept, ↓epochWrite_kept, ↓rset_kept, ↓nvmDataWrite_kept, ↓evcSrcWrite_kept,
            ] at h; exact h.symm)
    | (have h := congrArg (fun x : _ × _ × State => x.2.2.kept) ‹_ = (_, _, _)›; simp only [↓pllFracWrite_kept,
        ↓domCtrlWrite_kept, ↓incWrite_kept, ↓epochWrite_kept, ↓rset_kept, ↓nvmDataWrite_kept, ↓evcSrcWrite_kept,
            ] at h; exact h.symm)
    | with_reducible rfl))

theorem busAnswer_kept (a0 a1 a2 s) : (busAnswer a0 a1 a2 s).kept = s.kept := by
  simp only [busAnswer, ↓kept_upd]

theorem busRead_kept (a0 a1 s) : (busRead a0 a1 s).kept = s.kept := by
  unfold busRead
  with_reducible refine kept_ite ?_ ?_
  · rfl
  split
  · simp only [busAnswer_kept, busError_kept]
  have hw := windowRead_kept a0 a1 s
  generalize windowRead a0 a1 s = w at hw
  obtain ⟨w1, w2, w3⟩ := w
  replace hw : w3.kept = s.kept := hw
  generalize targetOf _ _ = t
  cases t
  case window =>
    cases w2
    · simp only [busAnswer_kept]
      with_reducible refine kept_ite ?_ ?_
      · simp only [burstCheck_kept, deliverPoison_kept, hw]
      · exact hw
    · simp only [busAnswer_kept, busError_kept]; exact hw
  all_goals simp only [regRead_kept, busAnswer_kept]

/-! ### Control -/

theorem staleReply_kept (a0 s) : (staleReply a0 s).kept = s.kept := by
  simp only [staleReply, ↓replyPlain_kept, ↓count_kept, ↓kept_upd]

theorem acceptRequest_kept (a0 s) : (acceptRequest a0 s).kept = s.kept := by
  unfold acceptRequest
  extract_lets x0 x1 x2 x3
  try clear_value x0
  try clear_value x1
  try clear_value x2
  have hx3 : x3.kept = s.kept := by
    unfold x3
    (repeat' (first
      | simp only [↓evcOccur_kept, ↓count_kept, ↓kept_upd, ↓ite_kept, ite_self]
      | with_reducible refine kept_ite ?_ ?_
      | with_reducible split))
  try clear_value x3
  (repeat' (first
    | simp only [↓hx3, ↓evcOccur_kept, ↓count_kept, ↓kept_upd, ↓ite_kept, ite_self]
    | with_reducible refine kept_ite ?_ ?_
    | with_reducible split))

theorem checkedRequest_kept (a0 a1 s) (h : ∀ r p s, (a1 r p s).kept = s.kept) : (checkedRequest a0 a1 s).kept = s.kept := by
  unfold checkedRequest; simp only [↓ite_kept, ↓reply_kept, ↓h, ite_self, implies_true]
theorem checkedRequest_keeps (a0 a1 s) (h : ∀ r p s, Keeps s (a1 r p s)) : Keeps s (checkedRequest a0 a1 s) := by
  unfold checkedRequest; dsimp only
  repeat' (first | exact .of_kept (reply_kept ..) | exact h .. | refine Keeps.ite ?_ ?_)

theorem tcmRow_kept (a0 a1 s) (h : ∀ r p s, (a1 r p s).kept = s.kept) : (tcmRow a0 a1 s).kept = s.kept := by
  have hc : ∀ x s, (checkedRequest x a1 s).kept = s.kept := fun x s => checkedRequest_kept x a1 s h
  unfold tcmRow; split
  · rfl
  · (repeat' (first
    | with_reducible rfl
    | with_reducible refine kept_ite ?_ ?_
    | with_reducible split
    | simp only [↓hc, ↓count_kept, ↓raiseOnce_kept, ↓staleReply_kept, ↓replySend_kept, ↓acceptRequest_kept, ↓kept_upd]
    | dsimp only))
theorem tcmRow_keeps (a0 a1 s) (h : ∀ r p s, Keeps s (a1 r p s)) : Keeps s (tcmRow a0 a1 s) := by
  have hc : ∀ x s, Keeps s (checkedRequest x a1 s) := fun x s => checkedRequest_keeps x a1 s h
  unfold tcmRow; split
  · exact Keeps.rfl_ _
  · extract_lets f w s1
    have h1 : Keeps s s1 := .of_kept (by unfold s1; simp only [↓kept_upd])
    clear_value s1
    repeat' (first | with_reducible exact h1 | with_reducible exact Keeps.rfl_ _ | with_reducible exact Keeps.to_kept h1 (kept_upd ..) | with_reducible refine Keeps.ite ?_ ?_ | with_reducible refine Keeps.to_kept ?_ (count_kept ..) | with_reducible refine Keeps.to_kept ?_ (raiseOnce_kept ..) | with_reducible refine Keeps.to_kept ?_ (staleReply_kept ..) | with_reducible refine Keeps.to_kept ?_ (replySend_kept ..) | with_reducible refine Keeps.trans ?_ (hc ..) | with_reducible refine Keeps.to_kept ?_ (acceptRequest_kept ..) | with_reducible split)

theorem readWords_kept (a0 a1 s) : (readWords a0 a1 s).2.2.kept = s.kept := by
  induction a0 generalizing a1 s with
  | nil => rfl
  | cons r t ih => simp only [readWords, ih, busRead_kept]

theorem accessReply_kept (a0 a1 a2 s) : (accessReply a0 a1 a2 s).kept = s.kept := by
  unfold accessReply
  (repeat' (first
    | simp only [↓reply_kept, ↓kept_upd, ↓ite_kept, ite_self]
    | with_reducible refine kept_ite ?_ ?_
    | with_reducible split))

theorem tcmRead_kept (s) : (tcmRead s).kept = s.kept := by
  unfold tcmRead
  (repeat' (first
    | simp only [↓tcmRow_kept, ↓readWords_kept, ↓accessReply_kept, ↓kept_upd, ↓kept_updMem, ↓kept_updNvm, ↓kept_updBoth,
        ↓ite_kept, ↓ite_snd, ↓ite_fst, ite_self, implies_true]
    | with_reducible refine kept_ite ?_ ?_
    | with_reducible refine kept_ite_snd ?_ ?_
    | with_reducible refine kept_ite_fst ?_ ?_
    | with_reducible refine kept_ite_snd2 ?_ ?_
    | with_reducible refine ite_to ?_ ?_
    | with_reducible refine Eq.trans (kept_foldl _ ?_ _ _) ?_
    | intro _ _
    | with_reducible split
    | (have h := congrArg (fun x : _ × State => x.2.kept) ‹_ = (_, _)›; simp only [↓tcmRow_kept, ↓readWords_kept,
        ↓accessReply_kept, ] at h; exact h.symm)
    | (have h := congrArg (fun x : State × _ => x.1.kept) ‹_ = (_, _)›; simp only [↓tcmRow_kept, ↓readWords_kept,
        ↓accessReply_kept, ] at h; exact h.symm)
    | (have h := congrArg (fun x : _ × _ × State => x.2.2.kept) ‹_ = (_, _, _)›; simp only [↓tcmRow_kept,
        ↓readWords_kept, ↓accessReply_kept, ] at h; exact h.symm)
    | with_reducible rfl))

theorem tcmStage_kept (s) : (tcmStage s).kept = s.kept := by
  unfold tcmStage
  (repeat' (first
    | simp only [↓tcmRow_kept, ↓stageNodes_kept, ↓reply_kept, ↓kept_upd, ↓kept_updMem, ↓kept_updNvm, ↓kept_updBoth,
        ↓ite_kept, ↓ite_snd, ↓ite_fst, ite_self, implies_true]
    | with_reducible refine kept_ite ?_ ?_
    | with_reducible refine kept_ite_snd ?_ ?_
    | with_reducible refine kept_ite_fst ?_ ?_
    | with_reducible refine kept_ite_snd2 ?_ ?_
    | with_reducible refine ite_to ?_ ?_
    | with_reducible refine Eq.trans (kept_foldl _ ?_ _ _) ?_
    | intro _ _
    | with_reducible split
    | (have h := congrArg (fun x : _ × State => x.2.kept) ‹_ = (_, _)›; simp only [↓tcmRow_kept, ↓stageNodes_kept,
        ↓reply_kept, ] at h; exact h.symm)
    | (have h := congrArg (fun x : State × _ => x.1.kept) ‹_ = (_, _)›; simp only [↓tcmRow_kept, ↓stageNodes_kept,
        ↓reply_kept, ] at h; exact h.symm)
    | (have h := congrArg (fun x : _ × _ × State => x.2.2.kept) ‹_ = (_, _, _)›; simp only [↓tcmRow_kept,
        ↓stageNodes_kept, ↓reply_kept, ] at h; exact h.symm)
    | with_reducible rfl))

theorem tcmFix_kept (s) : (tcmFix s).kept = s.kept := by
  unfold tcmFix
  (repeat' (first
    | simp only [↓tcmRow_kept, ↓fixRequest_kept, ↓kept_upd, ↓kept_updMem, ↓kept_updNvm, ↓kept_updBoth, ↓ite_kept,
        ↓ite_snd, ↓ite_fst, ite_self, implies_true]
    | with_reducible refine kept_ite ?_ ?_
    | with_reducible refine kept_ite_snd ?_ ?_
    | with_reducible refine kept_ite_fst ?_ ?_
    | with_reducible refine kept_ite_snd2 ?_ ?_
    | with_reducible refine ite_to ?_ ?_
    | with_reducible refine Eq.trans (kept_foldl _ ?_ _ _) ?_
    | intro _ _
    | with_reducible split
    | (have h := congrArg (fun x : _ × State => x.2.kept) ‹_ = (_, _)›; simp only [↓tcmRow_kept, ↓fixRequest_kept,
        ] at h; exact h.symm)
    | (have h := congrArg (fun x : State × _ => x.1.kept) ‹_ = (_, _)›; simp only [↓tcmRow_kept, ↓fixRequest_kept,
        ] at h; exact h.symm)
    | (have h := congrArg (fun x : _ × _ × State => x.2.2.kept) ‹_ = (_, _, _)›; simp only [↓tcmRow_kept,
        ↓fixRequest_kept, ] at h; exact h.symm)
    | with_reducible rfl))

theorem tcmStop_kept (a0 s) : (tcmStop a0 s).kept = s.kept := by
  unfold tcmStop
  (repeat' (first
    | simp only [↓tcmRow_kept, ↓stopAsk_kept, ↓kept_upd, ↓kept_updMem, ↓kept_updNvm, ↓kept_updBoth, ↓ite_kept, ↓ite_snd,
        ↓ite_fst, ite_self, implies_true]
    | with_reducible refine kept_ite ?_ ?_
    | with_reducible refine kept_ite_snd ?_ ?_
    | with_reducible refine kept_ite_fst ?_ ?_
    | with_reducible refine kept_ite_snd2 ?_ ?_
    | with_reducible refine ite_to ?_ ?_
    | with_reducible refine Eq.trans (kept_foldl _ ?_ _ _) ?_
    | intro _ _
    | with_reducible split
    | (have h := congrArg (fun x : _ × State => x.2.kept) ‹_ = (_, _)›; simp only [↓tcmRow_kept, ↓stopAsk_kept,
        ] at h; exact h.symm)
    | (have h := congrArg (fun x : State × _ => x.1.kept) ‹_ = (_, _)›; simp only [↓tcmRow_kept, ↓stopAsk_kept,
        ] at h; exact h.symm)
    | (have h := congrArg (fun x : _ × _ × State => x.2.2.kept) ‹_ = (_, _, _)›; simp only [↓tcmRow_kept, ↓stopAsk_kept,
        ] at h; exact h.symm)
    | with_reducible rfl))

theorem snapshotTake_kept (s) : (snapshotTake s).kept = s.kept := by
  unfold snapshotTake
  (repeat' (first
    | simp only [↓tcmRow_kept, ↓reply_kept, ↓kept_upd, ↓kept_updMem, ↓kept_updNvm, ↓kept_updBoth, ↓ite_kept, ↓ite_snd,
        ↓ite_fst, ite_self, implies_true]
    | with_reducible refine kept_ite ?_ ?_
    | with_reducible refine kept_ite_snd ?_ ?_
    | with_reducible refine kept_ite_fst ?_ ?_
    | with_reducible refine kept_ite_snd2 ?_ ?_
    | with_reducible refine ite_to ?_ ?_
    | with_reducible refine Eq.trans (kept_foldl _ ?_ _ _) ?_
    | intro _ _
    | with_reducible split
    | (have h := congrArg (fun x : _ × State => x.2.kept) ‹_ = (_, _)›; simp only [↓tcmRow_kept, ↓reply_kept,
        ] at h; exact h.symm)
    | (have h := congrArg (fun x : State × _ => x.1.kept) ‹_ = (_, _)›; simp only [↓tcmRow_kept, ↓reply_kept,
        ] at h; exact h.symm)
    | (have h := congrArg (fun x : _ × _ × State => x.2.2.kept) ‹_ = (_, _, _)›; simp only [↓tcmRow_kept, ↓reply_kept,
        ] at h; exact h.symm)
    | with_reducible rfl))

theorem snapshotRead_kept (s) : (snapshotRead s).kept = s.kept := by
  unfold snapshotRead
  (repeat' (first
    | simp only [↓tcmRow_kept, ↓reply_kept, ↓kept_upd, ↓kept_updMem, ↓kept_updNvm, ↓kept_updBoth, ↓ite_kept, ↓ite_snd,
        ↓ite_fst, ite_self, implies_true]
    | with_reducible refine kept_ite ?_ ?_
    | with_reducible refine kept_ite_snd ?_ ?_
    | with_reducible refine kept_ite_fst ?_ ?_
    | with_reducible refine kept_ite_snd2 ?_ ?_
    | with_reducible refine ite_to ?_ ?_
    | with_reducible refine Eq.trans (kept_foldl _ ?_ _ _) ?_
    | intro _ _
    | with_reducible split
    | (have h := congrArg (fun x : _ × State => x.2.kept) ‹_ = (_, _)›; simp only [↓tcmRow_kept, ↓reply_kept,
        ] at h; exact h.symm)
    | (have h := congrArg (fun x : State × _ => x.1.kept) ‹_ = (_, _)›; simp only [↓tcmRow_kept, ↓reply_kept,
        ] at h; exact h.symm)
    | (have h := congrArg (fun x : _ × _ × State => x.2.2.kept) ‹_ = (_, _, _)›; simp only [↓tcmRow_kept, ↓reply_kept,
        ] at h; exact h.symm)
    | with_reducible rfl))

theorem tcmHealth_kept (s) : (tcmHealth s).kept = s.kept := by
  unfold tcmHealth
  (repeat' (first
    | simp only [↓tcmRow_kept, ↓reply_kept, ↓kept_upd, ↓kept_updMem, ↓kept_updNvm, ↓kept_updBoth, ↓ite_kept, ↓ite_snd,
        ↓ite_fst, ite_self, implies_true]
    | with_reducible refine kept_ite ?_ ?_
    | with_reducible refine kept_ite_snd ?_ ?_
    | with_reducible refine kept_ite_fst ?_ ?_
    | with_reducible refine kept_ite_snd2 ?_ ?_
    | with_reducible refine ite_to ?_ ?_
    | with_reducible refine Eq.trans (kept_foldl _ ?_ _ _) ?_
    | intro _ _
    | with_reducible split
    | (have h := congrArg (fun x : _ × State => x.2.kept) ‹_ = (_, _)›; simp only [↓tcmRow_kept, ↓reply_kept,
        ] at h; exact h.symm)
    | (have h := congrArg (fun x : State × _ => x.1.kept) ‹_ = (_, _)›; simp only [↓tcmRow_kept, ↓reply_kept,
        ] at h; exact h.symm)
    | (have h := congrArg (fun x : _ × _ × State => x.2.2.kept) ‹_ = (_, _, _)›; simp only [↓tcmRow_kept, ↓reply_kept,
        ] at h; exact h.symm)
    | with_reducible rfl))

theorem writeFrame_kept (a0 s) : (writeFrame a0 s).kept = s.kept := by
  unfold writeFrame
  (repeat' (first
    | simp only [↓tcmInput_kept, ↓kept_upd, ↓ite_kept, ite_self]
    | with_reducible refine kept_ite ?_ ?_
    | with_reducible split))

theorem readFrame_kept (a0 s) : (readFrame a0 s).kept = s.kept := by
  unfold readFrame
  (repeat' (first
    | simp only [↓dropFrame_kept, ↓kept_upd, ↓ite_kept, ite_self]
    | with_reducible refine kept_ite ?_ ?_
    | with_reducible split))

theorem eventFrame_kept (a0 s) : (eventFrame a0 s).kept = s.kept := by
  unfold eventFrame
  extract_lets x0 x1 x2 x3 x4 x5 x6 x7 x8
  try clear_value x0
  try clear_value x1
  try clear_value x2
  try clear_value x3
  try clear_value x4
  have hx5 : x5.kept = s.kept := by
    unfold x5
    (repeat' (first
      | simp only [↓mgmtSend_kept, ↓count_kept, ↓kept_upd, ↓ite_kept, ite_self]
      | with_reducible refine kept_ite ?_ ?_
      | with_reducible split))
  try clear_value x5
  have hx6 : x6.kept = s.kept := by
    unfold x6
    (repeat' (first
      | simp only [↓hx5, ↓mgmtSend_kept, ↓count_kept, ↓kept_upd, ↓ite_kept, ite_self]
      | with_reducible refine kept_ite ?_ ?_
      | with_reducible split))
  try clear_value x6
  try clear_value x7
  try clear_value x8
  (repeat' (first
    | simp only [↓hx5, ↓hx6, ↓mgmtSend_kept, ↓count_kept, ↓kept_upd, ↓ite_kept, ite_self]
    | with_reducible refine kept_ite ?_ ?_
    | with_reducible split))

theorem eventDelivery_kept (s) : (eventDelivery s).kept = s.kept := by
  unfold eventDelivery
  extract_lets x0 x1 x2 x3 x4 x5
  try clear_value x0
  try clear_value x1
  have hx2 : x2.kept = s.kept := by
    unfold x2
    (repeat' (first
      | simp only [↓eventFrame_kept, ↓raiseTick_kept, ↓kept_upd, ↓kept_updMem, ↓kept_updNvm, ↓kept_updBoth, ↓ite_kept,
          ↓ite_snd, ↓ite_fst, ite_self, implies_true]
      | with_reducible refine kept_ite ?_ ?_
      | with_reducible refine kept_ite_snd ?_ ?_
      | with_reducible refine kept_ite_fst ?_ ?_
      | with_reducible refine kept_ite_snd2 ?_ ?_
      | with_reducible refine ite_to ?_ ?_
      | with_reducible refine Eq.trans (kept_foldl _ ?_ _ _) ?_
      | intro _ _
      | with_reducible split
      | (have h := congrArg (fun x : _ × State => x.2.kept) ‹_ = (_, _)›; simp only [↓eventFrame_kept, ↓raiseTick_kept,
          ] at h; exact h.symm)
      | (have h := congrArg (fun x : State × _ => x.1.kept) ‹_ = (_, _)›; simp only [↓eventFrame_kept, ↓raiseTick_kept,
          ] at h; exact h.symm)
      | (have h := congrArg (fun x : _ × _ × State => x.2.2.kept) ‹_ = (_, _, _)›; simp only [↓eventFrame_kept,
          ↓raiseTick_kept, ] at h; exact h.symm)
      | with_reducible rfl))
  try clear_value x2
  have hx3 : x3.kept = s.kept := by
    unfold x3
    (repeat' (first
      | simp only [↓hx2, ↓eventFrame_kept, ↓raiseTick_kept, ↓kept_upd, ↓kept_updMem, ↓kept_updNvm, ↓kept_updBoth,
          ↓ite_kept, ↓ite_snd, ↓ite_fst, ite_self, implies_true]
      | with_reducible refine kept_ite ?_ ?_
      | with_reducible refine kept_ite_snd ?_ ?_
      | with_reducible refine kept_ite_fst ?_ ?_
      | with_reducible refine kept_ite_snd2 ?_ ?_
      | with_reducible refine ite_to ?_ ?_
      | with_reducible refine Eq.trans (kept_foldl _ ?_ _ _) ?_
      | intro _ _
      | with_reducible split
      | (have h := congrArg (fun x : _ × State => x.2.kept) ‹_ = (_, _)›; simp only [↓eventFrame_kept, ↓raiseTick_kept,
          ] at h; exact h.symm)
      | (have h := congrArg (fun x : State × _ => x.1.kept) ‹_ = (_, _)›; simp only [↓eventFrame_kept, ↓raiseTick_kept,
          ] at h; exact h.symm)
      | (have h := congrArg (fun x : _ × _ × State => x.2.2.kept) ‹_ = (_, _, _)›; simp only [↓eventFrame_kept,
          ↓raiseTick_kept, ] at h; exact h.symm)
      | with_reducible rfl))
  try clear_value x3
  try clear_value x4
  try clear_value x5
  (repeat' (first
    | simp only [↓hx2, ↓hx3, ↓eventFrame_kept, ↓raiseTick_kept, ↓kept_upd, ↓kept_updMem, ↓kept_updNvm, ↓kept_updBoth,
        ↓ite_kept, ↓ite_snd, ↓ite_fst, ite_self, implies_true]
    | with_reducible refine kept_ite ?_ ?_
    | with_reducible refine kept_ite_snd ?_ ?_
    | with_reducible refine kept_ite_fst ?_ ?_
    | with_reducible refine kept_ite_snd2 ?_ ?_
    | with_reducible refine ite_to ?_ ?_
    | with_reducible refine Eq.trans (kept_foldl _ ?_ _ _) ?_
    | intro _ _
    | with_reducible split
    | (have h := congrArg (fun x : _ × State => x.2.kept) ‹_ = (_, _)›; simp only [↓eventFrame_kept, ↓raiseTick_kept,
        ] at h; exact h.symm)
    | (have h := congrArg (fun x : State × _ => x.1.kept) ‹_ = (_, _)›; simp only [↓eventFrame_kept, ↓raiseTick_kept,
        ] at h; exact h.symm)
    | (have h := congrArg (fun x : _ × _ × State => x.2.2.kept) ‹_ = (_, _, _)›; simp only [↓eventFrame_kept,
        ↓raiseTick_kept, ] at h; exact h.symm)
    | with_reducible rfl))

theorem blockEnd_kept (s) : (blockEnd s).kept = s.kept := by
  unfold blockEnd
  extract_lets x0 x1 x2
  have hx0 : x0.kept = s.kept := by
    unfold x0
    (repeat' (first
      | simp only [↓evcOccur_kept, ↓kept_upd, ↓ite_kept, ite_self]
      | with_reducible refine kept_ite ?_ ?_
      | with_reducible split))
  try clear_value x0
  have hx1 : x1.kept = s.kept := by
    unfold x1
    (repeat' (first
      | simp only [↓hx0, ↓evcOccur_kept, ↓kept_upd, ↓ite_kept, ite_self]
      | with_reducible refine kept_ite ?_ ?_
      | with_reducible split))
  try clear_value x1
  try clear_value x2
  (repeat' (first
    | simp only [↓hx0, ↓hx1, ↓evcOccur_kept, ↓kept_upd, ↓ite_kept, ite_self]
    | with_reducible refine kept_ite ?_ ?_
    | with_reducible split))

theorem counterSnapshot_kept (s) : (counterSnapshot s).kept = s.kept := by
  unfold counterSnapshot
  extract_lets x0 x1
  have hx0 : x0.kept = s.kept := by
    unfold x0
    (repeat' (first
      | simp only [↓blockEnd_kept, ↓kept_upd, ↓ite_kept, ite_self]
      | with_reducible refine kept_ite ?_ ?_
      | with_reducible split))
  try clear_value x0
  try clear_value x1
  (repeat' (first
    | simp only [↓hx0, ↓blockEnd_kept, ↓kept_upd, ↓ite_kept, ite_self]
    | with_reducible refine kept_ite ?_ ?_
    | with_reducible split))

theorem snapshotRegister_kept (s) : (snapshotRegister s).kept = s.kept := by
  unfold snapshotRegister
  (repeat' (first
    | simp only [↓evcSnap_kept, ↓kept_upd, ↓ite_kept, ite_self]
    | with_reducible refine kept_ite ?_ ?_
    | with_reducible split))

theorem sheetCapture_kept (s) : (sheetCapture s).kept = s.kept := by
  unfold sheetCapture
  extract_lets x0 x1 x2
  have hx0 : x0.kept = s.kept := by
    unfold x0
    (repeat' (first
      | simp only [↓blockEnd_kept, ↓raiseTick_kept, ↓reply_kept, ↓kept_upd, ↓ite_kept, ite_self]
      | with_reducible refine kept_ite ?_ ?_
      | with_reducible split))
  try clear_value x0
  try clear_value x1
  try clear_value x2
  (repeat' (first
    | simp only [↓hx0, ↓blockEnd_kept, ↓raiseTick_kept, ↓reply_kept, ↓kept_upd, ↓ite_kept, ite_self]
    | with_reducible refine kept_ite ?_ ?_
    | with_reducible split))

/-! ### MemoryRows -/

theorem onChannel_kept (a0 a1 s) : (onChannel a0 a1 s).kept = s.kept := by
  unfold onChannel
  (repeat' (first
    | simp only [↓chanSet_kept, ↓kept_upd, ↓ite_kept, ite_self]
    | with_reducible refine kept_ite ?_ ?_
    | with_reducible split))

theorem refreshRow_kept (a0 a1 a2 a3 s) : (refreshRow a0 a1 a2 a3 s).kept = s.kept := by
  unfold refreshRow
  (repeat' (first
    | simp only [↓onChannel_kept, ↓kept_upd, ↓ite_kept, ite_self]
    | with_reducible refine kept_ite ?_ ?_
    | with_reducible split))

theorem zqCalibration_kept (a0 s) : (zqCalibration a0 s).kept = s.kept := by
  unfold zqCalibration
  (repeat' (first
    | simp only [↓onChannel_kept, ↓kept_upd, ↓ite_kept, ite_self]
    | with_reducible refine kept_ite ?_ ?_
    | with_reducible split))

theorem parityAlert_kept (a0 a1 s) : (parityAlert a0 a1 s).kept = s.kept := by
  unfold parityAlert
  extract_lets x0
  have hx0 : x0.kept = s.kept := by
    unfold x0
    (repeat' (first
      | simp only [↓onChannel_kept, ↓channelFail_kept, ↓kept_upd, ↓ite_kept, ite_self]
      | with_reducible refine kept_ite ?_ ?_
      | with_reducible split))
  try clear_value x0
  (repeat' (first
    | simp only [↓hx0, ↓onChannel_kept, ↓channelFail_kept, ↓kept_upd, ↓ite_kept, ite_self]
    | with_reducible refine kept_ite ?_ ?_
    | with_reducible split))

theorem alertReturn_kept (a0 s) : (alertReturn a0 s).kept = s.kept := by
  unfold alertReturn
  (repeat' (first
    | simp only [↓raise_kept, ↓count_kept, ↓chanSet_kept, ↓kept_upd, ↓ite_kept, ite_self]
    | with_reducible refine kept_ite ?_ ?_
    | with_reducible split))

theorem alertTimeout_kept (a0 s) : (alertTimeout a0 s).kept = s.kept := by
  unfold alertTimeout
  (repeat' (first
    | simp only [↓channelFail_kept, ↓kept_upd, ↓ite_kept, ite_self]
    | with_reducible refine kept_ite ?_ ?_
    | with_reducible split))

theorem noteCommand_kept (a0 a1 s) : (noteCommand a0 a1 s).kept = s.kept := by
  simp only [noteCommand, ↓onChannel_kept, ↓kept_upd]

theorem dramReadComplete_kept (a0 a1 a2 a3 a4 s) : (dramReadComplete a0 a1 a2 a3 a4 s).kept = s.kept := by
  unfold dramReadComplete
  (repeat' (first
    | simp only [↓noteCommand_kept, ↓setSafe_kept, ↓burstCheck_kept, ↓deliverPoison_kept, ↓markPoison_kept,
        ↓correctRead_kept, ↓kept_upd, ↓ite_kept, ite_self]
    | with_reducible refine kept_ite ?_ ?_
    | with_reducible split))

theorem eccWriteBack_kept (a0 s) : (eccWriteBack a0 s).kept = s.kept := by
  unfold eccWriteBack
  (repeat' (first
    | simp only [↓noteCommand_kept, ↓kept_upd, ↓kept_updMem, ↓kept_updNvm, ↓kept_updBoth, ↓ite_kept, ↓ite_snd, ↓ite_fst,
        ite_self, implies_true]
    | with_reducible refine kept_ite ?_ ?_
    | with_reducible refine kept_ite_snd ?_ ?_
    | with_reducible refine kept_ite_fst ?_ ?_
    | with_reducible refine kept_ite_snd2 ?_ ?_
    | with_reducible refine ite_to ?_ ?_
    | with_reducible refine Eq.trans (kept_foldl _ ?_ _ _) ?_
    | intro _ _
    | with_reducible split
    | (have h := congrArg (fun x : _ × State => x.2.kept) ‹_ = (_, _)›; simp only [↓noteCommand_kept, ] at h; exact h.symm)
    | (have h := congrArg (fun x : State × _ => x.1.kept) ‹_ = (_, _)›; simp only [↓noteCommand_kept, ] at h; exact h.symm)
    | (have h := congrArg (fun x : _ × _ × State => x.2.2.kept) ‹_ = (_, _, _)›; simp only [↓noteCommand_kept,
        ] at h; exact h.symm)
    | with_reducible rfl))

theorem scrubMark_kept (a0 a1 s) : (scrubMark a0 a1 s).kept = s.kept := by
  unfold scrubMark
  (repeat' (first
    | simp only [↓coreMark_kept, ↓kept_upd, ↓ite_kept, ite_self]
    | with_reducible refine kept_ite ?_ ?_
    | with_reducible split))

theorem scrubRead_kept (a0 a1 a2 a3 a4 a5 s) : (scrubRead a0 a1 a2 a3 a4 a5 s).kept = s.kept := by
  unfold scrubRead
  (repeat' (first
    | simp only [↓setSafe_kept, ↓burstCheck_kept, ↓scrubMark_kept, ↓sramPoison_kept, ↓count_kept, ↓kept_upd,
        ↓kept_updMem, ↓kept_updNvm, ↓kept_updBoth, ↓ite_kept, ↓ite_snd, ↓ite_fst, ite_self, implies_true]
    | with_reducible refine kept_ite ?_ ?_
    | with_reducible refine kept_ite_snd ?_ ?_
    | with_reducible refine kept_ite_fst ?_ ?_
    | with_reducible refine kept_ite_snd2 ?_ ?_
    | with_reducible refine ite_to ?_ ?_
    | with_reducible refine Eq.trans (kept_foldl _ ?_ _ _) ?_
    | intro _ _
    | with_reducible split
    | (have h := congrArg (fun x : _ × State => x.2.kept) ‹_ = (_, _)›; simp only [↓setSafe_kept, ↓burstCheck_kept,
        ↓scrubMark_kept, ↓sramPoison_kept, ↓count_kept, ] at h; exact h.symm)
    | (have h := congrArg (fun x : State × _ => x.1.kept) ‹_ = (_, _)›; simp only [↓setSafe_kept, ↓burstCheck_kept,
        ↓scrubMark_kept, ↓sramPoison_kept, ↓count_kept, ] at h; exact h.symm)
    | (have h := congrArg (fun x : _ × _ × State => x.2.2.kept) ‹_ = (_, _, _)›; simp only [↓setSafe_kept,
        ↓burstCheck_kept, ↓scrubMark_kept, ↓sramPoison_kept, ↓count_kept, ] at h; exact h.symm)
    | with_reducible rfl))

theorem dramScrubRead_kept (a0 a1 s) : (dramScrubRead a0 a1 s).kept = s.kept := by
  unfold dramScrubRead
  extract_lets x0 x1 x2
  try clear_value x0
  have hx1 : x1.kept = s.kept := by
    unfold x1
    (repeat' (first
      | simp only [↓dramReadComplete_kept, ↓setSafe_kept, ↓kept_upd, ↓kept_updMem, ↓kept_updNvm, ↓kept_updBoth,
          ↓ite_kept, ↓ite_snd, ↓ite_fst, ite_self, implies_true]
      | with_reducible refine kept_ite ?_ ?_
      | with_reducible refine kept_ite_snd ?_ ?_
      | with_reducible refine kept_ite_fst ?_ ?_
      | with_reducible refine kept_ite_snd2 ?_ ?_
      | with_reducible refine ite_to ?_ ?_
      | with_reducible refine Eq.trans (kept_foldl _ ?_ _ _) ?_
      | intro _ _
      | with_reducible split
      | (have h := congrArg (fun x : _ × State => x.2.kept) ‹_ = (_, _)›; simp only [↓dramReadComplete_kept,
          ↓setSafe_kept, ] at h; exact h.symm)
      | (have h := congrArg (fun x : State × _ => x.1.kept) ‹_ = (_, _)›; simp only [↓dramReadComplete_kept,
          ↓setSafe_kept, ] at h; exact h.symm)
      | (have h := congrArg (fun x : _ × _ × State => x.2.2.kept) ‹_ = (_, _, _)›; simp only [↓dramReadComplete_kept,
          ↓setSafe_kept, ] at h; exact h.symm)
      | with_reducible rfl))
  try clear_value x1
  (repeat' (first
    | simp only [x2, ↓hx1, ↓dramReadComplete_kept, ↓setSafe_kept, ↓kept_upd, ↓kept_updMem, ↓kept_updNvm, ↓kept_updBoth,
        ↓ite_kept, ↓ite_snd, ↓ite_fst, ite_self, implies_true]
    | with_reducible refine kept_ite ?_ ?_
    | with_reducible refine kept_ite_snd ?_ ?_
    | with_reducible refine kept_ite_fst ?_ ?_
    | with_reducible refine kept_ite_snd2 ?_ ?_
    | with_reducible refine ite_to ?_ ?_
    | with_reducible refine Eq.trans (kept_foldl _ ?_ _ _) ?_
    | intro _ _
    | with_reducible split
    | (have h := congrArg (fun x : _ × State => x.2.kept) ‹_ = (_, _)›; simp only [↓dramReadComplete_kept, ↓setSafe_kept,
        ] at h; exact h.symm)
    | (have h := congrArg (fun x : State × _ => x.1.kept) ‹_ = (_, _)›; simp only [↓dramReadComplete_kept, ↓setSafe_kept,
        ] at h; exact h.symm)
    | (have h := congrArg (fun x : _ × _ × State => x.2.2.kept) ‹_ = (_, _, _)›; simp only [↓dramReadComplete_kept,
        ↓setSafe_kept, ] at h; exact h.symm)
    | with_reducible rfl))

/-! ### Tick -/

theorem pruneSamples_kept (s) : (pruneSamples s).kept = s.kept := by
  simp only [pruneSamples, ↓kept_upd]

theorem gridAdvance_kept (s) : (gridAdvance s).kept = s.kept := by
  simp only [gridAdvance, ↓kept_upd]

theorem adcBoundary_kept (a0 s) : (adcBoundary a0 s).kept = s.kept := by
  unfold adcBoundary
  (repeat' (first
    | simp only [↓adcShare_kept, ↓adcArrive_kept, ↓kept_upd, ↓ite_kept, ite_self]
    | with_reducible refine kept_ite ?_ ?_
    | with_reducible split))

theorem mediaStep_kept (s) : (mediaStep s).kept = s.kept := by
  unfold mediaStep
  (repeat' (first
    | simp only [↓mediaTick_kept, ↓mediaServo_kept, ↓mediaFault_kept, ↓kept_upd, ↓ite_kept, ite_self]
    | with_reducible refine kept_ite ?_ ?_
    | with_reducible split))

theorem firstTick_kept (s) : (firstTick s).kept = s.kept := by
  unfold firstTick
  extract_lets x0 x1 x2 x3
  try clear_value x0
  try clear_value x1
  have hx2 : x2.kept = s.kept := by
    unfold x2
    (repeat' (first
      | simp only [↓eventDelivery_kept, ↓mediaServo_kept, ↓mediaTick_kept, ↓lockTick_kept, ↓netTick_kept,
          ↓serialTick_kept, ↓tickFrames_kept, ↓tickView_kept, ↓kept_upd, ↓ite_kept, ite_self]
      | with_reducible refine kept_ite ?_ ?_
      | with_reducible split))
  try clear_value x2
  have hx3 : x3.kept = s.kept := by
    unfold x3
    (repeat' (first
      | simp only [↓hx2, ↓eventDelivery_kept, ↓mediaServo_kept, ↓mediaTick_kept, ↓lockTick_kept, ↓netTick_kept,
          ↓serialTick_kept, ↓tickFrames_kept, ↓tickView_kept, ↓kept_upd, ↓ite_kept, ite_self]
      | with_reducible refine kept_ite ?_ ?_
      | with_reducible split))
  try clear_value x3
  (repeat' (first
    | simp only [↓hx2, ↓hx3, ↓eventDelivery_kept, ↓mediaServo_kept, ↓mediaTick_kept, ↓lockTick_kept, ↓netTick_kept,
        ↓serialTick_kept, ↓tickFrames_kept, ↓tickView_kept, ↓kept_upd, ↓ite_kept, ite_self]
    | with_reducible refine kept_ite ?_ ?_
    | with_reducible split))

/-! ### Commands -/

theorem onFrame_kept (a0 a1 a2 s) (h : ∀ p s, (a2 p s).kept = s.kept) : (onFrame a0 a1 a2 s).kept = s.kept := by
  unfold onFrame; dsimp only; split <;> simp only [h, linkReceive_kept]
theorem onFrame_keeps (a0 a1 a2 s) (h : ∀ p s, Keeps s (a2 p s)) : Keeps s (onFrame a0 a1 a2 s) := by
  unfold onFrame; dsimp only; split
  · exact (Keeps.of_kept (linkReceive_kept ..)).trans (h ..)
  · exact Keeps.of_kept (linkReceive_kept ..)

theorem onControl_kept (a0 a1 a2 s) (h : ∀ p s, (a2 p s).kept = s.kept) : (onControl a0 a1 a2 s).kept = s.kept := by
  unfold onControl; dsimp only; split <;> simp only [h, controlReceive_kept]

theorem takebackRefused_kept (s) : (takebackRefused s).kept = s.kept := by
  simp only [takebackRefused, ↓kept_upd]

theorem latchedRead_kept (a0 a1 s) : (latchedRead a0 a1 s).kept = s.kept := by
  unfold latchedRead
  (repeat' (first
    | simp only [↓busRead_kept, ↓kept_upd, ↓ite_kept, ite_self]
    | with_reducible refine kept_ite ?_ ?_
    | with_reducible split))

theorem counterRead_kept (a0 a1 s) : (counterRead a0 a1 s).kept = s.kept := by
  unfold counterRead
  (repeat' (first
    | simp only [↓busRead_kept, ↓kept_upd, ↓ite_kept, ite_self]
    | with_reducible refine kept_ite ?_ ?_
    | with_reducible split))

end Sys2Proof.Machine
end

