-- ==== Sys2Proof/Laws/Flash.lean ====
section
/-!
SUPPORT. The two rows that write the flash (R572, R575): what they leave alone, and the canonical form they keep.
-/
namespace Sys2Proof.Machine

/-- From one state to the other the queue, DRAM, working SRAM and FAB SRAM are the same, and a canonical flash stays canonical. -/
def FlashOnly (s t : State) : Prop :=
  t.pending = s.pending ∧ t.mem.dram = s.mem.dram ∧ t.mem.sram = s.mem.sram
    ∧ t.mem.fab = s.mem.fab ∧ (Memory.wf 0xFF s.nvm.flash = true → Memory.wf 0xFF t.nvm.flash = true)

theorem FlashOnly.rfl_ (s : State) : FlashOnly s s := ⟨rfl, rfl, rfl, rfl, id⟩
theorem FlashOnly.trans {s t u : State} (a : FlashOnly s t) (b : FlashOnly t u) : FlashOnly s u :=
  ⟨b.1.trans a.1, b.2.1.trans a.2.1, b.2.2.1.trans a.2.2.1, b.2.2.2.1.trans a.2.2.2.1,
    fun h => b.2.2.2.2 (a.2.2.2.2 h)⟩
theorem FlashOnly.of_kept {s t : State} (h : t.kept = s.kept) : FlashOnly s t := by
  simp only [State.kept, Prod.mk.injEq] at h
  exact ⟨h.1, h.2.1, h.2.2.1, h.2.2.2.1, fun w => by rw [h.2.2.2.2]; exact w⟩
theorem FlashOnly.to_kept {s t u : State} (a : FlashOnly s t) (h : u.kept = t.kept) : FlashOnly s u := a.trans (.of_kept h)

theorem flashPut_only (a l s) : FlashOnly s (flashPut a l s) :=
  ⟨rfl, rfl, rfl, rfl, fun h => (memory_wf_iff _ _).mpr (canon_ssetList a _ ((memory_wf_iff _ _).mp h))⟩

theorem flashErase_only (a n s) : FlashOnly s (flashErase a n s) :=
  ⟨rfl, rfl, rfl, rfl, fun h => (memory_wf_iff _ _).mpr (canon_filter _ ((memory_wf_iff _ _).mp h))⟩

theorem flashProgram_only (a l s) : FlashOnly s (flashProgram a l s) := flashPut_only ..

theorem freeBytes_only (n s) : FlashOnly s (freeBytes n s).2 := ⟨rfl, rfl, rfl, rfl, id⟩

theorem nvmOpDone_only (fail s) : FlashOnly s (nvmOpDone fail s) := by
  unfold nvmOpDone
  extract_lets n a s1 m base len
  have h1 : FlashOnly s s1 := ⟨rfl, rfl, rfl, rfl, id⟩
  clear_value base len
  split
  · exact .rfl_ s
  · split
    · exact h1.trans ⟨rfl, rfl, rfl, rfl, id⟩
    · split
      · exact (h1.trans (freeBytes_only len s1)).trans (flashPut_only ..)
      · split
        · exact h1.trans (flashErase_only ..)
        · exact h1.trans (flashProgram_only ..)

theorem flogEntry_only (kind data s) : FlashOnly s (flogEntry kind data s) := by
  unfold flogEntry
  extract_lets n seq b s1 s2 head
  have h1 : FlashOnly s s1 := by
    unfold s1
    split
    · exact flashErase_only ..
    · exact .rfl_ s
  have h2 : FlashOnly s s2 := h1.trans (flashProgram_only ..)
  clear_value n seq head s2
  exact h2.trans ⟨rfl, rfl, rfl, rfl, id⟩

theorem faultLogWrite_only (safe s) : FlashOnly s (faultLogWrite safe s) := by
  unfold faultLogWrite
  extract_lets s1 recent m s2
  have h1 : FlashOnly s s1 := .of_kept (setSafe_kept ..)
  have h2 : FlashOnly s s2 := h1.trans ⟨rfl, rfl, rfl, rfl, id⟩
  split
  · exact h1
  · split
    · split
      · exact h2
      · exact FlashOnly.to_kept (h2.trans ⟨rfl, rfl, rfl, rfl, id⟩) (count_kept ..)
    · split
      · exact FlashOnly.trans (h2.trans ⟨rfl, rfl, rfl, rfl, id⟩) (flogEntry_only ..)
      · split
        · exact h2
        · exact FlashOnly.trans (h2.trans ⟨rfl, rfl, rfl, rfl, id⟩) (flogEntry_only ..)

end Sys2Proof.Machine
end

