-- ==== Sys2Proof/Laws/KeptSteps.lean ====
section
/-!
SUPPORT. What the functions leave alone that write DRAM, working SRAM or FAB SRAM, or that start audio, run a tick, boot or
load an image: the queue and the flash stay, and the byte stores stay canonical.
-/
set_option linter.all false
set_option Elab.async false

namespace Sys2Proof.Machine

/-! A record update away from the queue, the byte stores and the flash keeps what `Keeps` says. -/

theorem keeps_upd (r s :
    State) (x_grid x_ev x_evc x_tcm x_sheet x_bus x_img x_obj x_mx x_chain x_conv x_slot x_tg x_cap x_deconv x_smp x_sched x_ec x_twin x_ana x_sap x_net x_time x_clk x_free) : Keeps r ⟨x_grid, x_ev, x_evc, x_tcm, x_sheet, x_bus, x_img, x_obj, x_mx, x_chain, x_conv, x_slot, x_tg, x_cap, x_deconv, x_smp, x_sched, x_ec, s.mem, x_twin, x_ana, x_sap, x_net, x_time, x_clk, s.nvm, x_free, s.pending⟩ ↔ Keeps r s := Iff.rfl
theorem keeps_updMem (r s :
    State) (x_grid x_ev x_evc x_tcm x_sheet x_bus x_img x_obj x_mx x_chain x_conv x_slot x_tg x_cap x_deconv x_smp x_sched x_ec x_twin x_ana x_sap x_net x_time x_clk x_free) (m_poison m_writeBack m_fabPoison m_valid m_density m_ranks m_qosTarget m_tempI2c m_i2cAddr m_zqMs m_setup m_recordErr m_ch0 m_ch1 m_hotLow m_temp m_tempFails m_eccAddr m_eccInfo m_sramInfo m_dramPasses m_sramPasses m_scrubLine m_poisonTimes m_bistNext m_bistFailed m_bistRows m_hostBase m_hostLen) : Keeps r ⟨x_grid, x_ev, x_evc, x_tcm, x_sheet, x_bus, x_img, x_obj, x_mx, x_chain, x_conv, x_slot, x_tg, x_cap, x_deconv, x_smp, x_sched, x_ec, ⟨s.mem.dram, m_poison, m_writeBack, s.mem.sram, s.mem.fab, m_fabPoison, m_valid, m_density, m_ranks, m_qosTarget, m_tempI2c, m_i2cAddr, m_zqMs, m_setup, m_recordErr, m_ch0, m_ch1, m_hotLow, m_temp, m_tempFails, m_eccAddr, m_eccInfo, m_sramInfo, m_dramPasses, m_sramPasses, m_scrubLine, m_poisonTimes, m_bistNext, m_bistFailed, m_bistRows, m_hostBase, m_hostLen⟩, x_twin, x_ana, x_sap, x_net, x_time, x_clk, s.nvm, x_free, s.pending⟩ ↔ Keeps r s := Iff.rfl
theorem keeps_updNvm (r s :
    State) (x_grid x_ev x_evc x_tcm x_sheet x_bus x_img x_obj x_mx x_chain x_conv x_slot x_tg x_cap x_deconv x_smp x_sched x_ec x_twin x_ana x_sap x_net x_time x_clk x_free) (n_log2 n_aHdr n_bHdr n_aBody n_bBody n_copyB n_applied n_tie n_recovery n_keyFused n_errCode n_errRecord n_errCopyB n_errValid n_errIndex n_genA n_genB n_hash n_addr n_page n_op n_opAddr n_refused n_fail n_checkDone n_checkPass n_flogHead n_flogSeq n_flogTimes n_flogDrops) : Keeps r ⟨x_grid, x_ev, x_evc, x_tcm, x_sheet, x_bus, x_img, x_obj, x_mx, x_chain, x_conv, x_slot, x_tg, x_cap, x_deconv, x_smp, x_sched, x_ec, s.mem, x_twin, x_ana, x_sap, x_net, x_time, x_clk, ⟨s.nvm.flash, n_log2, n_aHdr, n_bHdr, n_aBody, n_bBody, n_copyB, n_applied, n_tie, n_recovery, n_keyFused, n_errCode, n_errRecord, n_errCopyB, n_errValid, n_errIndex, n_genA, n_genB, n_hash, n_addr, n_page, n_op, n_opAddr, n_refused, n_fail, n_checkDone, n_checkPass, n_flogHead, n_flogSeq, n_flogTimes, n_flogDrops⟩, x_free, s.pending⟩ ↔ Keeps r s := Iff.rfl
theorem keeps_updBoth (r s :
    State) (x_grid x_ev x_evc x_tcm x_sheet x_bus x_img x_obj x_mx x_chain x_conv x_slot x_tg x_cap x_deconv x_smp x_sched x_ec x_twin x_ana x_sap x_net x_time x_clk x_free) (m_poison m_writeBack m_fabPoison m_valid m_density m_ranks m_qosTarget m_tempI2c m_i2cAddr m_zqMs m_setup m_recordErr m_ch0 m_ch1 m_hotLow m_temp m_tempFails m_eccAddr m_eccInfo m_sramInfo m_dramPasses m_sramPasses m_scrubLine m_poisonTimes m_bistNext m_bistFailed m_bistRows m_hostBase m_hostLen) (n_log2 n_aHdr n_bHdr n_aBody n_bBody n_copyB n_applied n_tie n_recovery n_keyFused n_errCode n_errRecord n_errCopyB n_errValid n_errIndex n_genA n_genB n_hash n_addr n_page n_op n_opAddr n_refused n_fail n_checkDone n_checkPass n_flogHead n_flogSeq n_flogTimes n_flogDrops) : Keeps r ⟨x_grid, x_ev, x_evc, x_tcm, x_sheet, x_bus, x_img, x_obj, x_mx, x_chain, x_conv, x_slot, x_tg, x_cap, x_deconv, x_smp, x_sched, x_ec, ⟨s.mem.dram, m_poison, m_writeBack, s.mem.sram, s.mem.fab, m_fabPoison, m_valid, m_density, m_ranks, m_qosTarget, m_tempI2c, m_i2cAddr, m_zqMs, m_setup, m_recordErr, m_ch0, m_ch1, m_hotLow, m_temp, m_tempFails, m_eccAddr, m_eccInfo, m_sramInfo, m_dramPasses, m_sramPasses, m_scrubLine, m_poisonTimes, m_bistNext, m_bistFailed, m_bistRows, m_hostBase, m_hostLen⟩, x_twin, x_ana, x_sap, x_net, x_time, x_clk, ⟨s.nvm.flash, n_log2, n_aHdr, n_bHdr, n_aBody, n_bBody, n_copyB, n_applied, n_tie, n_recovery, n_keyFused, n_errCode, n_errRecord, n_errCopyB, n_errValid, n_errIndex, n_genA, n_genB, n_hash, n_addr, n_page, n_op, n_opAddr, n_refused, n_fail, n_checkDone, n_checkPass, n_flogHead, n_flogSeq, n_flogTimes, n_flogDrops⟩, x_free, s.pending⟩ ↔ Keeps r s := Iff.rfl

theorem watchdogExpiry_keeps (s) : Keeps s (watchdogExpiry s) := by
  unfold watchdogExpiry
  (repeat' (first
    | with_reducible exact Keeps.rfl_ _
    | with_reducible assumption
    | with_reducible refine Keeps.ite ?_ ?_
    | with_reducible refine Keeps.ite_snd ?_ ?_
    | with_reducible refine Keeps.trans ?_ (resetDevice_keeps ..)
    | with_reducible refine Keeps.to_kept ?_ (tokenRelease_kept ..)
    | with_reducible refine Keeps.to_kept ?_ (setSafe_kept ..)
    | with_reducible refine Keeps.foldl ?_ ?_
    | intro _ _
    | with_reducible split
    | simp only []
    | with_reducible simp only [↓keeps_upd]
    | with_reducible simp only [↓keeps_updMem]
    | with_reducible simp only [↓keeps_updNvm]
    | with_reducible simp only [↓keeps_updBoth]))

theorem takeDls_keeps (a0 a1 s) : Keeps s (takeDls a0 a1 s) := by
  induction a0 generalizing a1 s with
  | zero => exact Keeps.rfl_ _
  | succ n ih => rw [takeDls]; exact Keeps.ite (Keeps.rfl_ _) ((takeDl_keeps ..).trans (ih ..))

theorem pieceLoad_keeps (a0 s) : Keeps s (pieceLoad a0 s) := by
  unfold pieceLoad
  (repeat' (first
    | with_reducible exact Keeps.rfl_ _
    | with_reducible assumption
    | with_reducible refine Keeps.ite ?_ ?_
    | with_reducible refine Keeps.ite_snd ?_ ?_
    | with_reducible refine Keeps.trans ?_ (dramPut_keeps ..)
    | with_reducible refine Keeps.to_kept ?_ (slotSet_kept ..)
    | with_reducible refine Keeps.trans ?_ (takeDls_keeps ..)
    | with_reducible refine Keeps.trans ?_ (takeEntry_keeps ..)
    | with_reducible refine Keeps.foldl ?_ ?_
    | intro _ _
    | with_reducible split
    | simp only []
    | with_reducible simp only [↓keeps_upd]
    | with_reducible simp only [↓keeps_updMem]
    | with_reducible simp only [↓keeps_updNvm]
    | with_reducible simp only [↓keeps_updBoth]))

theorem installLists_keeps (s) : Keeps s (installLists s) := by
  unfold installLists
  extract_lets x0 x1 x2
  try clear_value x0
  try clear_value x1
  have hx2 : Keeps s x2 := by
    unfold x2
    (repeat' (first
      | with_reducible exact Keeps.rfl_ _
      | with_reducible assumption
      | with_reducible refine Keeps.ite ?_ ?_
      | with_reducible refine Keeps.ite_snd ?_ ?_
      | with_reducible refine Keeps.trans ?_ (pieceLoad_keeps ..)
      | with_reducible refine Keeps.foldl ?_ ?_
      | intro _ _
      | with_reducible split
      | simp only []
      | with_reducible simp only [↓keeps_upd]
      | with_reducible simp only [↓keeps_updMem]
      | with_reducible simp only [↓keeps_updNvm]
      | with_reducible simp only [↓keeps_updBoth]))
  try clear_value x2
  (repeat' (first
    | with_reducible exact Keeps.rfl_ _
    | with_reducible assumption
    | with_reducible refine Keeps.ite ?_ ?_
    | with_reducible refine Keeps.ite_snd ?_ ?_
    | with_reducible refine Keeps.trans ?_ (pieceLoad_keeps ..)
    | with_reducible refine Keeps.foldl ?_ ?_
    | intro _ _
    | with_reducible split
    | simp only []
    | with_reducible simp only [↓keeps_upd]
    | with_reducible simp only [↓keeps_updMem]
    | with_reducible simp only [↓keeps_updNvm]
    | with_reducible simp only [↓keeps_updBoth]))

theorem timerRow_keeps (a0 s) (h : ∀ s, Keeps s (a0 s)) : Keeps s (timerRow a0 s) :=
  (Keeps.of_kept (requestAct_kept ..)).trans (h _)

theorem eachWord_keeps (a0 a1 a2 a3 s) (h : ∀ i s, Keeps s (a0 i s)) : Keeps s (eachWord a0 a1 a2 a3 s) := by
  induction a2 generalizing a3 s with
  | zero => exact Keeps.rfl_ _
  | succ n ih => simp only [eachWord]; exact Keeps.ite (h ..) ((h ..).trans (ih ..))

theorem woWrite_keeps (a0 a1 a2 a3 s) : Keeps s (woWrite a0 a1 a2 a3 s) := by
  unfold woWrite
  (repeat' (first
    | with_reducible exact Keeps.rfl_ _
    | with_reducible assumption
    | with_reducible refine Keeps.ite ?_ ?_
    | with_reducible refine Keeps.ite_snd ?_ ?_
    | with_reducible refine Keeps.to_kept ?_ (wdtKick_kept ..)
    | with_reducible refine Keeps.trans ?_ (softReset_keeps ..)
    | with_reducible refine Keeps.trans ?_ (twinCmdWrite_keeps ..)
    | with_reducible refine Keeps.to_kept ?_ (stopCmdWrite_kept ..)
    | with_reducible refine Keeps.to_kept ?_ (muteWrite_kept ..)
    | with_reducible refine Keeps.trans ?_ (loadData_keeps ..)
    | with_reducible refine Keeps.to_kept ?_ (ptpStep_kept ..)
    | with_reducible refine Keeps.to_kept ?_ (holdWrite_kept ..)
    | with_reducible refine Keeps.to_kept ?_ (ampClear_kept ..)
    | with_reducible refine Keeps.to_kept ?_ (nvmCommand_kept ..)
    | with_reducible refine Keeps.to_kept ?_ (evcCmdWrite_kept ..)
    | with_reducible refine Keeps.to_kept ?_ (fixCommitWrite_kept ..)
    | with_reducible refine Keeps.to_kept ?_ (pauseWrite_kept ..)
    | with_reducible refine Keeps.trans ?_ (deconvGo_keeps ..)
    | with_reducible refine Keeps.foldl ?_ ?_
    | intro _ _
    | with_reducible split
    | simp only []
    | with_reducible simp only [↓keeps_upd]
    | with_reducible simp only [↓keeps_updMem]
    | with_reducible simp only [↓keeps_updNvm]
    | with_reducible simp only [↓keeps_updBoth]))

theorem regWrite_keeps (a0 a1 a2 s) : Keeps s (regWrite a0 a1 a2 s) := by
  unfold regWrite
  (repeat' (first
    | with_reducible exact Keeps.rfl_ _
    | with_reducible assumption
    | with_reducible refine Keeps.ite ?_ ?_
    | with_reducible refine Keeps.ite_snd ?_ ?_
    | with_reducible refine Keeps.to_kept ?_ (rwWrite_kept ..)
    | with_reducible refine Keeps.trans ?_ (woWrite_keeps ..)
    | with_reducible refine Keeps.to_kept ?_ (fxWrite_kept ..)
    | with_reducible refine Keeps.to_kept ?_ (w1cWrite_kept ..)
    | with_reducible refine Keeps.foldl ?_ ?_
    | intro _ _
    | with_reducible split
    | simp only []
    | with_reducible simp only [↓keeps_upd]
    | with_reducible simp only [↓keeps_updMem]
    | with_reducible simp only [↓keeps_updNvm]
    | with_reducible simp only [↓keeps_updBoth]))

theorem replayFrame_keeps (a0 s) : Keeps s (replayFrame a0 s) := by
  unfold replayFrame
  extract_lets now s1
  have h1 : Keeps s s1 := .of_kept (atBlock_kept ..)
  clear_value s1
  refine Keeps.to_kept ?_ (atBlock_kept ..)
  split
  · exact h1.trans (mirrorReceive_keeps ..)
  · exact h1.to_kept (sealReceive_kept ..)
  · exact h1.to_kept (relayReceive_kept ..)

theorem listsFirst_keeps (s) : Keeps s (listsFirst s) :=
  timerRow_keeps _ _ fun s => .of_kept (timersAct_kept s)

theorem evalBoundary_keeps (a0 a1 a2 a3 s) : Keeps s (evalBoundary a0 a1 a2 a3 s).2.2.2 := by
  unfold evalBoundary
  exact dramPut_keeps ..

theorem transaction_keeps (a0 a1 a2 a3 a4 a5 s) (h : ∀ i s, Keeps s (a5 i s)) :
    Keeps s (transaction a0 a1 a2 a3 a4 a5 s) := by
  unfold transaction
  refine Keeps.ite (Keeps.rfl_ _) (Keeps.ite (eachWord_keeps _ _ _ _ _ h) ?_)
  exact .of_kept (by rw [busAnswer_kept, busError_kept])

theorem dramZero_keeps (a0 a1 s) : Keeps s (dramZero a0 a1 s) := by
  unfold dramZero
  dsimp only
  refine Keeps.ite (dramPut_keeps ..) ⟨rfl, rfl, fun h => ?_, id, id⟩
  rw [memory_wf_iff] at h ⊢
  exact canon_filter _ h

theorem ringZero_keeps (a0 s) : Keeps s (ringZero a0 s) := by
  unfold ringZero
  (repeat' (first
    | with_reducible exact Keeps.rfl_ _
    | with_reducible assumption
    | with_reducible refine Keeps.ite ?_ ?_
    | with_reducible refine Keeps.ite_snd ?_ ?_
    | with_reducible refine Keeps.trans ?_ (dramZero_keeps ..)
    | with_reducible refine Keeps.foldl ?_ ?_
    | intro _ _
    | with_reducible split
    | simp only []
    | with_reducible simp only [↓keeps_upd]
    | with_reducible simp only [↓keeps_updMem]
    | with_reducible simp only [↓keeps_updNvm]
    | with_reducible simp only [↓keeps_updBoth]))

theorem objClear_keeps (a0 s) : Keeps s (objClear a0 s) := by
  unfold objClear ringZero
  extract_lets ends s1
  exact ((dramZero_keeps ..).trans (dramZero_keeps ..)).to_kept (objSet_kept ..)

theorem nodeClear_keeps (a0 a1 s) : Keeps s (nodeClear a0 a1 s) := by
  unfold nodeClear
  (repeat' (first
    | with_reducible exact Keeps.rfl_ _
    | with_reducible assumption
    | with_reducible refine Keeps.ite ?_ ?_
    | with_reducible refine Keeps.ite_snd ?_ ?_
    | with_reducible refine Keeps.trans ?_ (objClear_keeps ..)
    | with_reducible refine Keeps.to_kept ?_ (objSet_kept ..)
    | with_reducible refine Keeps.to_kept ?_ (busSettle_kept ..)
    | with_reducible refine Keeps.to_kept ?_ (chainRestart_kept ..)
    | with_reducible refine Keeps.foldl ?_ ?_
    | intro _ _
    | with_reducible split
    | simp only []
    | with_reducible simp only [↓keeps_upd]
    | with_reducible simp only [↓keeps_updMem]
    | with_reducible simp only [↓keeps_updNvm]
    | with_reducible simp only [↓keeps_updBoth]))

theorem fnClear_keeps (a0 a1 a2 s) : Keeps s (fnClear a0 a1 a2 s) := by
  unfold fnClear
  extract_lets x0 x1 x2 x3 x4
  try clear_value x0
  try clear_value x1
  try clear_value x2
  have hx3 : Keeps s x3 := by
    unfold x3
    (repeat' (first
      | with_reducible exact Keeps.rfl_ _
      | with_reducible assumption
      | with_reducible refine Keeps.ite ?_ ?_
      | with_reducible refine Keeps.ite_snd ?_ ?_
      | with_reducible refine Keeps.to_kept ?_ (portSet_kept ..)
      | with_reducible refine Keeps.to_kept ?_ (rxClear_kept ..)
      | with_reducible refine Keeps.trans ?_ (objClear_keeps ..)
      | with_reducible refine Keeps.to_kept ?_ (chSet_kept ..)
      | with_reducible refine Keeps.to_kept ?_ (chainRestart_kept ..)
      | with_reducible refine Keeps.trans ?_ (nodeClear_keeps ..)
      | with_reducible refine Keeps.to_kept ?_ (restorePersistent_kept ..)
      | with_reducible refine Keeps.foldl ?_ ?_
      | intro _ _
      | with_reducible split
      | simp only []
      | with_reducible simp only [↓keeps_upd]
      | with_reducible simp only [↓keeps_updMem]
      | with_reducible simp only [↓keeps_updNvm]
      | with_reducible simp only [↓keeps_updBoth]))
  try clear_value x3
  try clear_value x4
  (repeat' (first
    | with_reducible exact Keeps.rfl_ _
    | with_reducible assumption
    | with_reducible refine Keeps.ite ?_ ?_
    | with_reducible refine Keeps.ite_snd ?_ ?_
    | with_reducible refine Keeps.to_kept ?_ (portSet_kept ..)
    | with_reducible refine Keeps.to_kept ?_ (rxClear_kept ..)
    | with_reducible refine Keeps.trans ?_ (objClear_keeps ..)
    | with_reducible refine Keeps.to_kept ?_ (chSet_kept ..)
    | with_reducible refine Keeps.to_kept ?_ (chainRestart_kept ..)
    | with_reducible refine Keeps.trans ?_ (nodeClear_keeps ..)
    | with_reducible refine Keeps.to_kept ?_ (restorePersistent_kept ..)
    | with_reducible refine Keeps.foldl ?_ ?_
    | intro _ _
    | with_reducible split
    | simp only []
    | with_reducible simp only [↓keeps_upd]
    | with_reducible simp only [↓keeps_updMem]
    | with_reducible simp only [↓keeps_updNvm]
    | with_reducible simp only [↓keeps_updBoth]))

theorem stopClear_keeps (s) : Keeps s (stopClear s) := by
  unfold stopClear
  (repeat' (first
    | with_reducible exact Keeps.rfl_ _
    | with_reducible assumption
    | with_reducible refine Keeps.ite ?_ ?_
    | with_reducible refine Keeps.ite_snd ?_ ?_
    | with_reducible refine Keeps.trans ?_ (fnClear_keeps ..)
    | with_reducible refine Keeps.to_kept ?_ (fnSet_kept ..)
    | with_reducible refine Keeps.foldl ?_ ?_
    | intro _ _
    | with_reducible split
    | simp only []
    | with_reducible simp only [↓keeps_upd]
    | with_reducible simp only [↓keeps_updMem]
    | with_reducible simp only [↓keeps_updNvm]
    | with_reducible simp only [↓keeps_updBoth]))

theorem stopDone_keeps (s) : Keeps s (stopDone s) := by
  unfold stopDone
  extract_lets x0
  have hx0 : Keeps s x0 := by
    unfold x0
    (repeat' (first
      | with_reducible exact Keeps.rfl_ _
      | with_reducible assumption
      | with_reducible refine Keeps.ite ?_ ?_
      | with_reducible refine Keeps.ite_snd ?_ ?_
      | with_reducible refine Keeps.trans ?_ (stopClear_keeps ..)
      | with_reducible refine Keeps.trans ?_ (fnClear_keeps ..)
      | with_reducible refine Keeps.to_kept ?_ (fnReview_kept ..)
      | with_reducible refine Keeps.to_kept ?_ (raiseTick_kept ..)
      | with_reducible refine Keeps.to_kept ?_ (fnSet_kept ..)
      | with_reducible refine Keeps.foldl ?_ ?_
      | intro _ _
      | with_reducible split
      | simp only []
      | with_reducible simp only [↓keeps_upd]
      | with_reducible simp only [↓keeps_updMem]
      | with_reducible simp only [↓keeps_updNvm]
      | with_reducible simp only [↓keeps_updBoth]))
  try clear_value x0
  (repeat' (first
    | with_reducible exact Keeps.rfl_ _
    | with_reducible assumption
    | with_reducible refine Keeps.ite ?_ ?_
    | with_reducible refine Keeps.ite_snd ?_ ?_
    | with_reducible refine Keeps.trans ?_ (stopClear_keeps ..)
    | with_reducible refine Keeps.trans ?_ (fnClear_keeps ..)
    | with_reducible refine Keeps.to_kept ?_ (fnReview_kept ..)
    | with_reducible refine Keeps.to_kept ?_ (raiseTick_kept ..)
    | with_reducible refine Keeps.to_kept ?_ (fnSet_kept ..)
    | with_reducible refine Keeps.foldl ?_ ?_
    | intro _ _
    | with_reducible split
    | simp only []
    | with_reducible simp only [↓keeps_upd]
    | with_reducible simp only [↓keeps_updMem]
    | with_reducible simp only [↓keeps_updNvm]
    | with_reducible simp only [↓keeps_updBoth]))

theorem dramFill_keeps (a0 a1 s) : Keeps s (dramFill a0 a1 s) := by
  unfold dramFill
  dsimp only
  exact Keeps.ite (dramPut_keeps ..) ⟨rfl, rfl, fun h => putBytes_wf _ _ h, id, id⟩

theorem histFill_keeps (a0 a1 a2 s) : Keeps s (histFill a0 a1 a2 s) := by
  unfold histFill
  (repeat' (first
    | with_reducible exact Keeps.rfl_ _
    | with_reducible assumption
    | with_reducible refine Keeps.ite ?_ ?_
    | with_reducible refine Keeps.ite_snd ?_ ?_
    | with_reducible refine Keeps.trans ?_ (dramFill_keeps ..)
    | with_reducible refine Keeps.foldl ?_ ?_
    | intro _ _
    | with_reducible split
    | simp only []
    | with_reducible simp only [↓keeps_upd]
    | with_reducible simp only [↓keeps_updMem]
    | with_reducible simp only [↓keeps_updNvm]
    | with_reducible simp only [↓keeps_updBoth]))

theorem stopBathAct_keeps (s) : Keeps s (stopBathAct s) := by
  unfold stopBathAct
  refine Keeps.ite (Keeps.rfl_ _) ?_
  extract_lets s1 due s2
  have h1 : Keeps s s1 := (listsFirst_keeps s).to_kept (dl3Settle_kept _)
  have h2 : Keeps s s2 := Keeps.foldl (fun _ _ => .of_kept (actStop_kept ..)) h1
  clear_value s2
  exact h2.to_kept (kept_upd ..)

theorem objSubs_keeps (a0 a1 a2 a3 a4 a5 a6 s) : Keeps s (objSubs a0 a1 a2 a3 a4 a5 a6 s).2.2 := by
  induction a3 generalizing a4 a5 a6 s with
  | zero => exact Keeps.rfl_ _
  | succ n ih =>
    rw [objSubs]
    refine Keeps.trans ?_ (ih ..)
    exact (evalBoundary_keeps a0 a1 (a4 + a1.S) a5 s).to_kept (noteClamps_kept ..)

theorem objSection_keeps (a0 a1 s) : Keeps s (objSection a0 a1 s) := by
  unfold objSection
  split
  · exact Keeps.rfl_ _
  refine Keeps.ite (Keeps.rfl_ _) ?_
  extract_lets j src s1
  have h1 : Keeps s s1 := ringPut_keeps ..
  clear_value s1
  have h2 := objSubs_keeps a1 (objPar s1 a1) src 4 j { objGet a1 s1 with handed := [] } [] s1
  generalize objSubs a1 (objPar s1 a1) src 4 j { objGet a1 s1 with handed := [] } [] s1 = w at h2 ⊢
  obtain ⟨o, ys, s2⟩ := w
  replace h2 : Keeps s1 s2 := h2
  refine ((h1.trans h2).to_kept (t := { s2 with smp := _ }) ?_).to_kept (objSet_kept ..)
  exact kept_upd ..

theorem sectionOne_keeps (a0 a1 a2 a3 a4 s) : Keeps s (sectionOne a0 a1 a2 a3 a4 s) := by
  unfold sectionOne
  extract_lets x0 x1 x2 x3 x4
  try clear_value x0
  have hx1 : Keeps s x1 := by
    unfold x1
    (repeat' (first
      | with_reducible exact Keeps.rfl_ _
      | with_reducible assumption
      | with_reducible refine Keeps.ite ?_ ?_
      | with_reducible refine Keeps.ite_snd ?_ ?_
      | with_reducible refine Keeps.trans ?_ (objSection_keeps ..)
      | with_reducible refine Keeps.to_kept ?_ (panSection_kept ..)
      | with_reducible refine Keeps.to_kept ?_ (matrixSection_kept ..)
      | with_reducible refine Keeps.to_kept ?_ (busReplace_kept ..)
      | with_reducible refine Keeps.to_kept ?_ (spkDynamics_kept ..)
      | with_reducible refine Keeps.to_kept ?_ (genOutput_kept ..)
      | with_reducible refine Keeps.to_kept ?_ (convSection_kept ..)
      | with_reducible refine Keeps.to_kept ?_ (directSection_kept ..)
      | with_reducible refine Keeps.foldl ?_ ?_
      | intro _ _
      | with_reducible split
      | simp only []
      | with_reducible simp only [↓keeps_upd]
      | with_reducible simp only [↓keeps_updMem]
      | with_reducible simp only [↓keeps_updNvm]
      | with_reducible simp only [↓keeps_updBoth]))
  try clear_value x1
  try clear_value x2
  have hx3 : Keeps s x3 := by
    unfold x3
    (repeat' (first
      | with_reducible exact Keeps.rfl_ _
      | with_reducible assumption
      | with_reducible refine Keeps.ite ?_ ?_
      | with_reducible refine Keeps.ite_snd ?_ ?_
      | with_reducible refine Keeps.trans ?_ (objSection_keeps ..)
      | with_reducible refine Keeps.to_kept ?_ (panSection_kept ..)
      | with_reducible refine Keeps.to_kept ?_ (matrixSection_kept ..)
      | with_reducible refine Keeps.to_kept ?_ (busReplace_kept ..)
      | with_reducible refine Keeps.to_kept ?_ (spkDynamics_kept ..)
      | with_reducible refine Keeps.to_kept ?_ (genOutput_kept ..)
      | with_reducible refine Keeps.to_kept ?_ (convSection_kept ..)
      | with_reducible refine Keeps.to_kept ?_ (directSection_kept ..)
      | with_reducible refine Keeps.foldl ?_ ?_
      | intro _ _
      | with_reducible split
      | simp only []
      | with_reducible simp only [↓keeps_upd]
      | with_reducible simp only [↓keeps_updMem]
      | with_reducible simp only [↓keeps_updNvm]
      | with_reducible simp only [↓keeps_updBoth]))
  try clear_value x3
  have hx4 : Keeps s x4 := by
    unfold x4
    (repeat' (first
      | with_reducible exact Keeps.rfl_ _
      | with_reducible assumption
      | with_reducible refine Keeps.ite ?_ ?_
      | with_reducible refine Keeps.ite_snd ?_ ?_
      | with_reducible refine Keeps.trans ?_ (objSection_keeps ..)
      | with_reducible refine Keeps.to_kept ?_ (panSection_kept ..)
      | with_reducible refine Keeps.to_kept ?_ (matrixSection_kept ..)
      | with_reducible refine Keeps.to_kept ?_ (busReplace_kept ..)
      | with_reducible refine Keeps.to_kept ?_ (spkDynamics_kept ..)
      | with_reducible refine Keeps.to_kept ?_ (genOutput_kept ..)
      | with_reducible refine Keeps.to_kept ?_ (convSection_kept ..)
      | with_reducible refine Keeps.to_kept ?_ (directSection_kept ..)
      | with_reducible refine Keeps.foldl ?_ ?_
      | intro _ _
      | with_reducible split
      | simp only []
      | with_reducible simp only [↓keeps_upd]
      | with_reducible simp only [↓keeps_updMem]
      | with_reducible simp only [↓keeps_updNvm]
      | with_reducible simp only [↓keeps_updBoth]))
  try clear_value x4
  (repeat' (first
    | with_reducible exact Keeps.rfl_ _
    | with_reducible assumption
    | with_reducible refine Keeps.ite ?_ ?_
    | with_reducible refine Keeps.ite_snd ?_ ?_
    | with_reducible refine Keeps.trans ?_ (objSection_keeps ..)
    | with_reducible refine Keeps.to_kept ?_ (panSection_kept ..)
    | with_reducible refine Keeps.to_kept ?_ (matrixSection_kept ..)
    | with_reducible refine Keeps.to_kept ?_ (busReplace_kept ..)
    | with_reducible refine Keeps.to_kept ?_ (spkDynamics_kept ..)
    | with_reducible refine Keeps.to_kept ?_ (genOutput_kept ..)
    | with_reducible refine Keeps.to_kept ?_ (convSection_kept ..)
    | with_reducible refine Keeps.to_kept ?_ (directSection_kept ..)
    | with_reducible refine Keeps.foldl ?_ ?_
    | intro _ _
    | with_reducible split
    | simp only []
    | with_reducible simp only [↓keeps_upd]
    | with_reducible simp only [↓keeps_updMem]
    | with_reducible simp only [↓keeps_updNvm]
    | with_reducible simp only [↓keeps_updBoth]))

theorem oweBefore_keeps (a0 a1 a2 a3 a4 s) : Keeps s (oweBefore a0 a1 a2 a3 a4 s) := by
  unfold oweBefore
  (repeat' (first
    | with_reducible exact Keeps.rfl_ _
    | with_reducible assumption
    | with_reducible refine Keeps.ite ?_ ?_
    | with_reducible refine Keeps.ite_snd ?_ ?_
    | with_reducible refine Keeps.to_kept ?_ (heldApply_kept ..)
    | with_reducible refine Keeps.trans ?_ (sectionOne_keeps ..)
    | with_reducible refine Keeps.foldl ?_ ?_
    | intro _ _
    | with_reducible split
    | simp only []
    | with_reducible simp only [↓keeps_upd]
    | with_reducible simp only [↓keeps_updMem]
    | with_reducible simp only [↓keeps_updNvm]
    | with_reducible simp only [↓keeps_updBoth]))

theorem objInit_keeps (a0 a1 s) : Keeps s (objInit a0 a1 s) := by
  unfold objInit histFill ringZero
  split
  · exact Keeps.rfl_ _
  dsimp only
  refine Keeps.to_kept ?_ (objSet_kept ..)
  refine Keeps.trans ?_ (dramFill_keeps ..)
  refine Keeps.trans ?_ (dramZero_keeps ..)
  exact .of_kept (noteClamps_kept ..)

theorem actStart_keeps (a0 a1 s) : Keeps s (actStart a0 a1 s) := by
  unfold actStart
  extract_lets x0 x1 x2 x3 x4 x5
  try clear_value x0
  have hx1 : Keeps s x1 := by
    unfold x1
    (repeat' (first
      | with_reducible exact Keeps.rfl_ _
      | with_reducible assumption
      | with_reducible refine Keeps.ite ?_ ?_
      | with_reducible refine Keeps.ite_snd ?_ ?_
      | with_reducible refine Keeps.to_kept ?_ (fnSet_kept ..)
      | with_reducible refine Keeps.to_kept ?_ (fnFade_kept ..)
      | with_reducible refine Keeps.trans ?_ (objInit_keeps ..)
      | with_reducible refine Keeps.to_kept ?_ (chainRestart_kept ..)
      | with_reducible refine Keeps.foldl ?_ ?_
      | intro _ _
      | with_reducible split
      | simp only []
      | with_reducible simp only [↓keeps_upd]
      | with_reducible simp only [↓keeps_updMem]
      | with_reducible simp only [↓keeps_updNvm]
      | with_reducible simp only [↓keeps_updBoth]))
  try clear_value x1
  try clear_value x2
  try clear_value x3
  have hx4 : Keeps s x4 := by
    unfold x4
    (repeat' (first
      | with_reducible exact Keeps.rfl_ _
      | with_reducible assumption
      | with_reducible refine Keeps.ite ?_ ?_
      | with_reducible refine Keeps.ite_snd ?_ ?_
      | with_reducible refine Keeps.to_kept ?_ (fnSet_kept ..)
      | with_reducible refine Keeps.to_kept ?_ (fnFade_kept ..)
      | with_reducible refine Keeps.trans ?_ (objInit_keeps ..)
      | with_reducible refine Keeps.to_kept ?_ (chainRestart_kept ..)
      | with_reducible refine Keeps.foldl ?_ ?_
      | intro _ _
      | with_reducible split
      | simp only []
      | with_reducible simp only [↓keeps_upd]
      | with_reducible simp only [↓keeps_updMem]
      | with_reducible simp only [↓keeps_updNvm]
      | with_reducible simp only [↓keeps_updBoth]))
  try clear_value x4
  try clear_value x5
  (repeat' (first
    | with_reducible exact Keeps.rfl_ _
    | with_reducible assumption
    | with_reducible refine Keeps.ite ?_ ?_
    | with_reducible refine Keeps.ite_snd ?_ ?_
    | with_reducible refine Keeps.to_kept ?_ (fnSet_kept ..)
    | with_reducible refine Keeps.to_kept ?_ (fnFade_kept ..)
    | with_reducible refine Keeps.trans ?_ (objInit_keeps ..)
    | with_reducible refine Keeps.to_kept ?_ (chainRestart_kept ..)
    | with_reducible refine Keeps.foldl ?_ ?_
    | intro _ _
    | with_reducible split
    | simp only []
    | with_reducible simp only [↓keeps_upd]
    | with_reducible simp only [↓keeps_updMem]
    | with_reducible simp only [↓keeps_updNvm]
    | with_reducible simp only [↓keeps_updBoth]))

theorem startOne_keeps (a0 s) : Keeps s (startOne a0 s) := by
  unfold startOne
  (repeat' (first
    | with_reducible exact Keeps.rfl_ _
    | with_reducible assumption
    | with_reducible refine Keeps.ite ?_ ?_
    | with_reducible refine Keeps.ite_snd ?_ ?_
    | with_reducible refine Keeps.trans ?_ (actStart_keeps ..)
    | with_reducible refine Keeps.foldl ?_ ?_
    | intro _ _
    | with_reducible split
    | simp only []
    | with_reducible simp only [↓keeps_upd]
    | with_reducible simp only [↓keeps_updMem]
    | with_reducible simp only [↓keeps_updNvm]
    | with_reducible simp only [↓keeps_updBoth]))

theorem startAct_keeps (s) : Keeps s (startAct s) := by
  unfold startAct
  refine Keeps.ite (Keeps.rfl_ _) (Keeps.foldl (fun _ _ => startOne_keeps ..) ?_)
  exact ((listsFirst_keeps s).trans (stopDone_keeps _)).to_kept (dl3Settle_kept _)

theorem allLists_keeps (s) : Keeps s (allLists s) := (stopBathAct_keeps s).trans (startAct_keeps _)

theorem assemble_keeps (a0 s) : Keeps s (assemble a0 s) := by
  unfold assemble
  extract_lets now log w s1 s2 w2 s3
  have h1 : Keeps s s1 := .of_kept (kept_upd ..)
  have h2 : Keeps s s2 := by
    refine Keeps.to_kept ?_ (atBlock_kept ..)
    refine Keeps.trans ?_ (installLists_keeps ..)
    exact (h1.to_kept (installBulk_kept ..)).to_kept (atBlock_kept ..)
  clear_value s2
  have h3 : Keeps s s3 := by
    refine Keeps.foldl (fun _ _ => replayFrame_keeps ..) ?_
    exact h2.to_kept (kept_upd ..)
  clear_value s3
  refine Keeps.to_kept ?_ (atBlock_kept ..)
  exact Keeps.foldl (fun _ _ => (Keeps.of_kept (atBlock_kept ..)).trans (allLists_keeps ..)) h3

theorem bulkInstall_keeps (s) : Keeps s (bulkInstall s) := by
  unfold bulkInstall
  extract_lets x0 x1
  try clear_value x0
  have hx1 : Keeps s x1 := by
    unfold x1
    (repeat' (first
      | with_reducible exact Keeps.rfl_ _
      | with_reducible assumption
      | with_reducible refine Keeps.ite ?_ ?_
      | with_reducible refine Keeps.ite_snd ?_ ?_
      | with_reducible refine Keeps.trans ?_ (assemble_keeps ..)
      | with_reducible refine Keeps.to_kept ?_ (planWait_kept ..)
      | with_reducible refine Keeps.foldl ?_ ?_
      | intro _ _
      | with_reducible split
      | simp only []
      | with_reducible simp only [↓keeps_upd]
      | with_reducible simp only [↓keeps_updMem]
      | with_reducible simp only [↓keeps_updNvm]
      | with_reducible simp only [↓keeps_updBoth]))
  try clear_value x1
  (repeat' (first
    | with_reducible exact Keeps.rfl_ _
    | with_reducible assumption
    | with_reducible refine Keeps.ite ?_ ?_
    | with_reducible refine Keeps.ite_snd ?_ ?_
    | with_reducible refine Keeps.trans ?_ (assemble_keeps ..)
    | with_reducible refine Keeps.to_kept ?_ (planWait_kept ..)
    | with_reducible refine Keeps.foldl ?_ ?_
    | intro _ _
    | with_reducible split
    | simp only []
    | with_reducible simp only [↓keeps_upd]
    | with_reducible simp only [↓keeps_updMem]
    | with_reducible simp only [↓keeps_updNvm]
    | with_reducible simp only [↓keeps_updBoth]))

theorem busWrite_keeps (a0 a1 a2 s) : Keeps s (busWrite a0 a1 a2 s) := by
  unfold busWrite
  generalize a2 % 2 ^ 32 = v
  dsimp only
  refine Keeps.ite (Keeps.rfl_ _) ?_
  split
  · exact .of_kept (by rw [busAnswer_kept, busError_kept])
  have hb : Keeps s (busAnswer a0 (sget 0 a0 s.bus.rdata) false s) := .of_kept (busAnswer_kept ..)
  generalize busAnswer a0 (sget 0 a0 s.bus.rdata) false s = t at hb ⊢
  refine hb.trans ?_
  have hw := windowWrite_keeps a0 a1 v t
  generalize windowWrite a0 a1 v t = w at hw ⊢
  obtain ⟨w1, w2⟩ := w
  generalize targetOf _ _ = g
  cases g
  case window =>
    cases w1
    · exact hw
    · exact (hw.to_kept (busError_kept ..)).to_kept (busAnswer_kept ..)
  case sram => exact ⟨rfl, rfl, id, fun h => putBytes_wf _ _ h, id⟩
  case rom => exact Keeps.rfl_ _
  all_goals exact regWrite_keeps ..

theorem busWrites_keeps (a0 a1 a2 a3 s) : Keeps s (busWrites a0 a1 a2 a3 s) := by
  unfold busWrites
  exact transaction_keeps _ _ _ _ _ _ _ fun _ _ => busWrite_keeps ..

theorem captureTry_keeps (s) : Keeps s (captureTry s) := by
  unfold captureTry
  extract_lets x0 x1 x2 x3 x4 x5 x6
  try clear_value x0
  try clear_value x1
  try clear_value x2
  try clear_value x3
  try clear_value x4
  have hx5 : Keeps s x5 := by
    unfold x5
    (repeat' (first
      | with_reducible exact Keeps.rfl_ _
      | with_reducible assumption
      | with_reducible refine Keeps.ite ?_ ?_
      | with_reducible refine Keeps.ite_snd ?_ ?_
      | with_reducible refine Keeps.trans ?_ (dramPut_keeps ..)
      | with_reducible refine Keeps.foldl ?_ ?_
      | intro _ _
      | with_reducible split
      | simp only []
      | with_reducible simp only [↓keeps_upd]
      | with_reducible simp only [↓keeps_updMem]
      | with_reducible simp only [↓keeps_updNvm]
      | with_reducible simp only [↓keeps_updBoth]))
  try clear_value x5
  try clear_value x6
  (repeat' (first
    | with_reducible exact Keeps.rfl_ _
    | with_reducible assumption
    | with_reducible refine Keeps.ite ?_ ?_
    | with_reducible refine Keeps.ite_snd ?_ ?_
    | with_reducible refine Keeps.trans ?_ (dramPut_keeps ..)
    | with_reducible refine Keeps.foldl ?_ ?_
    | intro _ _
    | with_reducible split
    | simp only []
    | with_reducible simp only [↓keeps_upd]
    | with_reducible simp only [↓keeps_updMem]
    | with_reducible simp only [↓keeps_updNvm]
    | with_reducible simp only [↓keeps_updBoth]))

theorem settleNow_keeps (s) : Keeps s (settleNow s) := by
  unfold settleNow
  (repeat' (first
    | with_reducible exact Keeps.rfl_ _
    | with_reducible assumption
    | with_reducible refine Keeps.ite ?_ ?_
    | with_reducible refine Keeps.ite_snd ?_ ?_
    | with_reducible refine Keeps.trans ?_ (captureTry_keeps ..)
    | with_reducible refine Keeps.to_kept ?_ (skipNodes_kept ..)
    | with_reducible refine Keeps.foldl ?_ ?_
    | intro _ _
    | with_reducible split
    | simp only []
    | with_reducible simp only [↓keeps_upd]
    | with_reducible simp only [↓keeps_updMem]
    | with_reducible simp only [↓keeps_updNvm]
    | with_reducible simp only [↓keeps_updBoth]))

theorem readied_keeps (s) : Keeps s (readied s) := by
  unfold readied
  (repeat' (first
    | with_reducible exact Keeps.rfl_ _
    | with_reducible assumption
    | with_reducible refine Keeps.ite ?_ ?_
    | with_reducible refine Keeps.ite_snd ?_ ?_
    | with_reducible refine Keeps.trans ?_ (settleNow_keeps ..)
    | with_reducible refine Keeps.to_kept ?_ (toneFirst_kept ..)
    | with_reducible refine Keeps.trans ?_ (allLists_keeps ..)
    | with_reducible refine Keeps.foldl ?_ ?_
    | intro _ _
    | with_reducible split
    | simp only []
    | with_reducible simp only [↓keeps_upd]
    | with_reducible simp only [↓keeps_updMem]
    | with_reducible simp only [↓keeps_updNvm]
    | with_reducible simp only [↓keeps_updBoth]))

theorem extPut_keeps (a0 a1 a2 s) : Keeps s (extPut a0 a1 a2 s) := by
  unfold extPut
  dsimp only
  refine Keeps.ite ?_ ⟨rfl, rfl, id, id, fun h => putBytes_wf _ _ h⟩
  exact Keeps.foldl (fun _ _ => .of_kept (markPoison_kept ..)) (dramPut_keeps ..)

theorem moveCopy_keeps (a0 a1 a2 a3 s) : Keeps s (moveCopy a0 a1 a2 a3 s).2 := by
  unfold moveCopy
  extract_lets x0 x1 x2 x3 x4
  try clear_value x0
  try clear_value x1
  try clear_value x2
  have hx3 : Keeps s x3 := by
    unfold x3
    (repeat' (first
      | with_reducible exact Keeps.rfl_ _
      | with_reducible assumption
      | with_reducible refine Keeps.ite ?_ ?_
      | with_reducible refine Keeps.ite_snd ?_ ?_
      | with_reducible refine Keeps.trans ?_ (extPut_keeps ..)
      | with_reducible refine Keeps.to_kept ?_ (deliverMarked_kept ..)
      | with_reducible refine Keeps.to_kept ?_ (coreWrite_kept ..)
      | with_reducible refine Keeps.to_kept ?_ (movePoison_kept ..)
      | with_reducible refine Keeps.foldl ?_ ?_
      | intro _ _
      | with_reducible split
      | simp only []
      | with_reducible simp only [↓keeps_upd]
      | with_reducible simp only [↓keeps_updMem]
      | with_reducible simp only [↓keeps_updNvm]
      | with_reducible simp only [↓keeps_updBoth]))
  try clear_value x3
  try clear_value x4
  (repeat' (first
    | with_reducible exact Keeps.rfl_ _
    | with_reducible assumption
    | with_reducible refine Keeps.ite ?_ ?_
    | with_reducible refine Keeps.ite_snd ?_ ?_
    | with_reducible refine Keeps.trans ?_ (extPut_keeps ..)
    | with_reducible refine Keeps.to_kept ?_ (deliverMarked_kept ..)
    | with_reducible refine Keeps.to_kept ?_ (coreWrite_kept ..)
    | with_reducible refine Keeps.to_kept ?_ (movePoison_kept ..)
    | with_reducible refine Keeps.foldl ?_ ?_
    | intro _ _
    | with_reducible split
    | simp only []
    | with_reducible simp only [↓keeps_upd]
    | with_reducible simp only [↓keeps_updMem]
    | with_reducible simp only [↓keeps_updNvm]
    | with_reducible simp only [↓keeps_updBoth]))

theorem abandon_keeps (a0 a1 a2 a3 a4 s) : Keeps s (abandon a0 a1 a2 a3 a4 s) := by
  unfold abandon
  (repeat' (first
    | with_reducible exact Keeps.rfl_ _
    | with_reducible assumption
    | with_reducible refine Keeps.ite ?_ ?_
    | with_reducible refine Keeps.ite_snd ?_ ?_
    | with_reducible refine Keeps.to_kept ?_ (outputCopy_kept ..)
    | with_reducible refine Keeps.to_kept ?_ (dropCtx_kept ..)
    | with_reducible refine Keeps.to_kept ?_ (zeroOne_kept ..)
    | with_reducible refine Keeps.trans ?_ (oweBefore_keeps ..)
    | with_reducible refine Keeps.to_kept ?_ (statSet_kept ..)
    | with_reducible refine Keeps.trans ?_ (settleNow_keeps ..)
    | with_reducible refine Keeps.foldl ?_ ?_
    | intro _ _
    | with_reducible split
    | simp only []
    | with_reducible simp only [↓keeps_upd]
    | with_reducible simp only [↓keeps_updMem]
    | with_reducible simp only [↓keeps_updNvm]
    | with_reducible simp only [↓keeps_updBoth]))

theorem deadlineMiss_keeps (a0 a1 a2 s) : Keeps s (deadlineMiss a0 a1 a2 s) := by
  unfold deadlineMiss
  (repeat' (first
    | with_reducible exact Keeps.rfl_ _
    | with_reducible assumption
    | with_reducible refine Keeps.ite ?_ ?_
    | with_reducible refine Keeps.ite_snd ?_ ?_
    | with_reducible refine Keeps.trans ?_ (abandon_keeps ..)
    | with_reducible refine Keeps.to_kept ?_ (count_kept ..)
    | with_reducible refine Keeps.to_kept ?_ (raiseOnce_kept ..)
    | with_reducible refine Keeps.to_kept ?_ (lapse_kept ..)
    | with_reducible refine Keeps.to_kept ?_ (dacUnderrun_kept ..)
    | with_reducible refine Keeps.foldl ?_ ?_
    | intro _ _
    | with_reducible split
    | simp only []
    | with_reducible simp only [↓keeps_upd]
    | with_reducible simp only [↓keeps_updMem]
    | with_reducible simp only [↓keeps_updNvm]
    | with_reducible simp only [↓keeps_updBoth]))

theorem w1cRow_keeps (a0 a1 a2 s) : Keeps s (w1cRow a0 a1 a2 s) := by
  unfold w1cRow
  (repeat' (first
    | with_reducible exact Keeps.rfl_ _
    | with_reducible assumption
    | with_reducible refine Keeps.ite ?_ ?_
    | with_reducible refine Keeps.ite_snd ?_ ?_
    | with_reducible refine Keeps.trans ?_ (busWrite_keeps ..)
    | with_reducible refine Keeps.foldl ?_ ?_
    | intro _ _
    | with_reducible split
    | simp only []
    | with_reducible simp only [↓keeps_upd]
    | with_reducible simp only [↓keeps_updMem]
    | with_reducible simp only [↓keeps_updNvm]
    | with_reducible simp only [↓keeps_updBoth]))

theorem missAll_keeps (a0 s) : Keeps s (missAll a0 s) := by
  unfold missAll
  (repeat' (first
    | with_reducible exact Keeps.rfl_ _
    | with_reducible assumption
    | with_reducible refine Keeps.ite ?_ ?_
    | with_reducible refine Keeps.ite_snd ?_ ?_
    | with_reducible refine Keeps.trans ?_ (deadlineMiss_keeps ..)
    | with_reducible refine Keeps.foldl ?_ ?_
    | intro _ _
    | with_reducible split
    | simp only []
    | with_reducible simp only [↓keeps_upd]
    | with_reducible simp only [↓keeps_updMem]
    | with_reducible simp only [↓keeps_updNvm]
    | with_reducible simp only [↓keeps_updBoth]))

theorem closeBlock_keeps (s) : Keeps s (closeBlock s) := by
  unfold closeBlock
  (repeat' (first
    | with_reducible exact Keeps.rfl_ _
    | with_reducible assumption
    | with_reducible refine Keeps.ite ?_ ?_
    | with_reducible refine Keeps.ite_snd ?_ ?_
    | with_reducible refine Keeps.trans ?_ (missAll_keeps ..)
    | with_reducible refine Keeps.trans ?_ (allLists_keeps ..)
    | with_reducible refine Keeps.foldl ?_ ?_
    | intro _ _
    | with_reducible split
    | simp only []
    | with_reducible simp only [↓keeps_upd]
    | with_reducible simp only [↓keeps_updMem]
    | with_reducible simp only [↓keeps_updNvm]
    | with_reducible simp only [↓keeps_updBoth]))

theorem ecFault_keeps (a0 a1 s) : Keeps s (ecFault a0 a1 s) := by
  unfold ecFault
  (repeat' (first
    | with_reducible exact Keeps.rfl_ _
    | with_reducible assumption
    | with_reducible refine Keeps.ite ?_ ?_
    | with_reducible refine Keeps.ite_snd ?_ ?_
    | with_reducible refine Keeps.to_kept ?_ (coreSet_kept ..)
    | with_reducible refine Keeps.to_kept ?_ (raise_kept ..)
    | with_reducible refine Keeps.to_kept ?_ (count_kept ..)
    | with_reducible refine Keeps.to_kept ?_ (setPoison_kept ..)
    | with_reducible refine Keeps.trans ?_ (abandon_keeps ..)
    | with_reducible refine Keeps.foldl ?_ ?_
    | intro _ _
    | with_reducible split
    | simp only []
    | with_reducible simp only [↓keeps_upd]
    | with_reducible simp only [↓keeps_updMem]
    | with_reducible simp only [↓keeps_updNvm]
    | with_reducible simp only [↓keeps_updBoth]))

theorem issue_keeps (a0 a1 a2 a3 a4 s) : Keeps s (issue a0 a1 a2 a3 a4 s) := by
  unfold issue
  (repeat' (first
    | with_reducible exact Keeps.rfl_ _
    | with_reducible assumption
    | with_reducible refine Keeps.ite ?_ ?_
    | with_reducible refine Keeps.ite_snd ?_ ?_
    | with_reducible refine Keeps.to_kept ?_ (ctxSet_kept ..)
    | with_reducible refine Keeps.trans ?_ (ecFault_keeps ..)
    | with_reducible refine Keeps.to_kept ?_ (moveStore_kept ..)
    | with_reducible refine Keeps.to_kept ?_ (moveBad_kept ..)
    | with_reducible refine Keeps.to_kept ?_ (movcFree_kept ..)
    | with_reducible refine Keeps.foldl ?_ ?_
    | intro _ _
    | with_reducible split
    | simp only []
    | with_reducible simp only [↓keeps_upd]
    | with_reducible simp only [↓keeps_updMem]
    | with_reducible simp only [↓keeps_updNvm]
    | with_reducible simp only [↓keeps_updBoth]))

theorem closePeriod_keeps (s) : Keeps s (closePeriod s) := by
  unfold closePeriod
  (repeat' (first
    | with_reducible exact Keeps.rfl_ _
    | with_reducible assumption
    | with_reducible refine Keeps.ite ?_ ?_
    | with_reducible refine Keeps.ite_snd ?_ ?_
    | with_reducible refine Keeps.trans ?_ (missAll_keeps ..)
    | with_reducible refine Keeps.trans ?_ (allLists_keeps ..)
    | with_reducible refine Keeps.foldl ?_ ?_
    | intro _ _
    | with_reducible split
    | simp only []
    | with_reducible simp only [↓keeps_upd]
    | with_reducible simp only [↓keeps_updMem]
    | with_reducible simp only [↓keeps_updNvm]
    | with_reducible simp only [↓keeps_updBoth]))

theorem runSection_keeps (a0 a1 a2 s) : Keeps s (runSection a0 a1 a2 s) := by
  unfold runSection
  extract_lets x0 x1 x2
  have hx0 : Keeps s x0 := by
    unfold x0
    (repeat' (first
      | with_reducible exact Keeps.rfl_ _
      | with_reducible assumption
      | with_reducible refine Keeps.ite ?_ ?_
      | with_reducible refine Keeps.ite_snd ?_ ?_
      | with_reducible refine Keeps.trans ?_ (sectionOne_keeps ..)
      | with_reducible refine Keeps.to_kept ?_ (statSet_kept ..)
      | with_reducible refine Keeps.to_kept ?_ (fixPrepare_kept ..)
      | with_reducible refine Keeps.to_kept ?_ (matrixReport_kept ..)
      | with_reducible refine Keeps.foldl ?_ ?_
      | intro _ _
      | with_reducible split
      | simp only []
      | with_reducible simp only [↓keeps_upd]
      | with_reducible simp only [↓keeps_updMem]
      | with_reducible simp only [↓keeps_updNvm]
      | with_reducible simp only [↓keeps_updBoth]))
  try clear_value x0
  try clear_value x1
  have hx2 : Keeps s x2 := by
    unfold x2
    (repeat' (first
      | with_reducible exact Keeps.rfl_ _
      | with_reducible assumption
      | with_reducible refine Keeps.ite ?_ ?_
      | with_reducible refine Keeps.ite_snd ?_ ?_
      | with_reducible refine Keeps.trans ?_ (sectionOne_keeps ..)
      | with_reducible refine Keeps.to_kept ?_ (statSet_kept ..)
      | with_reducible refine Keeps.to_kept ?_ (fixPrepare_kept ..)
      | with_reducible refine Keeps.to_kept ?_ (matrixReport_kept ..)
      | with_reducible refine Keeps.foldl ?_ ?_
      | intro _ _
      | with_reducible split
      | simp only []
      | with_reducible simp only [↓keeps_upd]
      | with_reducible simp only [↓keeps_updMem]
      | with_reducible simp only [↓keeps_updNvm]
      | with_reducible simp only [↓keeps_updBoth]))
  try clear_value x2
  (repeat' (first
    | with_reducible exact Keeps.rfl_ _
    | with_reducible assumption
    | with_reducible refine Keeps.ite ?_ ?_
    | with_reducible refine Keeps.ite_snd ?_ ?_
    | with_reducible refine Keeps.trans ?_ (sectionOne_keeps ..)
    | with_reducible refine Keeps.to_kept ?_ (statSet_kept ..)
    | with_reducible refine Keeps.to_kept ?_ (fixPrepare_kept ..)
    | with_reducible refine Keeps.to_kept ?_ (matrixReport_kept ..)
    | with_reducible refine Keeps.foldl ?_ ?_
    | intro _ _
    | with_reducible split
    | simp only []
    | with_reducible simp only [↓keeps_upd]
    | with_reducible simp only [↓keeps_updMem]
    | with_reducible simp only [↓keeps_updNvm]
    | with_reducible simp only [↓keeps_updBoth]))

theorem complete_keeps (a0 a1 s) : Keeps s (complete a0 a1 s) := by
  unfold complete
  (repeat' (first
    | with_reducible exact Keeps.rfl_ _
    | with_reducible assumption
    | with_reducible refine Keeps.ite ?_ ?_
    | with_reducible refine Keeps.ite_snd ?_ ?_
    | with_reducible refine Keeps.to_kept ?_ (streamed_kept ..)
    | with_reducible refine Keeps.to_kept ?_ (ecFinish_kept ..)
    | with_reducible refine Keeps.trans ?_ (runSection_keeps ..)
    | with_reducible refine Keeps.to_kept ?_ (flightSet_kept ..)
    | with_reducible refine Keeps.to_kept ?_ (withhold_kept ..)
    | with_reducible refine Keeps.foldl ?_ ?_
    | intro _ _
    | with_reducible split
    | simp only []
    | with_reducible simp only [↓keeps_upd]
    | with_reducible simp only [↓keeps_updMem]
    | with_reducible simp only [↓keeps_updNvm]
    | with_reducible simp only [↓keeps_updBoth]))

theorem busReads_keeps (a0 a1 a2 a3 s) : Keeps s (busReads a0 a1 a2 a3 s) := by
  unfold busReads
  extract_lets keep
  refine Keeps.trans (.of_kept (kept_upd ..)) (transaction_keeps _ _ _ _ _ _ _ fun i s => ?_)
  exact (Keeps.of_kept (busRead_kept ..)).to_kept (kept_upd ..)

theorem windowAccess_keeps (a0 a1 a2 a3 a4 a5 s) : Keeps s (windowAccess a0 a1 a2 a3 a4 a5 s) := by
  unfold windowAccess
  dsimp only
  exact Keeps.ite (busWrites_keeps ..) (busReads_keeps ..)

theorem writeWords_keeps (a0 a1 s) : Keeps s (writeWords a0 a1 s).2 := by
  induction a0 generalizing a1 s with
  | nil => exact Keeps.rfl_ _
  | cons r t ih => rw [writeWords]; exact (busWrite_keeps ..).trans (ih ..)

theorem moveDone_keeps (a0 a1 a2 s) : Keeps s (moveDone a0 a1 a2 s) := by
  unfold moveDone
  (repeat' (first
    | with_reducible exact Keeps.rfl_ _
    | with_reducible assumption
    | with_reducible refine Keeps.ite ?_ ?_
    | with_reducible refine Keeps.ite_snd ?_ ?_
    | with_reducible refine Keeps.trans ?_ (moveCopy_keeps ..)
    | with_reducible refine Keeps.to_kept ?_ (ctxSet_kept ..)
    | with_reducible refine Keeps.foldl ?_ ?_
    | intro _ _
    | with_reducible split
    | simp only []
    | with_reducible simp only [↓keeps_upd]
    | with_reducible simp only [↓keeps_updMem]
    | with_reducible simp only [↓keeps_updNvm]
    | with_reducible simp only [↓keeps_updBoth]))

theorem fxRow_keeps (a0 a1 a2 s) : Keeps s (fxRow a0 a1 a2 s) := by
  unfold fxRow
  (repeat' (first
    | with_reducible exact Keeps.rfl_ _
    | with_reducible assumption
    | with_reducible refine Keeps.ite ?_ ?_
    | with_reducible refine Keeps.ite_snd ?_ ?_
    | with_reducible refine Keeps.trans ?_ (busWrite_keeps ..)
    | with_reducible refine Keeps.foldl ?_ ?_
    | intro _ _
    | with_reducible split
    | simp only []
    | with_reducible simp only [↓keeps_upd]
    | with_reducible simp only [↓keeps_updMem]
    | with_reducible simp only [↓keeps_updNvm]
    | with_reducible simp only [↓keeps_updBoth]))

theorem tcmWrite_keeps (s) : Keeps s (tcmWrite s) := by
  refine tcmRow_keeps _ _ _ fun r p s => ?_
  exact (writeWords_keeps ..).to_kept (accessReply_kept ..)

theorem release_keeps (a0 a1 s) : Keeps s (release a0 a1 s) := by
  unfold release
  extract_lets x0 x1 x2
  try clear_value x0
  have hx1 : Keeps s x1 := by
    unfold x1
    (repeat' (first
      | with_reducible exact Keeps.rfl_ _
      | with_reducible assumption
      | with_reducible refine Keeps.ite ?_ ?_
      | with_reducible refine Keeps.ite_snd ?_ ?_
      | with_reducible refine Keeps.trans ?_ (deadlineMiss_keeps ..)
      | with_reducible refine Keeps.to_kept ?_ (statSet_kept ..)
      | with_reducible refine Keeps.trans ?_ (settleNow_keeps ..)
      | with_reducible refine Keeps.to_kept ?_ (heldApply_kept ..)
      | with_reducible refine Keeps.foldl ?_ ?_
      | intro _ _
      | with_reducible split
      | simp only []
      | with_reducible simp only [↓keeps_upd]
      | with_reducible simp only [↓keeps_updMem]
      | with_reducible simp only [↓keeps_updNvm]
      | with_reducible simp only [↓keeps_updBoth]))
  try clear_value x1
  try clear_value x2
  (repeat' (first
    | with_reducible exact Keeps.rfl_ _
    | with_reducible assumption
    | with_reducible refine Keeps.ite ?_ ?_
    | with_reducible refine Keeps.ite_snd ?_ ?_
    | with_reducible refine Keeps.trans ?_ (deadlineMiss_keeps ..)
    | with_reducible refine Keeps.to_kept ?_ (statSet_kept ..)
    | with_reducible refine Keeps.trans ?_ (settleNow_keeps ..)
    | with_reducible refine Keeps.to_kept ?_ (heldApply_kept ..)
    | with_reducible refine Keeps.foldl ?_ ?_
    | intro _ _
    | with_reducible split
    | simp only []
    | with_reducible simp only [↓keeps_upd]
    | with_reducible simp only [↓keeps_updMem]
    | with_reducible simp only [↓keeps_updNvm]
    | with_reducible simp only [↓keeps_updBoth]))

theorem issueRow_keeps (a0 a1 a2 s) : Keeps s (issueRow a0 a1 a2 s) := by
  unfold issueRow
  extract_lets x0
  have hx0 : Keeps s x0 := by
    unfold x0
    (repeat' (first
      | with_reducible exact Keeps.rfl_ _
      | with_reducible assumption
      | with_reducible refine Keeps.ite ?_ ?_
      | with_reducible refine Keeps.ite_snd ?_ ?_
      | with_reducible refine Keeps.trans ?_ (ecFault_keeps ..)
      | with_reducible refine Keeps.to_kept ?_ (coreSet_kept ..)
      | with_reducible refine Keeps.to_kept ?_ (burstCheck_kept ..)
      | with_reducible refine Keeps.to_kept ?_ (sramPoison_kept ..)
      | with_reducible refine Keeps.trans ?_ (issue_keeps ..)
      | with_reducible refine Keeps.foldl ?_ ?_
      | intro _ _
      | with_reducible split
      | simp only []
      | with_reducible simp only [↓keeps_upd]
      | with_reducible simp only [↓keeps_updMem]
      | with_reducible simp only [↓keeps_updNvm]
      | with_reducible simp only [↓keeps_updBoth]))
  try clear_value x0
  (repeat' (first
    | with_reducible exact Keeps.rfl_ _
    | with_reducible assumption
    | with_reducible refine Keeps.ite ?_ ?_
    | with_reducible refine Keeps.ite_snd ?_ ?_
    | with_reducible refine Keeps.trans ?_ (ecFault_keeps ..)
    | with_reducible refine Keeps.to_kept ?_ (coreSet_kept ..)
    | with_reducible refine Keeps.to_kept ?_ (burstCheck_kept ..)
    | with_reducible refine Keeps.to_kept ?_ (sramPoison_kept ..)
    | with_reducible refine Keeps.trans ?_ (issue_keeps ..)
    | with_reducible refine Keeps.foldl ?_ ?_
    | intro _ _
    | with_reducible split
    | simp only []
    | with_reducible simp only [↓keeps_upd]
    | with_reducible simp only [↓keeps_updMem]
    | with_reducible simp only [↓keeps_updNvm]
    | with_reducible simp only [↓keeps_updBoth]))

theorem clockFaultReset_keeps (s) : Keeps s (clockFaultReset s) := by
  unfold clockFaultReset
  (repeat' (first
    | with_reducible exact Keeps.rfl_ _
    | with_reducible assumption
    | with_reducible refine Keeps.ite ?_ ?_
    | with_reducible refine Keeps.ite_snd ?_ ?_
    | with_reducible refine Keeps.trans ?_ (resetDevice_keeps ..)
    | with_reducible refine Keeps.to_kept ?_ (setSafe_kept ..)
    | with_reducible refine Keeps.foldl ?_ ?_
    | intro _ _
    | with_reducible split
    | simp only []
    | with_reducible simp only [↓keeps_upd]
    | with_reducible simp only [↓keeps_updMem]
    | with_reducible simp only [↓keeps_updNvm]
    | with_reducible simp only [↓keeps_updBoth]))

theorem bootStepEnd_keeps (a0 s) : Keeps s (bootStepEnd a0 s) := by
  unfold bootStepEnd
  extract_lets c go
  have hgo : ∀ (n : Nat) (s t : State), Keeps s t → Keeps s (go n t) := fun _ _ _ h => h.to_kept (kept_upd ..)
  have hdom : ∀ (k : Nat) (s t : State), Keeps s t → Keeps s (startDomain k t) :=
    fun _ _ _ h => h.to_kept (startDomain_kept ..)
  clear_value c
  refine Keeps.ite (Keeps.rfl_ _) ?_
  split
  · exact hgo _ _ _ (Keeps.rfl_ _)
  · exact Keeps.ite ((hgo _ _ _ (Keeps.rfl_ _)).to_kept (programFixed_kept ..)) (Keeps.rfl_ _)
  · exact Keeps.ite (hgo _ _ _ (hdom _ _ _ (hdom _ _ _ (hdom _ _ _ (Keeps.rfl_ _))))) (Keeps.rfl_ _)
  · exact Keeps.ite (hgo _ _ _ (Keeps.rfl_ _)) (Keeps.rfl_ _)
  · exact hgo _ _ _ ⟨rfl, rfl, id, fun _ => rfl, id⟩
  · exact step6_keeps ..
  · exact Keeps.ite ((hgo _ _ _ (hdom _ _ _ (Keeps.rfl_ _))).to_kept (earlyStart_kept ..)) (Keeps.rfl_ _)
  · exact Keeps.ite (hgo _ _ _ (Keeps.rfl_ _)) (Keeps.rfl_ _)
  · exact Keeps.ite ((hgo _ _ _ (Keeps.rfl_ _)).to_kept (handshakeStart_kept ..)) (Keeps.rfl_ _)
  · exact Keeps.ite (Keeps.rfl_ _) (hgo _ _ _ (Keeps.rfl_ _))
  · exact Keeps.rfl_ _

theorem audioStart_keeps (s) : Keeps s (audioStart s) := by
  unfold audioStart
  refine Keeps.ite (Keeps.rfl_ _) ?_
  extract_lets a g c s1 s2 s3 joint s4 s5
  have h1 : Keeps s s1 := .of_kept (kept_upd ..)
  have h2 : Keeps s s2 := Keeps.foldl (fun _ _ => objInit_keeps ..) h1
  clear_value s1
  clear_value s2
  have h3 : Keeps s s3 := h2.to_kept (txStart_kept ..)
  clear_value s3
  have h4 : Keeps s s4 := Keeps.ite (h3.to_kept (startActing_kept ..)) h3
  clear_value s4
  have h5 : Keeps s s5 := Keeps.ite (h4.to_kept (enterResync_kept ..))
    (Keeps.ite (h4.to_kept (enterSuspect_kept ..)) (h4.to_kept (emitByState_kept ..)))
  exact (h5.to_kept (evcOccur_kept ..)).to_kept (evcOccur_kept ..)

theorem startAudio_keeps (s) : Keeps s (startAudio s) := by
  unfold startAudio
  extract_lets t
  have h : Keeps s t := audioStart_keeps ..
  clear_value t
  exact Keeps.ite h (h.to_kept (firstTick_kept ..))

theorem blockTick_keeps (a0 s) : Keeps s (blockTick a0 s) := by
  unfold blockTick
  refine Keeps.ite (Keeps.rfl_ _) ?_
  extract_lets s1 lapsed s2 n s3 s4 s5 s6 s7 s8 s9 s10
  have h1 : Keeps s s1 := ((Keeps.of_kept (setSafe_kept ..)).trans (closeBlock_keeps ..)).to_kept (blockEnd_kept ..)
  clear_value s1
  have h2 : s2.kept = s1.kept := by
    unfold s2
    rw [evcOccur_kept, evcOccur_kept, gridAdvance_kept, timeAdvance_kept]
  clear_value s2
  have h8 : s8.kept = s2.kept := by
    have h6 : s6.kept = s2.kept := by
      unfold s6 s5 s4 s3
      rw [tickFrames_kept, healthTick_kept, twinTick_kept, mediaStep_kept, lockTick_kept, slotTick_kept, netTick_kept,
        eventDelivery_kept]
    have h7 : s7.kept = s2.kept := (hashSeal_kept _).trans h6
    exact kept_ite ((planLapse_kept _).trans h7) h7
  clear_value s8
  refine h1.to_kept ?_
  unfold s10 s9
  rw [pruneSamples_kept, analogSub_kept, analogTick_kept, adcTrim_kept, adcBoundary_kept]
  unfold schedTick
  rw [kept_upd, matrixTick_kept, serialTick_kept, h8, h2]

theorem subBlock_keeps (a0 a1 s) : Keeps s (subBlock a0 a1 s) := by
  unfold subBlock
  refine Keeps.ite (Keeps.rfl_ _) ?_
  extract_lets s1 g s2 s3
  have h1 : Keeps s s1 := closePeriod_keeps ..
  clear_value s1
  refine h1.to_kept ?_
  unfold s3 s2
  rw [analogSub_kept, adcBoundary_kept, evcOccur_kept, timeAdvance_kept, kept_upd]

theorem dispatch_keeps (a0 a1 s) : Keeps s (dispatch a0 a1 s) := by
  unfold dispatch
  refine Keeps.ite (Keeps.rfl_ _) ?_
  extract_lets s1
  have h1 : Keeps s s1 := readied_keeps ..
  clear_value s1
  refine Keeps.ite h1 ?_
  split
  · exact h1
  · extract_lets s2 s3 fl sc s4
    have h3 : Keeps s s3 := (h1.to_kept (adcCheck_kept ..)).to_kept (statSet_kept ..)
    clear_value s3
    have h4 : Keeps s s4 := h3.to_kept (kept_upd ..)
    clear_value s4
    exact Keeps.ite (h4.to_kept (ecStart_kept ..)) h4

theorem applyBody_keeps (a0) {t s} (h : Keeps s t) : Keeps s (applyBody a0 t s) := by
  unfold applyBody
  extract_lets x0 x1 x2 x3 x4 x5
  have h1 : Keeps s x4 := h.to_kept (kept_updNvm ..)
  clear_value x4
  refine Keeps.foldl (fun _ _ => .of_kept (reportGroups_kept ..)) ?_
  exact (h1.to_kept (imageGates_kept ..)).to_kept (islandsOff_kept ..)

theorem objectsRecord_keeps (b k) : Yields (fun k' => Keeps k.st k'.st) (objectsRecord b k) := by
  unfold objectsRecord
  extract_lets s n es airs cs
  repeat' refine Yields.bind fun _ => ?_
  refine Yields.ok ?_
  refine Keeps.foldl (fun _ _ => objInit_keeps ..) ?_
  refine Keeps.foldl (fun _ _ => .of_kept (applyObj_kept ..)) ?_
  refine Keeps.foldl (fun _ _ => .of_kept (fxSet_kept ..)) ?_
  exact .of_kept ((fxSet_kept ..).trans (kept_upd ..))

theorem filtersRecord_keeps (b k) : Yields (fun k' => Keeps k.st k'.st) (filtersRecord b k) := by
  unfold filtersRecord
  extract_lets s sc lc chains es
  repeat' refine Yields.bind fun _ => ?_
  refine Yields.ok ?_
  refine Keeps.to_kept ?_ (kept_upd ..)
  refine Keeps.foldl (fun _ _ => .of_kept ((convSet_kept ..).trans (fxSet_kept ..))) ?_
  refine Keeps.foldl (fun _ _ => dramPut_keeps ..) ?_
  exact .of_kept (kept_upd ..)

theorem Yields.imp {ε α : Type} {P Q : α → Prop} {x : Except ε α} (h : Yields P x) (f : ∀ a, P a → Q a) : Yields Q x :=
  fun k hk => f k (h k hk)

theorem recordStep_keeps (body type b k) : Yields (fun k' => Keeps k.st k'.st) (recordStep body type b k) := by
  have of : ∀ {x : Checked Build} (f : Nat × Nat → Bool × Nat × Nat), Yields (fun k' => k'.st.kept = k.st.kept) x →
      Yields (fun k' => Keeps k.st k'.st) (x.mapError f) :=
    fun f h => Yields.mapError (h.imp fun _ => Keeps.of_kept)
  unfold recordStep
  extract_lets pk run
  split
  · repeat' refine Yields.bind fun _ => ?_
    exact Yields.ok (.of_kept ((applyDram_kept ..).trans (applyClock_kept ..)))
  · refine Yields.seq (Yields.mapError (serialSection_kept b k)) fun a ha => Yields.mapError ?_
    exact (analogSection_kept b a).imp fun _ h => .of_kept (h.trans ha)
  · exact of _ (netRecord_kept _ _ _)
  · exact of _ (ptpRecord_kept _ _)
  · exact of _ (layoutRecord_kept _ _)
  · exact Yields.mapError (objectsRecord_keeps _ _)
  · exact of _ (matrixRecord_kept _ _ _)
  · exact of _ (graphRecord_kept _ _ _)
  · exact of _ (ecprogRecord_kept _ _ _)
  · exact Yields.mapError (filtersRecord_keeps _ _)
  · exact of _ (dynamicsRecord_kept _ _)
  · exact of _ (twinRecord_kept _ _)
  · exact of _ (keysRecord_kept _ _)
  · exact of _ (eventsRecord_kept _ _)

theorem runRecords_keeps (body n o type k p) (h : runRecords body n o type k = .ok p) : Keeps k.st p.1.st := by
  induction n generalizing o type k with
  | zero => cases h; exact Keeps.rfl_ _
  | succ n ih =>
    rw [runRecords] at h
    split at h
    · cases h
    · split at h
      · rename_i hk; exact (recordStep_keeps _ _ _ _ _ hk).trans (ih _ _ _ h)
      · cases h

theorem imageApply_keeps (s) : Keeps s (imageApply s) := by
  unfold imageApply
  refine Keeps.ite (Keeps.rfl_ _) ?_
  extract_lets copyB body
  refine Keeps.ite (.of_kept (failCopy_kept ..)) ?_
  split
  · exact .of_kept (failCopy_kept ..)
  · rename_i h
    exact Keeps.ite (applyBody_keeps _ (runRecords_keeps _ _ _ _ _ _ h)) (.of_kept (failCopy_kept ..))

end Sys2Proof.Machine
end

