-- ==== Sys2Proof/Laws/Step.lean ====
section
/-!
SUPPORT. What a step can answer, and what a command that names instances can answer, said once.
-/
namespace Sys2Proof.Machine

/-- A step that answers a next state either idles or has the effect of the command in front on a state without it. -/
theorem step_cases {s t : State} (h : step s = .next t) :
    (s.pending = [] ∧ t = s) ∨ ∃ c rest, s.pending = c :: rest ∧ exec c { s with pending := rest } = .next t := by
  unfold step at h
  split at h
  · rename_i hp
    injection h with h
    exact .inl ⟨hp, h.symm⟩
  · rename_i c rest hp
    exact .inr ⟨c, rest, hp, h⟩

/-- A command on one numbered instance: its next state, where the instance exists, and a fault where it does not. -/
theorem withInstance_next {what : String} {i n : Nat} {t u : State} :
    withInstance what i n t = .next u ↔ i < n ∧ u = t := by
  unfold withInstance
  split <;> rename_i h
  · simp [h, eq_comm]
  · simp [h]

theorem withInstance_of_lt {what : String} {i n : Nat} (h : i < n) (t : State) : withInstance what i n t = .next t :=
  if_pos h

theorem withInstance_of_le {what : String} {i n : Nat} (h : n ≤ i) (t : State) :
    withInstance what i n t = .fault (.noSuchInstance what i) :=
  if_neg (by omega)

/-- A command on several numbered instances. -/
theorem withInstances_next {l : List (String × Nat × Nat)} {t u : State} :
    withInstances l t = .next u ↔ (∀ x ∈ l, x.2.1 < x.2.2) ∧ u = t := by
  induction l with
  | nil => simp [withInstances, eq_comm]
  | cons x l ih =>
    obtain ⟨what, i, n⟩ := x
    rw [withInstances]
    split <;> rename_i h
    · simp [ih, h]
    · simp [h]

end Sys2Proof.Machine
end

