-- ==== Sys2Proof/Laws/Twin.lean ====
section
/-!
SUPPORT. What the operations of twin operation write: frames and emission write the twin's own state alone; a release of the
token also decides the PTP domains and raises an event.
-/
namespace Sys2Proof.Machine

/-- The operation writes the twin's own state alone. -/
def TwinOnly (s t : State) : Prop := ∃ w, t = { s with twin := w }

theorem TwinOnly.refl (s : State) : TwinOnly s s := ⟨s.twin, rfl⟩
theorem TwinOnly.trans {s t u : State} (h : TwinOnly s t) (k : TwinOnly t u) : TwinOnly s u := by
  obtain ⟨w, rfl⟩ := h
  obtain ⟨w', rfl⟩ := k
  exact ⟨w', rfl⟩

theorem linkSend_only (type payload s) : TwinOnly s (linkSend type payload s) := by
  unfold linkSend
  split
  · exact .refl s
  · split
    · exact ⟨_, rfl⟩
    · exact ⟨_, rfl⟩

theorem controlSend_only (code body s) : TwinOnly s (controlSend code body s) := linkSend_only ..
theorem hbSend_only (s) : TwinOnly s (hbSend s) := ⟨_, rfl⟩
theorem emitFrom_only (e a b s) : TwinOnly s (emitFrom e a b s) := ⟨_, rfl⟩
theorem emitByState_only (e s) : TwinOnly s (emitByState e s) := ⟨_, rfl⟩
theorem emitPlan_only (e a b s) : TwinOnly s (emitPlan e a b s) := ⟨_, rfl⟩
theorem emitLeave_only (before s) : TwinOnly s (emitLeave before s) := by
  unfold emitLeave
  split
  · exact .refl s
  · exact emitByState_only ..

theorem peerMoved_only (before s) : TwinOnly s (peerMoved before s) := by
  unfold peerMoved
  split
  · exact .refl s
  · exact (emitPlan_only ..).trans (controlSend_only ..)

theorem enterResync_only (joint s) : TwinOnly s (enterResync joint s) := by
  unfold enterResync
  extract_lets w t
  have h : TwinOnly s t := TwinOnly.trans ⟨_, rfl⟩ (emitLeave_only ..)
  clear_value t
  split
  · exact h
  · exact h.trans (controlSend_only ..)

/-- The operation writes the twin's state, the PTP domains and what an event writes. -/
def TwinEvent (s t : State) : Prop :=
  ∃ w ti e c b l, t = { s with twin := w, time := ti, ev := e, evc := c, bus := b, tcm := { s.tcm with evtLost := l } }

theorem TwinEvent.refl (s : State) : TwinEvent s s := ⟨s.twin, s.time, s.ev, s.evc, s.bus, s.tcm.evtLost, rfl⟩
theorem TwinEvent.trans {s t u : State} (h : TwinEvent s t) (k : TwinEvent t u) : TwinEvent s u := by
  obtain ⟨_, _, _, _, _, _, rfl⟩ := h
  obtain ⟨_, _, _, _, _, _, rfl⟩ := k
  exact ⟨_, _, _, _, _, _, rfl⟩
theorem TwinOnly.event {s t : State} (h : TwinOnly s t) : TwinEvent s t := by
  obtain ⟨w, rfl⟩ := h
  exact ⟨w, s.time, s.ev, s.evc, s.bus, s.tcm.evtLost, rfl⟩

theorem raiseAt_event (tick code arg s) : TwinEvent s (raiseAt tick code arg s) := by
  simp only [raiseAt, evcOccur]
  split
  · exact ⟨_, _, _, _, _, _, rfl⟩
  · exact ⟨s.twin, s.time, _, _, s.bus, s.tcm.evtLost, rfl⟩

theorem domSet_event (k d s) : TwinEvent s (domSet k d s) := by
  unfold domSet
  split
  · exact ⟨s.twin, _, s.ev, s.evc, s.bus, s.tcm.evtLost, rfl⟩
  · exact ⟨s.twin, _, s.ev, s.evc, s.bus, s.tcm.evtLost, rfl⟩

theorem domGm_event (k gm s) : TwinEvent s (domGm k gm s) := by
  unfold domGm
  extract_lets d s1 t
  have h1 : TwinEvent s s1 := domSet_event ..
  clear_value d s1
  split
  · exact h1
  · refine TwinEvent.trans (h1.trans ?_) (raiseAt_event ..)
    exact ⟨s1.twin, _, s1.ev, s1.evc, _, s1.tcm.evtLost, rfl⟩

theorem domLead_event (k s) : TwinEvent s (domLead k s) := by
  unfold domLead
  extract_lets d
  refine TwinEvent.trans ?_ (domGm_event ..)
  split
  · exact .refl s
  · exact domSet_event ..

theorem domDecide_event (expired k s) : TwinEvent s (domDecide expired k s) := by
  unfold domDecide
  extract_lets d can
  split
  · exact .refl s
  · split
    · split
      · exact domLead_event ..
      · exact domSet_event ..
    · split
      · exact domLead_event ..
      · exact (domSet_event ..).trans (domGm_event ..)

theorem stopActing_event (s) : TwinEvent s (stopActing s) := by
  have h : ∀ (l : List Nat) (s : State),
      TwinEvent s (l.foldl (fun s k => if (domGet k s).st = 4 then domDecide false k s else s) s) := by
    intro l
    induction l with
    | nil => exact .refl
    | cons k l ih =>
      intro s
      refine TwinEvent.trans ?_ (ih _)
      simp only []
      split
      · exact domDecide_event ..
      · exact .refl s
  exact TwinEvent.trans (TwinOnly.event ⟨_, rfl⟩) (h ..)

/-- A release of the token leaves every other block alone (R317). -/
theorem tokenRelease_event (fault s) : TwinEvent s (tokenRelease fault s) := by
  unfold tokenRelease
  split
  · exact .refl s
  · refine TwinEvent.trans ?_ (raiseAt_event ..)
    refine TwinEvent.trans ?_ ⟨_, _, _, _, _, _, rfl⟩
    refine TwinEvent.trans ?_ (emitByState_only ..).event
    refine TwinEvent.trans ?_ (controlSend_only ..).event
    refine TwinEvent.trans ?_ (hbSend_only ..).event
    exact (stopActing_event s).trans ⟨_, _, _, _, _, _, rfl⟩

theorem latentFault_only (s) : TwinOnly s (latentFault s) := by
  unfold latentFault
  split
  · exact TwinOnly.trans ⟨_, rfl⟩ (emitLeave_only ..)
  · exact .refl s

theorem tokenFault_event (fault s) : TwinEvent s (tokenFault fault s) := by
  unfold tokenFault
  split
  · exact tokenRelease_event ..
  · exact (latentFault_only s).event

end Sys2Proof.Machine
end

