-- ==== Sys2Proof/Tests/Slice0.lean ====
section
/-!
SUPPORT. Tests on small states: ill-formed commands that are refused by name, states that meet the hypotheses of the
statements together, and results that the spec gives in words.
-/
namespace Sys2Proof.Tests
set_option Elab.async false
open Sys2Proof Sys2Proof.Machine

/-- What a command answers: the next state's part that `f` reads. -/
def after {α : Type} (c : Instr) (s : State) (f : State → α) : Option α :=
  match exec c s with
  | .next t => some (f t)
  | _ => none

/-- The fault that a command answers. -/
def stop (c : Instr) (s : State) : Option Fault :=
  match exec c s with
  | .fault f => some f
  | _ => none

/-- A state with another register block of one field. -/
def withClk (f : Clk → Clk) (s : State) : State := { s with clk := f s.clk }
def withTwin (f : Twin → Twin) (s : State) : State := { s with twin := f s.twin }
def withImg (f : Image → Image) (s : State) : State := { s with img := f s.img }
def withMx (f : Matrix → Matrix) (s : State) : State := { s with mx := f s.mx }
def withSched (f : Sched → Sched) (s : State) : State := { s with sched := f s.sched }
def withMem (f : Mem → Mem) (s : State) : State := { s with mem := f s.mem }
def withNvm (f : Nvm → Nvm) (s : State) : State := { s with nvm := f s.nvm }
def withTcm (f : Tcm → Tcm) (s : State) : State := { s with tcm := f s.tcm }
def withTime (f : Time → Time) (s : State) : State := { s with time := f s.time }

/-- Out of reset, every clock gate open. -/
def on : State :=
  rset 0x1001003C 0 0xFFFFFFFF (rset 0x10010038 0 0xFFFFFFFF (rset 0x10010034 0 0xFFFFFF (rset 0x10010030 0 0x3FFFFFF
    (withClk (fun c => { c with inReset := false }) State.reset))))

/-- A unit that acts alone, in block 100. -/
def live : State :=
  { withTwin (fun t => { t with acts := true, starting := false }) on with
    grid := { Grid.reset with running := true, block := 100 } }

/-- A unit in LATENT with a partner over a link that is up. -/
def latent : State :=
  withImg (fun i => { i with twin := { i.twin with pair := true } }) { withTwin (fun t => { t with
    acts := false, starting := false, st := 1, linkUp := true }) on with
    grid := { Grid.reset with running := true, block := 100 } }

/-- A frame of the twin link. -/
def linked (type seq : Nat) (p : List Nat) : List Byte := (linkBytes type seq 0 p).map (BitVec.ofNat 8)

/-! ### Ill-formed commands -/

/-- Commands that name an instance above the last of each table, one for each check of WellFormed. -/
def illFormed0 : List Instr :=
  [.pllLock 6, .pllUnlock 6, .dividerStep 7 true, .latchedRead 5 0, .counterReadClear 5 0, .w1cWrite 5 0 0,
    .registerWrite 5 0 ⟨4, [0]⟩, .layDataRead 5, .memDataRead 0 64, .memDataRead 5 0, .sheetDataRead 5, .fxRegisterWrite 5 0 0,
    .nodeGainWrite 5 0, .kfPush 5, .fixCommit 5, .fixDiscard 5, .spkMute 5 0, .sapHold 5 0, .tgPause 5 0]
def illFormed1 : List Instr :=
  [.instanceDispatch 8 0, .instanceComplete 4096 [], .instanceRelease 4096 0, .deadlineMiss 4096 [] [],
    .blockMoveComplete 64 0 0, .blockMoveComplete 0 3 0, .crossfadeEnd 1024, .tgStart 16, .sweepStart 16,
    .stopCmdStop 5 false, .stopCmdStart 5 false, .convLoadData 5 0, .convLoadCommit 5, .deconvGo 5]
def illFormed2 : List Instr :=
  [.twinCmdRelease 5, .twinCmdHandover 5, .twinCmdRestart 5, .twinCmdResync 5, .frameReceive 5 [] false false 0 0,
    .netLinkChange 5 true ⟨true, false⟩, .txPacketSend 5, .ptpAnnounce 4, .ptpSync 4, .ptpFollowUp 4, .ptpDelayReq 4,
    .ptpDelayResp 4, .syncSend 2 0, .announceSend 2, .delayReqSend 2 0, .announceTimeout 2, .syncTimeout 2,
    .epochWrite 0 2 0, .epochWrite 5 0 0, .incWrite 5 0, .ptpStep 5]
def illFormed3 : List Instr :=
  [.serialFrame 24 0 0 [], .frameAbsentTimeout 24, .rateWindowEnd 24, .sapAlign 24 0, .complianceCheck 8 true 0 0,
    .complianceMuteEnd 8, .micMeasure 2 0, .hsDetChange 2 true, .hsInsertConfirm 2, .hsRemoveConfirm 2, .hsClassifyEnd 2,
    .hsButtonFade 2, .hsOutputResume 2, .ampCurrentLimit 2 true, .ampRetryWaitEnd 2, .ampResume 2, .ampCleanSecond 2,
    .ampDcWindow 2 0, .ampClear 5]
def illFormed4 : List Instr :=
  [.refreshDue 2 0 false [], .refreshDue 0 2 false [], .zqCalibration 2, .parityAlert 2 true, .alertTimeout 2,
    .alertNReturn 2, .dramReadComplete 0 8 0 0 0, .remapWrite 5 0, .dramWindowAccess 5 0 false ⟨4, 1, []⟩, .gateWrite 4 0,
    .nvmErase 5 0, .nvmProgram 5 0, .nvmCheck 5 0, .nvmDataWrite 5 0, .nvmDataRead 5, .evcSrcWrite 5 0, .evcSnap 5,
    .evcClearSel 5]
def illFormed : List Instr := [illFormed0, illFormed1, illFormed2, illFormed3, illFormed4].flatten

theorem test_wf_refuses : illFormed.all (fun c => !c.wf) = true := by decide +kernel

/-- The effect-core rows, of a core above the last. -/
theorem test_wf_refuses_cores :
    ([Instr.nop, .add, .sub, .addi, .and, .or, .xor, .asr, .lsl, .lsr, .abs, .neg, .min, .max, .cmp, .mov, .mul, .mac, .msu,
      .clra, .adda, .sha, .rnd, .lda, .maxs, .mins, .maxas, .movc, .movtc, .ldi, .cnop, .br, .call, .ret, .loop, .lbrk, .bmov,
      .waitm, .done].map (fun row => row 64 ⟨1, false, false, false, 0⟩)).all (fun c => !c.wf) = true := by decide +kernel

/-- Such a command stops by name, in any state; the highest instance is taken. -/
theorem test_fault_by_name : stop (.pllLock 6) on = some (.noSuchInstance "PLL" 6) := by decide +kernel
theorem test_wf_takes_last :
    ([.pllLock 5, .dividerStep 6 true, .memDataRead 4 63, .instanceComplete 4095 [], .blockMoveComplete 63 2 0,
      .crossfadeEnd 1023, .serialFrame 23 0 0 [], .gateWrite 3 0] : List Instr).all Instr.wf = true := by decide +kernel

/-! ### The whole machine -/

theorem test_reset_queue : State.reset.pending = [] ∧ on.pending = [] := by decide +kernel
theorem test_step_idles : step on = .next on := rfl
theorem test_step_front :
    step { on with pending := [.thermalResetRelease, .tcmRead] } = exec .thermalResetRelease { on with pending := [.tcmRead] } :=
  rfl
theorem test_memory_reset : State.reset.memOk = true := by decide +kernel
theorem test_memory_live : live.memOk = true := by decide +kernel
/-- A program operation that ends changes the flash (the premise of the statement on its writers). -/
def programming : State := withNvm (fun n => { n with op := 2, opAddr := 256, page := [(0, 0x12345678)] }) on
theorem test_flash_written :
    after (.nvmOpDone false) programming (fun t => decide (t.nvm.flash ≠ programming.nvm.flash)) = some true := by decide +kernel
theorem test_queue_ok : ∀ c ∈ ({ on with pending := [.thermalResetRelease, .pllLock 5] } : State).pending, c.wf = true := by
  decide +kernel
theorem test_completes : Instr.wf .tcmRead = true ∧ Instr.wf (.pllLock 6) = false := by decide +kernel

/-! ### Registers -/

theorem test_counter_read_clear :
    Serves 4 0x10010060 false (rset 0x10000310 0 1 on) ∧ accOf 0x10010060 = .rc ∧ Serves 0 0x10010060 false on := by
  unfold Serves; decide +kernel
theorem test_counter_read_clear_held :
    Serves 0 0x100B000C false on ∧ accOf 0x100B000C = .rc ∧ Serves 0 0x1004000C false on ∧ accOf 0x1004000C = .rc
      ∧ Serves 0 0x100AFC18 false on ∧ accOf 0x100AFC18 = .rc := by unfold Serves; decide +kernel
theorem test_latched_read_low :
    Serves 0 0x10000200 false on ∧ (0x10000200 ∈ lowWords ∧ accOf 0x10000200 ≠ .rc) := by unfold Serves; decide +kernel
theorem test_latched_read_high :
    Serves 2 0x10000204 false on ∧ isLatched 0x10000204 = true ∧ accOf 0x10000204 ≠ .rc ∧ 0x10000204 ∉ lowWords := by
  unfold Serves; decide +kernel
/-- What is latched is answered later (R537): the block number of the read of its low word. -/
theorem test_latch_value :
    (after (.latchedRead 0 0x10000200) { live with grid := { live.grid with block := 2 ^ 32 + 5 } }
      (fun t => (sget 0 0 t.bus.rdata, latchOf 0 0x10000204 t))) = some (5, some 1) := by decide +kernel
/-- Every register of status bits is served, to the first and the last master that may write it. -/
theorem test_status_bits_served :
    ∀ a ∈ [0x10000210, 0x10010008, 0x10030060, 0x100C0008, 0x100C002C, 0x100B0018, 0x100D0010, 0x100E0020, 0x100F001C,
      0x1010000C, 0x1011000C, 0x1014000C, 0x100D0064, 0x10140040, 0x1014005C], Serves 0 a true on := by
  unfold Serves; decide +kernel
/-- A bit written as 1 is cleared, a bit written as 0 stays. -/
theorem test_status_bits :
    after (.w1cWrite 0 0x10010008 0x100)
      (withClk (fun c => { c with refLoss := true, pllUnlock := true }) on) (fun t => (t.clk.refLoss, t.clk.pllUnlock))
      = some (false, true) := by decide +kernel
theorem test_plain_write :
    (Serves 2 0x10080004 true on ∧ accOf 0x10080004 = .rw ∧ heldByState 0x10080004 = false)
      ∧ (Serves 2 0x10010014 true on ∧ Serves 2 0x10010040 true on)
      ∧ (Serves 2 0x10000000 true on ∧ accOf 0x10000000 = .ro ∧ accOf 0x1017FFFC = .none ∧ Serves 2 0x1017FFFC true on) := by
  unfold Serves; decide +kernel
theorem test_plain_write_value :
    after (.registerWrite 2 0x10080004 ⟨4, [0xFFFFFFFF]⟩) on (rget 0x10080004 2) = some 0x7FF := by decide +kernel
theorem test_indirect_reads :
    Serves 0 0x10060034 false on ∧ Serves 0 0x10140090 false on ∧ Serves 0 (ecAddr 0 0x44) false on
      ∧ Serves 0 (ecAddr 63 0x44) false on := by unfold Serves; decide +kernel
/-- The address of a context-sheet read wraps at 2^16. -/
theorem test_sheet_read_wraps :
    after (.sheetDataRead 0) (rset 0x1014008C 0 0xFFFC on) (rget 0x1014008C 0) = some 0 := by decide +kernel
/-! ### Reset, clocks and boot -/

/-- Each reset's premises: out of reset, a clock fault, SV's write served; and a second trigger while in reset. -/
theorem test_resets_premises :
    on.clk.inReset = false ∧ on.clk.faultAt = none
      ∧ ((withClk (fun c => { c with faultAt := some 5 }) on).clk.inReset = false
        ∧ (withClk (fun c => { c with faultAt := some 5 }) on).clk.faultAt = some 5)
      ∧ Serves 0 0x1002001C true on ∧ State.reset.clk.inReset = true := by
  unfold Serves; decide +kernel
/-- A clock fault is reset after 20 ms, 640,000 SAFE cycles (R533). -/
theorem test_clock_fault_time :
    after .clockFaultReset (withClk (fun c => { c with faultAt := some 5 }) on) (fun t => (t.clk.cause, t.clk.safe))
      = some (8, 640005) := by decide +kernel
/-- A second cause joins the first (R542). -/
theorem test_reset_causes_join : after .resetNLow State.reset (fun t => t.clk.cause) = some 3 := by decide +kernel
/-- In reset, with PGOOD high and the junction cool; PGOOD low; and held until the junction cools. -/
def powered : State := withClk (fun c => { c with pgood := true }) State.reset
theorem test_release_premises :
    (powered.clk.inReset = true ∧ powered.clk.pgood = true ∧ powered.clk.hotHold = false)
      ∧ State.reset.clk.pgood = false ∧ (withClk (fun c => { c with hotHold := true }) powered).clk.hotHold = true := by
  decide +kernel
theorem test_release_starts_boot :
    after (.resetRelease true false 10) powered (fun t => (t.clk.inReset, t.clk.step, t.twin.home)) = some (false, 1, true) := by
  decide +kernel
/-- THERMAL_WARN at both of its thresholds (R626, R547): 100 °C sets it, 97 °C keeps it, below clears it. -/
theorem test_thermal_warn :
    (after (.thermalWarn 400) on (fun t => t.clk.warn), after (.thermalWarn 399) on (fun t => t.clk.warn),
      after (.thermalWarn 388) (withClk (fun c => { c with warn := true }) on) (fun t => t.clk.warn),
      after (.thermalWarn 387) (withClk (fun c => { c with warn := true }) on) (fun t => t.clk.warn))
      = (some true, some false, some true, some false) := by decide +kernel
theorem test_watchdog_premises :
    Serves 0 0x10020014 true on ∧ on.nvm.applied = false ∧ (withNvm (fun n => { n with applied := true }) on).nvm.applied = true := by
  unfold Serves; decide +kernel
/-- The reference: seven passing windows and an eighth, the last failing count below and above; a qualified one that fails. -/
def windows7 : State := withClk (fun c => { c with refRun := 7, step := 2 }) on
def qualified : State := withClk (fun c => { c with refOk := true, refBad := 1, trim := 512 }) on
theorem test_reference_premises :
    on.clk.inReset = false ∧ on.clk.refOk = false ∧ (¬(24500 ≤ 24499 ∧ 24499 ≤ 25500)) ∧ (24500 ≤ 24500 ∧ 24500 ≤ 25500)
      ∧ on.clk.refRun + 1 < 8 ∧ windows7.clk.inReset = false ∧ windows7.clk.refOk = false ∧ 8 ≤ windows7.clk.refRun + 1
      ∧ windows7.clk.step = 2 ∧ qualified.clk.inReset = false ∧ qualified.clk.refOk = true ∧ qualified.clk.refBad ≠ 0
      ∧ (withClk (fun c => { c with refBad := 0 }) qualified).clk.refOk = true := by decide +kernel
/-- Count 25,501 is outside the window of R523, 25,500 within it. -/
theorem test_reference_edge :
    (after (.refWindowEnd 25501 []) windows7 (fun t => t.clk.refOk), after (.refWindowEnd 25500 []) windows7 (fun t => t.clk.refOk))
      = (some false, some true) := by decide +kernel
/-- Trim windows: just beyond 2 %, just within it before and after the first window. -/
theorem test_trim_premises :
    (qualified.clk.refOk = true ∧ qualified.clk.trimSrcCfg = 0 ∧ qualified.clk.trim < 1024)
      ∧ (32000000 : Nat) < 50 * ((32640001 : Int) - 32000000).natAbs ∧ ¬ (32000000 : Nat) < 50 * ((32640000 : Int) - 32000000).natAbs
      ∧ qualified.clk.trimDone = false
      ∧ 0 ≤ (qualified.clk.trim : Int) - rhu (((32640000 : Int) - 32000000) * 10 ^ 4) 32000000
      ∧ (qualified.clk.trim : Int) - rhu (((31360000 : Int) - 32000000) * 10 ^ 4) 32000000 < 1024
      ∧ (0 < qualified.clk.trim ∧ qualified.clk.trim < 1023)
      ∧ (withClk (fun c => { c with trimDone := true }) qualified).clk.trimDone = true := by decide +kernel
/-- 3,200 cycles above a second at the reference is 100 ppm, one step (R519). -/
theorem test_trim_step :
    after (.trimWindowEnd 32003200) qualified (fun t => t.clk.trim) = some 511 := by decide +kernel
/-- A programmed PLL, a locked one, and a locked CPLL with CTRL on it. -/
def locked : State :=
  withClk (fun c => { c with
    pll := [(0, { Pll.reset with locked := true }), (5, { Pll.reset with locked := true })]
    dom := [(1, { Dom.reset with src := 1 })] }) (rset 0x10010014 5 0x80000000 on)
theorem test_pll_premises :
    bit 31 (rget 0x10010014 5 locked) = true ∧ (pllGet 5 locked).locked = true ∧ (pllGet 0 locked).locked = true
      ∧ (domainGet 1 locked).src ≠ 0 := by decide +kernel
/-- DOM_SWITCH_GO: of a domain that does not switch; a switch in progress; a stopped source; a domain that does not change;
CTRL, the first that changes. -/
def switching : State := withClk (fun c => { c with dom := [(1, { Dom.reset with src := 0, dest := some 1 })] }) (rset 0x10010020 0 1 on)
theorem test_switch_premises :
    (Serves 0 0x10010024 true on ∧ rget 0x10010020 0 on = 0 ∧ (domainGet 0 on).dest.isSome = false)
      ∧ (Serves 0 0x10010024 true switching ∧ (domainGet 1 switching).dest.isSome = true)
      ∧ (pllGet (pllOf 0) on).locked = false ∧ on.grid.running = false
      ∧ (rget 0x10010020 0 (rset 0x10010020 0 1 on) = 1 ∧ (domainGet 1 (rset 0x10010020 0 1 on)).dest.isSome = false)
      ∧ rget 0x10010020 0 (rset 0x10010020 0 6 on) = 6 := by unfold Serves; decide +kernel
/-- A switch before, at and after the change of the multiplexer. -/
def stepping (src div : Nat) (moved : Bool) : State :=
  withClk (fun c => { c with dom := [(6, { Dom.reset with src := src, div := div, dest := some 1, moved := moved })] }) on
theorem test_divider_premises :
    ∀ x ∈ [(0, 3, false), (0, 4, false), (2, 0, false), (1, 4, true), (1, 2, true), (1, 1, true)],
      (domainGet 6 (stepping x.1 x.2.1 x.2.2)).dest = some 1 ∧ (domainGet 6 (stepping x.1 x.2.1 x.2.2)).moved = x.2.2
        ∧ (domainGet 6 (stepping x.1 x.2.1 x.2.2)).div = x.2.1 ∧ (domainGet 6 (stepping x.1 x.2.1 x.2.2)).src = x.1 := by
  decide +kernel
/-- The divider is at a sixteenth, so the multiplexer changes (R529). -/
theorem test_divider_moves :
    after (.dividerStep 6 true) (stepping 0 4 false) (fun t => ((domainGet 6 t).src, (domainGet 6 t).moved)) = some (1, true) := by
  decide +kernel

/-- Boot ledger states by step. -/
def booting (step islands : Nat) : State := withClk (fun c => { c with step := step, islands := islands }) on
/-- Step 3 with the fixed PLLs locked and CTRL on its own, step 7 with both channels trained. -/
def fixedOn : State :=
  withClk (fun c => { c with
    step := 3, pll := (List.range 5).map (fun p => (p, { Pll.reset with locked := true }))
    dom := [(1, { Dom.reset with src := 1 })] }) on
def trainedOn : State :=
  withMem (fun m => { m with ch0 := { m.ch0 with trained := true }, ch1 := { m.ch1 with trained := true } })
    (withClk (fun c => { c with step := 7, pll := [(5, { Pll.reset with locked := true })] }) on)
theorem test_boot_premises :
    (∀ i ∈ [0, 15], bit i (booting 4 (2 ^ i - 1)).clk.islands = false ∧ ∀ j < i, bit j (booting 4 (2 ^ i - 1)).clk.islands = true)
      ∧ (on.clk.inReset = false ∧ on.clk.testMode = false ∧ on.nvm.recovery = false)
      ∧ islandCount (booting 4 0xFFFF) = 16 ∧ islandCount (booting 4 0x7FFF) ≠ 16
      ∧ (∀ k ∈ [1, 2, 3, 4, 5, 6, 8, 9, 10], (booting k 0).clk.step = k ∧ (booting k 0).clk.inReset = false)
      ∧ (withClk (fun c => { c with refOk := true }) (booting 2 0)).clk.refOk = true
      ∧ ((∀ p < 5, (pllGet p fixedOn).locked = true) ∧ (domainGet 1 fixedOn).src = 1 ∧ fixedOn.clk.step = 3)
      ∧ (trainedOn.clk.step = 7 ∧ trainedOn.mem.ch0.trained = true ∧ trainedOn.mem.ch1.trained = true
        ∧ (pllGet 5 trainedOn).locked = true)
      ∧ (withTime (fun t => { t with lock := true }) (booting 9 0)).time.lock = true
      ∧ (withNvm (fun n => { n with applied := true }) (booting 8 0)).nvm.applied = true
      ∧ (withTwin (fun t => { t with starting := false }) (booting 10 0)).twin.starting = false := by decide +kernel
theorem test_gate_premises : ∀ g < 4, Serves 0 (0x10010030 + 4 * g) true on := by unfold Serves; decide +kernel
theorem test_island_order : after .islandStart (booting 4 0x7FFF) (fun t => t.clk.islands) = some 0xFFFF := by decide +kernel
/-- Training: no failure yet, one failure of channel 0 with channel 1 trained. -/
def training (fails : Nat) : State :=
  withMem (fun m => { m with ch0 := { m.ch0 with fails := fails }, ch1 := { m.ch1 with trained := true } }) (booting 7 0)
theorem test_training_premises :
    (training 0).clk.inReset = false ∧ (training 0).clk.step = 7 ∧ (training 0).nvm.recovery = false
      ∧ (training 0).mem.ch0.trained = false ∧ (training 0).mem.ch0.fails = 0 ∧ (training 1).mem.ch0.trained = false
      ∧ (training 1).mem.ch0.fails = 1 ∧ (training 1).mem.ch1.trained = true ∧ (training 1).mem.ch1.fails = 0 := by decide +kernel
theorem test_training_fails :
    after (.trainingRetry (some (6, 15)) none) (training 1) (fun t => (t.mem.ch0.failStep, t.mem.ch0.failLane, t.ev.eseq))
      = some (6, 15, 1) := by decide +kernel
/-- A copy A whose body is empty, with a header hash: SHA-256 of no bytes (FIPS 180-4), or another. -/
def imaged (hash : List Nat) : State :=
  withNvm (fun n => { n with
    flash := (16, 0) :: (17, 0) :: (18, 0) :: (19, 0)
      :: hash.zipIdx.map (fun x => (32 + x.2, BitVec.ofNat 8 x.1)) }) (booting 8 0)
def emptyHash : List Nat :=
  beBytes 32 0xe3b0c44298fc1c149afbf4c8996fb92427ae41e4649b934ca495991b7852b855
theorem test_image_premises :
    ((imaged emptyHash).clk.inReset = false ∧ (imaged emptyHash).clk.step = 8 ∧ (imaged emptyHash).nvm.applied = false
      ∧ (imaged emptyHash).nvm.recovery = false)
      ∧ sha256 (bodyOf false (imaged emptyHash)) = slice 32 32 (headerOf false (imaged emptyHash))
      ∧ sha256 (bodyOf false (imaged [])) ≠ slice 32 32 (headerOf false (imaged [])) := by decide +kernel
/-- A body that ends before its first record fails with code 5, a false hash with code 4. -/
theorem test_image_errors :
    (after .imageApply (imaged emptyHash) (fun t => (t.nvm.errCode, t.nvm.errRecord)),
      after .imageApply (imaged []) (fun t => (t.nvm.errCode, t.nvm.errRecord))) = (some (5, 1), some (4, 0)) := by decide +kernel
/-- A unit that starts, without and with a handshake; and one in ALONE at step 11. -/
theorem test_audio_premises :
    (on.clk.inReset = false ∧ on.twin.starting = true ∧ on.twin.hbAt = none ∧ on.twin.handshake = false)
      ∧ (withTwin (fun t => { t with handshake := true }) on).twin.handshake = true
      ∧ (booting 11 0).clk.step = 11 ∧ (booting 11 0).clk.audio = false ∧ (booting 11 0).twin.st = 0
      ∧ (booting 11 0).img.objs = [] := by decide +kernel
/-- The grid starts at the proposed block (R550). -/
theorem test_audio_start :
    after .audioStart (withTwin (fun t => { t with proposal := 77 }) (booting 11 0)) (fun t => (t.grid.running, t.grid.block))
      = some (true, 77) := by decide +kernel
/-! ### Effect cores -/

/-- A program of 16 bundles in bundle addresses 0 to 15, with an INPUT, an OUTPUT and a PERSISTENT region in X. -/
def prog : EcProg := ⟨0, 0, false, 0, List.replicate 16 0, 0, 0x1000, 0x100,
  [⟨false, 0, 4, 0, 0, false, []⟩, ⟨false, 4, 4, 1, 0, false, []⟩, ⟨false, 8, 8, 4, 0, false, []⟩]⟩
def ctx : EcCtx := ctxNew prog 0 0 0 0 1 2
def env : EcEnv := ⟨1, false, false, false, 0⟩
/-- The last core, about to issue the bundle `w` in the context `c`. -/
def coreAt (w : Nat) (c : EcCtx) : State :=
  { live with ec := { Effect.reset with cores := [(63, ⟨[c], 0, 0, 0, 0⟩)], text := [(63 * 8192, w)], progs := [prog] } }
def none_ : MoveSlot := ⟨0, 0, 0, 0, 0, 0⟩
theorem issues_of {b : Bundle} {c : EcCtx} {w : Nat}
    (h : fetched 63 (coreAt w c) = some (c, prog, some w) ∧ decodeBundle w = b) :
    Issues 63 b env c prog (coreAt w c) := ⟨by decide, rfl, w, h⟩
/-- Every compute operation, its word written out from the bundle format: the code in bits 61 to 56. -/
theorem test_compute_issues (op : Nat) (h : op < 0x1D) :
    Issues 63 (.a ⟨op, false, 0, 0, 0, 0⟩ none_ none_) env ctx prog (coreAt (op * 2 ^ 56) ctx) :=
  issues_of ((by decide +kernel : ∀ op < 0x1D, fetched 63 (coreAt (op * 2 ^ 56) ctx) = some (ctx, prog, some (op * 2 ^ 56))
    ∧ decodeBundle (op * 2 ^ 56) = .a ⟨op, false, 0, 0, 0, 0⟩ none_ none_) op h)
/-- Every field of a compute slot at its last value: S in bit 55, D in 54 to 51, SA in 50 to 47, SB in 46 to 43, IMM in 42 to
36. -/
theorem test_compute_fields :
    decodeBundle 0x01FFFFF000000000 = .a ⟨1, true, 15, 15, 15, 127⟩ none_ none_ := by decide +kernel
/-- MOVC and MOVTC with register codes at the ends of their ranges. -/
theorem test_code_issues (op code : Nat) (h : op = 0x1B ∨ op = 0x1C)
    (hc : code ∈ [0, 0x0F, 0x10, 0x17, 0x18, 0x1F, 0x20, 0x21, 0x22, 0x24, 0x25, 0x28, 0x29, 0x3F]) :
    Issues 63 (.a ⟨op, false, 0, 0, 0, code⟩ none_ none_) env ctx prog (coreAt (op * 2 ^ 56 + code * 2 ^ 36) ctx) :=
  issues_of ((by decide +kernel : ∀ op ∈ [0x1B, 0x1C], ∀ code ∈ [0, 0x0F, 0x10, 0x17, 0x18, 0x1F, 0x20, 0x21, 0x22, 0x24,
      0x25, 0x28, 0x29, 0x3F],
    fetched 63 (coreAt (op * 2 ^ 56 + code * 2 ^ 36) ctx) = some (ctx, prog, some (op * 2 ^ 56 + code * 2 ^ 36))
      ∧ decodeBundle (op * 2 ^ 56 + code * 2 ^ 36) = .a ⟨op, false, 0, 0, 0, code⟩ none_ none_) op (by simpa using h) code hc)
/-- LDI: format 1, the code in bits 61 to 56, the immediate in bits 31 to 0. -/
theorem test_ldi_issues (r : Nat) (h : r ∈ [0, 0x0F, 0x10, 0x3F]) :
    Issues 63 (.b r 0xFFFFFFFF) env ctx prog (coreAt (2 ^ 62 + r * 2 ^ 56 + 0xFFFFFFFF) ctx) :=
  issues_of ((by decide +kernel : ∀ r ∈ [0, 0x0F, 0x10, 0x3F],
    fetched 63 (coreAt (2 ^ 62 + r * 2 ^ 56 + 0xFFFFFFFF) ctx) = some (ctx, prog, some (2 ^ 62 + r * 2 ^ 56 + 0xFFFFFFFF))
      ∧ decodeBundle (2 ^ 62 + r * 2 ^ 56 + 0xFFFFFFFF) = .b r 0xFFFFFFFF) r h)
/-- Control operations: the code in bits 61 to 57; a count of 0 and of 1 in d0, no move and four moves outstanding. -/
def mover : EcCtx := { ctx with bmExt := 0x1000, bmLoc := 8, bmLen := 8, d := ctx.d.set 0 1 }
def full : EcCtx := { mover with moves := List.replicate 4 (moveOf mover) }
theorem test_control_issues (op : Nat) (h : op < 9) (c : EcCtx) (hc : c ∈ [ctx, mover, full]) :
    Issues 63 (.c ⟨op, 0, 0, 0⟩ none_ none_) env c prog (coreAt (2 ^ 63 + op * 2 ^ 57) c) :=
  issues_of ((by decide +kernel : ∀ op < 9, ∀ c ∈ [ctx, mover, full],
    fetched 63 (coreAt (2 ^ 63 + op * 2 ^ 57) c) = some (c, prog, some (2 ^ 63 + op * 2 ^ 57))
      ∧ decodeBundle (2 ^ 63 + op * 2 ^ 57) = .c ⟨op, 0, 0, 0⟩ none_ none_) op h c hc)
theorem test_control_premises :
    ctx.looping 0 = false ∧ ctx.looping 1 = false ∧ (ctx.d.getD 0 0).toNat % 65536 = 0 ∧ (mover.d.getD 0 0).toNat % 65536 ≠ 0
      ∧ mover.moves.length < 4 ∧ moveOk prog (moveOf mover) = true ∧ 4 ≤ full.moves.length ∧ ctx.moves = [] ∧ full.moves ≠ [] := by
  decide +kernel
/-- COND in bits 56 to 53, REG in 52 to 49, TARGET in 48 to 36. -/
theorem test_control_fields :
    decodeBundle 0x91FFFFF000000000 = .c ⟨8, 15, 15, 8191⟩ none_ none_ := by decide +kernel
/-- Sequences of bundles: nothing owed; two and one delay slots; the last bundle of a loop above and at a count of 1. -/
theorem test_sequence_premises :
    (ctx.delay = none ∧ ctx.loops = []) ∧ ({ ctx with delay := some (2, none) } : EcCtx).loops = []
      ∧ 1 < ({ ctx with loops := [⟨1, 3, 5⟩], lc1 := 2 } : EcCtx).lc 1 ∧ ({ ctx with loops := [⟨1, 3, 5⟩], lc1 := 1 } : EcCtx).lc 1 ≤ 1
      ∧ ({ ctx with loops := [⟨1, 3, 5⟩] } : EcCtx).delay = none
      ∧ (let z : EcCtx := { ctx with loops := [⟨1, 3, 5⟩, ⟨0, 2, 5⟩], lc0 := 2, lc1 := 1 }
        z.delay = none ∧ z.lc 1 ≤ 1 ∧ 1 < z.lc 0 ∧ (1 : Nat) ≠ 0)
      ∧ (let z : EcCtx := { ctx with loops := [⟨1, 3, 4⟩, ⟨0, 2, 5⟩], lc0 := 2 }
        z.delay = none ∧ 1 < z.lc 0) := by decide +kernel
/-- Two loops that end together: the inner is left and the outer goes back (R275). -/
theorem test_loops_end_together :
    (fun z => (z.pc, z.loops.length, z.lc 0)) (advance 5 { ctx with loops := [⟨1, 3, 5⟩, ⟨0, 2, 5⟩], lc0 := 2, lc1 := 1 })
      = (2, 1, 1) := by decide +kernel
/-- The address of the next bundle wraps at 8,192. -/
theorem test_sequence_wraps : (advance 8191 ctx).pc = 0 := by decide +kernel
/-- An X load of word 0, an X store of word 8 of a PERSISTENT region, and a load outside every region. -/
def load : MoveSlot := ⟨1, 1, 0, 0, 2, 0⟩
def store : MoveSlot := ⟨2, 1, 0, 0, 2, 0⟩
def pointing (p0 : Nat) : EcCtx := { ctx with p := ctx.p.set 0 p0, d := ctx.d.set 1 0x80000001 }
theorem test_move_issues :
    Issues 63 (.a ⟨0, false, 0, 0, 0, 0⟩ load none_) env (pointing 0) prog (coreAt 0x0000000442000000 (pointing 0))
      ∧ Issues 63 (.a ⟨0, false, 0, 0, 0, 0⟩ store none_) env (pointing 8) prog (coreAt 0x0000000842000000 (pointing 8))
      ∧ Issues 63 (.a ⟨0, false, 0, 0, 0, 0⟩ load none_) env (pointing 16) prog (coreAt 0x0000000442000000 (pointing 16))
      ∧ Issues 63 (.a ⟨0, false, 0, 0, 0, 0⟩ store none_) env (pointing 0x2000) prog (coreAt 0x0000000842000000 (pointing 0x2000)) :=
  ⟨issues_of (by decide +kernel), issues_of (by decide +kernel), issues_of (by decide +kernel),
    issues_of (by decide +kernel)⟩
theorem test_move_premises :
    (regionAt prog false (effAddr (nth 0 (pointing 0).p 0) 0)).isSome = true
      ∧ ((regionAt prog false (effAddr (nth 0 (pointing 8).p 0) 0)).map EcRegion.kind) = some 4
      ∧ regionAt prog false (effAddr (nth 0 (pointing 16).p 0) 0) = none ∧ 0x2000 ≤ effAddr (nth 0 (pointing 0x2000).p 0) 0
      ∧ (pointing 0).moves = [] ∧ (coreAt 0 ctx).ec.poison = [] ∧ env.xBad = false := by decide +kernel
/-- A store lands at once, and the address moves on (R271, R276). -/
theorem test_store_lands :
    after (.nop 63 env) (coreAt 0x0000000842000000 (pointing 8)) (fun t => (coreWord 63 false 8 t,
      (coreGet 63 t).ctxs.map (fun c => nth 0 c.p 0))) = some (0x80000001, [9]) := by decide +kernel
/-- A sum above the largest value saturates with S = 1 and sets sr.SAT (R279). -/
theorem test_add_saturates :
    after (.add 63 env) (coreAt 0x0188880000000000 { ctx with d := ctx.d.set 1 0x7FFFFFFF })
      (fun t => (coreGet 63 t).ctxs.map (fun c => (c.d.getD 1 0, c.sat))) = some [(0x7FFFFFFF, true)] := by decide +kernel
/-- Moves of the program: out of and into the region of word 8. -/
theorem test_block_move_premises :
    (coreGet 63 (coreAt 0 full)).ctxs.find? (fun c => decide (c.bank = 2)) = some full ∧ full.moves[3]? = some ⟨0x1000, false, 8, 8, false⟩
      ∧ (coreAt 0 full).ec.progs[full.prog]? = some prog ∧ (regionAt prog false 8).isSome = true
      ∧ (moveOf { mover with bmLen := 0x10008 }).out = true
      ∧ (coreAt 0 full).ec.poison = [] ∧ inDram 0x1000 32 (coreAt 0 full) = true
      ∧ (0x1000 : Nat) % 4 = 0
      ∧ (let c : EcCtx := { full with moves := [⟨2 ^ 40, false, 8, 8, true⟩] }
        (coreGet 63 (coreAt 0 c)).ctxs.find? (fun c => decide (c.bank = 2)) = some c
          ∧ inDram (2 ^ 40) 32 (coreAt 0 c) = false) := by decide +kernel
/-! ### The staged set and fixes -/

/-- The grid runs in a unit that does not act. -/
def idle : State := withTwin (fun t => { t with acts := false }) live
/-- A unit that acts with an open set of this many registers, nodes and keyframes. -/
def opened (regs nodes kfs : Nat) : State :=
  withMx (fun x => { x with open_ := { x.open_ with
    regCount := regs, nodeCount := nodes, kfs := List.replicate kfs [] } }) live
theorem test_fx_premises :
    (accOf 0x10050070 = .fx ∧ 0x10050070 ∉ [0x1007002C, 0x100500B8, 0x10090030])
      ∧ (∀ a ∈ [0x10050070, 0x1007002C, 0x100500B8], Serves 0 a true live ∧ Serves 2 a true live ∧ Serves 0 a true idle)
      ∧ takesOwn live = true ∧ takesOwn idle = false
      ∧ (∀ s ∈ [opened 16383 262143 63, opened 16384 262144 64], takesOwn s = true
        ∧ ∀ a ∈ [0x10050070, 0x1007002C, 0x100500B8], Serves 0 a true s)
      ∧ (opened 16383 262143 63).mx.open_.kfs.length < 64 ∧ 64 ≤ (opened 16384 262144 64).mx.open_.kfs.length := by
  unfold Serves; decide +kernel
/-- The last register of a set goes in, one more overflows it (R154). -/
theorem test_fx_room :
    (after (.fxRegisterWrite 0 0x10050070 5) (opened 16383 0 0) (fun t => (t.mx.open_.regCount, t.mx.open_.overflow)),
      after (.fxRegisterWrite 0 0x10050070 5) (opened 16384 0 0) (fun t => (t.mx.open_.regCount, t.mx.open_.overflow)))
      = (some (16384, false), some (16384, true)) := by decide +kernel
/-- An open set with a committed load of slot 3, which a commit has marked. -/
def committed : State :=
  { withMx (fun x => { x with open_ := { x.open_ with regs := [(rkey commitAddr 3, 1)], regCount := 1 } }) live with
    slot := [(3, ⟨1, true⟩)] }
theorem test_fix_request_premises :
    Serves 0 0x10160018 true committed ∧ takesOwn committed = true ∧ Serves 0 0x10160018 true idle ∧ takesOwn idle = false
      ∧ 3 ∈ commitsOf committed.mx.open_ ∧ 2 ∉ commitsOf committed.mx.open_ := by unfold Serves; decide +kernel
theorem test_fix_discard_frees :
    after (.fixDiscard 0) committed (fun t => ((slotGet 3 t).state, (slotGet 3 t).committed, t.mx.open_.regs.length))
      = some (0, false, 0) := by decide +kernel
/-- A fix pending for block `act`, and one request for a block. -/
def aFix (act : Nat) : Fix := ⟨act, act, false, Staged.empty, 90⟩
def asking (n : Nat) (p : List Fix) (ovf : Bool) (s : State) : State :=
  withMx (fun x => { x with requests := [⟨n, 99, none⟩], pending := p, open_ := { x.open_ with overflow := ovf } }) s
theorem test_fix_register_premises :
    (∀ s ∈ [asking 102 [] false live, asking 101 [] false idle, asking 300 (List.replicate 16 (aFix 101)) false live,
        asking 524389 [] false live, asking 524388 [] true live],
      s.grid.running = true ∧ (s.mx.requests.map FixReq.got) = [99] ∧ (99 < s.grid.block)
        ∧ ∀ f ∈ s.mx.pending, s.grid.block < f.act)
      ∧ takesOwn (asking 101 [] false idle) = false ∧ takesOwn (asking 102 [] false live) = true
      ∧ (live.grid.block + 524288 < 524389 ∧ 524388 ≤ live.grid.block + 524288) := by decide +kernel
/-- The result codes at the ends of the named blocks (R158): the block in which the request came to its tick is late, one more
is in time, and so is the last one of 524,288. -/
theorem test_fix_codes :
    ([101, 102, 524388, 524389].map (fun n => after .fixRegister (asking n [] false live) (fun t => t.mx.result)))
      = [some 1, some 0, some 0, some 4] := by decide +kernel
/-- A fix whose block has come, with one register write, with none, and with its gain set prepared. -/
def acting (regs : List (Nat × Nat)) (p : Option Nat) : State :=
  withMx (fun x => { x with
    pending := [{ aFix 100 with set := { Staged.empty with regs := regs } }, aFix 101], prepared := p }) live
theorem test_fix_act_premises :
    (∀ s ∈ [acting [] none, acting [(rkey 0x10050070 0, 7)] (some 100)], s.grid.running = true
      ∧ (s.mx.pending.filter (fun g => decide (g.act ≤ s.grid.block))).length = 1)
      ∧ (acting [(rkey 0x10050070 0, 7)] (some 100)).mx.prepared = some 100 ∧ 0x10050070 ≠ commitAddr ∧ 0 < 65536 := by
  decide +kernel
theorem test_fix_acts :
    after .fixAct (acting [(rkey 0x10050070 0, 7)] (some 100)) (fun t => (t.mx.liveB, t.mx.pending.length)) = some (true, 1) := by
  decide +kernel

/-! ### Requests and the stop bath -/

/-- A unit whose serial port 0 receives and whose tone generator 0 is placed and runs. -/
def tone : ToneGen := ⟨2, false, true, false, 0, 0, 0, 0, 0, none, 0, 0⟩
def ported (s : State) : State :=
  { withImg (fun i => { i with
      ports := [⟨1, 0, 2, 32, 0, 24, none, 3, 0⟩, ⟨2, 0, 2, 32, 0, 24, none, 3, 0⟩], tgLanes := [some 5] }) s with
    tg := [(0, tone)] }
def asked (k : ReqKind) (s : State) : State :=
  withSched (fun x => { x with reqWait := [⟨k, none, 0, 0, false, 99⟩], dl1 := [⟨k, none, 100, 51200, false, 98⟩] }) (ported s)
theorem test_request_premises :
    (∀ a ∈ [0x10080040, 0x100D0050, 0x10170040], Serves 0 a true (ported live))
      ∧ reqTarget (ported live) (.hold 0 true false) = true ∧ reqTarget (ported live) (.hold 191 true false) = false
      ∧ reqTarget (ported live) (.pause 0 true) = true
      ∧ (∀ k ∈ [ReqKind.mute 0 true 3, .hold 1 true true, .hold 0 false false, .pause 0 true, .pause 0 false],
        (asked k live).grid.running = true ∧ (asked k live).sched.reqWait.all (reqDue (asked k live)) = true
          ∧ (asked k live).sched.dl1.all (dl1Due (asked k live)) = true)
      ∧ ((tgGet 0 (ported live)).running = true ∧ (tgGet 0 (ported live)).pause = 0)
      ∧ (tgGet 0 ({ ported live with tg := [(0, { tone with pause := 2 })] })).pause = 2 := by unfold Serves; decide +kernel
/-- A hold of an output at high impedance acts at its boundary (R442). -/
theorem test_hold_acts :
    after .requestAct (asked (.hold 1 true true) live) (fun t => ((portGet 1 t).holds, t.sched.dl1.length))
      = some ([(51200, 2)], 0) := by decide +kernel
/-- A stop request of serial port 0, of a port that is not enabled, and a START of a port that is IDLE. -/
def stopping (start : Bool) (i st : Nat) (s : State) : State :=
  withSched (fun x => { x with stopWait := [⟨start, 1, i, none, 0, 99, none⟩], fn := [(65536, ⟨st, false, 90, 0⟩)] }) (ported s)
theorem test_stop_request_premises :
    Serves 0 0x1004004C true live ∧ Serves 0 0x1004004C true idle
      ∧ (∀ s ∈ [stopping false 0 0 live, stopping true 0 4 live, stopping false 191 0 live, stopping false 0 0 idle,
        stopping false 0 2 live],
        s.grid.running = true ∧ (s.sched.stopWait.map StopReq.got) = [99] ∧ 99 < s.grid.block ∧ s.sched.dl3.length < 1024)
      ∧ fnExists 1 0 (stopping false 0 0 live) = true ∧ fnExists 1 191 (stopping false 191 0 live) = false
      ∧ (fnGet 1 0 (stopping true 0 4 live)).st = 4 ∧ (fnGet 1 0 (stopping false 0 2 live)).st ≠ 0 := by unfold Serves; decide +kernel
/-- A START for block 101 of a function that fades in block 100 waits for its end at block 102 (R259). -/
theorem test_start_deferred :
    after .stopRegister (withSched (fun x => { x with fn := [(65536, ⟨2, false, 100, 0⟩)] }) (stopping true 0 0 live))
      (fun t => ((fnGet 1 0 t).deferred, t.sched.dl3.map StopReq.act)) = some (true, [102]) := by decide +kernel
theorem test_stop_registers :
    after .stopRegister (stopping false 0 0 live) (fun t => ((fnGet 1 0 t).st, (fnGet 1 0 t).act)) = some (1, 101) := by
  decide +kernel
/-- Entries of DL3 whose block has come, and functions that fade and clear. -/
def bathing (start : Bool) (st act : Nat) : State :=
  withSched (fun x => { x with dl3 := [⟨start, 1, 0, none, 100, 98, none⟩], fn := [(65536, ⟨st, false, act, 0⟩)] }) (ported live)
theorem test_stop_bath_premises :
    ((bathing false 1 100).grid.running = true ∧ (bathing false 1 100).sched.dl3.all (fun r => decide (r.act ≤ 100)) = true
      ∧ (fnGet 1 0 (bathing false 1 100)).st ≤ 1)
      ∧ (fnGet 1 0 (bathing true 4 90)).st = 4 ∧ (fnGet 1 0 (bathing true 5 100)).st = 5
      ∧ fnsIn 2 (bathing false 2 99) = [(65536, ⟨2, false, 99, 0⟩)] ∧ fnsIn 3 (bathing false 3 98) = [(65536, ⟨3, false, 98, 0⟩)]
      ∧ 0 < 65536 ∧ 99 + 1 ≤ (bathing false 2 99).grid.block ∧ 98 + 2 ≤ (bathing false 3 98).grid.block := by decide +kernel
/-- A start makes the function RUNNING; a clearing ends at the tick of a + 2 and not before (R257). -/
theorem test_stop_bath_ends :
    (after .startAct (bathing true 4 90) (fun t => (fnGet 1 0 t).st), after .stopDone (bathing false 3 98) (fun t => (fnGet 1 0 t).st),
      after .stopDone (bathing false 3 99) (fun t => (fnGet 1 0 t).st)) = (some 0, some 4, some 3) := by decide +kernel

/-! ### The scheduler -/

/-- Two nodes, a section of the object engines and an effect-core program, and an instance in flight. -/
def node (kind cls : Nat) : GNode := ⟨kind, cls, false, false, false, 255, none, 0, 0, 100, 1, []⟩
def flying (i : Nat) (complete : Bool) (core : Nat) : Inst := ⟨i, 100, 0, complete, core, Held.none⟩
def graphed (inFlight : List Inst) : State :=
  withSched (fun x => { x with graph := [node 0 0, node 1 6], inFlight := inFlight })
    { coreAt 0 { ctx with node := 1, ended := true } with grid := live.grid }
/-- The first node's instance, dispatched at 44/256 of block 100 and complete. -/
def flown : State :=
  withSched (fun x => { x with stat := [(0, ⟨100, 0, true, false, 44, 0, false, false, false, []⟩)] }) (graphed [flying 0 true 0])
theorem test_scheduling_premises :
    ((graphed []).grid.running = true ∧ (readied (graphed [])).sched.inFlight.length < 256
      ∧ (pick 0 300 (readied (graphed []))).map (fun x => x.2) = some (0, 0))
      ∧ (flightOf 0 (graphed [flying 0 false 0])).map Inst.complete = some false ∧ (node 0 0).kind ≠ 1
      ∧ (flightOf 1 (graphed [flying 1 false 63])).map Inst.complete = some false
      ∧ ecFinished 63 1 (graphed [flying 1 false 63]) = true
      ∧ (flightOf 0 (graphed [flying 0 true 0])).map Inst.complete = some true
      ∧ flowClear (graphed [flying 0 true 0]) (node 0 0) = true ∧ (node 0 0).past 255 = false
      ∧ atNow flown (node 0 0) 0 = true ∧ (flightOf 0 flown).map Inst.complete = some true
      ∧ streamsDone (node 0 0) (graphed [flying 0 false 0]) = true ∧ streamsDone (node 1 6) (graphed [flying 1 false 63]) = true
      ∧ overdue 0 (graphed [flying 0 false 0]) = some (100, 0) ∧ overdue 0 (graphed []) = some (100, 0) := by decide +kernel
theorem test_releases :
    after (.instanceRelease 0 255) flown (fun t => (t.sched.inFlight.length, (statGet 0 t).released, (statGet 0 t).release))
      = some (0, true, 255) := by decide +kernel
theorem test_dispatches :
    after (.instanceDispatch 0 300) (graphed []) (fun t => (t.sched.inFlight, (statGet 0 t).start))
      = some ([flying 0 false 0], 44) := by decide +kernel
theorem test_tick_premises :
    live.grid.running = true ∧ live.grid.sub < 3 ∧ ({ live with grid := { live.grid with sub := 2 } } : State).grid.sub < 3
      ∧ on.grid.running = false := by decide +kernel
theorem test_tick :
    after (.blockTick ⟨0, 0, 0, []⟩) { live with grid := { live.grid with sub := 3 } } (fun t => (t.grid.block, t.grid.sub))
      = some (101, 0) := by decide +kernel

/-! ### Filters and measuring -/

def measuring (g : ToneGen) (c : Capture) : State :=
  { rset 0x10170030 15 1 live with
    conv := [(1023, ⟨1, 2, 1000, 512, false, 0, 0, 0⟩)], tg := [(15, g)], cap := c }
def captures (armed running : Bool) : Capture := ⟨running, false, false, false, 100, some 200, some 199, 0, 4096, armed, []⟩
theorem test_measuring_premises :
    let s := requestAct (measuring { tone with m := 99, armed := true } (captures true true))
    ((convGet 1023 s).xfDone = false ∧ (convGet 1023 s).xfAt + (convGet 1023 s).xfLen ≤ (s.B : Int) * s.grid.block)
      ∧ ((tgGet 15 s).armed = true ∧ (tgGet 15 s).m + 1 ≤ s.grid.block)
      ∧ (s.cap.armed = true ∧ s.cap.m0 ≤ s.grid.block) ∧ (s.cap.running = true ∧ s.cap.stop = some 200 ∧ s.cap.last = some 199) := by
  decide +kernel
theorem test_sweep_premises :
    let s := requestAct (measuring tone (captures false false))
    (tgGet 15 s).running = true ∧ (tgGet 15 s).mode = 2 ∧ (tgGet 15 s).pause ≠ 2 ∧ s.sched.tgRan ≤ s.grid.block
      ∧ 0 < toneRel s (tgGet 15 s) ∧ toneRel s (tgGet 15 s) % max 1 ((rget 0x10170030 15 s % 2 ^ 24) * s.B : Nat) = 0 := by
  decide +kernel
theorem test_capture_ends :
    after .captureEnd (measuring tone (captures false true)) (fun t => (t.cap.running, t.cap.done)) = some (false, true) := by
  decide +kernel
/-- Slot 0 exists and is unused, the offset at its last word; no slot exists; a job runs. -/
def loading (slots : Nat) (busy : Bool) : State :=
  { withImg (fun i => { i with slots := slots }) (rset 0x10090028 0 262268 live) with deconv := ⟨busy, false, 1, 0x1000, 1⟩ }
theorem test_load_premises :
    (∀ s ∈ [loading 1 false, loading 0 true], takesOwn s = true ∧ Serves 0 0x1009002C true s ∧ Serves 0 0x10090030 true s
      ∧ Serves 0 0x10170098 true s ∧ s.mx.open_.regCount < 16384)
      ∧ (rget 0x10090028 0 (loading 1 false) < 262272 ∧ 0 < (loading 1 false).img.slots ∧ (slotGet 0 (loading 1 false)).committed = false
        ∧ (slotGet 0 (loading 1 false)).state ≠ 3) ∧ (loading 0 true).img.slots ≤ 0
      ∧ (loading 0 true).deconv.busy = true ∧ (loading 1 false).deconv.busy = false := by unfold Serves; decide +kernel
theorem test_load_drops :
    (after (.convLoadData 0 9) (loading 0 false) (fun t => (cget 0x10090040 0 t, rget 0x10090028 0 t)),
      after (.convLoadData 0 9) (loading 1 false) (fun t => (cget 0x10090040 0 t, (slotGet 0 t).state))) = (some (1, 262272), some (0, 1)) := by
  decide +kernel
/-! ### Twin operation -/

def zeros_ (n : Nat) : List Nat := List.replicate n 0
/-- A frame is taken by the link in a state. -/
def takes (type : Nat) (p : List Nat) (s : State) : Prop := Taken type (linked type 0 p) s
theorem be_beBytes4 (v : Nat) (h : v < 2 ^ 32) : be (beBytes 4 v) = v := by
  simp [be, beBytes, leBytes]; omega

theorem crc32Byte_lt (c b : Nat) (hc : c < 2 ^ 32) (hb : b < 2 ^ 32) : crc32Byte c b < 2 ^ 32 := by
  have h (l : List Nat) : ∀ x < 2 ^ 32,
      l.foldl (fun c _ => if c % 2 = 1 then (c / 2) ^^^ 0xEDB88320 else c / 2) x < 2 ^ 32 := by
    induction l with
    | nil => exact fun x h => h
    | cons a l ih =>
      intro x hx
      refine ih _ ?_
      dsimp only
      split
      · exact Nat.xor_lt_two_pow (by omega) (by decide)
      · omega
  exact h _ _ (Nat.xor_lt_two_pow hc hb)

theorem crc32_lt (l : List Nat) (h : ∀ b ∈ l, b < 256) : crc32 l < 2 ^ 32 := by
  have g : ∀ (l : List Nat) (x : Nat), (∀ b ∈ l, b < 256) → x < 2 ^ 32 → l.foldl crc32Byte x < 2 ^ 32 := by
    intro l
    induction l with
    | nil => exact fun x _ h => h
    | cons a l ih =>
      intro x hl hx
      exact ih _ (fun b hb => hl b (by simp [hb])) (crc32Byte_lt _ _ hx (by have := hl a (by simp); omega))
  exact Nat.xor_lt_two_pow (g l _ h (by decide)) (by decide)

/-- A frame made for the link is taken where its layout is right. -/
theorem takes_of {type : Nat} {p : List Nat} {s : State} (ht : type < 256) (hp : ∀ b ∈ p, b < 256) (hn : p.length ≤ 32768)
    (hu : s.twin.linkUp = true) (hl : layoutOk s type p = true) (hq : s.twin.rxSeq = 0) : takes type p s := by
  have hb : ∀ b ∈ linkBytes type 0 0 p, b < 256 := by
    intro b hb
    simp only [linkBytes, beBytes, leBytes, List.mem_append, List.mem_cons, List.mem_reverse, List.not_mem_nil, or_false] at hb
    obtain (((((h | h) | h) | h) | h) | h) | h := hb <;> first | exact hp _ h | (split at h <;> omega) | omega
  have he : bytesOf (linked type 0 p) = linkBytes type 0 0 p := by
    simp only [bytesOf, linked, List.map_map]
    exact (List.map_congr_left (fun b h => by simp [Nat.mod_eq_of_lt (hb b h)])).trans (List.map_id _)
  have hc : crc32 ([type, if isReliable type then 1 else 0] ++ beBytes 2 0 ++ beBytes 2 p.length ++ beBytes 2 0 ++ p) < 2 ^ 32 :=
    crc32_lt _ (fun b h => hb b (by simp only [linkBytes, List.mem_append] at h ⊢; tauto))
  generalize hcc : crc32 ([type, if isReliable type then 1 else 0] ++ beBytes 2 0 ++ beBytes 2 p.length ++ beBytes 2 0 ++ p) = c at hc
  have hlen : be (slice 4 2 (linkBytes type 0 0 p)) = p.length := by
    simp [linkBytes, slice, beBytes, leBytes, be]; omega
  unfold takes Taken
  rw [he]
  simp only [hlen]
  refine ⟨hu, by simp [linkBytes, nth, beBytes, leBytes], by simp [linkBytes, beBytes, leBytes], hn, ?_, ?_, ?_⟩
  · have h1 : (linkBytes type 0 0 p).take (8 + p.length)
        = [type, if isReliable type then 1 else 0] ++ beBytes 2 0 ++ beBytes 2 p.length ++ beBytes 2 0 ++ p :=
      List.take_left' (by simp [beBytes, leBytes]; omega)
    have h2 : slice (8 + p.length) 4 (linkBytes type 0 0 p) = beBytes 4 c := by
      rw [slice, linkBytes, List.drop_left' (by simp [beBytes, leBytes]; omega), hcc]
      rfl
    rw [h1, h2, hcc, be_beBytes4 c hc]
  · have h3 : slice 8 p.length (linkBytes type 0 0 p) = p := by
      simp [slice, linkBytes, beBytes, leBytes]
    rw [h3, hl]
  · intro _
    rw [hq]
    simp [slice, linkBytes, beBytes, leBytes, be]

/-- One comparison group, and a TWIN state changed by `f`. -/
def mate (f : Twin → Twin) : State :=
  withTwin f (withImg (fun i => { i with twin := { i.twin with groups := 1 } }) latent)
def resync (phase : Nat) : State := mate (fun t => { t with st := 4, phase := phase, waitEnd := 100 })
/-- A unit that acts, its partner LATENT. -/
def holder (f : Twin → Twin) : State := mate (fun t => f { t with acts := true, st := 2, peer := 1 })
theorem test_link_premises :
    (let s := mate (fun t => { t with linkUp := false, st := 4 });
      s.twin.linkUp = false ∧ s.img.twin.pair = true ∧ s.twin.peerDown = false ∧ s.twin.st = 4 ∧ s.twin.starting = false
        ∧ s.twin.acts = false ∧ s.twin.divergent = false)
      ∧ linkOk latent = true
      ∧ (let s := mate (fun t => { t with lost := true });
        s.twin.lost = true ∧ s.twin.st = 1 ∧ s.twin.starting = false ∧ s.twin.divergent = false)
      ∧ (holder (fun t => { t with lost := true })).twin.st ≠ 1
      ∧ (let s := mate (fun t => { t with txq := [⟨0, 0x14, []⟩] });
        s.twin.txq ≠ [] ∧ linkOk s = true)
      ∧ on.grid.running = false ∧ on.clk.inReset = false := by decide +kernel
theorem test_link_frames :
    takes 0x01 ([0, 1] ++ zeros_ 22) (mate (fun t => { t with hello := [1] })) ∧ takes 0x01 ([2, 0] ++ zeros_ 22) latent
      ∧ takes 0x01 ([15, 0] ++ zeros_ 22) latent ∧ takes 0x14 (zeros_ 64) latent ∧ takes 0x3F [0, 0] latent
      ∧ takes 0x01 ([2, 1] ++ zeros_ 22) (holder (fun t => { t with hello := [1], tenure := 1 }))
      ∧ takes 0x01 ([2, 1] ++ zeros_ 17 ++ [9] ++ zeros_ 4) (holder (fun t => { t with tenure := 1 })) := by
  unfold takes Taken; decide +kernel
/-- Heartbeat words: a renewal of a unit in EXPOSED with its CRC, and one without. -/
theorem test_heartbeat_words :
    (let w := hbFrame 2 1 100 0;
      w / 2 ^ 56 = 0xD5 ∧ w % 256 = crc8 (beBytes 6 (w / 2 ^ 8 % 2 ^ 48)) ∧ bit 44 w = true ∧ w / 2 ^ 52 % 16 = 2)
      ∧ ¬((0 : Nat) / 2 ^ 56 = 0xD5) := by decide +kernel
/-- A renewal restarts the lease (R314). -/
theorem test_lease_renews :
    after (.leaseFrame (linked 0x01 0 ([2, 1] ++ zeros_ 22)) 5000) latent (fun t => t.twin.leaseAt) = some 5000 := by decide +kernel
/-- Frames that mirror the holder, in a standby unit. -/
def hashed (n : Nat) (h : List Nat) : State := mate (fun t => { t with ownHash := [⟨n, none, h⟩] })
theorem test_mirror_frames :
    takes 0x03 (zeros_ 3 ++ [1] ++ zeros_ 12) (resync 2)
      ∧ takes 0x03 (zeros_ 3 ++ [1] ++ zeros_ 12) (resync 3)
      ∧ takes 0x10 (beBytes 8 99 ++ zeros_ 16) (hashed 99 [0]) ∧ takes 0x10 (beBytes 8 99 ++ zeros_ 16) (hashed 99 [1])
      ∧ takes 0x10 (beBytes 8 99 ++ zeros_ 16) (mate id) ∧ takes 0x20 (zeros_ 20 |>.set 12 1) (resync 1) := by
  unfold takes Taken; decide +kernel
theorem test_mirror_adc : takes 0x02 (zeros_ (16 + 32 * latent.S)) latent :=
  takes_of (by decide) (by simp [zeros_]) (by rw [zeros_, List.length_replicate]; decide +kernel) (by decide +kernel)
    (by simp [layoutOk, zeros_]) (by decide +kernel)
theorem test_mirror_premises :
    (standby latent = true ∧ adcHas 0 true latent = false ∧ adcHas 0 false latent = false)
      ∧ (keepsMirror (resync 2) = true ∧ keepsMirror (resync 3) = true ∧ keepsMirror (resync 1) = true)
      ∧ ((hashed 99 [0]).twin.peerHash = [] ∧ compares (hashed 99 [0]) = true ∧ (hashed 99 [0]).twin.st = 1)
      ∧ ((mate id).twin.ownHash = [] ∧ (mate id).twin.peerHash = [])
      ∧ (∃ g < (hashed 99 [1]).img.twin.groups, nth 0 [1] g ≠ nth 0 [0] g) := by decide +kernel
/-- Hashes that differ without a lapse send the standby to SUSPECT (R333). -/
theorem test_hash_differs :
    after (.hashFrame (linked 0x10 0 (beBytes 8 99 ++ zeros_ 16))) (hashed 99 [1]) (fun t => (t.twin.st, t.twin.mismatchBlk))
      = some (3, 99) := by decide +kernel
/-- A register entry of the mirror; a seal that agrees, and one that does not; requests of every relayed kind. -/
def entry1 : List Nat := [1, 0, 0, 0] ++ beBytes 4 0x10050070 ++ [0xFF, 0xFF, 0, 0] ++ beBytes 4 7
def sealed (code : Nat) : List Nat := sealBytes 99 200 code Staged.empty
theorem test_relay_frames :
    takes 0x11 entry1 latent ∧ mirrorEntries (entry1.length + 1) entry1 = some [entry1] ∧ nth 0 entry1 0 = 1
      ∧ latent.mx.open_.regCount < 16384 ∧ keepsMirror latent = true
      ∧ holds latent = false ∧ latent.sched.dl1.length < 1024 := by
  unfold takes Taken; decide +kernel
theorem test_seal_frames :
    takes 0x12 (sealed 0) latent ∧ takes 0x12 (sealed 5) latent ∧ takes 0x12 ((sealed 0).set 23 1) latent
      ∧ sealBytes (be (slice 0 8 (sealed 0))) (be (slice 8 8 (sealed 0))) (nth 0 (sealed 0) 16) latent.mx.open_ = sealed 0
      ∧ sealBytes 99 200 0 latent.mx.open_ ≠ (sealed 0).set 23 1
      ∧ (∀ k ∈ [1, 2, 3, 7], takes 0x13 ([k, 1] ++ zeros_ 22) latent) ∧ takes 0x13 ([6] ++ zeros_ 23) latent := by
  unfold takes Taken; decide +kernel
/-- A unit in which the bulk phase has brought a piece keeps mirrored frames for the installation (R335). -/
def assembling : State := withTwin (fun t => { t with pieces := [⟨0, 100, 1, 0, []⟩] }) (resync 1)
theorem test_held_frames :
    holds assembling = true ∧ takes 0x11 entry1 assembling ∧ takes 0x12 (sealed 0) assembling
      ∧ takes 0x13 ([1, 1] ++ zeros_ 22) assembling := by unfold takes Taken; decide +kernel
theorem test_held_frame :
    after (.stageMirrorFrame (linked 0x11 0 entry1)) assembling (fun t => (t.twin.relayLog.length, t.mx.open_.regCount))
      = some (1, 0) := by decide +kernel
theorem test_seal_disagrees :
    after (.fixSealFrame (linked 0x12 0 ((sealed 0).set 23 1)) true) latent (fun t => t.twin.st) = some 3 := by decide +kernel

/-- CONTROL messages, each in a state whose clause it meets. -/
def hello (die : Nat) (state : Nat) : List Nat := [1, 0, 0, 0] ++ ((zeros_ 68).set 44 die |>.set 45 state |>.set 47 1)
def starting_ (home : Bool) : State := mate (fun t => { t with starting := true, handshake := true, st := 0, home := home })
theorem test_control_messages :
    ∀ x ∈ [(hello 0 15, holder id), (hello 0 15, starting_ true), (hello 1 15, starting_ false),
        ([2, 0, 0, 0] ++ (zeros_ 76).set 75 9, starting_ false), ([3, 0, 0, 0] ++ zeros_ 8, latent),
        ([4, 0, 0, 0] ++ beBytes 8 120, holder (fun t => { t with handover := some ⟨120, 1⟩ })),
        ([5, 0, 0, 0] ++ (zeros_ 12 |>.set 8 1), latent), ([6, 0, 0, 0], holder id), ([7, 0, 0, 0], latent),
        ([8, 0, 0, 0] ++ zeros_ 12, latent), ([9, 0, 0, 0], holder id), ([10, 0, 0, 0] ++ zeros_ 12, resync 1),
        ([11, 0, 0, 0, 1, 0, 0, 0], resync 0), ([11, 0, 0, 0, 0, 0, 0, 0], mate (fun t => { t with divergent := true })),
        ([11, 0, 0, 0, 0, 0, 0, 0], mate (fun t => { t with barred := true }))],
      takes 0x15 x.1 x.2 := by
  unfold takes Taken; decide +kernel
theorem test_control_states :
    ((holder id).img.twin.pair = true ∧ (holder id).twin.starting = false ∧ (holder id).twin.acts = true
        ∧ nth 0 ((hello 0 15).drop 4) 45 = 15)
      ∧ ((starting_ true).twin.starting = true ∧ (starting_ true).twin.handshake = true ∧ (starting_ true).twin.home = true
        ∧ (starting_ false).twin.home = false ∧ bit 0 (nth 0 ((hello 1 15).drop 4) 44) = true
        ∧ bit 0 (nth 0 ((hello 0 15).drop 4) 44) = false)
      ∧ be (slice 68 8 ((zeros_ 76).set 75 9)) ≠ 0 ∧ hasPartner (holder id) = true
      ∧ ((resync 0).twin.st = 4 ∧ (resync 0).twin.acts = false ∧ (resync 0).twin.starting = false) := by decide +kernel
theorem test_hello_answered :
    after (.hello (linked 0x15 0 (hello 0 15))) (holder (fun t => { t with peer := 7 })) (fun t => (t.twin.st, t.twin.peer))
      = some (2, 3) := by decide +kernel

/-- The token and hand-over, each in a state whose clause it meets. -/
theorem test_token_premises :
    standby latent = true
      ∧ (let s := mate (fun t => { t with expired := true });
        s.twin.expired = true ∧ standby s = true ∧ s.grid.running = true)
      ∧ ((holder id).twin.acts = true ∧ (holder id).img.twin.pair = true ∧ (holder id).twin.st = 2 ∧ (holder id).twin.starting = false)
      ∧ ((mate (fun t => { t with st := 2 })).twin.st = 2 ∧ (mate (fun t => { t with st := 2 })).twin.acts = false)
      ∧ (∀ s ∈ [latent, holder id, holder (fun t => { t with peer := 7 }), holder (fun t => { t with hoWait := some 120 })],
        Serves 0 0x1003000C true s ∧ Serves 2 0x1003000C true s)
      ∧ (hasPartner (holder id) = true ∧ hasPartner (holder (fun t => { t with peer := 7 })) = false
        ∧ (holder id).twin.hoWait = none) := by unfold Serves; decide +kernel
/-- Hand-over requests for the block after the next tick and for the one after it, and the codes of a refusal (R319). -/
theorem test_handover_codes :
    ([(101, 1, none, true), (102, 3, none, true), (102, 1, some ⟨110, 1⟩, true), (102, 1, none, false), (102, 1, none, true)].map
        (fun (x : Nat × Nat × Option HandOver × Bool) => after .handoverRegister
          (holder (fun t => { t with hoWait := some x.1, peer := x.2.1, handover := x.2.2.1, acts := x.2.2.2 }))
          (fun t => t.twin.cmdCode)))
      = [some 3, some 2, some 4, some 5, some 0] := by decide +kernel
theorem test_handover_premises :
    (let s := holder (fun t => { t with handover := some ⟨101, 2⟩ });
      s.twin.handover = some ⟨101, 2⟩ ∧ s.grid.block + 1 = 101)
      ∧ (holder (fun t => { t with handover := some ⟨100, 3⟩ })).twin.handover = some ⟨100, 3⟩
      ∧ (let s := mate (fun t => { t with hoAck := some 100, hoSeen := true });
        s.twin.handover = none ∧ s.twin.hoAck = some s.grid.block ∧ s.twin.hoSeen = true ∧ s.twin.st = 1)
      ∧ (mate (fun t => { t with emitAt := some (100, true, false) })).twin.emitAt = some (100, true, false) := by decide +kernel
theorem test_handover_switches :
    (after .handoverSwitch (holder (fun t => { t with handover := some ⟨100, 3⟩ })) (fun t => (t.twin.acts, t.twin.st)),
      after .handoverCommit (holder (fun t => { t with handover := some ⟨101, 1⟩ })) (fun t => t.twin.cmdCode))
      = (some (false, 1), some 6) := by decide +kernel

/-- Resync, self-test and health, each in a state whose clause it meets. -/
def levelled (phase : Nat) (parts : List SlicePart) : State :=
  withImg (fun i => { i with twin := { i.twin with levels := [(4, 0, 1)], slices := [(0, 0)] } })
    (withTwin (fun t => { t with parts := parts }) (resync phase))
theorem test_resync_premises :
    (hashed 98 [0]).twin.ownHash.any (fun h => decide (h.block + (hashed 98 [0]).img.twin.sealBlocks + 2 ≤ 100)) = true
      ∧ (∀ s ∈ [withTwin (fun t => { t with bulkEnd := some 1, pieces := [⟨0, 100, 1, 0, []⟩] }) (resync 1),
          withTwin (fun t => { t with bulkEnd := some 1, pieces := [⟨0, 100, 1, 0, []⟩] }) (levelled 1 [])],
        s.twin.bulkEnd = some 1 ∧ keepsMirror s = true ∧ s.twin.phase = 1 ∧ s.grid.running = true
          ∧ (∀ k < 1, ∃ x ∈ s.twin.pieces, x.num = k) ∧ s.twin.st = 4 ∧ s.twin.relayLog = []
          ∧ ∀ x ∈ s.twin.pieces, s.grid.block ≤ x.capture + 1)
      ∧ (resync 1).img.twin.levels = [] ∧ (levelled 1 []).img.twin.levels = [(4, 0, 1)]
      ∧ (∀ p ∈ [2, 4], keepsMirror (resync p) = true ∧ (resync p).twin.waitEnd ≤ (resync p).grid.block ∧ (resync p).twin.phase = p)
      ∧ (let s := levelled 3 [⟨0, 0, 1, 100, []⟩];
        keepsMirror s = true ∧ s.twin.phase = 3 ∧ s.twin.waitEnd = s.grid.block ∧ sliceWhole s = some []
          ∧ planNext s.twin.level s.twin.slice (s.grid.block + 1) s = none)
      ∧ (let s := withImg (fun i => { i with twin := { i.twin with levels := [(4, 0, 2)], slices := [(0, 0), (0, 0)] } })
          (levelled 3 [⟨0, 0, 1, 100, []⟩]);
        sliceWhole s = some [] ∧ planNext s.twin.level s.twin.slice (s.grid.block + 1) s = some (0, 1, 101))
      ∧ (let s := mate (fun t => { t with st := 3 });
        s.twin.starting = false ∧ s.twin.st = 3 ∧ s.twin.barred = false) ∧ (latent.twin.acts = false ∧ latent.twin.starting = false)
      ∧ (let s := mate (fun t => { t with home := true });
        s.twin.home = true ∧ s.twin.st = 1 ∧ s.twin.starting = false ∧ s.twin.divergent = false ∧ s.twin.degraded = false
          ∧ s.twin.peerDegraded = false ∧ linkOk s = true
          ∧ s.twin.latentAt + secondBlocks s.img.twin.holdoff s ≤ s.grid.block) := by decide +kernel
theorem test_settle_expires :
    (after .settleExpiry (resync 2) (fun t => t.twin.phase), after .sliceTimeout (levelled 3 []) (fun t => (t.twin.waitEnd, t.twin.sliceLate)))
      = (some 3, some (101, true)) := by decide +kernel
/-! ### Network and time -/

/-- A frame with its FCS, padded to the least size. -/
def ethernet (f : List Nat) : List Byte :=
  let b := f ++ List.replicate (60 - f.length) 0
  (b ++ leBytes 4 (crc32 b)).map (BitVec.ofNat 8)
def group : Nat := 0xEF000001
def rxCfg : RxCfg := ⟨2, 1, 6, 2, 96, 0, true, 5, 0, 100, 100, ⟨true, 0, 5004, group, 0, 0xFFFF⟩, LegCfg.none, 0⟩
def txCfg : TxCfg := ⟨2, 1, 6, 96, 46, 16, 5, 0, 0, 5004, 100, ⟨true, 0, 5004, group, 0, 0xFFFF⟩, LegCfg.none⟩
/-- An acting unit with port 0 at 25 Gb/s and MGMT with EEE, both links up, one stream each way. -/
def netted (f : PortNet → PortNet) : State :=
  let s := withTwin (fun t => { t with emitLog := [(0, true, false)] }) live
  withImg (fun i => { i with
    netPorts := [⟨3, false, 1522, 0x020000000001, 64, 0x0A000001, 0, 24, 0, 0⟩, ⟨0, false, 0, 0, 0, 0, 0, 0, 0, 0⟩,
      ⟨0, false, 0, 0, 0, 0, 0, 0, 0, 0⟩, ⟨0, false, 0, 0, 0, 0, 0, 0, 0, 0⟩, ⟨5, true, 1522, 0, 64, 0x0A000002, 0, 24, 0, 1⟩]
    rx := [rxCfg], tx := [txCfg] })
    { s with net := { s.net with port := [(0, f { PortNet.reset with link := true }), (4, f { PortNet.reset with link := true })] } }
def wired : State := netted id
/-- A packet of the stream with media time 3,200; a PTP frame; one that nothing takes. -/
def rtpFrame : List Nat :=
  udpFrame (groupMac group) 7 0xFFFF 0 16 9 group 5004 5004
    ([0x80, 96] ++ beBytes 2 1 ++ beBytes 4 3200 ++ beBytes 4 5 ++ List.replicate 18 1)
def ptpBare : List Nat := List.replicate 12 0 ++ [0x88, 0xF7]
def unknown : List Nat := List.replicate 12 0 ++ [0x12, 0x34]
def whole (f : List Byte) : Prop :=
  let n := (bytesOf f).length
  64 ≤ n ∧ n ≤ (netCfg wired 0).maxFrame ∧ le ((bytesOf f).drop (n - 4)) = crc32 ((bytesOf f).take (n - 4))
    ∧ sumsOk ((bytesOf f).take (n - 4)) = true
theorem test_receive_premises :
    ((netCfg wired 1).mode = 0 ∧ (netCfg wired 0).mode ≠ 0 ∧ (pnGet 0 wired).link = true)
      ∧ whole (ethernet rtpFrame) ∧ whole (ethernet ptpBare) ∧ whole (ethernet unknown)
      ∧ isPtp (ptpBare ++ List.replicate 46 0) = true ∧ admits wired 0 65536 0 = true
      ∧ admits (withImg (fun i => { i with netPorts := [⟨3, false, 2 ^ 25, 0, 64, 0, 0, 24, 0, 0⟩] }) wired) 0 65536 0 = false
      ∧ forSupervisor wired 0 (unknown ++ List.replicate 46 0) = false ∧ isPtp (unknown ++ List.replicate 46 0) = false
      ∧ udpOf (unknown ++ List.replicate 46 0) = none := by unfold whole; decide +kernel
theorem test_stream_premises :
    let b := rtpFrame
    let rtp := slice 42 30 b
    let ts := extendTs ((be (slice 4 4 rtp) + 2 ^ 32 - 0) % 2 ^ 32) ((wired.B * blockNow wired : Nat) : Int)
    (isPtp b = false ∧ (udpOf b).map (fun u => (u.off + 8, u.len - 8)) = some (42, 30)
      ∧ (udpOf b).bind (findLeg wired 0 (etherOf b).2.1) = some (0, false) ∧ wired.img.rx[0]? = some rxCfg)
      ∧ (fnGet 2 0 wired).st = 0 ∧ admits wired 0 100 (legCells false (rxGet 0 wired)) = true
      ∧ nth 0 rtp 0 / 64 = 2 ∧ nth 0 rtp 0 % 16 = 0 ∧ nth 0 rtp 1 % 128 = 96 ∧ be (slice 8 4 rtp) = 5
      ∧ (rtpPayload rtp).length = 6 * 1 * sampleBytes 2
      ∧ (rxGet 0 wired).minBlock ≤ dueBlock wired rxCfg ts ∧ 100 < dueBlock wired rxCfg ts
      ∧ dueBlock wired rxCfg ts ≤ 100 + 2 + 2 := by decide +kernel
/-- A stream's packet is stored in its leg's queue; a runt is counted. -/
theorem test_receives :
    (after (.frameReceive 0 (ethernet rtpFrame) false false 0 0) wired (fun t => (rxGet 0 t).qA.items.map Packet.t),
      after (.frameReceive 0 [0, 0] false false 0 0) wired (fun t => cget 0x100B0024 0 t)) = (some [3200], some 1) := by
  decide +kernel
/-- What a port has to send: a frame of the supervisor, and a stream's packet before and after its due instant. -/
def queued (p : PortNet) : PortNet := { p with svOut := ⟨[⟨0, [1, 2, 3], [0], false, 0⟩], 0, none⟩ }
theorem test_send_premises :
    ((pnGet 0 (netted queued)).svOut.next.1 = some ⟨0, [1, 2, 3], [0], false, 0⟩
      ∧ (pnGet 0 (netted queued)).link = true ∧ (pnGet 4 (netted (fun p => { queued p with link := false }))).link = false
      ∧ (pnGet 4 (netted queued)).txLpi = false ∧ (pnGet 4 (netted (fun p => { queued p with txLpi := true }))).txLpi = true)
      ∧ ((pnGet 0 wired).svOut.next.1 = none ∧ wired.img.tx[0]? = some txCfg
        ∧ txHead wired 0 = some (6, 0, false, 0) ∧ 6 < txReached wired ∧ txReached on ≤ 6 ∧ admits wired 0 100 0 = true
        ∧ emits wired false 0 = true ∧ emits live false 0 = false)
      ∧ (eeeOn wired = true ∧ (pnGet 4 wired).txLpi = false ∧ (pnGet 4 wired).svOut.items = [] ∧ wired.tcm.mgmtOut = []) := by
  decide +kernel
/-- With every packet up to block 100 unsent, the oldest leaves first (R385). -/
theorem test_sends :
    after (.txPacketSend 0) wired (fun t => ((txGet 0 t).nextA, cget 0x100B00C8 0 t)) = some (1, 1) := by decide +kernel
/-- An LLDP frame with the EEE TLV: partner's transmit and receive wake times 3 and 5. -/
def lldp : List Nat :=
  List.replicate 12 0 ++ [0x88, 0xCC, 0xFE, 14, 0x00, 0x12, 0x0F, 0x05, 0, 3, 0, 5, 0, 0, 0, 0, 0, 0, 0, 0]
theorem test_lldp_premises :
    (etherOf lldp).1 = 0x88CC ∧ eeeTlv lldp.length (lldp.drop (etherOf lldp).2.2) = some [0, 3, 0, 5, 0, 0, 0, 0, 0, 0] := by
  decide +kernel

/-! ### PTP -/

def domCfg0 : DomCfg := ⟨1, 7, 0, none, -3, 0, 0, 3, 0xFFFF, 46⟩
def ptpCfg : PtpCfg := ⟨true, false, false, 0, 20, 21, 1000, 128, 128, 6, 0x21, 0x4E5D, 37, [0, 0, 0, 0], [0, 0, 0, 0], [domCfg0]⟩
/-- A unit whose domain slot 0 runs on port 0, with one message waiting there. -/
def ptpOn (m : List Nat) (f : Domain → Domain) : State :=
  let s := withImg (fun i => { i with ptp := ptpCfg })
    (netted (fun p => { p with ptpQ := ⟨[⟨0, udpFrame 1 2 0xFFFF 0 1 9 0xE0000181 319 319 m, [0], false, 5000⟩], 0, none⟩ }))
  withTime (fun t => { t with dom0 := f Domain.reset, ppsOk := true }) s
def header (type n : Nat) (flags : Nat) : List Nat := ptpHeader (List.replicate 8 1) type n 7 flags 0 9 0
def follows (d : Domain) : Domain := { d with st := 3, leader := some (be (List.replicate 8 1 ++ [0, 1])), measured := true }
def announce : List Nat := header 0xB 64 0 ++ List.replicate 30 0
theorem test_ptp_premises :
    (∀ x ∈ [(0xB, announce), (0, header 0 44 0x0200 ++ zeros_ 10), (0, header 0 44 0 ++ zeros_ 10), (8, header 8 44 0 ++ zeros_ 10),
        (1, header 1 44 0 ++ zeros_ 10), (9, header 9 54 0 ++ zeros_ 10 ++ clockId wired 0 ++ [0, 1])],
      let q0 := (pnGet 0 (ptpOn x.2 follows)).ptpQ.settle (fun y => y.error || y.poison)
      (q0.next.1.bind (fun y => ptpMessage y.frame)) = some x.2 ∧ ptpKnown x.2 = true ∧ nth 0 x.2 0 % 16 = x.1
        ∧ domOf (ptpOn x.2 follows) 0 (nth 0 x.2 4) = some 0
        ∧ (domGet 0 (ptpOn x.2 follows)).leader = some (be (slice 20 10 x.2)))
      ∧ announceOk announce = true ∧ announceOk (announce.set 61 1) = false ∧ bit 1 (nth 0 (header 0 44 0x0200) 6) = true
      ∧ be (slice 30 2 (header 8 44 0)) = 9 ∧ slice 44 8 (header 9 54 0 ++ zeros_ 10 ++ clockId wired 0) = clockId wired 0
      ∧ (domGet 0 (ptpOn [] follows)).measured = true := by decide +kernel
theorem test_ptp_unknown :
    ((pnGet 0 (ptpOn [0] id)).ptpQ.next.1.bind (fun y => ptpMessage y.frame)) = some [0] ∧ ptpKnown [0] = false
      ∧ ptpMessage ptpBare = none
      ∧ after (.ptpSync 0) (ptpOn [0] id) (fun t => cget 0x100C0090 0 t) = some 1 := by decide +kernel
def leading : State := ptpOn [] (fun d => { d with st := 4 })
def following : State := ptpOn [] follows
theorem test_ptp_sending :
    ((domGet 0 leading).st = 4 ∧ leading.img.ptp.leaderEn = true ∧ leading.twin.acts = true
        ∧ (pnGet (domPort leading 0) leading).link = true)
      ∧ ((domGet 0 following).st = 3 ∧ (pnGet (domPort following 0) following).link = true
        ∧ bestForeign (domSet 0 { (domGet 0 following).restart with foreign := [], leader := none, st := 1 } following) 0 = none
        ∧ following.time.ppsOk = true ∧ (domCfg following 0).profile ≠ 0) := by decide +kernel
/-- A one-step Sync of the leader is measured (R396); the leader's silence makes a unit that may lead the leader (R402). -/
theorem test_ptp_runs :
    (after (.ptpSync 0) (ptpOn (header 0 44 0 ++ zeros_ 10) follows) (fun t => ((domGet 0 t).twoStep, (pnGet 0 t).ptpQ.items.length)),
      after (.announceTimeout 0) (ptpOn [] follows) (fun t => (domGet 0 t).st)) = (some (false, 0), some 4) := by decide +kernel

/-! ### The time counter -/

def timed (f : Time → Time) : State := withTime f live
theorem test_time_premises :
    (∀ x ∈ [(2 ^ 63 - 1, false), (2 ^ 63 - 1, true)], let t := (timed (fun t => { t with cnt := x.1, armed1 := x.2 })).time
      t.cnt < 2 ^ 63 ∧ (t.cnt + 1 * t.inc) / 2 ^ 63 = 1 ∧ t.armed1 = x.2)
      ∧ (∀ x ∈ [(2 ^ 64 - 1, false), (2 ^ 64 - 1, true)], let t := (timed (fun t => { t with cnt := x.1, armed0 := x.2 })).time
        2 ^ 63 ≤ t.cnt ∧ t.cnt < 2 ^ 64 ∧ (t.cnt + 1 * t.inc) / 2 ^ 63 = 2 ∧ t.armed0 = x.2)
      ∧ (timed id).time.cnt / 2 ^ 63 = ((timed id).time.cnt + 1 * (timed id).time.inc) / 2 ^ 63
      ∧ (∀ e < 2, Serves 0 (0x100C0024 + 4 * e) true live ∧ Serves 2 (0x100C0024 + 4 * e) true on)
      ∧ Serves 0 0x100C001C true live ∧ Serves 2 0x100C0038 true live ∧ Serves 0 0x100C0038 true on
      ∧ live.grid.running = true ∧ on.grid.running = false ∧ live.time.sel = none
      ∧ rget 0x100C0030 0 on < 2 ^ 32 ∧ rget 0x100C0034 0 on < 2 ^ 32 := by unfold Serves; decide +kernel
/-- A half entered with no armed entry: EPOCH1 takes EPOCH0, and STALE is set (R393). -/
theorem test_half_entered :
    after (.epochHalfEnter 1) (timed (fun t => { t with cnt := 2 ^ 63 - 1, epoch0 := 7 })) (fun t =>
      (t.time.epoch1, t.time.armed1, t.time.stale)) = some (7, true, true) := by decide +kernel
/-- In the upper half EPOCH0 takes the next count only, EPOCH1 the one in effect (R393). -/
theorem test_epoch_expected :
    ([(0, 8), (0, 7), (1, 7), (1, 8)].map (fun (x : Nat × Nat) => after (.epochWrite 0 x.1 (BitVec.ofNat 32 x.2))
      (timed (fun t => { t with cnt := 2 ^ 63, epoch1 := 7 })) (fun t => t.time.badWrite)))
      = [some false, some true, some false, some true] := by decide +kernel
/-- PPS edges 1 s and 1,000 ns, the last one within the window, and 1 s and 1 µs less (R410). -/
theorem test_pps_premises :
    let at_ := fun (x : Nat) => (extended live x : Int) - (extended live 0 : Nat) - 10 ^ 9 * 2 ^ 32
    (timed (fun t => { t with ppsAt := some (extended live 0), ppsOk := true })).time.ppsAt = some (extended live 0)
      ∧ at_ ((10 ^ 9 + 1000) * 2 ^ 32 - 1) < 1000 * 2 ^ 32 ∧ -1000 * 2 ^ 32 ≤ at_ ((10 ^ 9 - 1000) * 2 ^ 32)
      ∧ 1000 * 2 ^ 32 ≤ at_ ((10 ^ 9 + 1000) * 2 ^ 32) ∧ at_ ((10 ^ 9 - 1000) * 2 ^ 32 - 1) < -1000 * 2 ^ 32 := by decide +kernel
/-! ### Serial ports -/

/-- Group 0 leads or follows with one receiving port of two 24-bit slots in a frame of 64 bits. -/
def serial (mode : Nat) (f : GrpState → GrpState) : State :=
  withImg (fun i => { i with grps := [⟨mode, 0, 64, 200⟩], ports := [⟨1, 0, 2, 32, 0, 24, none, 3, 10⟩] })
    { live with sap := { live.sap with grp := [(0, f { GrpState.reset with aligned := true, ever := true })] } }
theorem test_serial_premises :
    ((grpCfg (serial 1 id) 0).mode = 1 ∧ (serial 1 id).twin.acts = true ∧ (serial 1 id).grid.running = true
        ∧ (portCfg (serial 1 id) 0).dir = 1 ∧ (∀ h < 8, h ≠ 0 → (portCfg (serial 1 id) h).dir ≠ 1)
        ∧ (enabledSlots (portCfg (serial 1 id) 0))[1]? = some 1 ∧ (fnGet 1 0 (serial 1 id)).st = 0
        ∧ (fnGet 1 0 (serial 1 id)).since = 0 ∧ crossingTook (serial 1 id) 3208 = false)
      ∧ ((grpCfg (serial 2 id) 0).mode = 2 ∧ (grpGet 0 (serial 2 id)).aligned = true ∧ takesRelays (serial 2 id) = false
        ∧ (grpGet 0 (serial 2 id)).last = none)
      ∧ (grpGet 0 (serial 2 (fun g => { g with last := some 7 }))).last = some 7 ∧ (grpCfg (serial 2 id) 0).frameBits = 64
      ∧ (2 * (2566 - 7) < 5 * ((serial 2 id).C : Int))
      ∧ (grpGet 0 (serial 2 (fun g => { g with aligned := false }))).aligned = false
      ∧ (let v := grpGet 0 (serial 2 (fun g => { g with won := true, winLast := some 9, winPrev := some 5 }))
        v.won = true ∧ v.winLast = some 9 ∧ v.winPrev = some 5)
      ∧ (9 < ((serial 2 id).C : Int) * ((serial 2 id).B * (serial 2 id).grid.block : Nat))
      ∧ (∀ m ∈ [1, 2], let s := serial m (fun g => { g with aligned := false, stable := 8 })
        (grpGet 0 s).aligned = false ∧ 8 ≤ (grpGet 0 s).stable ∧ (grpCfg s 0).mode = m) := by decide +kernel
/-- A follower's frame one sub-block late and more: the first index that is missing is skipped (R434); and an early one. -/
theorem test_slips :
    (after (.serialFrame 0 (8 * 1024) 64 []) (serial 2 id) (fun t => ((grpGet 0 t).idx, (grpGet 0 t).slip)),
      after (.serialFrame 0 (-1) 64 []) (serial 2 id) (fun t => ((grpGet 0 t).next, cget 0x100D002C 0 t)))
      = (some (1, true), some (0, 1)) := by decide +kernel

/-! ### Analog ports -/

/-- DAC 7, headset port 1 and power stage 1 placed, in an acting unit. -/
def analog (h : HsState → HsState) (a : AmpState → AmpState) : State :=
  withImg (fun i => { i with
    dacSrc := List.replicate 8 (some 0), dacHp := List.replicate 8 false, hsOn := [true, true], ampSrc := [some 0, some 0] })
    { live with ana := { live.ana with hs := [(1, h HsState.reset)], amp := [(1, a AmpState.reset)] } }
def plugged (f : HsState → HsState) : State := analog (fun h => f { h with st := 4, type := 2, det := true }) id
theorem test_analog_premises :
    ((analog id id).img.dacSrc[7]?).isSome = true ∧ hsOn (analog id id) 1 = true ∧ (hsGet 1 (plugged id)).st = 4
      ∧ (let s := analog (fun h => { h with st := 2, det := true }) id
        (hsGet 1 s).st = 2 ∧ (hsGet 1 s).det = true)
      ∧ (let s := analog (fun h => { h with st := 3 }) id
        (hsGet 1 s).st = 3 ∧ (hsGet 1 s).det = false)
      ∧ (hsGet 1 (plugged id)).type = 2 ∧ (hsGet 1 (plugged id)).button = 0
      ∧ (hsGet 1 (plugged (fun h => { h with button := 4 }))).button ≠ 0
      ∧ (hsGet 1 (plugged (fun h => { h with type := 3 }))).type = 3
      ∧ (∀ d ∈ [1, 3], (hsGet 1 (plugged (fun h => { h with fadeDue := d }))).fadeDue = d)
      ∧ (hsGet 1 (plugged (fun h => { h with outDue := true }))).outDue = true
      ∧ (ampDrives (analog id id) 1 = true ∧ ampDrives live 1 = false ∧ ((analog id id).img.ampSrc[1]?).isSome = true)
      ∧ (let s := rset 0x10100008 1 16 (analog id (fun a => { a with limited := 3 }))
        (ampGet 1 s).limited = 3 ∧ bit 4 (rget 0x10100008 1 s) = true ∧ (ampGet 1 s).tries < 3 ∧ ampDrives s 1 = true)
      ∧ bit 4 (rget 0x10100008 1 (analog id id)) = false
      ∧ (ampGet 1 (analog id (fun a => { a with waiting := true, resume := true }))).waiting = true
      ∧ (ampGet 1 (analog id (fun a => { a with dcRun := 1 }))).dcRun = 1 ∧ (ampGet 1 (analog id id)).latched = false
      ∧ Serves 2 0x10100010 true (analog id id) ∧ (analog id id).ana.pvddLow = false := by unfold Serves; decide +kernel
/-- The button's window is found for the 20th time (R470); 8 A in the second window of the DC check latches (R478). -/
theorem test_analog_runs :
    (after (.micMeasure 1 330) (plugged (fun h => { h with window := 3, windowRun := 19 })) (fun t => (hsGet 1 t).button),
      after (.ampDcWindow 1 (-2001)) (analog id (fun a => { a with dcRun := 1 })) (fun t => (ampGet 1 t).latched),
      after (.complianceCheck 7 false 500 (-1)) (analog id id) (fun t => (dacGet 7 t).openSeen)) = (some 3, some true, some true) := by
  decide +kernel

/-! ### Memories -/

/-- Two trained channels. -/
def trained (f : Channel → Channel) : State :=
  withMem (fun m => { m with ch0 := f { m.ch0 with trained := true }, ch1 := f { m.ch1 with trained := true } }) live
theorem test_channel_premises :
    ((1 : Nat) < (withMem (fun m => { m with ranks := 2 }) (trained id)).mem.ranks ∧ (chanGet 1 (trained id)).trained = true
        ∧ (chanGet 1 (trained id)).dead = false ∧ owedOf 1 (chanGet 1 (trained (fun c => { c with owed1 := 7 }))) < 8
        ∧ ¬ owedOf 1 (chanGet 1 (trained (fun c => { c with owed1 := 8 }))) < 8)
      ∧ (trained id).grid.running = true ∧ (trained id).mem.ranks = 1
      ∧ (chanGet 1 (trained (fun c => { c with streak := 2 }))).streak + 1 = 3
      ∧ (chanGet 1 (trained (fun c => { c with alert := true }))).alert = true
      ∧ (withMem (fun m => { m with tempI2c := true, tempFails := 2 }) live).mem.tempFails = 2 ∧ live.mem.tempI2c = false
      ∧ (isPoisoned live 4096 = false ∧ isPoisoned (withMem (fun m => { m with poison := [512] }) live) 4096 = true
        ∧ live.mem.poisonTimes.length < 16)
      ∧ isPoisoned (trained id) ((64 * 0 + 8 * (15 % 8)) / 256 * 512 + 15 / 8 * 256 + (64 * 0 + 8 * (15 % 8)) % 256) = false := by
  decide +kernel
/-- A refresh is postponed up to eight times (R493); the third replay that fails in a row ends the channel (R496). -/
theorem test_channel_runs :
    (after (.refreshDue 1 0 true []) (trained (fun c => { c with owed0 := 7 })) (fun t => owedOf 0 (chanGet 1 t)),
      after (.refreshDue 1 0 true []) (trained (fun c => { c with owed0 := 8 })) (fun t => owedOf 0 (chanGet 1 t)),
      after (.parityAlert 1 true) (trained (fun c => { c with streak := 2 })) (fun t => (chanGet 1 t).dead))
      = (some 8, some 8, some true) := by decide +kernel
theorem test_window_premises :
    Serves 0 0x10000300 true live ∧ Serves 2 0x10000300 true live
      ∧ (Serves 0 0x80000000 false live ∧ Serves 0 0x80001FC0 true live ∧ (0x80001FC0 : Nat) / 64 = (0x80001FC0 + 4 * 16 - 1) / 64
        ∧ windowBase 0 live = 0 ∧ 0x1FC0 + 64 ≤ dramBytes live ∧ (∀ i < 16, isPoisoned live (0x1FC0 + 4 * i) = false)
        ∧ ∀ j < 64, dramReserved live (0x1FC0 + j) = false)
      ∧ formOk 0x80000020 4 9 live = false ∧ formOk 0x80000020 4 8 live = true
      ∧ (let s := rset 0x10120018 0 0xFFFF live
        dramBytes s < windowBase 0 s + 4 ∧ Serves 0 0x80000000 false s)
      ∧ Serves 2 0x80000000 true live ∧ ¬(live.mem.hostBase ≤ 0 ∧ 0 + 4 ≤ live.mem.hostBase + live.mem.hostLen) := by
  unfold Serves; decide +kernel
/-- A window word, and a burst that crosses a 64-byte boundary (R511). -/
theorem test_window_runs :
    (after (.dramWindowAccess 0 64 true ⟨4, 2, [5, 0x01020304]⟩) live (fun t => (sget 0 0 t.bus.rerr, dramByte t 71, dramByte t 64)),
      after (.dramWindowAccess 0 60 true ⟨4, 2, [5, 6]⟩) live (fun t => (sget 0 0 t.bus.rerr, dramByte t 60, 0)))
      = (some (0, 1, 5), some (1, 0, 0)) := by decide +kernel
/-- The NVM: page 0 may be programmed, a page of the fault log's ring may not. -/
theorem test_nvm_premises :
    Serves 0 0x10130048 true live ∧ Serves 2 0x10130048 true live ∧ Serves 0 0x10130044 true live ∧ Serves 2 0x10130044 false live
      ∧ live.nvm.op = 0
      ∧ (let s := withNvm (fun n => { n with log2 := 23 }) live
        0 * 256 < ringBase s ∧ 0 * 256 < flashSize s ∧ ringBase s = 32512 * 256 ∧ s.nvm.addr < flashSize s
          ∧ Serves 0 0x10130048 true s)
      ∧ flashSize live ≤ live.nvm.addr ∧ Memory.wf 0xFF live.nvm.flash = true
      ∧ (∀ op ∈ [1, 2, 3], (withNvm (fun n => { n with op := op }) live).nvm.op = op) := by unfold Serves; decide +kernel
def logging (times : List Nat) : State :=
  withNvm (fun n => { n with log2 := 23, flogTimes := times, flogHead := 32512 * 256 }) { live with ev := { live.ev with logQ := [(9, 5)] } }
theorem test_log_premises :
    (logging []).nvm.log2 ≠ 0 ∧ (logging []).ev.logQ = [(9, 5)] ∧ (logging []).nvm.flogDrops = 0
      ∧ 4 ≤ ((logging [1, 2, 3, 4]).nvm.flogTimes.filter (fun t => decide (5 < t + 32000000))).length := by decide +kernel
/-- Erasing, programming and the fault log (R572, R574). -/
theorem test_nvm_runs :
    (after (.nvmProgram 0 1) (withNvm (fun n => { n with log2 := 23 }) live) (fun t => (t.nvm.op, t.nvm.opAddr)),
      after (.nvmOpDone false) programming (fun t => (sget 0xFF 259 t.nvm.flash).toNat),
      after (.faultLogWrite 5) (logging []) (fun t => (t.nvm.flogSeq, t.nvm.flogHead)))
      = (some (2, 256), some 0x12, some (1, 32512 * 256 + 32)) := by decide +kernel

/-! ### Control messages -/

/-- A frame of the SPI port without a MAC, from a unit that takes such frames. -/
def message (type seq session : Nat) (p : List Nat) : InFrame :=
  ⟨true, 0, 0, [1, type, 0, 0] ++ beBytes 4 seq ++ beBytes 2 p.length ++ [0, 0] ++ beBytes 4 session ++ p⟩
def hosted (x : InFrame) : State := withTcm (fun t => { t with spiPlain := true, session := 3, input := [x] }) live
theorem test_messages_accepted :
    ∀ x ∈ [(1, beBytes 4 0x10000000 ++ [0, 1, 0, 0]), (2, beBytes 4 0x10080004 ++ [0, 1, 0, 0, 0, 0, 0, 5]),
        (3, [0, 1] ++ zeros_ 14), (4, zeros_ 16), (5, zeros_ 16), (6, zeros_ 16), (7, [1] ++ zeros_ 15), (7, [2] ++ zeros_ 8 ++ [4] ++ zeros_ 6), (9, [])],
      Accepted x.1 (message x.1 1 3 x.2) [] (hosted (message x.1 1 3 x.2)) := by unfold Accepted; decide +kernel
theorem test_message_premises :
    (frameOk [] = false ∧ frameOk (message 8 1 3 []).bytes = true ∧ typeListed (message 8 1 3 []).bytes = false)
      ∧ authOk (message 8 1 3 []) (hosted (message 8 1 3 [])) = true
      ∧ authOk (message 8 1 3 []) (withTcm (fun t => { t with spiPlain := false }) (hosted (message 8 1 3 []))) = false
      ∧ frSession (message 8 1 4 []).bytes ≠ 3
      ∧ seqCase (memoOf false 0 (withTcm (fun t => { t with memo := [(memoKey false 0, ⟨some 1, [(1, [7])]⟩)] }) live)) 1 = .resend [7]
      ∧ (hosted (message 7 1 3 [])).sheet.pending = none ∧ (hosted (message 7 1 3 [])).sheet.valid = false
      ∧ (hosted (message 7 1 3 [])).clk.inReset = false := by decide +kernel
/-- A READ is answered with the register's value and taken off the input (R586); a request of another session is stale (R584). -/
theorem test_message_runs :
    (after .tcmRead (hosted (message 1 1 3 (beBytes 4 0x10000000 ++ [0, 1, 0, 0])))
        (fun t => (t.tcm.input.length, t.tcm.spiOut.map (fun x => x.2.drop 16))),
      after .tcmRead (hosted (message 1 1 4 (beBytes 4 0x10000000 ++ [0, 1, 0, 0]))) (fun t => (t.tcm.input.length, t.tcm.stale)))
      = (some (0, [[0xFF, 0xFF, 0, 0, 0, 0, 0x18, 0]]), some (0, true)) := by decide +kernel

/-! ### Counters and the contact sheet -/

def counting : State := { live with evc := { live.evc with src := [(0, 0x18100)], cnt := [(0, 5)], snapPending := true } }
def asks_ (reg : Option Nat) : State :=
  { live with sheet := { live.sheet with pending := some ⟨true, 99, ⟨false, 1, 2, 7, 0, false, 1⟩, reg⟩ } }
theorem test_counter_premises :
    Serves 0 0x10150004 true live ∧ Serves 2 0x10150018 true live ∧ counting.evc.snapPending = true ∧ counting.grid.running = true
      ∧ (asks_ none).sheet.pending = some ⟨true, 99, ⟨false, 1, 2, 7, 0, false, 1⟩, none⟩ ∧ 99 < (asks_ none).grid.block
      ∧ (asks_ (some 99)).sheet.pending = some ⟨true, 99, ⟨false, 1, 2, 7, 0, false, 1⟩, some 99⟩
      ∧ bit 15 (sget 0 0 live.evc.src) = false := by unfold Serves; decide +kernel
/-- A snapshot with CLEAR_ON_SNAP keeps the count and clears the counter (R599). -/
theorem test_counter_runs :
    after .counterSnapshot counting (fun t => (decide (sget 0 0 t.evc.snap = sget 0 0 (blockEnd counting).evc.cnt), sget 0 0 t.evc.cnt))
      = some (true, 0) := by decide +kernel

/-! ### Frames -/

/-- Some command of each frame's list completes. -/
theorem test_frames_complete :
    (after (.complianceMuteEnd 7) (analog id id) (fun _ => ()) = some () ∧ after .lpiEnter wired (fun _ => ()) = some ()
      ∧ after .ppsTimeout live (fun _ => ()) = some () ∧ after (.frameAbsentTimeout 0) (serial 2 id) (fun _ => ()) = some ()
      ∧ after (.zqCalibration 1) (trained id) (fun _ => ()) = some () ∧ after (.nvmOpDone false) programming (fun _ => ()) = some ()) := by
  decide +kernel

end Sys2Proof.Tests
end

section
/-!
SUPPORT. The time counter: its halves and epochs, writes of entries and of the increment, the step before audio, and PPS_IN
(R388 to R393, R407, R410).
-/
namespace Sys2Proof.Machine

/-! ### Served writes by access code -/

/-- A served write of an RW register is that register's write after the answer. -/
theorem busWrite_rw {m a : Nat} {s : State} (h : Serves m a true s) (ha : accOf a = .rw) (v : Word) :
    busWrite m a v.toNat s = rwWrite m a (instOf a m s) v.toNat (answered m s) := by
  obtain ⟨hl, hu⟩ := accOf_range (a := a) (by simp [ha])
  rw [busWrite_register _ h hl hu, regWrite_served _ h, ha, Nat.mod_eq_of_lt v.isLt]

/-- A served write of a WO register is that register's command after the answer. -/
theorem busWrite_wo {m a : Nat} {s : State} (h : Serves m a true s) (ha : accOf a = .wo) {v : Nat} (hv : v < 2 ^ 32) :
    busWrite m a v s = woWrite m a (instOf a m s) v (answered m s) := by
  obtain ⟨hl, hu⟩ := accOf_range (a := a) (by simp [ha])
  rw [busWrite_register _ h hl hu, regWrite_served _ h, ha, Nat.mod_eq_of_lt hv]

/-- A register without reserved bits takes the whole word (R18). -/
theorem word_and_mask (v : Word) : v.toNat &&& 0xFFFFFFFF = v.toNat := by
  rw [show 0xFFFFFFFF = 2 ^ 32 - 1 from rfl, Nat.and_two_pow_sub_one_eq_mod, Nat.mod_eq_of_lt v.isLt]

/-! ### Events -/

/-- An event raised rings its code. -/
theorem rings_raise {code : Nat} (h : code < 256) (arg : Nat) (s : State) : Rings code s (raise code arg s) :=
  ⟨raise_eseq .., by rw [raise_pend, Nat.mod_eq_of_lt h]⟩

/-- An entry loaded while unarmed is reported by EV_PTP_EPOCH_STALE and counted; `x` is the time it leaves (R393). -/
theorem stale_reported (x : Time) (s : State) :
    let u := raise 0x59 0 (count 0x100C0094 0 1 { s with time := x })
    Rings 0x59 s u ∧ Counts 0x100C0094 0 1 s u ∧ u.time = x :=
  have hr : Rings 0x59 _ _ := rings_raise (by decide) 0 (count 0x100C0094 0 1 { s with time := x })
  have hc := cget_raiseAt (a := 0x100C0094) (i := 0) (by decide) false 0x59 0 (count 0x100C0094 0 1 { s with time := x })
  ⟨hr, hc.trans (cget_count_self ..), raise_time ..⟩

/-! ### The counter runs on -/

/-- CNT after `n` TIME cycles, with no half entered yet (R388). -/
def cntAdvanced (n : Nat) (s : State) : State :=
  { s with time := { s.time with cnt := (s.time.cnt + n * s.time.inc) % 2 ^ 64 } }

/-- No half is entered while CNT stays in its half. -/
theorem timeAdvance_same_half {n : Nat} {s : State}
    (h : (s.time.cnt + n * s.time.inc) / 2 ^ 63 = s.time.cnt / 2 ^ 63) :
    timeAdvance n s = cntAdvanced n s := by
  simp only [timeAdvance, h, Nat.sub_self, halvesEntered, cntAdvanced]

/-- One half is entered where CNT runs into the next one. -/
theorem timeAdvance_next_half {n : Nat} {s : State}
    (h : (s.time.cnt + n * s.time.inc) / 2 ^ 63 = s.time.cnt / 2 ^ 63 + 1) :
    timeAdvance n s = halfEnter (1 - halfOf s.time.cnt) (cntAdvanced n s) := by
  simp only [timeAdvance, h, Nat.add_sub_cancel_left, halvesEntered, cntAdvanced]

theorem halfEnter_one_of_armed {s : State} (h : s.time.armed1 = true) :
    halfEnter 1 s = { s with time := { s.time with armed0 := false } } := by
  simp [halfEnter, h]

theorem halfEnter_zero_of_armed {s : State} (h : s.time.armed0 = true) :
    halfEnter 0 s = { s with time := { s.time with armed1 := false } } := by
  simp [halfEnter, h]

/-- Entering the upper half unarmed loads E. -/
theorem halfEnter_one_of_unarmed {s : State} (h : s.time.armed1 = false) :
    halfEnter 1 s = raise 0x59 0 (count 0x100C0094 0 1 { s with time := { s.time with
      epoch1 := s.time.epoch0, armed1 := true, armed0 := false, stale := true } }) := by
  simp [halfEnter, h, nextEpoch]

/-- Entering the lower half unarmed loads E + 1. -/
theorem halfEnter_zero_of_unarmed {s : State} (h : s.time.armed0 = false) :
    halfEnter 0 s = raise 0x59 0 (count 0x100C0094 0 1 { s with time := { s.time with
      epoch0 := (s.time.epoch1 + 1) % 2 ^ 32, armed0 := true, armed1 := false, stale := true } }) := by
  simp [halfEnter, h, nextEpoch]

/-- CNT runs from the lower half into the upper one. -/
theorem timeAdvance_into_upper {n : Nat} {s : State} (hc : s.time.cnt < 2 ^ 63)
    (h : (s.time.cnt + n * s.time.inc) / 2 ^ 63 = 1) :
    timeAdvance n s = halfEnter 1 (cntAdvanced n s) := by
  have hq : s.time.cnt / 2 ^ 63 = 0 := Nat.div_eq_of_lt hc
  rw [timeAdvance_next_half (by rw [h, hq]), halfOf, hq]

/-- CNT runs from the upper half on into the lower one. -/
theorem timeAdvance_into_lower {n : Nat} {s : State} (hl : 2 ^ 63 ≤ s.time.cnt) (hc : s.time.cnt < 2 ^ 64)
    (h : (s.time.cnt + n * s.time.inc) / 2 ^ 63 = 2) :
    timeAdvance n s = halfEnter 0 (cntAdvanced n s) := by
  have hq : s.time.cnt / 2 ^ 63 = 1 := by omega
  rw [timeAdvance_next_half (by rw [h, hq]), halfOf, hq]

theorem timeAdvance_into_upper_unarmed {n : Nat} {s : State} (hc : s.time.cnt < 2 ^ 63)
    (h : (s.time.cnt + n * s.time.inc) / 2 ^ 63 = 1) (ha : s.time.armed1 = false) :
    timeAdvance n s = raise 0x59 0 (count 0x100C0094 0 1 { s with time := { s.time with
      cnt := (s.time.cnt + n * s.time.inc) % 2 ^ 64, epoch1 := s.time.epoch0, armed1 := true, armed0 := false
      stale := true } }) :=
  (timeAdvance_into_upper hc h).trans (halfEnter_one_of_unarmed (s := cntAdvanced n s) ha)

theorem timeAdvance_into_lower_unarmed {n : Nat} {s : State} (hl : 2 ^ 63 ≤ s.time.cnt) (hc : s.time.cnt < 2 ^ 64)
    (h : (s.time.cnt + n * s.time.inc) / 2 ^ 63 = 2) (ha : s.time.armed0 = false) :
    timeAdvance n s = raise 0x59 0 (count 0x100C0094 0 1 { s with time := { s.time with
      cnt := (s.time.cnt + n * s.time.inc) % 2 ^ 64, epoch0 := (s.time.epoch1 + 1) % 2 ^ 32, armed0 := true, armed1 := false
      stale := true } }) :=
  (timeAdvance_into_lower hl hc h).trans (halfEnter_zero_of_unarmed (s := cntAdvanced n s) ha)

/-! ### Writes of the epoch entries -/

/-- A served EPOCH_WRITE is the entry's write after the answer. -/
theorem exec_epochWrite {m e : Nat} {s : State} (hm : m < 5) (he : e < 2) (h : Serves m (0x100C0024 + 4 * e) true s)
    (v : Word) : exec (.epochWrite m e v) s = .next (epochWrite e v.toNat (answered m s)) := by
  refine withInstances_next.mpr ⟨by simp [hm, he], ?_⟩
  obtain rfl | rfl : e = 0 ∨ e = 1 := by omega
  all_goals
    rw [busWrite_rw h (by decide)]
    simp [rwWrite, rwMask, isEc, within, word_and_mask]

/-- Once audio has started, a value other than the expected one only sets BAD_WRITE. -/
theorem epochWrite_ignored {e v : Nat} {s : State} (hr : s.grid.running = true) (hv : v ≠ expectedEpoch s e) :
    epochWrite e v s = { s with time := { s.time with badWrite := true } } := by
  simp [epochWrite, hr, hv]

/-- Before audio every value, and then the expected one, is taken and arms the entry. -/
theorem epochWrite_taken {e v : Nat} {s : State} (h : s.grid.running = false ∨ v = expectedEpoch s e) :
    epochWrite e v s = { s with time :=
      if e = 0 then { s.time with epoch0 := v, armed0 := true } else { s.time with epoch1 := v, armed1 := true } } := by
  rcases h with h | h
  · simp [epochWrite, h]
  · simp [epochWrite, ← h]

/-! ### The increment -/

theorem exec_incWrite {m : Nat} {s : State} (hm : m < 5) (h : Serves m 0x100C001C true s) (v : Word) :
    exec (.incWrite m v) s = .next (incWrite m v.toNat (answered m s)) := by
  refine withInstance_next.mpr ⟨hm, ?_⟩
  rw [busWrite_rw h (by decide)]
  simp [rwWrite, rwMask, isEc, within, word_and_mask]

/-- The supervisor's servo holds a write of the increment in its range, and in holdover leaves the increment as it is; other
masters' writes are taken as they are (R389, R416). -/
theorem incWrite_eq (m : Nat) (v : Word) (s : State) : incWrite m v.toNat s
    = setInc (if m ≠ 0 then rget 0x100C0020 0 s % 16 * 2 ^ 32 + v.toNat else if s.time.holdover = true then s.time.inc
        else max (incRange s).1 (min (incRange s).2 (rget 0x100C0020 0 s % 16 * 2 ^ 32 + v.toNat))) s := by
  unfold incWrite
  rw [Nat.mod_eq_of_lt v.isLt]
  split
  · rfl
  · split <;> rfl

theorem setInc_time (i : Nat) (s : State) : (setInc i s).time = { s.time with inc := i } := rfl

theorem rget_setInc_frac (i : Nat) (s : State) : rget 0x100C001C 0 (setInc i s) = i % 2 ^ 32 :=
  rget_rset_self 0x100C001C 0 (i % 2 ^ 32) (rset 0x100C0020 0 (i / 2 ^ 32 % 16) s)

theorem rget_setInc_ns (i : Nat) (s : State) : rget 0x100C0020 0 (setInc i s) = i / 2 ^ 32 % 16 :=
  (rget_rset_of_ne (by decide) (i % 2 ^ 32) (rset 0x100C0020 0 (i / 2 ^ 32 % 16) s)).trans (rget_rset_self ..)

/-- With no domain selected, the servo's range is 3.998 ns to 4.002 ns (R389). -/
theorem incRange_of_unselected {s : State} (h : s.time.sel = none) : incRange s = (17171279250, 17188459118) := by
  simp [incRange, h]

/-! ### The step before audio -/

theorem exec_ptpStep {m : Nat} {s : State} (hm : m < 5) (h : Serves m 0x100C0038 true s) :
    exec (.ptpStep m) s = .next (ptpStep (answered m s)) := by
  refine withInstance_next.mpr ⟨hm, ?_⟩
  rw [busWrite_wo h (by decide) (by decide)]
  rfl

/-- The counter set to a time of `hi` epochs and `lo` times 2^32: CNT takes `lo`, and E is `hi` (R391). -/
theorem setTime_words {lo hi : Nat} (hlo : lo < 2 ^ 32) (hhi : hi < 2 ^ 32) (s : State) :
    let d : Int := (((hi * 2 ^ 64 + lo * 2 ^ 32) / 2 ^ 16 : Nat) : Int) - timeNow s
    setTime (hi * 2 ^ 64 + lo * 2 ^ 32) s = { s with time := { s.time with
      cnt := lo * 2 ^ 32, epoch0 := if lo < 2 ^ 31 then hi else (hi + 1) % 2 ^ 32, epoch1 := hi
      armed0 := true, armed1 := true
      dom0 := s.time.dom0.stepped (domCfg s 0) d, dom1 := s.time.dom1.stepped (domCfg s 1) d
      ppsAt := s.time.ppsAt.map (fun a => (a + d * 2 ^ 16).toNat) } } := by
  have hcnt : (hi * 2 ^ 64 + lo * 2 ^ 32) % 2 ^ 64 = lo * 2 ^ 32 := by omega
  have hepoch : (hi * 2 ^ 64 + lo * 2 ^ 32) / 2 ^ 64 % 2 ^ 32 = hi := by omega
  have hall : (hi * 2 ^ 64 + lo * 2 ^ 32) % 2 ^ 96 = hi * 2 ^ 64 + lo * 2 ^ 32 := by omega
  have hhalf : halfOf (lo * 2 ^ 32) = 0 ↔ lo < 2 ^ 31 := by unfold halfOf; omega
  simp only [setTime, timeNow, hcnt, hepoch, hall, hhalf]

/-- Setting the counter writes the time alone, and leaves alone there what PPS_IN has come to. -/
theorem setTime_only (v : Nat) (s : State) : ∃ x : Time, setTime v s = { s with time := x }
    ∧ x.ppsRun = s.time.ppsRun ∧ x.ppsOk = s.time.ppsOk ∧ x.ppsLoss = s.time.ppsLoss := ⟨_, rfl, rfl, rfl, rfl⟩

/-- Once audio runs, the step is refused and counted. -/
theorem ptpStep_running {s : State} (h : s.grid.running = true) : ptpStep s = count 0x100C008C 0 1 s := if_pos h

/-- Before audio the counter takes the step's two words. -/
theorem ptpStep_before_audio {s : State} (h : s.grid.running = false) :
    ptpStep s = setTime (rget 0x100C0034 0 s * 2 ^ 64 + rget 0x100C0030 0 s * 2 ^ 32) s := by
  unfold ptpStep
  rw [h]
  rfl

/-! ### PPS_IN -/

/-- Loss of a qualified PPS_IN is reported (R410). -/
theorem ppsLost_of_ok {s : State} (h : s.time.ppsOk = true) : ppsLost s
    = raise 0x5D 0 { s with time := { s.time with ppsRun := 0, ppsOk := false, ppsLoss := true } } := by
  simp [ppsLost, h]

/-- Loss of a PPS_IN that is not qualified ends the run of good edges alone. -/
theorem ppsLost_of_not_ok {s : State} (h : s.time.ppsOk = false) :
    ppsLost s = { s with time := { s.time with ppsRun := 0 } } := by
  simp [ppsLost, h]

/-- A good edge of running audio counts towards qualification and gives the offset from the nearest second. -/
theorem ppsEdge_in_window {ts a : Nat} {s : State} (ha : s.time.ppsAt = some a) (hr : s.grid.running = true)
    (hlo : -1000 * 2 ^ 32 ≤ (extended s ts : Int) - a - 10 ^ 9 * 2 ^ 32)
    (hhi : (extended s ts : Int) - a - 10 ^ 9 * 2 ^ 32 < 1000 * 2 ^ 32) :
    ppsEdge ts s = { s with time := { s.time with
      ppsAt := some (extended s ts), ppsRun := min 8 (s.time.ppsRun + 1)
      ppsOk := s.time.ppsOk || decide (8 ≤ min 8 (s.time.ppsRun + 1))
      ppsOffset := rhu ((extended s ts : Int) - (nearestSecond (extended s ts) * 10 ^ 9 * 2 ^ 32 : Nat)) (2 ^ 32) } } := by
  simp only [ppsEdge, ha, hlo, hhi, hr, decide_true, Bool.and_self, Bool.true_or, if_true, Bool.not_true, Bool.and_false,
    Bool.false_and, Bool.false_eq_true, if_false]

/-- An edge outside the window loses PPS_IN, and then changes the time alone, but nothing of what the loss left. -/
theorem ppsEdge_outside {ts a : Nat} {s : State} (ha : s.time.ppsAt = some a)
    (h : (extended s ts : Int) - a - 10 ^ 9 * 2 ^ 32 < -1000 * 2 ^ 32
      ∨ 1000 * 2 ^ 32 ≤ (extended s ts : Int) - a - 10 ^ 9 * 2 ^ 32) :
    ∃ x : Time, ppsEdge ts s = { ppsLost s with time := x } ∧ x.ppsRun = 0
      ∧ x.ppsOk = (ppsLost s).time.ppsOk ∧ x.ppsLoss = (ppsLost s).time.ppsLoss := by
  unfold ppsEdge
  extract_lets +onlyGivenNames t ok u run src w sec off
  have hok : ok = false := by
    simp only [ok, ha, Bool.and_eq_false_iff, decide_eq_false_iff_not, not_le, not_lt]
    exact h
  have hu : u = ppsLost s := by simp only [u, hok, ha]; rfl
  have hrun : run = 0 := by simp only [run, hok]; rfl
  have hframe : ∀ x : Time, { w with time := x } = { ppsLost s with time := x } := fun x => by simp only [w, hu]
  have hwrun : w.time.ppsRun = 0 := hrun
  have hqual : w.time.ppsOk = (ppsLost s).time.ppsOk := by simp [w, hu, hrun]
  have hloss : w.time.ppsLoss = (ppsLost s).time.ppsLoss := by simp only [w, src, hu]
  clear_value w sec off
  split
  · extract_lets +onlyGivenNames now v
    obtain ⟨x, hx, hxrun, hxqual, hxloss⟩ := setTime_only now.toNat w
    rw [show v = { w with time := x } from hx]
    exact ⟨_, hframe _, hxrun.trans hwrun, hxqual.trans hqual, hxloss.trans hloss⟩
  · exact ⟨_, hframe _, hwrun, hqual, hloss⟩

/-- An edge outside the window of a qualified PPS_IN raises EV_PTP_PPS_LOSS. -/
theorem ppsEdge_loses {ts a : Nat} {s : State} (ha : s.time.ppsAt = some a) (hok : s.time.ppsOk = true)
    (h : (extended s ts : Int) - a - 10 ^ 9 * 2 ^ 32 < -1000 * 2 ^ 32
      ∨ 1000 * 2 ^ 32 ≤ (extended s ts : Int) - a - 10 ^ 9 * 2 ^ 32) :
    Rings 0x5D s (ppsEdge ts s) ∧ (ppsEdge ts s).time.ppsOk = false ∧ (ppsEdge ts s).time.ppsRun = 0
      ∧ (ppsEdge ts s).time.ppsLoss = true := by
  obtain ⟨x, hx, hrun, hqual, hloss⟩ := ppsEdge_outside ha h
  rw [ppsLost_of_ok hok] at hx hqual hloss
  rw [raise_time] at hqual hloss
  rw [hx]
  exact ⟨rings_raise (by decide) 0 { s with time := _ }, hqual, hrun, hloss⟩

/-! ### The obligation -/

/-- Settles O51: each clause is one of the laws above, read at the command's own operands. -/
theorem timeCounter : Obligations.TimeCounter := by
  intro s
  refine ⟨?halves, ?entries, ?increment, incRange_of_unselected,
    fun i => ⟨setInc_time i s, rget_setInc_frac i s, rget_setInc_ns i s⟩, ?step, ?edges,
    fun hok => congrArg _ (ppsLost_of_ok hok), fun hok => congrArg _ (ppsLost_of_not_ok hok)⟩
  case halves =>
    intro n v hc
    refine ⟨fun h => congrArg _ (timeAdvance_same_half h), fun hl h => ⟨fun ha => ?_, fun ha => ?_⟩,
      fun hl h => ⟨fun ha => ?_, fun ha => ?_⟩⟩
    · exact congrArg _ ((timeAdvance_into_upper hl h).trans (halfEnter_one_of_armed (s := cntAdvanced n s) ha))
    · exact ⟨_, congrArg Host.Outcome.next (timeAdvance_into_upper_unarmed hl h ha), stale_reported ..⟩
    · exact congrArg _ ((timeAdvance_into_lower hl hc h).trans (halfEnter_zero_of_armed (s := cntAdvanced n s) ha))
    · exact ⟨_, congrArg Host.Outcome.next (timeAdvance_into_lower_unarmed hl hc h ha), stale_reported ..⟩
  case entries =>
    intro m e v hm he h
    rw [exec_epochWrite hm he h]
    exact ⟨fun hr hv => congrArg _ (epochWrite_ignored hr hv), fun hv => congrArg _ (epochWrite_taken hv)⟩
  case increment =>
    intro m v hm h
    rw [exec_incWrite hm h, incWrite_eq]
    rfl
  case step =>
    intro m hm h
    rw [exec_ptpStep hm h]
    refine ⟨fun hr => congrArg _ (ptpStep_running hr), fun hr hlo hhi => congrArg _ ?_⟩
    exact (ptpStep_before_audio (s := answered m s) hr).trans (setTime_words hlo hhi (answered m s))
  case edges =>
    intro ts a ha
    exact ⟨fun hr hlo hhi => congrArg _ (ppsEdge_in_window ha hr hlo hhi),
      fun hok h => ⟨_, rfl, ppsEdge_loses ha hok h⟩⟩

end Sys2Proof.Machine
end

section
/-!
SUPPORT. The latches of wide registers (R537): what a read of a low word puts into the reading master's latch, and what a
read of a word answers that is read through one.
-/
namespace Sys2Proof.Machine

/-! ### One latched word -/

/-- What the latches hold under a key. -/
def latchAt (key : Nat) (s : State) : Option Nat :=
  (s.bus.latch.find? (fun e => decide (e.1 = key))).map Prod.snd

theorem find?_sput_self {α : Type} (k : Nat) (v : α) (m : Sparse α) :
    (sput k v m).find? (fun e => decide (e.1 = k)) = some (k, v) := by
  induction m with
  | nil => simp [sput]
  | cons c t ih =>
    rw [sput]
    split
    · simp
    · split
      · simp
      · next h => rw [List.find?_cons_of_neg (by simpa using h), ih]

theorem find?_sput_of_ne {α : Type} {j k : Nat} (h : j ≠ k) (v : α) (m : Sparse α) :
    (sput k v m).find? (fun e => decide (e.1 = j)) = m.find? (fun e => decide (e.1 = j)) := by
  have hput (t : Sparse α) : List.find? (fun e => decide (e.1 = j)) ((k, v) :: t) = t.find? (fun e => decide (e.1 = j)) :=
    List.find?_cons_of_neg (by simpa using h.symm)
  induction m with
  | nil => exact hput []
  | cons c t ih =>
    rw [sput]
    split
    · exact hput _
    · split
      · next hk => rw [hput, List.find?_cons_of_neg (by simpa [hk] using h.symm)]
      · rw [List.find?_cons, List.find?_cons, ih]

@[simp] theorem latchAt_latchPut_self (k v : Nat) (s : State) : latchAt k (latchPut k v s) = some v :=
  congrArg (Option.map Prod.snd) (find?_sput_self k v s.bus.latch)

theorem latchAt_latchPut_of_ne {j k : Nat} (h : j ≠ k) (v : Nat) (s : State) :
    latchAt j (latchPut k v s) = latchAt j s :=
  congrArg (Option.map Prod.snd) (find?_sput_of_ne h v s.bus.latch)

/-! ### Several latched words -/

/-- The state with words latched under their keys, the last one under a key standing. -/
def latchWords (l : List (Nat × Nat)) (s : State) : State := l.foldl (fun t e => latchPut e.1 e.2 t) s

/-- Latching changes the latches alone. -/
theorem latchWords_only (l : List (Nat × Nat)) (s : State) :
    ∃ x, latchWords l s = { s with bus := { s.bus with latch := x } } := by
  induction l generalizing s with
  | nil => exact ⟨_, rfl⟩
  | cons e l ih =>
    obtain ⟨x, hx⟩ := ih (latchPut e.1 e.2 s)
    exact ⟨x, hx⟩

theorem latchAt_latchWords_of_ne {k : Nat} {l : List (Nat × Nat)} (h : ∀ e ∈ l, k ≠ e.1) (s : State) :
    latchAt k (latchWords l s) = latchAt k s := by
  induction l generalizing s with
  | nil => rfl
  | cons e l ih =>
    obtain ⟨he, hl⟩ := List.forall_mem_cons.mp h
    exact (ih hl _).trans (latchAt_latchPut_of_ne he ..)

/-- A word latched under a key that no other value shares is what the key holds. -/
theorem latchAt_latchWords_of_mem {k v : Nat} {l : List (Nat × Nat)} (hm : (k, v) ∈ l) (h : ∀ e ∈ l, e.1 = k → e.2 = v)
    (s : State) : latchAt k (latchWords l s) = some v := by
  induction l generalizing s with
  | nil => simp at hm
  | cons e l ih =>
    obtain ⟨he, hl⟩ := List.forall_mem_cons.mp h
    by_cases hlater : (k, v) ∈ l
    · exact ih hlater hl _
    · obtain rfl : (k, v) = e := (List.mem_cons.mp hm).resolve_right hlater
      have hne : ∀ e ∈ l, k ≠ e.1 := fun e' he' hk => hlater (by
        rwa [show (k, v) = e' from Prod.ext hk (hl e' he' hk.symm).symm])
      exact (latchAt_latchWords_of_ne hne _).trans (latchAt_latchPut_self ..)

/-! ### What a read of a low word latches -/

/-- The slots of an object's panning that a read of PAN.ST_BOUNDARY_LO latches. -/
def slotEntries (master : Nat) (s : State) (k : Nat) : List (Nat × Nat) :=
  let inst := instOf 0x10060014 master s
  let w := if s.img.objs.length ≤ inst then (0, 0) else panSlotWords (objGet inst s) k
  [(latchKey 0x1006002C master (k + 1), w.2), (latchKey 0x10060028 master (k + 1), w.1)]

/-- Everything that a read of a low word latches: keys and values. -/
def latchEntries (master addr : Nat) (s : State) : List (Nat × Nat) :=
  (latched addr).map (fun a => (latchKey a master 0, regNow master a s))
    ++ if addr = 0x10060014 then (List.range 64).flatMap (slotEntries master s) else []

theorem latchAll_eq_latchWords (master addr : Nat) (s : State) :
    latchAll master addr s = latchWords (latchEntries master addr s) s := by
  unfold latchAll latchEntries latchWords
  rw [List.foldl_append, List.foldl_map]
  split
  · next h =>
    subst h
    rw [List.foldl_flatMap]
    rfl
  · rfl

/-- A read's latching changes the latches alone. -/
theorem latchAll_only (master addr : Nat) (s : State) :
    ∃ x, latchAll master addr s = { s with bus := { s.bus with latch := x } } :=
  latchAll_eq_latchWords master addr s ▸ latchWords_only ..

/-- An entry's key is that of a latched word, or of a slot of PAN. -/
theorem mem_latchEntries {master addr : Nat} {s : State} {e : Nat × Nat} (h : e ∈ latchEntries master addr s) :
    (∃ a ∈ latched addr, e = (latchKey a master 0, regNow master a s))
      ∨ ∃ k < 64, e.1 = latchKey 0x10060028 master (k + 1) ∨ e.1 = latchKey 0x1006002C master (k + 1) := by
  rcases List.mem_append.mp h with h | h
  · obtain ⟨a, ha, he⟩ := List.mem_map.mp h
    exact .inl ⟨a, ha, he.symm⟩
  · split at h
    · obtain ⟨k, hk, he⟩ := List.mem_flatMap.mp h
      refine .inr ⟨k, List.mem_range.mp hk, ?_⟩
      simp only [slotEntries, List.mem_cons, List.not_mem_nil, or_false] at he
      exact he.symm.imp (congrArg Prod.fst) (congrArg Prod.fst)
    · simp at h

/-- A key tells its master. -/
theorem latchKey_mod (addr slot : Nat) {master : Nat} (h : master < 5) : latchKey addr master slot % 16 = master := by
  unfold latchKey
  omega

theorem latchEntries_mod {master addr : Nat} {s : State} (hm : master < 5) {e : Nat × Nat}
    (h : e ∈ latchEntries master addr s) : e.1 % 16 = master := by
  rcases mem_latchEntries h with ⟨a, -, rfl⟩ | ⟨k, -, he | he⟩
  · exact latchKey_mod _ _ hm
  · rw [he, latchKey_mod _ _ hm]
  · rw [he, latchKey_mod _ _ hm]

/-- A latched word holds its value of the read's own cycle. -/
theorem latchAt_latchAll {master addr a : Nat} (ha : a ∈ latched addr) (s : State) :
    latchAt (latchKey a master 0) (latchAll master addr s) = some (regNow master a s) := by
  have hmem : (latchKey a master 0, regNow master a s) ∈ latchEntries master addr s :=
    List.mem_append_left _ (List.mem_map.mpr ⟨a, ha, rfl⟩)
  rw [latchAll_eq_latchWords]
  refine latchAt_latchWords_of_mem hmem (fun e he hk => ?_) s
  rcases mem_latchEntries he with ⟨b, -, rfl⟩ | ⟨k, hk64, hslot⟩
  · obtain rfl : b = a := by
      simp only [latchKey] at hk
      omega
    rfl
  · simp only [latchKey] at hk hslot
    omega

/-- Latching leaves the selections alone. -/
theorem selOf_latchAll (b k master addr : Nat) (s : State) : selOf b k (latchAll master addr s) = selOf b k s := by
  obtain ⟨x, hx⟩ := latchAll_only master addr s
  rw [hx]
  rfl

theorem latchOf_eq_latchAt {a : Nat} (h28 : a ≠ 0x10060028) (h2C : a ≠ 0x1006002C) (master : Nat) (s : State) :
    latchOf master a s = latchAt (latchKey a master 0) s := by
  simp [latchOf, latchAt, h28, h2C]

/-- One master's reads leave every other master's latches alone. -/
theorem latchOf_latchAll_of_ne {master k : Nat} (hm : master < 5) (hk : k < 5) (h : k ≠ master) (addr a : Nat) (s : State) :
    latchOf k a (latchAll master addr s) = latchOf k a s := by
  unfold latchOf
  rw [selOf_latchAll, latchAll_eq_latchWords]
  refine latchAt_latchWords_of_ne (fun e he heq => h ?_) s
  rw [← latchEntries_mod hm he, ← heq, latchKey_mod _ _ hk]

/-! ### Wide registers -/

/-- A register whose read does nothing but latch: no data port steps, no effect core's memory, no slot of PAN. -/
def ReadsPlain (a : Nat) : Prop :=
  (0x10000000 ≤ a ∧ a < 0x10180000) ∧ isEc a = false
    ∧ a ≠ 0x10060028 ∧ a ≠ 0x1006002C ∧ a ≠ 0x10060034 ∧ a ≠ 0x10140090 ∧ a ≠ 0x10130044

theorem readsPlain_of_low : ∀ a ∈ lowWords, ReadsPlain a := by
  unfold ReadsPlain
  decide

theorem readsPlain_of_mem_latched : ∀ l ∈ lowWords, ∀ a ∈ latched l, ReadsPlain a := by
  unfold ReadsPlain
  decide

/-- No low word is itself read through a latch. -/
theorem isLatched_of_low : ∀ a ∈ lowWords, isLatched a = false := by decide

theorem readsPlain_of_isLatched {a : Nat} (h : isLatched a = true) : ReadsPlain a := by
  obtain ⟨l, hl, ha⟩ := List.any_eq_true.mp h
  exact readsPlain_of_mem_latched l hl a (by simpa using ha)

/-- A word that is no low word latches none. -/
theorem latched_of_not_low {a : Nat} (h : a ∉ lowWords) : latched a = [] := by
  unfold latched
  split
  case h_27 => rfl
  all_goals exact absurd (by decide) h

theorem latchAll_of_not_low {a : Nat} (h : a ∉ lowWords) (master : Nat) (s : State) : latchAll master a s = s := by
  have hpan : a ≠ 0x10060014 := fun e => h (e ▸ by decide)
  simp [latchAll, latched_of_not_low h, hpan]

/-! ### The reads -/

/-- A read that clears nothing and only latches: its value, or the latch's. -/
theorem regRead_plain {m a : Nat} {s : State} (hg : gated a m s = false) (hp : ReadsPlain a) (hc : accOf a ≠ .rc) :
    regRead m a s = (if isLatched a then (latchOf m a (latchAll m a s)).getD (latchReset a) else regNow m a s,
      latchAll m a s) := by
  obtain ⟨-, hec, h28, h2C, h34, h90, h44⟩ := hp
  unfold regRead
  simp only [hg, hc, hec, h28, h2C, h34, h90, h44, Bool.false_eq_true, if_false, Bool.false_and, decide_false, Bool.or_false]
  split <;> rfl

/-- LATCHED_READ of a wide register that a read does not clear is the register's read, answered. -/
theorem exec_latchedRead {m : Nat} {addr : Word} {s : State} (hm : m < 5) (h : Serves m addr.toNat false s)
    (hw : addr.toNat ∈ lowWords ∨ isLatched addr.toNat = true) (hc : accOf addr.toNat ≠ .rc) :
    exec (.latchedRead m addr) s = .next (busAnswer m
      (if isLatched addr.toNat then (latchOf m addr.toNat (latchAll m addr.toNat s)).getD (latchReset addr.toNat)
        else regNow m addr.toNat s) false (latchAll m addr.toNat s)) := by
  have hp : ReadsPlain addr.toNat := hw.elim (readsPlain_of_low _) readsPlain_of_isLatched
  have ⟨⟨hl, hu⟩, _⟩ := hp
  have hrow : latchedRead m addr.toNat s = busRead m addr.toNat s := by
    rcases hw with hw | hw <;> simp [latchedRead, hw]
  refine withInstance_next.mpr ⟨hm, ?_⟩
  rw [hrow, busRead_register h hl hu, regRead_plain h.2.2 hp hc]

/-- An answer to a read changes the answers alone, and the read's latching the latches. -/
theorem busAnswer_latchAll_only (m v addr : Nat) (s : State) :
    let t := busAnswer m v false (latchAll m addr s)
    t = { s with bus := t.bus } ∧ SameRegs t.bus s.bus := by
  obtain ⟨x, hx⟩ := latchAll_only m addr s
  rw [hx]
  exact ⟨rfl, rfl, rfl, rfl⟩

/-- What a master is answered is the word it reads. -/
@[simp] theorem rdata_busAnswer (m v : Nat) (err : Bool) (s : State) : sget 0 m (busAnswer m v err s).bus.rdata = v :=
  sget_sset_self ..

/-- An answer leaves the latches alone. -/
@[simp] theorem latchOf_busAnswer (k a m v : Nat) (err : Bool) (s : State) :
    latchOf k a (busAnswer m v err s) = latchOf k a s := rfl

/-! ### The obligation -/

/-- Settles O9: the first clause is what a low word's read latches, the second that another word's read latches nothing. -/
theorem latchedReads : Obligations.LatchedReads := by
  intro m addr s hm h
  constructor
  case left =>
    intro hlow hc
    have hnot : isLatched addr.toNat = false := isLatched_of_low _ hlow
    obtain ⟨hframe, hregs⟩ := busAnswer_latchAll_only m (regNow m addr.toNat s) addr.toNat s
    have hexec := exec_latchedRead hm h (.inl hlow) hc
    rw [hnot] at hexec
    refine ⟨_, hexec, hframe, hregs, rdata_busAnswer .., fun a ha => ?_,
      fun k a hk hne => latchOf_latchAll_of_ne hm hk hne addr.toNat a s⟩
    obtain ⟨-, -, h28, h2C, -⟩ := readsPlain_of_mem_latched _ hlow a ha
    rw [latchOf_busAnswer, latchOf_eq_latchAt h28 h2C, latchAt_latchAll ha]
  case right =>
    intro hl hc hlow
    have hexec := exec_latchedRead hm h (.inr hl) hc
    rw [latchAll_of_not_low hlow, if_pos hl] at hexec
    exact ⟨_, hexec, rfl, ⟨rfl, rfl, rfl⟩, rfl, rdata_busAnswer ..⟩

end Sys2Proof.Machine
end

section
/-!
SUPPORT. The event counters: the write of a counter's source, and the counters that an occurrence leaves alone (R597, R598).
-/
namespace Sys2Proof.Machine

/-! ### The word of EVC.SRC -/

theorem bit_eq_testBit (b w : Nat) : bit b w = w.testBit b := by
  rw [bit, Nat.shiftRight_eq_div_pow, Nat.testBit_eq_decide_div_mod_eq]

/-- SOURCE, bits 8:0, has no reserved bit. -/
theorem source_and_mask (v : Nat) : (v &&& 0x181FF) % 512 = v % 512 := by
  rw [show 512 = 2 ^ 9 from rfl, Nat.and_mod_two_pow, show 0x181FF % 2 ^ 9 = 2 ^ 9 - 1 from rfl,
    Nat.and_two_pow_sub_one_eq_mod, Nat.mod_mod]

/-- ENABLE, bit 15, is no reserved bit. -/
theorem enable_and_mask (v : Nat) : bit 15 (v &&& 0x181FF) = bit 15 v := by
  rw [bit_eq_testBit, bit_eq_testBit, Nat.testBit_and, show Nat.testBit 0x181FF 15 = true by decide, Bool.and_true]

/-! ### The write -/

/-- EVC.SRC reaches the counter that the master selects (R608, R611). -/
theorem instOf_evcSrc (m : Nat) (s : State) : instOf 0x10150004 m s = rget 0x10150000 m s := rfl

/-- A served EVC_SRC_WRITE is the source's write after the answer. -/
theorem exec_evcSrcWrite {m : Nat} {s : State} (hm : m < 5) (h : Serves m 0x10150004 true s) (v : Word) :
    exec (.evcSrcWrite m v) s = .next (evcSrcWrite (rget 0x10150000 m s) v.toNat (answered m s)) := by
  refine withInstance_next.mpr ⟨hm, ?_⟩
  rw [busWrite_rw h (by decide), instOf_evcSrc]
  simp [rwWrite, rwMask, isEc, within, evcSrcWrite]

/-- The counter written is at 0. -/
theorem cnt_evcSrcWrite_self (k v : Nat) (s : State) : sget 0 k (evcSrcWrite k v s).evc.cnt = 0 :=
  sget_sset_self 0 k 0 s.evc.cnt

/-- The source written reads the word without its reserved bits. -/
theorem src_evcSrcWrite_self (k v : Nat) (s : State) : sget 0 k (evcSrcWrite k v s).evc.src = v &&& 0x181FF :=
  sget_sset_self ..

theorem cnt_evcSrcWrite_of_ne {j k : Nat} (h : j ≠ k) (v : Nat) (s : State) :
    sget 0 j (evcSrcWrite k v s).evc.cnt = sget 0 j s.evc.cnt := sget_sset_of_ne 0 0 h 0 s.evc.cnt

theorem src_evcSrcWrite_of_ne {j k : Nat} (h : j ≠ k) (v : Nat) (s : State) :
    sget 0 j (evcSrcWrite k v s).evc.src = sget 0 j s.evc.src := sget_sset_of_ne _ _ h ..

/-! ### Occurrences -/

/-- Writes of other keys leave a key's value alone, whatever each writes. -/
theorem sget_foldl_sset_of_not_mem {α : Type} [DecidableEq α] (d : α) (f : Nat → Sparse α → α) {j : Nat} {l : List Nat}
    (h : j ∉ l) (m : Sparse α) : sget d j (l.foldl (fun m k => sset d k (f k m) m) m) = sget d j m := by
  induction l generalizing m with
  | nil => rfl
  | cons k ks ih =>
    obtain ⟨hk, hks⟩ := not_or.mp (List.mem_cons.not.mp h)
    rw [List.foldl_cons, ih hks, sget_sset_of_ne d d hk]

/-- A counter with ENABLE 0 holds its value at every occurrence (R598). -/
theorem evcOccur_disabled {j : Nat} {s : State} (h : bit 15 (sget 0 j s.evc.src) = false) (src n : Nat) :
    sget 0 j (evcOccur src n s).evc.cnt = sget 0 j s.evc.cnt := by
  refine sget_foldl_sset_of_not_mem 0 (fun k m => min (sget 0 k m + n) (2 ^ 48 - 1)) (fun hmem => ?_) s.evc.cnt
  simp [h] at hmem

/-! ### The obligation -/

/-- Settles O58: a served write is the source's write after the answer, and an occurrence reaches enabled counters alone. -/
theorem eventCounterSources : Obligations.EventCounterSources := by
  refine ⟨fun s m v hm h => ?_, fun s src n j h => evcOccur_disabled h src n⟩
  refine ⟨_, exec_evcSrcWrite hm h v, rfl, cnt_evcSrcWrite_self .., ?source, ?enable,
    fun j hj => ⟨cnt_evcSrcWrite_of_ne hj .., src_evcSrcWrite_of_ne hj ..⟩⟩
  case source => rw [src_evcSrcWrite_self, source_and_mask]
  case enable => rw [src_evcSrcWrite_self, enable_and_mask]

end Sys2Proof.Machine
end

section
/-!
SUPPORT. The whole machine: every command is an effect on the instances that it names, which leaves the queue alone and keeps the
byte stores canonical, and of the flash only two commands write.
-/
namespace Sys2Proof.Machine

/-! ### The shape of a command -/

/-- The commands that write the flash (R572, R575). -/
def WritesFlash (c : Instr) : Prop := (∃ fail, c = .nvmOpDone fail) ∨ ∃ safe, c = .faultLogWrite safe

/-- What a command leaves of the queue, the byte stores and the flash. -/
def KeepsBut (c : Instr) (s t : State) : Prop := Keeps s t ∨ WritesFlash c ∧ FlashOnly s t

/-- A command is an effect on the instances that it names: it is well formed exactly when they exist, and then it has it. -/
def Row (c : Instr) (s : State) : Prop :=
  ∃ l t, exec c s = withInstances l t ∧ (c.wf = true ↔ ∀ x ∈ l, x.2.1 < x.2.2) ∧ KeepsBut c s t

theorem rowPlain {c : Instr} {s t : State} (he : exec c s = .next t) (hw : c.wf = true) (hk : KeepsBut c s t) : Row c s :=
  ⟨[], t, he, by simp [hw], hk⟩

theorem rowOne {c : Instr} {s t : State} {what : String} {i n : Nat} (he : exec c s = withInstance what i n t)
    (hw : c.wf = decide (i < n)) (hk : KeepsBut c s t) : Row c s :=
  ⟨[(what, i, n)], t, he, by simp [hw], hk⟩

theorem rowTwo {c : Instr} {s t : State} {what what' : String} {i n i' n' : Nat}
    (he : exec c s = withInstances [(what, i, n), (what', i', n')] t) (hw : c.wf = (decide (i < n) && decide (i' < n')))
    (hk : KeepsBut c s t) : Row c s :=
  ⟨_, t, he, by simp [hw], hk⟩

/-- Every command of the table has that shape. -/
theorem exec_row : (c : Instr) → (s : State) → Row c s
  | .powerOn, _ => rowPlain rfl rfl (.inl (powerOn_keeps ..))
  | .resetNLow, _ => rowPlain rfl rfl (.inl (resetNLow_keeps ..))
  | .pgoodChange _, _ => rowPlain rfl rfl (.inl (pgoodChange_keeps ..))
  | .resetRelease _ _ _, _ => rowPlain rfl rfl (.inl (.of_kept (resetRelease_kept ..)))
  | .softwareReset, _ => rowPlain rfl rfl (.inl (busWrite_keeps ..))
  | .refWindowEnd _ _, _ => rowPlain rfl rfl (.inl (.of_kept (refWindow_kept ..)))
  | .trimWindowEnd _, _ => rowPlain rfl rfl (.inl (.of_kept (trimWindow_kept ..)))
  | .pllLock _, _ => rowOne rfl rfl (.inl (.of_kept (pllLock_kept ..)))
  | .pllUnlock _, _ => rowOne rfl rfl (.inl (.of_kept (pllUnlock_kept ..)))
  | .clockFaultReset, _ => rowPlain rfl rfl (.inl (clockFaultReset_keeps ..))
  | .domSwitchGo _, _ => rowPlain rfl rfl (.inl (busWrite_keeps ..))
  | .dividerStep _ _, _ => rowOne rfl rfl (.inl (.of_kept (dividerStep_kept ..)))
  | .islandStart, _ => rowPlain rfl rfl (.inl (.of_kept (islandStart_kept ..)))
  | .bootStepEnd _, _ => rowPlain rfl rfl (.inl (bootStepEnd_keeps ..))
  | .trainingComplete _ _, _ => rowPlain rfl rfl (.inl (.of_kept (trainingDone_kept ..)))
  | .trainingRetry _ _, _ => rowPlain rfl rfl (.inl (.of_kept (trainingDone_kept ..)))
  | .imageApply, _ => rowPlain rfl rfl (.inl (imageApply_keeps ..))
  | .audioStart, _ => rowPlain rfl rfl (.inl (startAudio_keeps ..))
  | .noPartnerTimeout, _ => rowPlain rfl rfl (.inl (.of_kept (noPartnerTimeout_kept ..)))
  | .helloTimeout, _ => rowPlain rfl rfl (.inl (.of_kept (helloTimeout_kept ..)))
  | .wdtKick, _ => rowPlain rfl rfl (.inl (busWrite_keeps ..))
  | .watchdogExpiry, _ => rowPlain rfl rfl (.inl (watchdogExpiry_keeps ..))
  | .thermalWarn _, _ => rowPlain rfl rfl (.inl (.of_kept (thermal_kept ..)))
  | .thermalShutdown, _ => rowPlain rfl rfl (.inl (thermalShutdown_keeps ..))
  | .blockTick _, _ => rowPlain rfl rfl (.inl (blockTick_keeps ..))
  | .subBlockBoundary _ _, _ => rowPlain rfl rfl (.inl (subBlock_keeps ..))
  | .latchedRead _ _, _ => rowOne rfl rfl (.inl (.of_kept (latchedRead_kept ..)))
  | .counterReadClear _ _, _ => rowOne rfl rfl (.inl (.of_kept (counterRead_kept ..)))
  | .w1cWrite _ _ _, _ => rowOne rfl rfl (.inl (w1cRow_keeps ..))
  | .registerWrite _ _ _, _ => rowOne rfl rfl (.inl (busWrites_keeps ..))
  | .layDataRead _, _ => rowOne rfl rfl (.inl (.of_kept (busRead_kept ..)))
  | .memDataRead _ _, _ => rowTwo rfl rfl (.inl (.of_kept (busRead_kept ..)))
  | .sheetDataRead _, _ => rowOne rfl rfl (.inl (.of_kept (busRead_kept ..)))
  | .fxRegisterWrite _ _ _, _ => rowOne rfl rfl (.inl (fxRow_keeps ..))
  | .nodeGainWrite _ _, _ => rowOne rfl rfl (.inl (busWrite_keeps ..))
  | .kfPush _, _ => rowOne rfl rfl (.inl (busWrite_keeps ..))
  | .fixCommit _, _ => rowOne rfl rfl (.inl (busWrite_keeps ..))
  | .fixDiscard _, _ => rowOne rfl rfl (.inl (busWrite_keeps ..))
  | .fixRegister, _ => rowPlain rfl rfl (.inl (.of_kept (fixRegister_kept ..)))
  | .fixAct, _ => rowPlain rfl rfl (.inl (.of_kept (fixAct_kept ..)))
  | .instanceDispatch _ _, _ => rowOne rfl rfl (.inl (dispatch_keeps ..))
  | .instanceComplete _ _, _ => rowOne rfl rfl (.inl (complete_keeps ..))
  | .instanceRelease _ _, _ => rowOne rfl rfl (.inl ((release_keeps ..).to_kept (sliceSend_kept ..)))
  | .deadlineMiss _ _ _, _ => rowOne rfl rfl (.inl (deadlineMiss_keeps ..))
  | .nop _ _, _ => rowOne rfl rfl (.inl (issueRow_keeps ..))
  | .add _ _, _ => rowOne rfl rfl (.inl (issueRow_keeps ..))
  | .sub _ _, _ => rowOne rfl rfl (.inl (issueRow_keeps ..))
  | .addi _ _, _ => rowOne rfl rfl (.inl (issueRow_keeps ..))
  | .and _ _, _ => rowOne rfl rfl (.inl (issueRow_keeps ..))
  | .or _ _, _ => rowOne rfl rfl (.inl (issueRow_keeps ..))
  | .xor _ _, _ => rowOne rfl rfl (.inl (issueRow_keeps ..))
  | .asr _ _, _ => rowOne rfl rfl (.inl (issueRow_keeps ..))
  | .lsl _ _, _ => rowOne rfl rfl (.inl (issueRow_keeps ..))
  | .lsr _ _, _ => rowOne rfl rfl (.inl (issueRow_keeps ..))
  | .abs _ _, _ => rowOne rfl rfl (.inl (issueRow_keeps ..))
  | .neg _ _, _ => rowOne rfl rfl (.inl (issueRow_keeps ..))
  | .min _ _, _ => rowOne rfl rfl (.inl (issueRow_keeps ..))
  | .max _ _, _ => rowOne rfl rfl (.inl (issueRow_keeps ..))
  | .cmp _ _, _ => rowOne rfl rfl (.inl (issueRow_keeps ..))
  | .mov _ _, _ => rowOne rfl rfl (.inl (issueRow_keeps ..))
  | .mul _ _, _ => rowOne rfl rfl (.inl (issueRow_keeps ..))
  | .mac _ _, _ => rowOne rfl rfl (.inl (issueRow_keeps ..))
  | .msu _ _, _ => rowOne rfl rfl (.inl (issueRow_keeps ..))
  | .clra _ _, _ => rowOne rfl rfl (.inl (issueRow_keeps ..))
  | .adda _ _, _ => rowOne rfl rfl (.inl (issueRow_keeps ..))
  | .sha _ _, _ => rowOne rfl rfl (.inl (issueRow_keeps ..))
  | .rnd _ _, _ => rowOne rfl rfl (.inl (issueRow_keeps ..))
  | .lda _ _, _ => rowOne rfl rfl (.inl (issueRow_keeps ..))
  | .maxs _ _, _ => rowOne rfl rfl (.inl (issueRow_keeps ..))
  | .mins _ _, _ => rowOne rfl rfl (.inl (issueRow_keeps ..))
  | .maxas _ _, _ => rowOne rfl rfl (.inl (issueRow_keeps ..))
  | .movc _ _, _ => rowOne rfl rfl (.inl (issueRow_keeps ..))
  | .movtc _ _, _ => rowOne rfl rfl (.inl (issueRow_keeps ..))
  | .ldi _ _, _ => rowOne rfl rfl (.inl (issueRow_keeps ..))
  | .cnop _ _, _ => rowOne rfl rfl (.inl (issueRow_keeps ..))
  | .br _ _, _ => rowOne rfl rfl (.inl (issueRow_keeps ..))
  | .call _ _, _ => rowOne rfl rfl (.inl (issueRow_keeps ..))
  | .ret _ _, _ => rowOne rfl rfl (.inl (issueRow_keeps ..))
  | .loop _ _, _ => rowOne rfl rfl (.inl (issueRow_keeps ..))
  | .lbrk _ _, _ => rowOne rfl rfl (.inl (issueRow_keeps ..))
  | .bmov _ _, _ => rowOne rfl rfl (.inl (issueRow_keeps ..))
  | .waitm _ _, _ => rowOne rfl rfl (.inl (issueRow_keeps ..))
  | .done _ _, _ => rowOne rfl rfl (.inl (issueRow_keeps ..))
  | .blockMoveComplete _ _ _, _ => rowTwo rfl rfl (.inl (moveDone_keeps ..))
  | .spkMute _ _, _ => rowOne rfl rfl (.inl (busWrite_keeps ..))
  | .sapHold _ _, _ => rowOne rfl rfl (.inl (busWrite_keeps ..))
  | .tgPause _ _, _ => rowOne rfl rfl (.inl (busWrite_keeps ..))
  | .requestRegister, _ => rowPlain rfl rfl (.inl (.of_kept (requestRegister_kept ..)))
  | .requestAct, _ => rowPlain rfl rfl (.inl (.of_kept (requestAct_kept ..)))
  | .stopCmdStop _ _, _ => rowOne rfl rfl (.inl (busWrite_keeps ..))
  | .stopCmdStart _ _, _ => rowOne rfl rfl (.inl (busWrite_keeps ..))
  | .stopRegister, _ => rowPlain rfl rfl (.inl (.of_kept (stopRegister_kept ..)))
  | .stopBathAct, _ => rowPlain rfl rfl (.inl (stopBathAct_keeps ..))
  | .stopClear, _ => rowPlain rfl rfl (.inl (stopClear_keeps ..))
  | .stopDone, _ => rowPlain rfl rfl (.inl (stopDone_keeps ..))
  | .startAct, _ => rowPlain rfl rfl (.inl (startAct_keeps ..))
  | .crossfadeEnd _, _ => rowOne rfl rfl (.inl (timerRow_keeps _ _ fun _ => .of_kept (crossfadeEnd_kept ..)))
  | .tgStart _, _ => rowOne rfl rfl (.inl (timerRow_keeps _ _ fun _ => .of_kept (toneStart_kept ..)))
  | .sweepStart _, _ => rowOne rfl rfl (.inl (timerRow_keeps _ _ fun _ => .of_kept (sweepStart_kept ..)))
  | .captureStart, _ => rowPlain rfl rfl (.inl (timerRow_keeps _ _ fun _ => .of_kept (captureStart_kept ..)))
  | .captureEnd, _ => rowPlain rfl rfl (.inl (timerRow_keeps _ _ fun _ => .of_kept (captureEnd_kept ..)))
  | .convLoadData _ _, _ => rowOne rfl rfl (.inl (busWrite_keeps ..))
  | .convLoadCommit _, _ => rowOne rfl rfl (.inl (busWrite_keeps ..))
  | .deconvGo _, _ => rowOne rfl rfl (.inl (busWrite_keeps ..))
  | .deconvJobDone _ _, _ => rowPlain rfl rfl (.inl (deconvDone_keeps ..))
  | .twinLinkUp, _ => rowPlain rfl rfl (.inl (.of_kept (linkSide_kept ..)))
  | .twinLinkDown _ _, _ => rowPlain rfl rfl (.inl (.of_kept (linkSide_kept ..)))
  | .linkLossResync, _ => rowPlain rfl rfl (.inl (.of_kept (linkLossTick_kept ..)))
  | .linkResendTimeout, _ => rowPlain rfl rfl (.inl (.of_kept (resendTimeout_kept ..)))
  | .leaseFrame _ _, _ => rowPlain rfl rfl (.inl (.of_kept (leaseReceive_kept ..)))
  | .adcSubFrame _, _ => rowPlain rfl rfl (.inl (onFrame_keeps _ _ _ _ fun _ _ => .of_kept (adcReceive_kept ..)))
  | .sliceFrame _, _ => rowPlain rfl rfl (.inl (onFrame_keeps _ _ _ _ fun _ _ => .of_kept (sliceReceive_kept ..)))
  | .hashFrame _, _ => rowPlain rfl rfl (.inl (onFrame_keeps _ _ _ _ fun _ _ => .of_kept (hashReceive_kept ..)))
  | .stageMirrorFrame _, _ => rowPlain rfl rfl (.inl (onFrame_keeps _ _ _ _ fun _ _ => mirrorReceive_keeps ..))
  | .fixSealFrame _ _, _ => rowPlain rfl rfl (.inl (onFrame_keeps _ _ _ _ fun _ _ => .of_kept (sealReceive_kept ..)))
  | .reqRelayFrame _, _ => rowPlain rfl rfl (.inl (onFrame_keeps _ _ _ _ fun _ _ => .of_kept (relayReceive_kept ..)))
  | .healthFrame _, _ => rowPlain rfl rfl (.inl (onFrame_keeps _ _ _ _ fun _ _ => .of_kept (healthReceive_kept ..)))
  | .bulkPieceFrame _, _ => rowPlain rfl rfl (.inl (onFrame_keeps _ _ _ _ fun _ _ => .of_kept (pieceReceive_kept ..)))
  | .nakFrame _, _ => rowPlain rfl rfl (.inl (onFrame_keeps _ _ _ _ fun _ _ => .of_kept (nakReceive_kept ..)))
  | .hello _, _ => rowPlain rfl rfl (.inl (.of_kept (onControl_kept _ _ _ _ fun _ _ => helloReceive_kept ..)))
  | .helloReply _, _ => rowPlain rfl rfl (.inl (.of_kept (onControl_kept _ _ _ _ fun _ _ => helloReply_kept ..)))
  | .handover _, _ => rowPlain rfl rfl (.inl (.of_kept (onControl_kept _ _ _ _ fun _ _ => handoverReceive_kept ..)))
  | .handoverAck _, _ => rowPlain rfl rfl (.inl (.of_kept (onControl_kept _ _ _ _ fun _ _ => handoverAck_kept ..)))
  | .release _, _ => rowPlain rfl rfl (.inl (.of_kept (onControl_kept _ _ _ _ fun _ _ => releaseReceive_kept ..)))
  | .takeback _, _ => rowPlain rfl rfl (.inl (.of_kept (onControl_kept _ _ _ _ fun _ _ => takebackReceive_kept ..)))
  | .takebackRefused _, _ => rowPlain rfl rfl (.inl (.of_kept (onControl_kept _ _ _ _ fun _ _ => takebackRefused_kept ..)))
  | .emit _, _ => rowPlain rfl rfl (.inl (.of_kept (onControl_kept _ _ _ _ fun _ _ => emitReceive_kept ..)))
  | .resyncRequest _, _ => rowPlain rfl rfl (.inl (.of_kept (onControl_kept _ _ _ _ fun _ _ => bulkSend_kept ..)))
  | .bulkEnd _, _ => rowPlain rfl rfl (.inl (.of_kept (onControl_kept _ _ _ _ fun _ _ => bulkEndReceive_kept ..)))
  | .divergent _, _ => rowPlain rfl rfl (.inl (.of_kept (onControl_kept _ _ _ _ fun _ _ => divergentReceive_kept ..)))
  | .heartbeatFrame _ _, _ => rowPlain rfl rfl (.inl (.of_kept (heartbeatReceive_kept ..)))
  | .heartbeatTimer _, _ => rowPlain rfl rfl (.inl (.of_kept (heartbeatTimer_kept ..)))
  | .leaseExpiry, _ => rowPlain rfl rfl (.inl (.of_kept (leaseExpiry_kept ..)))
  | .takeover, _ => rowPlain rfl rfl (.inl (.of_kept (takeover_kept ..)))
  | .ownLeaseGuard, _ => rowPlain rfl rfl (.inl (.of_kept (leaseGuard_kept ..)))
  | .twinCmdRelease _, _ => rowOne rfl rfl (.inl (busWrite_keeps ..))
  | .twinCmdHandover _, _ => rowOne rfl rfl (.inl (busWrite_keeps ..))
  | .twinCmdRestart _, _ => rowOne rfl rfl (.inl (busWrite_keeps ..))
  | .twinCmdResync _, _ => rowOne rfl rfl (.inl (busWrite_keeps ..))
  | .handoverRegister, _ => rowPlain rfl rfl (.inl (.of_kept (handoverRegister_kept ..)))
  | .handoverCommit, _ => rowPlain rfl rfl (.inl (.of_kept (handoverCommit_kept ..)))
  | .handoverSwitch, _ => rowPlain rfl rfl (.inl (.of_kept (handoverSwitch_kept ..)))
  | .emissionChange, _ => rowPlain rfl rfl (.inl (.of_kept (emissionChange_kept ..)))
  | .hashCompareTimeout, _ => rowPlain rfl rfl (.inl (.of_kept (hashTimeout_kept ..)))
  | .bulkInstall, _ => rowPlain rfl rfl (.inl (bulkInstall_keeps ..))
  | .settleExpiry, _ => rowPlain rfl rfl (.inl (.of_kept (settleExpiry_kept ..)))
  | .sliceInstall, _ => rowPlain rfl rfl (.inl (.of_kept (sliceInstall_kept ..)))
  | .sliceTimeout, _ => rowPlain rfl rfl (.inl (.of_kept (sliceTimeout_kept ..)))
  | .selfTestDone _ _, _ => rowPlain rfl rfl (.inl (.of_kept (selfTestDone_kept ..)))
  | .healthSend, _ => rowPlain rfl rfl (.inl (.of_kept (healthSend_kept ..)))
  | .spareRowTest _, _ => rowPlain rfl rfl (.inl (.of_kept (spareRowTest_kept ..)))
  | .takebackHoldoff, _ => rowPlain rfl rfl (.inl (.of_kept (takebackAsk_kept ..)))
  | .frameReceive _ _ _ _ _ _, _ => rowOne rfl rfl (.inl (.of_kept (frameReceive_kept ..)))
  | .netLinkChange _ _ _, _ =>
    rowOne rfl rfl (.inl (((Keeps.of_kept (linkChange_kept ..)).to_kept (domLink_kept ..)).to_kept (domLink_kept ..)))
  | .txPacketSend _, _ => rowOne rfl rfl (.inl (.of_kept (txSend_kept ..)))
  | .lpiEnter, _ => rowPlain rfl rfl (.inl (.of_kept (lpiEnter_kept ..)))
  | .lpiWake, _ => rowPlain rfl rfl (.inl (.of_kept (lpiWake_kept ..)))
  | .ptpAnnounce _, _ => rowOne rfl rfl (.inl (.of_kept (ptpAnnounce_kept ..)))
  | .ptpSync _, _ => rowOne rfl rfl (.inl (.of_kept (ptpSync_kept ..)))
  | .ptpFollowUp _, _ => rowOne rfl rfl (.inl (.of_kept (ptpFollowUp_kept ..)))
  | .ptpDelayReq _, _ => rowOne rfl rfl (.inl (.of_kept (ptpDelayReq_kept ..)))
  | .ptpDelayResp _, _ => rowOne rfl rfl (.inl (.of_kept (ptpDelayResp_kept ..)))
  | .syncSend _ _, _ => rowOne rfl rfl (.inl (.of_kept (syncSend_kept ..)))
  | .announceSend _, _ => rowOne rfl rfl (.inl (.of_kept (announceSend_kept ..)))
  | .delayReqSend _ _, _ => rowOne rfl rfl (.inl (.of_kept (delayReqSend_kept ..)))
  | .announceTimeout _, _ => rowOne rfl rfl (.inl (.of_kept (announceTimeout_kept ..)))
  | .syncTimeout _, _ => rowOne rfl rfl (.inl (.of_kept (syncTimeout_kept ..)))
  | .epochHalfEnter _, _ => rowPlain rfl rfl (.inl (.of_kept (timeAdvance_kept ..)))
  | .epochWrite _ _ _, _ => rowTwo rfl rfl (.inl (busWrite_keeps ..))
  | .incWrite _ _, _ => rowOne rfl rfl (.inl (busWrite_keeps ..))
  | .ptpStep _, _ => rowOne rfl rfl (.inl (busWrite_keeps ..))
  | .ppsEdge _, _ => rowPlain rfl rfl (.inl (.of_kept (ppsEdge_kept ..)))
  | .ppsTimeout, _ => rowPlain rfl rfl (.inl (.of_kept (ppsLost_kept ..)))
  | .serialFrame _ _ _ _, _ => rowOne rfl rfl (.inl (.of_kept (serialFrame_kept ..)))
  | .frameAbsentTimeout _, _ => rowOne rfl rfl (.inl (.of_kept (frameAbsent_kept ..)))
  | .rateWindowEnd _, _ => rowOne rfl rfl (.inl (.of_kept (rateWindow_kept ..)))
  | .sapAlign _ _, _ => rowOne rfl rfl (.inl (.of_kept (sapAlign_kept ..)))
  | .complianceCheck _ _ _ _, _ => rowOne rfl rfl (.inl (.of_kept (dacCheck_kept ..)))
  | .complianceMuteEnd _, _ => rowOne rfl rfl (.inl (.of_kept (dacMuteEnd_kept ..)))
  | .micMeasure _ _, _ => rowOne rfl rfl (.inl (.of_kept (hsMeasure_kept ..)))
  | .hsDetChange _ _, _ => rowOne rfl rfl (.inl (.of_kept (hsDet_kept ..)))
  | .hsInsertConfirm _, _ => rowOne rfl rfl (.inl (.of_kept (hsInsert_kept ..)))
  | .hsRemoveConfirm _, _ => rowOne rfl rfl (.inl (.of_kept (hsRemove_kept ..)))
  | .hsClassifyEnd _, _ => rowOne rfl rfl (.inl (.of_kept (hsClassify_kept ..)))
  | .hsButtonFade _, _ => rowOne rfl rfl (.inl (.of_kept (hsFade_kept ..)))
  | .hsOutputResume _, _ => rowOne rfl rfl (.inl (.of_kept (hsResume_kept ..)))
  | .ampCurrentLimit _ _, _ => rowOne rfl rfl (.inl (.of_kept (ampLimit_kept ..)))
  | .ampRetryWaitEnd _, _ => rowOne rfl rfl (.inl (.of_kept (ampWaitEnd_kept ..)))
  | .ampResume _, _ => rowOne rfl rfl (.inl (.of_kept (ampResume_kept ..)))
  | .ampCleanSecond _, _ => rowOne rfl rfl (.inl (.of_kept (ampClean_kept ..)))
  | .ampDcWindow _ _, _ => rowOne rfl rfl (.inl (.of_kept (ampDc_kept ..)))
  | .ampClear _, _ => rowOne rfl rfl (.inl (busWrite_keeps ..))
  | .pvddLow, _ => rowPlain rfl rfl (.inl (.of_kept (pvddFall_kept ..)))
  | .pvddRecover, _ => rowPlain rfl rfl (.inl (.of_kept (pvddRise_kept ..)))
  | .refreshDue _ _ _ _, _ => rowTwo rfl rfl (.inl (.of_kept (refreshRow_kept ..)))
  | .zqCalibration _, _ => rowOne rfl rfl (.inl (.of_kept (zqCalibration_kept ..)))
  | .dramHotChange _, _ => rowPlain rfl rfl (.inl (.of_kept (hotChange_kept ..)))
  | .dramTempRead _, _ => rowPlain rfl rfl (.inl (.of_kept (tempRead_kept ..)))
  | .parityAlert _ _, _ => rowOne rfl rfl (.inl (.of_kept (parityAlert_kept ..)))
  | .alertTimeout _, _ => rowOne rfl rfl (.inl (.of_kept (alertTimeout_kept ..)))
  | .dramReadComplete _ _ _ _ _, _ => rowOne rfl rfl (.inl (.of_kept (dramReadComplete_kept ..)))
  | .eccWriteBack _, _ => rowPlain rfl rfl (.inl (.of_kept (eccWriteBack_kept ..)))
  | .scrubRead _ _ _ _ _ _, _ => rowPlain rfl rfl (.inl (.of_kept (scrubRead_kept ..)))
  | .dramScrubRead _ _, _ => rowPlain rfl rfl (.inl (.of_kept (dramScrubRead_kept ..)))
  | .remapWrite _ _, _ => rowOne rfl rfl (.inl (busWrite_keeps ..))
  | .dramWindowAccess _ _ _ _, _ => rowOne rfl rfl (.inl (windowAccess_keeps ..))
  | .gateWrite _ _, _ => rowOne rfl rfl (.inl (busWrite_keeps ..))
  | .nvmErase _ _, _ => rowOne rfl rfl (.inl (busWrite_keeps ..))
  | .nvmProgram _ _, _ => rowOne rfl rfl (.inl (busWrite_keeps ..))
  | .nvmCheck _ _, _ => rowOne rfl rfl (.inl (busWrite_keeps ..))
  | .nvmOpDone _, _ => rowPlain rfl rfl (.inr ⟨.inl ⟨_, rfl⟩, nvmOpDone_only ..⟩)
  | .nvmDataWrite _ _, _ => rowOne rfl rfl (.inl (busWrite_keeps ..))
  | .nvmDataRead _, _ => rowOne rfl rfl (.inl (.of_kept (busRead_kept ..)))
  | .faultLogWrite _, _ => rowPlain rfl rfl (.inr ⟨.inr ⟨_, rfl⟩, faultLogWrite_only ..⟩)
  | .tcmRead, _ => rowPlain rfl rfl (.inl (.of_kept (tcmRead_kept ..)))
  | .tcmWrite, _ => rowPlain rfl rfl (.inl (tcmWrite_keeps ..))
  | .tcmStage, _ => rowPlain rfl rfl (.inl (.of_kept (tcmStage_kept ..)))
  | .tcmFix, _ => rowPlain rfl rfl (.inl (.of_kept (tcmFix_kept ..)))
  | .tcmStopBath, _ => rowPlain rfl rfl (.inl (.of_kept (tcmStop_kept ..)))
  | .tcmStart, _ => rowPlain rfl rfl (.inl (.of_kept (tcmStop_kept ..)))
  | .snapshotTake, _ => rowPlain rfl rfl (.inl (.of_kept (snapshotTake_kept ..)))
  | .snapshotRead, _ => rowPlain rfl rfl (.inl (.of_kept (snapshotRead_kept ..)))
  | .tcmHealth, _ => rowPlain rfl rfl (.inl (.of_kept (tcmHealth_kept ..)))
  | .writeFrame _, _ => rowPlain rfl rfl (.inl (.of_kept (writeFrame_kept ..)))
  | .readFrame _, _ => rowPlain rfl rfl (.inl (.of_kept (readFrame_kept ..)))
  | .snapshotRegister, _ => rowPlain rfl rfl (.inl (.of_kept (snapshotRegister_kept ..)))
  | .sheetCapture, _ => rowPlain rfl rfl (.inl (.of_kept (sheetCapture_kept ..)))
  | .evcSrcWrite _ _, _ => rowOne rfl rfl (.inl (busWrite_keeps ..))
  | .evcSnap _, _ => rowOne rfl rfl (.inl (busWrite_keeps ..))
  | .evcClearSel _, _ => rowOne rfl rfl (.inl (busWrite_keeps ..))
  | .counterSnapshot, _ => rowPlain rfl rfl (.inl (.of_kept (counterSnapshot_kept ..)))
  | .heartbeatsMissing, _ => rowPlain rfl rfl (.inl (.of_kept (heartbeatsMissing_kept ..)))
  | .alertNReturn _, _ => rowOne rfl rfl (.inl (.of_kept (alertReturn_kept ..)))
  | .thermalResetRelease, _ => rowPlain rfl rfl (.inl (.of_kept (thermalRelease_kept ..)))
  | .lldpFrame _, _ => rowPlain rfl rfl (.inl (.of_kept (lldpFrame_kept ..)))

/-! ### What an effect on instances answers -/

theorem withInstances_of_lt {l : List (String × Nat × Nat)} (h : ∀ x ∈ l, x.2.1 < x.2.2) (t : State) :
    withInstances l t = .next t := withInstances_next.mpr ⟨h, rfl⟩

/-- An instance that the hardware does not have stops the command by its name. -/
theorem withInstances_fault {l : List (String × Nat × Nat)} (h : ¬∀ x ∈ l, x.2.1 < x.2.2) (t : State) :
    ∃ what i, withInstances l t = .fault (.noSuchInstance what i) := by
  induction l with
  | nil => simp at h
  | cons x l ih =>
    obtain ⟨what, i, n⟩ := x
    rw [withInstances]
    split
    · next hi => exact ih fun hl => h (List.forall_mem_cons.mpr ⟨hi, hl⟩)
    · exact ⟨what, i, rfl⟩

/-- What a command that completes leaves of the queue, the byte stores and the flash. -/
theorem exec_keepsBut {c : Instr} {s t : State} (h : exec c s = .next t) : KeepsBut c s t := by
  obtain ⟨l, u, he, -, hk⟩ := exec_row c s
  obtain ⟨-, rfl⟩ := withInstances_next.mp (he.symm.trans h)
  exact hk

theorem exec_pending {c : Instr} {s t : State} (h : exec c s = .next t) : t.pending = s.pending :=
  match exec_keepsBut h with
  | .inl ⟨hp, _⟩ => hp
  | .inr ⟨_, hp, _⟩ => hp

theorem exec_completes {c : Instr} (h : c.wf = true) (s : State) : Completes c s := by
  obtain ⟨l, t, he, hw, -⟩ := exec_row c s
  exact ⟨t, he.trans (withInstances_of_lt (hw.mp h) t)⟩

/-! ### Canonical byte stores -/

theorem memOk_iff (s : State) : s.memOk = true ↔ Memory.wf 0 s.mem.dram = true ∧ Memory.wf 0 s.mem.sram = true
    ∧ Memory.wf 0 s.mem.fab = true ∧ Memory.wf 0xFF s.nvm.flash = true := by
  simp only [State.memOk, Bool.and_eq_true, and_assoc]

theorem KeepsBut.memOk {c : Instr} {s t : State} (h : KeepsBut c s t) (hs : s.memOk = true) : t.memOk = true := by
  obtain ⟨hd, hr, hf, hn⟩ := (memOk_iff s).mp hs
  refine (memOk_iff t).mpr ?_
  rcases h with ⟨-, en, hd', hr', hf'⟩ | ⟨-, -, ed, er, ef, hn'⟩
  · exact ⟨hd' hd, hr' hr, hf' hf, en ▸ hn⟩
  · exact ⟨ed ▸ hd, er ▸ hr, ef ▸ hf, hn' hn⟩

/-! ### The obligations -/

/-- Settles O1: it is what a step is. -/
theorem stepRunsFront : Obligations.StepRunsFront := fun _ _ _ => rfl

/-- Settles O2: an empty queue has no command in front. -/
theorem stepIdles : Obligations.StepIdles := by
  intro s h
  rw [step, h]

/-- Settles O4: the command in front keeps the stores, and taking it off the queue does not touch them. -/
theorem stepKeepsMemory : Obligations.StepKeepsMemory := by
  intro s t hs h
  rcases step_cases h with ⟨-, rfl⟩ | ⟨c, rest, -, he⟩
  · exact hs
  · exact (exec_keepsBut he).memOk hs

/-- Settles O5: every other command keeps the flash. -/
theorem flashWriters : Obligations.FlashWriters := by
  intro c s t h hne
  rcases exec_keepsBut h with ⟨-, he, -⟩ | ⟨hw, -⟩
  · exact absurd he hne
  · exact hw

/-- Settles O6: a command stops only at an instance that does not exist. -/
theorem commandsComplete : Obligations.CommandsComplete := by
  intro c s
  obtain ⟨l, t, he, hw, -⟩ := exec_row c s
  refine ⟨fun h => exec_completes h s, fun h => ?_, fun r hr => ?_⟩
  · exact he ▸ withInstances_fault (fun hl => by simp [hw.mpr hl] at h) t
  · by_cases hl : ∀ x ∈ l, x.2.1 < x.2.2
    · rw [he, withInstances_of_lt hl] at hr
      cases hr
    · obtain ⟨what, i, hf⟩ := withInstances_fault hl t
      rw [he, hf] at hr
      cases hr

/-- Settles O7: no command writes the queue, so a step leaves its rest. -/
theorem queueKept : Obligations.QueueKept := by
  refine ⟨fun c s t h => exec_pending h, fun s hq => ?_⟩
  cases hp : s.pending with
  | nil => exact ⟨s, stepIdles s hp, hq, hp⟩
  | cons c rest =>
    have hwf := List.forall_mem_cons.mp (hp ▸ hq : ∀ d ∈ c :: rest, d.wf = true)
    obtain ⟨t, ht⟩ := exec_completes hwf.1 { s with pending := rest }
    have hrest : t.pending = rest := exec_pending ht
    refine ⟨t, ?_, fun d hd => hwf.2 d (hrest ▸ hd), hrest⟩
    rw [step, hp]
    exact ht

/-- Settles O3: the reset state is closed, and each register is read off it. -/
theorem resetValues : Obligations.ResetValues := by
  unfold Obligations.ResetValues
  decide +kernel

end Sys2Proof.Machine
end

section
/-!
SUPPORT. Bundles of the effect cores whose move slots are empty (R273 to R297): what issuing one comes to, where it goes on, and
the results that its compute slot fits into a register (R279, R280).
-/
namespace Sys2Proof.Machine

/-! ### Fitting a result -/

theorem satBits_eq (n : Nat) (x : Int) : satBits n x = max (-(2 ^ (n - 1))) (min (2 ^ (n - 1) - 1) x) := by
  have : (0 : Int) < 2 ^ (n - 1) := by positivity
  unfold satBits
  generalize (2 : Int) ^ (n - 1) = m at *
  split
  · rw [min_eq_right (by omega), max_eq_left (by omega)]
  · split
    · rw [min_eq_left (by omega), max_eq_right (by omega)]
    · rw [min_eq_right (by omega), max_eq_right (by omega)]

theorem satBits_ne_iff (n : Nat) (x : Int) : satBits n x ≠ x ↔ x < -(2 ^ (n - 1)) ∨ 2 ^ (n - 1) ≤ x := by
  unfold satBits
  generalize (2 : Int) ^ (n - 1) = m
  split
  · omega
  · split <;> omega

/-- The pattern of a value read back is the value wrapped into `n` bits. -/
theorem signExt_pattern {n : Nat} (hn : 0 < n) (x : Int) :
    signExt n (pattern n x) = (x + 2 ^ (n - 1)) % 2 ^ n - 2 ^ (n - 1) := by
  obtain ⟨k, rfl⟩ : ∃ k, n = k + 1 := ⟨n - 1, by omega⟩
  have hm : (0 : Int) < 2 ^ k := by positivity
  have hpow : (2 : Int) ^ (k + 1) = 2 * 2 ^ k := by ring
  have hlo : 0 ≤ x % 2 ^ (k + 1) := Int.emod_nonneg _ (by positivity)
  have hhi : x % 2 ^ (k + 1) < 2 ^ (k + 1) := Int.emod_lt_of_pos _ (by positivity)
  have hval : (((x % 2 ^ (k + 1)).toNat % 2 ^ (k + 1) : Nat) : Int) = x % 2 ^ (k + 1) := by
    push_cast [Int.toNat_of_nonneg hlo]
    exact Int.emod_emod_of_dvd _ dvd_rfl
  have hlt : ((x % 2 ^ (k + 1)).toNat % 2 ^ (k + 1) < 2 ^ k) ↔ x % 2 ^ (k + 1) < 2 ^ k := by
    conv_rhs => rw [← hval]
    rw [← Nat.cast_lt (α := Int), Nat.cast_pow, Nat.cast_ofNat]
  simp only [signExt, pattern, Nat.add_sub_cancel, hlt, hval]
  rw [← Int.emod_add_emod x (2 ^ (k + 1)) (2 ^ k)]
  generalize x % 2 ^ (k + 1) = r at *
  rw [hpow] at *
  generalize (2 : Int) ^ k = m at *
  split
  · rw [Int.emod_eq_of_lt (by omega) (by omega)]
    omega
  · rw [show r + m = (r - m) + 2 * m by ring, Int.add_emod_right, Int.emod_eq_of_lt (by omega) (by omega)]
    omega

/-- A narrowed result is the exact one brought into its bits, and tells whether saturation changed it. -/
theorem narrow_eq {n : Nat} (hn : 0 < n) (sat : Bool) (x : Int) : narrow n sat x = (fitTo n sat x, unfit n sat x) := by
  unfold narrow fitTo unfit
  cases sat
  · simp [signExt_pattern hn]
  · simp [satBits_eq, ← Bool.decide_or, ← satBits_ne_iff]

theorem putD_eq (z : EcCtx) (sat : Bool) (i : Nat) (v : Int) :
    z.putD sat i v = { z with d := z.d.set i (BitVec.ofInt 32 (fitTo 32 sat v)), sat := z.sat || unfit 32 sat v } := by
  simp only [EcCtx.putD, narrow_eq (by decide : 0 < 32), EcCtx.setD, EcCtx.noteSat]

theorem putA_eq (z : EcCtx) (sat : Bool) (i : Nat) (v : Int) :
    z.putA sat i v = { z with acc := z.acc.set (i % 4) (fitTo 80 sat v), sat := z.sat || unfit 80 sat v } := by
  simp only [EcCtx.putA, narrow_eq (by decide : 0 < 80), EcCtx.setA, EcCtx.noteSat]

/-- A d register written with the value of a pattern holds the pattern. -/
theorem setD_toInt (z : EcCtx) (i : Nat) (v : BitVec 32) : z.setD i v.toInt = { z with d := z.d.set i v } := by
  rw [EcCtx.setD, BitVec.ofInt_toInt]

theorem setD_natCast (z : EcCtx) (i n : Nat) : z.setD i (n : Int) = { z with d := z.d.set i (BitVec.ofNat 32 n) } := by
  rw [EcCtx.setD, BitVec.ofInt_natCast]

/-! ### Where a bundle goes on -/

/-- A bundle that ends no active loop goes on to the next address. -/
theorem loopEnd_of_no_last {pc : Nat} {c : EcCtx} (h : ∀ l ∈ c.loops, l.last ≠ pc) (n : Nat) :
    loopEnd pc n c = (c, (pc + 1) % 8192) := by
  cases n with
  | zero => rfl
  | succ n => rw [loopEnd, List.find?_eq_none.mpr (by simpa using h)]

/-- A loop's last bundle, with its counter above 1, goes back to its first. -/
theorem loopEnd_again {pc : Nat} {c : EcCtx} {l : LoopCtx} (hl : c.loops.find? (fun l => decide (l.last = pc)) = some l)
    (h : 1 < c.lc l.level) (n : Nat) : loopEnd pc (n + 1) c = (c.setLc l.level (c.lc l.level - 1), l.first) := by
  rw [loopEnd, hl]
  exact if_pos h

/-- A loop's last bundle, with its counter at 1 or below, ends the loop. -/
theorem loopEnd_out {pc : Nat} {c : EcCtx} {l : LoopCtx} (hl : c.loops.find? (fun l => decide (l.last = pc)) = some l)
    (h : c.lc l.level ≤ 1) (n : Nat) : loopEnd pc (n + 1) c
      = loopEnd pc n { c with loops := c.loops.filter (fun q => decide (q.level ≠ l.level)) } := by
  rw [loopEnd, hl]
  exact if_neg (by omega)

/-- Without owed delay slots a bundle goes where its loops lead. -/
theorem advance_of_loopEnd {pc next : Nat} {c z : EcCtx} (hl : loopEnd pc 2 c = (z, next)) (hd : z.delay = none) :
    advance pc c = { z with pc := next } := by
  unfold advance
  rw [hl]
  simp only [hd]

/-- With a delay slot owed, what follows the last one decides. -/
theorem advance_of_delay {pc n : Nat} {c : EcCtx} {t : Option Nat} (h : ∀ l ∈ c.loops, l.last ≠ pc)
    (hd : c.delay = some (n, t)) : advance pc c = match n, t with
      | 1, some t => { c with pc := t, delay := none }
      | 1, none => { c with pc := (pc + 1) % 8192, delay := none, ended := true }
      | n, t => { c with pc := (pc + 1) % 8192, delay := some (n - 1, t) } := by
  unfold advance
  rw [loopEnd_of_no_last h]
  simp only [hd]
  split <;> rename_i heq
  · cases heq
  · cases heq; rfl
  · cases heq; rfl
  · next hne1 hne2 =>
    cases heq
    split
    · exact (hne1 _ rfl rfl).elim
    · exact (hne2 rfl rfl).elim
    · rfl

@[simp] theorem setLc_delay (c : EcCtx) (level v : Nat) : (c.setLc level v).delay = c.delay := by
  unfold EcCtx.setLc
  split <;> rfl

/-- The order of a write of the d registers and of the advance does not matter. -/
theorem loopEnd_d (pc : Nat) (x : List (BitVec 32)) (n : Nat) (c : EcCtx) :
    loopEnd pc n { c with d := x } = ({ (loopEnd pc n c).1 with d := x }, (loopEnd pc n c).2) := by
  induction n generalizing c with
  | zero => rfl
  | succ n ih =>
    have hlc (level : Nat) : ({ c with d := x } : EcCtx).lc level = c.lc level := rfl
    rw [loopEnd, loopEnd]
    cases c.loops.find? (fun l => decide (l.last = pc)) with
    | none => rfl
    | some l =>
      simp only [hlc]
      split
      · unfold EcCtx.setLc
        split <;> rfl
      · exact ih { c with loops := c.loops.filter (fun q => decide (q.level ≠ l.level)) }

theorem advance_d (pc : Nat) (x : List (BitVec 32)) (c : EcCtx) :
    advance pc { c with d := x } = { advance pc c with d := x } := by
  unfold advance
  rw [loopEnd_d]
  generalize loopEnd pc 2 c = r
  obtain ⟨z, next⟩ := r
  simp only []
  split <;> rfl

/-- Loops end whatever the status is, and leave it. -/
@[simp] theorem loopEnd_sat (pc n : Nat) (c : EcCtx) : (loopEnd pc n c).1.sat = c.sat := by
  induction n generalizing c with
  | zero => rfl
  | succ n ih =>
    rw [loopEnd]
    split
    · rfl
    · split
      · unfold EcCtx.setLc
        split <;> rfl
      · exact ih _

@[simp] theorem advance_sat (pc : Nat) (c : EcCtx) : (advance pc c).sat = c.sat := by
  rw [← loopEnd_sat pc 2 c]
  unfold advance
  generalize loopEnd pc 2 c = r
  obtain ⟨z, next⟩ := r
  simp only []
  split <;> rfl

/-- Settles O30: each clause is a case of the loops that end at the bundle and of the delay slots owed. -/
theorem bundleSequence : Obligations.BundleSequence := by
  intro pc c
  have hfilter (l : LoopCtx) : [l].filter (fun q => decide (q.level ≠ l.level)) = [] := by simp
  refine ⟨fun hd hl => ?plain, fun t hl hd => ?second, fun t hl hd => ?target, fun hl hd => ?finish,
    fun l r hd hl hpc hc => ?again, fun l hd hl hpc hc => ?out, fun hd hl => ?noLast, fun l q hd hl hne hpc hc => ?outer,
    fun l q hd hl hpc hqc hlev hc hqn => ?both⟩
  case plain => exact advance_of_loopEnd (loopEnd_of_no_last (by simp [hl]) 2) hd
  case second => exact advance_of_delay (by simp [hl]) hd
  case target => exact advance_of_delay (by simp [hl]) hd
  case finish => exact advance_of_delay (by simp [hl]) hd
  case again => exact advance_of_loopEnd (loopEnd_again (by simp [hl, hpc]) hc 1) (by simpa using hd)
  case out =>
    refine advance_of_loopEnd (z := { c with loops := [] }) ?_ hd
    rw [loopEnd_out (l := l) (by simp [hl, hpc]) hc, hl, hfilter]
    exact loopEnd_of_no_last (by simp) 1
  case noLast => exact advance_of_loopEnd (loopEnd_of_no_last hl 2) hd
  case outer => exact advance_of_loopEnd (loopEnd_again (by simp [hl, hpc, hne]) hc 1) (by simpa using hd)
  case both =>
    refine advance_of_loopEnd (z := ({ c with loops := [q] } : EcCtx).setLc q.level (c.lc q.level - 1)) ?_ (by simpa using hd)
      |>.trans (by unfold EcCtx.setLc; split <;> rfl)
    rw [loopEnd_out (l := l) (by simp [hl, hpc]) hc, hl,
      show [l, q].filter (fun q => decide (q.level ≠ l.level)) = [q] by simp [hlev.symm]]
    exact loopEnd_again (c := { c with loops := [q] }) (by simp [hqc]) hqn 0

/-! ### A bundle issues -/

/-- A bundle whose move slots, if it has any, do nothing. -/
def MovesNothing (b : Bundle) : Prop := ∀ x y, bundleMoves b = some (x, y) → x.kind = 0 ∧ y.kind = 0

theorem movesNothing_a {q : Compute} {x y : MoveSlot} (hx : x.kind = 0) (hy : y.kind = 0) : MovesNothing (.a q x y) := by
  rintro _ _ ⟨⟩
  exact ⟨hx, hy⟩

theorem movesNothing_b (r v : Nat) : MovesNothing (.b r v) := by
  rintro _ _ ⟨⟩

theorem movesNothing_c {q : Control} {x y : MoveSlot} (hx : x.kind = 0) (hy : y.kind = 0) : MovesNothing (.c q x y) := by
  rintro _ _ ⟨⟩
  exact ⟨hx, hy⟩

theorem moveSlot_of_none {m : MoveSlot} (h : m.kind = 0) (k : Nat) (c : EcCtx) (p : EcProg) (y bad : Bool) (s : State) :
    moveSlot k c p y m bad s = MoveOut.none := if_pos h

/-- A bundle that stalls waits as the context was. -/
theorem issue_stalls {b : Bundle} {c : EcCtx} (h : stalls b c = true) (k : Nat) (env : EcEnv) (p : EcProg) (s : State) :
    issue k b env c p s = ctxSet k { c with stalled := true } s := if_pos h

/-- A bundle without moves that neither stalls nor faults has its effect on the context in which due loads have landed. -/
theorem issue_of_movesNothing {b : Bundle} {c : EcCtx} {p : EcProg} (hb : MovesNothing b) (hs : stalls b c = false)
    (hf : bundleFault p b c = none) (k : Nat) (env : EcEnv) (s : State) :
    issue k b env c p s
      = let r := movcFree b (bundleEffect c.pc b { c with stalled := false } (landLoads { c with stalled := false })) s
        ctxSet k r.1 r.2 := by
  cases b with
  | a q x y =>
    obtain ⟨hx, hy⟩ := hb x y rfl
    simp only [issue, hs, hf, bundleMoves, moveSlot_of_none hx, moveSlot_of_none hy]
    rfl
  | b code imm =>
    simp only [issue, hs, hf, bundleMoves]
    rfl
  | c q x y =>
    obtain ⟨hx, hy⟩ := hb x y rfl
    simp only [issue, hs, hf, bundleMoves, moveSlot_of_none hx, moveSlot_of_none hy]
    rfl
  | illegal =>
    simp only [issue, hs, hf, bundleMoves]
    rfl

theorem fetched_ctx {k : Nat} {s : State} {c : EcCtx} {p : EcProg} {w : Option Nat} (h : fetched k s = some (c, p, w)) :
    ∃ l, (coreGet k s).ctxs = c :: l := by
  unfold fetched at h
  split at h
  · cases h
  · next c' l hl =>
    refine ⟨l, ?_⟩
    split at h
    · cases h
    · split at h
      · cases h
      · injection h with h
        injection h with h
        rw [hl, h]

@[simp] theorem coreGet_coreSet_self (k : Nat) (e : EcCore) (s : State) : coreGet k (coreSet k e s) = e :=
  sget_sset_self ..

/-- A row issues the core's next bundle where that is of its operation, with the bundle's cycles passed. -/
theorem issueRow_issues {k : Nat} {b : Bundle} {env : EcEnv} {c : EcCtx} {p : EcProg} {s : State} (h : Issues k b env c p s)
    {want : Bundle → Bool} (hw : want b = true) :
    issueRow want k env s = issue k b env { c with cyc := c.cyc + env.cycles, ran := c.ran + env.cycles } p
      (coreSet k (passCycles env.cycles (coreGet k s)) s) := by
  obtain ⟨-, hbad, w, hf, rfl⟩ := h
  obtain ⟨l, hl⟩ := fetched_ctx hf
  have hctxs : ∃ l', (passCycles env.cycles (coreGet k s)).ctxs
      = { c with cyc := c.cyc + env.cycles, ran := c.ran + env.cycles } :: l' := by
    simp only [passCycles, hl, List.zipIdx_cons, List.map_cons, if_true]
    exact ⟨_, rfl⟩
  obtain ⟨l', hl'⟩ := hctxs
  simp only [issueRow, hf, hw, hbad, coreGet_coreSet_self, hl', Bool.not_true, Bool.false_eq_true, if_false]

/-- A bundle that stalls runs as a context that waits. -/
theorem issueRow_stalls {k : Nat} {b : Bundle} {env : EcEnv} {c : EcCtx} {p : EcProg} {s : State} (h : Issues k b env c p s)
    {want : Bundle → Bool} (hw : want b = true) (hs : stalls b c = true) :
    issueRow want k env s = ranAs k env { c.run env with stalled := true } s := by
  rw [issueRow_issues h hw, issue_stalls (c := { c with cyc := c.cyc + env.cycles, ran := c.ran + env.cycles })
    (by cases b <;> exact hs)]
  rfl

/-- A bundle without moves runs as its own effect on the context in which due loads have landed. -/
theorem issueRow_of_movesNothing {k : Nat} {b : Bundle} {env : EcEnv} {c : EcCtx} {p : EcProg} {s : State}
    (h : Issues k b env c p s) {want : Bundle → Bool} (hw : want b = true) (hb : MovesNothing b) (hs : stalls b c = false)
    (hf : bundleFault p b c = none) :
    issueRow want k env s
      = let r := movcFree b (bundleEffect c.pc b (c.run env) (landLoads (c.run env)))
          (coreSet k (passCycles env.cycles (coreGet k s)) s)
        ctxSet k r.1 r.2 := by
  rw [issueRow_issues h hw, issue_of_movesNothing hb (by cases b <;> exact hs) (by cases b <;> exact hf)]
  rfl

end Sys2Proof.Machine
end

section
/-!
SUPPORT. The operations of the effect cores, one by one (R270, R273 to R282).
-/
namespace Sys2Proof.Machine

/-! ### Rows of the compute slot -/

/-- A MOVC reads a code that names a register. -/
def NamesRegister (q : Compute) : Prop := q.op = 0x1B → 0x10 ≤ q.imm % 64 ∧ q.imm % 64 ≤ 0x28

/-- A row of a compute operation runs the core's context as the operation's effect leads it on. -/
theorem exec_compute {k : Nat} {env : EcEnv} {c : EcCtx} {p : EcProg} {s : State} {q : Compute} {x y : MoveSlot} {i : Instr}
    {z : EcCtx} (hi : exec i s = withInstance "effect core" k 64 (issueRow (isCompute q.op) k env s))
    (h : Issues k (.a q x y) env c p s) (hx : x.kind = 0) (hy : y.kind = 0) (hq : NamesRegister q)
    (hz : computeEffect q (c.run env) (landLoads (c.run env)) = z) :
    exec i s = .next (ranAs k env (advance c.pc z) s) := by
  have hfree (w : EcCtx) (t : State) : movcFree (.a q x y) w t = (w, t) := by
    refine if_neg fun hn => ?_
    simp only [Bool.and_eq_true, Bool.or_eq_true, decide_eq_true_eq] at hn
    have := hq hn.1
    omega
  rw [hi, withInstance_of_lt h.1, issueRow_of_movesNothing h (by simp [isCompute]) (movesNothing_a hx hy) rfl rfl, hfree]
  exact congrArg (fun w => Host.Outcome.next (ranAs k env (advance c.pc w) s)) hz

/-- Every operation but MOVC. -/
theorem namesRegister_of_ne {q : Compute} (h : q.op ≠ 0x1B) : NamesRegister q := fun he => absurd he h

/-! ### Results on patterns -/

theorem sshiftRight_eq_ofInt (a : BitVec 32) (n : Nat) : BitVec.ofInt 32 (a.toInt / 2 ^ n) = a.sshiftRight n := by
  rw [BitVec.sshiftRight, Int.shiftRight_eq_div_pow]
  rfl

theorem ushiftRight_eq_ofNat (a : BitVec 32) (n : Nat) : BitVec.ofNat 32 (a.toNat / 2 ^ n) = a >>> n := by
  rw [← Nat.shiftRight_eq_div_pow, ← BitVec.toNat_ushiftRight, BitVec.ofNat_toNat, BitVec.setWidth_eq]

theorem ofInt_min_toInt (a b : BitVec 32) : BitVec.ofInt 32 (min a.toInt b.toInt) = if a.slt b then a else b := by
  rw [BitVec.slt_eq_decide]
  by_cases h : a.toInt < b.toInt
  · simp [h, min_eq_left h.le]
  · simp [h, min_eq_right (not_lt.mp h)]

theorem ofInt_max_toInt (a b : BitVec 32) : BitVec.ofInt 32 (max a.toInt b.toInt) = if a.slt b then b else a := by
  rw [BitVec.slt_eq_decide]
  by_cases h : a.toInt < b.toInt
  · simp [h, max_eq_right h.le]
  · simp [h, max_eq_left (not_lt.mp h)]

/-- A d register written with a value whose pattern is known. -/
theorem setD_of_ofInt {z : EcCtx} {i : Nat} {v : Int} {w : BitVec 32} (h : BitVec.ofInt 32 v = w) :
    z.setD i v = { z with d := z.d.set i w } := by
  rw [EcCtx.setD, h]

/-- Settles O26: each operation's effect is its definition, its result a pattern or a value fitted into 32 bits. -/
theorem computeRegisters : Obligations.ComputeRegisters := by
  intro k env c p s q x y hx hy
  have runs {op : Nat} (hne : op ≠ 0x1B) {i : Instr} {z : EcCtx}
      (hi : exec i s = withInstance "effect core" k 64 (issueRow (isCompute op) k env s))
      (hz : computeEffect { q with op := op } (c.run env) (landLoads (c.run env)) = z)
      (h : Issues k (.a { q with op := op } x y) env c p s) : exec i s = .next (ranAs k env (advance c.pc z) s) :=
    exec_compute (q := { q with op := op }) hi h hx hy (namesRegister_of_ne hne) hz
  refine ⟨?nop, ?add, ?sub, ?addi, ?and, ?or, ?xor, ?asr, ?lsl, ?lsr, ?abs, ?neg, ?min, ?max, ?cmp, ?mov⟩
  case nop => exact runs (by decide) rfl rfl
  case add => exact runs (by decide) rfl (putD_eq ..)
  case sub => exact runs (by decide) rfl (putD_eq ..)
  case addi => exact runs (by decide) rfl (putD_eq ..)
  case and => exact runs (by decide) rfl (setD_toInt ..)
  case or => exact runs (by decide) rfl (setD_toInt ..)
  case xor => exact runs (by decide) rfl (setD_toInt ..)
  case asr => exact runs (by decide) rfl (setD_of_ofInt (sshiftRight_eq_ofInt ..))
  case lsl => exact runs (by decide) rfl (putD_eq ..)
  case lsr => exact runs (by decide) rfl ((setD_natCast ..).trans (by rw [ushiftRight_eq_ofNat]; rfl))
  case abs => exact runs (by decide) rfl (putD_eq ..)
  case neg => exact runs (by decide) rfl (putD_eq ..)
  case min => exact runs (by decide) rfl (setD_of_ofInt (ofInt_min_toInt ..))
  case max => exact runs (by decide) rfl (setD_of_ofInt (ofInt_max_toInt ..))
  case cmp =>
    refine runs (by decide) rfl ?_
    simp only [computeEffect, EcCtx.dr, BitVec.toInt_inj, BitVec.slt_eq_decide]
    rfl
  case mov => exact runs (by decide) rfl (setD_toInt ..)

/-- Settles O27: each operation's effect is its definition, its exact value fitted into the accumulator or the register. -/
theorem computeAccumulators : Obligations.ComputeAccumulators := by
  intro k env c p s q x y hx hy
  have runs {op : Nat} (hne : op ≠ 0x1B) {i : Instr} {z : EcCtx}
      (hi : exec i s = withInstance "effect core" k 64 (issueRow (isCompute op) k env s))
      (hz : computeEffect { q with op := op } (c.run env) (landLoads (c.run env)) = z)
      (h : Issues k (.a { q with op := op } x y) env c p s) : exec i s = .next (ranAs k env (advance c.pc z) s) :=
    exec_compute (q := { q with op := op }) hi h hx hy (namesRegister_of_ne hne) hz
  refine ⟨?mul, ?mac, ?msu, ?clra, ?adda, ?sha, ?rnd, ?lda⟩
  case mul => exact runs (by decide) rfl (putA_eq ..)
  case mac => exact runs (by decide) rfl (putA_eq ..)
  case msu => exact runs (by decide) rfl (putA_eq ..)
  case clra => exact runs (by decide) rfl rfl
  case adda => exact runs (by decide) rfl (putA_eq ..)
  case sha => exact runs (by decide) rfl (putA_eq ..)
  case rnd => exact runs (by decide) rfl (putD_eq ..)
  case lda => exact runs (by decide) rfl (putA_eq (landLoads (c.run env)) false q.d _)

/-! ### Scans and register codes -/

/-- A magnitude held in 31 bits reads back as it is. -/
theorem toInt_ofInt_magnitude (a : Int) :
    (BitVec.ofInt 32 (min (a.natAbs : Int) (2 ^ 31 - 1))).toInt = min (a.natAbs : Int) (2 ^ 31 - 1) :=
  BitVec.toInt_ofInt_eq_self (by decide) (by omega) (by omega)

/-- Codes that MOVTC cannot write: the d registers, lc0, lc1, the cycle counter and those above BM_LEN (R270). -/
theorem writeCode_ignored {code : Nat} (h : code < 0x10 ∨ code = 0x22 ∨ code = 0x23 ∨ code = 0x24 ∨ 0x28 < code) (c : EcCtx)
    (v : Nat) : writeCode false c code v = c := by
  unfold writeCode
  rcases h with h | rfl | rfl | rfl | h
  · simp [h]
  · rfl
  · rfl
  · rfl
  · rw [if_neg (by omega), if_neg (by omega), if_neg (by omega)]
    split
    any_goals omega
    rfl

theorem writeCode_p {code : Nat} (h : 0x10 ≤ code) (h' : code < 0x18) (ldi : Bool) (c : EcCtx) (v : Nat) :
    writeCode ldi c code v = { c with p := c.p.set (code - 0x10) (v % 65536) } := by
  unfold writeCode
  rw [if_neg (by omega), if_pos h']

theorem writeCode_m {code : Nat} (h : 0x18 ≤ code) (h' : code < 0x20) (ldi : Bool) (c : EcCtx) (v : Nat) :
    writeCode ldi c code v = { c with m := c.m.set (code - 0x18) (v % 2 ^ 31) } := by
  unfold writeCode
  rw [if_neg (by omega), if_neg (by omega), if_pos h']

/-- A long immediate to a d register. -/
theorem writeCode_d {code : Nat} (h : code < 0x10) (c : EcCtx) (v : Nat) :
    writeCode true c code v = { c with d := c.d.set code (BitVec.ofNat 32 v) } := by
  unfold writeCode
  rw [if_pos h, if_pos rfl, setD_natCast]

/-- MOVTC of sr writes the flags, sr.SAT among them. -/
theorem writeCode_sr (c : EcCtx) (v : Nat) :
    writeCode false c 0x20 v = { c with eq := bit 0 v, lt := bit 1 v, sat := bit 2 v } := by
  simp [writeCode]

@[simp] theorem landLoads_sat (c : EcCtx) : (landLoads c).sat = c.sat := by
  have h (l : List LoadWait) (c : EcCtx) :
      (l.foldl (fun (c : EcCtx) l => { c with d := c.d.set l.reg l.val }) c).sat = c.sat := by
    induction l generalizing c with
    | nil => rfl
    | cons _ l ih => exact ih _
  exact h _ c

/-- A MOVC of a code that names no register writes a free value. -/
theorem exec_movc_free {k : Nat} {env : EcEnv} {c : EcCtx} {p : EcProg} {s : State} {q : Compute} {x y : MoveSlot}
    (h : Issues k (.a { q with op := 0x1B } x y) env c p s) (hx : x.kind = 0) (hy : y.kind = 0)
    (hc : q.imm % 64 < 0x10 ∨ 0x28 < q.imm % 64) : exec (.movc k env) s = .next (ranAs k env (advance c.pc
      { landLoads (c.run env) with d := (landLoads (c.run env)).d.set q.d (BitVec.ofNat 32 (Config.freeValue s.free)) })
      { s with free := s.free + 1 }) := by
  have hfree (w : EcCtx) (t : State) : movcFree (.a { q with op := 0x1B } x y) w t
      = (w.setD q.d ((Config.freeValue t.free % 2 ^ 32 : Nat) : Int), { t with free := t.free + 1 }) :=
    if_pos (by simpa using hc)
  have ofNat_mod (n : Nat) : BitVec.ofNat 32 (n % 2 ^ 32) = BitVec.ofNat 32 n :=
    BitVec.eq_of_toNat_eq (by simp)
  have hland (pc : Nat) (w : EcCtx) (n : Nat) :
      (advance pc (w.setD q.d (n : Int))).setD q.d ((Config.freeValue s.free % 2 ^ 32 : Nat) : Int)
        = advance pc { w with d := w.d.set q.d (BitVec.ofNat 32 (Config.freeValue s.free)) } := by
    rw [setD_natCast w, setD_natCast, advance_d pc (w.d.set q.d (BitVec.ofNat 32 n)) w, advance_d pc (w.d.set _ _) w,
      ofNat_mod]
    simp only [List.set_set]
  show withInstance "effect core" k 64 (issueRow (isCompute 0x1B) k env s) = _
  rw [withInstance_of_lt h.1, issueRow_of_movesNothing h rfl (movesNothing_a hx hy) rfl rfl, hfree]
  exact congrArg (fun w => Host.Outcome.next (ranAs k env w { s with free := s.free + 1 })) (hland c.pc _ _)

/-- A row of a long immediate. -/
theorem exec_ldi {k : Nat} {env : EcEnv} {c : EcCtx} {p : EcProg} {s : State} {r v : Nat} (h : Issues k (.b r v) env c p s) :
    exec (.ldi k env) s = .next (ranAs k env (advance c.pc (writeCode true (landLoads (c.run env)) r v)) s) := by
  show withInstance "effect core" k 64 (issueRow isLdi k env s) = _
  rw [withInstance_of_lt h.1, issueRow_of_movesNothing h rfl (movesNothing_b r v) rfl rfl]
  rfl

/-- Settles O28: scans compare the registers as the bundle found them, and codes are read and written by their ranges. -/
theorem scansAndCodes : Obligations.ScansAndCodes := by
  intro k env c p s q x y hx hy
  have runs {op : Nat} (hne : op ≠ 0x1B) {i : Instr} {z : EcCtx}
      (hi : exec i s = withInstance "effect core" k 64 (issueRow (isCompute op) k env s))
      (hz : computeEffect { q with op := op } (c.run env) (landLoads (c.run env)) = z)
      (h : Issues k (.a { q with op := op } x y) env c p s) : exec i s = .next (ranAs k env (advance c.pc z) s) :=
    exec_compute (q := { q with op := op }) hi h hx hy (namesRegister_of_ne hne) hz
  have scan (v t b : BitVec 32) (z : EcCtx) :
      (if v.toInt > t.toInt then (z.setD q.d v.toInt).setD (q.d + 1) b.toInt else z)
        = if t.slt v then { z with d := (z.d.set q.d v).set (q.d + 1) b } else z := by
    simp only [setD_toInt, BitVec.slt_eq_decide, decide_eq_true_eq, gt_iff_lt]
  refine ⟨?maxs, ?mins, ?maxas, ?movc, fun hc h => exec_movc_free h hx hy hc, ?ignored, ?p, ?m, ?sr, ?lr, ?bm, ?ldi⟩
  case maxs => exact runs (by decide) rfl (scan ..)
  case mins =>
    refine runs (by decide) rfl ?_
    simp only [computeEffect, EcCtx.dr, setD_toInt, BitVec.slt_eq_decide, decide_eq_true_eq]
    rfl
  case maxas =>
    refine runs (by decide) rfl ?_
    have h := scan (BitVec.ofInt 32 (min ((c.d.getD q.sa 0).toInt.natAbs : Int) (2 ^ 31 - 1))) (c.d.getD q.d 0)
      (c.d.getD q.sb 0) (landLoads (c.run env))
    rw [toInt_ofInt_magnitude] at h
    exact h
  case movc =>
    intro h1 h2 h
    exact exec_compute (q := { q with op := 0x1B }) rfl h hx hy (fun _ => ⟨h1, h2⟩) (setD_natCast ..)
  case ignored => exact fun hc => runs (by decide) rfl (writeCode_ignored hc ..)
  case p => exact fun h1 h2 => runs (by decide) rfl (writeCode_p h1 h2 ..)
  case m => exact fun h1 h2 => runs (by decide) rfl (writeCode_m h1 h2 ..)
  case sr =>
    intro hc
    refine runs (by decide) rfl ?_
    simp only [computeEffect, hc, writeCode_sr]
    rfl
  case lr =>
    intro hc
    refine runs (by decide) rfl ?_
    simp only [computeEffect, hc]
    rfl
  case bm => exact fun _ _ => runs (by decide) rfl rfl
  case ldi =>
    intro r v h
    refine ⟨fun _ => exec_ldi h, fun hr => ⟨_, exec_ldi h, ?_⟩, fun hr => ?_⟩
    · subst hr
      rw [advance_sat]
      simp [writeCode, EcCtx.run]
    · rw [exec_ldi h, writeCode_d hr]

/-! ### Rows of the control slot -/

/-- A row of a control operation that neither stalls nor faults. -/
theorem exec_control {k : Nat} {env : EcEnv} {c : EcCtx} {p : EcProg} {s : State} {q : Control} {x y : MoveSlot} {i : Instr}
    {z : EcCtx} (hi : exec i s = withInstance "effect core" k 64 (issueRow (isControl q.op) k env s))
    (h : Issues k (.c q x y) env c p s) (hx : x.kind = 0) (hy : y.kind = 0) (hs : stalls (.c q x y) c = false)
    (hf : bundleFault p (.c q x y) c = none)
    (hz : bundleEffect c.pc (.c q x y) (c.run env) (landLoads (c.run env)) = z) :
    exec i s = .next (ranAs k env z s) := by
  rw [hi, withInstance_of_lt h.1, issueRow_of_movesNothing h (by simp [isControl]) (movesNothing_c hx hy) hs hf, hz]
  rfl

/-- A row of a control operation that stalls. -/
theorem exec_control_stalls {k : Nat} {env : EcEnv} {c : EcCtx} {p : EcProg} {s : State} {q : Control} {x y : MoveSlot}
    {i : Instr} (hi : exec i s = withInstance "effect core" k 64 (issueRow (isControl q.op) k env s))
    (h : Issues k (.c q x y) env c p s) (hs : stalls (.c q x y) c = true) :
    exec i s = .next (ranAs k env { c.run env with stalled := true } s) := by
  rw [hi, withInstance_of_lt h.1, issueRow_stalls h (by simp [isControl]) hs]

@[simp] theorem setLc_loops (c : EcCtx) (level v : Nat) : (c.setLc level v).loops = c.loops := by
  unfold EcCtx.setLc
  split <;> rfl

/-- LOOP at a level not active passes over an empty loop and begins another (R275). -/
theorem controlEffect_loop (pc : Nat) (q : Control) {o : EcCtx} (ho : o.looping (q.cond % 2) = false) (c : EcCtx) :
    controlEffect pc { q with op := 4 } o c = .inr (
      if (o.d.getD q.reg 0).toNat % 65536 = 0 then { c.setLc (q.cond % 2) 0 with pc := (q.target + 1) % 8192 }
      else advance pc { c.setLc (q.cond % 2) ((o.d.getD q.reg 0).toNat % 65536) with
        loops := ⟨q.cond % 2, (pc + 1) % 8192, q.target⟩ :: c.loops }) := by
  simp only [controlEffect, ho, Bool.false_eq_true, if_false, setLc_loops]
  split
  · next h0 => simp only [h0]
  · rfl

/-- Settles O29: each operation is a case of the control slot; only WAITM and BMOV can stall, only LOOP and BMOV fault. -/
theorem controlOperations : Obligations.ControlOperations := by
  intro k env c p s q x y hx hy z level count does slots taken
  have runs {op : Nat} {i : Instr} {w : EcCtx} (hi : exec i s = withInstance "effect core" k 64 (issueRow (isControl op) k env s))
      (hs : stalls (.c { q with op := op } x y) c = false) (hf : bundleFault p (.c { q with op := op } x y) c = none)
      (hw : bundleEffect c.pc (.c { q with op := op } x y) (c.run env) z = w)
      (h : Issues k (.c { q with op := op } x y) env c p s) : exec i s = .next (ranAs k env w s) :=
    exec_control (q := { q with op := op }) hi h hx hy hs hf hw
  have waits {op : Nat} {i : Instr} (hi : exec i s = withInstance "effect core" k 64 (issueRow (isControl op) k env s))
      (hs : stalls (.c { q with op := op } x y) c = true)
      (h : Issues k (.c { q with op := op } x y) env c p s) : exec i s = .next (ranAs k env { c.run env with stalled := true } s) :=
    exec_control_stalls (q := { q with op := op }) hi h hs
  refine ⟨?cnop, ?br, ?call, ?ret, ?passed, ?loop, ?lbrk, ?bmov, ?fifth, ?waitm, ?waits, ?done⟩
  case cnop => exact runs rfl rfl rfl rfl
  case br => exact runs rfl rfl rfl rfl
  case call => exact runs rfl rfl rfl rfl
  case ret => exact runs rfl rfl rfl rfl
  case passed =>
    intro hl hc
    refine runs rfl rfl (by simpa [bundleFault] using hl) ?_
    rw [bundleEffect, controlEffect_loop c.pc q (show (c.run env).looping level = false from hl)]
    exact if_pos hc
  case loop =>
    intro hl hc
    refine runs rfl rfl (by simpa [bundleFault] using hl) ?_
    rw [bundleEffect, controlEffect_loop c.pc q (show (c.run env).looping level = false from hl)]
    exact if_neg hc
  case lbrk => exact runs rfl rfl rfl rfl
  case bmov => exact fun hn hok => runs rfl (by simp [stalls, hn]) (by simp [bundleFault, hok]) rfl
  case fifth => exact fun hn => waits rfl (by simp [stalls, hn])
  case waitm => exact fun hm => runs rfl (by simp [stalls, hm]) rfl rfl
  case waits => exact fun hm => waits rfl (by simpa [stalls] using hm)
  case done => exact runs rfl rfl rfl rfl

end Sys2Proof.Machine
end

section
/-!
SUPPORT. Writes of status bits and of plain registers, and the bus errors of register space (R17, R18, R511, R513, R594).
-/
namespace Sys2Proof.Machine

/-! ### Status bits -/

/-- A served write of a status register clears its bits, after the answer. -/
theorem exec_w1cWrite {m : Nat} {addr v : Word} {s : State} (hm : m < 5) (h : Serves m addr.toNat true s)
    (ha : accOf addr.toNat = .w1c ∨ accOf addr.toNat = .mix) :
    exec (.w1cWrite m addr v) s = .next (w1cWrite addr.toNat (instOf addr.toNat m s) v.toNat (answered m s)) := by
  obtain ⟨hl, hu⟩ := accOf_range (a := addr.toNat) (by rcases ha with h | h <;> simp [h])
  refine withInstance_next.mpr ⟨hm, ?_⟩
  have hrow : w1cRow m addr.toNat v.toNat s = busWrite m addr.toNat v.toNat s :=
    if_pos (by rcases ha with h | h <;> simp [h])
  rw [hrow, busWrite_register _ h hl hu, regWrite_served _ h, Nat.mod_eq_of_lt v.isLt]
  rcases ha with h | h <;> rw [h]

/-- At an address given as a number. -/
theorem exec_w1cWrite_at {m a : Nat} {v : Word} {s : State} (hm : m < 5) (hlt : a < 2 ^ 32)
    (ha : accOf a = .w1c ∨ accOf a = .mix) (h : Serves m a true s) :
    exec (.w1cWrite m (BitVec.ofNat 32 a) v) s = .next (w1cWrite a (instOf a m s) v.toNat (answered m s)) := by
  have hto : (BitVec.ofNat 32 a).toNat = a := by rw [BitVec.toNat_ofNat, Nat.mod_eq_of_lt hlt]
  have := exec_w1cWrite (addr := BitVec.ofNat 32 a) (v := v) hm (by rw [hto]; exact h) (by rw [hto]; exact ha)
  rwa [hto] at this

theorem bit_bitIf (b : Bool) (j k : Nat) : bit j (bitIf b k) = (b && decide (j = k)) := by
  cases b
  · simp [bit_eq_testBit, bitIf]
  · simp [bit_eq_testBit, bitIf, Nat.testBit_two_pow, eq_comm]

/-- The bits of a number put together bit by bit. -/
theorem bit_foldl_bitIf (f : Nat → Bool) (n j : Nat) :
    bit j ((List.range n).foldl (fun (a : Nat) k => a + bitIf (f k) k) 0) = (decide (j < n) && f j)
      ∧ (List.range n).foldl (fun (a : Nat) k => a + bitIf (f k) k) 0 < 2 ^ n := by
  induction n with
  | zero => simp [bit_eq_testBit]
  | succ n ih =>
    obtain ⟨hb, hlt⟩ := ih
    rw [List.range_succ, List.foldl_append]
    simp only [List.foldl_cons, List.foldl_nil]
    generalize (List.range n).foldl (fun (a : Nat) k => a + bitIf (f k) k) 0 = x at *
    have hadd : x + bitIf (f n) n = 2 ^ n * (if f n then 1 else 0) + x := by
      cases f n <;> simp [bitIf, Nat.add_comm]
    rw [hadd]
    refine ⟨?_, ?_⟩
    · rw [bit_eq_testBit, Nat.testBit_two_pow_mul_add _ hlt]
      rw [bit_eq_testBit] at hb
      split
      · next hj => rw [hb]; simp [hj, Nat.lt_succ_of_lt hj]
      · next hj =>
        by_cases he : j = n
        · subst he; cases f j <;> simp
        · have : ¬j < n + 1 := by omega
          have hone : Nat.testBit 1 (j - n) = false := by
            rw [Nat.testBit_lt_two_pow]
            exact Nat.one_lt_two_pow (by omega)
          cases f n <;> simp [this, hone]
    · split <;> omega

/-- Settles O10: each register's row is the clearing of its block, at the instance the master has selected. -/
theorem statusBitsClear : Obligations.StatusBitsClear := by
  intro m v s hm
  refine ⟨?sys, ?clk, ?twin, ?ptp, ?epoch, ?port, ?group, ?adc, ?dac, ?amp, ?headset, ?ctl, ?alignment⟩
  case alignment =>
    intro h
    refine ⟨_, exec_w1cWrite_at (a := 0x100D0064) hm (by decide) (by decide) h, rfl, fun k hk => ?_⟩
    exact (bit_foldl_bitIf (fun k => bit k s.sap.agEvent && !bit k v.toNat) 32 k).1.trans (by simp [hk])
  all_goals exact fun h => exec_w1cWrite_at hm (by decide) (by decide) h

/-! ### Pending bits -/

/-- What is left of a set when another is taken away. -/
theorem toNat_and_not {n : Nat} (x b : BitVec n) : (x &&& ~~~b).toNat = x.toNat - (x &&& b).toNat := by
  have hdis : (x &&& b) &&& (x &&& ~~~b) = 0#n := by
    ext i hi
    cases hx : x[i] <;> cases hb : b[i] <;> simp [hx, hb]
  have hall : (x &&& b) ||| (x &&& ~~~b) = x := by
    ext i hi
    cases hx : x[i] <;> cases hb : b[i] <;> simp [hx, hb]
  have hadd : (x &&& b) + (x &&& ~~~b) = x := by rw [BitVec.add_eq_or_of_and_eq_zero _ _ hdis, hall]
  have hle : x &&& b ≤ x := BitVec.le_def.mpr (by rw [BitVec.toNat_and]; exact Nat.and_le_left)
  rw [← BitVec.toNat_sub_of_le hle]
  congr 1
  rw [eq_comm, BitVec.sub_eq_iff_eq_add, BitVec.add_comm]
  exact hadd.symm

/-- The bits of a set that a word at place `w` holds too. -/
theorem toNat_and_shifted {w : Nat} (hw : w < 8) (x : BitVec 256) (v : Word) :
    (x &&& v.setWidth 256 <<< (32 * w)).toNat = (codeWord w x &&& v.toNat) * 2 ^ (32 * w) := by
  have hv : (v.setWidth 256 <<< (32 * w)).toNat = v.toNat <<< (32 * w) := by
    have hlt : v.toNat * 2 ^ (32 * w) < 2 ^ 256 :=
      calc v.toNat * 2 ^ (32 * w) < 2 ^ 32 * 2 ^ (32 * w) := by gcongr; exact v.isLt
        _ = 2 ^ (32 + 32 * w) := by rw [← pow_add]
        _ ≤ 2 ^ 256 := Nat.pow_le_pow_right (by decide) (by omega)
    have hv : v.toNat < 2 ^ 256 := v.isLt.trans (by decide)
    rw [BitVec.toNat_shiftLeft, BitVec.toNat_setWidth, Nat.mod_eq_of_lt hv, Nat.shiftLeft_eq, Nat.mod_eq_of_lt hlt]
  rw [BitVec.toNat_and, hv, ← Nat.shiftLeft_eq, codeWord, ← Nat.shiftRight_eq_div_pow]
  refine Nat.eq_of_testBit_eq fun j => ?_
  rw [Nat.testBit_and, Nat.testBit_shiftLeft, Nat.testBit_shiftLeft, Nat.testBit_and, Nat.testBit_mod_two_pow,
    Nat.testBit_shiftRight]
  by_cases hj : 32 * w ≤ j
  · have : 32 * w + (j - 32 * w) = j := by omega
    by_cases hjj : j - 32 * w < 32
    · simp [hj, hjj, this]
    · have : v.toNat.testBit (j - 32 * w) = false :=
        Nat.testBit_lt_two_pow (lt_of_lt_of_le v.isLt (Nat.pow_le_pow_right (by decide) (by omega)))
      simp [this]
  · simp [hj]

/-- Clearing bits of one word of a set clears them in the set. -/
theorem setCodeWord_clear {w : Nat} (hw : w < 8) (x : BitVec 256) (v : Word) :
    setCodeWord w (codeWord w x - (codeWord w x &&& v.toNat)) x = x &&& ~~~(v.setWidth 256 <<< (32 * w)) := by
  have hle : codeWord w x * 2 ^ (32 * w) ≤ x.toNat :=
    calc codeWord w x * 2 ^ (32 * w) ≤ x.toNat / 2 ^ (32 * w) * 2 ^ (32 * w) := by gcongr; exact Nat.mod_le ..
      _ ≤ x.toNat := Nat.div_mul_le_self ..
  have hlt : codeWord w x < 2 ^ 32 := Nat.mod_lt _ (by decide)
  have hand : codeWord w x &&& v.toNat ≤ codeWord w x := Nat.and_le_left
  have hmul : (codeWord w x &&& v.toNat) * 2 ^ (32 * w) ≤ codeWord w x * 2 ^ (32 * w) := by gcongr
  apply BitVec.eq_of_toNat_eq
  rw [toNat_and_not, toNat_and_shifted hw, setCodeWord, BitVec.toNat_ofNat, Nat.mod_eq_of_lt (by omega : codeWord w x - _ < 2 ^ 32),
    Nat.sub_mul, Nat.mod_eq_of_lt (by have := x.isLt; omega)]
  omega

/-- Settles O11: the word's pending bits are cleared in the 256. -/
theorem pendingEventsClear : Obligations.PendingEventsClear := by
  intro m w v s hm hw h
  have hacc : accOf (0x10140040 + 4 * w) = .mix := by
    interval_cases w <;> decide
  rw [exec_w1cWrite_at hm (by omega) (.inr hacc) h]
  have hoff : (0x10140040 + 4 * w) % 65536 = 0x40 + 4 * w := by omega
  have hblock : (0x10140040 + 4 * w) / 65536 = 0x1014 := by omega
  have hword : (0x40 + 4 * w - 0x40) / 4 = w := by omega
  have hne : 0x40 + 4 * w ≠ 0x0C := by omega
  simp only [w1cWrite, hblock, hoff, ctlW1c, if_neg hne, hword]
  rw [setCodeWord_clear hw]
  rfl

/-! ### Bus errors -/

/-- The state in which a bus error's address and master are noted (R513). -/
def errNoted (m a c : Nat) (w : Bool) (s : State) : State :=
  { s with bus := { s.bus with errAddr := a % 2 ^ 32, errInfo := m + c * 8 + bitIf w 6 + 2 ^ 31 } }

theorem busError_eq (m a c : Nat) (w : Bool) (s : State) :
    busError m a c w s = raise 0x7F 0 (count 0x1000030C 0 1 (errNoted m a c w s)) := rfl

/-- Raising an event leaves the registers and the noted bus error alone. -/
theorem raise_busRest (code arg : Nat) (s : State) : (raise code arg s).bus.regs = s.bus.regs
    ∧ (raise code arg s).bus.errAddr = s.bus.errAddr ∧ (raise code arg s).bus.errInfo = s.bus.errInfo
    ∧ (raise code arg s).bus.rdata = s.bus.rdata := by
  rcases raiseAt_bus false code arg s with h | h
  · rw [raise, h]; exact ⟨rfl, rfl, rfl, rfl⟩
  · rw [raise, h]; exact ⟨rfl, rfl, rfl, rfl⟩

/-- A bus error is counted, reported, and kept with its address and master. -/
theorem busError_heard (m a c : Nat) (w : Bool) (s : State) :
    let t := busError m a c w s
    t = { s with bus := t.bus, ev := t.ev, evc := t.evc, tcm := t.tcm } ∧ Counts 0x1000030C 0 1 s t ∧ Rings 0x7F s t
      ∧ t.bus.regs = s.bus.regs ∧ t.bus.errAddr = a % 2 ^ 32 ∧ t.bus.errInfo = m + c * 8 + bitIf w 6 + 2 ^ 31 := by
  rw [busError_eq]
  obtain ⟨hregs, haddr, hinfo, -⟩ := raise_busRest 0x7F 0 (count 0x1000030C 0 1 (errNoted m a c w s))
  refine ⟨?_, ?_, rings_raise (by decide) 0 (count 0x1000030C 0 1 (errNoted m a c w s)), hregs, haddr, hinfo⟩
  · rw [raise_frame]
    rfl
  · exact (cget_raiseAt (by decide) false 0x7F 0 _).trans (cget_count_self ..)

/-- Whether a master's access met a bus error. -/
@[simp] theorem rerr_busAnswer (m v : Nat) (err : Bool) (s : State) :
    sget 0 m (busAnswer m v err s).bus.rerr = if err then 1 else 0 := sget_sset_self ..

/-! ### Plain registers -/

/-- A single aligned word has an allowed form. -/
theorem formOk_word {a : Nat} (h : a % 4 = 0) (s : State) : formOk a 4 1 s = true := by simp [formOk, h]

/-- A register is never reached by a burst or by an access that is not one aligned word. -/
theorem formOk_register {a bytes n : Nat} (hl : 0x10000000 ≤ a) (hu : a < 0x10130000) (h : bytes ≠ 4 ∨ a % 4 ≠ 0 ∨ n ≠ 1)
    (s : State) : formOk a bytes n s = false := by
  have ht (r : Bool) : targetOf r a = .regs := by
    unfold targetOf
    rw [if_neg (by omega), if_neg (by omega), if_neg (by omega), if_neg (by omega), if_pos (by omega)]
  rcases h with h | h | h <;> simp [formOk, h, ht]

/-- A served access is aligned. -/
theorem Serves.aligned {m a : Nat} {w : Bool} {s : State} (h : Serves m a w s) : a % 4 = 0 := by
  by_contra hn
  have := h.2.1
  simp [busRefused, hn] at this

/-- One word written. -/
theorem eachWord_one (one : Nat → State → State) (m : Nat) (s : State) : eachWord one m 1 0 s = one 0 s := by
  simp [eachWord]

/-- A REGISTER_WRITE of one word, where it is served, is the register's write after the answer. -/
theorem exec_registerWrite {m : Nat} {addr v : Word} {s : State} (hm : m < 5) (h : Serves m addr.toNat true s)
    (hl : 0x10000000 ≤ addr.toNat) (hu : addr.toNat < 0x10180000) :
    exec (.registerWrite m addr ⟨4, [v]⟩) s = .next (regWrite m addr.toNat v.toNat (answered m s)) := by
  refine withInstance_next.mpr ⟨hm, ?_⟩
  simp only [busWrites, transaction, h.1, List.map_cons, List.map_nil, List.length_cons, List.length_nil, Nat.zero_add,
    formOk_word h.aligned, Bool.not_true, Bool.false_eq_true, if_false, if_true, eachWord_one]
  show _ = busWrite m (addr.toNat + 4 * 0) v.toNat s
  rw [Nat.mul_zero, Nat.add_zero, busWrite_register _ h hl hu, Nat.mod_eq_of_lt v.isLt]

/-- An access of a form that register space does not take is a bus error. -/
theorem exec_registerWrite_badForm {m : Nat} {addr : Word} {bytes : Nat} {values : List Word} {s : State} (hm : m < 5)
    (ha : masterActive m s = true) (hf : formOk addr.toNat bytes values.length s = false) :
    exec (.registerWrite m addr ⟨bytes, values⟩) s
      = .next (busAnswer m (sget 0 m s.bus.rdata) true (busError m addr.toNat 0 true s)) := by
  refine withInstance_next.mpr ⟨hm, ?_⟩
  simp only [busWrites, transaction, ha, List.length_map, hf, Bool.not_true, Bool.false_eq_true, if_false, if_true]

/-- The registers of which only the supervisor's writes are taken. -/
theorem rwWrite_svOnly {m a : Nat} (hm : m ≠ 0)
    (ha : a ∈ [0x10000300, 0x10010014, 0x10010018, 0x10010030, 0x10010034, 0x10010038, 0x1001003C, 0x10010040])
    (i v : Nat) (s : State) : rwWrite m a i v s = s := by
  unfold rwWrite
  rw [if_pos]
  simp only [List.contains_iff_mem.mpr ha, hm, ne_eq, not_false_eq_true, decide_true, Bool.and_self]

/-- A register that no block's state holds takes the bits that are not reserved. -/
theorem rwWrite_plain {m a i : Nat} (hh : heldByState a = false) (hrow : a ∉ [0x100C001C, 0x100C006C, 0x10130044])
    (hsv : m = 0 ∨ a ∉ [0x10000300, 0x10010014, 0x10010018, 0x10010030, 0x10010034, 0x10010038, 0x1001003C])
    (hpll : (a, i) ≠ (0x10010018, 5)) (v : Nat) (s : State) : rwWrite m a i v s = rset a i (v &&& rwMask a) s := by
  simp only [heldByState, List.contains_eq_mem, List.mem_cons, List.not_mem_nil, or_false, Bool.or_eq_false_iff,
    decide_eq_false_iff_not, not_or] at hh
  obtain ⟨⟨h24, h40, hE0, hE1, hN0, hV⟩, hirq⟩ := hh
  simp only [List.mem_cons, List.not_mem_nil, or_false, not_or] at hrow hsv
  obtain ⟨hinc, htod, hdata⟩ := hrow
  have hmine : ([0x10000300, 0x10010014, 0x10010018, 0x10010030, 0x10010034, 0x10010038, 0x1001003C, 0x10010040].contains a
      && decide (m ≠ 0)) = false := by
    simp only [List.contains_eq_mem, List.mem_cons, List.not_mem_nil, or_false, h40, Bool.and_eq_false_iff,
      decide_eq_false_iff_not, not_not]
    tauto
  unfold rwWrite
  simp only [hmine, hirq, Bool.false_eq_true, if_false]
  split
  case h_1 =>
    have h5 : i ≠ 5 := fun h => hpll (by rw [h])
    simp [pllFracWrite, h5]
  case h_11 => rfl
  all_goals contradiction

/-- Settles O12: a served write comes to the register's own, by its access code; other accesses are bus errors. -/
theorem plainRegisterWrites : Obligations.PlainRegisterWrites := by
  refine ⟨?words, fun m addr bytes values s hm ha hl hu hform => ?badForm⟩
  case words =>
    intro m addr v s hm h a i hl hu
    refine ⟨fun hacc hh hrow hpll hsv => ?plain, fun ha hne => ?others, fun hacc => ?none⟩
    case plain =>
      have hexec := exec_registerWrite (v := v) hm h hl hu
      rw [regWrite_served _ h, hacc] at hexec
      refine ⟨_, hexec.trans (congrArg _ (rwWrite_plain hh hrow hsv hpll ..)), rfl, rfl, rget_rset_self .., fun b j hne => ?_⟩
      exact rget_rset_of_ne hne ..
    case others =>
      have hacc : accOf a = .rw := by
        have : ∀ a ∈ [0x10000300, 0x10010014, 0x10010018, 0x10010030, 0x10010034, 0x10010038, 0x1001003C, 0x10010040],
          accOf a = .rw := by decide
        exact this a ha
      rw [exec_registerWrite hm h hl hu, regWrite_served _ h, hacc]
      exact congrArg _ (rwWrite_svOnly hne ha ..)
    case none =>
      rw [exec_registerWrite hm h hl hu, regWrite_served _ h]
      rcases hacc with h | h | h <;> rw [h]
  case badForm =>
    obtain ⟨hframe, hcount, hring, hregs, haddr, hinfo⟩ := busError_heard m addr.toNat 0 true s
    refine ⟨_, exec_registerWrite_badForm hm ha (formOk_register hl hu hform s), hcount, hring, ?_, hregs,
      rerr_busAnswer .., haddr.trans (Nat.mod_eq_of_lt addr.isLt), hinfo.trans (by simp [bitIf])⟩
    rw [hframe]
    rfl

end Sys2Proof.Machine
end

section
/-!
SUPPORT. Which counters an operation may advance: events (R593), poisoned words (R499, R507) and faults of the token (R317).
-/
namespace Sys2Proof.Machine

/-- Of the counters, from one state to the other, only the listed ones may differ. -/
structure Counted (l : List (Nat × Nat)) (s t : State) : Prop where
  /-- A counter that is not listed is left alone. -/
  kept : ∀ a i, (∀ e ∈ l, rkey a i ≠ rkey e.1 e.2) → cget a i t = cget a i s

theorem Counted.refl (l : List (Nat × Nat)) (s : State) : Counted l s s := ⟨fun _ _ _ => rfl⟩
theorem Counted.trans {l : List (Nat × Nat)} {s t u : State} (h : Counted l s t) (k : Counted l t u) : Counted l s u :=
  ⟨fun a i ha => (k.kept a i ha).trans (h.kept a i ha)⟩
theorem Counted.of_bus {l : List (Nat × Nat)} {s t : State} (h : t.bus = s.bus) : Counted l s t := ⟨fun a i _ => by
  unfold cget
  rw [h]⟩
theorem Counted.ite {l : List (Nat × Nat)} {c : Prop} [Decidable c] {s t u : State} (ht : Counted l s t) (hu : Counted l s u) :
    Counted l s (if c then t else u) := by
  split
  · exact ht
  · exact hu

theorem count_counted {l : List (Nat × Nat)} {addr inst : Nat} (h : (addr, inst) ∈ l) (n : Nat) (s : State) :
    Counted l s (count addr inst n s) := ⟨fun _ _ ha => by
  have hne := ha (addr, inst) h
  exact cget_count_of_ne hne n s⟩

theorem raiseAt_counted {l : List (Nat × Nat)} (h : (0x10140034, 0) ∈ l) (tick : Bool) (code arg : Nat) (s : State) :
    Counted l s (raiseAt tick code arg s) := ⟨fun _ _ ha => by
  have hne := ha (0x10140034, 0) h
  exact cget_raiseAt hne tick code arg s⟩

theorem raise_counted {l : List (Nat × Nat)} (h : (0x10140034, 0) ∈ l) (code arg : Nat) (s : State) :
    Counted l s (raise code arg s) := raiseAt_counted h ..

theorem Counted.raiseAt {l : List (Nat × Nat)} {s t : State} (h : (0x10140034, 0) ∈ l) (k : Counted l s t) (tick : Bool)
    (code arg : Nat) : Counted l s (raiseAt tick code arg t) := k.trans (raiseAt_counted h tick code arg t)
theorem Counted.logEntry {l : List (Nat × Nat)} {s t : State} (k : Counted l s t) (kind arg : Nat) :
    Counted l s (logEntry kind arg t) := k.trans (.of_bus rfl)

theorem lapseAt_counted {l : List (Nat × Nat)} (h : (0x10140034, 0) ∈ l) (tick : Bool) (s : State) :
    Counted l s (lapseAt tick s) := by
  unfold lapseAt
  refine .ite (.refl ..) (.ite ?_ (.of_bus rfl))
  extract_lets t
  refine .ite (.raiseAt h ?_ ..) (.of_bus rfl)
  exact .of_bus rfl

/-- The counters that an event and a change of the grandmaster may advance. -/
def tokenCounters : List (Nat × Nat) := [(0x10140034, 0), (0x100C0084, 0)]

theorem domSet_counted (l) (k d s) : Counted l s (domSet k d s) := by
  unfold domSet
  exact .ite (.of_bus rfl) (.of_bus rfl)

theorem domGm_counted (k gm s) : Counted tokenCounters s (domGm k gm s) := by
  unfold domGm
  refine .ite (domSet_counted ..) ?_
  refine Counted.trans ?_ (raise_counted (by decide) ..)
  refine Counted.trans ?_ (count_counted (by decide) ..)
  exact (domSet_counted _ _ _ s).trans (.of_bus rfl)

theorem domLead_counted (k s) : Counted tokenCounters s (domLead k s) := by
  unfold domLead
  extract_lets d
  exact Counted.trans (.ite (.refl ..) (domSet_counted ..)) (domGm_counted ..)

theorem domDecide_counted (expired k s) : Counted tokenCounters s (domDecide expired k s) := by
  unfold domDecide
  extract_lets d can
  refine .ite (.refl ..) ?_
  split
  · exact .ite (domLead_counted ..) (domSet_counted ..)
  · exact .ite (domLead_counted ..) ((domSet_counted ..).trans (domGm_counted ..))

theorem Counted.foldl {l : List (Nat × Nat)} {α : Type} {f : State → α → State} (h : ∀ s x, Counted l s (f s x)) (xs : List α)
    (s : State) : Counted l s (xs.foldl f s) := by
  induction xs generalizing s with
  | nil => exact .refl ..
  | cons x xs ih => exact (h s x).trans (ih _)

theorem stopActing_counted (s) : Counted tokenCounters s (stopActing s) := by
  unfold stopActing
  refine Counted.trans ?_ (Counted.foldl (fun t k => ?_) ..)
  · exact .of_bus rfl
  · exact .ite (domDecide_counted ..) (.refl ..)

theorem TwinOnly.counted {l : List (Nat × Nat)} {s t : State} (h : TwinOnly s t) : Counted l s t := by
  obtain ⟨w, rfl⟩ := h
  exact .of_bus rfl

theorem tokenRelease_counted (fault s) : Counted tokenCounters s (tokenRelease fault s) := by
  unfold tokenRelease
  refine .ite (.refl ..) ?_
  refine .raiseAt (by decide) (.logEntry ?_ ..) ..
  refine Counted.trans ?_ (emitByState_only ..).counted
  refine Counted.trans ?_ (controlSend_only ..).counted
  refine Counted.trans ?_ (hbSend_only ..).counted
  exact (stopActing_counted s).trans (.of_bus rfl)

theorem tokenFault_counted (fault s) : Counted tokenCounters s (tokenFault fault s) :=
  .ite (tokenRelease_counted ..) (latentFault_only s).counted

theorem burstCheck_counted (s) : Counted tokenCounters s (burstCheck s) := .ite (tokenFault_counted ..) (.refl ..)

theorem burstCheck_event (s) : TwinEvent s (burstCheck s) := by
  unfold burstCheck
  split
  · exact tokenFault_event ..
  · exact .refl s

/-! ### Poisoned words -/

@[simp] theorem lapseAt_memPoison (tick s) : (lapseAt tick s).grid.memPoison = s.grid.memPoison := by
  unfold lapseAt
  split
  · rfl
  · split
    · extract_lets t
      split
      · rw [raiseAt_grid]
      · rfl
    · rfl

/-- A poisoned word fails the guarantee: of the device it writes the grid's marks and what an event writes. -/
theorem lapseAt_frame (tick s) : lapseAt tick s = { s with
    grid := (lapseAt tick s).grid, ev := (lapseAt tick s).ev, evc := (lapseAt tick s).evc, bus := (lapseAt tick s).bus
    tcm := (lapseAt tick s).tcm } := by
  unfold lapseAt
  split
  · rfl
  · split
    · extract_lets t
      split
      · rw [raiseAt_frame]
      · rfl
    · rfl

/-- An uncorrectable word of an SRAM array is counted, marks the block and is delivered (R507). -/
theorem sramPoison_heard (array word now : Nat) (s : State) :
    let t := sramPoison array word now s
    Counts 0x1012004C 0 1 s t ∧ t.grid.memPoison = true ∧ t.ec = s.ec := by
  refine ⟨?_, ?_, ?_⟩
  · have h : Counted [(0x10140034, 0)] (count 0x1012004C 0 1 s) (sramPoison array word now s) := by
      refine Counted.trans ?_ (raise_counted (by decide) ..)
      refine Counted.trans ?_ (.of_bus (s := setPoison _) rfl)
      refine Counted.trans ?_ (lapseAt_counted (by decide) ..)
      exact .of_bus rfl
    exact (h.kept 0x1012004C 0 (by decide)).trans (cget_count_self ..)
  · exact (congrArg Grid.memPoison (raise_grid ..)).trans (lapseAt_memPoison ..)
  · exact (raise_ec ..).trans (lapse_ec ..)

theorem deliverWord_heard (k : Nat) (y : Bool) (w : Nat) (s : State) :
    let t := deliverWord k y w s
    Counts 0x1012004C 0 1 s t ∧ t.grid.memPoison = true ∧ t.ec = s.ec := by
  unfold deliverWord
  generalize Config.sramArray (2 * k + if y then 1 else 0) = array
  obtain ⟨hc, hp, he⟩ := sramPoison_heard array w s.clk.safe s
  generalize sramPoison array w s.clk.safe s = u at *
  have hcount := burstCheck_counted u
  obtain ⟨_, _, _, _, _, _, hu⟩ := burstCheck_event u
  refine ⟨(hcount.kept 0x1012004C 0 (by decide)).trans hc, ?_, ?_⟩
  · rw [hu]; exact hp
  · rw [hu]; exact he

end Sys2Proof.Machine
end

section
/-!
SUPPORT. Reads that change what they read: RC registers (R17) and the indirect data registers (R104, R299, R601).
-/
namespace Sys2Proof.Machine

/-! ### RC registers -/

/-- Where the RC registers keep their values: in the network's state, in the scheduler's, in a core's, or in the counters. -/
theorem rc_places (a : Nat) : a = 0x100B000C ∨ a = 0x100B0040 ∨ a = 0x100B0048 ∨ a = 0x100B008C ∨ a = 0x1004000C
    ∨ a = 0x10040014 ∨ (isEc a = true ∧ a % 0x400 = 0x18)
    ∨ (a ∉ [0x100B000C, 0x100B0040, 0x100B0048, 0x100B008C, 0x1004000C, 0x10040014] ∧ ¬(isEc a = true ∧ a % 0x400 = 0x18)) := by
  simp only [List.mem_cons, List.not_mem_nil, or_false]
  tauto

/-- A peak of a core. -/
theorem readClear_core {a : Nat} (h : isEc a = true ∧ a % 0x400 = 0x18) (i : Nat) (s : State) :
    readClear a i s = ((coreGet (a / 0x400 % 64) s).peak,
      coreSet (a / 0x400 % 64) { coreGet (a / 0x400 % 64) s with peak := 0 } s) := by
  have hb : a / 65536 = 0x100A := by simpa [isEc] using h.1
  unfold readClear
  rw [if_neg (by simp; omega), if_neg (by omega), if_neg (by omega), if_pos (by simp [h])]

/-- A counter. -/
theorem readClear_counter {a : Nat} (hn : a ∉ [0x100B000C, 0x100B0040, 0x100B0048, 0x100B008C, 0x1004000C, 0x10040014])
    (he : ¬(isEc a = true ∧ a % 0x400 = 0x18)) (i : Nat) (s : State) : readClear a i s = (cget a i s, cset a i 0 s) := by
  simp only [List.mem_cons, List.not_mem_nil, or_false, not_or] at hn
  obtain ⟨h1, h2, h3, h4, h5, h6⟩ := hn
  unfold readClear
  rw [if_neg (by simp [h1, h2, h3, h4]), if_neg h5, if_neg h6, if_neg (by simpa using he)]

/-- A served read of an RC register answers its value and clears it. -/
theorem exec_counterReadClear {m : Nat} {addr : Word} {s : State} (hm : m < 5) (h : Serves m addr.toNat false s)
    (ha : accOf addr.toNat = .rc) : exec (.counterReadClear m addr) s
      = .next (busAnswer m (regNow m addr.toNat s) false
          (readClear addr.toNat (instOf addr.toNat m s) (latchAll m addr.toNat s)).2) := by
  obtain ⟨hl, hu⟩ := accOf_range (a := addr.toNat) (by simp [ha])
  refine withInstance_next.mpr ⟨hm, ?_⟩
  rw [show counterRead m addr.toNat s = busRead m addr.toNat s from if_pos (by simp [ha]), busRead_register h hl hu]
  simp only [regRead, h.2.2, ha, Bool.false_eq_true, if_false, if_true]

theorem coreGet_coreSet_of_ne {j k : Nat} (h : j ≠ k) (e : EcCore) (s : State) : coreGet j (coreSet k e s) = coreGet j s :=
  sget_sset_of_ne _ _ h ..

@[simp] theorem pnGet_pnSet_self (p : Nat) (v : PortNet) (s : State) : pnGet p (pnSet p v s) = v := sget_sset_self ..

@[simp] theorem rxGet_rxSet_self (k : Nat) (v : RxState) (s : State) : rxGet k (rxSet k v s) = v := sget_sset_self ..

/-- The state with other latches. -/
def withLatch (x : Sparse Nat) (s : State) : State := { s with bus := { s.bus with latch := x } }

/-- Settles O8: the cases are the places where RC registers keep their values. -/
theorem counterReadClears : Obligations.CounterReadClears := by
  intro m addr s hm h hacc a i held
  have hexec := exec_counterReadClear hm h hacc
  obtain ⟨x, hx⟩ := latchAll_only m addr.toNat s
  rw [show latchAll m addr.toNat s = withLatch x s from hx] at hexec
  change exec _ s = .next (busAnswer m (regNow m a s) false (readClear a i (withLatch x s)).2) at hexec
  clear_value i
  have hrdata (t : State) := rdata_busAnswer m (regNow m a s) false t
  have hrerr (t : State) := rerr_busAnswer m (regNow m a s) false t
  rcases rc_places a with ha | ha | ha | ha | ha | ha | ha | ⟨hn, he⟩
  case inr.inr.inr.inr.inr.inr.inl =>
    have hb : a / 65536 = 0x100A := by simpa [isEc] using ha.1
    rw [readClear_core ha] at hexec
    refine ⟨_, hexec, rfl, hrdata _, hrerr _, rfl, rfl, ?_, fun _ _ _ => rfl, ?_, fun k => ?_, ?_, ?_, ?_, ?_⟩
    · rw [if_pos (by simp [held, ha])]; rfl
    · rw [if_neg (by omega), if_neg (by omega)]; rfl
    · by_cases hk : k = a / 0x400 % 64
      · subst hk
        rw [if_pos ⟨ha.1, ha.2, rfl⟩]
        exact coreGet_coreSet_self _ _ (withLatch x s)
      · rw [if_neg (fun hc => hk hc.2.2)]
        exact coreGet_coreSet_of_ne hk _ (withLatch x s)
    all_goals rw [if_neg (by omega)]; rfl
  case inr.inr.inr.inr.inr.inr.inr =>
    have hcore (k : Nat) : ¬(isEc a = true ∧ a % 0x400 = 0x18 ∧ k = a / 0x400 % 64) := fun hc => he ⟨hc.1, hc.2.1⟩
    rw [readClear_counter hn he] at hexec
    simp only [List.mem_cons, List.not_mem_nil, or_false, not_or] at hn
    obtain ⟨h1, h2, h3, h4, h5, h6⟩ := hn
    have hheld : held = false := by
      simp only [held, h1, h2, h3, h4, h5, h6, List.contains_eq_mem, List.mem_cons, List.not_mem_nil, or_self, decide_false,
        Bool.or_false]
      simpa using he
    refine ⟨_, hexec, rfl, hrdata _, hrerr _, rfl, rfl, ?held, fun b j hne => ?others, ?sched, fun k => ?core, ?pool, ?rx, ?tx,
      ?margin⟩
    case held => rw [hheld]; exact cget_cset_self a i 0 (withLatch x s)
    case others => exact cget_cset_of_ne hne 0 (withLatch x s)
    case sched => rw [if_neg h5, if_neg h6]; rfl
    case core => rw [if_neg (hcore k)]; rfl
    case pool => rw [if_neg h1]; rfl
    case rx => rw [if_neg h2]; rfl
    case tx => rw [if_neg h3]; rfl
    case margin => rw [if_neg h4]; rfl
  all_goals
    clear_value a
    subst ha
    refine ⟨_, hexec, rfl, hrdata _, hrerr _, rfl, rfl, rfl, fun _ _ _ => rfl, rfl, fun _ => rfl, rfl, ?_⟩
  case inr.inl | inr.inr.inl =>
    refine ⟨(congrArg PortNet.rxOctets (pnGet_pnSet_self i _ (withLatch x s)) :), ?_, rfl⟩
    exact (congrArg PortNet.txOctets (pnGet_pnSet_self i _ (withLatch x s)) :)
  case inr.inr.inr.inl => exact ⟨rfl, rfl, congrArg RxState.margin (rxGet_rxSet_self i _ (withLatch x s))⟩
  all_goals exact ⟨rfl, rfl, rfl⟩

/-! ### Indirect data registers -/

/-- A read of a register that is served by its own row. -/
theorem busRead_of_regRead {m a v : Nat} {s t : State} (h : Serves m a false s) (hl : 0x10000000 ≤ a) (hu : a < 0x10180000)
    (hr : regRead m a s = (v, t)) : busRead m a s = busAnswer m v false t := by
  rw [busRead_register h hl hu, hr]

/-- A word with its low 13 bits counted on by one. -/
theorem low13_next (a : Nat) : (a / 2 ^ 13 * 2 ^ 13 + (a + 1) % 2 ^ 13) % 2 ^ 13 = (a + 1) % 2 ^ 13
    ∧ (a / 2 ^ 13 * 2 ^ 13 + (a + 1) % 2 ^ 13) / 2 ^ 13 = a / 2 ^ 13 := by
  omega

/-- Nothing is delivered where the word carries no mark. -/
theorem deliverMarked_clean {k w : Nat} {y : Bool} {s : State} (h : s.ec.poison.contains (coreKey k y w) = false) :
    deliverMarked k y w 1 s = s := by
  unfold deliverMarked
  split
  · rfl
  · have hw : coreKey k y w ∉ s.ec.poison := by simpa using h
    simp [List.range_succ, hw]

/-- A marked word is delivered once. -/
theorem deliverMarked_marked {k w : Nat} {y : Bool} {s : State} (h : s.ec.poison.contains (coreKey k y w) = true) :
    deliverMarked k y w 1 s = deliverWord k y w s := by
  have hne : s.ec.poison.isEmpty = false := by
    cases hp : s.ec.poison with
    | nil => simp [hp] at h
    | cons => rfl
  have hw : coreKey k y w ∈ s.ec.poison := by simpa using h
  simp [deliverMarked, hne, List.range_succ, hw]

theorem memData_marked {k a : Nat} {s : State} (hb : bits 15 14 a < 2)
    (h : s.ec.poison.contains (coreKey k (decide (bits 15 14 a = 1)) (a % 2 ^ 13)) = true) : memData k a s = 0 := by
  obtain hb | hb : bits 15 14 a = 0 ∨ bits 15 14 a = 1 := by omega
  · rw [hb] at h
    simp only [memData, hb]
    exact if_pos (by simpa using h)
  · rw [hb] at h
    simp only [memData, hb]
    exact if_pos (by simpa using h)

/-- The read of PAN.LAY_DATA moves the master's address on by a word. -/
theorem regRead_layData {m : Nat} {s : State} (hg : gated 0x10060034 m s = false) : regRead m 0x10060034 s
    = (wordIn false (rget 0x10060030 m s) s.img.layout.body, rset 0x10060030 m ((rget 0x10060030 m s + 4) % 2 ^ 17) s) := by
  unfold regRead
  simp only [hg, latchAll_of_not_low (a := 0x10060034) (by decide), show accOf 0x10060034 = .ro by decide, regNow,
    Bool.false_eq_true, if_false, if_true, reduceCtorEq]
  rfl

/-- The read of CTL.SHEET_DATA moves the master's address on by a word. -/
theorem regRead_sheetData {m : Nat} {s : State} (hg : gated 0x10140090 m s = false) : regRead m 0x10140090 s
    = (wordIn true (rget 0x1014008C m s) s.sheet.bytes, rset 0x1014008C m ((rget 0x1014008C m s + 4) % 2 ^ 16) s) := by
  unfold regRead
  simp only [hg, latchAll_of_not_low (a := 0x10140090) (by decide), show accOf 0x10140090 = .ro by decide, regNow,
    Bool.false_eq_true, if_false, if_true, reduceCtorEq]
  rfl

/-- The address of EC.MEM_DATA of a core: a read-only register of the core's page, which latches nothing. -/
theorem ecMemData_register : ∀ k < 64, accOf (ecAddr k 0x44) = .ro ∧ isEc (ecAddr k 0x44) = true ∧ ecAddr k 0x44 % 0x400 = 0x44
    ∧ ecAddr k 0x44 / 0x400 % 64 = k ∧ ecAddr k 0x44 - 4 = ecAddr k 0x40 ∧ ecAddr k 0x44 ∉ lowWords := by decide +kernel

/-- The state after EC.MEM_DATA has delivered the word at its address. -/
def memDelivered (k a : Nat) (s : State) : State :=
  if bits 15 14 a < 2 then deliverMarked k (decide (bits 15 14 a = 1)) (a % 2 ^ 13) 1 s else s

/-- The read of EC.MEM_DATA delivers the word and moves the master's address on within its memory. -/
theorem regRead_memData {m k : Nat} {s : State} (hk : k < 64) (hg : gated (ecAddr k 0x44) m s = false) :
    let a := rget (ecAddr k 0x40) m s
    regRead m (ecAddr k 0x44) s
      = (memData k a s, rset (ecAddr k 0x40) m (a / 2 ^ 13 * 2 ^ 13 + (a + 1) % 2 ^ 13) (memDelivered k a s)) := by
  obtain ⟨hacc, hec, hoff, hcore, hsub, hlow⟩ := ecMemData_register k hk
  have hb : ecAddr k 0x44 / 65536 = 0x100A := by simpa [isEc] using hec
  have hne (b : Nat) (hb' : b / 65536 ≠ 0x100A) : ecAddr k 0x44 ≠ b := fun h => hb' (h ▸ hb)
  unfold regRead
  simp only [hg, latchAll_of_not_low hlow, hacc, hec, hoff, hcore, hsub, regNow, stateReg, hb, hne 0x10060034 (by decide),
    hne 0x10140090 (by decide), hne 0x10130044 (by decide), Bool.false_eq_true, if_false, if_true, decide_true, Bool.and_self,
    reduceCtorEq]
  rfl

/-- A row of an indirect data register is the register's read, answered. -/
theorem exec_memDataRead {m k : Nat} {s : State} (hm : m < 5) (hk : k < 64) (h : Serves m (ecAddr k 0x44) false s) :
    let a := rget (ecAddr k 0x40) m s
    exec (.memDataRead m k) s = .next (busAnswer m (memData k a s) false
      (rset (ecAddr k 0x40) m (a / 2 ^ 13 * 2 ^ 13 + (a + 1) % 2 ^ 13) (memDelivered k a s))) := by
  refine withInstances_next.mpr ⟨by simp [hm, hk], ?_⟩
  rw [busRead_of_regRead h (by unfold ecAddr; omega) (by unfold ecAddr; omega) (regRead_memData hk h.2.2)]

/-- Nothing is delivered where no word at the address carries a mark. -/
theorem memDelivered_clean {k a : Nat} {s : State} (h : ∀ y, s.ec.poison.contains (coreKey k y (a % 2 ^ 13)) = false) :
    memDelivered k a s = s := by
  unfold memDelivered
  split
  · exact deliverMarked_clean (h _)
  · rfl

theorem memDelivered_marked {k a : Nat} {s : State} (hb : bits 15 14 a < 2)
    (h : s.ec.poison.contains (coreKey k (decide (bits 15 14 a = 1)) (a % 2 ^ 13)) = true) :
    memDelivered k a s = deliverWord k (decide (bits 15 14 a = 1)) (a % 2 ^ 13) s :=
  (if_pos hb).trans (deliverMarked_marked h)

/-- Settles O13: each row is the read of its register; a marked word of a core is delivered as an uncorrectable error. -/
theorem indirectReads : Obligations.IndirectReads := by
  intro m s hm
  refine ⟨fun h => ⟨_, withInstance_next.mpr ⟨hm, (busRead_of_regRead h (by decide) (by decide) (regRead_layData h.2.2)).symm⟩,
      rfl, rdata_busAnswer .., rget_rset_self .., rfl⟩,
    fun h => ⟨_, withInstance_next.mpr ⟨hm, (busRead_of_regRead h (by decide) (by decide) (regRead_sheetData h.2.2)).symm⟩,
      rfl, rdata_busAnswer .., rget_rset_self .., rfl⟩, fun k hk h hclean => ?_, fun k hk h => ?_⟩
  · have hexec := exec_memDataRead hm hk h
    simp only [memDelivered_clean hclean] at hexec
    have hnow (v w : Nat) (t : State) : rget (ecAddr k 0x40) m (busAnswer m v false (rset (ecAddr k 0x40) m w t)) = w :=
      rget_rset_self ..
    refine ⟨_, hexec, rfl, rdata_busAnswer .., ?_, ?_, rfl⟩
    · rw [hnow]; exact (low13_next _).1
    · rw [hnow]; exact (low13_next _).2
  · intro a hb hmark
    have hexec := exec_memDataRead hm hk h
    simp only [] at hexec
    rw [memDelivered_marked hb hmark, memData_marked hb hmark] at hexec
    obtain ⟨hc, hp, he⟩ := deliverWord_heard k (decide (bits 15 14 a = 1)) (a % 2 ^ 13) s
    exact ⟨_, hexec, rdata_busAnswer .., hc, hp, he⟩

end Sys2Proof.Machine
end

section
/-!
SUPPORT. Resets, the reference, the trim, the domains and the boot ledger (chapter 15).
-/
namespace Sys2Proof.Machine

/-! ### Resets -/

/-- Outside a reset, a trigger resets the device (R542). -/
theorem resetDevice_resetOf {s : State} (h : s.clk.inReset = false) (causes : Nat) : ResetOf causes s (resetDevice causes s) := by
  unfold resetDevice
  rw [if_neg (by simp [h])]
  exact ⟨rfl, rfl⟩

theorem resetDevice_inReset (causes : Nat) (s : State) : (resetDevice causes s).clk.inReset = true := by
  unfold resetDevice
  rcases h : s.clk.inReset with _ | _
  · rw [if_neg (by simp [h])]; rfl
  · rw [if_pos h]; exact h

/-- What the token's release writes is not what a reset leaves. -/
theorem resetOf_of_event {causes : Nat} {s u t : State} (h : TwinEvent s u) (hr : ResetOf causes u t) : ResetOf causes s t := by
  obtain ⟨_, _, _, _, _, _, rfl⟩ := h
  exact hr

/-- An acting unit releases the token before the device resets (R545, R546). -/
theorem released_resetOf {s : State} (h : s.clk.inReset = false) (causes fault : Nat) :
    ResetOf causes s (resetDevice causes (tokenRelease fault s)) := by
  have hr := tokenRelease_event fault s
  refine resetOf_of_event hr (resetDevice_resetOf ?_ _)
  obtain ⟨_, _, _, _, _, _, e⟩ := hr
  rw [e]
  exact h

/-- A level of a ball and a thermal hold are no part of what a reset fixes. -/
theorem ResetOf.with_clk {causes : Nat} {s t : State} (h : ResetOf causes s t) (rn hh : Bool) :
    ResetOf causes s { t with clk := { t.clk with resetN := rn, hotHold := hh } } := by
  obtain ⟨ht, hc⟩ := h
  constructor
  · rw [ht]; rfl
  · rw [hc]

/-- Settles O14: a trigger outside a reset resets the device, after the token's release where the row names one. -/
theorem resets : Obligations.Resets := by
  intro s
  refine ⟨fun h => ⟨⟨_, rfl, (resetDevice_resetOf h 2).with_clk false _, rfl, resetDevice_inReset ..⟩,
    ⟨_, rfl, released_resetOf (s := setSafe _ s) h 4 2, resetDevice_inReset ..⟩, fun at_ hat => ?fault,
    ⟨_, rfl, (released_resetOf h 16 3).with_clk _ true, resetDevice_inReset .., rfl⟩, fun hs => ?soft⟩, fun h => ?joins, fun h => ?none⟩
  case fault =>
    refine ⟨_, rfl, ?_⟩
    unfold clockFaultReset
    rw [hat]
    exact ⟨resetDevice_resetOf (s := setSafe _ s) h 8, resetDevice_inReset ..⟩
  case soft =>
    have e : busWrite 0 0x1002001C 1 s = resetDevice 32 (answered 0 s) := busWrite_wo hs (by decide) (by decide)
    refine ⟨_, rfl, ?_⟩
    rw [e]
    exact ⟨resetDevice_resetOf (s := answered 0 s) h 32, resetDevice_inReset ..⟩
  case joins =>
    show Host.Outcome.next (resetNLow s) = _
    unfold resetNLow resetDevice
    rw [if_pos h]
  case none =>
    show Host.Outcome.next (clockFaultReset s) = _
    unfold clockFaultReset
    rw [h]

/-! ### Power-on and the release of reset -/

theorem nextFree_only (s : State) : ∃ n, (nextFree s).2 = { s with free := n } := ⟨_, rfl⟩

/-- A reset leaves the flash (R542). -/
theorem resetDevice_flash (causes : Nat) (s : State) : (resetDevice causes s).nvm.flash = s.nvm.flash := by
  unfold resetDevice
  rcases h : s.clk.inReset with _ | _
  · rw [if_neg (by simp [h])]; rfl
  · rw [if_pos h]

/-- The state of a device held in reset by PGOOD, before the ball's level is noted. -/
def pgoodReset (s : State) : State :=
  if s.clk.inReset then s else resetDevice ((nextFree s).1 % 64) (nextFree s).2

theorem pgoodChange_low (s : State) : pgoodChange false s
    = { pgoodReset s with clk := { (pgoodReset s).clk with pgood := false } } := rfl

theorem pgoodReset_holds (s : State) : (pgoodReset s).clk.inReset = true ∧ (pgoodReset s).nvm.flash = s.nvm.flash := by
  unfold pgoodReset
  split
  · exact ⟨by assumption, rfl⟩
  · exact ⟨resetDevice_inReset .., resetDevice_flash ..⟩

/-- Settles O15. -/
theorem powerAndRelease : Obligations.PowerAndRelease := by
  intro s
  refine ⟨⟨_, rfl, rfl, rfl, rfl, rfl, rfl, rfl, rfl⟩, ⟨_, rfl, ?low⟩, fun h => ?rise, fun h => ?high,
    fun home test safe hr hp hh => ⟨_, rfl, ?release⟩, fun home test safe hh => ?held⟩
  case low => exact ⟨rfl, pgoodReset_holds s⟩
  case rise => exact congrArg Host.Outcome.next ((if_pos rfl).trans (if_neg (by simp [h])))
  case high => exact congrArg Host.Outcome.next ((if_pos rfl).trans (if_pos h))
  case release =>
    have hn : ¬((!s.clk.inReset || !s.clk.pgood || s.clk.hotHold) = true) := by simp [hr, hp, hh]
    unfold resetRelease
    rw [if_neg hn]
    refine ⟨rfl, rfl, rfl, rfl, rfl, rfl, ?_, ?_⟩
    · exact (Nat.lt_add_right _ Nat.one_pos).ne'
    · have := Nat.mod_lt (Config.sessionDraw s.tcm.draws) (show 0 < 2 ^ 32 - 1 by decide)
      exact Nat.add_lt_of_lt_sub' this
  case held => exact congrArg Host.Outcome.next (if_pos (by simp [hh]))

/-! ### Heat and the watchdog -/

/-- The state that knows a junction temperature. -/
def warmed (temp : Int) (s : State) : State := { s with clk := { s.clk with
  temp := temp, warn := decide (400 ≤ temp) || (s.clk.warn && decide (388 ≤ temp)) } }

theorem thermal_quiet {temp : Int} {s : State} (h : ¬(400 ≤ temp ∧ s.clk.warn = false)) : thermal temp s = warmed temp s :=
  if_neg (by simpa using h)

theorem thermal_warns {temp : Int} {s : State} (h : 400 ≤ temp ∧ s.clk.warn = false) :
    thermal temp s = raise 0x84 0 (warmed temp s) :=
  if_pos (by simpa using h)

/-- Settles O16: the junction warms through 100 °C where the warning was clear. -/
theorem watchdogAndHeat : Obligations.WatchdogAndHeat := by
  intro s
  refine ⟨fun temp => ⟨_, rfl, ?_⟩, rfl, fun h => congrArg Host.Outcome.next (busWrite_wo h (by decide) (by decide)),
    fun h => if_neg (by simp [h]), fun h => if_pos h⟩
  by_cases hw : 400 ≤ temp ∧ s.clk.warn = false
  · rw [thermal_warns hw, if_pos hw, if_pos hw]
    refine ⟨raise_clk .., ?_, raise_eseq .., raise_pend ..⟩
    rw [raise_clk]
    exact raise_frame 0x84 0 (warmed temp s)
  · rw [thermal_quiet hw, if_neg hw, if_neg hw]
    exact ⟨rfl, rfl, rfl, rfl⟩

end Sys2Proof.Machine
end

section
/-!
SUPPORT. The reference's windows, the trim and the switching of domains (chapter 15).
-/
namespace Sys2Proof.Machine

/-! ### Domains -/

/-- Of the device, only its domains differ. -/
def DomOnly (s t : State) : Prop := ∃ d, t = { s with clk := { s.clk with dom := d } }

theorem DomOnly.refl (s : State) : DomOnly s s := ⟨_, rfl⟩

theorem DomOnly.trans {s t u : State} (h : DomOnly s t) (k : DomOnly t u) : DomOnly s u := by
  obtain ⟨_, rfl⟩ := h
  obtain ⟨_, rfl⟩ := k
  exact ⟨_, rfl⟩

theorem DomOnly.foldl {f : State → Nat → State} (h : ∀ s k, DomOnly s (f s k)) (l : List Nat) (s : State) :
    DomOnly s (l.foldl f s) := by
  induction l generalizing s with
  | nil => exact .refl s
  | cons k l ih => exact (h s k).trans (ih _)

theorem domainSet_only (k : Nat) (d : Dom) (s : State) : DomOnly s (domainSet k d s) := ⟨_, rfl⟩

@[simp] theorem domainGet_domainSet_self (k : Nat) (d : Dom) (s : State) : domainGet k (domainSet k d s) = d := sget_sset_self ..

theorem domainGet_domainSet_of_ne {j k : Nat} (h : j ≠ k) (d : Dom) (s : State) :
    domainGet j (domainSet k d s) = domainGet j s := sget_sset_of_ne _ _ h ..

theorem ctrlToSafe_only (s : State) : DomOnly s (ctrlToSafe s) := by
  unfold ctrlToSafe
  dsimp only
  split
  · exact .refl s
  · exact domainSet_only ..

theorem startDomain_only (k : Nat) (s : State) : DomOnly s (startDomain k s) := by
  unfold startDomain
  dsimp only
  split
  · exact domainSet_only ..
  · exact .refl s

/-- A domain that stood still runs on its PLL (R517). -/
theorem domainGet_startDomain_self (k : Nat) (s : State) : domainGet k (startDomain k s)
    = if (domainGet k s).src = 2 then { domainGet k s with src := 1, div := 0 } else domainGet k s := by
  unfold startDomain
  dsimp only
  split
  · exact domainGet_domainSet_self ..
  · rfl

theorem domainGet_startDomain_of_ne {j k : Nat} (h : j ≠ k) (s : State) : domainGet j (startDomain k s) = domainGet j s := by
  unfold startDomain
  dsimp only
  split
  · exact domainGet_domainSet_of_ne h ..
  · rfl

/-! ### The reference -/

/-- A clock fault counted, whose time is the first fault's. -/
def faultNoted (s : State) : State :=
  count 0x10010064 0 1 { s with clk := { s.clk with faultAt := s.clk.faultAt.or (some s.clk.safe) } }

/-- A clock fault logged, where its event's actions do not log it. -/
def faultLogged (code : Nat) (s : State) : State :=
  if bit 0 (sget 0 code s.ev.actions) then s else logEntry (0x0100 + code) 0 s

/-- The token released by a fault of the audio clocks. -/
def faultReleased (audio : Bool) (s : State) : State := if audio then tokenFault 1 s else s

theorem clockFault_eq (code : Nat) (ctrl audio : Bool) (s : State) : clockFault code ctrl audio s
    = if ctrl then ctrlToSafe (faultReleased audio (faultLogged code (faultNoted s)))
      else faultReleased audio (faultLogged code (faultNoted s)) := rfl

/-- A clock fault leaves the clocks' state but for the time of the first fault and a switch of CTRL. -/
theorem clockFault_clk (code : Nat) (ctrl audio : Bool) (s : State) : ∃ d, (clockFault code ctrl audio s).clk
    = { s.clk with faultAt := s.clk.faultAt.or (some s.clk.safe), dom := d } := by
  have hlog (u : State) : (faultLogged code u).clk = u.clk := by unfold faultLogged; split <;> rfl
  have hrel (u : State) : (faultReleased audio u).clk = u.clk := by
    unfold faultReleased
    split
    · obtain ⟨_, _, _, _, _, _, e⟩ := tokenFault_event 1 u
      rw [e]
    · rfl
  rw [clockFault_eq]
  split
  · obtain ⟨d, h⟩ := ctrlToSafe_only (faultReleased audio (faultLogged code (faultNoted s)))
    exact ⟨d, by rw [h, hrel, hlog]; rfl⟩
  · exact ⟨s.clk.dom, by rw [hrel, hlog]; rfl⟩

/-- A loss of the reference (R524). -/
theorem refLost_clk (s : State) : let t := refLost s
    t.clk.refCount = s.clk.refCount ∧ t.clk.refOk = false ∧ t.clk.refLoss = true ∧ t.clk.faultAt.isSome := by
  intro t
  obtain ⟨d, h⟩ := clockFault_clk 0x81 true true
    (raise 0x81 0 { s with clk := { s.clk with refOk := false, refRun := 0, refBad := 0, refLoss := true } })
  have ht : t.clk = _ := h
  rw [ht, raise_clk]
  refine ⟨rfl, rfl, rfl, ?_⟩
  cases s.clk.faultAt <;> rfl

/-- The window's count is noted. -/
def counted (ref : Nat) (s : State) : State := { s with clk := { s.clk with refCount := ref % 65536 } }

/-- The output cycles of the domains, one after another. -/
def domFreqs (doms : List Nat) (s : State) : State :=
  (List.range 7).foldl (fun s k =>
    let d := domainGet k s
    domainSet k { d with freq := if d.src = 2 then 0 else nth 0 doms k % 2 ^ 22 } s) s

theorem domFreqs_only (doms : List Nat) (s : State) : DomOnly s (domFreqs doms s) :=
  DomOnly.foldl (fun _ _ => domainSet_only ..) _ s

/-- The window passes. -/
def refPass (ref : Nat) : Bool := decide (24500 ≤ ref) && decide (ref ≤ 25500)

/-- The state with the reference qualified. -/
def refQualified (s : State) : State := { s with clk := { s.clk with refOk := true, refRun := 8, refBad := 0 } }

/-- A window before the reference is qualified (R523). -/
theorem refWindow_before {s : State} (hr : s.clk.inReset = false) (ho : s.clk.refOk = false) (ref : Nat) (doms : List Nat) :
    refWindow ref doms s =
      let run := if refPass ref then s.clk.refRun + 1 else 0
      if 8 ≤ run then
        if s.clk.step = 2 then programFixed { refQualified (counted ref s) with clk := { (refQualified (counted ref s)).clk with step := 3 } }
        else refQualified (counted ref s)
      else { counted ref s with clk := { (counted ref s).clk with refRun := run } } := by
  unfold refWindow
  rw [if_neg (by simp [hr])]
  exact if_pos (by simp [ho])

/-- A window of the qualified reference (R524). -/
theorem refWindow_after {s : State} (hr : s.clk.inReset = false) (ho : s.clk.refOk = true) (ref : Nat) (doms : List Nat) :
    refWindow ref doms s =
      let u := domFreqs doms (counted ref s)
      if refPass ref then { u with clk := { u.clk with refBad := 0 } }
      else if s.clk.refBad = 0 then { u with clk := { u.clk with refBad := 1 } } else refLost u := by
  unfold refWindow
  rw [if_neg (by simp [hr])]
  exact if_neg (by simp [ho])

/-- A programmed PLL is enabled (R519). -/
theorem programPll_enabled {p n f d : Nat} {s : State} (hp : p < 6) (h : bit 31 (n + (d % 64) * 256 + 2 ^ 31) = true) {q : Nat}
    (hq : q < 6) : bit 31 (rget 0x10010014 q (programPll p n f d s)) = (decide (q = p) || bit 31 (rget 0x10010014 q s)) := by
  unfold programPll
  rw [rget_rset_of_ne (by unfold rkey; omega)]
  by_cases e : q = p
  · subst e; rw [rget_rset_self, h]; simp
  · rw [rget_rset_of_ne (by unfold rkey; omega)]; simp [e]

/-- Step 3 begins with the five fixed PLLs enabled (R520). -/
theorem programFixed_enabled {p : Nat} (hp : p < 5) (s : State) : bit 31 (rget 0x10010014 p (programFixed s)) = true := by
  unfold programFixed
  have hq : p < 6 := by omega
  rw [programPll_enabled (by decide) (by decide) hq, programPll_enabled (by decide) (by decide) hq,
    programPll_enabled (by decide) (by decide) hq, programPll_enabled (by decide) (by decide) hq,
    programPll_enabled (by decide) (by decide) hq]
  have : p = 0 ∨ p = 1 ∨ p = 2 ∨ p = 3 ∨ p = 4 := by omega
  simp only [Bool.or_eq_true, decide_eq_true_eq]
  tauto

theorem refPass_iff (ref : Nat) : refPass ref = true ↔ 24500 ≤ ref ∧ ref ≤ 25500 := by simp [refPass]

/-- Settles O17: before the reference is qualified and after it. -/
theorem referenceWindows : Obligations.ReferenceWindows := by
  intro ref doms s hr pass
  have hpending : (refWindow ref doms s).pending = s.pending := exec_pending (c := .refWindowEnd ref doms) rfl
  have hpass : refPass ref = true ↔ pass := refPass_iff ref
  clear_value pass
  cases ho : s.clk.refOk
  case false =>
    have e := refWindow_before hr ho ref doms
    refine ⟨_, rfl, ?count, hpending, fun _ => ⟨fun hn => ?fails, fun hp hrun => ?runs, fun hp hrun => ?qualifies⟩,
      fun h => absurd h (by simp)⟩
    case count =>
      rw [e]
      extract_lets run
      split
      · split <;> rfl
      · rfl
    case fails =>
      rw [e]
      simp only [hpass, hn, if_false]
      rfl
    case runs =>
      rw [e]
      simp only [hpass, hp, if_true]
      exact if_neg (by omega)
    case qualifies =>
      rw [e]
      simp only [hpass, hp, if_true, hrun]
      split
      · exact ⟨rfl, rfl, fun _ _ hq => programFixed_enabled hq _⟩
      · exact ⟨rfl, rfl, fun h => absurd h (by assumption)⟩
  case true =>
    have e := refWindow_after hr ho ref doms
    have hclk : ∃ d, (domFreqs doms (counted ref s)).clk = { (counted ref s).clk with dom := d } := by
      obtain ⟨d, hd⟩ := domFreqs_only doms (counted ref s)
      exact ⟨d, by rw [hd]⟩
    obtain ⟨d, hd⟩ := hclk
    generalize domFreqs doms (counted ref s) = u at e hd
    dsimp only at e
    refine ⟨_, rfl, ?count, hpending, fun h => absurd h (by simp), fun _ => ⟨fun hp => ?passes, fun hn hb => ?first, fun hn hb => ?lost⟩⟩
    case count =>
      rw [e]
      split
      · rw [hd]; rfl
      · split
        · rw [hd]; rfl
        · rw [(refLost_clk u).1, hd]; rfl
    case passes => rw [e, if_pos (hpass.mpr hp), hd]; exact ⟨ho, rfl⟩
    case first => rw [e, if_neg (hn ∘ hpass.mp), if_pos hb, hd]; exact ⟨ho, rfl⟩
    case lost =>
      rw [e, if_neg (hn ∘ hpass.mp), if_neg hb]
      exact (refLost_clk u).2

end Sys2Proof.Machine
end

section
/-!
SUPPORT. The windows of the trim and the switching of domains (chapter 15).
-/
namespace Sys2Proof.Machine

/-! ### The trim -/

/-- What a trim window notes: its source and its error. -/
def trimNoted (counted : Nat) (s : State) : State :=
  { s with clk := { s.clk with trimSrc := 0, trimErr := satBits 32 (rhu (((counted : Int) - 32000000) * 10 ^ 6) 32000000) } }

/-- By how much a good window moves the code (R527). -/
def trimStep (d : Int) (done : Bool) : Int :=
  if done then (if 75 * 32000000 < (d.natAbs : Int) * 10 ^ 6 then (if 0 < d then -1 else 1) else 0)
  else -(rhu (d * 10 ^ 4) 32000000)

/-- A code set by the trim. -/
def trimmed (code : Nat) (s : State) : State := { s with clk := { s.clk with trimDone := true, trim := code } }

theorem trimSource_ref {s : State} (h : s.clk.trimSrcCfg = 0) : trimSource s = 0 := by
  unfold trimSource
  rw [h]
  rfl

/-- A window more than 2 % off. -/
theorem trimWindow_discards {counted : Nat} {s : State} (ho : s.clk.refOk = true) (hc : s.clk.trimSrcCfg = 0)
    (h : 32000000 < 50 * ((counted : Int) - 32000000).natAbs) :
    trimWindow counted s = count 0x10010068 0 1 (trimNoted counted s) := by
  unfold trimWindow
  rw [trimSource_ref hc, if_neg (by simp [ho])]
  exact if_pos (by simp only [if_true]; omega)

/-- A good window whose code stays within its ten bits. -/
theorem trimWindow_moves {counted : Nat} {s : State} (ho : s.clk.refOk = true) (hc : s.clk.trimSrcCfg = 0)
    (h : ¬32000000 < 50 * ((counted : Int) - 32000000).natAbs)
    (hl : 0 ≤ (s.clk.trim : Int) + trimStep ((counted : Int) - 32000000) s.clk.trimDone) (hu : (s.clk.trim : Int) + trimStep ((counted : Int) - 32000000) s.clk.trimDone < 1024) :
    trimWindow counted s
      = trimmed ((s.clk.trim : Int) + trimStep ((counted : Int) - 32000000) s.clk.trimDone).toNat (trimNoted counted s) := by
  unfold trimWindow
  rw [trimSource_ref hc, if_neg (by simp [ho])]
  refine (if_neg (by simp only [if_true]; omega)).trans ?_
  exact if_pos ⟨hl, hu⟩

/-- Settles O18. -/
theorem trimWindows : Obligations.TrimWindows := by
  intro counted s ho hc ht d
  refine ⟨fun h => ⟨_, rfl, ?_⟩, fun h hd hl hu => ⟨_, rfl, ?_⟩, fun h hd hl hu => ⟨_, rfl, ?_⟩⟩
  · rw [trimWindow_discards ho hc h]
    exact ⟨rfl, rfl, cget_count_self ..⟩
  · have hs : trimStep ((counted : Int) - 32000000) s.clk.trimDone = -(rhu (d * 10 ^ 4) 32000000) := by rw [hd]; rfl
    rw [trimWindow_moves ho hc h (by rw [hs]; omega) (by rw [hs]; omega), hs]
    exact ⟨rfl, (Int.toNat_of_nonneg (by omega)).trans (by omega), rfl⟩
  · have hs : trimStep ((counted : Int) - 32000000) s.clk.trimDone
        = if 75 * 32000000 < (d.natAbs : Int) * 10 ^ 6 then (if 0 < d then -1 else 1) else 0 := by rw [hd, trimStep, if_pos rfl]
    have hb : -1 ≤ trimStep ((counted : Int) - 32000000) s.clk.trimDone ∧ trimStep ((counted : Int) - 32000000) s.clk.trimDone ≤ 1 := by
      rw [hs]
      split
      · split <;> decide
      · decide
    rw [trimWindow_moves ho hc h (by omega) (by omega)]
    exact ⟨rfl, rfl, (Int.toNat_of_nonneg (by omega)).trans (by rw [hs])⟩

/-! ### Switching a domain -/

/-- The state after a GO (R528, R530), the control word stored. -/
def switchAsked (k src : Nat) (s : State) : State :=
  let d := domainGet k s
  if goRefusal k src s ≠ 0 then domainSet k { d with result := goRefusal k src s } s
  else domainSet k { d with dest := some src, moved := false, result := 0, forced := false } s

theorem domCtrlWrite_go {src : Nat} (h : src < 4) (k : Nat) (s : State) :
    domCtrlWrite k (src + 4) s = switchAsked k src (rset 0x10010024 k src s) := by
  unfold domCtrlWrite
  have hm : (src + 4) % 4 = src := by omega
  have hb : bit 2 (src + 4) = true := by
    obtain rfl | rfl | rfl | rfl : src = 0 ∨ src = 1 ∨ src = 2 ∨ src = 3 := by omega
    all_goals decide
  simp only [hm, hb, Bool.not_true, Bool.false_eq_true, if_false]
  rfl

/-- A word of CLK.DOM_CTRL has no reserved bit in its three low ones. -/
theorem and_domCtrlMask : ∀ src < 4, (src + 4) &&& rwMask 0x10010024 = src + 4 := by decide

/-- DOM_SWITCH_GO is the write of the control word. -/
theorem busWrite_domSwitch {src : Nat} {s : State} (h : src < 4) (hs : Serves 0 0x10010024 true s) :
    busWrite 0 0x10010024 (src % 4 + 4) s
      = switchAsked (rget 0x10010020 0 s) src (rset 0x10010024 (rget 0x10010020 0 s) src (answered 0 s)) := by
  have hv : (BitVec.ofNat 32 (src + 4)).toNat = src + 4 := by
    rw [BitVec.toNat_ofNat]
    omega
  rw [Nat.mod_eq_of_lt h, ← hv, busWrite_rw hs (by decide), hv]
  have e : rwWrite 0 0x10010024 (instOf 0x10010024 0 s) (src + 4) (answered 0 s)
      = domCtrlWrite (rget 0x10010020 0 s) ((src + 4) &&& rwMask 0x10010024) (answered 0 s) := rfl
  rw [e, and_domCtrlMask src h, domCtrlWrite_go h]

/-- A request writes the selected domain alone, and its own word. -/
theorem switchAsked_eq (k src : Nat) (s : State) : switchAsked k src s = domainSet k (if goRefusal k src s ≠ 0
    then { domainGet k s with result := goRefusal k src s }
    else { domainGet k s with dest := some src, moved := false, result := 0, forced := false }) s := by
  unfold switchAsked
  dsimp only
  split <;> rfl

/-- Settles O20. -/
theorem domainSwitchRequests : Obligations.DomainSwitchRequests := by
  intro src s h hs k d
  have e : exec (.domSwitchGo src) s = .next (switchAsked k src (rset 0x10010024 k src (answered 0 s))) :=
    congrArg Host.Outcome.next (busWrite_domSwitch h hs)
  rw [switchAsked_eq] at e
  refine ⟨_, e, fun j hj => domainGet_domainSet_of_ne hj .., rfl, rfl, domainGet_domainSet_self .., fun hd => if_pos hd,
    fun hd hsrc => ?stands, fun hd hsrc hk => ?fixed, fun hd hsrc hl hu hr => ?accepted⟩
  all_goals
    unfold goRefusal
    refine (if_neg (by simp [d] at hd; simp [hd])).trans ?_
  case stands => exact if_pos (by simpa using hsrc)
  case fixed =>
    refine (if_neg (by simp [hsrc])).trans (if_pos ?_)
    rcases hk with hk | hk | hk <;> simp [hk]
  case accepted =>
    refine (if_neg (by simp [hsrc])).trans (if_neg ?_)
    simp only [hr, hsrc, Bool.or_eq_true, decide_eq_true_eq, Bool.false_eq_true, or_false]
    omega

/-- A step of a domain that is being switched to a source. -/
theorem dividerStep_of_dest {k src : Nat} {s : State} (h : (domainGet k s).dest = some src) (edge : Bool) :
    dividerStep k edge s = let d := domainGet k s
      if !d.moved then
        if d.src ≠ 2 && edge && decide (d.div < 4) then domainSet k { d with div := d.div + 1 } s
        else
          let s := domainSet k { d with src := src, moved := true, div := 4, forced := !edge } s
          if edge then s
          else raise 0x83 0 (count 0x10010060 0 1 { s with clk := { s.clk with switchForced := true } })
      else if d.div ≤ 1 then domainSet k { d with div := 0, dest := none, moved := false } s
      else domainSet k { d with div := d.div - 1 } s := by
  unfold dividerStep
  generalize domainGet k s = d at h
  obtain ⟨_, _, _, _, _, _, _⟩ := d
  cases h
  rfl

/-- Settles O21: the cases are the divider's way down, the change of source and the way back. -/
theorem dividerSteps : Obligations.DividerSteps := by
  intro k edge src s hk hd d
  have hx : exec (.dividerStep k edge) s = .next (dividerStep k edge s) := withInstance_next.mpr ⟨hk, rfl⟩
  rw [dividerStep_of_dest hd] at hx
  have hdd : domainGet k s = d := rfl
  dsimp only at hx
  rw [hdd] at hx
  clear_value d
  refine ⟨fun hm he hsrc hdiv => ?down, fun hm he hor => ?change, fun hm he => ?forced, fun hm hdiv => ?up, fun hm hdiv => ?ends⟩
  case down =>
    rw [if_pos (by simp [hm]), if_pos (by simp [hsrc, he, hdiv])] at hx
    exact ⟨_, hx, domainGet_domainSet_self .., rfl⟩
  case change =>
    rw [if_pos (by simp [hm]), if_neg (by simp only [he]; rcases hor with h | h <;> simp [h])] at hx
    simp only [he, if_true, Bool.not_true] at hx
    rw [he]
    exact ⟨_, hx, domainGet_domainSet_self .., rfl⟩
  case forced =>
    rw [if_pos (by simp [hm]), if_neg (by simp [he])] at hx
    simp only [he, Bool.false_eq_true, if_false, Bool.not_false] at hx
    rw [he]
    refine ⟨_, hx, ?_, ?_, ?_, raise_eseq ..⟩
    · unfold domainGet
      rw [raise_clk]
      exact domainGet_domainSet_self k _ s
    · rw [raise_clk]
      rfl
    · exact (cget_raiseAt (by decide) ..).trans (cget_count_self ..)
  case up =>
    rw [if_neg (by simp [hm]), if_neg (by omega)] at hx
    exact ⟨_, hx, domainGet_domainSet_self .., rfl⟩
  case ends =>
    rw [if_neg (by simp [hm]), if_pos hdiv] at hx
    exact ⟨_, hx, domainGet_domainSet_self .., rfl⟩

end Sys2Proof.Machine
end

section
/-!
SUPPORT. The boot ledger (chapter 15).
-/
namespace Sys2Proof.Machine

/-- The ledger is at a step and goes on. -/
def Booting (n : Nat) (s : State) : Prop :=
  s.clk.inReset = false ∧ s.clk.testMode = false ∧ s.nvm.recovery = false ∧ s.clk.step = n

/-- The ledger at another step. -/
def atStep (n : Nat) (s : State) : State := { s with clk := { s.clk with step := n } }

/-- What ends each step of the ledger (R547). -/
def bootRow (log2 : Nat) (s : State) : Nat → State
  | 1 => atStep 2 s
  | 2 => if s.clk.refOk then programFixed (atStep 3 s) else s
  | 3 => if (List.range 5).all (fun p => (pllGet p s).locked) && decide ((domainGet 1 s).src = 1) then
      atStep 4 (startDomain 5 (startDomain 4 (startDomain 3 s)))
    else s
  | 4 => if islandCount s = 16 then atStep 5 s else s
  | 5 => atStep 6 { s with mem := { s.mem with sram := [] } }
  | 6 => step6 log2 s
  | 7 => if s.mem.ch0.trained && s.mem.ch1.trained && (pllGet 5 s).locked then earlyStart (atStep 8 (startDomain 6 s)) else s
  | 8 => if s.nvm.applied then atStep 9 s else s
  | 9 => if s.time.lock || lockNow s (selectDomain s) then handshakeStart (atStep 10 s) else s
  | 10 => if s.twin.starting then s else atStep 11 s
  | _ => s

@[simp] theorem domainGet_atStep (k n : Nat) (s : State) : domainGet k (atStep n s) = domainGet k s := rfl

theorem bootStepEnd_eq {n log2 : Nat} {s : State} (h : Booting n s) : bootStepEnd log2 s = bootRow log2 s n := by
  obtain ⟨hr, ht, hv, rfl⟩ := h
  unfold bootStepEnd
  exact if_neg (by simp [hr, ht, hv])

/-- The first steps of the image that step 7 runs leave the clocks alone. -/
theorem domLink_event (k : Nat) (s : State) : TwinEvent s (domLink k s) := by
  unfold domLink
  dsimp only
  split
  · exact .refl s
  · split
    · split
      · split
        · exact (domSet_event ..).trans (domDecide_event ..)
        · exact domSet_event ..
      · exact .refl s
    · exact domSet_event ..

theorem TwinEvent.clk {s t : State} (h : TwinEvent s t) : t.clk = s.clk := by
  obtain ⟨_, _, _, _, _, _, rfl⟩ := h
  rfl

theorem earlyStart_clk (s : State) : (earlyStart s).clk = s.clk := by
  unfold earlyStart
  dsimp only
  split
  · rfl
  · rw [(domLink_event ..).clk, (domLink_event ..).clk, rset_clk]

/-- What the partner's image calls for is heard and told (R308). -/
theorem compatEvent_event (c : Nat) (s : State) : TwinEvent s (compatEvent c s) := by
  unfold compatEvent
  split
  · exact raiseAt_event ..
  · split
    · exact (controlSend_only ..).event
    · split
      · exact (raiseAt_event ..).trans (controlSend_only ..).event
      · exact .refl s

theorem joinState_event (c : Nat) (s : State) : TwinEvent s (joinState c s) := by
  unfold joinState
  dsimp only
  refine TwinEvent.trans ?_ (TwinOnly.event ⟨_, rfl⟩)
  split
  · exact raiseAt_event ..
  · exact .refl s

theorem jointDecide_event (s : State) : TwinEvent s (jointDecide s) := by
  unfold jointDecide
  dsimp only
  have h0 : TwinEvent s (if s.twin.home = s.twin.peerHome then raise 0x42 0 s else s) := by
    split
    · exact raiseAt_event ..
    · exact .refl s
  generalize (if s.twin.home = s.twin.peerHome then raise 0x42 0 s else s) = u at h0
  refine h0.trans ?_
  split
  · exact (TwinOnly.event ⟨_, rfl⟩).trans (compatEvent_event ..)
  · have h1 (c : Nat) (v : State) (hv : TwinOnly u v) : TwinEvent u (joinState c v) := hv.event.trans (joinState_event c v)
    split
    · exact (h1 _ _ ⟨_, rfl⟩).trans (TwinOnly.event ⟨_, rfl⟩)
    · exact h1 _ _ ⟨_, rfl⟩

/-- A unit with its own proposal of the first block. -/
def proposing (n : Nat) (s : State) : State := { s with twin := { s.twin with proposal := n } }

/-- The handshake of a unit that has made its proposal (R551). -/
def handshakeOf (s : State) : State :=
  if !s.img.twin.pair || s.twin.noPartner then { s with twin := { s.twin with starting := false, st := 0, peer := 7 } }
  else
    let s := controlSend 0x01 (helloBody s) { s with twin := { s.twin with handshake := true, shakeAt := s.clk.safe } }
    if s.twin.hello.isEmpty || nth 0 s.twin.hello 45 ≠ 15 then s
    else jointDecide (controlSend 0x02 (helloBody s ++ beBytes 8 0) s)

theorem handshakeStart_eq (s : State) : handshakeStart s = handshakeOf (proposing (blockIn40ms s) s) := rfl

theorem handshakeOf_event (s : State) : TwinEvent s (handshakeOf s) := by
  unfold handshakeOf
  dsimp only
  split
  · exact TwinOnly.event ⟨_, rfl⟩
  · split
    · exact TwinEvent.trans (TwinOnly.event ⟨_, rfl⟩) (controlSend_only ..).event
    · refine TwinEvent.trans ?_ (jointDecide_event _)
      refine TwinEvent.trans ?_ (controlSend_only ..).event
      exact (TwinOnly.event ⟨_, rfl⟩).trans (controlSend_only ..).event

theorem handshakeStart_event (s : State) : TwinEvent s (handshakeStart s) := by
  rw [handshakeStart_eq]
  exact TwinEvent.trans (TwinOnly.event ⟨_, rfl⟩) (handshakeOf_event _)

/-- The lowest island that is off is switched on (R539). -/
theorem islandStart_next {i : Nat} {s : State} (hi : i < 16) (hs : s.clk.step = 4) (hoff : bit i s.clk.islands = false)
    (hon : ∀ j < i, bit j s.clk.islands = true) :
    islandStart s = startDomain 2 { s with clk := { s.clk with islands := s.clk.islands + 2 ^ i } } := by
  have hf : (List.range 16).find? (fun i => !bit i s.clk.islands) = some i := by
    rw [List.find?_range_eq_some]
    refine ⟨by simp [hoff], by simpa using hi, fun j hj => by simp [hon j hj]⟩
  unfold islandStart
  rw [if_neg (by simp [hs]), hf]

/-- Step 7 ends when both channels are trained and APLL is locked. -/
theorem bootRow_trained {s : State} (h0 : s.mem.ch0.trained = true) (h1 : s.mem.ch1.trained = true)
    (hp : (pllGet 5 s).locked = true) (log2 : Nat) : bootRow log2 s 7 = earlyStart (atStep 8 (startDomain 6 s)) :=
  if_pos (by simp [h0, h1, hp])

theorem bootRow_locked {s : State} (h : s.time.lock = true) (log2 : Nat) : bootRow log2 s 9 = handshakeStart (atStep 10 s) :=
  if_pos (by simp [h])

/-- MEDIA starts at the end of step 7 (R517). -/
theorem mediaStarted (s : State) : let t := earlyStart (atStep 8 (startDomain 6 s))
    (∃ d, t.clk = { s.clk with step := 8, dom := d }) ∧ (domainGet 6 t).src ≠ 2 := by
  intro t
  have hclk : t.clk = (atStep 8 (startDomain 6 s)).clk := earlyStart_clk _
  constructor
  · obtain ⟨d, hd⟩ := startDomain_only 6 s
    exact ⟨d, by rw [hclk, hd]; rfl⟩
  · have e : domainGet 6 t = domainGet 6 (startDomain 6 s) := by
      unfold domainGet
      rw [hclk]
      rfl
    rw [e, domainGet_startDomain_self]
    split
    · exact (by decide : (1 : Nat) ≠ 2)
    · assumption

/-- MEM, NET and TIME start on their PLLs (R517). -/
theorem domainGet_started (k : Nat) (s : State) : domainGet k (startDomain 5 (startDomain 4 (startDomain 3 s)))
    = if (k = 3 ∨ k = 4 ∨ k = 5) ∧ (domainGet k s).src = 2 then { domainGet k s with src := 1, div := 0 } else domainGet k s := by
  by_cases h5 : k = 5
  · subst h5
    rw [domainGet_startDomain_self, domainGet_startDomain_of_ne (by decide), domainGet_startDomain_of_ne (by decide)]
    simp
  rw [domainGet_startDomain_of_ne h5]
  by_cases h4 : k = 4
  · subst h4
    rw [domainGet_startDomain_self, domainGet_startDomain_of_ne (by decide)]
    simp
  rw [domainGet_startDomain_of_ne h4]
  by_cases h3 : k = 3
  · subst h3
    rw [domainGet_startDomain_self]
    simp
  rw [domainGet_startDomain_of_ne h3, if_neg (by tauto)]

/-- The gate registers are plain registers of the supervisor's (R534). -/
theorem gateRegister : ∀ g < 4, accOf (0x10010030 + 4 * g) = .rw ∧ heldByState (0x10010030 + 4 * g) = false
    ∧ 0x10010030 + 4 * g ∉ [0x100C001C, 0x100C006C, 0x10130044] ∧ 0x10010030 + 4 * g ≠ 0x10010018 := by decide

theorem instOf_gate {g : Nat} (hg : g < 4) (s : State) : instOf (0x10010030 + 4 * g) 0 s = 0 := by
  obtain rfl | rfl | rfl | rfl : g = 0 ∨ g = 1 ∨ g = 2 ∨ g = 3 := by omega
  all_goals rfl

/-- Settles O22. -/
theorem bootLedger : Obligations.BootLedger := by
  intro s hr
  refine ⟨fun i hi hs hoff hon => ?island, fun ht hv log2 => ?ledger, fun hs => ?idle, fun g v hg hserve => ?gate⟩
  case island =>
    obtain ⟨d, hd⟩ := startDomain_only 2 { s with clk := { s.clk with islands := s.clk.islands + 2 ^ i } }
    refine ⟨_, congrArg Host.Outcome.next ((islandStart_next hi hs hoff hon).trans hd), rfl, rfl⟩
  case idle => exact congrArg Host.Outcome.next (if_pos hs)
  case gate =>
    obtain ⟨hacc, hheld, hrow, hpll⟩ := gateRegister g hg
    have e : busWrite 0 (0x10010030 + 4 * g) v.toNat s
        = rset (0x10010030 + 4 * g) 0 (v.toNat &&& rwMask (0x10010030 + 4 * g)) (answered 0 s) := by
      rw [busWrite_rw hserve hacc, rwWrite_plain hheld hrow (.inl rfl) (fun h => hpll (congrArg Prod.fst h)), instOf_gate hg]
    refine ⟨_, withInstance_next.mpr ⟨hg, e.symm⟩, rfl, rfl, rget_rset_self .., fun b j h => rget_rset_of_ne h ..⟩
  case ledger =>
    have run (n : Nat) (h : s.clk.step = n) : exec (.bootStepEnd log2) s = .next (bootRow log2 s n) :=
      congrArg Host.Outcome.next (bootStepEnd_eq ⟨hr, ht, hv, h⟩)
    refine ⟨run 1, run 2, fun h => ?three, fun h h0 h1 hp => ?seven, fun h hl => ?nine, fun h hc => ?four,
      fun h hc => ?fourWaits, run 5, run 6, fun h ha => ?eight, fun h hst => ?ten⟩
    case three =>
      intro on
      have hon : ((List.range 5).all (fun p => (pllGet p s).locked) && decide ((domainGet 1 s).src = 1)) = true ↔ on := by
        simp [on]
      refine ⟨fun h3 => ?_, fun h3 => (run 3 h).trans (congrArg _ (if_neg (h3 ∘ hon.mp)))⟩
      refine ⟨_, (run 3 h).trans (congrArg _ (if_pos (hon.mpr h3))), ?_, fun k => ?_⟩
      · obtain ⟨d, hd⟩ := ((startDomain_only 3 s).trans (startDomain_only 4 _)).trans (startDomain_only 5 _)
        rw [hd]
        rfl
      · rw [domainGet_atStep, domainGet_started]
    case seven =>
      have e := run 7 h
      rw [bootRow_trained h0 h1 hp] at e
      obtain ⟨⟨d, hd⟩, hsrc⟩ := mediaStarted s
      exact ⟨_, e, by rw [hd], hsrc⟩
    case nine =>
      have e := run 9 h
      rw [bootRow_locked hl] at e
      exact ⟨_, e, (handshakeStart_event _).clk⟩
    case four => exact (run 4 h).trans (congrArg _ (if_pos hc))
    case fourWaits => exact (run 4 h).trans (congrArg _ (if_neg hc))
    case eight => exact (run 8 h).trans (congrArg _ (if_pos ha))
    case ten => exact (run 10 h).trans (congrArg _ (if_neg (by simp [hst])))

end Sys2Proof.Machine
end

section
/-!
SUPPORT. The image applied at step 8 of the boot ledger (chapter 16).
-/
namespace Sys2Proof.Machine

/-- A report of groups writes the network's state alone. -/
theorem reportGroups_net (p : Nat) (s : State) : ∃ n, reportGroups p s = { s with net := n } := by
  unfold reportGroups
  split
  · exact ⟨_, rfl⟩
  · exact ⟨_, rfl⟩

theorem reportAll_img (l : List Nat) (s : State) : (l.foldl (fun s p => reportGroups p s) s).nvm = s.nvm
    ∧ (l.foldl (fun s p => reportGroups p s) s).img = s.img := by
  induction l generalizing s with
  | nil => exact ⟨rfl, rfl⟩
  | cons p l ih =>
    obtain ⟨n, hn⟩ := reportGroups_net p s
    rw [List.foldl_cons, (ih _).1, (ih _).2, hn]
    exact ⟨rfl, rfl⟩

/-- The image of an applied body is marked so, and its header's hash is in force (R569). -/
theorem applyBody_applies (copyB : Bool) (t s : State) : let u := applyBody copyB t s
    u.nvm.applied = true ∧ u.nvm.copyB = copyB ∧ u.img.applied = true ∧ u.nvm.hash = slice 32 32 (headerOf copyB s) := by
  unfold applyBody
  dsimp only
  rw [(reportAll_img ..).1, (reportAll_img ..).2]
  exact ⟨rfl, rfl, rfl, rfl⟩

/-- The checked body's effect. -/
def checkedBody (body : List Nat) (s : State) : State :=
  match runRecords body 14 0 1 ⟨s, []⟩ with
  | .error e => failCopy 2 e s
  | .ok (k, o) => if o = body.length then applyBody s.clk.copyB k.st s else failCopy 2 ⟨5, 14, false, 0, 0⟩ s

theorem checkedBody_error {body : List Nat} {s : State} {e : BodyErr} (h : runRecords body 14 0 1 ⟨s, []⟩ = .error e) :
    checkedBody body s = failCopy 2 e s := by
  unfold checkedBody
  rw [h]

theorem checkedBody_ok {body : List Nat} {s : State} {k : Build} {o : Nat} (h : runRecords body 14 0 1 ⟨s, []⟩ = .ok (k, o)) :
    checkedBody body s
      = if o = body.length then applyBody s.clk.copyB k.st s else failCopy 2 ⟨5, 14, false, 0, 0⟩ s := by
  unfold checkedBody
  rw [h]

/-- The preferred copy's body is hashed before its records are checked. -/
theorem imageApply_eq {s : State} (hr : s.clk.inReset = false) (hs : s.clk.step = 8) (ha : s.nvm.applied = false)
    (hv : s.nvm.recovery = false) : imageApply s
      = if sha256 (bodyOf s.clk.copyB s) ≠ slice 32 32 (headerOf s.clk.copyB s) then failCopy 2 ⟨4, 0, false, 0, 0⟩ s
        else checkedBody (bodyOf s.clk.copyB s) s :=
  if_neg (by simp [hr, hs, ha, hv])

/-- Settles O24. -/
theorem imageApplied : Obligations.ImageApplied := by
  intro s hr hs ha hv body same
  have e := imageApply_eq hr hs ha hv
  have hsame : same = true ↔ sha256 body = slice 32 32 (headerOf s.clk.copyB s) := decide_eq_true_iff
  refine ⟨_, rfl, fun h => ?hash, fun h x hx => ?error, fun h k o hk => ?checked⟩
  case hash => rw [e, if_pos (mt hsame.mpr (by simp [h]))]
  case error => rw [e, if_neg (not_not.mpr (hsame.mp h)), checkedBody_error hx]
  case checked =>
    rw [if_neg (not_not.mpr (hsame.mp h)), checkedBody_ok hk] at e
    refine ⟨fun ho => by rw [e, if_neg ho], fun ho => ?_⟩
    have hp : (imageApply s).pending = s.pending := exec_pending (c := .imageApply) rfl
    rw [if_pos ho] at e
    obtain ⟨happ, hcopy, himg, hhash⟩ := applyBody_applies s.clk.copyB k.st s
    rw [← e] at happ hcopy himg hhash
    exact ⟨happ, hcopy, himg, hhash, hp⟩

end Sys2Proof.Machine
end

section
/-!
SUPPORT. Converters, headset ports and power stages (chapter 13).
-/
namespace Sys2Proof.Machine

/-! ### Events and counters over steps -/

/-- An event raised in a state with the same events. -/
theorem rings_of_ev {code arg : Nat} {s u : State} (hc : code < 256) (h : u.ev = s.ev) : Rings code s (raise code arg u) := by
  have hr := rings_raise hc arg u
  unfold Rings at hr ⊢
  rwa [h] at hr

/-- Two events raised one after the other. -/
theorem eseq_twice (n : Nat) : ((n + 1) % 2 ^ 32 + 1) % 2 ^ 32 = (n + 2) % 2 ^ 32 := by omega

@[simp] theorem dacGet_dacSet_self (k v s) : dacGet k (dacSet k v s) = v := sget_sset_self ..
@[simp] theorem hsGet_hsSet_self (k v s) : hsGet k (hsSet k v s) = v := sget_sset_self ..
@[simp] theorem ampGet_ampSet_self (k v s) : ampGet k (ampSet k v s) = v := sget_sset_self ..
theorem ampGet_ampSet_of_ne {j k : Nat} (h : j ≠ k) (v s) : ampGet j (ampSet k v s) = ampGet j s := sget_sset_of_ne _ _ h ..
@[simp] theorem dacGet_raise (k code arg s) : dacGet k (raise code arg s) = dacGet k s := by unfold dacGet; rw [raise_ana]
@[simp] theorem hsGet_raise (k code arg s) : hsGet k (raise code arg s) = hsGet k s := by unfold hsGet; rw [raise_ana]
@[simp] theorem ampGet_raise (k code arg s) : ampGet k (raise code arg s) = ampGet k s := by unfold ampGet; rw [raise_ana]
@[simp] theorem dacGet_count (k a i n s) : dacGet k (count a i n s) = dacGet k s := rfl
@[simp] theorem hsGet_count (k a i n s) : hsGet k (count a i n s) = hsGet k s := rfl
@[simp] theorem ampGet_count (k a i n s) : ampGet k (count a i n s) = ampGet k s := rfl

/-! ### DACs -/

/-- What a compliance check leaves in a DAC (R465). -/
def checkedDac (op ov : Bool) (d : DacState) : DacState :=
  let opNow := op && (d.openSeen || d.openNow)
  let ovNow := ov && (d.overSeen || d.overNow)
  { d with
    openSeen := op, overSeen := ov, openNow := opNow, overNow := ovNow
    openEv := d.openEv || (opNow && !d.openNow), overEv := d.overEv || (ovNow && !d.overNow)
    tail := d.tail || ((d.openNow || d.overNow) && !opNow && !ovNow) }

/-- The events of a compliance check: an open output, and one out of its range. -/
def toldDac (k : Nat) (opNew ovNew : Bool) (s : State) : State :=
  let s := if opNew then raise 0x6B k (count 0x100F0020 k 1 s) else s
  if ovNew then raise 0x6C k (count 0x100F0020 k 1 s) else s

theorem toldDac_told {k : Nat} (hlt : k < 65536) (opNew ovNew : Bool) (s : State) : let t := toldDac k opNew ovNew s
    let n := (if opNew then 1 else 0) + (if ovNew then 1 else 0)
    dacGet k t = dacGet k s ∧ (n ≠ 0 → Counts 0x100F0020 k n s t) ∧ t.ev.eseq % 2 ^ 32 = (s.ev.eseq + n) % 2 ^ 32 := by
  have hk (code : Nat) (u : State) : cget 0x100F0020 k (raise code k (count 0x100F0020 k 1 u))
      = min (cget 0x100F0020 k u + 1) 0xFFFFFFFF := by
    refine (cget_raiseAt ?_ ..).trans (cget_count_self ..)
    unfold rkey
    omega
  cases opNew <;> cases ovNew
  · exact ⟨rfl, fun h => absurd rfl h, rfl⟩
  · exact ⟨by simp [toldDac], fun _ => hk .., by simp [toldDac]⟩
  · exact ⟨by simp [toldDac], fun _ => hk .., by simp [toldDac]⟩
  · refine ⟨by simp [toldDac], fun _ => (hk 0x6C (raise 0x6B k (count 0x100F0020 k 1 s))).trans ?_, by simp [toldDac]⟩
    rw [hk]
    simp only [if_true]
    omega

theorem dacCheck_eq {k : Nat} {s : State} (h : (s.img.dacSrc[k]?).isSome) (flow : Bool) (uA : Nat) (mV : Int) :
    let d := dacGet k s
    let op := !flow && decide (500 ≤ uA)
    let ov := (if nth false s.img.dacHp k then decide (mV < -1500) else decide (mV < 300)) || decide (1500 < mV)
    dacCheck k flow uA mV s = toldDac k (op && (d.openSeen || d.openNow) && !d.openNow)
      (ov && (d.overSeen || d.overNow) && !d.overNow) (dacSet k (checkedDac op ov d) s) := by
  intro d op ov
  unfold dacCheck
  rw [if_neg (by simpa using h)]
  have hov : (if nth false s.img.dacHp k then decide (mV < -1500) || decide (1500 < mV)
      else decide (mV < 300) || decide (1500 < mV)) = ov := by
    unfold ov
    split <;> rfl
  rw [hov]
  rfl

/-! ### Headset ports -/

/-- Consecutive measurements between 1,500 Ω and 12,000 Ω, and above, with the one of `r` Ω. -/
def fourOf (r : Nat) (h : HsState) : Nat := if 1500 ≤ r ∧ r ≤ 12000 then h.fourRun + 1 else 0
def highOf (r : Nat) (h : HsState) : Nat := if 12000 < r then h.highRun + 1 else 0

/-- The port with these measurements counted. -/
def ranHs (r : Nat) (h : HsState) : HsState := { h with fourRun := min (fourOf r h) 200, highRun := min (highOf r h) 200 }

/-- The type changes to 2, or from 2 to 3 (R468). -/
def toTwo (r : Nat) (h : HsState) : Bool := (h.type = 1 || h.type = 3) && decide (200 ≤ fourOf r h)
def toThree (r : Nat) (h : HsState) : Bool := h.type = 2 && decide (200 ≤ highOf r h)

/-- What the type rule leaves in a port (R468). -/
def typedHs (r : Nat) (h : HsState) : HsState :=
  if toTwo r h then { ranHs r h with type := 2, typeChange := true }
  else if toThree r h then { ranHs r h with type := 3, typeChange := true }
  else ranHs r h

/-- The type rule sets the port, and tells of a change to type 3 alone. -/
theorem hsTypeRule_eq (n r : Nat) (s : State) : hsTypeRule n r s
    = if !toTwo r (hsGet n s) && toThree r (hsGet n s) then raise 0x6F n (hsSet n (typedHs r (hsGet n s)) s)
      else hsSet n (typedHs r (hsGet n s)) s := by
  have e : hsTypeRule n r s = if toTwo r (hsGet n s) then hsSet n { ranHs r (hsGet n s) with type := 2, typeChange := true } s
    else if toThree r (hsGet n s) then raise 0x6F n (hsSet n { ranHs r (hsGet n s) with type := 3, typeChange := true } s)
    else hsSet n (ranHs r (hsGet n s)) s := rfl
  rw [e]
  unfold typedHs
  cases toTwo r (hsGet n s) <;> cases toThree r (hsGet n s) <;> rfl

@[simp] theorem hsGet_hsTypeRule (n r : Nat) (s : State) : hsGet n (hsTypeRule n r s) = typedHs r (hsGet n s) := by
  rw [hsTypeRule_eq]
  split <;> simp

theorem hsTypeRule_ev {n r : Nat} {s : State} (h : toThree r (hsGet n s) = false) : (hsTypeRule n r s).ev = s.ev := by
  rw [hsTypeRule_eq, h, Bool.and_false]
  rfl

theorem hsTypeRule_counted (n r : Nat) (s : State) : Counted [(0x10140034, 0)] s (hsTypeRule n r s) := by
  rw [hsTypeRule_eq]
  have h : Counted [(0x10140034, 0)] s (hsSet n (typedHs r (hsGet n s)) s) := .of_bus rfl
  exact .ite (.raiseAt (List.mem_singleton_self _) h ..) h

/-- Consecutive measurements in one button window, and above 1,500 Ω, with the one of `r` Ω. -/
def windowRunOf (r : Nat) (h : HsState) : Nat :=
  if buttonWindow r = 0 then 0 else if buttonWindow r = h.window then min (h.windowRun + 1) 20 else 1
def upRunOf (r : Nat) (h : HsState) : Nat := if 1500 ≤ r then min (h.upRun + 1) 20 else 0

/-- The port with these measurements counted. -/
def windowedHs (r : Nat) (h : HsState) : HsState :=
  { h with window := buttonWindow r, windowRun := windowRunOf r h, upRun := upRunOf r h }

/-- A press, and a release, that 20 measurements confirm (R469). -/
def presses (r : Nat) (h : HsState) : Bool := h.button = 0 && h.type = 2 && decide (20 ≤ windowRunOf r h)
def releases (r : Nat) (h : HsState) : Bool := h.button ≠ 0 && decide (20 ≤ upRunOf r h)

theorem hsButtonRule_eq (n r : Nat) (s : State) : hsButtonRule n r s = let h := hsGet n s
    if presses r h then raise 0x70 n (count 0x10110014 n 1
      (hsSet n (askFade s n true { windowedHs r h with button := buttonWindow r, press := true }) s))
    else if releases r h then raise 0x70 n (hsSet n (askFade s n false { windowedHs r h with button := 0 }) s)
    else hsSet n (windowedHs r h) s := rfl

/-- A fade asked for changes nothing else in the port. -/
theorem askFade_only (s : State) (n : Nat) (out : Bool) (h : HsState) : ∃ f, askFade s n out h = { h with fadeDue := f } := by
  unfold askFade
  split
  · split <;> exact ⟨_, rfl⟩
  · split
    · exact ⟨_, rfl⟩
    · split <;> exact ⟨_, rfl⟩

/-- A measurement that confirms no press and no release. -/
theorem hsButtonRule_quiet {n r : Nat} {s : State} (hp : presses r (hsGet n s) = false) (hr : releases r (hsGet n s) = false) :
    hsButtonRule n r s = hsSet n (windowedHs r (hsGet n s)) s := by
  rw [hsButtonRule_eq]
  simp only [hp, hr, Bool.false_eq_true, if_false]

/-- A press is counted and told. -/
theorem hsButtonRule_press {n r : Nat} {s : State} (hn : n < 65536) (hp : presses r (hsGet n s) = true) : let t := hsButtonRule n r s
    (∃ f, hsGet n t = { windowedHs r (hsGet n s) with button := buttonWindow r, press := true, fadeDue := f })
      ∧ Counts 0x10110014 n 1 s t ∧ Rings 0x70 s t := by
  obtain ⟨f, hf⟩ := askFade_only s n true { windowedHs r (hsGet n s) with button := buttonWindow r, press := true }
  rw [hsButtonRule_eq]
  simp only [hp, if_true]
  refine ⟨⟨f, by simp [hf]⟩, ?_, rings_of_ev (by decide) rfl⟩
  exact (cget_raiseAt (by unfold rkey; omega) ..).trans (cget_count_self ..)

/-- A release is told. -/
theorem hsButtonRule_release {n r : Nat} {s : State} (hp : presses r (hsGet n s) = false) (hr : releases r (hsGet n s) = true) :
    let t := hsButtonRule n r s
    (∃ f, hsGet n t = { windowedHs r (hsGet n s) with button := 0, fadeDue := f }) ∧ Rings 0x70 s t := by
  obtain ⟨f, hf⟩ := askFade_only s n false { windowedHs r (hsGet n s) with button := 0 }
  rw [hsButtonRule_eq]
  simp only [hp, hr, Bool.false_eq_true, if_false, if_true]
  exact ⟨⟨f, by simp [hf]⟩, rings_of_ev (by decide) rfl⟩

/-- A port in its working state applies both rules to a measurement. -/
theorem hsMeasure_working {n r : Nat} {s : State} (ho : hsOn s n = true) (h : (hsGet n s).st = 4) :
    hsMeasure n r s = hsButtonRule n r (hsTypeRule n r (hsSet n { hsGet n s with ohms := min r 65535 } s)) := by
  unfold hsMeasure
  rw [if_neg (by simp [ho])]
  exact (if_neg (by omega)).trans (if_pos h)

theorem hsMeasure_classifying {n r : Nat} {s : State} (ho : hsOn s n = true) (h : (hsGet n s).st = 3) :
    hsGet n (hsMeasure n r s) = { hsGet n s with
      ohms := min r 65535, classified := (hsGet n s).classified + 1, allLow := (hsGet n s).allLow && decide (r < 100)
      allFour := (hsGet n s).allFour && decide (1500 ≤ r) && decide (r ≤ 12000) } := by
  unfold hsMeasure
  rw [if_neg (by simp [ho])]
  dsimp only
  rw [if_pos h, hsGet_hsSet_self]

/-- What a measurement leaves of the port before its buttons are looked at. -/
def measuredHs (r : Nat) (h : HsState) : HsState := typedHs r { h with ohms := min r 65535 }

theorem typedHs_keeps (r : Nat) (h : HsState) : (typedHs r h).st = h.st ∧ (typedHs r h).ohms = h.ohms
    ∧ (typedHs r h).button = h.button ∧ (typedHs r h).window = h.window ∧ (typedHs r h).windowRun = h.windowRun
    ∧ (typedHs r h).upRun = h.upRun := by
  unfold typedHs
  split
  · exact ⟨rfl, rfl, rfl, rfl, rfl, rfl⟩
  · split <;> exact ⟨rfl, rfl, rfl, rfl, rfl, rfl⟩

/-- Below 1,500 Ω no type changes. -/
theorem typedHs_low {r : Nat} (hr : r < 1500) (h : HsState) : toTwo r h = false ∧ toThree r h = false ∧ (typedHs r h).type = h.type := by
  have h4 : fourOf r h = 0 := if_neg (by omega)
  have hh : highOf r h = 0 := if_neg (by omega)
  have h2 : toTwo r h = false := by simp [toTwo, h4]
  have h3 : toThree r h = false := by simp [toThree, hh]
  refine ⟨h2, h3, ?_⟩
  unfold typedHs
  rw [h2, h3]
  rfl

/-- Up to 12,000 Ω no type changes to 3. -/
theorem toThree_mid {r : Nat} (hr : r ≤ 12000) (h : HsState) : toThree r h = false := by
  have hh : highOf r h = 0 := if_neg (by omega)
  simp [toThree, hh]

theorem typedHs_mid {r : Nat} (hl : 1500 ≤ r) (hu : r ≤ 12000) {h : HsState} (ht : h.type = 1 ∨ h.type = 3) :
    (typedHs r h).type = (if 199 ≤ h.fourRun then 2 else h.type)
      ∧ (typedHs r h).typeChange = (h.typeChange || decide (199 ≤ h.fourRun)) := by
  have h4 : fourOf r h = h.fourRun + 1 := if_pos ⟨hl, hu⟩
  have h2 : toTwo r h = decide (199 ≤ h.fourRun) := by
    rcases ht with ht | ht <;> simp [toTwo, h4, ht]
  unfold typedHs
  rw [h2, toThree_mid hu]
  by_cases h199 : 199 ≤ h.fourRun
  · simp [h199]
  · simp [h199, ranHs]

theorem typedHs_two {r : Nat} {h : HsState} (ht : h.type = 2) : toTwo r h = false := by simp [toTwo, ht]

theorem typedHs_high {r : Nat} (hr : 12000 < r) {h : HsState} (ht : h.type = 2) :
    (typedHs r h).type = (if 199 ≤ h.highRun then 3 else 2)
      ∧ (typedHs r h).typeChange = (h.typeChange || decide (199 ≤ h.highRun)) := by
  have hh : highOf r h = h.highRun + 1 := if_pos hr
  have h3 : toThree r h = decide (199 ≤ h.highRun) := by simp [toThree, hh, ht]
  unfold typedHs
  rw [typedHs_two ht, h3]
  by_cases h199 : 199 ≤ h.highRun
  · simp [h199]
  · simp [h199, ranHs, ht]

theorem presses_low {r w : Nat} (hw : buttonWindow r = w) (h0 : w ≠ 0) {h : HsState} (hb : h.button = 0) (ht : h.type = 2) :
    presses r h = true ↔ h.window = w ∧ 19 ≤ h.windowRun := by
  unfold presses windowRunOf
  rw [hw, if_neg h0]
  simp only [hb, ht, decide_true, Bool.true_and, Bool.and_self, decide_eq_true_eq]
  split
  · rename_i e
    simp only [e, true_and]
    omega
  · rename_i e
    simp only [Ne.symm e, false_and, iff_false]
    omega

theorem buttonWindow_high {r : Nat} (h : 900 < r) : buttonWindow r = 0 := by
  unfold buttonWindow
  rw [if_neg (by omega), if_neg (by omega), if_neg (by omega), if_neg (by omega)]

theorem presses_high {r : Nat} (hr : 900 < r) (h : HsState) : presses r h = false := by
  simp [presses, windowRunOf, buttonWindow_high hr]

/-- What the button rule leaves of the other fields. -/
theorem hsButtonRule_keeps {n : Nat} (hn : n < 65536) (r : Nat) (s : State) : let h := hsGet n s
    let t := hsGet n (hsButtonRule n r s)
    t.st = h.st ∧ t.ohms = h.ohms ∧ t.type = h.type ∧ t.typeChange = h.typeChange ∧ t.window = buttonWindow r := by
  cases hp : presses r (hsGet n s)
  case true =>
    obtain ⟨⟨f, hf⟩, -, -⟩ := hsButtonRule_press hn hp
    simp only [hf]
    exact ⟨rfl, rfl, rfl, rfl, rfl⟩
  case false =>
    cases hr : releases r (hsGet n s)
    case true =>
      obtain ⟨⟨f, hf⟩, -⟩ := hsButtonRule_release hp hr
      simp only [hf]
      exact ⟨rfl, rfl, rfl, rfl, rfl⟩
    case false =>
      rw [hsButtonRule_quiet hp hr, hsGet_hsSet_self]
      exact ⟨rfl, rfl, rfl, rfl, rfl⟩

/-- A port in its working state that was measured, before its buttons are looked at. -/
def measuredAt (n r : Nat) (s : State) : State := hsTypeRule n r (hsSet n { hsGet n s with ohms := min r 65535 } s)

theorem hsGet_measuredAt (n r : Nat) (s : State) : hsGet n (measuredAt n r s) = measuredHs r (hsGet n s) := by
  unfold measuredAt
  rw [hsGet_hsTypeRule, hsGet_hsSet_self]
  rfl

theorem measuredAt_ev {n r : Nat} (hr : r ≤ 12000) (s : State) : (measuredAt n r s).ev = s.ev := by
  unfold measuredAt
  rw [hsTypeRule_ev]
  · rfl
  · rw [hsGet_hsSet_self]
    exact toThree_mid hr _

theorem measuredAt_counted (n r : Nat) (s : State) : Counted [(0x10140034, 0)] s (measuredAt n r s) :=
  Counted.trans (.of_bus (t := hsSet ..) rfl) (hsTypeRule_counted ..)

theorem counts_of_cget {a i n : Nat} {s u t : State} (h : cget a i u = cget a i s) (hc : Counts a i n u t) : Counts a i n s t := by
  unfold Counts at hc ⊢
  rw [hc, h]

theorem rings_of_ev' {code : Nat} {s u t : State} (h : u.ev = s.ev) (hr : Rings code u t) : Rings code s t := by
  unfold Rings at hr ⊢
  rwa [h] at hr

/-- Settles O53: the compliance checks, and a headset port by its states. -/
theorem dacsAndHeadsets : Obligations.DacsAndHeadsets := by
  refine ⟨fun s k hk => ?dac, fun s n hn => ?hs⟩
  case dac =>
    intro d
    refine ⟨fun flow uA mV hsrc => ?check, ?mute⟩
    case check =>
      intro op ov opNow ovNow m
      refine ⟨_, withInstance_next.mpr ⟨hk, rfl⟩, ?_⟩
      rw [dacCheck_eq hsrc]
      obtain ⟨hd, hc, he⟩ := toldDac_told (k := k) (by omega) (opNow && !d.openNow) (ovNow && !d.overNow)
        (dacSet k (checkedDac op ov d) s)
      exact ⟨hd.trans (dacGet_dacSet_self ..), hc, he⟩
    case mute =>
      refine withInstance_next.mpr ⟨hk, ?_⟩
      unfold dacMuteEnd
      simp only [Bool.or_eq_true]
      rfl
  case hs =>
    intro h
    have hlt : n < 65536 := by omega
    refine ⟨fun plug => ?det, fun ho hd hst => ?insert, fun ho hd hst => ?remove, fun hst => ⟨fun r ho => ?classify, ?classified⟩,
      fun hst ho r => ?working, fun hf => ?fade, fun hf => ?unfade, fun hout => ?resume⟩
    case det =>
      refine withInstance_next.mpr ⟨hn, ?_⟩
      have e : hsDet n plug s = hsSet n { h with det := plug, st := if !hsOn s n then h.st else if plug && h.st = 1 then 2
          else if !plug && h.st = 2 then 1 else h.st } s := rfl
      have hstate : (if !hsOn s n then h.st else if plug && h.st = 1 then 2 else if !plug && h.st = 2 then 1 else h.st)
          = if hsOn s n = true ∧ plug = true ∧ h.st = 1 then 2
            else if hsOn s n = true ∧ plug = false ∧ h.st = 2 then 1 else h.st := by
        cases hsOn s n <;> cases plug <;> simp
      rw [e, hstate]
    case insert =>
      refine ⟨_, withInstance_next.mpr ⟨hn, rfl⟩, ?_⟩
      have hc : (hsOn s n && (hsGet n s).det && decide ((hsGet n s).st = 2)) = true := by
        rw [ho, show (hsGet n s).det = true from hd, show (hsGet n s).st = 2 from hst]; rfl
      unfold hsInsert
      dsimp only
      rw [if_pos hc]
      exact ⟨rings_of_ev (by decide) rfl, (hsGet_raise ..).trans (hsGet_hsSet_self ..)⟩
    case remove =>
      refine ⟨_, withInstance_next.mpr ⟨hn, rfl⟩, ?_⟩
      have hc : (hsOn s n && !(hsGet n s).det && decide (3 ≤ (hsGet n s).st)) = true := by
        rw [ho, show (hsGet n s).det = false from hd, decide_eq_true hst]; rfl
      unfold hsRemove
      dsimp only
      rw [if_pos hc]
      obtain ⟨f, hf⟩ : ∃ f, (if (hsGet n s).button ≠ 0 then askFade s n false (hsGet n s) else hsGet n s)
          = { hsGet n s with fadeDue := f } := by
        split
        · exact askFade_only ..
        · exact ⟨_, rfl⟩
      refine ⟨rings_of_ev (by decide) rfl, ?_⟩
      simp only [hf, hsGet_raise, hsGet_hsSet_self]
      rfl
    case classify => exact ⟨_, withInstance_next.mpr ⟨hn, rfl⟩, hsMeasure_classifying ho hst⟩
    case classified => exact withInstance_next.mpr ⟨hn, (if_pos hst).symm⟩
    case fade => exact withInstance_next.mpr ⟨hn, (if_pos hf).symm⟩
    case unfade => exact withInstance_next.mpr ⟨hn, ((if_neg (by rw [hf]; decide)).trans (if_pos hf)).symm⟩
    case resume => exact withInstance_next.mpr ⟨hn, (if_pos hout).symm⟩
    case working =>
      intro measured
      have hx : exec (.micMeasure n r) s = .next (hsButtonRule n r (measuredAt n r s)) :=
        withInstance_next.mpr ⟨hn, (hsMeasure_working ho hst).symm⟩
      obtain ⟨hkst, hkohms, hktype, hkchange, hkwindow⟩ := hsButtonRule_keeps hlt r (measuredAt n r s)
      simp only [hsGet_measuredAt] at hkst hkohms hktype hkchange
      obtain ⟨hst', hohms', hbutton', hwindow', hrun', hup'⟩ := typedHs_keeps r { h with ohms := min r 65535 }
      have hmeas (P : State → Prop) (hP : P (hsButtonRule n r (measuredAt n r s))) : measured P :=
        ⟨_, hx, hkohms.trans hohms', (hkst.trans hst').trans hst, hP⟩
      refine ⟨fun e he hl hu htype hb => hmeas _ ?pressed, fun hl htype hu hb => hmeas _ ?release, fun hl hu htype => hmeas _ ?two,
        fun hl htype => hmeas _ ?three⟩
      case two => exact ⟨hktype.trans (typedHs_mid (h := { h with ohms := min r 65535 }) hl hu htype).1, hkchange.trans (typedHs_mid (h := { h with ohms := min r 65535 }) hl hu htype).2⟩
      case three => exact ⟨hktype.trans (typedHs_high (h := { h with ohms := min r 65535 }) hl htype).1, hkchange.trans (typedHs_high (h := { h with ohms := min r 65535 }) hl htype).2⟩
      case pressed =>
        have hw : buttonWindow r = e.1 ∧ e.1 ≠ 0 ∧ r < 1500 := by
          simp only [List.mem_cons, List.not_mem_nil, or_false] at he
          unfold buttonWindow
          rcases he with rfl | rfl | rfl | rfl
          all_goals dsimp only at hl hu ⊢
          · rw [if_pos (by omega)]; omega
          · rw [if_neg (by omega), if_pos (by omega)]; omega
          · rw [if_neg (by omega), if_neg (by omega), if_pos (by omega)]; omega
          · rw [if_neg (by omega), if_neg (by omega), if_neg (by omega), if_pos (by omega)]; omega
        obtain ⟨hw, hw0, hr⟩ := hw
        have hpress := presses_low hw hw0 (h := measuredHs r h) (hbutton'.trans hb) ((typedHs_low hr _).2.2.trans htype)
        rw [show (measuredHs r h).window = h.window from hwindow', show (measuredHs r h).windowRun = h.windowRun from hrun'] at hpress
        refine ⟨hkwindow.trans hw, ?_⟩
        split
        · rename_i hc
          have hp : presses r (hsGet n (measuredAt n r s)) = true := by rw [hsGet_measuredAt]; exact hpress.mpr hc
          obtain ⟨⟨f, hf⟩, hcount, hring⟩ := hsButtonRule_press hlt hp
          rw [hf]
          refine ⟨hw, rfl, counts_of_cget ?_ hcount, rings_of_ev' (measuredAt_ev (by omega) s) hring⟩
          refine (measuredAt_counted n r s).kept _ _ ?_
          simp only [List.mem_singleton, forall_eq, rkey]
          omega
        · rename_i hc
          have hp : presses r (hsGet n (measuredAt n r s)) = false := by
            rw [hsGet_measuredAt]
            exact Bool.eq_false_iff.mpr (mt hpress.mp hc)
          have hrel : releases r (hsGet n (measuredAt n r s)) = false := by
            rw [hsGet_measuredAt]
            have hb0 : (measuredHs r (hsGet n s)).button = 0 := hbutton'.trans hb
            simp [releases, hb0]
          rw [hsButtonRule_quiet hp hrel]
          refine ⟨?_, measuredAt_ev (n := n) (r := r) (by omega) s⟩
          rw [hsGet_hsSet_self, hsGet_measuredAt]
          exact hbutton'.trans hb
      case release =>
        have hp : presses r (hsGet n (measuredAt n r s)) = false := presses_high (by omega) _
        have hrel : releases r (hsGet n (measuredAt n r s)) = decide (19 ≤ h.upRun) := by
          rw [hsGet_measuredAt]
          have hbm : (measuredHs r (hsGet n s)).button ≠ 0 := fun h0 => hb (hbutton'.symm.trans h0)
          have hum : (measuredHs r (hsGet n s)).upRun = h.upRun := hup'
          unfold releases upRunOf
          rw [if_pos hl, hum]
          simp only [hbm, ne_eq, not_false_eq_true, decide_true, Bool.true_and, decide_eq_decide]
          omega
        split
        · rename_i hc
          obtain ⟨⟨f, hf⟩, hring⟩ := hsButtonRule_release hp (hrel.trans (decide_eq_true hc))
          rw [hf]
          exact ⟨rfl, rings_of_ev' (measuredAt_ev (by omega) s) hring⟩
        · rename_i hc
          rw [hsButtonRule_quiet hp (hrel.trans (decide_eq_false hc))]
          refine ⟨?_, measuredAt_ev (n := n) (r := r) (by omega) s⟩
          rw [hsGet_hsSet_self, hsGet_measuredAt]
          exact hbutton'

end Sys2Proof.Machine
end

section
/-!
SUPPORT. Power stages (section "Class-D stage" of chapter 13).
-/
namespace Sys2Proof.Machine

@[simp] theorem ampSet_ev (k v s) : (ampSet k v s).ev = s.ev := rfl
@[simp] theorem rget_ampSet (a i k v s) : rget a i (ampSet k v s) = rget a i s := rfl
@[simp] theorem cget_ampSet (a i k v s) : cget a i (ampSet k v s) = cget a i s := rfl
@[simp] theorem rget_count (a i b j n s) : rget a i (count b j n s) = rget a i s := rfl

/-- A stage that latches (R477, R478). -/
def latchedAmp (a : AmpState) : AmpState := { a with latched := true, waiting := false, off := true, resume := false }

theorem ampLatch_eq (k : Nat) (s : State) : ampLatch k s = raise 0x72 k (ampSet k (latchedAmp (ampGet k s)) s) := rfl

/-- Two events raised one after the other. -/
theorem eseq_raise_raise (c d i j : Nat) {s u : State} (f : State → State) (hu : u.ev = s.ev) (hf : ∀ t, (f t).ev = t.ev) :
    (raise d j (f (raise c i u))).ev.eseq = (s.ev.eseq + 2) % 2 ^ 32 := by
  rw [raise_eseq, hf, raise_eseq, hu, eseq_twice]

theorem pend_raise_raise {c d : Nat} (hc : c < 256) (hd : d < 256) (i j : Nat) {s u : State} (f : State → State) (hu : u.ev = s.ev)
    (hf : ∀ t, (f t).ev = t.ev) :
    (raise d j (f (raise c i u))).ev.pend = s.ev.pend ||| (1#256 <<< c) ||| (1#256 <<< d) := by
  rw [raise_pend, hf, raise_pend, hu, Nat.mod_eq_of_lt hc, Nat.mod_eq_of_lt hd]

/-- A trip: the pulse is the fourth that was cut short (R477). -/
def trippedAmp (a : AmpState) : AmpState := { a with limited := 0, trip := true, off := true }

/-- The stage trips, counted. -/
def trippingAt (k : Nat) (s : State) : State :=
  count 0x1010001C k 1 (ampSet k (trippedAmp (ampGet k s)) (count 0x10100018 k 1 s))

/-- The stage has tripped, counted and told. -/
def trippedAt (k : Nat) (s : State) : State := raise 0x71 k (trippingAt k s)

theorem trippingAt_ev (k : Nat) (s : State) : (trippingAt k s).ev = s.ev := by
  unfold trippingAt
  rw [count_ev, ampSet_ev, count_ev]

theorem trippedAt_rings (k : Nat) (s : State) : Rings 0x71 s (trippedAt k s) := rings_of_ev (by decide) (trippingAt_ev k s)

/-- A limited pulse of a driving stage. -/
theorem ampLimit_eq {k : Nat} {s : State} (h : ampDrives s k = true) (previous : Bool) :
    let a := ampGet k s
    let n := if previous then a.limited + 1 else 1
    ampLimit k previous s = if n < 4 then ampSet k { a with limited := n } (count 0x10100018 k 1 s)
      else if bit 4 (rget 0x10100008 k (trippedAt k s)) && decide (a.tries < 3) then
        ampSet k { trippedAmp a with waiting := true } (trippedAt k s)
      else ampLatch k (trippedAt k s) := by
  unfold ampLimit
  rw [if_neg (by simp [h])]
  rfl

@[simp] theorem rget_trippedAt (a i k : Nat) (s : State) : rget a i (trippedAt k s) = rget a i s := by
  unfold trippedAt trippingAt
  rw [rget_raise, rget_count, rget_ampSet, rget_count]

@[simp] theorem ampGet_trippedAt (k : Nat) (s : State) : ampGet k (trippedAt k s) = trippedAmp (ampGet k s) := by
  unfold trippedAt trippingAt
  rw [ampGet_raise, ampGet_count, ampGet_ampSet_self]

/-- Both counters of the stage have advanced. -/
theorem trippedAt_counts {k : Nat} (hk : k < 2) (s : State) :
    Counts 0x10100018 k 1 s (trippedAt k s) ∧ Counts 0x1010001C k 1 s (trippedAt k s) := by
  have h8 : rkey 0x10100018 k ≠ rkey 0x10140034 0 := by unfold rkey; omega
  have hC : rkey 0x1010001C k ≠ rkey 0x10140034 0 := by unfold rkey; omega
  have h8C : rkey 0x10100018 k ≠ rkey 0x1010001C k := by unfold rkey; omega
  unfold trippedAt trippingAt Counts raise
  constructor
  · rw [cget_raiseAt h8, cget_count_of_ne h8C, cget_ampSet, cget_count_self]
  · rw [cget_raiseAt hC, cget_count_self, cget_ampSet, cget_count_of_ne h8C.symm]

theorem counts_of_event {k : Nat} (hk : k < 2) {s u : State} (h : Counts 0x10100018 k 1 s u ∧ Counts 0x1010001C k 1 s u) (c i : Nat)
    (v : AmpState) : Counts 0x10100018 k 1 s (raise c i (ampSet k v u)) ∧ Counts 0x1010001C k 1 s (raise c i (ampSet k v u)) := by
  have h8 : rkey 0x10100018 k ≠ rkey 0x10140034 0 := by unfold rkey; omega
  have hC : rkey 0x1010001C k ≠ rkey 0x10140034 0 := by unfold rkey; omega
  obtain ⟨c8, cC⟩ := h
  unfold Counts raise at *
  rw [cget_raiseAt h8, cget_raiseAt hC, cget_ampSet, cget_ampSet]
  exact ⟨c8, cC⟩

/-- A window of the output's average (R478). -/
theorem ampDc_eq {k : Nat} {s : State} (h : (s.img.ampSrc[k]?).isSome) (mV : Int) :
    let a := ampGet k s
    let n := if 2000 < mV.natAbs then a.dcRun + 1 else 0
    ampDc k mV s = if 2 ≤ n && !a.latched then raise 0x73 k (ampLatch k (ampSet k { a with dcRun := 0, dcFault := true } s))
      else ampSet k { a with dcRun := min n 1 } s :=
  if_neg (by simpa using h)

/-- The supply has come back (R627): what was running waits for the next tick. -/
theorem pvddRise_amp {s : State} (h : s.ana.pvddLow = true) : let t := pvddRise s
    (∃ x, t = { s with ana := x }) ∧ t.ana.pvddLow = false
      ∧ ∀ k < 2, ampGet k t = if (ampGet k s).off then ampGet k s else { ampGet k s with off := true, resume := true } := by
  let up (k : Nat) (s : State) : State := if (ampGet k s).off then s else ampSet k { ampGet k s with off := true, resume := true } s
  have e : pvddRise s = up 1 (up 0 { s with ana := { s.ana with pvddLow := false } }) := by
    unfold pvddRise
    exact if_neg (by simp [h])
  have hup (k : Nat) (s : State) : ∃ m, up k s = { s with ana := { s.ana with amp := m } } := by
    unfold up
    split <;> exact ⟨_, rfl⟩
  have hself (k : Nat) (s : State) : ampGet k (up k s)
      = if (ampGet k s).off then ampGet k s else { ampGet k s with off := true, resume := true } := by
    unfold up
    split
    · rfl
    · exact ampGet_ampSet_self ..
  have hother (j k : Nat) (s : State) (h : j ≠ k) : ampGet j (up k s) = ampGet j s := by
    unfold up
    split
    · rfl
    · exact ampGet_ampSet_of_ne h ..
  rw [e]
  refine ⟨?_, ?_, fun k hk => ?_⟩
  · obtain ⟨m, hm⟩ := hup 0 { s with ana := { s.ana with pvddLow := false } }
    obtain ⟨n, hn⟩ := hup 1 (up 0 { s with ana := { s.ana with pvddLow := false } })
    rw [hn, hm]
    exact ⟨_, rfl⟩
  · obtain ⟨m, hm⟩ := hup 0 { s with ana := { s.ana with pvddLow := false } }
    obtain ⟨n, hn⟩ := hup 1 (up 0 { s with ana := { s.ana with pvddLow := false } })
    rw [hn, hm]
  · obtain rfl | rfl : k = 0 ∨ k = 1 := by omega
    · rw [hother 0 1 _ (by decide), hself]; rfl
    · rw [hself, hother 1 0 _ (by decide)]; rfl

/-- AMP.CMD.CLEAR (R479). -/
theorem exec_ampClear {m : Nat} {s : State} (hm : m < 5) (hs : Serves m 0x10100010 true s) :
    exec (.ampClear m) s = .next (ampClear (instOf 0x10100010 m s) (answered m s)) := by
  refine withInstance_next.mpr ⟨hm, ?_⟩
  rw [busWrite_wo hs (by decide) (by decide)]
  rfl

/-- Settles O54: a stage's pulses and waits, CLEAR, and the supply. -/
theorem amplifiers : Obligations.Amplifiers := by
  refine ⟨fun s k hk => ?stage, fun s m hm hs => ?clear, fun s => ?supply⟩
  case stage =>
    intro a
    refine ⟨fun previous hd => ?limit, fun hd previous => withInstance_next.mpr ⟨hk, (if_pos (by simp [hd])).symm⟩,
      fun hw => withInstance_next.mpr ⟨hk, (if_pos hw).symm⟩, fun hr hp => ?resume,
      fun hd => withInstance_next.mpr ⟨hk, (if_pos hd).symm⟩, fun mV hsrc => ?dc⟩
    case resume => exact withInstance_next.mpr ⟨hk, (if_pos (by rw [show (ampGet k s).resume = true from hr, hp]; rfl)).symm⟩
    case limit =>
      intro n
      have e := ampLimit_eq hd previous
      refine ⟨fun hn => ⟨_, withInstance_next.mpr ⟨hk, rfl⟩, ?_⟩, fun hn => ⟨_, withInstance_next.mpr ⟨hk, rfl⟩, ?_⟩⟩
      · rw [e, if_pos hn]
        refine ⟨?_, ampGet_ampSet_self .., by rw [ampSet_ev, count_ev]⟩
        unfold Counts
        rw [cget_ampSet, cget_count_self]
      · rw [e, if_neg (Nat.not_lt.mpr hn)]
        obtain ⟨h18, h1C⟩ := trippedAt_counts hk s
        by_cases hretry : bit 4 (rget 0x10100008 k s) = true ∧ a.tries < 3
        · rw [if_pos (by rw [rget_trippedAt, hretry.1, decide_eq_true hretry.2]; rfl)]
          refine ⟨h18, h1C, fun _ _ => ⟨trippedAt_rings k s, ampGet_ampSet_self ..⟩, fun h => ?_⟩
          rcases h with h | h
          · exact absurd (h.symm.trans hretry.1) (by decide)
          · omega
        · rw [if_neg (by rw [rget_trippedAt]; simpa using hretry), ampLatch_eq, ampGet_trippedAt]
          obtain ⟨c18, c1C⟩ := counts_of_event hk ⟨h18, h1C⟩ 0x72 k (latchedAmp (trippedAmp a))
          refine ⟨c18, c1C, fun hb ht => absurd ⟨hb, ht⟩ hretry, fun _ => ⟨?_, ?_, ?_⟩⟩
          · exact eseq_raise_raise 0x71 0x72 k k (ampSet k _) (trippingAt_ev k s) (fun _ => rfl)
          · exact pend_raise_raise (by decide) (by decide) k k (ampSet k _) (trippingAt_ev k s) (fun _ => rfl)
          · rw [ampGet_raise, ampGet_ampSet_self]
            rfl
    case dc =>
      have e := ampDc_eq hsrc mV
      refine ⟨fun h => withInstance_next.mpr ⟨hk, ?_⟩, fun h h0 => withInstance_next.mpr ⟨hk, ?_⟩,
        fun h h1 hl => ⟨_, withInstance_next.mpr ⟨hk, rfl⟩, ?_⟩⟩
      · rw [e, if_neg (by omega : ¬2000 < mV.natAbs)]
        rfl
      · rw [e, if_pos h, show (ampGet k s).dcRun = 0 from h0]
        rfl
      · have hn : (decide (2 ≤ (ampGet k s).dcRun + 1) && !(ampGet k s).latched) = true := by
          rw [show (ampGet k s).latched = false from hl, decide_eq_true (Nat.succ_le_succ h1)]
          rfl
        simp only [e, if_pos h, hn, if_true, ampLatch_eq, ampGet_ampSet_self]
        refine ⟨?_, ?_, ?_⟩
        · simp [latchedAmp, a]
        · exact eseq_raise_raise 0x72 0x73 k k id rfl (fun _ => rfl)
        · exact pend_raise_raise (by decide) (by decide) k k id rfl (fun _ => rfl)
  case clear =>
    intro k
    rw [exec_ampClear hm hs]
    rfl
  case supply =>
    refine ⟨rfl, fun h => congrArg Host.Outcome.next (if_pos (by simp [h])), fun h => ⟨_, rfl, ?_⟩⟩
    obtain ⟨⟨x, hx⟩, hlow, hamp⟩ := pvddRise_amp h
    exact ⟨by rw [hx], hlow, hamp⟩

end Sys2Proof.Machine
end

section
/-!
SUPPORT. The staged set: what enters it, its requests and its discard (chapter 04).
-/
namespace Sys2Proof.Machine

/-! ### The mirror of the staged set -/

/-- A frame of the reliable stream waits for its acknowledgement, or is lost with the link. -/
theorem linkSend_queued {type : Nat} (h : isReliable type = true) (l : List Nat) (s : State) : ∃ q n,
    linkSend type l s = { s with twin := { s.twin with txq := q, txSeq := n } } := by
  unfold linkSend
  rw [if_pos h]
  split <;> exact ⟨_, _, rfl⟩

/-- The state with this open set. -/
def withOpen (o : Staged) (s : State) : State := { s with mx := { s.mx with open_ := o } }

theorem mirrorEntry_queued (e : List Nat) (o : Staged) (s : State) : ∃ b q n, mirrorEntry e (withOpen o s)
    = { s with mx := { s.mx with open_ := { o with bytes := b } }, twin := { s.twin with txq := q, txSeq := n } } := by
  unfold mirrorEntry
  dsimp only
  split
  · obtain ⟨q, n, h⟩ := linkSend_queued (type := 0x11) (by decide) e
      { withOpen o s with mx := { (withOpen o s).mx with open_ := { (withOpen o s).mx.open_ with bytes := o.bytes ++ e } } }
    exact ⟨_, _, _, h⟩
  · exact ⟨_, _, _, rfl⟩

/-- An entry of the set is staged with its mirror entry. -/
theorem staging_mirrorEntry (e : List Nat) (o : Staged) (m : Nat) (s : State) :
    Staging o m s (mirrorEntry e (withOpen o (answered m s))) := by
  obtain ⟨b, q, n, h⟩ := mirrorEntry_queued e o (answered m s)
  rw [h]
  rfl

/-! ### What enters the set -/

theorem stageKey_full {s : State} (h : 16384 ≤ s.mx.open_.regCount) (key v : Nat) (e : List Nat) :
    stageKey key v e s = overflowSet s := if_pos h

theorem stageKey_room {s : State} (h : s.mx.open_.regCount < 16384) (key v : Nat) (e : List Nat) : stageKey key v e s
    = mirrorEntry e (withOpen { s.mx.open_ with
        regs := upsert key v s.mx.open_.regs, regCount := s.mx.open_.regCount + 1 } s) := if_neg (by omega)

theorem stageKf_full {s : State} (h : 64 ≤ s.mx.open_.kfs.length) (rec : List Nat) : stageKf rec s = overflowSet s := if_pos h

theorem stageKf_room {s : State} (h : s.mx.open_.kfs.length < 64) (rec : List Nat) : stageKf rec s
    = mirrorEntry ([3, 0, 0, 0] ++ rec) (withOpen { s.mx.open_ with kfs := s.mx.open_.kfs ++ [rec] } s) := if_neg (by omega)

theorem stageNodes_full {s : State} (h : 262144 ≤ s.mx.open_.nodeCount) (w : Nat) : (stageNodes [w] s).2 = overflowSet s := by
  have hr : 262144 - s.mx.open_.nodeCount = 0 := by omega
  unfold stageNodes
  simp [hr]

theorem stageNodes_room {s : State} (h : s.mx.open_.nodeCount < 262144) (w : Nat) : (stageNodes [w] s).2
    = mirrorEntry ([2, 0] ++ beBytes 2 1 ++ beBytes 8 w) (withOpen { s.mx.open_ with
        nodes := upsertNode w s.mx.open_.nodes, nodeCount := s.mx.open_.nodeCount + 1 } s) := by
  obtain ⟨n, hn⟩ : ∃ n, 262144 - s.mx.open_.nodeCount = n + 1 := ⟨262144 - s.mx.open_.nodeCount - 1, by omega⟩
  unfold stageNodes
  simp [hn]
  rfl

/-! ### Writes of FX registers -/

@[simp] theorem takesOwn_answered (m : Nat) (s : State) : takesOwn (answered m s) = takesOwn s := rfl

/-- A write that the interconnect performs, of an FX register whose clock runs or whose instance has no function. -/
theorem busWrite_fx {m a : Nat} {s : State} (ha : accOf a = .fx) (hm : masterActive m s = true)
    (hr : busRefused m a true s = none) (hg : gated a m s = false ∨ fxInstance a (instOf a m s) s = false) (v : Word) :
    busWrite m a v.toNat s = fxWrite m a (instOf a m s) v.toNat (answered m s) := by
  obtain ⟨hl, hu⟩ := accOf_range (a := a) (by simp [ha])
  have e : busWrite m a v.toNat s = regWrite m a v.toNat (answered m s) := by
    have ht := targetOf_register (bit 0 (rget 0x10000300 0 (answered m s))) hl hu
    unfold busWrite
    simp only [hm, hr, Nat.mod_eq_of_lt v.isLt, Bool.not_true, Bool.false_eq_true, if_false]
    rcases ht with h | h <;> simp only [answered] at h ⊢ <;> rw [h]
  rw [e]
  unfold regWrite
  have hf : fxInstance a (instOf a m s) (answered m s) = fxInstance a (instOf a m s) s := rfl
  simp only [gated_answered, instOf_answered, hf, ha, decide_true, Bool.true_and, Bool.not_not]
  exact if_neg (by rcases hg with h | h <;> simp [h])

theorem busWrite_fx_served {m a : Nat} {s : State} (h : Serves m a true s) (ha : accOf a = .fx) (v : Word) :
    busWrite m a v.toNat s = fxWrite m a (instOf a m s) v.toNat (answered m s) :=
  busWrite_fx ha h.1 h.2.1 (.inl h.2.2) v

/-- An FX register with no row of its own is staged as it is written (R153). -/
theorem fxWrite_staged {m a : Nat} (h : a ∉ [0x1007002C, 0x100500B8, 0x10090030]) (i v : Nat) {s : State}
    (ht : takesOwn s = true) : fxWrite m a i v s = stageReg a i v s := by
  simp only [List.mem_cons, List.not_mem_nil, or_false, not_or] at h
  obtain ⟨hn, hk, hc⟩ := h
  unfold fxWrite
  have e : (if a = 0x100500B8 ∧ bit 0 v then kfPush s else s) = s := if_neg (fun h => hk h.1)
  rw [if_neg (by simp [ht]), if_neg hn, if_neg hk, if_neg hc, e, ite_self]

theorem fxWrite_dropped {s : State} (h : takesOwn s = false) (m a i v : Nat) : fxWrite m a i v s = s := if_pos (by simp [h])

/-- The word of a keyframe register as the open set has it, or as it is in effect. -/
theorem kfPush_eq (s : State) : kfPush s = stageKf (((List.range 10).map (fun j => beBytes 4
    (((s.mx.open_.regs.find? (fun e => decide (e.1 = rkey (0x10050090 + 4 * j) 0))).map Prod.snd).getD
      (rget (0x10050090 + 4 * j) 0 s)))).flatten) s := by
  unfold kfPush
  dsimp only
  congr 3
  funext j
  congr 1
  cases s.mx.open_.regs.find? (fun e => decide (e.1 = rkey (0x10050090 + 4 * j) 0)) <;> rfl

/-- Settles O33: the three rows are served writes of their FX registers. -/
theorem fxWrites : Obligations.FxWrites := by
  intro m s hm o
  refine ⟨fun addr v ha hn hact href hg => ?reg, fun v hs => ?node, fun hs => ?kf⟩
  case reg =>
    have e : exec (.fxRegisterWrite m addr v) s = .next (fxWrite m addr.toNat (instOf addr.toNat m s) v.toNat (answered m s)) := by
      refine withInstance_next.mpr ⟨hm, ?_⟩
      unfold fxRow
      rw [if_pos ha, busWrite_fx ha hact href hg]
    refine ⟨fun ht => e.trans (congrArg Host.Outcome.next (fxWrite_dropped (by rw [takesOwn_answered, ht]) ..)), fun ht hf => ?_, fun ht hr => ⟨_, e, ?_⟩⟩
    · rw [e, fxWrite_staged hn _ _ ((takesOwn_answered m s).trans ht)]
      exact congrArg Host.Outcome.next (stageKey_full (s := answered m s) hf ..)
    · rw [fxWrite_staged hn _ _ ((takesOwn_answered m s).trans ht)]
      unfold stageReg
      rw [stageKey_room (s := answered m s) hr]
      exact staging_mirrorEntry ..
  case node =>
    intro w
    have e : exec (.nodeGainWrite m v) s = .next (fxWrite m 0x1007002C (instOf 0x1007002C m s) v.toNat (answered m s)) :=
      withInstance_next.mpr ⟨hm, (busWrite_fx_served hs (by decide) v).symm⟩
    have hw (ht : takesOwn s = true) : fxWrite m 0x1007002C (instOf 0x1007002C m s) v.toNat (answered m s)
        = (stageNodes [w] (answered m s)).2 := (if_neg (by simp [ht])).trans (if_pos rfl)
    refine ⟨fun ht => e.trans (congrArg Host.Outcome.next (fxWrite_dropped (by rw [takesOwn_answered, ht]) ..)), fun ht hf => ?_, fun ht hr => ⟨_, e, ?_⟩⟩
    · rw [e, hw ht]
      exact congrArg Host.Outcome.next (stageNodes_full (s := answered m s) hf ..)
    · rw [hw ht, stageNodes_room (s := answered m s) hr]
      exact staging_mirrorEntry ..
  case kf =>
    intro word
    have e : exec (.kfPush m) s = .next (fxWrite m 0x100500B8 (instOf 0x100500B8 m s) 1 (answered m s)) :=
      withInstance_next.mpr ⟨hm, (busWrite_fx_served hs (by decide) 1#32).symm⟩
    have hw (ht : takesOwn s = true) : fxWrite m 0x100500B8 (instOf 0x100500B8 m s) 1 (answered m s) = kfPush (answered m s) :=
      (if_neg (by simp [ht])).trans rfl
    refine ⟨fun ht => e.trans (congrArg Host.Outcome.next (fxWrite_dropped (by rw [takesOwn_answered, ht]) ..)), fun ht hf => ?_, fun ht hr => ⟨_, e, ?_⟩⟩
    · rw [e, hw ht, kfPush_eq]
      exact congrArg Host.Outcome.next (stageKf_full (s := answered m s) hf ..)
    · rw [hw ht, kfPush_eq, stageKf_room (s := answered m s) hr]
      exact staging_mirrorEntry ..

/-! ### Requests and discards -/

@[simp] theorem slotGet_slotSet_self (i v s) : slotGet i (slotSet i v s) = v := sget_sset_self ..
theorem slotGet_slotSet_of_ne {i j : Nat} (h : j ≠ i) (v s) : slotGet j (slotSet i v s) = slotGet j s := sget_sset_of_ne _ _ h ..

/-- A slot whose load is dropped. -/
def freed (x : Slot) : Slot := { x with committed := false, state := if x.state = 3 then 3 else 0 }

theorem freed_freed (x : Slot) : freed (freed x) = freed x := by
  unfold freed
  split <;> simp_all

/-- The slots of dropped loads, and nothing else, are freed. -/
theorem freeSlots_slots (l : List Nat) (s : State) : (∃ x, freeSlots l s = { s with slot := x })
    ∧ ∀ i, slotGet i (freeSlots l s) = if i ∈ l then freed (slotGet i s) else slotGet i s := by
  induction l generalizing s with
  | nil => exact ⟨⟨_, rfl⟩, fun i => rfl⟩
  | cons j l ih =>
    obtain ⟨⟨x, hx⟩, hi⟩ := ih (slotSet j (freed (slotGet j s)) s)
    refine ⟨⟨x, hx⟩, fun i => (hi i).trans ?_⟩
    by_cases hij : i = j
    · subst hij
      simp only [slotGet_slotSet_self, List.mem_cons, true_or, if_true, freed_freed, ite_self]
    · simp only [slotGet_slotSet_of_ne hij, List.mem_cons, hij, false_or]

/-- Settles O34. -/
theorem fixRequests : Obligations.FixRequests := by
  intro m s hm hs
  have run (v : Nat) (hv : v < 2 ^ 32) : busWrite m 0x10160018 v s = fixCommitWrite m v (answered m s) :=
    busWrite_wo hs (by decide) hv
  have drops (ht : takesOwn s = false) (v : Nat) : fixCommitWrite m v (answered m s) = answered m s := if_pos (by simp [ht])
  refine ⟨fun ht => ⟨withInstance_next.mpr ⟨hm, ?_⟩, withInstance_next.mpr ⟨hm, ?_⟩⟩, fun ht => ⟨withInstance_next.mpr ⟨hm, ?_⟩, ?_⟩⟩
  · rw [run 1 (by decide), drops ht]
  · rw [run 2 (by decide), drops ht]
  · rw [run 1 (by decide)]
    exact ((if_neg (by simp [ht])).trans rfl).symm
  · have e : fixCommitWrite m 2 (answered m s) = discardSet (answered m s) := (if_neg (by simp [ht])).trans rfl
    refine ⟨_, withInstance_next.mpr ⟨hm, (run 2 (by decide)).symm⟩, ?_⟩
    rw [e]
    obtain ⟨⟨x, hx⟩, hi⟩ := freeSlots_slots (commitsOf s.mx.open_) (withOpen Staged.empty (answered m s))
    have hsent : ∃ q n, discardSet (answered m s) = { freeSlots (commitsOf s.mx.open_) (withOpen Staged.empty (answered m s)) with
        twin := { s.twin with txq := q, txSeq := n } } := by
      unfold discardSet
      dsimp only
      split
      · obtain ⟨q, n, h⟩ := linkSend_queued (type := 0x11) (by decide) [6, 0, 0, 0]
          (freeSlots (commitsOf s.mx.open_) (withOpen Staged.empty (answered m s)))
        refine ⟨q, n, h.trans ?_⟩
        rw [hx]
        rfl
      · refine ⟨s.twin.txq, s.twin.txSeq, ?_⟩
        exact hx.trans (by rw [hx]; rfl)
    obtain ⟨q, n, hd⟩ := hsent
    have hslot (i : Nat) : slotGet i (discardSet (answered m s))
        = if i ∈ commitsOf s.mx.open_ then freed (slotGet i s) else slotGet i s := by
      rw [hd]
      exact hi i
    refine ⟨?_, fun i hn => (hslot i).trans (if_neg hn), fun i hn => (hslot i).trans (if_pos hn)⟩
    rw [hd, hx]
    rfl

end Sys2Proof.Machine
end

section
/-!
SUPPORT. Requests from their write to their act (chapters 01, 05, 07, 12).
-/
namespace Sys2Proof.Machine

/-! ### Asking -/

/-- A request waits where the unit takes requests and the named function exists (R32, R313). -/
theorem requestAsk_eq (k : ReqKind) (time : Option Nat) (s : State) : requestAsk k time s
    = if takesOwn s && reqTarget s k then { s with sched := { s.sched with
        reqWait := s.sched.reqWait
          ++ [⟨k, time, 0, 0, reqDirect s k, if reqDirect s k then period s else s.grid.block⟩] } }
      else s := by
  unfold requestAsk
  cases takesOwn s <;> cases reqTarget s k <;> rfl

/-- A served write of a request's register asks with the served state, which differs from the state in its answer only. -/
theorem busWrite_requestAsk {m a : Nat} {v : Word} {s : State} {k : ReqKind} {time : Option Nat} (h : Serves m a true s)
    (ha : accOf a = .wo) (hw : woWrite m a (instOf a m s) v.toNat (answered m s) = requestAsk k time (answered m s)) :
    busWrite m a v.toNat s = if takesOwn s && reqTarget s k then { answered m s with sched := { s.sched with
        reqWait := s.sched.reqWait
          ++ [⟨k, time, 0, 0, reqDirect s k, if reqDirect s k then period s else s.grid.block⟩] } }
      else answered m s := by
  rw [busWrite_wo h ha v.isLt, hw, requestAsk_eq]
  rfl

/-! ### Registering -/

/-- The relay of a request touches the twin link alone. -/
theorem relayReq_queued (k f t b p : Nat) (s : State) : ∃ q n,
    relayReq k f t b p s = { s with twin := { s.twin with txq := q, txSeq := n } } := by
  unfold relayReq
  split
  · exact linkSend_queued (by decide) ..
  · exact ⟨_, _, rfl⟩

@[simp] theorem relayReq_sched (k f t b p s) : (relayReq k f t b p s).sched = s.sched := by
  obtain ⟨q, n, h⟩ := relayReq_queued k f t b p s
  rw [h]

@[simp] theorem relayReq_ev (k f t b p s) : (relayReq k f t b p s).ev = s.ev := by
  obtain ⟨q, n, h⟩ := relayReq_queued k f t b p s
  rw [h]

@[simp] theorem reqPending_sched (k up s) : (reqPending k up s).sched = s.sched := by
  cases k <;> rfl

theorem dl1Enter_sched (r : Request) (s : State) : (dl1Enter r s).sched = { s.sched with
    dl1 := if s.sched.dl1.length < 1024 then s.sched.dl1 ++ [r] else s.sched.dl1 } := by
  unfold dl1Enter
  by_cases h : s.sched.dl1.length < 1024
  · rw [if_neg (by omega), if_pos h, reqPending_sched]
  · rw [if_pos (by omega), if_neg h, raiseTick_sched]

/-- A request that registers enters DL1 with its acting boundary (R32, R243). -/
theorem registerRequest_sched (r : Request) (s : State) : (registerRequest r s).sched = { s.sched with
    dl1 := if takesOwn s && decide (s.sched.dl1.length < 1024) then s.sched.dl1 ++ [reqTimed r s] else s.sched.dl1 } := by
  unfold registerRequest
  cases takesOwn s
  · rfl
  · simp only [Bool.not_true, Bool.false_eq_true, if_false, Bool.true_and, decide_eq_true_eq]
    split <;> simp only [relayReq_sched, dl1Enter_sched]

/-! ### Acting -/

theorem fixAct_none {s : State} (h : ∀ f ∈ s.mx.pending, s.grid.block < f.act) : fixAct s = s := by
  unfold fixAct
  have hf : s.mx.pending.filter (fun f => decide (f.act ≤ s.grid.block)) = [] := by
    refine List.filter_eq_nil_iff.mpr fun f hm => ?_
    have := h f hm
    simpa using this
  rw [hf]
  exact ite_self _

/-- The only due entry of DL1 acts, with no fix due before it. -/
theorem requestAct_one {r : Request} {s : State} (hr : s.grid.running = true) (hl : s.sched.dl1 = [r])
    (hd : dl1Due s r = true) (hf : ∀ f ∈ s.mx.pending, s.grid.block < f.act) : requestAct s
    = actRequest r (reqPending r.kind false { s with sched := { s.sched with dl1 := [] } }) := by
  unfold requestAct
  simp only [hr, fixAct_none hf, hl, List.filter_cons, hd, List.filter_nil, Bool.not_true, Bool.false_eq_true, if_false, if_true]
  rfl

@[simp] theorem actRequest_sched (r s) : (actRequest r s).sched = s.sched := by
  unfold actRequest
  dsimp only
  split
  · rfl
  · rfl
  · split <;> split <;> rfl

@[simp] theorem chGet_chSet_self (i v s) : chGet i (chSet i v s) = v := sget_sset_self ..
@[simp] theorem tgGet_tgSet_self (i v s) : tgGet i (tgSet i v s) = v := sget_sset_self ..

/-- Settles O37: each row asks with its fields, one entry registers, one acts. -/
theorem requests : Obligations.Requests := by
  intro m v s hm at_ asks
  refine ⟨fun h => ?mute, fun h => ?hold, fun h => ?pause, fun r hr hw hd => ?register, fun r hr hl hd hf => ?act⟩
  case mute => exact withInstance_next.mpr ⟨hm, (busWrite_requestAsk h (by decide) rfl).symm⟩
  case hold => exact withInstance_next.mpr ⟨hm, (busWrite_requestAsk h (by decide) rfl).symm⟩
  case pause => exact withInstance_next.mpr ⟨hm, (busWrite_requestAsk h (by decide) rfl).symm⟩
  case register =>
    have e : requestRegister s = registerRequest r { s with sched := { s.sched with reqWait := [] } } := by
      unfold requestRegister
      simp only [hr, hw, List.filter_cons, hd, List.filter_nil, Bool.not_true, Bool.false_eq_true, if_false, if_true]
      rfl
    refine ⟨_, rfl, ?_, fun hn ht => ?_⟩
    · rw [e, registerRequest_sched]
      rfl
    · unfold reqTimed blockFor
      simp only [hn, ht, Bool.false_eq_true, if_false]
  case act =>
    refine ⟨_, rfl, ?_⟩
    rw [requestAct_one hr hl hd hf]
    refine ⟨by rw [actRequest_sched, reqPending_sched], fun sel mute code hk => ?_, fun p hiz hk => ?_, fun p hiz hk => ?_,
      fun g hk hrun hp => ?_, fun g hk hp => ?_⟩
    · unfold actRequest reqPending
      simp only [hk]
      have e : chGet sel { s with sched := { s.sched with dl1 := [] } } = chGet sel s := rfl
      exact ⟨rfl, by simp [e]⟩
    · unfold actRequest reqPending
      simp only [hk]
      rfl
    · unfold actRequest reqPending
      simp only [hk]
      rfl
    · have e : tgGet g { s with sched := { s.sched with dl1 := [] } } = tgGet g s := rfl
      unfold actRequest reqPending
      simp [hk, e, hrun, hp]
    · have e : tgGet g { s with sched := { s.sched with dl1 := [] } } = tgGet g s := rfl
      unfold actRequest reqPending
      simp [hk, e, hp]

/-! ### The stop bath's requests -/

@[simp] theorem fnGet_fnSet_self (k i v s) : fnGet k i (fnSet k i v s) = v := sget_sset_self ..

/-- A reply leaves the scheduler, the events and every counter but that of dropped frames. -/
theorem replyIf_frame (r : Option ReplyTo) (st : Nat) (p : List Nat) (s : State) : (replyIf r st p s).sched = s.sched
    ∧ (replyIf r st p s).ev = s.ev ∧ cget 0x10040060 0 (replyIf r st p s) = cget 0x10040060 0 s := by
  cases r with
  | none => exact ⟨rfl, rfl, rfl⟩
  | some r =>
    unfold replyIf reply replySend spiReply dropFrame
    dsimp only
    split
    · split
      · exact ⟨rfl, rfl, cget_count_of_ne (by decide) ..⟩
      · exact ⟨rfl, rfl, rfl⟩
    · exact ⟨rfl, rfl, rfl⟩

theorem stopCmdWrite_stop (m : Nat) (timed : Bool) (s : State) : stopCmdWrite m (1 + bitIf timed 31) s
    = if takesOwn s then stopAsk false (rget 0x10040040 m s)
        (if timed then some (rget 0x10040044 m s + rget 0x10040048 m s * 2 ^ 32) else none) none s else s := by
  unfold stopCmdWrite
  cases takesOwn s <;> cases timed <;> rfl

theorem stopCmdWrite_start (m : Nat) (timed : Bool) (s : State) : stopCmdWrite m (2 + bitIf timed 31) s
    = if takesOwn s then stopAsk true (rget 0x10040040 m s)
        (if timed then some (rget 0x10040044 m s + rget 0x10040048 m s * 2 ^ 32) else none) none s else s := by
  unfold stopCmdWrite
  cases takesOwn s <;> cases timed <;> rfl

theorem bitIf_word (b : Bool) : 2 + bitIf b 31 < 2 ^ 32 := by cases b <;> decide

/-- A pending START of the function among the entries of DL3 is the one that has just entered (R259). -/
theorem pendingStart_entered {k i : Nat} {s : State} {d : List StopReq} {r : StopReq} (hd : s.sched.dl3 = d ++ [r])
    (hn : ∀ x ∈ d, x.start = true → ¬(x.kind = k ∧ x.index = i)) (hk : r.kind = k) (hi : r.index = i) :
    pendingStart k i s = if (fnGet k i s).st ≠ 0 ∧ r.start = true ∧ (fnGet k i s).act < r.act then some r else none := by
  unfold pendingStart
  dsimp only
  by_cases h0 : (fnGet k i s).st = 0
  · rw [if_pos h0, if_neg (fun h => h.1 h0)]
  rw [if_neg h0, hd, List.find?_append, List.find?_eq_none.mpr]
  · by_cases h : r.start = true ∧ (fnGet k i s).act < r.act
    · rw [if_pos ⟨h0, h⟩]
      simp [hk, hi, h]
    · rw [if_neg (fun c => h c.2)]
      simp only [not_and_or] at h
      rcases h with h | h <;> simp [h]
  · intro x hx
    have := hn x hx
    cases hs : x.start
    · simp
    · simp only [hs, true_implies] at this
      simp only [Bool.true_and, Bool.and_eq_true, decide_eq_true_eq, not_and]
      exact fun h => absurd h this

/-- The state in which the request stands in DL3 with its acting block. -/
def entered (r : StopReq) (s : State) : State :=
  { s with sched := { s.sched with stopWait := [], dl3 := s.sched.dl3 ++ [r] } }

theorem fnGet_congr {s t : State} (h : t.sched = s.sched) (k i : Nat) : fnGet k i t = fnGet k i s := by
  unfold fnGet
  rw [h]

/-- A stop that stands in DL3 makes a running function PENDING_STOP. -/
theorem fnAsked_stop {r : StopReq} {s : State} (hs : r.start = false)
    (hn : ∀ x ∈ s.sched.dl3, x.start = true → ¬(x.kind = r.kind ∧ x.index = r.index)) : fnAsked r (entered r s)
    = if (fnGet r.kind r.index s).st = 0 then
        fnSet r.kind r.index { fnGet r.kind r.index s with st := 1, act := r.act } (entered r s)
      else entered r s := by
  have none_pending {u : State} (h : u.sched.dl3 = s.sched.dl3 ++ [r]) : fnReview r.kind r.index u = u := by
    have p := pendingStart_entered h hn rfl rfl
    rw [if_neg (by simp [hs])] at p
    unfold fnReview
    rw [p]
  unfold fnAsked
  rw [show fnGet r.kind r.index (entered r s) = fnGet r.kind r.index s from rfl]
  simp only [hs, Bool.not_false, Bool.true_and, decide_eq_true_eq]
  refine none_pending ?_
  split <;> rfl

/-- A START that stands in DL3 is judged by the function's state. -/
theorem fnAsked_start {r : StopReq} {s : State} (hs : r.start = true) :
    fnAsked r (entered r s) = fnReview r.kind r.index (entered r s) := by
  unfold fnAsked
  simp [hs]

theorem fnReview_none {k i : Nat} {s : State} (h : pendingStart k i s = none) : fnReview k i s = s := by
  unfold fnReview
  rw [h]

theorem fnReview_wait {k i : Nat} {p : StopReq} {s : State} (h : pendingStart k i s = some p)
    (h4 : (fnGet k i s).st ≠ 4) (hd : 1 ≤ (fnGet k i s).st → (fnGet k i s).st ≤ 3 → (fnGet k i s).act + 2 ≤ p.act) :
    fnReview k i s = s := by
  unfold fnReview
  dsimp only
  rw [h]
  refine (if_neg h4).trans (if_neg ?_)
  simp only [Bool.and_eq_true, decide_eq_true_eq, not_and]
  exact fun a => by have := hd a.1 a.2; omega

theorem fnReview_idle {k i : Nat} {p : StopReq} {s : State} (h : pendingStart k i s = some p)
    (h4 : (fnGet k i s).st = 4) : fnReview k i s = fnSet k i { fnGet k i s with st := 5 } s := by
  unfold fnReview
  dsimp only
  rw [h]
  exact if_pos h4

/-- A START that would act before the function is IDLE is deferred (R259). -/
theorem fnReview_defer {k i : Nat} {p : StopReq} {s : State} (h : pendingStart k i s = some p) (h1 : 1 ≤ (fnGet k i s).st)
    (h3 : (fnGet k i s).st ≤ 3) (hd : p.act < (fnGet k i s).act + 2) : fnReview k i s
    = raiseTick 0x35 i (fnSet k i { fnGet k i s with deferred := true } { s with sched := { s.sched with
        dl3 := s.sched.dl3.map (fun x => if x = p then { p with act := (fnGet k i s).act + 2 } else x) } }) := by
  unfold fnReview
  dsimp only
  rw [h]
  refine (if_neg (by omega)).trans (if_pos ?_)
  simp [h1, h3, hd]

theorem rings_raiseTick {code : Nat} (h : code < 256) (arg : Nat) (s : State) : Rings code s (raiseTick code arg s) :=
  ⟨raiseTick_eseq .., by rw [raiseTick_pend, Nat.mod_eq_of_lt h]⟩

/-- The state in which no stop-bath request waits. -/
def noneWaiting (s : State) : State := { s with sched := { s.sched with stopWait := [] } }

theorem stopRegister_one {r : StopReq} {s : State} (hr : s.grid.running = true) (hw : s.sched.stopWait = [r])
    (hg : r.got < s.grid.block) : stopRegister s = registerStop r (noneWaiting s) := by
  unfold stopRegister
  simp only [hr, hw, List.filter_cons, hg, List.filter_nil, Bool.not_true, Bool.false_eq_true, if_false, if_true, decide_true]
  rfl

/-- A request whose function exists enters DL3, is relayed and answered. -/
theorem registerStop_entered {r : StopReq} {s : State} (ht : takesOwn s = true) (hx : fnExists r.kind r.index s = true)
    (hl : s.sched.dl3.length < 1024) {a : Nat} (ha : blockFor s (fnOff r.kind r.index s) s.grid.block r.time = a) :
    (registerStop r (noneWaiting s)).sched = (fnAsked { r with act := a } (entered { r with act := a } s)).sched
    ∧ (registerStop r (noneWaiting s)).ev = (fnAsked { r with act := a } (entered { r with act := a } s)).ev := by
  have e1 : takesOwn (noneWaiting s) = true := ht
  have e2 : fnExists r.kind r.index (noneWaiting s) = true := hx
  have e3 : ¬1024 ≤ (noneWaiting s).sched.dl3.length := Nat.not_le.mpr hl
  have e4 : blockFor (noneWaiting s) (fnOff r.kind r.index (noneWaiting s)) (noneWaiting s).grid.block r.time = a := ha
  unfold registerStop
  simp only [e1, e2, e3, e4, Bool.not_true, Bool.false_eq_true, if_false]
  refine ⟨(replyIf_frame ..).1.trans ?_, (replyIf_frame ..).2.1.trans ?_⟩
  · rw [relayReq_sched]
    rfl
  · rw [relayReq_ev]
    rfl

@[simp] theorem fnReview_stopWait (k i s) : (fnReview k i s).sched.stopWait = s.sched.stopWait := by
  unfold fnReview
  dsimp only
  split
  · rfl
  · split
    · rfl
    · split
      · rw [raiseTick_sched]
        rfl
      · rfl

theorem fnAsked_stopWait (r s) : (fnAsked r (entered r s)).sched.stopWait = [] := by
  unfold fnAsked
  rw [fnReview_stopWait]
  split <;> rfl

theorem registerStop_free {r : StopReq} {s : State} (h : takesOwn s = false) :
    (registerStop r (noneWaiting s)).sched = (noneWaiting s).sched := by
  have e : registerStop r (noneWaiting s) = replyIf r.reply 1 [] (noneWaiting s) :=
    if_pos (by rw [show takesOwn (noneWaiting s) = false from h]; rfl)
  rw [e, (replyIf_frame ..).1]

/-- A refused request is counted and reported. -/
theorem refused_frame (r : Option ReplyTo) (code arg st : Nat) (p : List Nat) (s : State) :
    let t := replyIf r st p (raiseTick code arg (count 0x10040060 0 1 s))
    t.sched = s.sched ∧ cget 0x10040060 0 t = min (cget 0x10040060 0 s + 1) 0xFFFFFFFF
      ∧ t.ev.eseq = (s.ev.eseq + 1) % 2 ^ 32 := by
  obtain ⟨hs, he, hc⟩ := replyIf_frame r st p (raiseTick code arg (count 0x10040060 0 1 s))
  refine ⟨by rw [hs, raiseTick_sched, count_sched], ?_, by rw [he, raiseTick_eseq, count_ev]⟩
  rw [hc]
  unfold raiseTick
  rw [cget_raiseAt (by decide)]
  exact cget_count_self ..

theorem registerStop_unknown {r : StopReq} {s : State} (ht : takesOwn s = true) (hx : fnExists r.kind r.index s = false) :
    ∃ st p, registerStop r (noneWaiting s) = replyIf r.reply st p (raiseTick 0x33 r.index (count 0x10040060 0 1 (noneWaiting s))) := by
  have e1 : takesOwn (noneWaiting s) = true := ht
  have e2 : fnExists r.kind r.index (noneWaiting s) = false := hx
  unfold registerStop
  simp only [e1, e2, Bool.not_true, Bool.false_eq_true, Bool.not_false, if_false, if_true]
  exact ⟨_, _, rfl⟩

theorem registerStop_full {r : StopReq} {s : State} (ht : takesOwn s = true) (hx : fnExists r.kind r.index s = true)
    (hl : 1024 ≤ s.sched.dl3.length) :
    ∃ st p, registerStop r (noneWaiting s) = replyIf r.reply st p (raiseTick 0x31 0 (count 0x10040060 0 1 (noneWaiting s))) := by
  have e1 : takesOwn (noneWaiting s) = true := ht
  have e2 : fnExists r.kind r.index (noneWaiting s) = true := hx
  have e3 : 1024 ≤ (noneWaiting s).sched.dl3.length := hl
  unfold registerStop
  simp only [e1, e2, e3, Bool.not_true, Bool.false_eq_true, if_false, if_true]
  exact ⟨_, _, rfl⟩

theorem registerStop_stopWait (r : StopReq) (s : State) : (registerStop r (noneWaiting s)).sched.stopWait = [] := by
  cases ht : takesOwn s
  · rw [registerStop_free ht]
    rfl
  cases hx : fnExists r.kind r.index s
  · obtain ⟨st, p, e⟩ := registerStop_unknown ht hx
    rw [e, (refused_frame ..).1]
    rfl
  by_cases hl : s.sched.dl3.length < 1024
  · rw [(registerStop_entered ht hx hl rfl).1]
    exact fnAsked_stopWait ..
  · obtain ⟨st, p, e⟩ := registerStop_full ht hx (Nat.le_of_not_lt hl)
    rw [e, (refused_frame ..).1]
    rfl

/-- The entry that is deferred, among those that stood before it. -/
theorem map_deferred {d : List StopReq} {p q : StopReq} (h : ∀ x ∈ d, x ≠ p) :
    (d ++ [p]).map (fun x => if x = p then q else x) = d ++ [q] := by
  rw [List.map_append, List.map_congr_left (f := fun x => if x = p then q else x) (g := id) (fun x hx => if_neg (h x hx)),
    List.map_id]
  simp

/-- Settles O38: a request asks with its fields; the only waiting one registers. -/
theorem stopRequests : Obligations.StopRequests := by
  intro m timed s hm target time asked
  refine ⟨fun h => ⟨withInstance_next.mpr ⟨hm, ?_⟩, withInstance_next.mpr ⟨hm, ?_⟩⟩, fun r hr hw hg => ⟨_, rfl, ?_⟩⟩
  · have hv : 1 + bitIf timed 31 < 2 ^ 32 := Nat.lt_of_succ_lt ((Nat.add_right_comm 1 _ 1).trans_lt (bitIf_word timed))
    rw [busWrite_wo h (by decide) hv]
    exact (stopCmdWrite_stop m timed (answered m s)).symm
  · rw [busWrite_wo h (by decide) (bitIf_word timed)]
    exact (stopCmdWrite_start m timed (answered m s)).symm
  rw [stopRegister_one hr hw hg]
  refine ⟨registerStop_stopWait .., registerStop_free, fun ht hx => ?_, fun ht hx hl => ?_⟩
  · obtain ⟨st, p, e⟩ := registerStop_unknown ht hx
    rw [e]
    exact refused_frame ..
  intro a f entered_
  obtain ⟨hsched, hev⟩ := registerStop_entered ht hx hl (a := a) rfl
  refine ⟨fun h => ?_, fun hn => ?_⟩
  · unfold a blockFor
    rw [h]
  rw [show entered_ = ((registerStop r (noneWaiting s)).sched.dl3 = s.sched.dl3 ++ [{ r with act := a }]) from rfl,
    fnGet_congr hsched, hsched]
  have hp (hs : r.start = true) := pendingStart_entered (s := entered { r with act := a } s) (r := { r with act := a })
    rfl hn rfl rfl
  refine ⟨fun hs => ?_, fun hs hf h4 => ?_, fun hs h4 hlt => ?_, fun hs h1 h3 hact => ?_⟩
  · rw [fnAsked_stop (r := { r with act := a }) hs hn]
    by_cases h0 : (fnGet r.kind r.index s).st = 0
    · rw [if_pos h0]
      exact ⟨rfl, (fnGet_fnSet_self ..).trans (if_pos h0).symm⟩
    · rw [if_neg h0]
      exact ⟨rfl, (if_neg h0).symm⟩
  · rw [fnAsked_start (r := { r with act := a }) hs]
    have same : fnReview r.kind r.index (entered { r with act := a } s) = entered { r with act := a } s := by
      by_cases hc : (fnGet r.kind r.index s).st ≠ 0 ∧ f.act < a
      · exact fnReview_wait ((hp hs).trans (if_pos ⟨hc.1, hs, hc.2⟩)) h4
          (fun h1 _ => (hf.resolve_left (by change (fnGet r.kind r.index s).st ≠ 0; omega)))
      · exact fnReview_none ((hp hs).trans (if_neg (fun c => hc ⟨c.1, c.2.2⟩)))
    rw [same]
    exact ⟨rfl, rfl⟩
  · have hs4 : (fnGet r.kind r.index s).st ≠ 0 := by change f.st ≠ 0; omega
    rw [fnAsked_start (r := { r with act := a }) hs, fnReview_idle ((hp hs).trans (if_pos ⟨hs4, hs, hlt⟩)) h4]
    exact ⟨rfl, fnGet_fnSet_self ..⟩
  · have hs4 : (fnGet r.kind r.index s).st ≠ 0 := by change f.st ≠ 0; omega
    have hlt : f.act < a := by omega
    have e := fnReview_defer ((hp hs).trans (if_pos ⟨hs4, hs, hlt⟩)) h1 h3 (show a < f.act + 2 by omega)
    obtain ⟨hseq, hpend⟩ := rings_raiseTick (code := 0x35) (by decide) r.index (fnSet r.kind r.index
      { f with deferred := true } { s with sched := { s.sched with
        stopWait := [], dl3 := (s.sched.dl3 ++ [{ r with act := a }]).map
          (fun x => if x = { r with act := a } then { r with act := f.act + 2 } else x) } })
    rw [fnAsked_start (r := { r with act := a }) hs] at hev ⊢
    rw [e] at hev ⊢
    refine ⟨⟨?_, ?_⟩, ?_, ?_⟩
    · rw [hev]
      exact hseq
    · rw [hev]
      exact hpend
    · rw [raiseTick_sched]
      refine map_deferred fun x hx h => hn x hx (h ▸ hs) ?_
      exact ⟨h ▸ rfl, h ▸ rfl⟩
    · rw [fnGet_congr (raiseTick_sched ..)]
      exact fnGet_fnSet_self ..

end Sys2Proof.Machine
end

section
/-!
SUPPORT. Timers of DL2, filter loads and deconvolution jobs (chapters 06, 07).
-/
namespace Sys2Proof.Machine

/-! ### Timers (R244) -/

/-- With no entry of DL0 and DL1 due, a timer acts on the state as it stands. -/
theorem requestAct_none {s : State} (hl : s.sched.dl1 = []) (hf : ∀ f ∈ s.mx.pending, s.grid.block < f.act) :
    requestAct s = s := by
  have e : { s with sched := { s.sched with dl1 := s.sched.dl1 } } = s := rfl
  rw [hl] at e
  unfold requestAct
  dsimp only
  rw [fixAct_none hf, hl]
  exact ite_eq_left_iff.mpr fun _ => e

theorem crossfadeEnd_of {k : Nat} {s : State} (hd : (convGet k s).xfDone = false)
    (ht : (convGet k s).xfAt + (convGet k s).xfLen ≤ (s.B : Int) * s.grid.block) :
    crossfadeEnd k s = convSet k { convGet k s with xfDone := true } s := by
  unfold crossfadeEnd
  simp only [hd, Bool.false_or, decide_eq_true_eq, not_lt.mpr ht, if_false]

theorem toneStart_of {k : Nat} {s : State} (ha : (tgGet k s).armed = true) (ht : (tgGet k s).m + 1 ≤ s.grid.block) :
    toneStart k s = tgSet k { tgGet k s with armed := false, running := true, phase := 0, inc := (tgPar s k).inc } s := by
  unfold toneStart
  simp only [ha, ht, decide_true, Bool.and_self, if_true]

theorem sweepStart_of {k : Nat} {s : State} (hr : (tgGet k s).running = true) (hm : (tgGet k s).mode = 2)
    (hp : (tgGet k s).pause ≠ 2) (hg : s.sched.tgRan ≤ s.grid.block) (h0 : 0 < toneRel s (tgGet k s))
    (h1 : toneRel s (tgGet k s) % max 1 ((tgPar s k).period * s.B : Nat) = 0) :
    sweepStart k s = tgSet k { tgGet k s with phase := 0, inc := (tgPar s k).inc } s := by
  unfold sweepStart
  dsimp only
  rw [if_pos]
  simp only [hr, hm, hp, hg, h0, h1, decide_true, Bool.and_self, ne_eq, not_false_eq_true]

theorem captureStart_of {s : State} (ha : s.cap.armed = true) (ht : s.cap.m0 ≤ s.grid.block) :
    captureStart s = { s with cap := { s.cap with armed := false, running := true } } := by
  unfold captureStart
  simp only [ha, ht, decide_true, Bool.and_self, if_true]

theorem captureEnd_of {e l : Nat} {s : State} (hr : s.cap.running = true) (hs : s.cap.stop = some e)
    (hl : s.cap.last = some l) (ht : e ≤ l + 1) :
    captureEnd s = { s with cap := { s.cap with running := false, done := true } } := by
  unfold captureEnd
  simp only [hr, hs, hl, ht, decide_true, Bool.and_self, if_true]

/-- Settles O42: each timer is its function of the state in which the due requests have acted. -/
theorem measuringEvents : Obligations.MeasuringEvents := by
  intro s k u par
  refine ⟨fun hk hd ht => ?_, fun hk ha ht => ?_, fun hk hr hm hp hg h0 h1 => ?_, fun ha ht => ?_, fun e l hr hs hl ht => ?_,
    fun _ hl hf => requestAct_none hl hf⟩
  · exact withInstance_next.mpr ⟨hk, (crossfadeEnd_of hd ht).symm⟩
  · exact withInstance_next.mpr ⟨hk, (toneStart_of ha ht).symm⟩
  · exact withInstance_next.mpr ⟨hk, (sweepStart_of hr hm hp hg h0 h1).symm⟩
  · exact congrArg Host.Outcome.next (captureStart_of ha ht)
  · exact congrArg Host.Outcome.next (captureEnd_of hr hs hl ht)

/-! ### Writes of DRAM -/

/-- `t` is `s` but for DRAM's bytes, the marks of its words and counters. -/
def DramOnly (s t : State) : Prop := ∃ d p w c n,
  t = { s with mem := { s.mem with dram := d, poison := p, writeBack := w }, bus := { s.bus with ctr := c, total := n } }

theorem DramOnly.refl (s : State) : DramOnly s s := ⟨_, _, _, _, _, rfl⟩

theorem DramOnly.trans {s t u : State} (h : DramOnly s t) (h' : DramOnly t u) : DramOnly s u := by
  obtain ⟨_, _, _, _, _, rfl⟩ := h
  obtain ⟨_, _, _, _, _, rfl⟩ := h'
  exact ⟨_, _, _, _, _, rfl⟩

theorem DramOnly.writeIn (a : Nat) (l : List Nat) (s : State) : DramOnly s (dramWriteIn a l s) := by
  unfold dramWriteIn
  split
  · exact .refl s
  · dsimp only
    split
    · exact ⟨_, _, _, _, _, rfl⟩
    · exact ⟨_, _, _, _, _, rfl⟩

theorem DramOnly.write (n a : Nat) (l : List Nat) (s : State) : DramOnly s (dramWrite n a l s) := by
  induction n generalizing a l s with
  | zero => exact .refl s
  | succ n ih =>
    rw [dramWrite]
    split
    · exact .refl s
    · exact (writeIn ..).trans (ih ..)

theorem DramOnly.put (a : Nat) (l : List Nat) (s : State) : DramOnly s (dramPut a l s) := .write ..

theorem dramWriteIn_mem {s t : State} (h : s.mem = t.mem) (a : Nat) (l : List Nat) :
    (dramWriteIn a l s).mem = (dramWriteIn a l t).mem := by
  have hr : dramReserved s a = dramReserved t a := by
    unfold dramReserved channelBytes
    rw [h]
  have hc : chanGet (channelOf a) s = chanGet (channelOf a) t := by
    unfold chanGet
    rw [h]
  unfold dramWriteIn
  dsimp only
  rw [hr, hc, h]
  split
  · exact h
  · split <;> rfl

/-- What a write leaves in DRAM depends on the memory alone. -/
theorem dramPut_mem {s t : State} (h : s.mem = t.mem) (a : Nat) (l : List Nat) : (dramPut a l s).mem = (dramPut a l t).mem := by
  unfold dramPut
  generalize l.length + 1 = n
  induction n generalizing a l s t with
  | zero => exact h
  | succ n ih =>
    rw [dramWrite, dramWrite]
    split
    · exact h
    · exact ih (dramWriteIn_mem h ..) ..

/-! ### Filter loads -/

theorem slotGet_congr {s t : State} (h : t.slot = s.slot) (i : Nat) : slotGet i t = slotGet i s := by
  unfold slotGet
  rw [h]

theorem mirrorEntry_frame (e : List Nat) (s : State) : (mirrorEntry e s).slot = s.slot ∧ (mirrorEntry e s).mem = s.mem := by
  obtain ⟨b, q, n, h⟩ := mirrorEntry_queued e s.mx.open_ s
  rw [show mirrorEntry e s = mirrorEntry e (withOpen s.mx.open_ s) from rfl, h]
  exact ⟨rfl, rfl⟩

/-- A slot that takes no load: it does not exist, its load is committed, or it is in use. -/
def slotBusy (i : Nat) (s : State) : Bool :=
  decide (s.img.slots ≤ i) || (slotGet i s).committed || decide ((slotGet i s).state = 3)

/-- The offset register moves on by a word. -/
def nextOffset (m : Nat) (s t : State) : State := rset 0x10090028 m ((rget 0x10090028 m s + 4) % 2 ^ 19) t

@[simp] theorem rget_nextOffset (m s t) : rget 0x10090028 m (nextOffset m s t) = (rget 0x10090028 m s + 4) % 2 ^ 19 :=
  rget_rset_self ..

@[simp] theorem slotGet_nextOffset (i m s t) : slotGet i (nextOffset m s t) = slotGet i t := rfl

@[simp] theorem mem_nextOffset (m s t) : (nextOffset m s t).mem = t.mem := rfl

@[simp] theorem slotGet_slotWrite (i off v s) : slotGet i (slotWrite i off v s) = { slotGet i s with state := 1 } :=
  slotGet_slotSet_self ..

@[simp] theorem mem_slotWrite (i off v s) : (slotWrite i off v s).mem = (dramPut (slotAddr s i + off) (leBytes 4 v) s).mem := rfl

theorem loadData_busy {m : Nat} {s : State} (h : slotBusy (rget 0x10090020 m s) s = true) (v : Nat) :
    loadData m v s = nextOffset m s (count 0x10090040 0 1 s) := if_pos h

theorem loadData_past {m : Nat} {s : State} (h : slotBusy (rget 0x10090020 m s) s = false)
    (ho : 262272 ≤ rget 0x10090028 m s) (v : Nat) : loadData m v s = nextOffset m s s :=
  (if_neg (Bool.eq_false_iff.mp h)).trans (if_pos ho)

theorem loadData_stored {m : Nat} {s : State} (h : slotBusy (rget 0x10090020 m s) s = false)
    (ho : rget 0x10090028 m s < 262272) (v : Nat) : ∃ e, loadData m v s
    = nextOffset m s (mirrorEntry e (slotWrite (rget 0x10090020 m s) (rget 0x10090028 m s) v s)) :=
  ⟨_, (if_neg (Bool.eq_false_iff.mp h)).trans (if_neg (Nat.not_le.mpr ho))⟩

/-! ### Deconvolution jobs -/

/-- The job ends with its status, which the descriptor takes. -/
def jobEnds (a status : Nat) (s : State) : State :=
  dramPut (a + 56) (leBytes 4 status) { s with deconv := { s.deconv with busy := false, done := true, status := status } }

/-- The status of a job at its end. -/
def jobStatus (saturated : Bool) (s : State) : Nat :=
  let d := descBytes s.deconv.desc s
  if !descOk d s then 3 else if !framesHeld d s then 4 else if saturated then 5 else 2

theorem deconvDone_ends {s : State} (h : s.deconv.busy = true) (shift : Nat) (saturated : Bool) :
    ∃ u, DramOnly s u ∧ deconvDone shift saturated s = jobEnds s.deconv.desc (jobStatus saturated s) u := by
  have hb : ¬(!s.deconv.busy) = true := by simp [h]
  by_cases hs : (decide (jobStatus saturated s = 3) || decide (jobStatus saturated s = 4)) = true
  · exact ⟨s, .refl s, (if_neg hb).trans (if_pos hs)⟩
  · exact ⟨_, .trans (.put ..) (.put ..), (if_neg hb).trans (if_neg hs)⟩

theorem jobEnds_frame {s u : State} (h : DramOnly s u) (a status : Nat) : let t := jobEnds a status u
    t.deconv = { s.deconv with busy := false, done := true, status := status }
      ∧ t = { s with deconv := t.deconv, mem := t.mem, bus := t.bus } ∧ t.mem.sram = s.mem.sram
      ∧ t.bus.regs = s.bus.regs := by
  unfold jobEnds
  obtain ⟨_, _, _, _, _, e⟩ := DramOnly.put (a + 56) (leBytes 4 status)
    { u with deconv := { u.deconv with busy := false, done := true, status := status } }
  obtain ⟨_, _, _, _, _, rfl⟩ := h
  rw [e]
  exact ⟨rfl, rfl, rfl, rfl⟩

/-- Settles O43: the load's word by its slot's state, the commit and the job by their rows. -/
theorem loadsAndJobs : Obligations.LoadsAndJobs := by
  intro m v s hm slot off busy
  refine ⟨fun h ht => ?data, fun h ht hr => ?commit, fun h => ?go, fun shift sat hb => ?done⟩
  case commit =>
    refine ⟨_, withInstance_next.mpr ⟨hm, (busWrite_fx_served h (by decide) 1#32).symm⟩, ?_⟩
    have e : fxWrite m 0x10090030 (instOf 0x10090030 m s) (1#32 : Word).toNat (answered m s) = stageCommit (rget 0x10090020 m s) (answered m s) := by
      unfold fxWrite
      rw [takesOwn_answered, ht]
      rfl
    rw [e]
    unfold stageCommit
    rw [stageKey_room (s := answered m s) hr]
    exact staging_mirrorEntry ..
  case go =>
    have e : exec (.deconvGo m) s = .next (deconvGo m 1 (answered m s)) :=
      withInstance_next.mpr ⟨hm, (busWrite_wo h (by decide) (by decide)).symm⟩
    intro a
    refine ⟨fun hb => e.trans (congrArg Host.Outcome.next (if_pos ?_)),
      fun hb => e.trans (congrArg Host.Outcome.next (if_neg ?_))⟩
    · rw [show (answered m s).deconv.busy = true from hb]
      rfl
    · rw [show (answered m s).deconv.busy = false from hb]
      decide
  case data =>
    have e : exec (.convLoadData m v) s = .next (loadData m v.toNat (answered m s)) := by
      refine withInstance_next.mpr ⟨hm, ?_⟩
      rw [busWrite_wo h (by decide) v.isLt]
      exact (if_pos ht).symm
    have hslot : slotBusy (rget 0x10090020 m (answered m s)) (answered m s) = busy := rfl
    refine ⟨_, e, ?_⟩
    by_cases hb : busy = true
    · rw [loadData_busy (hslot.trans hb)]
      refine ⟨rget_rset_self .., fun _ => ⟨rfl, ?_⟩, fun h => ?_, fun h => ?_⟩
      · exact cget_count_self ..
      · exact absurd hb (by rw [h]; decide)
      · exact absurd hb (by rw [h]; decide)
    have hb' := Bool.eq_false_iff.mpr hb
    by_cases ho : off < 262272
    · obtain ⟨l, el⟩ := loadData_stored (s := answered m s) (hslot.trans hb') ho v.toNat
      obtain ⟨hs, hmem⟩ := mirrorEntry_frame l (slotWrite (rget 0x10090020 m (answered m s))
        (rget 0x10090028 m (answered m s)) v.toNat (answered m s))
      rw [el]
      rw [rget_nextOffset, slotGet_nextOffset, mem_nextOffset, hmem, mem_slotWrite]
      refine ⟨rfl, fun h => absurd h hb, fun _ _ => ⟨?_, ?_⟩, fun _ h => absurd ho (Nat.not_lt.mpr h)⟩
      · exact (slotGet_congr hs _).trans (slotGet_slotWrite ..)
      · exact dramPut_mem (s := answered m s) (t := s) rfl ..
    · rw [loadData_past (hslot.trans hb') (Nat.le_of_not_lt ho)]
      exact ⟨rget_rset_self .., fun h => absurd h hb, fun _ h => absurd h ho, fun _ _ => ⟨rfl, rfl⟩⟩
  case done =>
    obtain ⟨u, hu, e⟩ := deconvDone_ends hb shift sat
    refine ⟨_, rfl, ?_⟩
    rw [e]
    exact jobEnds_frame hu ..

end Sys2Proof.Machine
end

section
/-!
SUPPORT. The flash, the NVM controller and the fault log (chapter 16).
-/
namespace Sys2Proof.Machine

/-! ### Consecutive values of a canonical store -/

theorem valuesAt_eq {α : Type} {d : α} (n k : Nat) {m : Sparse α} (h : Canon d m) (hk : ∀ c ∈ m, k ≤ c.1) :
    valuesAt d n k m = (List.range n).map (fun i => sget d (k + i) m) := by
  induction n generalizing k m with
  | zero => rfl
  | succ n ih =>
    have step (v : α) (t : Sparse α) (ht : Canon d t) (hlt : ∀ c ∈ t, k + 1 ≤ c.1) (hv : sget d k m = v)
        (hr : ∀ i, sget d (k + (i + 1)) m = sget d (k + (i + 1)) t) :
        v :: valuesAt d n (k + 1) t = (List.range (n + 1)).map (fun i => sget d (k + i) m) := by
      rw [ih _ ht hlt, List.range_succ_eq_map, List.map_cons, List.map_map]
      refine congrArg₂ _ hv.symm (List.map_congr_left fun i _ => ?_)
      rw [Function.comp_apply, hr, show k + 1 + i = k + (i + 1) by omega]
    cases m with
    | nil => exact step d [] (canon_nil d) (by simp) rfl (fun _ => rfl)
    | cons c t =>
      rw [valuesAt]
      obtain ⟨hlt, _, ht⟩ := canon_cons.mp h
      have hc := hk c (by simp)
      by_cases he : c.1 = k
      · rw [if_pos he]
        refine step c.2 t ht (fun e hm => ?_) (by rw [sget, if_pos he]) (fun i => by rw [sget, if_neg (by omega)])
        have := hlt e hm
        omega
      · rw [if_neg he]
        refine step d (c :: t) h (fun e hm => ?_) ?_ (fun _ => rfl)
        · rcases List.mem_cons.mp hm with rfl | hm
          · omega
          · have := hlt e hm
            omega
        · refine sget_absent _ _ _ fun e hm => ?_
          rcases List.mem_cons.mp hm with rfl | hm
          · exact he
          · have := hlt e hm
            omega

/-- The cells of a canonical store from a key on are those that it lists at or after it. -/
theorem dropWhile_eq_filter {α : Type} {d : α} (k : Nat) {m : Sparse α} (h : Canon d m) :
    m.dropWhile (fun c => decide (c.1 < k)) = m.filter (fun c => decide (k ≤ c.1)) := by
  induction m with
  | nil => rfl
  | cons c t ih =>
    obtain ⟨hlt, _, ht⟩ := canon_cons.mp h
    by_cases hc : c.1 < k
    · rw [List.dropWhile_cons_of_pos (by simpa using hc), List.filter_cons_of_neg (by simpa using hc), ih ht]
    · rw [List.dropWhile_cons_of_neg (by simpa using hc)]
      refine (List.filter_eq_self.mpr fun e he => ?_).symm
      rcases List.mem_cons.mp he with rfl | he
      · simpa using Nat.le_of_not_lt hc
      · have := hlt e he
        simp only [decide_eq_true_eq]
        omega

/-- Consecutive values of a canonical store are its values at each key. -/
theorem sgetList_eq {α : Type} {d : α} (k n : Nat) {m : Sparse α} (h : Canon d m) :
    sgetList d k n m = (List.range n).map (fun i => sget d (k + i) m) := by
  unfold sgetList
  rw [dropWhile_eq_filter k h, valuesAt_eq n k (canon_filter _ h) fun c hc => by simpa using (List.mem_filter.mp hc).2]
  refine List.map_congr_left fun i _ => ?_
  exact sget_filter d (k + i) (fun j => decide (k ≤ j)) (by simp) m

/-! ### Flash bytes -/

/-- A byte of the flash. -/
def flashByte (x : Nat) (s : State) : Byte := sget 0xFF x s.nvm.flash

theorem flashByte_erase (a n x : Nat) (s : State) :
    flashByte x (flashErase a n s) = if a ≤ x ∧ x < a + n then 0xFF else flashByte x s := by
  by_cases h : a ≤ x ∧ x < a + n
  · rw [if_pos h]
    refine sget_absent _ _ _ fun c hc => ?_
    rintro rfl
    have := (List.mem_filter.mp hc).2
    simp [h] at this
  · rw [if_neg h]
    refine sget_filter _ x (fun j => !(decide (a ≤ j) && decide (j < a + n))) ?_ _
    simp only [Bool.not_eq_true', Bool.and_eq_false_iff, decide_eq_false_iff_not]
    omega

theorem flashByte_put_self {a j : Nat} {l : List Nat} (h : j < l.length) (s : State) :
    flashByte (a + j) (flashPut a l s) = BitVec.ofNat 8 l[j] :=
  (sget_ssetList _ a j (l.map (BitVec.ofNat 8)) (by simpa using h) _).trans (List.getElem_map ..)

theorem flashByte_put_of_ne {a x : Nat} {l : List Nat} (h : x < a ∨ a + l.length ≤ x) (s : State) :
    flashByte x (flashPut a l s) = flashByte x s :=
  sget_ssetList_of_ne _ a x (l.map (BitVec.ofNat 8)) (by simpa using h) _

/-- Programming takes the conjunction with what stands in the flash. -/
theorem flashByte_program {s : State} (h : Memory.wf 0xFF s.nvm.flash = true) (a : Nat) (l : List Nat) (x : Nat) :
    flashByte x (flashProgram a l s) = if a ≤ x ∧ x < a + l.length then flashByte x s &&& BitVec.ofNat 8 (nth 0 l (x - a))
      else flashByte x s := by
  have hf : flashBytes a l.length s = (List.range l.length).map (fun i => (flashByte (a + i) s).toNat) := by
    unfold flashBytes
    rw [sgetList_eq a _ ((memory_wf_iff _ _).mp h), List.map_map]
    rfl
  have hlen : (List.zipWith (fun x y => x &&& y) (flashBytes a l.length s) l).length = l.length := by
    rw [hf]
    simp
  by_cases hx : a ≤ x ∧ x < a + l.length
  · obtain ⟨j, rfl⟩ := Nat.exists_eq_add_of_le hx.1
    have hj : j < l.length := by omega
    unfold flashProgram
    rw [if_pos hx, flashByte_put_self (by rw [hlen]; exact hj), List.getElem_zipWith]
    simp only [hf, List.getElem_map, List.getElem_range, Nat.add_sub_cancel_left, nth, List.getD_eq_getElem _ _ hj]
    refine BitVec.eq_of_toNat_eq ?_
    simp only [BitVec.toNat_ofNat, BitVec.toNat_and]
    rw [Nat.and_mod_two_pow, Nat.mod_eq_of_lt (flashByte (a + j) s).isLt]
  · rw [if_neg hx]
    exact flashByte_put_of_ne (by rw [hlen]; omega) s

theorem flash_wf_erase {s : State} (h : Memory.wf 0xFF s.nvm.flash = true) (a n : Nat) :
    Memory.wf 0xFF (flashErase a n s).nvm.flash = true :=
  (memory_wf_iff _ _).mpr (canon_filter _ ((memory_wf_iff _ _).mp h))

/-! ### The page buffer -/

theorem leBytes_length (n v : Nat) : (leBytes n v).length = n := by
  induction n generalizing v with
  | zero => rfl
  | succ n ih => rw [leBytes, List.length_cons, ih]

theorem leBytes_getElem? {n i : Nat} (h : i < n) (v : Nat) : (leBytes n v)[i]? = some (v / 256 ^ i % 256) := by
  induction n generalizing v i with
  | zero => omega
  | succ n ih =>
    rw [leBytes]
    cases i with
    | zero => simp
    | succ i => rw [List.getElem?_cons_succ, ih (by omega), Nat.div_div_eq_div_mul, ← Nat.pow_succ']

/-- An element of parts of one length joined. -/
theorem getElem?_flatMap_range {α : Type} {f : Nat → List α} {k : Nat} (hf : ∀ i, (f i).length = k) (n : Nat) :
    ((List.range n).flatMap f).length = n * k
      ∧ ∀ j < n * k, ((List.range n).flatMap f)[j]? = (f (j / k))[j % k]? := by
  induction n with
  | zero => simp
  | succ n ih =>
    obtain ⟨hl, he⟩ := ih
    rw [List.range_succ, List.flatMap_append, List.flatMap_singleton]
    refine ⟨by rw [List.length_append, hl, hf, Nat.succ_mul], fun j hj => ?_⟩
    rw [Nat.succ_mul] at hj
    by_cases h : j < n * k
    · rw [List.getElem?_append_left (by omega), he j h]
    · have hd : j / k = n := by
        rw [Nat.div_eq_iff (by omega)]
        exact ⟨by omega, by omega⟩
      have hm : j % k = j - n * k := by
        rw [← hd, Nat.mod_eq_sub_div_mul]
      rw [List.getElem?_append_right (by omega), hl, hd, hm]

theorem pageBytes_eq (s : State) : pageBytes s = (List.range 64).flatMap (fun i => leBytes 4 (sget 0 i s.nvm.page)) := by
  unfold pageBytes
  rw [List.flatMap_def]

theorem pageBytes_length (s : State) : (pageBytes s).length = 256 := by
  rw [pageBytes_eq]
  exact (getElem?_flatMap_range (fun i => leBytes_length 4 _) 64).1

theorem nth_pageBytes {j : Nat} (h : j < 256) (s : State) :
    BitVec.ofNat 8 (nth 0 (pageBytes s) j) = BitVec.ofNat 8 (sget 0 (j / 4) s.nvm.page / 256 ^ (j % 4)) := by
  unfold nth
  rw [pageBytes_eq, List.getD_eq_getElem?_getD, (getElem?_flatMap_range (fun i => leBytes_length 4 _) 64).2 j h,
    leBytes_getElem? (Nat.mod_lt _ (by decide))]
  refine BitVec.eq_of_toNat_eq ?_
  simp

/-! ### Commands -/

theorem nvmRefused_iff (m a : Nat) (s : State) : nvmRefused m a s = false
    ↔ s.nvm.op = 0 ∧ (a < ringBase s ∨ ringBase s + 65536 ≤ a) ∧ a < flashSize s ∧ (m = 0 ∨ m = 2) := by
  unfold nvmRefused inRing
  simp only [Bool.or_eq_false_iff, Bool.and_eq_false_iff, decide_eq_false_iff_not, Bool.not_eq_false', decide_eq_true_eq,
    Bool.or_eq_true, not_not, not_le, not_lt, and_assoc]

theorem exec_nvmCommand {m : Nat} {s : State} (hm : m < 5) (h : Serves m 0x10130048 true s) (page : BitVec 20) :
    exec (.nvmErase m page) s = .next (nvmCommand 1 m page.toNat (answered m s))
    ∧ exec (.nvmProgram m page) s = .next (nvmCommand 2 m page.toNat (answered m s))
    ∧ exec (.nvmCheck m page) s = .next (nvmCommand 3 m page.toNat (answered m s)) := by
  have w (op : Nat) (h0 : 0 < op) (h4 : op < 4) :
      busWrite m 0x10130048 (op + page.toNat * 256) s = nvmCommand op m page.toNat (answered m s) := by
    have hp := page.isLt
    have e : (op + page.toNat * 256) % 4 = op := by omega
    have eb : bits 27 8 (op + page.toNat * 256) = page.toNat := by
      unfold bits
      omega
    rw [busWrite_wo h (by decide) (by omega)]
    change (if (op + page.toNat * 256) % 4 = 0 then _ else _) = _
    rw [e, if_neg (by omega), eb]
  exact ⟨withInstance_next.mpr ⟨hm, (w 1 (by decide) (by decide)).symm⟩,
    withInstance_next.mpr ⟨hm, (w 2 (by decide) (by decide)).symm⟩,
    withInstance_next.mpr ⟨hm, (w 3 (by decide) (by decide)).symm⟩⟩

theorem nvmCommand_refused {op m : Nat} {page : BitVec 20} {s : State} (h : nvmRefused m (page.toNat * 256) s = true) :
    nvmCommand op m page.toNat s = { s with nvm := { s.nvm with refused := true } } := by
  unfold nvmCommand
  rw [Nat.mod_eq_of_lt page.isLt]
  exact if_pos h

theorem nvmCommand_taken {op m : Nat} {page : BitVec 20} {s : State} (h : nvmRefused m (page.toNat * 256) s = false) :
    nvmCommand op m page.toNat s = { s with nvm := { s.nvm with
      op := op, opAddr := page.toNat * 256, refused := false, fail := false
      checkDone := if op = 3 then false else s.nvm.checkDone
      checkPass := if op = 3 then false else s.nvm.checkPass } } := by
  unfold nvmCommand
  rw [Nat.mod_eq_of_lt page.isLt]
  exact if_neg (by rw [h]; decide)

/-! ### Ends of operations -/

/-- The operation has ended. -/
def opEnded (fail : Bool) (s : State) : State := { s with nvm := { s.nvm with op := 0, fail := fail } }

theorem nvmOpDone_erase {s : State} (h : s.nvm.op = 1) :
    nvmOpDone false s = flashErase (s.nvm.opAddr / 4096 * 4096) 4096 (opEnded false s) := by
  unfold nvmOpDone
  simp only [h]
  rfl

theorem nvmOpDone_program {s : State} (h : s.nvm.op = 2) :
    nvmOpDone false s = flashProgram s.nvm.opAddr (pageBytes s) (opEnded false s) := by
  unfold nvmOpDone
  simp only [h]
  rfl

theorem nvmOpDone_check {s : State} (h : s.nvm.op = 3) (fail : Bool) : nvmOpDone fail s = { s with nvm := { s.nvm with
    op := 0, fail := fail, checkDone := true, checkPass := copyCheck s.nvm.opAddr s } } := by
  unfold nvmOpDone
  simp only [h]
  rfl

theorem freeBytes_length (n : Nat) (s : State) : (freeBytes n s).1.length = n := by simp [freeBytes]

/-- A failed operation leaves free bytes at its target. -/
theorem nvmOpDone_fail {s : State} (h : s.nvm.op = 1 ∨ s.nvm.op = 2) : nvmOpDone true s
    = flashPut (if s.nvm.op = 1 then s.nvm.opAddr / 4096 * 4096 else s.nvm.opAddr)
        (freeBytes (if s.nvm.op = 1 then 4096 else 256) (opEnded true s)).1
        (freeBytes (if s.nvm.op = 1 then 4096 else 256) (opEnded true s)).2 := by
  unfold nvmOpDone
  rcases h with h | h <;> simp only [h] <;> rfl

/-! ### The data port -/

theorem exec_nvmDataWrite {m : Nat} {s : State} (hm : m < 5) (h : Serves m 0x10130044 true s) (v : Word) :
    exec (.nvmDataWrite m v) s = .next { answered m s with nvm := { s.nvm with
      page := sset 0 (s.nvm.addr / 4 % 64) v.toNat s.nvm.page, addr := (s.nvm.addr + 4) % 2 ^ 28 } } := by
  refine withInstance_next.mpr ⟨hm, ?_⟩
  have hmask : v.toNat &&& rwMask 0x10130044 = v.toNat := by
    rw [show rwMask 0x10130044 = 2 ^ 32 - 1 by decide, Nat.and_two_pow_sub_one_eq_mod, Nat.mod_eq_of_lt v.isLt]
  have e : rwWrite m 0x10130044 (instOf 0x10130044 m s) v.toNat (answered m s)
      = nvmDataWrite (v.toNat &&& rwMask 0x10130044) (answered m s) := rfl
  rw [busWrite_rw h (by decide), e, hmask]
  unfold nvmDataWrite
  rw [Nat.mod_eq_of_lt v.isLt]
  rfl

/-- The data port's word may be read: not by the host, but for the headers and the log (R572). -/
def portWord (m : Nat) (s : State) : Nat := (nvmDataRead m s).1

theorem exec_nvmDataRead {m : Nat} {s : State} (hm : m < 5) (h : Serves m 0x10130044 false s) : ∃ x,
    exec (.nvmDataRead m) s = .next (busAnswer m (portWord m s) false (nvmNext (withLatch x s))) := by
  obtain ⟨x, hx⟩ := latchAll_only m 0x10130044 s
  refine ⟨x, withInstance_next.mpr ⟨hm, (busRead_of_regRead h (by decide) (by decide) ?_).symm⟩⟩
  unfold regRead
  rw [h.2.2, if_neg (by decide), hx]
  rfl

/-- The address lies in the header of a copy that is present. -/
def inHeader (copyB : Bool) (s : State) : Prop :=
  copyPresent copyB s = true ∧ copyBase copyB ≤ s.nvm.addr ∧ s.nvm.addr < copyBase copyB + 256

theorem portWord_read {m : Nat} {s : State} (hf : s.nvm.addr < flashSize s)
    (h : m ≠ 2 ∨ inHeader false s ∨ inHeader true s ∨ ringBase s ≤ s.nvm.addr ∧ s.nvm.addr < ringBase s + 65536) :
    portWord m s = le (flashBytes s.nvm.addr 4 s) := by
  refine if_pos ?_
  simp only [inRing, Bool.and_eq_true, Bool.or_eq_true, decide_eq_true_eq, and_assoc, or_assoc]
  exact ⟨h, hf⟩

theorem portWord_zero {m : Nat} {s : State} (h : flashSize s ≤ s.nvm.addr
      ∨ m = 2 ∧ ¬inHeader false s ∧ ¬inHeader true s ∧ ¬(ringBase s ≤ s.nvm.addr ∧ s.nvm.addr < ringBase s + 65536)) :
    portWord m s = 0 := by
  refine if_neg fun c => ?_
  simp only [inRing, Bool.and_eq_true, Bool.or_eq_true, decide_eq_true_eq, and_assoc, or_assoc] at c
  obtain ⟨hc, hf⟩ := c
  rcases h with h | ⟨h2, ha, hb, hr⟩
  · omega
  · rcases hc with c | c | c | c
    · exact c h2
    · exact ha c
    · exact hb c
    · exact hr c

/-! ### The fault log -/

/-- The bytes of an entry, with its checksum. -/
def flogBytes (seq block ms kind data : Nat) : List Nat :=
  let b := leBytes 4 seq ++ leBytes 8 block ++ leBytes 4 ms ++ leBytes 2 kind ++ [0, 0] ++ leBytes 8 data
  b ++ leBytes 4 (crc32 b)

theorem flogBytes_length (seq block ms kind data) : (flogBytes seq block ms kind data).length = 32 := by
  simp [flogBytes, leBytes_length]

/-- The flash at the head of the log, erased where the entry is its sector's first. -/
def flogErased (s : State) : State := { s with nvm := { s.nvm with
  flash := if s.nvm.flogHead % 4096 = 0 then (flashErase s.nvm.flogHead 4096 s).nvm.flash else s.nvm.flash } }

theorem flogErased_eq (s : State) :
    (if s.nvm.flogHead % 4096 = 0 then flashErase s.nvm.flogHead 4096 s else s) = flogErased s := by
  unfold flogErased
  split <;> rfl

theorem flogErased_wf {s : State} (h : Memory.wf 0xFF s.nvm.flash = true) : Memory.wf 0xFF (flogErased s).nvm.flash = true := by
  rw [← flogErased_eq]
  split
  · exact flash_wf_erase h ..
  · exact h

theorem flashByte_flogErased (x : Nat) (s : State) : flashByte x (flogErased s)
    = if s.nvm.flogHead % 4096 = 0 ∧ s.nvm.flogHead ≤ x ∧ x < s.nvm.flogHead + 4096 then 0xFF else flashByte x s := by
  rw [← flogErased_eq]
  split
  · rename_i h
    simp only [flashByte_erase, h, true_and]
  · rename_i h
    rw [if_neg (fun c => h c.1)]

theorem flogEntry_eq (kind data : Nat) (s : State) : flogEntry kind data s = 
    let t := flashProgram s.nvm.flogHead (flogBytes (s.nvm.flogSeq + 1) (if s.clk.audio then s.grid.block else 0)
      ((s.clk.safe - s.clk.resetAt) / 32000) kind data) (flogErased s)
    { t with nvm := { t.nvm with
      flogHead := if s.nvm.flogHead + 32 = ringBase s + 65536 then ringBase s else s.nvm.flogHead + 32
      flogSeq := s.nvm.flogSeq + 1, flogTimes := s.nvm.flogTimes ++ [s.clk.safe] } } := by
  unfold flogEntry
  dsimp only
  rw [flogErased_eq]
  rfl

/-- Beyond the rate an entry is dropped and counted. -/
theorem faultLogWrite_dropped {s : State} {safe : Nat} {e : Nat × Nat} {rest : List (Nat × Nat)} (h2 : s.nvm.log2 ≠ 0)
    (hq : s.ev.logQ = e :: rest)
    (hr : 4 ≤ (s.nvm.flogTimes.filter (fun t => decide (max s.clk.safe safe < t + 32000000))).length) :
    faultLogWrite safe s = count 0x10130058 0 1 { setSafe safe s with
      ev := { s.ev with logQ := rest }
      nvm := { s.nvm with
        flogTimes := s.nvm.flogTimes.filter (fun t => decide (max s.clk.safe safe < t + 32000000))
        flogDrops := s.nvm.flogDrops + 1 } } := by
  refine (if_neg h2).trans ((if_pos hr).trans ?_)
  dsimp only [setSafe]
  rw [hq]
  rfl

/-- Within the rate the oldest entry is written. -/
theorem faultLogWrite_entry {s : State} {safe kind data : Nat} {rest : List (Nat × Nat)} (h2 : s.nvm.log2 ≠ 0)
    (hq : s.ev.logQ = (kind, data) :: rest) (hd : s.nvm.flogDrops = 0)
    (hr : (s.nvm.flogTimes.filter (fun t => decide (max s.clk.safe safe < t + 32000000))).length < 4) :
    faultLogWrite safe s = flogEntry kind data { setSafe safe s with
      ev := { s.ev with logQ := rest }
      nvm := { s.nvm with flogTimes := s.nvm.flogTimes.filter (fun t => decide (max s.clk.safe safe < t + 32000000)) } } := by
  refine (if_neg h2).trans ((if_neg (Nat.not_le.mpr hr)).trans ((if_neg (not_not.mpr hd)).trans ?_))
  dsimp only [setSafe]
  rw [hq]
  rfl

/-- Settles O56: commands, ends, the data port and the log, each by its equation. -/
theorem nvmOperations : Obligations.NvmOperations := by
  refine ⟨fun s m page hm h => ?commands, fun s => ?ends, fun s m hm => ?port, fun s safe kind data rest h2 hq => ?log⟩
  case commands =>
    intro a may
    obtain ⟨e1, e2, e3⟩ := exec_nvmCommand hm h page
    have hr : nvmRefused m (page.toNat * 256) (answered m s) = false ↔ may := nvmRefused_iff ..
    refine ⟨fun hn row hrow => ?_, fun hmay => ?_⟩
    · have ht : nvmRefused m (page.toNat * 256) (answered m s) = true := by
        rw [← Bool.not_eq_false]
        exact fun c => hn (hr.mp c)
      simp only [List.mem_cons, List.not_mem_nil, or_false] at hrow
      rcases hrow with rfl | rfl | rfl
      · rw [e1, nvmCommand_refused ht]
        rfl
      · rw [e2, nvmCommand_refused ht]
        rfl
      · rw [e3, nvmCommand_refused ht]
        rfl
    · rw [e1, e2, e3, nvmCommand_taken (hr.mpr hmay), nvmCommand_taken (hr.mpr hmay), nvmCommand_taken (hr.mpr hmay)]
      exact ⟨rfl, rfl, rfl⟩
  case ends =>
    intro a byte
    refine ⟨fun h fail => congrArg Host.Outcome.next (if_pos h), fun h => ⟨_, rfl, ?_⟩, fun h hwf => ⟨_, rfl, ?_⟩,
      fun h => ⟨_, rfl, ?_⟩, fun h fail => congrArg Host.Outcome.next (nvmOpDone_check h fail)⟩
    · rw [nvmOpDone_erase h]
      exact ⟨rfl, fun x => flashByte_erase ..⟩
    · rw [nvmOpDone_program h]
      refine ⟨rfl, fun x => (flashByte_program hwf ..).trans ?_⟩
      rw [pageBytes_length]
      by_cases hx : s.nvm.opAddr ≤ x ∧ x < s.nvm.opAddr + 256
      · rw [if_pos hx, if_pos hx, nth_pageBytes (by omega)]
        rfl
      · rw [if_neg hx, if_neg hx]
        rfl
    · rw [nvmOpDone_fail h]
      refine ⟨rfl, rfl, fun x hx => flashByte_put_of_ne ?_ _⟩
      rw [freeBytes_length]
      split at hx
      · rename_i h1
        simpa only [if_pos h1] using hx
      · rename_i h1
        simpa only [if_neg h1] using hx
  case port =>
    intro a
    refine ⟨fun v h => exec_nvmDataWrite hm h v, fun h => ?_⟩
    intro header ring
    obtain ⟨x, e⟩ := exec_nvmDataRead hm h
    refine ⟨_, e, rfl, ⟨rfl, rfl, rfl⟩, fun hf hmay => ?_, fun hn => ?_⟩
    · rw [rdata_busAnswer, portWord_read hf hmay]
    · rw [rdata_busAnswer, portWord_zero hn]
  case log =>
    intro now recent at_ body entry
    refine ⟨fun hr => ⟨_, rfl, ?_⟩, fun hr hd hwf => ⟨_, rfl, ?_⟩⟩
    · rw [faultLogWrite_dropped h2 hq hr]
      exact ⟨rfl, cget_count_self .., rfl⟩
    · rw [faultLogWrite_entry h2 hq hd hr, flogEntry_eq]
      refine ⟨rfl, rfl, fun x => (flashByte_program (flogErased_wf hwf) ..).trans ?_⟩
      rw [flogBytes_length, flashByte_flogErased]
      rfl

end Sys2Proof.Machine
end

section
/-!
SUPPORT. Completion of block moves (chapter 08).
-/
namespace Sys2Proof.Machine

/-! ### What the reports of a move leave alone -/

theorem burstCheck_ec (s : State) : (burstCheck s).ec = s.ec := by
  obtain ⟨_, _, _, _, _, _, h⟩ := burstCheck_event s
  rw [h]

@[simp] theorem deliverPoison_ec (a p n s) : (deliverPoison a p n s).ec = s.ec := by
  unfold deliverPoison setPoison
  rw [raise_ec]
  exact lapse_ec _

@[simp] theorem sramPoison_ec (a w n s) : (sramPoison a w n s).ec = s.ec := by
  unfold sramPoison setPoison
  rw [raise_ec]
  exact lapse_ec _

/-- A field that every step keeps is kept by the fold. -/
theorem foldl_keeps {α β : Type} (g : State → β) (f : State → α → State) (h : ∀ s x, g (f s x) = g s) (l : List α) (s : State) :
    g (l.foldl f s) = g s := by
  induction l generalizing s with
  | nil => rfl
  | cons x l ih => exact (ih _).trans (h s x)

theorem movePoison_ec (ext len : Nat) (s : State) : (movePoison ext len s).ec = s.ec := by
  unfold movePoison
  split
  · refine foldl_keeps State.ec _ (fun s i => ?_) _ _
    dsimp only
    split
    · exact deliverPoison_ec ..
    · rfl
  · refine foldl_keeps State.ec _ (fun s i => ?_) _ _
    dsimp only
    split
    · rw [burstCheck_ec, sramPoison_ec]
    · rfl

/-! ### External words -/

/-- The bytes of an aligned word carry one mark. -/
theorem isPoisoned_word {a i : Nat} (h : a % 4 = 0) (hi : i < 4) (s : State) : isPoisoned s (a + i) = isPoisoned s a := by
  unfold isPoisoned
  rw [show (a + i) / 8 = a / 8 by omega, show channelOf (a + i) = channelOf a by unfold channelOf; omega]

/-- A marked external word reads as 0 (R500). -/
theorem extWord_bad {a : Nat} (h : a % 4 = 0) {s : State} (hb : extBad s a = true) : extWord s a = 0 := by
  unfold extWord
  unfold extBad at hb
  split
  · rename_i hd
    rw [if_pos hd] at hb
    have z (i : Nat) (hi : i < 4) : dramByte s (a + i) = 0 :=
      if_pos (by rw [isPoisoned_word h hi, hb, Bool.or_true])
    unfold dramWord
    have z0 : dramByte s a = 0 := z 0 (by decide)
    simp [List.range, List.range.loop, z, z0, le]
  · rename_i hd
    rw [if_neg hd] at hb
    exact if_pos hb

/-! ### Words of a core's memory -/

theorem coreKey_add (k : Nat) (y : Bool) (w j : Nat) : coreKey k y (w + j) = coreKey k y w + j := by
  unfold coreKey
  omega

/-- The words written to a core's memory, and the marks that come with them. -/
theorem coreWord_moved {k w n j : Nat} {y : Bool} {l : List Nat} (bad : Nat → Bool) (hl : l.length = n) (hj : j < n)
    (s : State) (t : State)
    (ht : t.ec = { (coreWrite k y w l s).ec with
      poison := ((List.range n).filter bad).map (fun i => coreKey k y (w + i)) ++ (coreWrite k y w l s).ec.poison }) :
    coreWord k y (w + j) t = if bad j then 0 else nth 0 l j := by
  have hc : t.ec.poison.contains (coreKey k y (w + j)) = bad j := by
    rw [ht, Bool.eq_iff_iff, List.contains_iff_mem]
    simp only [coreWrite, List.mem_append, List.mem_map, List.mem_filter, List.mem_range, coreKey_add, Bool.or_eq_true,
      decide_eq_true_eq]
    constructor
    · rintro (⟨i, ⟨hi, hb⟩, he⟩ | ⟨_, h | h⟩)
      · rwa [show j = i by omega]
      · omega
      · omega
    · exact fun hb => .inl ⟨j, ⟨hj, hb⟩, rfl⟩
  unfold coreWord
  rw [hc]
  refine if_congr Iff.rfl rfl ?_
  rw [ht, coreKey_add]
  exact (sget_ssetList 0 (coreKey k y w) j l (by omega) s.ec.data).trans (by rw [nth, List.getD_eq_getElem])

@[simp] theorem coreWord_ctxSet (k k' y w c s) : coreWord k y w (ctxSet k' c s) = coreWord k y w s := rfl

/-! ### The move -/

theorem moveDone_eq {k bank i : Nat} {c : EcCtx} {p : EcProg} {b : BlockMove} {s : State}
    (hc : (coreGet k s).ctxs.find? (fun c => decide (c.bank = bank)) = some c) (hb : c.moves[i]? = some b)
    (hp : s.ec.progs[c.prog]? = some p) : moveDone k bank i s
    = ctxSet k { (moveCopy k c p b s).1 with moves := (moveCopy k c p b s).1.moves.eraseIdx i, stalled := false }
        (moveCopy k c p b s).2 := by
  unfold moveDone
  rw [hc]
  dsimp only
  rw [hb, hp]

theorem deliverMarked_none {s : State} (h : s.ec.poison = []) (k : Nat) (y : Bool) (w n : Nat) :
    deliverMarked k y w n s = s := if_pos (by rw [h]; rfl)

/-- An outbound move of words without marks stores them. -/
theorem moveCopy_out {k : Nat} {c : EcCtx} {p : EcProg} {b : BlockMove} {r : EcRegion} {s : State}
    (hr : regionAt p b.yMem b.word = some r) (ho : b.out = true) (hp : s.ec.poison = []) :
    moveCopy k c p b s = (c, extPut b.ext ((List.range b.len).map (fun i => ctxWord k c r (b.word + i) s)) [] s) := by
  unfold moveCopy
  rw [hr]
  simp only [ho, if_true, deliverMarked_none hp, hp]
  simp

/-- An inbound move writes the external words, with their marks. -/
theorem moveCopy_in {k : Nat} {c : EcCtx} {p : EcProg} {b : BlockMove} {r : EcRegion} {s : State}
    (hr : regionAt p b.yMem b.word = some r) (ho : b.out = false) : (moveCopy k c p b s).2
    = let u := coreWrite k b.yMem b.word ((List.range b.len).map (fun i => extWord s (b.ext + 4 * i))) (movePoison b.ext b.len s)
      let marks := ((List.range b.len).filter (fun i => extBad s (b.ext + 4 * i))).map
        (fun i => coreKey k b.yMem (b.word + i))
      { u with ec := { u.ec with poison := marks ++ u.ec.poison } } := by
  unfold moveCopy
  rw [hr]
  simp only [ho]
  rfl

/-- Settles O32: the move's copy by its direction and its external memory. -/
theorem blockMoves : Obligations.BlockMoves := by
  intro k bank i c p b r s hk hbank hc hb hp hr bytes
  have e : exec (.blockMoveComplete k bank i) s = .next (moveDone k bank i s) :=
    withInstances_next.mpr ⟨by simp [hk, hbank], rfl⟩
  have hbytes : ((List.range b.len).map (fun i => ctxWord k c r (b.word + i) s)).flatMap (leBytes 4) = bytes :=
    List.flatMap_map ..
  have hlen : bytes.length = 4 * b.len := by
    rw [(getElem?_flatMap_range (fun i => leBytes_length 4 _) b.len).1, Nat.mul_comm]
  refine ⟨fun ho hpo hd => ?_, fun ho hpo hd => ⟨_, e, ?_⟩, fun ho ha => ⟨_, e, ?_⟩⟩
  · rw [e, moveDone_eq hc hb hp, moveCopy_out hr ho hpo]
    refine congrArg Host.Outcome.next (congrArg (ctxSet k _) ?_)
    unfold extPut
    dsimp only
    rw [hbytes, hlen, if_pos hd]
    rfl
  · have ex : extPut b.ext ((List.range b.len).map (fun i => ctxWord k c r (b.word + i) s)) [] s
        = { s with mem := (extPut b.ext ((List.range b.len).map (fun i => ctxWord k c r (b.word + i) s)) [] s).mem }
        ∧ (extPut b.ext ((List.range b.len).map (fun i => ctxWord k c r (b.word + i) s)) [] s).mem.fab
          = putBytes (fabOff b.ext) bytes s.mem.fab
        ∧ (extPut b.ext ((List.range b.len).map (fun i => ctxWord k c r (b.word + i) s)) [] s).mem.dram = s.mem.dram := by
      unfold extPut
      dsimp only
      rw [hbytes, hlen, if_neg (by rw [hd]; decide)]
      exact ⟨rfl, rfl, rfl⟩
    obtain ⟨e1, e2, e3⟩ := ex
    rw [moveDone_eq hc hb hp, moveCopy_out hr ho hpo]
    refine ⟨?_, e2, e3⟩
    dsimp only [ctxSet, coreSet]
    rw [e1]
  · rw [moveDone_eq hc hb hp, moveCopy_in hr ho]
    have hkept := movePoison_kept b.ext b.len s
    simp only [State.kept, Prod.mk.injEq] at hkept
    obtain ⟨hpend, hdram, -, hfab, -⟩ := hkept
    refine ⟨hpend, hdram, hfab, fun j hj _ => ?_⟩
    rw [coreWord_ctxSet, coreWord_moved (fun i => extBad s (b.ext + 4 * i)) (by simp) hj (movePoison b.ext b.len s) _ rfl]
    split
    · rename_i hbad
      exact (extWord_bad (by omega) hbad).symm
    · simp [nth, hj]

end Sys2Proof.Machine
end

section
/-!
SUPPORT. DRAM channels: refresh, parity alerts, temperature (chapter 14).
-/
namespace Sys2Proof.Machine

/-! ### The retry buffer -/

theorem lastN_append_lastN {α : Type} (n : Nat) (l m : List α) : lastN n (lastN n l ++ m) = lastN n (l ++ m) := by
  unfold lastN
  rw [List.length_append, List.length_drop, List.drop_append, List.drop_append, List.drop_drop, List.length_drop,
    List.length_append]
  congr 2
  · omega
  · omega

/-- A channel that has issued `n` commands of one kind. -/
def issued (n code : Nat) (c : Channel) : Channel := (List.range n).foldl (fun c _ => pushRetry code c) c

theorem retry_pushRetry (n : Nat) (c : Channel) : (pushRetry n c).retry = lastN 16 (c.retry ++ [n]) := by rw [pushRetry]

theorem issued_succ (n code : Nat) (c : Channel) : issued (n + 1) code c = pushRetry code (issued n code c) := by
  unfold issued
  rw [List.range_succ, List.foldl_append]
  rfl

/-- Issued commands enter the retry buffer and nothing else. -/
theorem issued_eq (n code : Nat) (c : Channel) : issued (n + 1) code c
    = { c with retry := lastN 16 (c.retry ++ List.replicate (n + 1) code) } := by
  induction n with
  | zero => rfl
  | succ n ih =>
    rw [issued_succ, ih]
    unfold pushRetry
    rw [lastN_append_lastN, List.append_assoc, ← List.replicate_succ']

theorem issued_owed (n code r : Nat) (c : Channel) : owedOf r (issued n code c) = owedOf r c := by
  cases n with
  | zero => rfl
  | succ n => rw [issued_eq]; rfl

theorem issueOwed_eq (r : Nat) (c : Channel) : issueOwed r c = setOwed r 0 (issued (owedOf r c) 0 c) := rfl

/-! ### One channel -/

@[simp] theorem chanGet_chanSet_self (i : Nat) (c : Channel) (s : State) : chanGet i (chanSet i c s) = c := by
  unfold chanGet chanSet
  split
  · rfl
  · rfl

theorem chanSet_chanGet (i : Nat) (s : State) : chanSet i (chanGet i s) s = s := by
  unfold chanGet chanSet
  split <;> rfl

theorem onChannel_on {i : Nat} {s : State} (ht : (chanGet i s).trained = true) (hd : (chanGet i s).dead = false)
    (f : Channel → Channel) : onChannel i f s = chanSet i (f (chanGet i s)) s := by
  unfold onChannel
  simp [ht, hd]

theorem onChannel_off {i : Nat} {s : State} (h : (chanGet i s).trained = false ∨ (chanGet i s).dead = true)
    (f : Channel → Channel) : onChannel i f s = s := by
  unfold onChannel
  rcases h with h | h <;> simp [h]

/-! ### Refresh -/

theorem owedOf_setOwed (r n : Nat) (c : Channel) : owedOf r (setOwed r n c) = n := by
  unfold owedOf setOwed
  split <;> rfl

@[simp] theorem retry_setOwed (r n c) : (setOwed r n c).retry = c.retry := by unfold setOwed; split <;> rfl
@[simp] theorem points_setOwed (r n c) : (setOwed r n c).points = c.points := by unfold setOwed; split <;> rfl
@[simp] theorem owedOf_centre (r q off c) : owedOf r (centre q off c) = owedOf r c := rfl
@[simp] theorem owedOf_pushRetry (r n c) : owedOf r (pushRetry n c) = owedOf r c := by
  rw [pushRetry]
  rfl

/-- A refresh that is not postponed: the owed ones go with it when nothing waits (R493, R494). -/
def refreshed (r : Nat) (waiting : Bool) (c : Channel) : Channel := pushRetry 0 (if waiting then c else issueOwed r c)

theorem retry_refreshed (r : Nat) (waiting : Bool) (c : Channel) : (refreshed r waiting c).retry
    = lastN 16 (c.retry ++ List.replicate (if waiting then 1 else owedOf r c + 1) 0) := by
  cases waiting
  · have e : refreshed r false c = pushRetry 0 (setOwed r 0 (issued (owedOf r c) 0 c)) := rfl
    rw [e, retry_pushRetry, retry_setOwed, ← retry_pushRetry, ← issued_succ, issued_eq, if_neg (by decide)]
  · rw [if_pos rfl]
    exact retry_pushRetry ..

theorem owedOf_refreshed (r : Nat) (waiting : Bool) (c : Channel) :
    owedOf r (refreshed r waiting c) = if waiting then owedOf r c else 0 := by
  cases waiting
  · exact owedOf_setOwed ..
  · rfl

theorem points_issued (n code : Nat) (c : Channel) : (issued n code c).points = c.points := by
  cases n with
  | zero => rfl
  | succ n => rw [issued_eq]

theorem points_refreshed (r : Nat) (waiting : Bool) (c : Channel) : (refreshed r waiting c).points = c.points := by
  cases waiting
  · exact (points_setOwed ..).trans (points_issued ..)
  · rfl

/-- A lane's sample point moves by its own step. -/
theorem points_centre {r lane : Nat} {off : List Int} {x : Int} (h : off[lane]? = some x) (c : Channel) :
    sget 0 (r * 16 + lane) (centre r off c).points = sget 0 (r * 16 + lane) c.points + oneStep x := by
  have key : ∀ (l : List Int) (k : Nat) (m : Sparse Int), sget 0 (r * 16 + lane)
      ((l.zipIdx k).foldl (fun m (x, lane) => smod 0 (r * 16 + lane) (· + oneStep x) m) m)
      = sget 0 (r * 16 + lane) m + if k ≤ lane then ((l[lane - k]?).map oneStep).getD 0 else 0 := by
    intro l
    induction l with
    | nil => intro k m; simp
    | cons y l ih =>
      intro k m
      rw [List.zipIdx_cons, List.foldl_cons, ih]
      unfold smod
      rcases Nat.lt_trichotomy lane k with hk | rfl | hk
      · rw [sget_sset_of_ne _ _ (by omega), if_neg (by omega), if_neg (by omega)]
      · rw [sget_sset_self, if_neg (by omega), if_pos (le_refl _), Nat.sub_self]
        simp
      · rw [sget_sset_of_ne _ _ (by omega), if_pos (by omega), if_pos (by omega), show lane - k = lane - (k + 1) + 1 by omega]
        rfl
  refine (key off 0 c.points).trans ?_
  rw [if_pos (Nat.zero_le _), Nat.sub_zero, h]
  rfl

theorem refreshDue_late {r : Nat} {waiting : Bool} {c : Channel} (h : waiting = true ∧ owedOf r c < refreshLimit c)
    (off : List Int) : refreshDue r waiting off c = setOwed r (owedOf r c + 1) c := if_pos (by simp [h])

theorem refreshDue_now {r : Nat} {waiting : Bool} {c : Channel} (h : ¬(waiting = true ∧ owedOf r c < refreshLimit c))
    (off : List Int) : refreshDue r waiting off c = centre r off (refreshed r waiting c) :=
  if_neg (by simpa using h)

/-! ### Temperature -/

theorem setDouble_mode (on : Bool) (c : Channel) : (setDouble on c).doubleRate = on
    ∧ (on = true → c.doubleRate = false → (setDouble on c).owed0 = 0 ∧ (setDouble on c).owed1 = 0) := by
  unfold setDouble
  cases on
  · exact ⟨rfl, fun h => absurd h (by decide)⟩
  · cases h : c.doubleRate
    · refine ⟨rfl, fun _ _ => ⟨?_, ?_⟩⟩
      · have e : owedOf 0 (issueOwed 1 (issueOwed 0 c)) = owedOf 0 (issued (owedOf 1 (issueOwed 0 c)) 0 (issueOwed 0 c)) := rfl
        exact e.trans ((issued_owed ..).trans (owedOf_setOwed ..))
      · exact owedOf_setOwed 1 0 (issued (owedOf 1 (issueOwed 0 c)) 0 (issueOwed 0 c))
    · exact ⟨h, fun _ h => absurd h (by decide)⟩

/-- Both channels are in the mode, and have issued what they owed on entering double rate. -/
def Doubles (s t : State) (on : Bool) : Prop := ∀ i < 2, (chanGet i t).doubleRate = on
  ∧ (on = true → (chanGet i s).doubleRate = false → (chanGet i t).owed0 = 0 ∧ (chanGet i t).owed1 = 0)

theorem refreshMode_doubles {s t : State} {on : Bool} (h0 : t.mem.ch0 = setDouble on s.mem.ch0)
    (h1 : t.mem.ch1 = setDouble on s.mem.ch1) : Doubles s t on := by
  intro i hi
  unfold chanGet
  split
  · rw [h0]; exact setDouble_mode ..
  · rw [h1]; exact setDouble_mode ..

end Sys2Proof.Machine
end

section
/-!
SUPPORT. Reads, scrubbing and the DRAM windows (chapter 14).
-/
namespace Sys2Proof.Machine

/-! ### Rows of one channel -/

theorem refreshRow_on {i r : Nat} {waiting : Bool} {off : List Int} {s : State} (hr : r < s.mem.ranks)
    (ht : (chanGet i s).trained = true) (hd : (chanGet i s).dead = false) : refreshRow i r waiting off s
    = chanSet i (refreshDue r waiting (if s.grid.running then off else []) (chanGet i s)) s :=
  (if_neg (by omega)).trans (onChannel_on ht hd _)

theorem zqCalibration_on {i : Nat} {s : State} (hrun : s.grid.running = true) (ht : (chanGet i s).trained = true)
    (hd : (chanGet i s).dead = false) : zqCalibration i s = chanSet i (issued s.mem.ranks 1 (chanGet i s)) s :=
  (if_neg (by simp [hrun])).trans (onChannel_on ht hd _)

theorem channelFail_on {i : Nat} {s : State} (hd : (chanGet i s).dead = false) :
    channelFail i s = raise 0x7C i (chanSet i { chanGet i s with dead := true } s) := if_neg (by simp [hd])

theorem chanGet_congr {s t : State} (h : t.mem = s.mem) (i : Nat) : chanGet i t = chanGet i s := by
  unfold chanGet
  rw [h]

@[simp] theorem chanSet_ev (i c s) : (chanSet i c s).ev = s.ev := by unfold chanSet; split <;> rfl

/-- A channel that fails raises its event. -/
theorem channelFail_heard {i : Nat} {s : State} (hd : (chanGet i s).dead = false) :
    Rings 0x7C s (channelFail i s) ∧ chanGet i (channelFail i s) = { chanGet i s with dead := true } := by
  rw [channelFail_on hd]
  exact ⟨rings_of_ev (by decide) (chanSet_ev ..), (chanGet_congr (raise_mem ..) i).trans (chanGet_chanSet_self ..)⟩

theorem chanSet_chanSet (i : Nat) (c d : Channel) (s : State) : chanSet i c (chanSet i d s) = chanSet i c s := by
  unfold chanSet
  split <;> rfl

/-! ### Commands of a channel and reads -/

theorem isPoisoned_noteCommand (addr code a : Nat) (s : State) : isPoisoned (noteCommand addr code s) a = isPoisoned s a := by
  unfold noteCommand onChannel
  dsimp only
  split
  · unfold isPoisoned chanGet chanSet pushRetry
    split <;> split <;> simp_all
  · rfl

/-- What a command's entry in the retry buffer leaves alone. -/
theorem noteCommand_frame (addr code : Nat) (s : State) : ∃ c0 c1,
    noteCommand addr code s = { s with mem := { s.mem with ch0 := c0, ch1 := c1 } } := by
  unfold noteCommand onChannel
  dsimp only
  split
  · unfold chanSet
    split
    · exact ⟨_, _, rfl⟩
    · exact ⟨_, _, rfl⟩
  · exact ⟨_, _, rfl⟩

/-- A word delivered poisoned is counted and reported (R499). -/
theorem deliverPoison_heard (addr port now : Nat) (s : State) :
    let t := deliverPoison addr port now s
    Counts 0x10120034 0 1 s t ∧ t.ev.pend.getLsbD 0x7D = true ∧ t.grid.memPoison = true
      ∧ t.mem = { s.mem with
        eccAddr := addr / 8 * 8
        eccInfo := port % 8 + channelOf addr * 8 + 2 ^ 31
        poisonTimes := (now :: s.mem.poisonTimes).filter (fun t => decide (now < t + 32000000)) } := by
  refine ⟨?_, ?_, ?_, ?_⟩
  · have h : Counted [(0x10140034, 0)] (count 0x10120034 0 1 s) (deliverPoison addr port now s) := by
      refine Counted.trans ?_ (raise_counted (by decide) ..)
      refine Counted.trans ?_ (.of_bus (s := setPoison _) rfl)
      refine Counted.trans ?_ (lapseAt_counted (by decide) ..)
      exact .of_bus rfl
    exact (h.kept 0x10120034 0 (by decide)).trans (cget_count_self ..)
  · unfold deliverPoison
    rw [raise_pend]
    simp
  · exact (congrArg Grid.memPoison (raise_grid ..)).trans (lapseAt_memPoison ..)
  · exact (raise_mem ..).trans (lapse_mem ..)

theorem burstCheck_few {s : State} (h : s.mem.poisonTimes.length ≤ 16) : burstCheck s = s := by
  unfold burstCheck poisonBurst
  exact if_neg (by simpa using h)

/-- A 16th poisoned delivery within a second is still tolerated (R502). -/
theorem burstCheck_deliverPoison {s : State} (h : s.mem.poisonTimes.length < 16) (addr port now : Nat) :
    burstCheck (deliverPoison addr port now s) = deliverPoison addr port now s := by
  obtain ⟨-, -, -, hm⟩ := deliverPoison_heard addr port now s
  refine burstCheck_few ?_
  rw [hm]
  refine (List.length_filter_le ..).trans ?_
  simpa using h

/-- The state in which a read begins: its command noted, at its time. -/
def readBegun (addr safe : Nat) (s : State) : State := noteCommand addr 2 (setSafe safe s)

theorem readBegun_eq (addr safe : Nat) (s : State) : readBegun addr safe s
    = noteCommand addr 2 { s with clk := { s.clk with safe := max s.clk.safe safe } } := rfl

theorem isPoisoned_readBegun (addr safe a : Nat) (s : State) : isPoisoned (readBegun addr safe s) a = isPoisoned s a :=
  isPoisoned_noteCommand ..

theorem readBegun_frame (addr safe : Nat) (s : State) : ∃ c0 c1, readBegun addr safe s = { s with
    clk := { s.clk with safe := max s.clk.safe safe }, mem := { s.mem with ch0 := c0, ch1 := c1 } } :=
  noteCommand_frame addr 2 (setSafe safe s)

theorem dramReadComplete_eq (addr port a b safe : Nat) (s : State) : dramReadComplete addr port a b safe s
    = if isPoisoned s addr || badTwice a b then
        burstCheck (deliverPoison addr port (readBegun addr safe s).clk.safe
          (if badTwice a b then markPoison addr (readBegun addr safe s) else readBegun addr safe s))
      else
        let u := if a = 1 || a = 2 then correctRead addr (readBegun addr safe s) else readBegun addr safe s
        if a = 2 && b = 1 then correctRead addr u else u := by
  rw [← isPoisoned_readBegun addr safe addr s]
  rfl

/-- A corrected word waits for its write-back. -/
theorem correctRead_queued (addr : Nat) (s : State) : (correctRead addr s).mem.writeBack.head? = some (addr / 8) := rfl

theorem correctRead_counts (addr : Nat) (s : State) : Counts 0x10120030 0 1 s (correctRead addr s) := cget_count_self ..

theorem readBegun_cget (addr safe b i : Nat) (s : State) : cget b i (readBegun addr safe s) = cget b i s := by
  obtain ⟨c0, c1, h⟩ := readBegun_frame addr safe s
  rw [h]
  rfl

/-- A read that delivers a poisoned word. -/
theorem dramReadComplete_poisoned {addr port a b safe : Nat} {s : State} (hp : port < 8)
    (hn : s.mem.poisonTimes.length < 16) (h : isPoisoned s addr = true ∨ a = 2 ∧ b = 2) :
    let t := dramReadComplete addr port a b safe s
    Counts 0x10120034 0 1 s t ∧ t.ev.pend.getLsbD 0x7D = true ∧ t.grid.memPoison = true
      ∧ t.mem.eccAddr = addr / 8 * 8 ∧ t.mem.eccInfo = port + channelOf addr * 8 + 2 ^ 31
      ∧ isPoisoned t addr = true ∧ t.mem.dram = s.mem.dram := by
  have hbad : (isPoisoned s addr || badTwice a b) = true := by
    unfold badTwice
    rcases h with h | ⟨rfl, rfl⟩
    · rw [h]; rfl
    · exact Bool.or_true _
  obtain ⟨c0, c1, hf⟩ := readBegun_frame addr safe s
  have hb : ∃ u, (if badTwice a b then markPoison addr (readBegun addr safe s) else readBegun addr safe s) = u
      ∧ isPoisoned u addr = true ∧ u.mem.dram = s.mem.dram ∧ u.mem.poisonTimes = s.mem.poisonTimes
      ∧ cget 0x10120034 0 u = cget 0x10120034 0 s := by
    refine ⟨_, rfl, ?_⟩
    split
    · refine ⟨?_, by rw [hf]; rfl, by rw [hf]; rfl, by rw [hf]; rfl⟩
      unfold isPoisoned markPoison
      dsimp only
      split
      · rename_i h
        rw [h]; rfl
      · simp
    · rename_i h
      refine ⟨?_, by rw [hf], by rw [hf], by rw [hf]; rfl⟩
      rw [isPoisoned_readBegun]
      simpa [h] using hbad
  obtain ⟨u, hu, h1, h2, h3, h4⟩ := hb
  intro t
  have ht : t = deliverPoison addr port (readBegun addr safe s).clk.safe u := by
    change dramReadComplete addr port a b safe s = _
    rw [dramReadComplete_eq, if_pos hbad, hu, burstCheck_deliverPoison (by rw [h3]; exact hn)]
  obtain ⟨hc, he, hg, hm⟩ := deliverPoison_heard addr port (readBegun addr safe s).clk.safe u
  rw [ht]
  refine ⟨counts_of_cget h4 hc, he, hg, ?_, ?_, ?_, ?_⟩
  · rw [hm]
  · rw [hm, Nat.mod_eq_of_lt hp]
  · unfold isPoisoned chanGet at h1 ⊢
    rw [hm]
    exact h1
  · rw [hm]; exact h2

/-! ### Scrubbing -/

/-- An uncorrectable word of an SRAM array raises its event and is noted (R507). -/
theorem sramPoison_noted (array word now : Nat) (s : State) :
    let t := sramPoison array word now s
    t.ev.pend.getLsbD 0x7E = true ∧ t.mem = { s.mem with
      sramInfo := array % 256 + (word % 2 ^ 22) * 256 + 2 ^ 31
      poisonTimes := (now :: s.mem.poisonTimes).filter (fun t => decide (now < t + 32000000)) } := by
  refine ⟨?_, (raise_mem ..).trans (lapse_mem ..)⟩
  unfold sramPoison
  rw [raise_pend]
  simp

/-- The mark of a word touches the effect cores alone. -/
theorem scrubMark_only (array word : Nat) (s : State) : ∃ e, scrubMark array word s = { s with ec := e } := by
  unfold scrubMark
  split
  · unfold coreMark
    split
    · exact ⟨_, rfl⟩
    · exact ⟨_, rfl⟩
  · exact ⟨_, rfl⟩

/-- A pass of the SRAM scrub has ended with this read, or not. -/
def passEnd (last : Bool) (s : State) : State :=
  if last then { s with mem := { s.mem with sramPasses := s.mem.sramPasses + 1 } } else s

theorem passEnd_eq (last : Bool) (s : State) : passEnd last s
    = { s with mem := { s.mem with sramPasses := s.mem.sramPasses + if last then 1 else 0 } } := by
  cases last <;> rfl

theorem scrubRead_clean (array word b : Nat) (last : Bool) (safe : Nat) (s : State) :
    scrubRead array word 0 b last safe s = passEnd last (setSafe safe s) := rfl

theorem scrubRead_corrected {a b : Nat} (h : a = 1 ∨ a = 2 ∧ b ≠ 2) (array word : Nat) (last : Bool) (safe : Nat) (s : State) :
    scrubRead array word a b last safe s = passEnd last (count 0x10120048 0 1 (setSafe safe s)) := by
  have hb : badTwice a b = false := by
    unfold badTwice
    rcases h with rfl | ⟨rfl, h⟩
    · rfl
    · simp [h]
  have ha : (decide (a = 1) || decide (a = 2)) = true := by
    rcases h with rfl | ⟨rfl, h⟩ <;> rfl
  have e : scrubRead array word a b last safe s = passEnd last
      (if badTwice a b then burstCheck (scrubMark array word (sramPoison array word (setSafe safe s).clk.safe (setSafe safe s)))
        else if decide (a = 1) || decide (a = 2) then count 0x10120048 0 1 (setSafe safe s) else setSafe safe s) := rfl
  rw [e, hb, ha]
  rfl

theorem scrubRead_poisoned (array word : Nat) (last : Bool) (safe : Nat) {s : State} (hn : s.mem.poisonTimes.length < 16) :
    scrubRead array word 2 2 last safe s
      = passEnd last (scrubMark array word (sramPoison array word (max s.clk.safe safe) (setSafe safe s))) := by
  have e : scrubRead array word 2 2 last safe s
      = passEnd last (burstCheck (scrubMark array word (sramPoison array word (max s.clk.safe safe) (setSafe safe s)))) := rfl
  rw [e, burstCheck_few]
  obtain ⟨x, hx⟩ := scrubMark_only array word (sramPoison array word (max s.clk.safe safe) (setSafe safe s))
  obtain ⟨-, hm⟩ := sramPoison_noted array word (max s.clk.safe safe) (setSafe safe s)
  rw [hx]
  change (sramPoison _ _ _ _).mem.poisonTimes.length ≤ 16
  rw [hm]
  refine (List.length_filter_le ..).trans ?_
  simpa using hn

/-- The line that the DRAM scrub reads next (R508). -/
def lineDone (line : Nat) (s : State) : State :=
  if channelBytes s ≤ 64 * (line + 1) then { s with mem := { s.mem with scrubLine := 0, dramPasses := s.mem.dramPasses + 1 } }
  else { s with mem := { s.mem with scrubLine := line + 1 } }

theorem lineDone_eq (line : Nat) (s : State) : lineDone line s = { s with mem := { s.mem with
    scrubLine := if channelBytes s ≤ 64 * (line + 1) then 0 else line + 1
    dramPasses := s.mem.dramPasses + if channelBytes s ≤ 64 * (line + 1) then 1 else 0 } } := by
  unfold lineDone
  split <;> rfl

theorem dramScrubRead_clean {s : State} (h0 : s.mem.ch0.trained = true) (h1 : s.mem.ch1.trained = true) (safe : Nat) :
    dramScrubRead [] safe s = lineDone s.mem.scrubLine (setSafe safe s) := if_neg (by simp [h0, h1])

theorem dramScrubRead_error {s : State} (h0 : s.mem.ch0.trained = true) (h1 : s.mem.ch1.trained = true) (e : Nat × Nat × Nat)
    (safe : Nat) : dramScrubRead [e] safe s = lineDone s.mem.scrubLine (dramReadComplete
      (channelAddr (e.1 / 8 % 2) (64 * s.mem.scrubLine + 8 * (e.1 % 8))) 7 e.2.1 e.2.2 safe (setSafe safe s)) :=
  if_neg (by simp [h0, h1])

/-- A read with a corrected word leaves all but the retry buffers, the words to write back and a counter. -/
theorem dramReadComplete_corrected {addr port safe : Nat} {s : State} (h : isPoisoned s addr = false) (b : Nat) :
    dramReadComplete addr port 1 b safe s = correctRead addr (readBegun addr safe s) := by
  rw [dramReadComplete_eq, h]
  rfl

/-! ### Transactions of the windows -/

/-- What one good word of a transaction leaves, from word `i` on (R513). -/
theorem eachWord_all {one : Nat → State → State} {m : Nat} {n i : Nat} {s : State} (P : Nat → State → Prop) (h0 : P i s)
    (hstep : ∀ j u, i ≤ j → j < i + n → P j u → P (j + 1) (one j u) ∧ sget 0 m (one j u).bus.rerr = 0) :
    P (i + n) (eachWord one m n i s) ∧ (0 < n → sget 0 m (eachWord one m n i s).bus.rerr = 0) := by
  induction n generalizing i s with
  | zero => exact ⟨h0, fun h => absurd h (by decide)⟩
  | succ n ih =>
    obtain ⟨hp, hr⟩ := hstep i s (le_refl _) (by omega) h0
    have e : eachWord one m (n + 1) i s = eachWord one m n (i + 1) (one i s) := if_neg (by omega)
    rw [e]
    obtain ⟨h1, h2⟩ := ih hp (fun j u hj hu => hstep j u (by omega) (by omega))
    refine ⟨by rwa [show i + (n + 1) = i + 1 + n by omega], fun _ => ?_⟩
    cases n with
    | zero => exact hr
    | succ n => exact h2 (by omega)

/-- A word of a window lies in it as the burst's first does. -/
theorem window_target {x i n : Nat} (hi : i < n) (h : 2 ≤ n → (0x80000000 + x) / 64 = (0x80000000 + x + 4 * n - 1) / 64)
    (hx : x < 2 ^ 31) (ha : x % 4 = 0) (r : Bool) : targetOf r (0x80000000 + x + 4 * i) = .window ∧ x + 4 * i < 2 ^ 31 := by
  have hb : x + 4 * i < 2 ^ 31 := by
    by_cases h2 : 2 ≤ n
    · have := h h2
      omega
    · omega
  refine ⟨?_, hb⟩
  unfold targetOf
  rw [if_neg (by omega), if_neg (by omega), if_neg (by omega), if_neg (by omega), if_neg (by omega), if_pos (by omega)]

theorem busRefused_window {m a : Nat} {w : Bool} {s : State} (ha : a % 4 = 0) (ht : ∀ r, targetOf r a = .window)
    (hp : hasPath m .window w = true) : busRefused m a w s = none := by
  unfold busRefused
  dsimp only
  rw [ht, hp, if_neg (by omega), if_neg (by decide), if_pos rfl]

theorem hasPath_of_serves {m a : Nat} {w : Bool} {s : State} (h : Serves m a w s)
    (ht : ∀ r, targetOf r a = .window) : hasPath m .window w = true := by
  by_contra hn
  have := h.2.1
  simp [busRefused, ht, hn, h.aligned] at this

/-- A read that reaches a window. -/
theorem busRead_windowRead {m a : Nat} {s : State} (hm : masterActive m s = true)
    (hr : busRefused m a false s = none) (ht : ∀ r, targetOf r a = .window) : busRead m a s = match windowRead m a s with
      | (_, some c, t) => busAnswer m 0 true (busError m a c false t)
      | (v, none, t) => busAnswer m v false (if isPoisoned s (windowAddr m a s) then
          burstCheck (deliverPoison (windowAddr m a s) 6 t.clk.safe t) else t) := by
  have h := ht (bit 0 (rget 0x10000300 0 s))
  unfold busRead
  generalize regRead m a s = r
  generalize targetOf (bit 0 (rget 0x10000300 0 s)) a = x at h
  generalize windowRead m a s = w
  obtain ⟨r1, r2⟩ := r
  obtain ⟨v, e, t⟩ := w
  rw [hm, hr, h]
  cases e <;> rfl

theorem windowRead_inside {m a : Nat} {s : State} (hd : windowAddr m a s + 4 ≤ dramBytes s) :
    windowRead m a s = (dramWord s (windowAddr m a s), none, s) := if_pos hd

theorem windowRead_outside {m a : Nat} {s : State} (hd : dramBytes s < windowAddr m a s + 4) :
    windowRead m a s = (0, some 3, s) := if_neg (Nat.not_le.mpr hd)

/-- A window word that DRAM holds unmarked is read (R514). -/
theorem busRead_window {m a : Nat} {s : State} (hm : masterActive m s = true) (hr : busRefused m a false s = none)
    (ht : ∀ r, targetOf r a = .window) (hd : windowAddr m a s + 4 ≤ dramBytes s)
    (hp : isPoisoned s (windowAddr m a s) = false) :
    busRead m a s = busAnswer m (dramWord s (windowAddr m a s)) false s := by
  rw [busRead_windowRead hm hr ht, windowRead_inside hd]
  dsimp only
  rw [hp, if_neg (by decide)]

/-- A window word outside DRAM is a bus error (R513). -/
theorem busRead_window_outside {m a : Nat} {s : State} (hm : masterActive m s = true) (hr : busRefused m a false s = none)
    (ht : ∀ r, targetOf r a = .window) (hd : dramBytes s < windowAddr m a s + 4) :
    busRead m a s = busAnswer m 0 true (busError m a 3 false s) := by
  rw [busRead_windowRead hm hr ht, windowRead_outside hd]

/-- What the window's answer to a write leaves, or its bus error. -/
def windowDone (m a : Nat) (s : State) (w : Option Nat × State) : State :=
  match w with
  | (some c, t) => busAnswer m (sget 0 m (answered m s).bus.rdata) true (busError m a c true t)
  | (none, t) => t

theorem busWrite_window {m a v : Nat} {s : State} (hm : masterActive m s = true) (hr : busRefused m a true s = none)
    (ht : ∀ r, targetOf r a = .window) (hv : v < 2 ^ 32) :
    busWrite m a v s = windowDone m a s (windowWrite m a v (answered m s)) := by
  have h := ht (bit 0 (rget 0x10000300 0 (answered m s)))
  unfold busWrite
  simp only [hm, hr, Nat.mod_eq_of_lt hv, Bool.not_true, Bool.false_eq_true, if_false]
  simp only [answered] at h ⊢
  rw [h]
  generalize windowWrite m a v (busAnswer m (sget 0 m s.bus.rdata) false s) = w
  obtain ⟨e, t⟩ := w
  cases e <;> rfl

/-- The host writes inside its region only. -/
def hostMay (m a n : Nat) (s : State) : Prop := m = 2 → s.mem.hostBase ≤ a ∧ a + n ≤ s.mem.hostBase + s.mem.hostLen

theorem windowWrite_good {m a v : Nat} {s : State} (hd : windowAddr m a s + 4 ≤ dramBytes s)
    (hh : hostMay m (windowAddr m a s) 4 s) : windowWrite m a v s = (none, dramPut (windowAddr m a s) (leBytes 4 v) s) := by
  unfold windowWrite
  dsimp only
  rw [if_neg (by omega), if_neg]
  simp only [Bool.and_eq_true, Bool.not_eq_true', Bool.and_eq_false_iff, decide_eq_true_eq, decide_eq_false_iff_not, not_and,
    not_or, not_not]
  exact hh

theorem windowWrite_bad {m a v : Nat} {s : State} (h : dramBytes s < windowAddr m a s + 4 ∨ ¬hostMay m (windowAddr m a s) 4 s) :
    ∃ c, windowWrite m a v s = (some c, s) := by
  unfold windowWrite
  dsimp only
  by_cases hd : dramBytes s < windowAddr m a s + 4
  · exact ⟨3, if_pos hd⟩
  · refine ⟨4, (if_neg hd).trans (if_pos ?_)⟩
    simp only [hostMay, Classical.not_imp] at h
    obtain ⟨hm, hn⟩ := h.resolve_left hd
    simp only [hm, decide_true, Bool.true_and, Bool.not_eq_true', Bool.and_eq_false_iff, decide_eq_false_iff_not]
    by_cases hb : s.mem.hostBase ≤ windowAddr m a s
    · exact .inr fun c => hn ⟨hb, by rwa [hm]⟩
    · exact .inl (by rwa [hm] at hb)

/-- An aligned word that stands unmarked in a channel that has not failed is stored as it is (R501). -/
theorem dramPut_word {a : Nat} {s : State} (ha : a % 4 = 0) (hp : isPoisoned s a = false) (hr : dramReserved s a = false)
    (v : Nat) : dramPut a (leBytes 4 v) s = { s with mem := { s.mem with
      dram := putBytes a (leBytes 4 v) s.mem.dram, writeBack := s.mem.writeBack.filter (· ≠ a / 8) } } := by
  have hl : (leBytes 4 v).length = 4 := leBytes_length 4 v
  have hn : 4 ≤ 8 - a % 8 := by omega
  obtain ⟨hmark, hdead⟩ := Bool.or_eq_false_iff.mp hp
  have hin : dramWriteIn a (leBytes 4 v) s = { s with mem := { s.mem with
      dram := putBytes a (leBytes 4 v) s.mem.dram, writeBack := s.mem.writeBack.filter (· ≠ a / 8) } } := by
    have hf : s.mem.poison.filter (· ≠ a / 8) = s.mem.poison := by
      refine List.filter_eq_self.mpr fun x hx => ?_
      simp only [ne_eq, decide_eq_true_eq]
      rintro rfl
      simp [hx] at hmark
    unfold dramWriteIn
    dsimp only
    rw [hr, hdead, hmark, hf]
    rfl
  unfold dramPut
  rw [hl, dramWrite, if_neg (by simp [leBytes])]
  dsimp only
  rw [List.take_of_length_le (by omega), List.drop_eq_nil_of_le (by omega), dramWrite, hin]
  rfl

end Sys2Proof.Machine
end

section
/-!
SUPPORT. Transactions of the DRAM windows (R510 to R515).
-/
namespace Sys2Proof.Machine

theorem getD_find {α : Type} (d : α) (k : Nat) (m : Sparse α) :
    ((m.find? (fun e => decide (e.1 = k))).map Prod.snd).getD d = sget d k m := by
  induction m with
  | nil => rfl
  | cons c t ih =>
    rw [sget]
    by_cases h : c.1 = k
    · rw [if_pos h, List.find?_cons_of_pos (by simpa using h)]
      rfl
    · rw [if_neg h, List.find?_cons_of_neg (by simpa using h), ih]

/-- What a requester reads in DRAM depends on the memory alone. -/
theorem dramByte_mem {s t : State} (h : t.mem = s.mem) (a : Nat) : dramByte t a = dramByte s a := by
  unfold dramByte dramReserved channelBytes isPoisoned chanGet
  rw [h]

theorem dramWord_mem {s t : State} (h : t.mem = s.mem) (a : Nat) : dramWord t a = dramWord s a := by
  unfold dramWord
  simp only [dramByte_mem h]

theorem isPoisoned_mem {s t : State} (h : t.mem = s.mem) (a : Nat) : isPoisoned t a = isPoisoned s a := by
  unfold isPoisoned chanGet
  rw [h]

theorem dramBytes_mem {s t : State} (h : t.mem = s.mem) : dramBytes t = dramBytes s := by
  unfold dramBytes channelBytes
  rw [h]

/-- The state with another answer of the interconnect. -/
def withAnswer (rd re : Sparse Nat) (bu : Sparse (List Nat)) (s : State) : State :=
  { s with bus := { s.bus with rdata := rd, rerr := re, burst := bu } }

theorem masterActive_withAnswer (m rd re bu s) : masterActive m (withAnswer rd re bu s) = masterActive m s := rfl

theorem windowAddr_word {m x i : Nat} {s t : State} (hx : x + 4 * i < 2 ^ 31) (h : t.bus.regs = s.bus.regs) :
    windowAddr m (0x80000000 + x + 4 * i) t = windowBase m s + x + 4 * i := by
  have e : windowBase m t = windowBase m s := by
    unfold windowBase rget
    rw [h]
  unfold windowAddr
  rw [e]
  omega

theorem transaction_good {m a bytes n : Nat} {w : Bool} {s : State} (hm : masterActive m s = true)
    (hf : formOk a bytes n s = true) (one : Nat → State → State) :
    transaction m a bytes n w one s = eachWord one m n 0 s := (if_neg (by simp [hm])).trans (if_pos hf)

theorem transaction_badForm {m a bytes n : Nat} {w : Bool} {s : State} (hm : masterActive m s = true)
    (hf : formOk a bytes n s = false) (one : Nat → State → State) : transaction m a bytes n w one s
    = busAnswer m (if w then sget 0 m s.bus.rdata else 0) true (busError m a 0 w s) :=
  (if_neg (by simp [hm])).trans (if_neg (by simp [hf]))

/-- A transaction within one line of a window has an allowed form (R511). -/
theorem formOk_window {x n : Nat} {s : State} (ha : (0x80000000 + x) % 4 = 0) (hx : x < 2 ^ 31) (h1 : 1 ≤ n) (h16 : n ≤ 16)
    (hl : 2 ≤ n → (0x80000000 + x) / 64 = (0x80000000 + x + 4 * n - 1) / 64) : formOk (0x80000000 + x) 4 n s = true := by
  have ht := (window_target (i := 0) (n := n) h1 hl hx (by omega) (bit 0 (rget 0x10000300 0 s))).1
  rw [Nat.mul_zero, Nat.add_zero] at ht
  unfold formOk
  rw [ht]
  by_cases h2 : 2 ≤ n
  · have := hl h2
    simp [ha, h2, h16, this]
  · simp [ha, show n = 1 by omega]

/-- The word read joins the burst's. -/
def keepWord (m : Nat) (s : State) : State := { s with bus := { s.bus with
  burst := sput m ((((s.bus.burst.find? (fun e => decide (e.1 = m))).map Prod.snd).getD []) ++ [sget 0 m s.bus.rdata]) s.bus.burst } }

theorem busReads_eq (m a bytes n : Nat) (s : State) : busReads m a bytes n s
    = transaction m a bytes n false (fun i s => keepWord m (busRead m (a + 4 * i) s))
        (withAnswer s.bus.rdata s.bus.rerr (sput m [] s.bus.burst) s) := rfl

theorem keepWord_answer (m v : Nat) (rd re : Sparse Nat) (bu : Sparse (List Nat)) (s : State) :
    keepWord m (busAnswer m v false (withAnswer rd re bu s))
      = withAnswer (sset 0 m v rd) (sset 0 m 0 re) (sput m (sget [] m bu ++ [v]) bu) s := by
  have e : keepWord m (busAnswer m v false (withAnswer rd re bu s)) = withAnswer (sset 0 m v rd) (sset 0 m 0 re)
    (sput m (((bu.find? (fun e => decide (e.1 = m))).map Prod.snd).getD [] ++ [sget 0 m (sset 0 m v rd)]) bu) s := rfl
  rw [e, getD_find, sget_sset_self]

/-- A burst that stays in DRAM, within one line of the window (R511, R514). -/
structure WindowBurst (m x n : Nat) (w : Bool) (s : State) : Prop where
  served : Serves m (0x80000000 + x) w s
  offset : x < 2 ^ 31
  some_ : 1 ≤ n
  few : n ≤ 16
  line : 2 ≤ n → (0x80000000 + x) / 64 = (0x80000000 + x + 4 * n - 1) / 64
  inside : windowBase m s + x + 4 * n ≤ dramBytes s
  clean : ∀ i < n, isPoisoned s (windowBase m s + x + 4 * i) = false

section
variable {m x n : Nat} {w : Bool} {s : State} (h : WindowBurst m x n w s)
include h

theorem WindowBurst.target {i : Nat} (hi : i < n) (r : Bool) : targetOf r (0x80000000 + x + 4 * i) = .window :=
  (window_target hi h.line h.offset (by have := h.served.aligned; omega) r).1

theorem WindowBurst.below {i : Nat} (hi : i < n) : x + 4 * i < 2 ^ 31 :=
  (window_target hi h.line h.offset (by have := h.served.aligned; omega) false).2

theorem WindowBurst.path : hasPath m .window w = true :=
  hasPath_of_serves h.served fun r => by
    have := h.target h.some_ r
    simpa using this

theorem WindowBurst.refused {i : Nat} (hi : i < n) (t : State) : busRefused m (0x80000000 + x + 4 * i) w t = none :=
  busRefused_window (by have := h.served.aligned; omega) (fun r => h.target hi r) h.path

theorem WindowBurst.form (t : State) : formOk (0x80000000 + x) 4 n t = true :=
  formOk_window h.served.aligned h.offset h.some_ h.few h.line

end

/-- What the first `j` words of a burst that is read leave. -/
def BurstRead (m x : Nat) (s : State) (j : Nat) (u : State) : Prop := ∃ rd re bu, u = withAnswer rd re bu s
  ∧ sget [] m bu = (List.range j).map (fun i => dramWord s (windowBase m s + x + 4 * i))

theorem BurstRead.next {m x n j : Nat} {s u : State} (h : WindowBurst m x n false s) (hj : j < n) (hu : BurstRead m x s j u) :
    BurstRead m x s (j + 1) (keepWord m (busRead m (0x80000000 + x + 4 * j) u))
      ∧ sget 0 m (keepWord m (busRead m (0x80000000 + x + 4 * j) u)).bus.rerr = 0 := by
  obtain ⟨rd, re, bu, rfl, hb⟩ := hu
  have hmem : (withAnswer rd re bu s).mem = s.mem := rfl
  have haddr : windowAddr m (0x80000000 + x + 4 * j) (withAnswer rd re bu s) = windowBase m s + x + 4 * j :=
    windowAddr_word (h.below hj) rfl
  have hin : windowBase m s + x + 4 * j + 4 ≤ dramBytes s := by have := h.inside; omega
  have e := busRead_window (s := withAnswer rd re bu s) ((masterActive_withAnswer ..).trans h.served.1) (h.refused hj _)
    (fun r => h.target hj r) (by rw [haddr, dramBytes_mem hmem]; exact hin)
    (by rw [haddr, isPoisoned_mem hmem]; exact h.clean j hj)
  rw [e, haddr, dramWord_mem hmem, keepWord_answer]
  refine ⟨⟨_, _, _, rfl, ?_⟩, sget_sset_self 0 m 0 re⟩
  rw [sget_sput_self, hb, List.range_succ, List.map_append]
  rfl

/-- The words of a burst that DRAM holds unmarked are answered in their order. -/
theorem busReads_whole {m x n : Nat} {s : State} (h : WindowBurst m x n false s) :
    ∃ rd re bu, busReads m (0x80000000 + x) 4 n s = withAnswer rd re bu s ∧ sget 0 m re = 0
      ∧ sget [] m bu = (List.range n).map (fun i => dramWord s (windowBase m s + x + 4 * i)) := by
  rw [busReads_eq, transaction_good ((masterActive_withAnswer ..).trans h.served.1) (h.form _)]
  obtain ⟨⟨rd, re, bu, hu, hb⟩, hr⟩ := eachWord_all (one := fun i s => keepWord m (busRead m (0x80000000 + x + 4 * i) s))
    (m := m) (n := n) (i := 0) (s := withAnswer s.bus.rdata s.bus.rerr (sput m [] s.bus.burst) s) (BurstRead m x s)
    ⟨_, _, _, rfl, sget_sput_self ..⟩ (fun j u _ hj hu => hu.next h (by omega))
  have := hr h.some_
  rw [hu] at this ⊢
  rw [Nat.zero_add] at hb
  exact ⟨rd, re, bu, rfl, this, hb⟩

/-! ### Bursts written -/

/-- The byte of little-endian words from an address on. -/
def wordByte (vs : List Nat) (a b : Nat) : Nat := nth 0 vs ((b - a) / 4) / 256 ^ ((b - a) % 4) % 256

/-- The state with other bytes in DRAM, words to write back and answers. -/
def storedTo (rd re : Sparse Nat) (d : List Host.Cell) (wb : List Nat) (s : State) : State :=
  { s with bus := { s.bus with rdata := rd, rerr := re }, mem := { s.mem with dram := d, writeBack := wb } }

/-- What the first `j` words of a burst that is written leave. -/
def BurstWritten (a : Nat) (vs : List Nat) (s : State) (j : Nat) (u : State) : Prop := ∃ rd re d wb,
  u = storedTo rd re d wb s
  ∧ ∀ b, (byteAt b d).toNat = if a ≤ b ∧ b < a + 4 * j then wordByte vs a b else (byteAt b s.mem.dram).toNat

theorem byteAt_putWord {a v b : Nat} (m : List Host.Cell) : (byteAt b (putBytes a (leBytes 4 v) m)).toNat
    = if a ≤ b ∧ b < a + 4 then v / 256 ^ (b - a) % 256 else (byteAt b m).toNat := by
  have hl : ((leBytes 4 v).map (BitVec.ofNat 8)).length = 4 := by simp [leBytes_length]
  unfold byteAt putBytes
  by_cases h : a ≤ b ∧ b < a + 4
  · obtain ⟨i, rfl⟩ := Nat.exists_eq_add_of_le h.1
    have hi : i < 4 := by omega
    rw [if_pos h, sget_ssetList _ a i _ (by omega), List.getElem_map, Nat.add_sub_cancel_left,
      (List.getElem?_eq_some_iff.mp (leBytes_getElem? hi v)).2, BitVec.toNat_ofNat]
    exact Nat.mod_eq_of_lt (Nat.mod_lt _ (by decide))
  · rw [if_neg h, sget_ssetList_of_ne _ a b _ (by omega)]

/-- A burst's words that the master may write, at an aligned place whose bytes are kept (R485, R513). -/
structure WindowStore (m x : Nat) (vs : List Nat) (s : State) : Prop extends WindowBurst m x vs.length true s where
  aligned : (windowBase m s + x) % 4 = 0
  host : hostMay m (windowBase m s + x) (4 * vs.length) s
  kept : ∀ j < 4 * vs.length, dramReserved s (windowBase m s + x + j) = false
  words : ∀ v ∈ vs, v < 2 ^ 32

theorem WindowStore.word {m x j : Nat} {vs : List Nat} {s : State} (h : WindowStore m x vs s) : nth 0 vs j < 2 ^ 32 := by
  unfold nth
  rw [List.getD_eq_getElem?_getD]
  cases hj : vs[j]? with
  | none => exact Nat.two_pow_pos 32
  | some v => exact h.words v (List.mem_of_getElem? hj)

theorem dramBytes_geometry {s t : State} (hd : t.mem.density = s.mem.density) (hr : t.mem.ranks = s.mem.ranks) :
    dramBytes t = dramBytes s := by
  unfold dramBytes channelBytes
  rw [hd, hr]

theorem dramReserved_geometry {s t : State} (hd : t.mem.density = s.mem.density) (hr : t.mem.ranks = s.mem.ranks) (a : Nat) :
    dramReserved t a = dramReserved s a := by
  unfold dramReserved channelBytes
  rw [hd, hr]

theorem dramReserved_storedTo (rd re d wb) (s : State) (a : Nat) : dramReserved (storedTo rd re d wb s) a = dramReserved s a :=
  dramReserved_geometry (t := storedTo rd re d wb s) (s := s) rfl rfl a

theorem isPoisoned_storedTo (rd re d wb) (s : State) (a : Nat) : isPoisoned (storedTo rd re d wb s) a = isPoisoned s a := rfl

theorem dramBytes_storedTo (rd re d wb) (s : State) : dramBytes (storedTo rd re d wb s) = dramBytes s :=
  dramBytes_geometry (t := storedTo rd re d wb s) (s := s) rfl rfl

/-- A word of the burst is stored in its place. -/
theorem busWrite_store {m x j : Nat} {vs : List Nat} {s : State} (h : WindowStore m x vs s) (hj : j < vs.length)
    (rd re : Sparse Nat) (d : List Host.Cell) (wb : List Nat) :
    let u := storedTo rd re d wb s
    busWrite m (0x80000000 + x + 4 * j) (nth 0 vs j) u = { answered m u with mem := { s.mem with
      dram := putBytes (windowBase m s + x + 4 * j) (leBytes 4 (nth 0 vs j)) d
      writeBack := wb.filter (· ≠ (windowBase m s + x + 4 * j) / 8) } } := by
  intro u
  have haddr : windowAddr m (0x80000000 + x + 4 * j) (answered m u) = windowBase m s + x + 4 * j :=
    windowAddr_word (h.below hj) rfl
  have hin : windowBase m s + x + 4 * j + 4 ≤ dramBytes (answered m u) := by
    rw [dramBytes_mem (t := answered m u) (s := u) rfl, dramBytes_storedTo]
    have := h.inside
    omega
  have hh : hostMay m (windowBase m s + x + 4 * j) 4 (answered m u) := fun hm => by
    obtain ⟨h1, h2⟩ := h.host hm
    exact ⟨Nat.le_trans h1 (Nat.le_add_right ..), Nat.le_trans (by omega) h2⟩
  have hp : isPoisoned (answered m u) (windowBase m s + x + 4 * j) = false := h.clean j hj
  have hr : dramReserved (answered m u) (windowBase m s + x + 4 * j) = false :=
    (dramReserved_geometry (t := answered m u) (s := s) rfl rfl _).trans (h.kept (4 * j) (by omega))
  rw [busWrite_window (s := u) h.served.1 (h.refused hj _) (fun r => h.target hj r) h.word,
    windowWrite_good (by rw [haddr]; exact hin) (by rw [haddr]; exact hh), haddr, windowDone]
  exact dramPut_word (by have := h.aligned; omega) hp hr _

theorem BurstWritten.next {m x j : Nat} {vs : List Nat} {s u : State} (h : WindowStore m x vs s) (hj : j < vs.length)
    (hu : BurstWritten (windowBase m s + x) vs s j u) :
    BurstWritten (windowBase m s + x) vs s (j + 1) (busWrite m (0x80000000 + x + 4 * j) (nth 0 vs j) u)
      ∧ sget 0 m (busWrite m (0x80000000 + x + 4 * j) (nth 0 vs j) u).bus.rerr = 0 := by
  obtain ⟨rd, re, d, wb, rfl, hb⟩ := hu
  rw [busWrite_store h hj]
  refine ⟨⟨_, _, _, _, rfl, fun b => ?_⟩, rerr_busAnswer m _ false _⟩
  rw [byteAt_putWord, hb]
  generalize windowBase m s + x = a
  by_cases h1 : a ≤ b ∧ b < a + 4 * j
  · rw [if_neg (by omega), if_pos h1, if_pos (by omega)]
  · by_cases h2 : a + 4 * j ≤ b ∧ b < a + 4 * j + 4
    · rw [if_pos h2, if_pos (by omega)]
      unfold wordByte
      rw [show (b - a) / 4 = j by omega, show (b - a) % 4 = b - (a + 4 * j) by omega]
    · rw [if_neg h2, if_neg h1, if_neg (by omega)]

/-- The words of a burst are stored, and no other byte changes. -/
theorem busWrites_whole {m x : Nat} {vs : List Nat} {s : State} (h : WindowStore m x vs s) :
    BurstWritten (windowBase m s + x) vs s vs.length (busWrites m (0x80000000 + x) 4 vs s)
      ∧ sget 0 m (busWrites m (0x80000000 + x) 4 vs s).bus.rerr = 0 := by
  have e : busWrites m (0x80000000 + x) 4 vs s
      = eachWord (fun i s => busWrite m (0x80000000 + x + 4 * i) (nth 0 vs i) s) m vs.length 0 s :=
    transaction_good h.served.1 (h.form s) _
  obtain ⟨hu, hr⟩ := eachWord_all (one := fun i s => busWrite m (0x80000000 + x + 4 * i) (nth 0 vs i) s) (m := m)
    (n := vs.length) (i := 0) (s := s) (BurstWritten (windowBase m s + x) vs s)
    ⟨_, _, _, _, rfl, fun b => (if_neg (by omega)).symm⟩ (fun j u _ hj hu => hu.next h (by omega))
  rw [e]
  rw [Nat.zero_add] at hu
  exact ⟨hu, hr h.some_⟩

/-- What the requesters read after the burst. -/
theorem dramByte_written {m x : Nat} {vs : List Nat} {s t : State} (h : WindowStore m x vs s)
    (ht : BurstWritten (windowBase m s + x) vs s vs.length t) (b : Nat) : dramByte t b
    = if windowBase m s + x ≤ b ∧ b < windowBase m s + x + 4 * vs.length then wordByte vs (windowBase m s + x) b
      else dramByte s b := by
  obtain ⟨rd, re, d, wb, rfl, hb⟩ := ht
  have e : dramByte (storedTo rd re d wb s) b = if dramReserved s b || isPoisoned s b then 0 else (byteAt b d).toNat := by
    unfold dramByte
    rw [dramReserved_storedTo, isPoisoned_storedTo]
    rfl
  rw [e, hb]
  by_cases hin : windowBase m s + x ≤ b ∧ b < windowBase m s + x + 4 * vs.length
  · obtain ⟨i, rfl⟩ := Nat.exists_eq_add_of_le hin.1
    have hi : i < 4 * vs.length := by omega
    have hp : isPoisoned s (windowBase m s + x + i) = false := by
      have := isPoisoned_word (a := windowBase m s + x + 4 * (i / 4)) (i := i % 4) (by have := h.aligned; omega)
        (Nat.mod_lt _ (by decide)) s
      rw [show windowBase m s + x + 4 * (i / 4) + i % 4 = windowBase m s + x + i by omega] at this
      rw [this, h.clean (i / 4) (by omega)]
    rw [if_pos hin, if_pos hin, h.kept i hi, hp]
    exact if_neg (by decide)
  · rw [if_neg hin, if_neg hin, dramByte]

/-! ### Bus errors of the windows -/

/-- A bus error is answered, counted and raised, and no memory changes (R513). -/
theorem busError_stops (m a v c : Nat) (w : Bool) {s u : State} (hu : u.mem = s.mem) (hev : u.ev = s.ev)
    (hc : cget 0x1000030C 0 u = cget 0x1000030C 0 s) : let t := busAnswer m v true (busError m a c w u)
    t.mem = s.mem ∧ sget 0 m t.bus.rerr = 1 ∧ Counts 0x1000030C 0 1 s t ∧ Rings 0x7F s t := by
  obtain ⟨hf, hcount, hring, -⟩ := busError_heard m a c w u
  refine ⟨?_, rerr_busAnswer m v true _, counts_of_cget hc hcount, rings_of_ev' hev hring⟩
  exact (congrArg State.mem hf).trans hu

theorem windowAccess_eq (m : Nat) (x : BitVec 31) (w : Bool) (bytes n : Nat) (vs : List Word) (s : State) :
    windowAccess m x.toNat w bytes n (vs.map BitVec.toNat) s
      = if w then busWrites m (0x80000000 + x.toNat) bytes (vs.map BitVec.toNat) s
        else busReads m (0x80000000 + x.toNat) bytes n s := by
  unfold windowAccess
  rw [Nat.mod_eq_of_lt x.isLt]

end Sys2Proof.Machine
end

section
/-!
SUPPORT. The commands of the memories, each by its equation (chapter 14).
-/
namespace Sys2Proof.Machine

/-! ### Refresh -/

theorem refresh_late {i r : Nat} {waiting : Bool} {s : State} (hi : i < 2) (hr : r < 2) (hn : r < s.mem.ranks)
    (ht : (chanGet i s).trained = true) (hd : (chanGet i s).dead = false)
    (h : waiting = true ∧ owedOf r (chanGet i s) < refreshLimit (chanGet i s)) (off : List Int) :
    exec (.refreshDue i r waiting off) s
      = .next (chanSet i (setOwed r (owedOf r (chanGet i s) + 1) (chanGet i s)) s) := by
  refine withInstances_next.mpr ⟨by simp [hi, hr], ?_⟩
  rw [refreshRow_on hn ht hd, refreshDue_late h]

/-- A refresh that is issued, with the sample points' moves while audio runs (R490, R491). -/
theorem refresh_now {i r : Nat} {waiting : Bool} {s : State} (hi : i < 2) (hr : r < 2) (hn : r < s.mem.ranks)
    (ht : (chanGet i s).trained = true) (hd : (chanGet i s).dead = false)
    (h : ¬(waiting = true ∧ owedOf r (chanGet i s) < refreshLimit (chanGet i s))) (off : List Int) :
    exec (.refreshDue i r waiting off) s
      = .next (chanSet i (centre r (if s.grid.running then off else []) (refreshed r waiting (chanGet i s))) s) := by
  refine withInstances_next.mpr ⟨by simp [hi, hr], ?_⟩
  rw [refreshRow_on hn ht hd, refreshDue_now h]

theorem zqCalibration_ranks {n : Nat} (h : n = 1 ∨ n = 2) (c : Channel) :
    issued n 1 c = { c with retry := lastN 16 (c.retry ++ List.replicate n 1) } := by
  rcases h with rfl | rfl
  · exact issued_eq 0 1 c
  · exact issued_eq 1 1 c

/-! ### Parity alerts -/

/-- The alert of a trained channel is noted, and its third failure in a row fails the channel (R496, R497). -/
theorem parityAlert_on {i : Nat} {s : State} (ht : (chanGet i s).trained = true) (hd : (chanGet i s).dead = false)
    (again : Bool) : parityAlert i again s
    = if 3 ≤ (if again then (chanGet i s).streak + 1 else 0) then
        channelFail i (chanSet i { chanGet i s with
          alert := true, streak := if again then (chanGet i s).streak + 1 else 0 } s)
      else chanSet i { chanGet i s with alert := true, streak := if again then (chanGet i s).streak + 1 else 0 } s := by
  unfold parityAlert
  dsimp only
  rw [onChannel_on ht hd, chanGet_chanSet_self]

theorem alertReturn_on {i : Nat} {s : State} (ha : (chanGet i s).alert = true) (hd : (chanGet i s).dead = false) :
    alertReturn i s = raise 0x7B i (count 0x10120044 0 1 (chanSet i { chanGet i s with alert := false } s)) :=
  if_neg (by simp [ha, hd])

@[simp] theorem cget_chanSet (a k i c s) : cget a k (chanSet i c s) = cget a k s := by unfold chanSet; split <;> rfl

/-! ### Temperature -/

theorem hotChange_pins {s : State} (h : s.mem.tempI2c = false) (low : Bool) :
    hotChange low s = refreshMode low { s with mem := { s.mem with hotLow := low } } := by
  unfold hotChange
  exact if_neg (by simp [h])

theorem hotChange_i2c {s : State} (h : s.mem.tempI2c = true) (low : Bool) :
    hotChange low s = { s with mem := { s.mem with hotLow := low } } := by
  unfold hotChange
  exact if_pos h

/-- The state with this temperature read. -/
def tempTaken (x : Int) (s : State) : State := { s with mem := { s.mem with temp := x, tempFails := 0 } }

theorem tempRead_some {s : State} (h : s.mem.tempI2c = true) (x : Int) : tempRead (some x) s
    = if x > 340 then refreshMode true (tempTaken x s) else if x ≤ 332 then refreshMode false (tempTaken x s)
      else tempTaken x s := if_neg (by simp [h])

/-- The state in which `n` reads in a row have failed. -/
def tempFailed (n : Nat) (s : State) : State := { s with mem := { s.mem with tempFails := n } }

theorem tempRead_none_few {s : State} (h : s.mem.tempI2c = true) (hf : s.mem.tempFails < 2) :
    tempRead none s = tempFailed (s.mem.tempFails + 1) s := by
  have e : tempRead none s = if s.mem.tempFails + 1 = 3 then raise 0x7A 0 (refreshMode true (tempFailed (min (s.mem.tempFails + 1) 3) s))
    else if 3 ≤ s.mem.tempFails + 1 then refreshMode true (tempFailed (min (s.mem.tempFails + 1) 3) s)
    else tempFailed (min (s.mem.tempFails + 1) 3) s := if_neg (by simp [h])
  rw [e, if_neg (by omega), if_neg (by omega), Nat.min_eq_left (by omega)]

theorem tempRead_none_third {s : State} (h : s.mem.tempI2c = true) (hf : s.mem.tempFails = 2) :
    tempRead none s = raise 0x7A 0 (refreshMode true (tempFailed 3 s)) := by
  have e : tempRead none s = if s.mem.tempFails + 1 = 3 then raise 0x7A 0 (refreshMode true (tempFailed (min (s.mem.tempFails + 1) 3) s))
    else if 3 ≤ s.mem.tempFails + 1 then refreshMode true (tempFailed (min (s.mem.tempFails + 1) 3) s)
    else tempFailed (min (s.mem.tempFails + 1) 3) s := if_neg (by simp [h])
  rw [e, hf, if_pos rfl]
  rfl

theorem nth_map_toNat (vs : List Word) (i : Nat) : nth 0 (vs.map BitVec.toNat) i = (nth 0 vs i).toNat := by
  unfold nth
  rw [List.getD_eq_getElem?_getD, List.getD_eq_getElem?_getD, List.getElem?_map]
  cases vs[i]? <;> rfl

/-- A single word of a window that its master may reach. -/
theorem window_word {m x : Nat} {w : Bool} {s : State} (h : Serves m (0x80000000 + x) w s) (hx : x < 2 ^ 31) :
    (∀ r, targetOf r (0x80000000 + x) = .window) ∧ windowAddr m (0x80000000 + x) s = windowBase m s + x := by
  have ha := h.aligned
  refine ⟨fun r => ?_, ?_⟩
  · have := (window_target (i := 0) (n := 1) (by decide) (fun c => absurd c (by decide)) hx (by omega) r).1
    rwa [Nat.mul_zero, Nat.add_zero] at this
  · have := windowAddr_word (m := m) (i := 0) (s := s) (t := s) (by omega : x + 4 * 0 < 2 ^ 31) rfl
    rwa [Nat.mul_zero, Nat.add_zero, Nat.add_zero] at this

theorem busReads_outside {m x : Nat} {s : State} (h : Serves m (0x80000000 + x) false s) (hx : x < 2 ^ 31)
    (hd : dramBytes s < windowBase m s + x + 4) : ∃ u, u.mem = s.mem ∧ u.ev = s.ev ∧ cget 0x1000030C 0 u = cget 0x1000030C 0 s
      ∧ busReads m (0x80000000 + x) 4 1 s = keepWord m (busAnswer m 0 true (busError m (0x80000000 + x) 3 false u)) := by
  obtain ⟨ht, haddr⟩ := window_word h hx
  refine ⟨withAnswer s.bus.rdata s.bus.rerr (sput m [] s.bus.burst) s, rfl, rfl, rfl, ?_⟩
  rw [busReads_eq, transaction_good ((masterActive_withAnswer ..).trans h.1) (formOk_word h.aligned _), eachWord_one,
    Nat.mul_zero, Nat.add_zero]
  refine congrArg (keepWord m) (busRead_window_outside ((masterActive_withAnswer ..).trans h.1) h.2.1 ht ?_)
  rw [dramBytes_mem (t := withAnswer s.bus.rdata s.bus.rerr (sput m [] s.bus.burst) s) (s := s) rfl]
  exact (show windowAddr m (0x80000000 + x) _ = _ from haddr) ▸ hd

theorem busWrites_bad {m x : Nat} {v : Nat} {s : State} (h : Serves m (0x80000000 + x) true s) (hx : x < 2 ^ 31)
    (hv : v < 2 ^ 32) (hd : dramBytes s < windowBase m s + x + 4 ∨ ¬hostMay m (windowBase m s + x) 4 s) :
    ∃ c, busWrites m (0x80000000 + x) 4 [v] s
      = busAnswer m (sget 0 m (answered m s).bus.rdata) true (busError m (0x80000000 + x) c true (answered m s)) := by
  obtain ⟨ht, haddr⟩ := window_word h hx
  obtain ⟨c, hc⟩ := windowWrite_bad (m := m) (a := 0x80000000 + x) (v := v) (s := answered m s)
    (by rwa [show windowAddr m (0x80000000 + x) (answered m s) = _ from haddr])
  refine ⟨c, (transaction_good h.1 (formOk_word h.aligned s) _).trans ?_⟩
  rw [eachWord_one, Nat.mul_zero, Nat.add_zero, show nth 0 [v] 0 = v from rfl, busWrite_window h.1 h.2.1 ht hv, hc, windowDone]

/-- A bus error is answered, counted and raised, and no memory changes (R513). -/
def Stopped (m : Nat) (s t : State) : Prop :=
  t.mem = s.mem ∧ sget 0 m t.bus.rerr = 1 ∧ Counts 0x1000030C 0 1 s t ∧ Rings 0x7F s t

theorem Stopped.keepWord {m : Nat} {s t : State} (h : Stopped m s t) : Stopped m s (keepWord m t) := by
  obtain ⟨hm, hr, hc, he⟩ := h
  exact ⟨hm, hr, hc, he⟩

/-- The words of an access lie in DRAM within one line, unmarked. -/
def WholeAccess (m x n : Nat) (s : State) : Prop :=
  1 ≤ n ∧ n ≤ 16 ∧ (2 ≤ n → (0x80000000 + x) / 64 = (0x80000000 + x + 4 * n - 1) / 64)
    ∧ windowBase m s + x + 4 * n ≤ dramBytes s ∧ ∀ i < n, isPoisoned s (windowBase m s + x + 4 * i) = false

theorem window_read {m n : Nat} {x : BitVec 31} {s : State} (hm : m < 5) (h : Serves m (0x80000000 + x.toNat) false s)
    (hw : WholeAccess m x.toNat n s) : ∃ t, exec (.dramWindowAccess m x false ⟨4, n, []⟩) s = .next t
      ∧ t = { s with bus := t.bus } ∧ SameRegs t.bus s.bus ∧ sget 0 m t.bus.rerr = 0
      ∧ sget [] m t.bus.burst = (List.range n).map (fun i => dramWord s (windowBase m s + x.toNat + 4 * i)) := by
  obtain ⟨hn1, hn16, hl, hd, hc⟩ := hw
  obtain ⟨rd, re, bu, e, hre, hbu⟩ := busReads_whole (m := m) (x := x.toNat) (n := n) ⟨h, x.isLt, hn1, hn16, hl, hd, hc⟩
  refine ⟨_, withInstance_next.mpr ⟨hm, rfl⟩, ?_⟩
  rw [windowAccess_eq, if_neg (by decide), e]
  exact ⟨rfl, ⟨rfl, rfl, rfl⟩, hre, hbu⟩

theorem window_write {m n : Nat} {x : BitVec 31} {vs : List Word} {s : State} (hm : m < 5)
    (h : Serves m (0x80000000 + x.toNat) true s) (hw : WholeAccess m x.toNat n s) (hn : vs.length = n)
    (ha : (windowBase m s + x.toNat) % 4 = 0) (hh : hostMay m (windowBase m s + x.toNat) (4 * n) s)
    (hk : ∀ j < 4 * n, dramReserved s (windowBase m s + x.toNat + j) = false) :
    ∃ t, exec (.dramWindowAccess m x true ⟨4, n, vs⟩) s = .next t ∧ t = { s with bus := t.bus, mem := t.mem }
      ∧ SameRegs t.bus s.bus ∧ sget 0 m t.bus.rerr = 0
      ∧ ∀ b, dramByte t b = if windowBase m s + x.toNat ≤ b ∧ b < windowBase m s + x.toNat + 4 * n then
          (nth 0 vs ((b - (windowBase m s + x.toNat)) / 4)).toNat / 256 ^ ((b - (windowBase m s + x.toNat)) % 4) % 256
        else dramByte s b := by
  subst hn
  obtain ⟨hn1, hn16, hl, hd, hc⟩ := hw
  have hlen : (vs.map BitVec.toNat).length = vs.length := List.length_map ..
  have hst : WindowStore m x.toNat (vs.map BitVec.toNat) s :=
    { served := h, offset := x.isLt, some_ := by rwa [hlen], few := by rwa [hlen], line := by rwa [hlen]
      inside := by rwa [hlen], clean := by rwa [hlen], aligned := ha, host := by rwa [hlen], kept := by rwa [hlen]
      words := fun w hw => by
        obtain ⟨v, _, rfl⟩ := List.mem_map.mp hw
        exact v.isLt }
  obtain ⟨hw, hr⟩ := busWrites_whole hst
  have hb := dramByte_written hst hw
  obtain ⟨rd, re, d, wb, hu, -⟩ := hw
  refine ⟨_, withInstance_next.mpr ⟨hm, rfl⟩, ?_⟩
  rw [windowAccess_eq, if_pos rfl]
  refine ⟨?_, ?_, hr, fun b => (hb b).trans ?_⟩
  · rw [hu]; rfl
  · rw [hu]; exact ⟨rfl, rfl, rfl⟩
  · rw [hlen, wordByte, nth_map_toNat]

theorem formOk_withAnswer (a bytes n rd re bu s) : formOk a bytes n (withAnswer rd re bu s) = formOk a bytes n s := rfl

theorem window_badForm {m n bytes : Nat} {x : BitVec 31} {write : Bool} (hm : m < 5) (vs : List Word) {s : State}
    (ha : masterActive m s = true) (hf : formOk (0x80000000 + x.toNat) bytes (if write then vs.length else n) s = false) :
    ∃ t, exec (.dramWindowAccess m x write ⟨bytes, n, vs⟩) s = .next t ∧ Stopped m s t := by
  refine ⟨_, withInstance_next.mpr ⟨hm, rfl⟩, ?_⟩
  rw [windowAccess_eq]
  cases write
  · have e : busReads m (0x80000000 + x.toNat) bytes n s = busAnswer m 0 true (busError m (0x80000000 + x.toNat) 0 false
        (withAnswer s.bus.rdata s.bus.rerr (sput m [] s.bus.burst) s)) :=
      transaction_badForm ((masterActive_withAnswer ..).trans ha) ((formOk_withAnswer ..).trans hf) _
    rw [if_neg (by decide), e]
    exact busError_stops m _ _ 0 false rfl rfl rfl
  · have e : busWrites m (0x80000000 + x.toNat) bytes (vs.map BitVec.toNat) s
        = busAnswer m (sget 0 m s.bus.rdata) true (busError m (0x80000000 + x.toNat) 0 true s) :=
      transaction_badForm ha (by rw [List.length_map]; exact hf) _
    rw [if_pos rfl, e]
    exact busError_stops m _ _ 0 true rfl rfl rfl

theorem window_badWord {m : Nat} {x : BitVec 31} {write : Bool} (hm : m < 5) (v : Word) {s : State}
    (h : Serves m (0x80000000 + x.toNat) write s) (hbad : dramBytes s < windowBase m s + x.toNat + 4
      ∨ m = 2 ∧ write = true ∧ ¬(s.mem.hostBase ≤ windowBase m s + x.toNat
        ∧ windowBase m s + x.toNat + 4 ≤ s.mem.hostBase + s.mem.hostLen)) :
    ∃ t, exec (.dramWindowAccess m x write ⟨4, 1, [v]⟩) s = .next t ∧ Stopped m s t := by
  refine ⟨_, withInstance_next.mpr ⟨hm, rfl⟩, ?_⟩
  rw [windowAccess_eq]
  cases write
  · obtain ⟨u, h1, h2, h3, e⟩ := busReads_outside h x.isLt (hbad.resolve_right fun c => absurd c.2.1 (by decide))
    rw [if_neg (by decide), e]
    exact Stopped.keepWord (busError_stops m _ 0 3 false h1 h2 h3)
  · obtain ⟨c, e⟩ := busWrites_bad h x.isLt v.isLt (hbad.imp_right fun ⟨h2, _, hn⟩ hh => hn (hh h2))
    rw [if_pos rfl, show [v].map BitVec.toNat = [v.toNat] from rfl, e]
    exact busError_stops m _ _ c true rfl rfl rfl

/-- Settles O55: channels, temperature, reads, scrubbing and the windows. -/
theorem memory : Obligations.Memory := by
  refine ⟨fun s i hi => ?channels, fun s low => ?temperature, fun s addr port safe hp => ?reads,
    fun s array word a b safe last => ?sram, fun s safe h0 h1 => ?dram, fun s m hm => ?windows⟩
  case channels =>
    intro c
    refine ⟨fun r waiting off hr hn ht hd => ?refresh, fun hrun ht hd hr => ?zq, fun ht hd again => ?parity, fun ha hd => ?alert⟩
    case refresh =>
      intro late
      refine ⟨fun h => refresh_late hi hr hn ht hd h off, fun h => ⟨_, refresh_now hi hr hn ht hd h off, ?_⟩⟩
      rw [chanGet_chanSet_self]
      refine ⟨rfl, retry_refreshed .., owedOf_refreshed .., fun hg => ?_, fun hg lane x hx => ?_⟩
      · rw [hg]
        exact points_refreshed ..
      · rw [hg, if_pos rfl, points_centre hx, points_refreshed]
        rfl
    case zq =>
      refine withInstance_next.mpr ⟨hi, ?_⟩
      rw [zqCalibration_on hrun ht hd, zqCalibration_ranks hr]
    case parity =>
      intro n
      refine ⟨fun h => withInstance_next.mpr ⟨hi, ?_⟩, fun h => ⟨_, withInstance_next.mpr ⟨hi, rfl⟩, ?_⟩⟩
      · rw [parityAlert_on ht hd, if_neg (Nat.not_le.mpr h)]
      · rw [parityAlert_on ht hd, if_pos h]
        obtain ⟨hr, hc⟩ := channelFail_heard (i := i) (s := chanSet i { c with alert := true, streak := n } s)
          (by rw [chanGet_chanSet_self]; exact hd)
        rw [chanGet_chanSet_self] at hc
        exact ⟨rings_of_ev' (chanSet_ev ..) hr, hc⟩
    case alert =>
      refine ⟨⟨_, withInstance_next.mpr ⟨hi, rfl⟩, ?_⟩, ⟨_, withInstance_next.mpr ⟨hi, rfl⟩, ?_⟩⟩
      · rw [show alertTimeout i s = channelFail i s from if_pos ha]
        exact channelFail_heard hd
      · rw [alertReturn_on ha hd]
        refine ⟨rings_of_ev (by decide) (by rw [count_ev, chanSet_ev]), ?_, ?_⟩
        · refine (cget_raiseAt (by decide) ..).trans ((cget_count_self ..).trans ?_)
          rw [cget_chanSet]
        · exact (chanGet_congr ((raise_mem ..).trans (count_mem ..)) i).trans (chanGet_chanSet_self ..)
  case temperature =>
    intro doubles
    refine ⟨⟨_, rfl, ?_⟩, fun hi => ⟨fun x => ⟨_, rfl, ?_⟩, fun hf => congrArg Host.Outcome.next (tempRead_none_few hi hf),
      fun hf => ⟨_, rfl, ?_⟩⟩⟩
    · cases h : s.mem.tempI2c
      · rw [hotChange_pins h]
        exact ⟨rfl, rfl, fun c => absurd c (by decide), fun _ => refreshMode_doubles rfl rfl⟩
      · rw [hotChange_i2c h]
        exact ⟨rfl, rfl, fun _ => ⟨rfl, rfl⟩, fun c => absurd c (by decide)⟩
    · rw [tempRead_some hi]
      by_cases hx : x > 340
      · rw [if_pos hx]
        exact ⟨rfl, rfl, rfl, fun _ => refreshMode_doubles rfl rfl, fun c => absurd hx (by omega), fun _ c => absurd hx (by omega)⟩
      rw [if_neg hx]
      by_cases hy : x ≤ 332
      · rw [if_pos hy]
        exact ⟨rfl, rfl, rfl, fun c => absurd c hx, fun _ => refreshMode_doubles rfl rfl, fun c => absurd hy (by omega)⟩
      · rw [if_neg hy]
        exact ⟨rfl, rfl, rfl, fun c => absurd c hx, fun c => absurd c hy, fun _ _ => ⟨rfl, rfl⟩⟩
    · rw [tempRead_none_third hi hf]
      have hm : (raise 0x7A 0 (refreshMode true (tempFailed 3 s))).mem = (refreshMode true (tempFailed 3 s)).mem := raise_mem ..
      refine ⟨rings_of_ev (by decide) rfl, refreshMode_doubles ?_ ?_, ?_⟩
      · rw [hm]; rfl
      · rw [hm]; rfl
      · rw [hm]; rfl
  case reads =>
    intro now queued read
    have e (a b : Nat) : read a b = .next (dramReadComplete addr port a b safe s) := withInstance_next.mpr ⟨hp, rfl⟩
    refine ⟨fun hclean => ⟨fun b => ?_, fun a b h => ⟨_, e a b, ?_⟩, ⟨_, e 2 1, ?_⟩⟩,
      fun hn a b h => ⟨_, e a b, dramReadComplete_poisoned hp hn h⟩, ⟨_, rfl, ?_⟩, fun code => ?_⟩
    · rw [e, dramReadComplete_eq, hclean]
      rfl
    · have hb : badTwice a b = false := by
        rcases h with rfl | ⟨rfl, rfl⟩ <;> rfl
      have h1 : dramReadComplete addr port a b safe s = correctRead addr (readBegun addr safe s) := by
        rw [dramReadComplete_eq, hclean, hb]
        rcases h with rfl | ⟨rfl, rfl⟩ <;> rfl
      rw [h1]
      exact ⟨counts_of_cget (readBegun_cget ..) (correctRead_counts ..), correctRead_queued ..⟩
    · have h1 : dramReadComplete addr port 2 1 safe s = correctRead addr (correctRead addr (readBegun addr safe s)) := by
        rw [dramReadComplete_eq, hclean]
        rfl
      rw [h1]
      refine ⟨counts_of_cget (u := readBegun addr safe s) (readBegun_cget ..) ?_, correctRead_queued ..⟩
      have hc1 := correctRead_counts addr (readBegun addr safe s)
      have hc2 := correctRead_counts addr (correctRead addr (readBegun addr safe s))
      unfold Counts at *
      omega
    · obtain ⟨c0, c1, hf⟩ := noteCommand_frame addr 3 s
      unfold eccWriteBack
      rw [hf]
      exact ⟨rfl, rfl⟩
    · intro c
      exact ⟨fun h => onChannel_on h.1 h.2 _, fun h => onChannel_off h _⟩
  case sram =>
    intro now passes
    refine ⟨?_, fun h => ?_, ?_⟩
    · rintro rfl
      exact congrArg Host.Outcome.next ((scrubRead_clean ..).trans (passEnd_eq ..))
    · exact congrArg Host.Outcome.next ((scrubRead_corrected h ..).trans (passEnd_eq ..))
    · rintro rfl rfl hn
      refine ⟨_, rfl, ?_⟩
      rw [scrubRead_poisoned array word last safe hn, passEnd_eq]
      obtain ⟨x, hx⟩ := scrubMark_only array word (sramPoison array word (max s.clk.safe safe) (setSafe safe s))
      obtain ⟨hc, hg, -⟩ := sramPoison_heard array word (max s.clk.safe safe) (setSafe safe s)
      obtain ⟨he, hm⟩ := sramPoison_noted array word (max s.clk.safe safe) (setSafe safe s)
      rw [hx]
      refine ⟨hc, he, hg, ?_, ?_⟩
      · exact congrArg Mem.sramInfo hm
      · change (sramPoison _ _ _ _).mem.sramPasses + _ = _
        rw [hm]
        rfl
  case dram =>
    intro line done moved
    refine ⟨⟨_, rfl, ?_⟩, fun e he => ?_⟩
    · rw [dramScrubRead_clean h0 h1, lineDone_eq]
      exact ⟨⟨rfl, rfl⟩, rfl, rfl⟩
    · intro at_ hclean
      have haddr : channelAddr (e / 8 % 2) (64 * line + 8 * (e % 8)) = at_ := by
        unfold channelAddr
        rw [show e / 8 % 2 = e / 8 by omega]
      refine ⟨_, rfl, ?_⟩
      rw [dramScrubRead_error h0 h1, haddr, dramReadComplete_corrected (s := setSafe safe s) hclean, lineDone_eq]
      obtain ⟨c0, c1, hf⟩ := readBegun_frame at_ safe (setSafe safe s)
      have hc := counts_of_cget (readBegun_cget ..) (correctRead_counts at_ (readBegun at_ safe (setSafe safe s)))
      refine ⟨⟨?_, ?_⟩, hc, rfl⟩
      · rw [hf]
        rfl
      · rw [hf]
        rfl
  case windows =>
    refine ⟨fun v h => ?remap, fun x n vs => ?_⟩
    case remap =>
      refine withInstance_next.mpr ⟨hm, ?_⟩
      rw [busWrite_rw h (by decide)]
      by_cases h0 : m = 0
      · subst h0
        rw [if_pos rfl, rwWrite_plain (by decide) (by decide) (.inl rfl) (by simp),
          show rwMask 0x10000300 = 1 by decide, Nat.and_one_is_mod]
        rfl
      · rw [if_neg h0]
        exact (if_pos (by simp [h0])).symm
    intro at_ a whole
    refine ⟨fun h hw => ?read, fun h hw hn ha hh hk => ?write, fun write bytes v => ?_⟩
    case read => exact window_read hm h hw
    case write => exact window_write hm h hw hn ha hh hk
    intro stops
    exact ⟨fun ha hf => window_badForm hm vs ha hf, fun h hb hbad => by
      subst hb
      exact window_badWord hm v h hbad⟩

end Sys2Proof.Machine
end

section
/-!
SUPPORT. Host messages, SPI frames, the contact sheet and the event counters (chapter 17).
-/
namespace Sys2Proof.Machine

/-! ### Frames that no row names -/

theorem raiseOnce_event (code arg : Nat) (s : State) : TwinEvent s (raiseOnce code arg s) := by
  unfold raiseOnce
  split
  · exact .refl s
  · refine TwinEvent.trans ?_ (raiseAt_event ..)
    exact ⟨_, _, _, _, _, _, rfl⟩

theorem cget_raiseOnce {a i : Nat} (h : rkey a i ≠ rkey 0x10140034 0) (code arg : Nat) (s : State) :
    cget a i (raiseOnce code arg s) = cget a i s := by
  unfold raiseOnce
  split
  · rfl
  · exact (cget_raiseAt h ..).trans rfl

/-- The frame at the front has been taken. -/
def frameTaken (rest : List InFrame) (s : State) : State := { s with tcm := { s.tcm with input := rest } }

/-- What becomes of a frame that a row handles (R578, R579, R584, R585). -/
def handled (x : InFrame) (act : ReplyTo → List Nat → State → State) (s : State) : State :=
  if !frameOk x.bytes then count 0x10140024 0 1 s
  else if !authOk x s then
    raiseOnce 0x89 0 (count 0x10140028 0 1 { s with tcm := { s.tcm with authFail := true } })
  else if frSession x.bytes ≠ s.tcm.session then staleReply x s
  else match seqCase (memoOf (frAuth x.bytes) (frKey x.bytes) s) (frSeq x.bytes) with
    | .resend g => replySend (replyTo x) g s
    | .stale => raiseOnce 0x8A 0 (staleReply x s)
    | .fresh => checkedRequest x act (acceptRequest x s)

theorem tcmRow_handled {x : InFrame} {rest : List InFrame} {s : State} (hi : s.tcm.input = x :: rest)
    (hr : s.clk.inReset = false) {mine : List Nat → Bool}
    (hm : (frameOk x.bytes && typeListed x.bytes && !mine x.bytes) = false) (act : ReplyTo → List Nat → State → State) :
    tcmRow mine act s = handled x act (frameTaken rest s) := by
  unfold tcmRow
  rw [hi]
  dsimp only
  rw [hr, hm]
  rfl

/-- Every row of the control-message engine takes the frame at the front by its own test of its type. -/
theorem exec_tcmRows {row : Instr} (h : row ∈ [Instr.tcmRead, .tcmWrite, .tcmStage, .tcmFix, .tcmStopBath, .tcmStart,
    .snapshotTake, .snapshotRead, .tcmHealth]) (s : State) : ∃ mine act, exec row s = .next (tcmRow mine act s) := by
  simp only [List.mem_cons, List.not_mem_nil, or_false] at h
  rcases h with rfl | rfl | rfl | rfl | rfl | rfl | rfl | rfl | rfl
  all_goals exact ⟨_, _, rfl⟩

section
variable {x : InFrame} {act : ReplyTo → List Nat → State → State} {s : State}

theorem handled_malformed (h : frameOk x.bytes = false) : handled x act s = count 0x10140024 0 1 s := if_pos (by simp [h])

theorem handled_false (h : frameOk x.bytes = true) (ha : authOk x s = false) : handled x act s
    = raiseOnce 0x89 0 (count 0x10140028 0 1 { s with tcm := { s.tcm with authFail := true } }) :=
  (if_neg (by simp [h])).trans (if_pos (by simp [ha]))

theorem handled_session (h : frameOk x.bytes = true) (ha : authOk x s = true) (hs : frSession x.bytes ≠ s.tcm.session) :
    handled x act s = staleReply x s := (if_neg (by simp [h])).trans ((if_neg (by simp [ha])).trans (if_pos hs))

theorem handled_match (h : frameOk x.bytes = true) (ha : authOk x s = true) (hs : frSession x.bytes = s.tcm.session) :
    handled x act s = match seqCase (memoOf (frAuth x.bytes) (frKey x.bytes) s) (frSeq x.bytes) with
      | .resend g => replySend (replyTo x) g s
      | .stale => raiseOnce 0x8A 0 (staleReply x s)
      | .fresh => checkedRequest x act (acceptRequest x s) :=
  (if_neg (by simp [h])).trans ((if_neg (by simp [ha])).trans (if_neg (not_not.mpr hs)))

end

/-- A STALE reply marks the control block and takes nothing from the memos. -/
theorem staleReply_frame (x : InFrame) (s : State) : (staleReply x s).tcm.stale = true
    ∧ (staleReply x s).tcm.input = s.tcm.input ∧ (staleReply x s).tcm.memo = s.tcm.memo := by
  unfold staleReply replyPlain replySend spiReply dropFrame
  dsimp only
  split
  · split
    · exact ⟨rfl, rfl, rfl⟩
    · exact ⟨rfl, rfl, rfl⟩
  · exact ⟨rfl, rfl, rfl⟩

theorem false_frame (s : State) : let t := raiseOnce 0x89 0 (count 0x10140028 0 1 { s with tcm := { s.tcm with authFail := true } })
    t.tcm.authFail = true ∧ t.tcm.input = s.tcm.input ∧ Counts 0x10140028 0 1 s t := by
  intro t
  have hc : Counts 0x10140028 0 1 s t := (cget_raiseOnce (by decide) ..).trans (cget_count_self ..)
  obtain ⟨_, _, _, _, _, _, e⟩ := raiseOnce_event 0x89 0 (count 0x10140028 0 1 { s with tcm := { s.tcm with authFail := true } })
  refine ⟨?_, ?_, hc⟩
  · exact (congrArg (fun t : State => t.tcm.authFail) e).trans rfl
  · exact (congrArg (fun t : State => t.tcm.input) e).trans rfl

/-! ### Accepted frames -/

/-- A row acts on an accepted frame of its own type. -/
theorem tcmRow_accepted {type : Nat} {x : InFrame} {rest : List InFrame} {s : State} (h : Accepted type x rest s)
    {mine : List Nat → Bool} (hm : mine x.bytes = true) (act : ReplyTo → List Nat → State → State) :
    tcmRow mine act s = act (replyTo x) (frPayload x.bytes) (accepted x rest s) := by
  obtain ⟨hi, hr, hrec, hok, htype, hlist, hauth, hsess, hseq, hpay, hstat, hflag, hstate, hrights⟩ := h
  have hstate' : stateOk type (frPayload x.bytes) (acceptRequest x (frameTaken rest s)) = true := hstate
  have hrights' : rightsOk x (acceptRequest x (frameTaken rest s)) = true := hrights
  have hrec' : (acceptRequest x (frameTaken rest s)).nvm.recovery = false := hrec
  rw [tcmRow_handled hi hr (by simp [hm]), handled_match (s := frameTaken rest s) hok hauth hsess,
    show seqCase (memoOf (frAuth x.bytes) (frKey x.bytes) (frameTaken rest s)) (frSeq x.bytes) = .fresh from hseq]
  unfold checkedRequest
  simp only [hlist, htype, hpay, hstat, hflag, hrec', hstate', hrights', Bool.not_true, Bool.not_false, Bool.false_and,
    Bool.and_false, Bool.or_false, Bool.false_eq_true, ne_eq, not_true_eq_false, decide_false, if_false]
  rfl

theorem accessReply_eq {r : ReplyTo} {e : Option Nat} {vs : List Nat} {t : State} (h : t.clk.inReset = false) :
    accessReply r e vs t
      = reply r (if e = none then 0 else 6) (beBytes 2 (e.getD 0xFFFF) ++ [0, 0] ++ vs.flatMap (beBytes 4)) t := by
  unfold accessReply
  rw [h]
  cases e <;> rfl

/-! ### The SPI port -/

theorem bytes_small (l : List Byte) : (bytesOf l).map (· % 256) = bytesOf l := by
  unfold bytesOf
  rw [List.map_map]
  exact List.map_congr_left fun b _ => Nat.mod_eq_of_lt b.isLt

theorem tcmInput_room {f : InFrame} {s : State} (h : (s.tcm.input.filter (fun x => decide (x.spi = f.spi))).length < 16) :
    tcmInput f s = { s with tcm := { s.tcm with input := s.tcm.input ++ [f] } } := if_neg (by omega)

theorem tcmInput_full {f : InFrame} {s : State} (h : 16 ≤ (s.tcm.input.filter (fun x => decide (x.spi = f.spi))).length) :
    tcmInput f s = raiseOnce 0x8B 0 (count 0x10140030 0 1 s) := if_pos h

theorem raiseOnce_input (code arg : Nat) (s : State) : (raiseOnce code arg s).tcm.input = s.tcm.input := by
  obtain ⟨_, _, _, _, _, _, e⟩ := raiseOnce_event code arg s
  rw [e]

theorem filter_spi (l : List InFrame) : l.filter (fun x => decide (x.spi = true)) = l.filter InFrame.spi := by
  refine List.filter_congr fun x _ => ?_
  cases x.spi <;> rfl

/-- Settles O57: frames that no row names, accepted frames by their types, and the SPI port. -/
theorem hostMessages : Obligations.HostMessages := by
  refine ⟨fun s x rest hi hr => ?front, fun s x rest => ?accepted_, fun s hr => ?spi⟩
  case front =>
    intro f gone row hrow
    obtain ⟨mine, act, e⟩ := exec_tcmRows hrow s
    refine ⟨fun hf => ?_, fun hf hl => ⟨fun ha => ⟨_, e, ?_⟩, fun ha hs => ⟨_, e, ?_⟩, fun ha hs g hg => ?_⟩⟩
    · rw [e, tcmRow_handled hi hr (by simp only [f] at hf; simp [hf]), handled_malformed hf]
      rfl
    · rw [tcmRow_handled hi hr (by simp only [f] at hl; simp [hl]), handled_false (s := frameTaken rest s) hf ha]
      exact false_frame ..
    · rw [tcmRow_handled hi hr (by simp only [f] at hl; simp [hl]), handled_session (s := frameTaken rest s) hf ha hs]
      exact staleReply_frame ..
    · rw [e, tcmRow_handled hi hr (by simp only [f] at hl; simp [hl]), handled_match (s := frameTaken rest s) hf ha hs,
        show seqCase (memoOf (frAuth x.bytes) (frKey x.bytes) (frameTaken rest s)) (frSeq x.bytes) = .resend g from hg]
      rfl
  case accepted_ =>
    intro u p r timed
    have own {type : Nat} (h : Accepted type x rest s) : ofType type x.bytes = true := by
      obtain ⟨-, -, -, -, htype, -⟩ := h
      simp [ofType, htype]
    have mine_take (h : Accepted 7 x rest s) (ho : nth 0 p 0 = 1) :
        (ofType 7 x.bytes && decide (nth 0 (frPayload x.bytes) 0 ≠ 2)) = true := by
      rw [own h, show nth 0 (frPayload x.bytes) 0 = 1 from ho]
      rfl
    refine ⟨fun h vs e t hw ht => ?_, fun h e t hw => ?_, fun h n t hs => ?_, fun h => ?_, fun h => ?_, fun h => ?_,
      fun h ho => ⟨fun hp => ?_, fun hp => ?_⟩, fun h ho => ?_, fun h => ?_⟩
    · refine congrArg Host.Outcome.next ((tcmRow_accepted h (own h) _).trans ?_)
      rw [show readWords (accessAddrs (frPayload x.bytes)) 0 (accepted x rest s) = (vs, e, t) from hw]
      exact accessReply_eq ht
    · refine congrArg Host.Outcome.next ((tcmRow_accepted h (own h) _).trans ?_)
      rw [show writeWords ((accessAddrs (frPayload x.bytes)).zip (accessWords (frPayload x.bytes))) 0 (accepted x rest s)
        = (e, t) from hw]
      by_cases ht : t.clk.inReset = true
      · exact (if_pos ht).trans (if_pos ht).symm
      · rw [if_neg ht]
        exact (accessReply_eq (Bool.eq_false_iff.mpr ht)).trans (by rw [List.flatMap_nil, List.append_nil])
    · refine congrArg Host.Outcome.next ((tcmRow_accepted h (own h) _).trans ?_)
      dsimp only
      rw [show stageNodes (List.map (fun i => be (slice (8 + 8 * i) 8 (frPayload x.bytes)))
        (List.range (be (slice 0 2 (frPayload x.bytes))))) (accepted x rest s) = (n, t) from hs]
    · exact congrArg Host.Outcome.next (tcmRow_accepted h (own h) _)
    · exact congrArg Host.Outcome.next (tcmRow_accepted h (own h) _)
    · exact congrArg Host.Outcome.next (tcmRow_accepted h (own h) _)
    · refine congrArg Host.Outcome.next ((tcmRow_accepted h (mine_take h ho) _).trans (if_neg ?_))
      rw [show (accepted x rest s).sheet.pending = none from hp]
      decide
    · exact congrArg Host.Outcome.next ((tcmRow_accepted h (mine_take h ho) _).trans (if_pos hp))
    · intro o n
      have e := tcmRow_accepted h (mine := fun f => ofType 7 f && decide (nth 0 (frPayload f) 0 = 2))
        (by rw [own h, show nth 0 (frPayload x.bytes) 0 = 2 from ho]; rfl)
      refine ⟨fun hv hn => congrArg Host.Outcome.next ((e _).trans (if_neg ?_)),
        fun hbad => congrArg Host.Outcome.next ((e _).trans (if_pos ?_))⟩
      · rw [show (accepted x rest s).sheet.valid = true from hv]
        simp only [Bool.not_true, Bool.false_or, decide_eq_true_eq, not_lt]
        exact hn
      · simp only [Bool.or_eq_true, Bool.not_eq_true', decide_eq_true_eq]
        exact hbad
    · exact congrArg Host.Outcome.next (tcmRow_accepted h (own h) _)
  case spi =>
    refine ⟨fun frame => ?_, fun clocked => ?_⟩
    · intro waiting
      have hw : s.tcm.input.filter (fun y => decide (y.spi = true)) = s.tcm.input.filter InFrame.spi := filter_spi _
      have e : exec (.writeFrame frame) s = .next (tcmInput ⟨true, 0, 0, (bytesOf frame).map (· % 256)⟩ s) :=
        congrArg Host.Outcome.next (if_neg (by simp [hr]))
      rw [bytes_small] at e
      refine ⟨fun h => ?_, fun h => ⟨_, e, ?_⟩⟩
      · rw [e, tcmInput_room]
        dsimp only
        rw [hw]
        exact h
      · rw [tcmInput_full (by dsimp only; rw [hw]; exact h)]
        exact ⟨raiseOnce_input .., (cget_raiseOnce (by decide) ..).trans (cget_count_self ..)⟩
    · refine ⟨fun h => ?_, fun b f l h => ?_⟩
      · refine congrArg Host.Outcome.next ((if_neg (by simp [hr])).trans ?_)
        rw [h]
      · refine congrArg Host.Outcome.next ((if_neg (by simp [hr])).trans ?_)
        rw [h]
        rfl

/-! ### The contact sheet and the counters -/

/-- The end of a block touches the event counters alone. -/
theorem blockEnd_only (s : State) : ∃ c, blockEnd s = { s with evc := c } ∧ c.src = s.evc.src := by
  unfold blockEnd
  split
  · exact ⟨_, rfl, rfl⟩
  · dsimp only
    split <;> split <;> exact ⟨_, rfl, rfl⟩

/-- A reply on MGMT is sent there. -/
theorem reply_mgmt {r : ReplyTo} (h : r.spi = false) (st : Nat) (p : List Nat) (s : State) :
    (reply r st p s).tcm.mgmtOut = s.tcm.mgmtOut ++ [⟨r.addr, r.port, replyFrame r st p s⟩] := by
  unfold reply replySend
  dsimp only
  rw [h, if_neg (by decide)]
  rfl

theorem reply_frame (r : ReplyTo) (st : Nat) (p : List Nat) (s : State) : (reply r st p s).sheet = s.sheet
    ∧ (reply r st p s).grid = s.grid ∧ (reply r st p s).ev = s.ev := by
  unfold reply replySend spiReply dropFrame
  dsimp only
  split
  · split
    · exact ⟨rfl, rfl, rfl⟩
    · exact ⟨rfl, rfl, rfl⟩
  · exact ⟨rfl, rfl, rfl⟩

theorem replyFrame_congr {s t : State} (hs : t.tcm.session = s.tcm.session) (hk : t.tcm.keys = s.tcm.keys) (r : ReplyTo)
    (st : Nat) (p : List Nat) : replyFrame r st p t = replyFrame r st p s := by
  unfold replyFrame keyBytes
  rw [hs, hk]

theorem raiseTick_tcm (code arg : Nat) (s : State) :
    ∃ l, (raiseTick code arg s).tcm = { s.tcm with evtLost := l } := by
  obtain ⟨_, _, _, _, _, l, e⟩ := raiseAt_event true code arg s
  exact ⟨l, congrArg State.tcm e⟩

/-- The capture as it stands before its event (R600, R602): the sheet of the tick of the next block. -/
def sheetTaken (r : SheetReq) (s : State) : State :=
  { s with sheet := ⟨true, sheetBytes s, s.grid.block + 1, r.clear, none⟩, grid := { s.grid with block := s.grid.block + 1 }
           ev := { s.ev with atTick := 0 } }

theorem sheetCapture_eq {r : SheetReq} {s : State} (hp : s.sheet.pending = some r) (hg : s.grid.running = true)
    (hr : r.reg.isSome) : sheetCapture s = reply r.reply 0
      (beBytes 8 ((blockEnd s).grid.block + 1) ++ beBytes 4 (sheetBytes (blockEnd s)).length ++ [0, 0, 0, 0])
      { raiseTick 0x8D 0 (sheetTaken r (blockEnd s)) with grid := (blockEnd s).grid } := by
  obtain ⟨x, hx⟩ := Option.isSome_iff_exists.mp hr
  unfold sheetCapture
  rw [hp]
  dsimp only
  rw [hg, hx]
  rfl

theorem counterSnapshot_eq {s : State} (hp : s.evc.snapPending = true) (hg : s.grid.running = true) : counterSnapshot s
    = { blockEnd s with evc := { (blockEnd s).evc with
        snap := (blockEnd s).evc.cnt, snapPending := false, snapBlk := (blockEnd s).grid.block + 1
        cnt := (blockEnd s).evc.cnt.filter (fun x => !bit 16 (sget 0 x.1 (blockEnd s).evc.src)) } } :=
  if_neg (by simp [hp, hg])

/-- A counter after those with CLEAR_ON_SNAP are cleared. -/
theorem sget_cleared (p : Nat → Bool) (j : Nat) (m : Sparse Nat) :
    sget 0 j (m.filter (fun x => !p x.1)) = if p j then 0 else sget 0 j m := by
  split
  · rename_i h
    refine sget_absent _ _ _ fun c hc => ?_
    rintro rfl
    have := (List.mem_filter.mp hc).2
    simp [h] at this
  · rename_i h
    exact sget_filter 0 j (fun k => !p k) (by simp [h]) m

/-- Settles O59: the sheet's registration and capture, and the counters' commands. -/
theorem sheetsAndCounters : Obligations.SheetsAndCounters := by
  refine ⟨fun s r hp hg => ⟨fun hr hb => ?register, fun hr => ⟨_, rfl, ?capture⟩⟩, fun s m hm => ?commands,
    fun s hp hg => ?snapshot⟩
  case register =>
    have e : snapshotRegister s = if r.clear then evcSnap { s with sheet := { s.sheet with
        pending := some { r with reg := some s.grid.block } } } else { s with sheet := { s.sheet with
        pending := some { r with reg := some s.grid.block } } } := by
      unfold snapshotRegister
      rw [hp]
      refine if_neg ?_
      simp [hr, hg, hb]
    refine congrArg Host.Outcome.next (e.trans ?_)
    cases r.clear
    · rw [Bool.or_false]
      rfl
    · rw [Bool.or_true]
      rfl
  case capture =>
    obtain ⟨c, hc, -⟩ := blockEnd_only s
    obtain ⟨hs, hgr, he⟩ := reply_frame r.reply 0
      (beBytes 8 ((blockEnd s).grid.block + 1) ++ beBytes 4 (sheetBytes (blockEnd s)).length ++ [0, 0, 0, 0])
      { raiseTick 0x8D 0 (sheetTaken r (blockEnd s)) with grid := (blockEnd s).grid }
    have hgrid : (blockEnd s).grid = s.grid := by rw [hc]
    rw [sheetCapture_eq hp hg hr]
    refine ⟨?_, hgr.trans hgrid, ⟨?_, ?_⟩, fun hspi => ?_⟩
    · rw [hs]
      change (raiseTick _ _ _).sheet = _
      rw [raiseTick_sheet, ← hgrid]
      rfl
    · rw [he]
      change (raiseTick _ _ _).ev.eseq = _
      rw [raiseTick_eseq]
      change ((blockEnd s).ev.eseq + 1) % _ = _
      rw [hc]
    · rw [he]
      change (raiseTick _ _ _).ev.pend = _
      rw [raiseTick_pend]
      change (blockEnd s).ev.pend ||| _ = _
      rw [hc]
    · obtain ⟨l, hl⟩ := raiseTick_tcm 0x8D 0 (sheetTaken r (blockEnd s))
      have htaken : (sheetTaken r (blockEnd s)).tcm = s.tcm := by
        rw [hc]
        rfl
      have htcm : ({ raiseTick 0x8D 0 (sheetTaken r (blockEnd s)) with grid := s.grid } : State).tcm
          = { s.tcm with evtLost := l } := hl.trans (by rw [htaken])
      rw [reply_mgmt hspi, hgrid, replyFrame_congr (s := s) (by rw [htcm]) (by rw [htcm]), htcm]
  case commands =>
    intro k h
    refine ⟨withInstance_next.mpr ⟨hm, ?_⟩, withInstance_next.mpr ⟨hm, ?_⟩⟩
    · rw [busWrite_wo h (by decide) (by decide)]
      rfl
    · rw [busWrite_wo h (by decide) (by decide)]
      rfl
  case snapshot =>
    intro e
    obtain ⟨c, hc, hsrc⟩ := blockEnd_only s
    refine ⟨_, rfl, ?_⟩
    have he : (blockEnd s).evc.src = s.evc.src := by rw [hc]; exact hsrc
    rw [counterSnapshot_eq hp hg]
    refine ⟨by rw [hc], rfl, by rw [hc], he, fun j => ⟨rfl, ?_⟩⟩
    rw [← he]
    exact sget_cleared (fun k => bit 16 (sget 0 k (blockEnd s).evc.src)) j _

end Sys2Proof.Machine
end

section
/-!
SUPPORT. Registration and acting of fixes (chapter 04).
-/
namespace Sys2Proof.Machine

/-! ### Registration -/

/-- A reply writes the control block, and counts a frame that finds no room. -/
theorem replyIf_only (r : Option ReplyTo) (st : Nat) (p : List Nat) (s : State) :
    ∃ t, replyIf r st p s = { s with tcm := t } ∨ replyIf r st p s = count 0x10140030 0 1 { s with tcm := t } := by
  cases r with
  | none => exact ⟨_, .inl rfl⟩
  | some r =>
    unfold replyIf reply replySend spiReply dropFrame
    dsimp only
    split
    · split
      · exact ⟨_, .inr rfl⟩
      · exact ⟨_, .inl rfl⟩
    · exact ⟨_, .inl rfl⟩

/-- What a reply leaves alone. -/
theorem replyIf_keeps (r : Option ReplyTo) (st : Nat) (p : List Nat) (s : State) : (replyIf r st p s).mx = s.mx
    ∧ (replyIf r st p s).grid = s.grid
    ∧ ∀ a i, rkey a i ≠ rkey 0x10140030 0 → cget a i (replyIf r st p s) = cget a i s := by
  obtain ⟨t, h | h⟩ := replyIf_only r st p s
  · rw [h]
    exact ⟨rfl, rfl, fun _ _ _ => rfl⟩
  · rw [h]
    exact ⟨rfl, rfl, fun a i hn => cget_count_of_ne hn ..⟩

/-- The fix that a request makes of the open set. -/
def fixOf (n code : Nat) (s : State) : Fix := ⟨n, actingBlock n s.grid.block, decide (code = 1), s.mx.open_, s.grid.block⟩

/-- The committed slots of a set that is pending. -/
def holdSlots (l : List Nat) (s : State) : State :=
  l.foldl (fun s i => slotSet i { slotGet i s with committed := true } s) s

theorem holdSlots_only (l : List Nat) (s : State) : ∃ x, holdSlots l s = { s with slot := x } := by
  unfold holdSlots
  induction l generalizing s with
  | nil => exact ⟨_, rfl⟩
  | cons i l ih =>
    obtain ⟨x, h⟩ := ih (slotSet i { slotGet i s with committed := true } s)
    exact ⟨x, h.trans rfl⟩

/-- An accepted fix is pending; a late one sets LATE_FIX (R157, R159). -/
theorem admitFix_mx (f : Fix) (s : State) : (admitFix f s).mx = { s.mx with pending := s.mx.pending ++ [f] }
    ∧ (admitFix f s).grid = { s.grid with lateFix := s.grid.lateFix || f.late }
    ∧ cget 0x10160038 0 (admitFix f s) = cget 0x10160038 0 s := by
  obtain ⟨x, hx⟩ := holdSlots_only (commitsOf f.set) { s with mx := { s.mx with pending := s.mx.pending ++ [f] } }
  have e : admitFix f s = if f.late then noteLate { s with mx := { s.mx with pending := s.mx.pending ++ [f] }, slot := x }
      else { s with mx := { s.mx with pending := s.mx.pending ++ [f] }, slot := x } := by
    rw [← hx]
    rfl
  rw [e]
  cases f.late
  · exact ⟨rfl, by rw [Bool.or_false]; rfl, rfl⟩
  · refine ⟨raiseTick_mx .., ?_, (cget_raiseAt (by decide) ..).trans (cget_count_of_ne (by decide) ..)⟩
    rw [Bool.or_true]
    exact raiseTick_grid ..

/-- A refused set leaves its slots and is counted. -/
theorem refuseFix_mx (l : List Nat) (s : State) : let t := raiseTick 0x29 0 (count 0x10160038 0 1 (freeSlots l s))
    t.mx = s.mx ∧ t.grid = s.grid ∧ cget 0x10160038 0 t = min (cget 0x10160038 0 s + 1) 0xFFFFFFFF := by
  obtain ⟨⟨x, hx⟩, -⟩ := freeSlots_slots l s
  rw [hx]
  exact ⟨raiseTick_mx .., raiseTick_grid .., (cget_raiseAt (by decide) ..).trans (cget_count_self ..)⟩

/-- The state in which the set is sealed with its code. -/
def fixSealed (r : FixReq) (code : Nat) (s : State) : State :=
  fixResult code (if relays s then linkSend 0x12 (sealBytes s.grid.block (actingBlock r.block s.grid.block) code s.mx.open_) s
    else s)

theorem fixSealed_only (r : FixReq) (code : Nat) (s : State) : ∃ q n, fixSealed r code s = { fixResult code s with
    twin := { s.twin with txq := q, txSeq := n } } := by
  unfold fixSealed
  split
  · obtain ⟨q, n, h⟩ := linkSend_queued (type := 0x12) (by decide)
      (sealBytes s.grid.block (actingBlock r.block s.grid.block) code s.mx.open_) s
    rw [h]
    exact ⟨q, n, rfl⟩
  · exact ⟨_, _, rfl⟩

theorem registerFix_eq (r : FixReq) (s : State) : ∃ st p, registerFix r s = replyIf r.reply st p
    (if fixCode r.block s.mx.open_ s ≤ 1 then
      admitFix (fixOf r.block (fixCode r.block s.mx.open_ s) s) (fixSealed r (fixCode r.block s.mx.open_ s) s)
    else raiseTick 0x29 0 (count 0x10160038 0 1
      (freeSlots (commitsOf s.mx.open_) (fixSealed r (fixCode r.block s.mx.open_ s) s)))) := ⟨_, _, rfl⟩

/-- A request's registration, by its code (R157 to R161). -/
theorem registerFix_frame (r : FixReq) (s : State) : let code := fixCode r.block s.mx.open_ s
    let t := registerFix r s
    t.mx = { s.mx with
      result := code, resultSeq := (s.mx.resultSeq + 1) % 65536, open_ := Staged.empty
      pending := if code ≤ 1 then s.mx.pending ++ [fixOf r.block code s] else s.mx.pending }
    ∧ t.grid = { s.grid with lateFix := s.grid.lateFix || decide (code = 1) }
    ∧ cget 0x10160038 0 t = (if code ≤ 1 then cget 0x10160038 0 s else min (cget 0x10160038 0 s + 1) 0xFFFFFFFF) := by
  obtain ⟨st, p, e⟩ := registerFix_eq r s
  obtain ⟨hmx, hgrid, hc⟩ := replyIf_keeps r.reply st p
    (if fixCode r.block s.mx.open_ s ≤ 1 then
      admitFix (fixOf r.block (fixCode r.block s.mx.open_ s) s) (fixSealed r (fixCode r.block s.mx.open_ s) s)
    else raiseTick 0x29 0 (count 0x10160038 0 1
      (freeSlots (commitsOf s.mx.open_) (fixSealed r (fixCode r.block s.mx.open_ s) s))))
  intro code t
  change (registerFix r s).mx = _ ∧ (registerFix r s).grid = _ ∧ cget _ _ (registerFix r s) = _
  rw [e, hmx, hgrid, hc _ _ (by decide)]
  obtain ⟨q, n, hs⟩ := fixSealed_only r code s
  by_cases h : code ≤ 1
  · obtain ⟨h1, h2, h3⟩ := admitFix_mx (fixOf r.block code s) (fixSealed r code s)
    rw [if_pos h, if_pos h, if_pos h, h1, h2, h3, hs]
    exact ⟨rfl, rfl, rfl⟩
  · obtain ⟨h1, h2, h3⟩ := refuseFix_mx (commitsOf s.mx.open_) (fixSealed r code s)
    rw [if_neg h, if_neg h, if_neg h, h1, h2, h3, hs]
    refine ⟨rfl, ?_, rfl⟩
    rw [show decide (code = 1) = false by simp; omega, Bool.or_false]
    rfl

/-! ### Acting -/

/-- The state with one request less. -/
def noRequests (s : State) : State := { s with mx := { s.mx with requests := [] } }

theorem fixRegister_one {r : FixReq} {s : State} (hr : s.grid.running = true) (hq : s.mx.requests = [r])
    (hg : r.got < s.grid.block) (hf : ∀ f ∈ s.mx.pending, s.grid.block < f.act) : fixRegister s
    = if takesOwn s then registerFix r (noRequests s) else replyIf r.reply 1 [] (noRequests s) := by
  unfold fixRegister
  simp only [hr, fixAct_none hf, hq, List.filter_cons, hg, List.filter_nil, Bool.not_true, Bool.false_eq_true, if_false,
    if_true, decide_true]
  rfl

theorem fixCode_full {n : Nat} {t : Staged} {s : State} (h : 16 ≤ s.mx.pending.length) : fixCode n t s = 2 := if_pos h

theorem fixCode_far {n : Nat} {t : Staged} {s : State} (h : s.mx.pending = []) (hn : s.grid.block + 524288 < n) :
    fixCode n t s = 4 := by
  unfold fixCode
  dsimp only
  rw [h, if_neg (by decide), if_neg (by simp), if_pos hn]

theorem fixCode_overflow {n : Nat} {t : Staged} {s : State} (h : s.mx.pending = []) (hn : n ≤ s.grid.block + 524288)
    (ho : t.overflow = true) : fixCode n t s = 5 := by
  unfold fixCode
  dsimp only
  rw [h, if_neg (by decide), if_neg (by simp), if_neg (by omega), if_pos ho]

/-- Settles O35: the only request due registers, or is dropped by a unit that takes none. -/
theorem fixRegisters : Obligations.FixRegisters := by
  intro s r hr hq hg hf
  have e := fixRegister_one hr hq hg hf
  refine ⟨fun ht => ⟨_, rfl, ?_⟩, fun ht => ⟨_, rfl, ?_⟩⟩
  · rw [e, ht, if_neg (by decide)]
    exact (replyIf_keeps ..).1
  · have hk := fixRegister_kept s
    simp only [State.kept, Prod.mk.injEq] at hk
    refine ⟨?_, fun h => fixCode_full h, fun h hn => fixCode_far h hn, fun h hn ho => fixCode_overflow h hn ho, ?_, ?_, hk.1⟩
    all_goals rw [e, if_pos ht]
    · exact (registerFix_frame r (noRequests s)).1
    · exact (registerFix_frame r (noRequests s)).2.1
    · exact (registerFix_frame r (noRequests s)).2.2

/-- `t` is `s` but for the blocks in which the registers of a fix take effect. -/
def FixOnly (s t : State) : Prop := ∃ o c v l g p a,
  t = { s with obj := o, chain := c, conv := v, slot := l, tg := g, cap := p, ana := a }

theorem FixOnly.refl (s : State) : FixOnly s s := ⟨_, _, _, _, _, _, _, rfl⟩

theorem FixOnly.trans {s t u : State} (h : FixOnly s t) (h' : FixOnly t u) : FixOnly s u := by
  obtain ⟨_, _, _, _, _, _, _, rfl⟩ := h
  obtain ⟨_, _, _, _, _, _, _, rfl⟩ := h'
  exact ⟨_, _, _, _, _, _, _, rfl⟩

theorem FixOnly.foldl {α : Type} {f : State → α → State} (h : ∀ s x, FixOnly s (f s x)) (l : List α) (s : State) :
    FixOnly s (l.foldl f s) := by
  induction l generalizing s with
  | nil => exact .refl s
  | cons x l ih => exact (h s x).trans (ih _)

theorem fixFilter_only (a sel : Nat) (s : State) : FixOnly s (fixFilter a sel s) := by
  unfold fixFilter
  dsimp only
  split
  · exact .refl s
  · split
    · exact ⟨_, _, _, _, _, _, _, rfl⟩
    · exact ⟨_, _, _, _, _, _, _, rfl⟩

theorem toneMode_only (n k : Nat) (s : State) : FixOnly s (toneMode n k s) := by
  unfold toneMode
  dsimp only
  split
  · split
    · exact ⟨_, _, _, _, _, _, _, rfl⟩
    · exact ⟨_, _, _, _, _, _, _, rfl⟩
  · exact ⟨_, _, _, _, _, _, _, rfl⟩

theorem fixCapture_only (n : Nat) (s : State) : FixOnly s (fixCapture n s) := by
  unfold fixCapture
  dsimp only
  split
  · exact ⟨_, _, _, _, _, _, _, rfl⟩
  · exact ⟨_, _, _, _, _, _, _, rfl⟩

theorem FixOnly.ite {c : Prop} [Decidable c] {s a b : State} (ha : FixOnly s a) (hb : FixOnly s b) :
    FixOnly s (if c then a else b) := by
  split
  · exact ha
  · exact hb

theorem fixRegs_only (a : Nat) (t : Staged) (before s : State) : FixOnly s (fixRegs a t before s) := by
  unfold fixRegs
  refine .trans ?_ (.foldl (fun u k => .ite (.refl u) ⟨_, _, _, _, _, _, _, rfl⟩) ..)
  refine .trans ?_ (.foldl (fun u k => ⟨_, _, _, _, _, _, _, rfl⟩) ..)
  refine .trans ?_ (.ite (.refl _) (fixCapture_only ..))
  refine .trans ?_ (.foldl (fun u k => toneMode_only a k u) ..)
  refine .trans ?_ (.foldl (fun u sel => fixFilter_only a sel u) ..)
  refine .trans ?_ (.foldl (fun u i => ⟨_, _, _, _, _, _, _, rfl⟩) ..)
  refine .trans ?_ (.foldl (fun u sel => ⟨_, _, _, _, _, _, _, rfl⟩) ..)
  exact .foldl (fun u k => .ite ⟨_, _, _, _, _, _, _, rfl⟩ (.refl u)) ..

/-- The bus factors of a fix. -/
theorem fixFactors_only (a : Nat) (t : Staged) (before s : State) :
    ∃ x, fixFactors a t before s = { s with mx := { s.mx with factors := x } } := by
  unfold fixFactors
  dsimp only
  generalize (t.nodes.map wordBus ++ _).eraseDups = l
  induction l generalizing s with
  | nil => exact ⟨_, rfl⟩
  | cons k l ih =>
    rw [List.foldl_cons]
    split
    · exact ih s
    · obtain ⟨x, hx⟩ := ih { s with mx := { s.mx with factors := _ } }
      exact ⟨x, hx.trans rfl⟩

theorem reportChanges_only (before s : State) : ∃ n, reportChanges before s = { s with net := n } := by
  unfold reportChanges
  generalize List.range 4 = l
  induction l generalizing s with
  | nil => exact ⟨_, rfl⟩
  | cons p l ih =>
    rw [List.foldl_cons]
    split
    · exact ih s
    · unfold reportGroups
      split
      · obtain ⟨n, hn⟩ := ih (svSend p (igmpReport s p) s)
        exact ⟨n, hn.trans rfl⟩
      · exact ih s

/-! ### One fix that acts -/

theorem prepareFix_only (f : Fix) (s : State) : ∃ m, prepareFix f s = { s with mx := m } ∧ m.liveB = s.mx.liveB
    ∧ m.pending = s.mx.pending ∧ m.open_ = s.mx.open_ ∧ m.requests = s.mx.requests := by
  have staged (e : Sparse NodeEnt) (m : Matrix) : (setStaged e m).liveB = m.liveB ∧ (setStaged e m).pending = m.pending
      ∧ (setStaged e m).open_ = m.open_ ∧ (setStaged e m).requests = m.requests := by
    unfold setStaged
    split <;> exact ⟨rfl, rfl, rfl, rfl⟩
  unfold prepareFix
  split
  · exact ⟨_, rfl, rfl, rfl, rfl, rfl⟩
  · unfold fixReplay
    split
    · exact ⟨_, rfl, staged _ _⟩
    · obtain ⟨h1, h2, h3, h4⟩ := staged (copyNodes s.mx.replay (liveSet s.mx) (stagedSet s.mx)) { s.mx with replay := [] }
      exact ⟨_, rfl, (staged _ _).1.trans h1, (staged _ _).2.1.trans h2, (staged _ _).2.2.1.trans h3,
        (staged _ _).2.2.2.trans h4⟩

theorem prepareFix_ready {f : Fix} {s : State} (h : s.mx.prepared = some f.act) : prepareFix f s = s := if_pos h

/-- The gain sets change places at block `a` (R162). -/
def swapped (a : Nat) (f : Fix) (s : State) : State :=
  { s with mx := { s.mx with
    liveB := !s.mx.liveB, ramps := (applyNodes s a f.set.nodes (liveSet s.mx, s.mx.ramps)).2, prepared := none
    replay := f.set.nodes, acted := a, pending := s.mx.pending.filter (fun g => decide (g ≠ f)) } }

theorem liveSet_swapped (a f s) : liveSet (swapped a f s).mx = stagedSet s.mx := by
  unfold liveSet stagedSet swapped
  cases s.mx.liveB <;> rfl

theorem stagedSet_swapped (a f s) : stagedSet (swapped a f s).mx = liveSet s.mx := by
  unfold liveSet stagedSet swapped
  cases s.mx.liveB <;> rfl

/-- The registers of a fix, with all that follows in the blocks. -/
def fixInEffect (a : Nat) (f : Fix) (before s : State) : State :=
  fixRegs a f.set before (fixFactors a f.set before (overlay f.set s))

theorem actFix_eq {f : Fix} (h : f.set.kfs = []) (s : State) : actFix f s
    = let u := reportChanges s (evcOccur 0x106 1 (count 0x10160030 0 1
        (fixInEffect s.grid.block f s (swapped s.grid.block f (prepareFix { f with act := s.grid.block } s)))))
      if f.late then lapseTick u else u := by
  unfold actFix
  rw [h]
  rfl

/-- The matrix and registers once a fix is in effect. -/
theorem fixInEffect_only (a : Nat) (f : Fix) (before s : State) : ∃ x y, FixOnly { s with
    mx := { s.mx with factors := x }, bus := { s.bus with regs := y } } (fixInEffect a f before s)
    ∧ y = (overlay f.set s).bus.regs := by
  obtain ⟨x, hx⟩ := fixFactors_only a f.set before (overlay f.set s)
  refine ⟨x, _, ?_, rfl⟩
  have := fixRegs_only a f.set before (fixFactors a f.set before (overlay f.set s))
  rw [hx] at this
  unfold fixInEffect
  rw [hx]
  exact this

theorem regs_overlay_one {a i v : Nat} {t : Staged} (hi : i < 65536) (ha : a ≠ commitAddr) (h : t.regs = [(rkey a i, v)])
    (s : State) : rget a i (overlay t s) = fxFields a v
      ∧ ∀ b j, rkey b j ≠ rkey a i → rget b j (overlay t s) = rget b j s := by
  have hk : rkey a i / 65536 = a := by
    unfold rkey
    omega
  have e : overlay t s = { s with bus := { s.bus with
      regs := sset (regReset a) (rkey a i) (fxFields a v) s.bus.regs } } := by
    unfold overlay
    rw [h, List.filter_cons_of_pos (by simp [hk, ha])]
    simp only [List.filter_nil, List.foldl_cons, List.foldl_nil, hk]
  rw [e]
  exact ⟨sget_sset_self .., fun b j hb => sget_sset_of_ne _ _ hb ..⟩

theorem regs_overlay_none {t : Staged} (h : t.regs = []) (s : State) : overlay t s = s := by
  unfold overlay
  rw [h]
  rfl

theorem raiseAt_regs (tick : Bool) (code arg : Nat) (s : State) : (raiseAt tick code arg s).bus.regs = s.bus.regs := by
  rcases raiseAt_bus tick code arg s with e | e
  · rw [e]
  · rw [e]
    rfl

theorem lapseAt_regs (tick : Bool) (s : State) : (lapseAt tick s).bus.regs = s.bus.regs := by
  unfold lapseAt
  split
  · rfl
  · split
    · dsimp only
      split
      · exact raiseAt_regs ..
      · rfl
    · rfl

/-- The report of the groups and the lapse of a late fix leave the matrix, the registers and the fixes' counter. -/
theorem reported_frame (late : Bool) (before s : State) :
    let u := reportChanges before (evcOccur 0x106 1 (count 0x10160030 0 1 s))
    let t := if late then lapseTick u else u
    t.mx = s.mx ∧ t.bus.regs = s.bus.regs ∧ cget 0x10160030 0 t = min (cget 0x10160030 0 s + 1) 0xFFFFFFFF := by
  intro u t
  obtain ⟨n, hn⟩ := reportChanges_only before (evcOccur 0x106 1 (count 0x10160030 0 1 s))
  have hu : u.mx = s.mx ∧ u.bus.regs = s.bus.regs ∧ cget 0x10160030 0 u = min (cget 0x10160030 0 s + 1) 0xFFFFFFFF := by
    change (reportChanges _ _).mx = _ ∧ (reportChanges _ _).bus.regs = _ ∧ cget _ _ (reportChanges _ _) = _
    rw [hn]
    exact ⟨rfl, rfl, cget_count_self ..⟩
  cases late
  · exact hu
  · obtain ⟨h1, h2, h3⟩ := hu
    refine ⟨(lapseAt_mx ..).trans h1, ?_, ?_⟩
    · exact (lapseAt_regs ..).trans h2
    · exact ((lapseAt_counted (l := [(0x10140034, 0)]) (by decide) ..).kept _ _ (by decide)).trans h3

theorem fixAct_one {f : Fix} {s : State} (hr : s.grid.running = true)
    (hp : s.mx.pending.filter (fun g => decide (g.act ≤ s.grid.block)) = [f]) : fixAct s = actFix f s := by
  unfold fixAct
  rw [hp, hr]
  rfl

/-- What one acting fix leaves of the matrix and the registers. -/
theorem actFix_frame {f : Fix} (h : f.set.kfs = []) (s : State) : ∃ u x, u = prepareFix { f with act := s.grid.block } s
    ∧ (actFix f s).mx = { (swapped s.grid.block f u).mx with factors := x }
    ∧ (actFix f s).bus.regs = (overlay f.set u).bus.regs
    ∧ cget 0x10160030 0 (actFix f s) = min (cget 0x10160030 0 s + 1) 0xFFFFFFFF := by
  obtain ⟨m, hm, -⟩ := prepareFix_only { f with act := s.grid.block } s
  obtain ⟨x, y, ⟨_, _, _, _, _, _, _, he⟩, hy⟩ := fixInEffect_only s.grid.block f s
    (swapped s.grid.block f (prepareFix { f with act := s.grid.block } s))
  obtain ⟨h1, h2, h3⟩ := reported_frame f.late s
    (fixInEffect s.grid.block f s (swapped s.grid.block f (prepareFix { f with act := s.grid.block } s)))
  refine ⟨_, x, rfl, ?_, ?_, ?_⟩
  · rw [actFix_eq h]
    exact h1.trans (by rw [he])
  · rw [actFix_eq h]
    refine h2.trans ?_
    rw [he]
    exact hy
  · rw [actFix_eq h]
    refine h3.trans ?_
    rw [he, hm]
    rfl

/-- Settles O36: the only fix due acts. -/
theorem fixActs : Obligations.FixActs := by
  intro s f hr hp hk
  obtain ⟨u, x, hu, hmx, hregs, hc⟩ := actFix_frame hk s
  obtain ⟨m, hm, hl, hpend, hopen, hreq⟩ := prepareFix_only { f with act := s.grid.block } s
  refine ⟨actFix f s, congrArg Host.Outcome.next (fixAct_one hr hp), ?_⟩
  have hrget (b j : Nat) : rget b j (actFix f s) = rget b j (overlay f.set u) := by
    unfold rget
    rw [hregs]
  have huregs (b j : Nat) : rget b j u = rget b j s := by
    rw [hu, hm]
    rfl
  rw [hmx]
  subst hu
  refine ⟨?_, rfl, rfl, rfl, ?_, ?_, ?_, fun hready => ?_, fun a i v hi ha hone => ⟨?_, fun b j hb => ?_⟩, fun hnone b j => ?_, hc⟩
  · rw [hm]
    exact congrArg not hl
  · rw [hm]
    exact congrArg (List.filter _) hpend
  · rw [hm]
    exact hopen
  · rw [hm]
    exact hreq
  · rw [prepareFix_ready hready]
    exact ⟨liveSet_swapped s.grid.block f s, stagedSet_swapped s.grid.block f s⟩
  · exact (hrget a i).trans (regs_overlay_one hi ha hone _).1
  · exact (hrget b j).trans (((regs_overlay_one hi ha hone _).2 b j hb).trans (huregs b j))
  · rw [hrget, regs_overlay_none hnone, huregs]

end Sys2Proof.Machine
end

section
/-!
SUPPORT. What an operation may change beside events and counters: the relations of the frames of chapters 10 to 16.
-/
namespace Sys2Proof.Machine

/-! ### Events and counters -/

/-- The same state but for the events, what counts them, the counters and the mark of a lost record. -/
def Sounded (s t : State) : Prop := ∃ e c b n l, t = { s with
  ev := e, evc := { s.evc with cnt := c }, bus := { s.bus with ctr := b, total := n }, tcm := { s.tcm with evtLost := l } }

theorem Sounded.refl (s : State) : Sounded s s := ⟨_, _, _, _, _, rfl⟩
theorem Sounded.trans {s t u : State} (h : Sounded s t) (k : Sounded t u) : Sounded s u := by
  obtain ⟨_, _, _, _, _, rfl⟩ := h
  obtain ⟨_, _, _, _, _, rfl⟩ := k
  exact ⟨_, _, _, _, _, rfl⟩
theorem Sounded.heard {s t : State} (h : Sounded s t) : Heard s t := by
  obtain ⟨_, _, _, _, _, rfl⟩ := h
  rfl

theorem Sounded.ite {c : Prop} [Decidable c] {s t u : State} (ht : Sounded s t) (hu : Sounded s u) :
    Sounded s (if c then t else u) := by
  split
  · exact ht
  · exact hu

theorem count_sounded (a i n s) : Sounded s (count a i n s) := ⟨_, _, _, _, _, rfl⟩
theorem evcOccur_sounded (src n s) : Sounded s (evcOccur src n s) := ⟨_, _, _, _, _, rfl⟩
theorem raiseAt_sounded (tick code arg s) : Sounded s (raiseAt tick code arg s) := by
  unfold raiseAt
  extract_lets e r t base cur log act room sent old q u w v
  have hu : Sounded s u := ⟨_, _, _, _, _, rfl⟩
  have hl : Sounded u { count 0x10140034 0 1 u with tcm := { u.tcm with evtLost := true } } := ⟨_, _, _, _, _, rfl⟩
  refine Sounded.trans ?_ (evcOccur_sounded ..)
  exact .ite (hu.trans hl) hu
theorem raise_sounded (code arg s) : Sounded s (raise code arg s) := raiseAt_sounded ..

/-! ### The serial audio ports (chapter 12) -/

/-- The same state but for the serial ports, their lanes, the relays of slips, the guarantee's marks, events and counters. -/
def SerialOnly (s t : State) : Prop := ∃ a l w sub met lap ser q n e c b m o, t = { s with
  sap := a, smp := { s.smp with lane := l, wait := w }
  grid := { s.grid with sapSubst := sub, met := met, lapse := lap }
  twin := { s.twin with serial := ser, txq := q, txSeq := n }
  ev := e, evc := { s.evc with cnt := c }, bus := { s.bus with ctr := b, total := m }, tcm := { s.tcm with evtLost := o } }

theorem SerialOnly.refl (s : State) : SerialOnly s s := ⟨_, _, _, _, _, _, _, _, _, _, _, _, _, _, rfl⟩
theorem SerialOnly.trans {s t u : State} (h : SerialOnly s t) (k : SerialOnly t u) : SerialOnly s u := by
  obtain ⟨_, _, _, _, _, _, _, _, _, _, _, _, _, _, rfl⟩ := h
  obtain ⟨_, _, _, _, _, _, _, _, _, _, _, _, _, _, rfl⟩ := k
  exact ⟨_, _, _, _, _, _, _, _, _, _, _, _, _, _, rfl⟩
theorem Sounded.serial {s t : State} (h : Sounded s t) : SerialOnly s t := by
  obtain ⟨_, _, _, _, _, rfl⟩ := h
  exact ⟨_, _, _, _, _, _, _, _, _, _, _, _, _, _, rfl⟩
theorem SerialOnly.ite {c : Prop} [Decidable c] {s t u : State} (ht : SerialOnly s t) (hu : SerialOnly s u) :
    SerialOnly s (if c then t else u) := by
  split
  · exact ht
  · exact hu
theorem SerialOnly.foldl {α : Type} {f : State → α → State} (h : ∀ s x, SerialOnly s (f s x)) (xs : List α) (s : State) :
    SerialOnly s (xs.foldl f s) := by
  induction xs generalizing s with
  | nil => exact .refl s
  | cons x xs ih => exact (h s x).trans (ih _)

theorem sap_serial (s : State) (a) : SerialOnly s { s with sap := a } := ⟨_, _, _, _, _, _, _, _, _, _, _, _, _, _, rfl⟩
theorem grpSet_serial (g v s) : SerialOnly s (grpSet g v s) := sap_serial ..
theorem portSet_serial (p v s) : SerialOnly s (portSet p v s) := sap_serial ..
theorem agNote_serial (g s) : SerialOnly s (agNote g s) := sap_serial ..
theorem sendWords_serial (p i ws s) : SerialOnly s (sendWords p i ws s) := sap_serial ..
theorem grid_serial (s : State) (sub met lap) :
    SerialOnly s { s with grid := { s.grid with sapSubst := sub, met := met, lapse := lap } } :=
  ⟨_, _, _, _, _, _, _, _, _, _, _, _, _, _, rfl⟩
theorem smp_serial (s : State) (l w) : SerialOnly s { s with smp := { s.smp with lane := l, wait := w } } :=
  ⟨_, _, _, _, _, _, _, _, _, _, _, _, _, _, rfl⟩
theorem link_serial (s : State) (ser q n) :
    SerialOnly s { s with twin := { s.twin with serial := ser, txq := q, txSeq := n } } :=
  ⟨_, _, _, _, _, _, _, _, _, _, _, _, _, _, rfl⟩

theorem lapseAt_serial (tick s) : SerialOnly s (lapseAt tick s) := by
  unfold lapseAt
  refine .ite (.refl s) (.ite ?_ (grid_serial s _ _ _))
  extract_lets m t
  have ht : SerialOnly s t := grid_serial s _ _ _
  exact .ite (ht.trans (raiseAt_sounded ..).serial) ht

theorem relayReq_serial (k f t b p s) : SerialOnly s (relayReq k f t b p s) := by
  obtain ⟨q, n, h⟩ := relayReq_queued k f t b p s
  rw [h]
  exact link_serial s _ _ _

theorem setSapSubst_serial (s) : SerialOnly s (setSapSubst s) := (grid_serial s _ _ _).trans (lapseAt_serial ..)

theorem slipNote_serial (g s) : SerialOnly s (slipNote g s) := by
  unfold slipNote
  extract_lets v u
  have hu : SerialOnly s u := ((grpSet_serial ..).trans (setSapSubst_serial _)).trans (agNote_serial ..)
  exact .ite hu (hu.trans (raise_sounded ..).serial)

theorem zeroLanes_serial (g z s) : SerialOnly s (zeroLanes g z s) := smp_serial ..

theorem zeroWords_serial (g s) : SerialOnly s (zeroWords g s) :=
  .foldl (fun t _ => .ite (sendWords_serial ..) (.refl t)) ..

theorem grpFaultAt_serial (tick g z s) : SerialOnly s (grpFaultAt tick g z s) := by
  unfold grpFaultAt
  extract_lets v u m w
  refine .ite ?_ (grpSet_serial ..)
  have hu : SerialOnly s u := ((grpSet_serial ..).trans (zeroLanes_serial ..)).trans (zeroWords_serial ..)
  have hw : SerialOnly u w := .ite ((grid_serial u _ _ _).trans (lapseAt_serial ..)) (.refl u)
  exact (((hu.trans hw).trans (count_sounded ..).serial).trans (agNote_serial ..)).trans (raiseAt_sounded ..).serial

theorem rxFrame_serial (p i f s) : SerialOnly s (rxFrame p i f s) := by
  unfold rxFrame
  extract_lets c fn x put q fresh
  have hput : ∀ (g : Int → Int) (t : State), SerialOnly t (put g t) := fun g t =>
    .ite (.refl t) (.foldl (fun t _ => smp_serial t _ _) ..)
  split
  · exact hput _ s
  · exact hput _ s
  · exact .ite (hput (fun v => v) s) (.ite (hput (fadeOut s.lgB q) s) (.refl s))
  · split
    · exact .ite (.foldl (fun t _ => smp_serial t _ _) ..) (count_sounded ..).serial
    · exact (count_sounded ..).serial

theorem frameWords_serial (g i fs s) : SerialOnly s (frameWords g i fs s) := by
  refine .foldl (fun t x => ?_) ..
  dsimp only
  split
  · exact rxFrame_serial ..
  · exact sendWords_serial ..
  · exact .refl t

theorem closeInterval_serial (g t b s) : SerialOnly s (closeInterval g t b s) := by
  unfold closeInterval
  extract_lets v
  split
  · exact .refl s
  · exact .ite (.ite (grpFaultAt_serial ..) (.ite (.refl s) (grpFaultAt_serial ..))) (grpSet_serial ..)

theorem relaySlips_serial (g next n drop s) : SerialOnly s (relaySlips g next n drop s) := by
  unfold relaySlips
  extract_lets u
  have hu : SerialOnly s u := .foldl (fun t _ => relayReq_serial ..) ..
  exact .ite (hu.trans (relayReq_serial ..)) hu

theorem alignedFrame_serial (g t fs s) : SerialOnly s (alignedFrame g t fs s) := by
  unfold alignedFrame
  extract_lets v
  split
  extract_lets i s1 s2 s3 s4 w s5 _
  have h1 : SerialOnly s s1 := .ite (lapseAt_serial ..) (.refl s)
  have h2 : SerialOnly s1 s2 := .ite (.refl s1) ((slipNote_serial ..).trans (count_sounded ..).serial)
  have h3 : SerialOnly s2 s3 := .ite ((slipNote_serial ..).trans (count_sounded ..).serial) (.refl s2)
  have h4 : SerialOnly s3 s4 := .ite (relaySlips_serial ..) (.refl s3)
  have h5 : SerialOnly s4 s5 := link_serial s4 _ _ _
  exact ((((h1.trans h2).trans h3).trans h4).trans h5).trans
    (.ite ((grpSet_serial ..).trans (zeroWords_serial ..)) ((grpSet_serial ..).trans (frameWords_serial ..)))

theorem leaderFrame_serial (g t fs s) : SerialOnly s (leaderFrame g t fs s) :=
  (grpSet_serial ..).trans (frameWords_serial ..)

theorem sharedFrame_serial (g t fs s) : SerialOnly s (sharedFrame g t fs s) :=
  .ite (.ite (grpFaultAt_serial ..) ((grpSet_serial ..).trans (frameWords_serial ..))) (zeroWords_serial ..)

theorem serialFrame_serial (g t b fs s) : SerialOnly s (serialFrame g t b fs s) := by
  unfold serialFrame
  split
  · exact .refl s
  · refine .ite (.ite (leaderFrame_serial ..) (.refl s)) ?_
    exact ((closeInterval_serial ..).trans (grpSet_serial ..)).trans (sharedFrame_serial ..)
  · extract_lets u v w
    have hw : SerialOnly s w := (closeInterval_serial ..).trans (grpSet_serial ..)
    exact .ite (hw.trans (alignedFrame_serial ..)) ((hw.trans (grpSet_serial ..)).trans (zeroWords_serial ..))

theorem frameAbsent_serial (g s) : SerialOnly s (frameAbsent g s) := .ite (.refl s) (grpFaultAt_serial ..)

theorem rateWindow_serial (g s) : SerialOnly s (rateWindow g s) := by
  unfold rateWindow
  extract_lets v _ _
  split
  · exact .refl s
  · exact grpSet_serial ..
  · split
    extract_lets o
    refine .ite (grpSet_serial ..) ?_
    split
    · extract_lets d high u w
      have hu : SerialOnly s u := grpSet_serial ..
      have hw : SerialOnly s w := hu.trans (.ite (raiseAt_sounded ..).serial (.refl u))
      exact .ite (hw.trans (grpFaultAt_serial ..)) hw
    · exact grpSet_serial ..

theorem sapAlign_serial (g t s) : SerialOnly s (sapAlign g t s) := by
  unfold sapAlign
  extract_lets _ _ _ _ _ s1
  refine .ite (.refl s) (.ite ?_ ?_)
  · exact .ite ((grpSet_serial ..).trans (raiseAt_sounded ..).serial) (grpSet_serial ..)
  · split
    extract_lets s2 s3 s4 s5
    have h1 : SerialOnly s s1 := link_serial s _ _ _
    have h2 : SerialOnly s1 s2 := .ite (raiseAt_sounded ..).serial (.refl s1)
    have h3 : SerialOnly s2 s3 := .ite (lapseAt_serial ..) (.refl s2)
    have h4 : SerialOnly s3 s4 := .ite (relayReq_serial ..) (.refl s3)
    have h5 : SerialOnly s s5 := (((h1.trans h2).trans h3).trans h4).trans (grpSet_serial ..)
    exact .ite (h5.trans (raiseAt_sounded ..).serial) h5

end Sys2Proof.Machine
end

section
/-!
SUPPORT. Serial frames (chapter 12, "Frame indices and phase"): the words that a frame sends and the lane samples it brings in.
-/
namespace Sys2Proof.Machine

/-! ### Folds over a list without repeats -/

theorem foldl_keeps_on {α : Type} {f : State → α → State} {R Q : State → Prop} {l : List α} (hR : ∀ t x, R t → R (f t x))
    (hQ : ∀ t, ∀ x ∈ l, R t → Q t → Q (f t x)) {s : State} (hr : R s) (hq : Q s) : Q (l.foldl f s) := by
  induction l generalizing s with
  | nil => exact hq
  | cons x l ih =>
    exact ih (fun t y hy => hQ t y (List.mem_cons_of_mem x hy)) (hR s x hr) (hQ s x List.mem_cons_self hr hq)

/-- What one element of the list brings about, and no other undoes, holds after the fold. -/
theorem foldl_brings {α : Type} {f : State → α → State} {R Q : State → Prop} {l : List α} {a : α} (hnd : l.Nodup)
    (ha : a ∈ l) (hR : ∀ t x, R t → R (f t x)) (hset : ∀ t, R t → Q (f t a))
    (hkeep : ∀ t, ∀ x ∈ l, x ≠ a → R t → Q t → Q (f t x)) {s : State} (hr : R s) : Q (l.foldl f s) := by
  induction l generalizing s with
  | nil => cases ha
  | cons x l ih =>
    obtain ⟨hx, hnd⟩ := List.nodup_cons.mp hnd
    by_cases hm : a ∈ l
    · exact ih hnd hm (fun t y hy => hkeep t y (List.mem_cons_of_mem x hy)) (hR s x hr)
    · obtain rfl : a = x := (List.mem_cons.mp ha).resolve_right hm
      exact foldl_keeps_on hR (fun t y hy => hkeep t y (List.mem_cons_of_mem a hy) (fun e => hx (e ▸ hy)))
        (hR s a hr) (hset s hr)

/-! ### What the words of a transmit port are read from -/

/-- The same image, output samples and buses, and the same holds and fades of every port. -/
structure Wires (s t : State) : Prop where
  img : t.img = s.img
  out : t.smp.out = s.smp.out
  bus : t.smp.bus = s.smp.bus
  holds : ∀ p, (portGet p t).holds = (portGet p s).holds
  fades : ∀ p, (portGet p t).fades = (portGet p s).fades

theorem SerialOnly.wires {s t : State} (h : SerialOnly s t) (hp : t.sap.port = s.sap.port) : Wires s t := by
  have hg : ∀ p, portGet p t = portGet p s := fun p => by unfold portGet; rw [hp]
  obtain ⟨_, _, _, _, _, _, _, _, _, _, _, _, _, _, rfl⟩ := h
  exact ⟨rfl, rfl, rfl, fun p => by rw [hg], fun p => by rw [hg]⟩

theorem Wires.refl (s : State) : Wires s s := ⟨rfl, rfl, rfl, fun _ => rfl, fun _ => rfl⟩
theorem Wires.trans {s t u : State} (h : Wires s t) (k : Wires t u) : Wires s u :=
  ⟨k.img.trans h.img, k.out.trans h.out, k.bus.trans h.bus, fun p => (k.holds p).trans (h.holds p),
    fun p => (k.fades p).trans (h.fades p)⟩

theorem Wires.portCfg {s t : State} (h : Wires s t) (p : Nat) : portCfg t p = portCfg s p := by
  unfold Machine.portCfg
  rw [h.img]

theorem Wires.txWords {s t : State} (h : Wires s t) (p : Nat) (i : Int) : txWords t p i = txWords s p i := by
  unfold Machine.txWords egress isSpeakerBus genInstance directChannel State.half State.B State.lgB State.dbl
  dsimp only
  rw [h.portCfg, h.holds, h.fades, h.img, h.out, h.bus]

/-! ### One port -/

theorem portGet_portSet_self (p : Nat) (v : PortState) (s : State) : portGet p (portSet p v s) = v := sget_sset_self ..
theorem portGet_portSet_of_ne {p q : Nat} (h : p ≠ q) (v : PortState) (s : State) :
    portGet p (portSet q v s) = portGet p s := sget_sset_of_ne _ _ h ..

theorem sendWords_wires (p : Nat) (i : Int) (ws : List Nat) (s : State) : Wires s (sendWords p i ws s) := by
  have hg : ∀ q, (portGet q (sendWords p i ws s)).holds = (portGet q s).holds
      ∧ (portGet q (sendWords p i ws s)).fades = (portGet q s).fades := fun q => by
    unfold sendWords
    by_cases h : q = p
    · subst h
      rw [portGet_portSet_self]
      exact ⟨rfl, rfl⟩
    · rw [portGet_portSet_of_ne h]
      exact ⟨rfl, rfl⟩
  exact ⟨rfl, rfl, rfl, fun q => (hg q).1, fun q => (hg q).2⟩

/-- The same state but for the lanes, the samples that wait, and counters. -/
def LanesOnly (s t : State) : Prop := ∃ l w c n, t = { s with
  smp := { s.smp with lane := l, wait := w }, bus := { s.bus with ctr := c, total := n } }

theorem LanesOnly.refl (s : State) : LanesOnly s s := ⟨_, _, _, _, rfl⟩
theorem LanesOnly.trans {s t u : State} (h : LanesOnly s t) (k : LanesOnly t u) : LanesOnly s u := by
  obtain ⟨_, _, _, _, rfl⟩ := h
  obtain ⟨_, _, _, _, rfl⟩ := k
  exact ⟨_, _, _, _, rfl⟩
theorem LanesOnly.ite {c : Prop} [Decidable c] {s t u : State} (ht : LanesOnly s t) (hu : LanesOnly s u) :
    LanesOnly s (if c then t else u) := by
  split
  · exact ht
  · exact hu
theorem LanesOnly.foldl {α : Type} {f : State → α → State} (h : ∀ s x, LanesOnly s (f s x)) (xs : List α) (s : State) :
    LanesOnly s (xs.foldl f s) := by
  induction xs generalizing s with
  | nil => exact .refl s
  | cons x xs ih => exact (h s x).trans (ih _)

theorem rxFrame_lanes (p i f s) : LanesOnly s (rxFrame p i f s) := by
  unfold rxFrame
  extract_lets c fn x put q fresh
  have hput : ∀ (g : Int → Int) (t : State), LanesOnly t (put g t) := fun g t =>
    .ite (.refl t) (.foldl (fun t _ => ⟨_, _, _, _, rfl⟩) ..)
  split
  · exact hput _ s
  · exact hput _ s
  · exact .ite (hput (fun v => v) s) (.ite (hput (fadeOut s.lgB q) s) (.refl s))
  · split
    · exact .ite (.foldl (fun t _ => ⟨_, _, _, _, rfl⟩) ..) ⟨_, _, _, _, rfl⟩
    · exact ⟨_, _, _, _, rfl⟩

/-- A frame leaves the grid, the scheduler and the groups alone. -/
structure Rolling (s t : State) : Prop extends Wires s t where
  sched : t.sched = s.sched
  grid : t.grid = s.grid
  grp : t.sap.grp = s.sap.grp

theorem Rolling.refl (s : State) : Rolling s s := ⟨.refl s, rfl, rfl, rfl⟩
theorem Rolling.trans {s t u : State} (h : Rolling s t) (k : Rolling t u) : Rolling s u :=
  ⟨h.toWires.trans k.toWires, k.sched.trans h.sched, k.grid.trans h.grid, k.grp.trans h.grp⟩

theorem LanesOnly.rolling {s t : State} (h : LanesOnly s t) : Rolling s t := by
  obtain ⟨_, _, _, _, rfl⟩ := h
  exact ⟨⟨rfl, rfl, rfl, fun _ => rfl, fun _ => rfl⟩, rfl, rfl, rfl⟩
theorem sendWords_rolling (p : Nat) (i : Int) (ws : List Nat) (s : State) : Rolling s (sendWords p i ws s) :=
  ⟨sendWords_wires .., rfl, rfl, rfl⟩

/-! ### The eight ports of a group -/

theorem portsOf_zipIdx (g : Nat) : (portsOf g).zipIdx = (List.range 8).map (fun k => (8 * g + k, k)) := rfl

theorem portsOf_nodup (g : Nat) : (portsOf g).zipIdx.Nodup := by
  rw [portsOf_zipIdx]
  exact List.nodup_range.map fun _ _ h => (Prod.mk.inj h).2

theorem mem_portsOf {g : Nat} {x : Nat × Nat} : x ∈ (portsOf g).zipIdx ↔ x.2 < 8 ∧ x.1 = 8 * g + x.2 := by
  rw [portsOf_zipIdx, List.mem_map]
  constructor
  · rintro ⟨k, hk, rfl⟩
    exact ⟨List.mem_range.mp hk, rfl⟩
  · rintro ⟨h, e⟩
    exact ⟨x.2, List.mem_range.mpr h, Prod.ext e.symm rfl⟩

/-- The frame of one port. -/
def framePort (i : Nat) (fs : List Nat) (s : State) (x : Nat × Nat) : State :=
  if (portCfg s x.1).dir = 1 then rxFrame x.1 i (nth 0 fs x.2) s
  else if (portCfg s x.1).dir = 2 then sendWords x.1 i ((txWords s x.1 i).map (pattern (portCfg s x.1).word)) s
  else s

theorem frameWords_eq (g i fs s) : frameWords g i fs s = (portsOf g).zipIdx.foldl (framePort i fs) s := by
  unfold frameWords
  congr 1
  funext t x
  unfold framePort
  dsimp only
  split
  · rename_i h
    rw [if_pos h]
  · rename_i h
    rw [if_neg (by rw [h]; decide), if_pos h]
  · rename_i h1 h2
    rw [if_neg h1, if_neg h2]

theorem framePort_rolling (i fs s x) : Rolling s (framePort i fs s x) := by
  unfold framePort
  split
  · exact (rxFrame_lanes ..).rolling
  · split
    · exact sendWords_rolling ..
    · exact .refl s

theorem frameWords_rolling (g i fs s) : Rolling s (frameWords g i fs s) := by
  rw [frameWords_eq]
  exact foldl_keeps_on (R := fun _ => True) (Q := Rolling s) (fun _ _ _ => trivial)
    (fun t x _ _ h => h.trans (framePort_rolling i fs t x)) trivial (.refl s)

/-- Of the counters a received frame advances the dropped samples of an idle function alone (R257). -/
theorem rxFrame_counted (p i f s) : Counted [(0x10040064, 0)] s (rxFrame p i f s) := by
  unfold rxFrame
  extract_lets c fn x put q fresh
  have hput : ∀ (g : Int → Int) (t : State), Counted [(0x10040064, 0)] t (put g t) := fun g t =>
    .ite (.refl ..) (.foldl (fun _ _ => by exact .of_bus rfl) ..)
  split
  · exact hput _ s
  · exact hput _ s
  · exact .ite (hput (fun v => v) s) (.ite (hput (fadeOut s.lgB q) s) (.refl ..))
  · split
    · exact .ite (.foldl (fun _ _ => by exact .of_bus rfl) ..) (count_counted (by decide) ..)
    · exact count_counted (by decide) ..

theorem frameWords_counted (g i fs s) : Counted [(0x10040064, 0)] s (frameWords g i fs s) := by
  rw [frameWords_eq]
  refine .foldl (fun t x => ?_) ..
  unfold framePort
  exact .ite (rxFrame_counted ..) (.ite (.of_bus rfl) (.refl ..))

/-- After a frame each transmit port of the group holds the words of the frame's index. -/
theorem frameWords_sends {g q : Nat} (hq : q < 8) {s t : State} (hw : Wires s t) (i : Nat) (fs : List Nat)
    (hdir : (portCfg s (8 * g + q)).dir = 2) :
    let r := portCfg s (8 * g + q)
    let ws := (txWords s (8 * g + q) i).map (pattern r.word)
    (portGet (8 * g + q) (frameWords g i fs t)).words = ws ∧ (portGet (8 * g + q) (frameWords g i fs t)).ball = ballBits r ws := by
  intro r ws
  rw [frameWords_eq]
  refine foldl_brings (a := (8 * g + q, q)) (R := Wires s) (portsOf_nodup g) (mem_portsOf.mpr ⟨hq, rfl⟩)
    (Q := fun u => (portGet (8 * g + q) u).words = ws ∧ (portGet (8 * g + q) u).ball = ballBits r ws)
    (fun u x hu => hu.trans (framePort_rolling i fs u x).toWires) (fun u hu => ?_) (fun u x hx hne _ hk => ?_) hw
  · unfold framePort
    rw [hu.portCfg, if_neg (by rw [hdir]; decide), if_pos hdir, hu.txWords]
    unfold sendWords
    rw [portGet_portSet_self, hu.portCfg]
    exact ⟨rfl, rfl⟩
  · obtain ⟨hx8, hx⟩ := mem_portsOf.mp hx
    have hp : 8 * g + q ≠ x.1 := fun e => hne (Prod.ext e.symm (by simp only; omega))
    have hsame : portGet (8 * g + q) (framePort i fs u x) = portGet (8 * g + q) u := by
      unfold framePort
      split
      · obtain ⟨_, _, _, _, h⟩ := rxFrame_lanes x.1 i (nth 0 fs x.2) u
        rw [h]
        rfl
      · split
        · unfold sendWords
          exact portGet_portSet_of_ne hp ..
        · rfl
    rw [hsame]
    exact hk

/-! ### The lanes of a receive port -/

theorem smpGet_smpPut_self (o i : Nat) (v : Int) (m : Sparse Int) : smpGet (smpPut o i [v] m) o i = v := by
  unfold smpGet smpPut
  rw [if_neg (by omega), if_neg (by omega)]
  have h := sget_ssetList 0 (skey o i) 0 [v] Nat.zero_lt_one m
  rwa [Nat.add_zero] at h

theorem smpGet_smpPut_of_ne {o p i : Nat} (h : o ≠ p) (hi : i < 2 ^ 64) (v : Int) (m : Sparse Int) :
    smpGet (smpPut p i [v] m) o i = smpGet m o i := by
  have hk : skey o i < skey p i ∨ skey p i + [v].length ≤ skey o i := by
    unfold skey
    rw [List.length_singleton]
    omega
  unfold smpGet smpPut
  rw [if_neg (by omega), if_neg (by omega), if_neg (by omega)]
  exact sget_ssetList_of_ne 0 (skey p i) (skey o i) [v] hk m

/-- Words written to the lanes of a port, slot by slot. -/
def laneWords (base i : Nat) (x : Nat → Int) (l : List (Nat × Nat)) (s : State) : State :=
  l.foldl (fun s e => { s with smp := { s.smp with lane := smpPut (base + e.2) i [x e.1] s.smp.lane } }) s

/-- A frame of a running function without a fresh start writes the words of its slots. -/
theorem rxFrame_running {p i : Nat} {s : State} (f : Nat) (hst : (fnGet 1 p s).st = 0) (hsince : (fnGet 1 p s).since = 0)
    (htook : crossingTook s i = false) : rxFrame p i f s = laneWords (portCfg s p).laneBase i
      (fun k => if inputHold s p i = 0 then pcmIn (portCfg s p).word (signExt (portCfg s p).word (slotWord (portCfg s p) k f)) else 0)
      (enabledSlots (portCfg s p)).zipIdx s := by
  unfold rxFrame laneWords
  dsimp only
  rw [hst, hsince]
  rw [htook]
  rfl

theorem laneWords_get {base i j k : Nat} {x : Nat → Int} {l : List Nat} (hj : l[j]? = some k) (hi : i < 2 ^ 64) (s : State) :
    smpGet (laneWords base i x l.zipIdx s).smp.lane (base + j) i = x k := by
  have hmem : (k, j) ∈ l.zipIdx := by
    rw [List.mem_zipIdx_iff_getElem?]
    exact hj
  have hnd : l.zipIdx.Nodup := by
    refine List.Nodup.of_map Prod.snd ?_
    rw [List.zipIdx_map_snd]
    exact List.nodup_range'
  refine foldl_brings (a := (k, j)) (R := fun _ => True) (Q := fun u => smpGet u.smp.lane (base + j) i = x k) hnd hmem
    (fun _ _ _ => trivial) (fun u _ => smpGet_smpPut_self ..) (fun u e he hne _ hk => ?_) trivial
  have hj' : l[e.2]? = some e.1 := List.mem_zipIdx_iff_getElem?.mp he
  have hn : base + j ≠ base + e.2 := fun h => hne (by
    obtain rfl : j = e.2 := by omega
    exact Prod.ext (Option.some.inj (hj'.symm.trans hj)) rfl)
  exact (smpGet_smpPut_of_ne hn hi ..).trans hk

theorem Rolling.inputHold {s t : State} (h : Rolling s t) (p : Nat) (i : Int) : inputHold t p i = inputHold s p i := by
  unfold Machine.inputHold
  rw [h.sched, h.holds]

theorem Rolling.crossingTook {s t : State} (h : Rolling s t) (i : Nat) : crossingTook t i = crossingTook s i := by
  unfold Machine.crossingTook State.S State.dbl period
  rw [h.grid, h.img]

theorem Rolling.fnGet {s t : State} (h : Rolling s t) (k p : Nat) : fnGet k p t = fnGet k p s := by
  unfold Machine.fnGet
  rw [h.sched]

/-- The only receive port of a group brings the words of its slots into its lanes. -/
theorem frameWords_lane {g q i j k : Nat} {s t : State} (hq : q < 8) (hw : Rolling s t) (fs : List Nat)
    (hdir : (portCfg s (8 * g + q)).dir = 1) (honly : ∀ h < 8, h ≠ q → (portCfg s (8 * g + h)).dir ≠ 1)
    (hj : (enabledSlots (portCfg s (8 * g + q)))[j]? = some k) (hi : i < 2 ^ 64) (hst : (fnGet 1 (8 * g + q) s).st = 0)
    (hsince : (fnGet 1 (8 * g + q) s).since = 0) (htook : crossingTook s i = false) :
    let r := portCfg s (8 * g + q)
    smpGet (frameWords g i fs t).smp.lane (r.laneBase + j) i = if inputHold s (8 * g + q) i = 0 then
      pcmIn r.word (signExt r.word (slotWord r k (nth 0 fs q))) else 0 := by
  intro r
  generalize hx : (if inputHold s (8 * g + q) i = 0 then pcmIn r.word (signExt r.word (slotWord r k (nth 0 fs q))) else 0) = x
  rw [frameWords_eq]
  refine foldl_brings (a := (8 * g + q, q)) (R := Rolling s) (portsOf_nodup g) (mem_portsOf.mpr ⟨hq, rfl⟩)
    (Q := fun u => smpGet u.smp.lane (r.laneBase + j) i = x)
    (fun u x hu => hu.trans (framePort_rolling i fs u x)) (fun u hu => ?_) (fun u e he hne hu hk => ?_) hw
  · unfold framePort
    rw [hu.portCfg, if_pos hdir, rxFrame_running _ (by rw [hu.fnGet, hst]) (by rw [hu.fnGet, hsince])
      (by rw [hu.crossingTook, htook]), hu.portCfg, hu.inputHold]
    rw [← hx]
    exact laneWords_get hj hi u
  · obtain ⟨he8, he⟩ := mem_portsOf.mp he
    have hp : e.2 ≠ q := fun h => hne (Prod.ext (he.trans (by rw [h])) h)
    have hnot : ¬ (portCfg u e.1).dir = 1 := by
      rw [hu.portCfg, he]
      exact honly e.2 he8 hp
    unfold framePort
    rw [if_neg hnot]
    split
    · exact hk
    · exact hk

end Sys2Proof.Machine
end

section
/-!
PROOF. Serial ports (chapter 12): frames, slips, clock faults, rate windows and alignment, obligation O52.
-/
namespace Sys2Proof.Machine

/-! ### Groups -/

theorem grpGet_grpSet_self (g : Nat) (v : GrpState) (s : State) : grpGet g (grpSet g v s) = v := sget_sset_self ..
theorem grpGet_congr {g : Nat} {s t : State} (h : t.sap.grp = s.sap.grp) : grpGet g t = grpGet g s := by
  unfold grpGet
  rw [h]
theorem grpGet_of_sap {g : Nat} {s t : State} (h : t.sap = s.sap) : grpGet g t = grpGet g s := grpGet_congr (by rw [h])
theorem grpGet_raiseAt (g : Nat) (tick : Bool) (code arg : Nat) (s : State) : grpGet g (raiseAt tick code arg s) = grpGet g s :=
  grpGet_congr (by rw [raiseAt_sap])
theorem grpGet_lapseAt (g : Nat) (tick : Bool) (s : State) : grpGet g (lapseAt tick s) = grpGet g s :=
  grpGet_congr (by rw [lapseAt_sap])

theorem agNote_grp (g : Nat) (s : State) : (agNote g s).sap.grp = s.sap.grp := rfl
theorem cget_agNote (a i g : Nat) (s : State) : cget a i (agNote g s) = cget a i s := rfl
theorem agNote_port (g : Nat) (s : State) : (agNote g s).sap.port = s.sap.port := rfl
theorem setSapSubst_sap (s : State) : (setSapSubst s).sap = s.sap := by
  unfold setSapSubst
  rw [lapse_sap]

theorem zeroWords_grp (g : Nat) (s : State) : (zeroWords g s).sap.grp = s.sap.grp := by
  unfold zeroWords
  refine foldl_keeps (fun t => t.sap.grp) _ (fun t p => ?_) _ _
  split <;> rfl

theorem zeroWords_bus (g : Nat) (s : State) : (zeroWords g s).bus = s.bus := by
  unfold zeroWords
  refine foldl_keeps State.bus _ (fun t p => ?_) _ _
  split <;> rfl

/-- The counters that a serial port's fault or slip may advance beside its own: lost events. -/
def lostEvents : List (Nat × Nat) := [(0x10140034, 0)]

theorem lostEvents_other {a g : Nat} (h : a ≠ 0x10140034) (hg : g < 65536) : ∀ e ∈ lostEvents, rkey a g ≠ rkey e.1 e.2 := by
  intro e he
  obtain rfl := List.mem_singleton.mp he
  unfold rkey
  omega

/-! ### A clock fault (R438, R439) -/

/-- The group without its clock, its lanes and words zero. -/
def unclocked (g z : Nat) (s : State) : State :=
  zeroWords g (zeroLanes g z (grpSet g { grpGet g s with aligned := false, clockLoss := true, stable := 0 } s))

theorem unclocked_get (g z : Nat) (s : State) :
    grpGet g (unclocked g z s) = { grpGet g s with aligned := false, clockLoss := true, stable := 0 } := by
  unfold unclocked
  rw [grpGet_congr (zeroWords_grp ..)]
  exact grpGet_grpSet_self ..

theorem unclocked_bus (g z : Nat) (s : State) : (unclocked g z s).bus = s.bus := by
  unfold unclocked
  rw [zeroWords_bus]
  rfl

/-- The lapse of a group that receives. -/
def rxLapse (tick : Bool) (g : Nat) (s : State) : State :=
  if hasRx s g then lapseAt tick { s with grid := { s.grid with sapSubst := true } } else s

theorem rxLapse_sap (tick : Bool) (g : Nat) (s : State) : (rxLapse tick g s).sap = s.sap := by
  unfold rxLapse
  split
  · rw [lapseAt_sap]
  · rfl

theorem rxLapse_counted (tick : Bool) (g : Nat) (s : State) : Counted lostEvents s (rxLapse tick g s) := by
  refine .ite (Counted.trans ?_ (lapseAt_counted (by decide) ..)) (.refl ..)
  exact .of_bus rfl

theorem grpFaultAt_eq {g : Nat} {s : State} (tick : Bool) (z : Nat) (h : (grpGet g s).aligned = true) :
    grpFaultAt tick g z s = raiseAt tick 0x64 g (agNote g (count 0x100D0030 g 1 (rxLapse tick g (unclocked g z s)))) := by
  unfold grpFaultAt unclocked rxLapse
  dsimp only
  rw [if_pos h]

theorem grpFaultAt_get {g : Nat} {s : State} (tick : Bool) (z : Nat) (h : (grpGet g s).aligned = true) :
    grpGet g (grpFaultAt tick g z s) = { grpGet g s with aligned := false, clockLoss := true, stable := 0 } := by
  rw [grpFaultAt_eq tick z h, grpGet_raiseAt, grpGet_congr (agNote_grp ..), grpGet_of_sap (count_sap ..),
    grpGet_of_sap (rxLapse_sap ..), unclocked_get]

theorem grpFaultAt_counts {g : Nat} {s : State} (tick : Bool) (z : Nat) (h : (grpGet g s).aligned = true) (hg : g < 65536) :
    Counts 0x100D0030 g 1 s (grpFaultAt tick g z s) := by
  have hk := lostEvents_other (a := 0x100D0030) (by decide) hg
  have hb : Counted lostEvents s (rxLapse tick g (unclocked g z s)) := (Counted.of_bus (unclocked_bus ..)).trans (rxLapse_counted ..)
  rw [grpFaultAt_eq tick z h]
  unfold Counts
  rw [cget_raiseAt (hk (0x10140034, 0) (by decide)), cget_agNote, cget_count_self, hb.kept 0x100D0030 g hk]

theorem grpFaultAt_pend {g : Nat} {s : State} (tick : Bool) (z : Nat) (h : (grpGet g s).aligned = true) :
    (grpFaultAt tick g z s).ev.pend.getLsbD 0x64 = true := by
  rw [grpFaultAt_eq tick z h, raiseAt_pend, BitVec.getLsbD_or, Bool.or_eq_true]
  exact .inr (by decide)

/-! ### Slips (R434, R435) -/

theorem slipNote_port (g : Nat) (s : State) : (slipNote g s).sap.port = s.sap.port := by
  unfold slipNote
  extract_lets v u
  have hu : u.sap.port = s.sap.port := (agNote_port ..).trans (congrArg (·.port) (setSapSubst_sap _))
  split
  · exact hu
  · rw [raise_sap]
    exact hu

theorem slipNote_get (g : Nat) (s : State) :
    grpGet g (slipNote g s) = { grpGet g s with slip := true, slipBlock := s.grid.block + 1 } := by
  unfold slipNote
  extract_lets v u
  have hu : grpGet g u = { grpGet g s with slip := true, slipBlock := s.grid.block + 1 } :=
    ((grpGet_congr (agNote_grp ..)).trans (grpGet_of_sap (setSapSubst_sap _))).trans (grpGet_grpSet_self ..)
  split
  · exact hu
  · rw [grpGet_of_sap (raise_sap ..)]
    exact hu

theorem grpSet_counted (g : Nat) (v : GrpState) (s : State) : Counted lostEvents s (grpSet g v s) := .of_bus rfl
theorem agNote_counted (g : Nat) (s : State) : Counted lostEvents s (agNote g s) := .of_bus rfl
theorem setSapSubst_counted (s : State) : Counted lostEvents s (setSapSubst s) :=
  Counted.trans (t := { s with grid := { s.grid with sapSubst := true } }) (.of_bus rfl) (lapseAt_counted (by decide) ..)

theorem slipNote_counted (g : Nat) (s : State) : Counted lostEvents s (slipNote g s) := by
  unfold slipNote
  extract_lets v u
  have hu : Counted lostEvents s u := ((grpSet_counted ..).trans (setSapSubst_counted _)).trans (agNote_counted ..)
  exact .ite hu (hu.trans (raise_counted (l := lostEvents) (by decide) ..))

/-- The slips of a frame noted and counted in the register `a`. -/
def slipsCounted (a g n : Nat) (s : State) : State := if n = 0 then s else count a g n (slipNote g s)

theorem slipsCounted_serial (a g n : Nat) (s : State) : SerialOnly s (slipsCounted a g n s) :=
  .ite (.refl s) ((slipNote_serial ..).trans (count_sounded ..).serial)

theorem slipsCounted_port (a g n : Nat) (s : State) : (slipsCounted a g n s).sap.port = s.sap.port := by
  unfold slipsCounted
  split
  · rfl
  · rw [count_sap, slipNote_port]

/-- A slip writes of its group the mark and the block of the event. -/
theorem slipsCounted_get (a g n : Nat) (s : State) : ∃ b, grpGet g (slipsCounted a g n s) = { grpGet g s with
    slip := (grpGet g s).slip || decide (n ≠ 0), slipBlock := b } := by
  unfold slipsCounted
  split
  · rename_i h
    exact ⟨(grpGet g s).slipBlock, by simp [h]⟩
  · rename_i h
    refine ⟨s.grid.block + 1, ?_⟩
    rw [grpGet_of_sap (count_sap ..), slipNote_get]
    simp [h]

theorem slipsCounted_counts {a g n : Nat} (ha : a ≠ 0x10140034) (hg : g < 65536) (hn : n ≠ 0) (s : State) :
    Counts a g n s (slipsCounted a g n s) := by
  unfold slipsCounted
  rw [if_neg hn]
  exact counts_of_cget ((slipNote_counted g s).kept _ _ (lostEvents_other ha hg)) (cget_count_self ..)

/-- The slips relayed to the partner, and the relays of the group taken off. -/
def slipsRelayed (g next n : Nat) (drop : Bool) (i : Nat) (s : State) : State :=
  let s := if s.twin.acts then relaySlips g next n drop s else s
  { s with twin := { s.twin with serial := s.twin.serial.filter (fun e =>
    !(decide (e.1 = 7) && decide (e.2.2.1 = g) && decide (e.2.2.2.1 ≤ i))) } }

theorem relayReq_only (k f t b p : Nat) (s : State) : TwinOnly s (relayReq k f t b p s) := by
  obtain ⟨q, n, h⟩ := relayReq_queued k f t b p s
  rw [h]
  exact ⟨_, rfl⟩

theorem relaySlips_only (g next n : Nat) (drop : Bool) (s : State) : TwinOnly s (relaySlips g next n drop s) := by
  have hf : ∀ (l : List Nat) (u : State), TwinOnly s u → TwinOnly s (l.foldl (fun s k => relayReq 7 1 g (next + k) 0 s) u) := by
    intro l
    induction l with
    | nil => exact fun u h => h
    | cons k l ih => exact fun u h => ih _ (h.trans (relayReq_only ..))
  unfold relaySlips
  dsimp only
  split
  · exact (hf _ s (.refl s)).trans (relayReq_only ..)
  · exact hf _ s (.refl s)

theorem slipsRelayed_only (g next n : Nat) (drop : Bool) (i : Nat) (s : State) :
    TwinOnly s (slipsRelayed g next n drop i s) := by
  unfold slipsRelayed
  refine TwinOnly.trans (t := if s.twin.acts then relaySlips g next n drop s else s) ?_ ⟨_, rfl⟩
  split
  · exact relaySlips_only ..
  · exact .refl s

theorem slipsRelayed_serial (g next n : Nat) (drop : Bool) (i : Nat) (s : State) :
    SerialOnly s (slipsRelayed g next n drop i s) :=
  (SerialOnly.ite (relaySlips_serial ..) (.refl s)).trans (link_serial _ _ _ _)

/-! ### A frame of a follower -/

theorem slipDecision_own {s : State} {g : Nat} {v : GrpState} {t : Int} (h : takesRelays s = false) :
    slipDecision s g v t = (slipOwn s v t, false) := by
  unfold slipDecision
  rw [h]
  rfl

/-- Samples inserted for a frame that comes at `phi` behind its index. -/
def inserted (s : State) (phi : Int) : Nat :=
  if (s.S : Int) * s.C ≤ phi then ((phi - s.S * s.C) / s.C).toNat + 1 else 0

theorem slipOwn_late {s : State} {v : GrpState} {t : Int} (h : 0 ≤ t - (s.C : Int) * v.next) :
    slipOwn s v t = (inserted s (t - (s.C : Int) * v.next), false) := by
  have hd : ¬ t - (s.C : Int) * v.next - (s.C : Int) * (inserted s (t - (s.C : Int) * v.next) : Nat) < 0 := by
    revert h
    generalize t - (s.C : Int) * v.next = phi
    unfold inserted State.S State.C
    cases s.dbl
    · simp only [Bool.false_eq_true, if_false]
      intro h
      split <;> omega
    · simp only [if_true]
      intro h
      split <;> omega
  exact Prod.ext rfl (decide_eq_false hd)

theorem slipOwn_early {s : State} {v : GrpState} {t : Int} (h : t - (s.C : Int) * v.next < 0) :
    slipOwn s v t = (0, true) := by
  have hn : ¬ (s.S : Int) * s.C ≤ t - (s.C : Int) * v.next := by
    have : (0 : Int) ≤ (s.S : Int) * s.C := by positivity
    omega
  unfold slipOwn
  dsimp only
  rw [if_neg hn, Int.natCast_zero, Int.mul_zero, Int.sub_zero, decide_eq_true h]

/-- The state in which a follower's frame enters at index `i`, its `n` insertions noted. -/
def frameEntered (g n i : Nat) (t : Int) (s : State) : State :=
  let u := slipsRelayed g (grpGet g s).next n false i (slipsCounted 0x100D0028 g n s)
  let v := grpGet g u
  grpSet g { v with
    next := i + 1, idx := i, phase := t - (u.C : Int) * i, lastIdx := some i, hist := lastN 4 (v.hist ++ [(t, i)]) } u

theorem alignedFrame_late {s : State} {g n : Nat} {t : Int} (fs : List Nat) (hr : takesRelays s = false)
    (hs : slipOwn s (grpGet g s) t = (n, false)) :
    alignedFrame g t fs s = frameWords g ((grpGet g s).next + n) fs (frameEntered g n ((grpGet g s).next + n) t s) := by
  unfold alignedFrame
  dsimp only
  rw [slipDecision_own hr, hs]
  rfl

theorem alignedFrame_early {s : State} {g : Nat} {t : Int} (fs : List Nat) (hr : takesRelays s = false)
    (hs : slipOwn s (grpGet g s) t = (0, true)) :
    let u := slipsRelayed g (grpGet g s).next 0 true (grpGet g s).next (slipsCounted 0x100D002C g 1 s)
    alignedFrame g t fs s = zeroWords g (grpSet g { grpGet g u with next := (grpGet g s).next, lastIdx := none } u) := by
  unfold alignedFrame
  dsimp only
  rw [slipDecision_own hr, hs]
  rfl

/-- What a follower's frame finds when its words are read: its index, its phase and its slips. -/
theorem frameEntered_facts {g n i : Nat} {t : Int} {s : State} (hg : g < 65536) :
    let v := grpGet g s
    let u := frameEntered g n i t s
    Wires s u ∧ (grpGet g u).next = i + 1 ∧ (grpGet g u).idx = i ∧ (grpGet g u).phase = t - (s.C : Int) * i
      ∧ (grpGet g u).aligned = v.aligned ∧ (grpGet g u).last = v.last ∧ (n ≠ 0 → Counts 0x100D0028 g n s u)
      ∧ (grpGet g u).slip = (v.slip || decide (n ≠ 0)) := by
  intro v u
  obtain ⟨w, hw⟩ := slipsRelayed_only g v.next n false i (slipsCounted 0x100D0028 g n s)
  obtain ⟨b, hb⟩ := slipsCounted_get 0x100D0028 g n s
  have hwires : Wires s (slipsCounted 0x100D0028 g n s) := (slipsCounted_serial ..).wires (slipsCounted_port ..)
  have hcount := fun hn : n ≠ 0 => slipsCounted_counts (a := 0x100D0028) (by decide) hg hn s
  have hu : u = frameEntered g n i t s := rfl
  unfold frameEntered at hu
  rw [hw] at hu
  revert hwires hb hcount hu
  generalize slipsCounted 0x100D0028 g n s = c
  intro hb hwires hcount hu
  have hg' : grpGet g { c with twin := w } = grpGet g c := rfl
  have hget := congrArg (grpGet g) hu
  rw [grpGet_grpSet_self, hg', hb] at hget
  have hC : State.C { c with twin := w } = s.C := by
    unfold State.C State.dbl
    rw [hwires.img]
  rw [hC] at hget
  refine ⟨hwires.trans (hu ▸ ⟨rfl, rfl, rfl, fun _ => rfl, fun _ => rfl⟩), ?_, ?_, ?_, ?_, ?_, fun hn => ?_, ?_⟩
  · rw [hget]
  · rw [hget]
  · rw [hget]
  · rw [hget]
  · rw [hget]
  · have := hcount hn
    rw [hu]
    exact this
  · rw [hget]

end Sys2Proof.Machine
end

section
/-!
PROOF. Obligation O52, case by case.
-/
namespace Sys2Proof.Machine

/-- A group's frame. -/
theorem exec_serialFrame {g : Nat} (hg : g < 24) (t : Int) (b : Nat) (ws : List Nat) (s : State) :
    exec (.serialFrame g t b ws) s = .next (serialFrame g t b ws s) := withInstance_next.mpr ⟨hg, rfl⟩
theorem exec_frameAbsent {g : Nat} (hg : g < 24) (s : State) :
    exec (.frameAbsentTimeout g) s = .next (frameAbsent g s) := withInstance_next.mpr ⟨hg, rfl⟩
theorem exec_rateWindowEnd {g : Nat} (hg : g < 24) (s : State) :
    exec (.rateWindowEnd g) s = .next (rateWindow g s) := withInstance_next.mpr ⟨hg, rfl⟩
theorem exec_sapAlign {g : Nat} (hg : g < 24) (t : Int) (s : State) :
    exec (.sapAlign g t) s = .next (sapAlign g t s) := withInstance_next.mpr ⟨hg, rfl⟩

/-! ### The group that leads -/

/-- A leading group's state as its frame begins. -/
def leading (g : Nat) (t : Int) (s : State) : State :=
  grpSet g { grpGet g s with
    aligned := true, ever := true, next := (t / s.C).toNat + 1, idx := (t / s.C).toNat, phase := 0, last := some t
    lastIdx := some (t / s.C).toNat, fsync := syncBits (grpCfg s g) } s

theorem leading_wires (g : Nat) (t : Int) (s : State) : Wires s (leading g t s) := ⟨rfl, rfl, rfl, fun _ => rfl, fun _ => rfl⟩

theorem serialFrame_leads {g : Nat} {s : State} (t : Int) (b : Nat) (ws : List Nat) (hm : (grpCfg s g).mode = 1)
    (ha : s.twin.acts = true) (hr : s.grid.running = true) :
    serialFrame g t b ws s = frameWords g (t / s.C).toNat ws (leading g t s) := by
  unfold serialFrame
  rw [hm]
  dsimp only
  rw [if_pos ha, if_pos hr]
  rfl

/-! ### A follower -/

/-- A follower's frame start noted. -/
def started (g : Nat) (t : Int) (s : State) : State :=
  let v := grpGet g s
  grpSet g { v with
    last := some t, before := v.last, winF := if v.won then v.winF + 1 else 0, winLast := if v.won then some t else none } s

theorem started_get (g : Nat) (t : Int) (s : State) : grpGet g (started g t s) = { grpGet g s with
    last := some t, before := (grpGet g s).last, winF := if (grpGet g s).won then (grpGet g s).winF + 1 else 0
    winLast := if (grpGet g s).won then some t else none } := grpGet_grpSet_self ..

theorem started_wires (g : Nat) (t : Int) (s : State) : Wires s (started g t s) := ⟨rfl, rfl, rfl, fun _ => rfl, fun _ => rfl⟩

theorem closeInterval_whole {g b : Nat} {t : Int} {s : State} (ha : (grpGet g s).aligned = true)
    (hw : ∀ t0, (grpGet g s).last = some t0 → b = (grpCfg s g).frameBits ∧ 2 * (t - t0) < 5 * s.C) :
    closeInterval g t b s = s := by
  unfold closeInterval
  dsimp only
  split
  · rfl
  · rename_i t0 h
    obtain ⟨hb, ht⟩ := hw t0 h
    rw [if_pos ha, if_neg (by omega), if_pos hb]

theorem serialFrame_follows {g b : Nat} {t : Int} {s : State} (ws : List Nat) (hm : (grpCfg s g).mode = 2)
    (ha : (grpGet g s).aligned = true) (hr : s.grid.running = true)
    (hw : ∀ t0, (grpGet g s).last = some t0 → b = (grpCfg s g).frameBits ∧ 2 * (t - t0) < 5 * s.C) :
    serialFrame g t b ws s = alignedFrame g t ws (started g t s) := by
  unfold serialFrame
  rw [hm]
  dsimp only
  rw [closeInterval_whole ha hw]
  exact if_pos (by rw [Bool.and_eq_true]; exact ⟨ha, hr⟩)

theorem started_next (g : Nat) (t : Int) (s : State) : (grpGet g (started g t s)).next = (grpGet g s).next := by
  rw [started_get]

theorem zeroWords_counts {a i n g : Nat} {s u : State} (h : Counts a i n s u) : Counts a i n s (zeroWords g u) := by
  unfold Counts cget at h ⊢
  rw [zeroWords_bus]
  exact h

theorem frameWords_counts {a i n g : Nat} {s u : State} (ha : a ≠ 0x10040064) (hi : i < 65536) (j : Nat) (fs : List Nat)
    (h : Counts a i n s u) : Counts a i n s (frameWords g j fs u) := by
  unfold Counts at h ⊢
  rw [(frameWords_counted ..).kept a i, h]
  intro e he
  obtain rfl := List.mem_singleton.mp he
  unfold rkey
  omega

/-- A frame that comes at or after its index: the state it leaves, and what is found in it. -/
theorem serialFrame_late {g b : Nat} {t : Int} {s : State} (ws : List Nat) (hg : g < 24) (hm : (grpCfg s g).mode = 2)
    (ha : (grpGet g s).aligned = true) (hr : s.grid.running = true)
    (hw : ∀ t0, (grpGet g s).last = some t0 → b = (grpCfg s g).frameBits ∧ 2 * (t - t0) < 5 * s.C)
    (htr : takesRelays s = false) (h : 0 ≤ t - (s.C : Int) * (grpGet g s).next) :
    let v := grpGet g s
    let n := inserted s (t - (s.C : Int) * v.next)
    let i := v.next + n
    ∃ w, serialFrame g t b ws s = frameWords g i ws w ∧ Wires s w
      ∧ (grpGet g w).next = i + 1 ∧ (grpGet g w).idx = i ∧ (grpGet g w).phase = t - (s.C : Int) * i
      ∧ (grpGet g w).aligned = true ∧ (grpGet g w).last = some t ∧ (n ≠ 0 → Counts 0x100D0028 g n s w)
      ∧ (grpGet g w).slip = (v.slip || decide (n ≠ 0)) := by
  intro v n i
  have hs : slipOwn (started g t s) (grpGet g (started g t s)) t = (n, false) := by
    have hl := slipOwn_late (s := started g t s) (v := grpGet g (started g t s)) (t := t) (by rw [started_next]; exact h)
    rw [started_next] at hl
    exact hl
  have he := alignedFrame_late ws (s := started g t s) htr hs
  rw [started_next] at he
  obtain ⟨h1, h2, h3, h4, h5, h6, h7, h8⟩ := frameEntered_facts (g := g) (n := n) (i := i) (t := t) (s := started g t s) (by omega)
  rw [started_get] at h5 h6 h8
  exact ⟨_, (serialFrame_follows ws hm ha hr hw).trans he, (started_wires g t s).trans h1, h2, h3, h4, h5.trans ha, h6, h7, h8⟩

/-- A frame that comes before its index is dropped. -/
theorem serialFrame_early {g b : Nat} {t : Int} {s : State} (ws : List Nat) (hg : g < 24) (hm : (grpCfg s g).mode = 2)
    (ha : (grpGet g s).aligned = true) (hr : s.grid.running = true)
    (hw : ∀ t0, (grpGet g s).last = some t0 → b = (grpCfg s g).frameBits ∧ 2 * (t - t0) < 5 * s.C)
    (htr : takesRelays s = false) (h : t - (s.C : Int) * (grpGet g s).next < 0) :
    let u := serialFrame g t b ws s
    (grpGet g u).next = (grpGet g s).next ∧ Counts 0x100D002C g 1 s u ∧ (grpGet g u).slip = true := by
  have hs : slipOwn (started g t s) (grpGet g (started g t s)) t = (0, true) :=
    slipOwn_early (by rw [started_next]; exact h)
  have he := (serialFrame_follows ws hm ha hr hw).trans (alignedFrame_early ws (s := started g t s) htr hs)
  rw [started_next] at he
  obtain ⟨x, hx⟩ := slipsRelayed_only g (grpGet g s).next 0 true (grpGet g s).next (slipsCounted 0x100D002C g 1 (started g t s))
  obtain ⟨k, hk⟩ := slipsCounted_get 0x100D002C g 1 (started g t s)
  have hc := slipsCounted_counts (a := 0x100D002C) (g := g) (by decide) (by omega) Nat.one_ne_zero (started g t s)
  rw [hx] at he
  intro u
  have hu : u = _ := he
  revert hc hk hu
  generalize slipsCounted 0x100D002C g 1 (started g t s) = c
  intro hk hc hu
  rw [hu, grpGet_congr (zeroWords_grp ..), grpGet_grpSet_self]
  exact ⟨rfl, zeroWords_counts hc, (congrArg GrpState.slip hk).trans (Bool.or_true _)⟩

/-! ### Rate windows -/

theorem rateWindow_leads {g : Nat} {s : State} (hm : (grpCfg s g).mode = 1) :
    rateWindow g s = grpSet g { grpGet g s with frames := 16 * s.B, drift := 0 } s := by
  unfold rateWindow
  rw [hm]
  rfl

/-- The drift of a window of R436, and whether it is high. -/
def windowDrift (s : State) (v : GrpState) (a b : Int) : Int := a - b - (s.C : Int) * v.winF
def windowHigh (s : State) (g : Nat) (d : Int) : Bool := decide ((grpCfg s g).rateTol * 524288 < d.natAbs * 1000000)

/-- A group with its window reported. -/
def windowRow (g : Nat) (a b : Int) (s : State) : GrpState :=
  let v := grpGet g s
  let d := windowDrift s v a b
  { v with
    winF := 0, winLast := none, won := true, winPrev := some a, frames := v.winF, drift := d
    rateHigh := windowHigh s g d, rateChange := v.rateChange || decide (windowHigh s g d ≠ v.rateHigh) }
def reported (g : Nat) (a b : Int) (s : State) : State := grpSet g (windowRow g a b s) s

theorem rateWindow_follows {g : Nat} {s : State} {a b : Int} (hm : (grpCfg s g).mode = 2) (hw : (grpGet g s).won = true)
    (ha : (grpGet g s).winLast = some a) (hb : (grpGet g s).winPrev = some b)
    (ht : a < (s.C : Int) * (s.B * s.grid.block : Nat)) :
    let v := grpGet g s
    let d := windowDrift s v a b
    let u := if windowHigh s g d ≠ v.rateHigh then raiseTick 0x63 g (reported g a b s) else reported g a b s
    rateWindow g s = if 524 < d.natAbs then grpFaultAt true g v.next u else u := by
  have hsplit : splitWindow ((s.B * s.grid.block * s.C : Nat) : Int) (grpGet g s)
      = (((grpGet g s).winF, some a), (0, none)) := by
    unfold splitWindow
    rw [ha, Option.any_some, if_neg]
    rw [decide_eq_true_eq]
    push_cast at ht ⊢
    rw [Int.mul_comm] at ht
    omega
  intro v d u
  unfold rateWindow
  rw [hm]
  dsimp only
  rw [hsplit]
  dsimp only
  rw [hw, hb]
  rfl

theorem reported_get (g : Nat) (a b : Int) (s : State) : grpGet g (reported g a b s) = windowRow g a b s := grpGet_grpSet_self ..

/-- A clock fault keeps what the group reports of its windows. -/
theorem grpFaultAt_report (tick : Bool) (g z : Nat) (s : State) :
    let v := grpGet g s
    let w := grpGet g (grpFaultAt tick g z s)
    w.frames = v.frames ∧ w.drift = v.drift ∧ w.rateHigh = v.rateHigh ∧ w.rateChange = v.rateChange ∧ w.winF = v.winF
      ∧ w.aligned = false := by
  intro v w
  by_cases h : v.aligned = true
  · have hw : w = _ := grpFaultAt_get tick z h
    rw [hw]
    exact ⟨rfl, rfl, rfl, rfl, rfl, rfl⟩
  · have hw : w = { v with stable := 0 } := by
      unfold w grpFaultAt
      dsimp only
      rw [if_neg h]
      exact grpGet_grpSet_self ..
    rw [hw]
    exact ⟨rfl, rfl, rfl, rfl, rfl, Bool.eq_false_iff.mpr h⟩

/-- What a window of a follower reports. -/
theorem rateWindow_reports {g : Nat} {s : State} {a b : Int} (hm : (grpCfg s g).mode = 2) (hw : (grpGet g s).won = true)
    (ha : (grpGet g s).winLast = some a) (hb : (grpGet g s).winPrev = some b)
    (ht : a < (s.C : Int) * (s.B * s.grid.block : Nat)) :
    let v := grpGet g s
    let d := windowDrift s v a b
    let w := grpGet g (rateWindow g s)
    w.frames = v.winF ∧ w.drift = d ∧ w.rateHigh = windowHigh s g d
      ∧ w.rateChange = (v.rateChange || decide (windowHigh s g d ≠ v.rateHigh)) ∧ w.winF = 0
      ∧ w.aligned = (v.aligned && decide (d.natAbs ≤ 524)) := by
  intro v d w
  have hu : grpGet g (if windowHigh s g d ≠ v.rateHigh then raiseTick 0x63 g (reported g a b s) else reported g a b s)
      = windowRow g a b s := by
    rw [apply_ite (grpGet g), grpGet_of_sap (raiseTick_sap ..), ite_self]
    exact reported_get g a b s
  have hrw := congrArg (grpGet g) (rateWindow_follows hm hw ha hb ht)
  have hw' : w = grpGet g (rateWindow g s) := rfl
  rw [hrw] at hw'
  revert hu hw'
  generalize (if windowHigh s g d ≠ v.rateHigh then raiseTick 0x63 g (reported g a b s) else reported g a b s) = u
  intro hu hw'
  by_cases h : 524 < d.natAbs
  · rw [if_pos h] at hw'
    obtain ⟨h1, h2, h3, h4, h5, h6⟩ := grpFaultAt_report true g v.next u
    rw [← hw', hu] at h1 h2 h3 h4 h5
    rw [← hw'] at h6
    exact ⟨h1, h2, h3, h4, h5, by rw [h6, decide_eq_false (by omega), Bool.and_false]⟩
  · rw [if_neg h, hu] at hw'
    rw [hw']
    exact ⟨rfl, rfl, rfl, rfl, rfl, by rw [decide_eq_true (by omega), Bool.and_true]; rfl⟩

/-! ### Alignment -/

/-- A group's first index taken. -/
def alignedAt (g n : Nat) (v : GrpState) (s : State) : State :=
  grpSet g { v with aligned := true, ever := true, stable := 0, next := n, resync := v.resync || v.ever } s

theorem sapAlign_ready {g : Nat} {s : State} (hr : s.grid.running = true) (ha : (grpGet g s).aligned = false)
    (hs : 8 ≤ (grpGet g s).stable) (hm : (grpCfg s g).mode ≠ 0) :
    ((grpCfg s g).mode = 0 || (grpGet g s).aligned || !s.grid.running || decide ((grpGet g s).stable < 8)) = false := by
  rw [decide_eq_false hm, ha, hr, decide_eq_false (by omega)]
  rfl

theorem sapAlign_leads {g : Nat} {s : State} (t : Int) (hr : s.grid.running = true) (ha : (grpGet g s).aligned = false)
    (hs : 8 ≤ (grpGet g s).stable) (hm : (grpCfg s g).mode = 1) :
    let u := alignedAt g ((t + s.C / 2) / s.C).toNat (grpGet g s) s
    sapAlign g t s = if (grpGet g s).ever then raiseTick 0x65 g u else u := by
  unfold sapAlign
  dsimp only
  rw [if_neg (by rw [sapAlign_ready hr ha hs (by omega)]; decide), if_pos hm]
  rfl

/-- The group aligned as it decides itself, before it writes its index. -/
def alignOwnNoted (g : Nat) (t : Int) (s : State) : State :=
  let u := { s with twin := { s.twin with
    serial := s.twin.serial.filter (fun e => !(decide (e.1 = 6) && decide (e.2.2.1 = g))) } }
  let u := if (alignOwn s g t).2 then raiseTick 0x61 g u else u
  if u.twin.acts then relayReq 6 0 g u.grid.block (alignOwn s g t).1.toNat u else u

theorem sapAlign_follows {g : Nat} {s : State} (t : Int) (hr : s.grid.running = true) (ha : (grpGet g s).aligned = false)
    (hs : 8 ≤ (grpGet g s).stable) (hm : (grpCfg s g).mode = 2) (htr : takesRelays s = false) :
    let u := alignedAt g (alignOwn s g t).1.toNat (grpGet g s) (alignOwnNoted g t s)
    sapAlign g t s = if (grpGet g s).ever then raiseTick 0x65 g u else u := by
  unfold sapAlign
  dsimp only
  rw [if_neg (by rw [sapAlign_ready hr ha hs (by omega)]; decide), if_neg (by omega), htr]
  rfl

theorem aligned_get (g n : Nat) (v : GrpState) (s : State) (c : Bool) :
    grpGet g (if c then raiseTick 0x65 g (alignedAt g n v s) else alignedAt g n v s)
      = { v with aligned := true, ever := true, stable := 0, next := n, resync := v.resync || v.ever } := by
  rw [apply_ite (grpGet g), grpGet_of_sap (raiseTick_sap ..), ite_self]
  exact grpGet_grpSet_self ..

/-! ### The obligation -/

/-- Settles O52: frames of the group that leads and of an aligned follower, absent frames, rate windows and alignment. -/
theorem serialPorts : Obligations.SerialPorts := by
  unfold Obligations.SerialPorts
  intro s g hg
  refine ⟨fun t bclks words => ⟨fun hm ha hr => ?lead, fun hm hal hr hw htr => ⟨fun h => ?late, fun h => ?early⟩⟩,
    fun hm => ⟨fun ha => ?absent, fun ha => ?already⟩, fun hm => ?rateLead, fun a b hm hw ha hb ht => ?rate,
    fun t hr ha hs => ⟨fun hm => ?alignLead, fun hm htr => ?align⟩⟩
  case lead =>
    refine ⟨_, (exec_serialFrame hg ..).trans (congrArg _ (serialFrame_leads t bclks words hm ha hr)),
      fun q hq hdir => frameWords_sends hq (leading_wires g t s) _ words hdir, ?_, ?_⟩
    · rw [grpGet_congr (frameWords_rolling ..).grp]
      exact grpGet_grpSet_self ..
    · intro q j k hq r hdir honly hj hi hst hsince htook
      exact frameWords_lane (s := leading g t s) hq (.refl _) words hdir honly hj hi hst hsince htook
  case late =>
    obtain ⟨w, he, hwires, h1, h2, h3, h4, h5, h6, h7⟩ := serialFrame_late words hg hm hal hr hw htr h
    refine ⟨_, (exec_serialFrame hg ..).trans (congrArg _ he), fun q hq hdir => frameWords_sends hq hwires _ words hdir, ?_⟩
    rw [grpGet_congr (frameWords_rolling ..).grp]
    exact ⟨h1, h2, h3, h4, h5, fun hn => frameWords_counts (by decide) (by omega) _ words (h6 hn), h7⟩
  case early => exact ⟨_, exec_serialFrame hg .., serialFrame_early words hg hm hal hr hw htr h⟩
  case absent =>
    refine ⟨frameAbsent g s, exec_frameAbsent hg s, ?_⟩
    have hf : frameAbsent g s = grpFaultAt false g (grpGet g s).next s := if_neg (by rw [hm]; exact Bool.false_ne_true)
    rw [hf]
    exact ⟨grpFaultAt_counts _ _ ha (by omega), grpFaultAt_get _ _ ha, grpFaultAt_pend _ _ ha⟩
  case already =>
    have hf : frameAbsent g s = grpFaultAt false g (grpGet g s).next s := if_neg (by rw [hm]; exact Bool.false_ne_true)
    rw [exec_frameAbsent hg, hf]
    exact congrArg _ (if_neg (by rw [ha]; decide))
  case rateLead => rw [exec_rateWindowEnd hg, rateWindow_leads hm]
  case rate => exact ⟨_, exec_rateWindowEnd hg s, rateWindow_reports hm hw ha hb ht⟩
  case alignLead =>
    refine ⟨_, (exec_sapAlign hg ..).trans (congrArg _ (sapAlign_leads t hr ha hs hm)), fun he => ?_, ?_⟩
    · rw [if_pos he]
      exact ⟨raiseTick_eseq .., raiseTick_pend ..⟩
    · split
      · exact (raiseAt_sounded ..).heard
      · exact (Sounded.refl _).heard
  case align =>
    refine ⟨_, (exec_sapAlign hg ..).trans (congrArg _ (sapAlign_follows t hr ha hs hm htr)), ?_⟩
    exact aligned_get ..

end Sys2Proof.Machine
end

section
/-!
SUPPORT. What the commands of the network and of precision time change (chapters 10 and 11).
-/
namespace Sys2Proof.Machine

/-! ### Precision time -/

/-- The same state but for ports, time, events and counters. -/
def TimeOnly (s t : State) : Prop := ∃ p ti e c b n l, t = { s with
  net := { s.net with port := p }, time := ti
  ev := e, evc := { s.evc with cnt := c }, bus := { s.bus with ctr := b, total := n }, tcm := { s.tcm with evtLost := l } }

theorem TimeOnly.refl (s : State) : TimeOnly s s := ⟨_, _, _, _, _, _, _, rfl⟩
theorem TimeOnly.trans {s t u : State} (h : TimeOnly s t) (k : TimeOnly t u) : TimeOnly s u := by
  obtain ⟨_, _, _, _, _, _, _, rfl⟩ := h
  obtain ⟨_, _, _, _, _, _, _, rfl⟩ := k
  exact ⟨_, _, _, _, _, _, _, rfl⟩
theorem Sounded.timed {s t : State} (h : Sounded s t) : TimeOnly s t := by
  obtain ⟨_, _, _, _, _, rfl⟩ := h
  exact ⟨_, _, _, _, _, _, _, rfl⟩
theorem TimeOnly.ite {c : Prop} [Decidable c] {s t u : State} (ht : TimeOnly s t) (hu : TimeOnly s u) :
    TimeOnly s (if c then t else u) := by
  split
  · exact ht
  · exact hu

theorem time_timed (s : State) (ti) : TimeOnly s { s with time := ti } := ⟨_, _, _, _, _, _, _, rfl⟩
theorem pnSet_timed (p v s) : TimeOnly s (pnSet p v s) := ⟨_, _, _, _, _, _, _, rfl⟩
theorem setTime_timed (v s) : TimeOnly s (setTime v s) := time_timed ..

theorem halfEnter_timed (b s) : TimeOnly s (halfEnter b s) := by
  unfold halfEnter
  extract_lets t armed v w
  refine .ite (time_timed ..) ?_
  exact ((time_timed s _).trans (count_sounded ..).timed).trans (raise_sounded ..).timed

theorem halvesEntered_timed (n b s) : TimeOnly s (halvesEntered n b s) := by
  induction n generalizing b s with
  | zero => exact .refl s
  | succ n ih => exact (halfEnter_timed b s).trans (ih _ _)

theorem timeAdvance_timed (n s) : TimeOnly s (timeAdvance n s) := (time_timed s _).trans (halvesEntered_timed ..)

theorem ppsLost_timed (s) : TimeOnly s (ppsLost s) := by
  unfold ppsLost
  extract_lets _ u
  have hu : TimeOnly s u := time_timed ..
  exact .ite ((hu.trans (time_timed u _)).trans (raise_sounded ..).timed) hu

theorem ppsEdge_timed (ts s) : TimeOnly s (ppsEdge ts s) := by
  unfold ppsEdge
  extract_lets t ok u run _ v sec off now w _ _
  have hu : TimeOnly s u := .ite (.refl s) (ppsLost_timed s)
  have hv : TimeOnly s v := hu.trans (time_timed u _)
  exact .ite ((hv.trans (setTime_timed ..)).trans (time_timed w _)) (hv.trans (time_timed v _))

/-! ### The domains -/

/-- The same state but for the domains, the mark of a new grandmaster, events and counters. -/
def DomainsOnly (s t : State) : Prop := ∃ d0 d1 g e c b n l, t = { s with
  time := { s.time with dom0 := d0, dom1 := d1, gmChange := g }
  ev := e, evc := { s.evc with cnt := c }, bus := { s.bus with ctr := b, total := n }, tcm := { s.tcm with evtLost := l } }

theorem DomainsOnly.refl (s : State) : DomainsOnly s s := ⟨_, _, _, _, _, _, _, _, rfl⟩
theorem DomainsOnly.trans {s t u : State} (h : DomainsOnly s t) (k : DomainsOnly t u) : DomainsOnly s u := by
  obtain ⟨_, _, _, _, _, _, _, _, rfl⟩ := h
  obtain ⟨_, _, _, _, _, _, _, _, rfl⟩ := k
  exact ⟨_, _, _, _, _, _, _, _, rfl⟩
theorem DomainsOnly.ite {c : Prop} [Decidable c] {s t u : State} (ht : DomainsOnly s t) (hu : DomainsOnly s u) :
    DomainsOnly s (if c then t else u) := by
  split
  · exact ht
  · exact hu
theorem Sounded.domains {s t : State} (h : Sounded s t) : DomainsOnly s t := by
  obtain ⟨_, _, _, _, _, rfl⟩ := h
  exact ⟨_, _, _, _, _, _, _, _, rfl⟩
theorem DomainsOnly.timed {s t : State} (h : DomainsOnly s t) : TimeOnly s t := by
  obtain ⟨_, _, _, _, _, _, _, _, rfl⟩ := h
  exact ⟨_, _, _, _, _, _, _, rfl⟩

theorem domSet_domains (k d s) : DomainsOnly s (domSet k d s) :=
  .ite ⟨_, _, _, _, _, _, _, _, rfl⟩ ⟨_, _, _, _, _, _, _, _, rfl⟩
theorem gmChange_domains (s : State) : DomainsOnly s { s with time := { s.time with gmChange := true } } :=
  ⟨_, _, _, _, _, _, _, _, rfl⟩

theorem domGm_domains (k gm s) : DomainsOnly s (domGm k gm s) := by
  unfold domGm
  extract_lets d u
  have hu : DomainsOnly s u := domSet_domains ..
  exact .ite hu (((hu.trans (gmChange_domains u)).trans (count_sounded ..).domains).trans (raise_sounded ..).domains)

theorem domLead_domains (k s) : DomainsOnly s (domLead k s) := by
  unfold domLead
  extract_lets d
  exact (DomainsOnly.ite (.refl s) (domSet_domains ..)).trans (domGm_domains ..)

theorem domDecide_domains (expired k s) : DomainsOnly s (domDecide expired k s) := by
  unfold domDecide
  extract_lets d can
  refine .ite (.refl s) ?_
  split
  · exact .ite (domLead_domains ..) (domSet_domains ..)
  · exact .ite (domLead_domains ..) ((domSet_domains ..).trans (domGm_domains ..))

theorem domDrop_domains (k s) : DomainsOnly s (domDrop k s) := .ite (.refl s) (domSet_domains ..)

theorem domLink_domains (k s) : DomainsOnly s (domLink k s) := by
  unfold domLink
  extract_lets c d up secUp u
  have hu : DomainsOnly s u := domSet_domains ..
  refine .ite (.refl s) (.ite (.ite (.ite ?_ hu) (.refl s)) (domSet_domains ..))
  exact hu.trans (domDecide_domains ..)

/-! ### IEEE 1588 messages -/

theorem sendFrame_timed (p f s) : TimeOnly s (sendFrame p f s) :=
  .ite ((pnSet_timed ..).trans (count_sounded ..).timed) (count_sounded ..).timed

theorem ptpTake_timed (port type s) : TimeOnly s (ptpTake port type s).2 := by
  unfold ptpTake
  extract_lets n q u
  have hu : TimeOnly s u := pnSet_timed ..
  split
  · exact hu
  · extract_lets v
    have hv : TimeOnly s v := hu.trans (pnSet_timed ..)
    split
    · split
      · exact hv.trans (count_sounded ..).timed
      · split
        · exact hv
        · exact hu
    · exact hv.trans (count_sounded ..).timed

theorem ptpMeasure_timed (k t1 t2 s) : TimeOnly s (ptpMeasure k t1 t2 s) := by
  unfold ptpMeasure
  extract_lets d p c
  split
  · exact (domSet_domains ..).timed
  · extract_lets _ _ _ _ _ _ u
    have hu : TimeOnly s u := (domSet_domains ..).timed
    exact .ite (hu.trans (time_timed u _)) hu

/-- What a message leaves as it is taken from its queue. -/
theorem taken_timed {port type : Nat} {s u : State} {x : Option (List Nat × Nat)} (h : ptpTake port type s = (x, u)) :
    TimeOnly s u := by
  have ht := ptpTake_timed port type s
  rw [h] at ht
  exact ht

theorem ptpAnnounce_timed (port s) : TimeOnly s (ptpAnnounce port s) := by
  unfold ptpAnnounce
  split
  · exact taken_timed ‹_›
  · refine (taken_timed ‹_›).trans ?_
    split
    · exact .refl _
    · exact .ite (.refl _) ((domSet_domains ..).timed.trans (domDecide_domains ..).timed)

theorem ptpSync_timed (port s) : TimeOnly s (ptpSync port s) := by
  unfold ptpSync
  split
  · exact taken_timed ‹_›
  · refine (taken_timed ‹_›).trans ?_
    split
    · exact .refl _
    · exact .ite (.refl _) (.ite (domSet_domains ..).timed ((domSet_domains ..).timed.trans (ptpMeasure_timed ..)))

theorem ptpFollowUp_timed (port s) : TimeOnly s (ptpFollowUp port s) := by
  unfold ptpFollowUp
  split
  · exact taken_timed ‹_›
  · refine (taken_timed ‹_›).trans ?_
    split
    · exact .refl _
    · extract_lets d
      split
      · exact .ite ((domSet_domains ..).timed.trans (ptpMeasure_timed ..)) (.refl _)
      · exact .refl _

theorem ptpDelayReq_timed (port s) : TimeOnly s (ptpDelayReq port s) := by
  unfold ptpDelayReq
  split
  · exact taken_timed ‹_›
  · refine (taken_timed ‹_›).trans ?_
    split
    · exact .refl _
    · exact .ite (.refl _) (sendFrame_timed ..)

theorem ptpDelayResp_timed (port s) : TimeOnly s (ptpDelayResp port s) := by
  unfold ptpDelayResp
  split
  · exact taken_timed ‹_›
  · refine (taken_timed ‹_›).trans ?_
    split
    · exact .refl _
    · extract_lets d
      split
      · exact .ite (domSet_domains ..).timed (.refl _)
      · exact .refl _

theorem delayReqSend_timed (k ts s) : TimeOnly s (delayReqSend k ts s) :=
  .ite ((domSet_domains ..).timed.trans (sendFrame_timed ..)) (.refl s)
theorem syncSend_timed (k ts s) : TimeOnly s (syncSend k ts s) :=
  .ite ((domSet_domains ..).timed.trans (sendFrame_timed ..)) (.refl s)
theorem announceSend_timed (k s) : TimeOnly s (announceSend k s) :=
  .ite ((domSet_domains ..).timed.trans (sendFrame_timed ..)) (.refl s)
theorem announceTimeout_timed (k s) : TimeOnly s (announceTimeout k s) :=
  .ite ((domSet_domains ..).timed.trans (domDecide_domains ..).timed) (.ite (domDecide_domains ..).timed (.refl s))
theorem syncTimeout_timed (k s) : TimeOnly s (syncTimeout k s) :=
  .ite ((domSet_domains ..).timed.trans (domDrop_domains ..).timed) (.refl s)

/-! ### The network -/

/-- The same state but for ports and streams, the frames in and out of MGMT, events and counters. -/
def NetOnly (s t : State) : Prop := ∃ n i m e c b k l, t = { s with
  net := n, ev := e, evc := { s.evc with cnt := c }, bus := { s.bus with ctr := b, total := k }
  tcm := { s.tcm with input := i, mgmtOut := m, evtLost := l } }

theorem NetOnly.refl (s : State) : NetOnly s s := ⟨_, _, _, _, _, _, _, _, rfl⟩
theorem NetOnly.trans {s t u : State} (h : NetOnly s t) (k : NetOnly t u) : NetOnly s u := by
  obtain ⟨_, _, _, _, _, _, _, _, rfl⟩ := h
  obtain ⟨_, _, _, _, _, _, _, _, rfl⟩ := k
  exact ⟨_, _, _, _, _, _, _, _, rfl⟩
theorem NetOnly.ite {c : Prop} [Decidable c] {s t u : State} (ht : NetOnly s t) (hu : NetOnly s u) :
    NetOnly s (if c then t else u) := by
  split
  · exact ht
  · exact hu
theorem Sounded.net {s t : State} (h : Sounded s t) : NetOnly s t := by
  obtain ⟨_, _, _, _, _, rfl⟩ := h
  exact ⟨_, _, _, _, _, _, _, _, rfl⟩

theorem net_only (s : State) (n) : NetOnly s { s with net := n } := ⟨_, _, _, _, _, _, _, _, rfl⟩
theorem pnSet_netted (p v s) : NetOnly s (pnSet p v s) := net_only ..
theorem rxSet_netted (k v s) : NetOnly s (rxSet k v s) := net_only ..
theorem txSet_netted (k v s) : NetOnly s (txSet k v s) := net_only ..
theorem noteCells_netted (n s) : NetOnly s (noteCells n s) := net_only ..
theorem svSend_netted (p f s) : NetOnly s (svSend p f s) := (pnSet_netted ..).trans (noteCells_netted ..)
theorem count_netted (a i n s) : NetOnly s (count a i n s) := (count_sounded ..).net
theorem raise_netted (c a s) : NetOnly s (raise c a s) := (raise_sounded ..).net
theorem idleDrop_netted (n s) : NetOnly s (idleDrop n s) := count_netted ..
theorem quotaDrop_netted (p s) : NetOnly s (quotaDrop p s) := (count_netted ..).trans (raise_netted ..)
theorem rxPush_netted (k legB p s) : NetOnly s (rxPush k legB p s) := (rxSet_netted ..).trans (noteCells_netted ..)

theorem raiseStream_netted (code k s) : NetOnly s (raiseStream code k s) := .ite (.refl s) ((net_only s _).trans (raise_netted ..))

theorem raiseOnce_sounded (code arg s) : Sounded s (raiseOnce code arg s) := by
  refine .ite (.refl s) (Sounded.trans (t := { s with ev := { s.ev with once := code :: s.ev.once } }) ?_ (raise_sounded ..))
  exact ⟨_, _, _, _, _, rfl⟩

theorem seqNote_netted (k legB seq s) : NetOnly s (seqNote k legB seq s) := by
  unfold seqNote
  extract_lets r last gap u
  have hu : NetOnly s u := rxSet_netted ..
  exact .ite (hu.trans (count_netted ..)) hu

theorem streamPacket_netted (k legB st off s) : NetOnly s (streamPacket k legB st off s) := by
  unfold streamPacket
  split
  · exact .refl s
  · rename_i c hc
    extract_lets rtp b0 rtpOk seq ssrcOk p ops now t intact keep r0 u r d left
    have hk : ∀ live v, NetOnly v (keep live v) := fun _ v => rxPush_netted ..
    have hu : NetOnly s u := seqNote_netted ..
    refine .ite ((NetOnly.ite (rxSet_netted ..) (.refl s)).trans ((hk _ _).trans (count_netted ..))) (hu.trans (.ite ?_ ?_))
    · split
      · exact ((hk _ _).trans (count_netted ..)).trans (raise_netted ..)
      · rename_i clip h
        have hv : NetOnly u (if clip then raise 0x11 k (count 0x100500D4 0 1 u) else u) :=
          .ite ((count_netted ..).trans (raise_netted ..)) (.refl u)
        exact hv.trans (.ite (hk _ _) (.ite ((hk _ _).trans (idleDrop_netted ..)) (hk _ _)))
    · refine .ite ((hk _ _).trans (idleDrop_netted ..)) (.ite ?_ (.ite ?_ ?_))
      · exact ((hk _ _).trans (count_netted ..)).trans (raiseStream_netted ..)
      · exact ((hk _ _).trans (count_netted ..)).trans (raiseStream_netted ..)
      · exact (rxSet_netted ..).trans (hk _ _)

theorem admitStream_netted (port k legB st off s) : NetOnly s (admitStream port k legB st off s) := by
  unfold admitStream
  split
  · exact .refl s
  · extract_lets fn _ u
    have hu : NetOnly s u := by
      unfold u
      split
      · exact .ite (rxSet_netted ..) (.refl s)
      · exact .refl s
    exact .ite (idleDrop_netted ..) (.ite (quotaDrop_netted ..) (hu.trans ((count_netted ..).trans (streamPacket_netted ..))))

theorem lldpFrame_netted (f s) : NetOnly s (lldpFrame f s) := by
  unfold lldpFrame
  split
  refine .ite (.refl s) ?_
  split
  · exact .ite (net_only s _) ((net_only s _).trans (svSend_netted ..))
  · exact .refl s

theorem supervisorFrame_netted (p f s) : NetOnly s (supervisorFrame p f s) := by
  unfold supervisorFrame
  split
  · exact svSend_netted ..
  · exact .ite (svSend_netted ..) (.ite (lldpFrame_netted ..) (.refl s))

theorem tcmInput_netted (f s) : NetOnly s (tcmInput f s) :=
  .ite ((count_netted ..).trans (raiseOnce_sounded ..).net) ⟨_, _, _, _, _, _, _, _, rfl⟩

theorem supervisorRead_netted (p st s) : NetOnly s (supervisorRead p st s) := by
  unfold supervisorRead
  refine .ite (.refl s) ?_
  split
  · exact .ite (tcmInput_netted ..) (supervisorFrame_netted ..)
  · exact supervisorFrame_netted ..

theorem classify_netted (p st off s) : NetOnly s (classify p st off s) := by
  unfold classify
  extract_lets f n
  refine .ite (.ite (quotaDrop_netted ..) (((pnSet_netted ..).trans (count_netted ..)).trans (noteCells_netted ..))) ?_
  split
  · exact admitStream_netted ..
  · refine .ite (count_netted ..) (.ite (quotaDrop_netted ..) ?_)
    exact ((count_netted ..).trans (noteCells_netted ..)).trans (supervisorRead_netted ..)

theorem frameReceive_netted (p raw codeErr poison off ts s) : NetOnly s (frameReceive p raw codeErr poison off ts s) := by
  unfold frameReceive
  extract_lets cfg n _ u f trunc bad v w
  have hu : NetOnly s u := pnSet_netted ..
  have hv : NetOnly u v := .ite (count_netted ..) (.refl u)
  have hw : NetOnly v w := .ite (count_netted ..) (.refl v)
  exact .ite (.refl s) (hu.trans (.ite (count_netted ..) ((hv.trans hw).trans (classify_netted ..))))

theorem sendFrame_netted (p f s) : NetOnly s (sendFrame p f s) := .ite ((pnSet_netted ..).trans (count_netted ..)) (count_netted ..)

theorem txPacketOut_netted (p k legB c m s) : NetOnly s (txPacketOut p k legB c m s) := by
  unfold txPacketOut
  extract_lets t f u v
  have hu : NetOnly s u := txSet_netted ..
  have hv : NetOnly u v := noteCells_netted ..
  refine hu.trans (.ite (quotaDrop_netted ..) (hv.trans (.ite ?_ (.refl v))))
  exact (NetOnly.ite (count_netted ..) (.refl v)).trans (sendFrame_netted ..)

theorem txSend_netted (p s) : NetOnly s (txSend p s) := by
  unfold txSend
  extract_lets n
  refine .ite (.refl s) ?_
  split
  · exact (pnSet_netted ..).trans (sendFrame_netted ..)
  · refine .ite ?_ ?_
    · split
      · exact .refl s
      · refine NetOnly.trans ?_ (sendFrame_netted ..)
        exact ⟨_, _, _, _, _, _, _, _, rfl⟩
    · split
      · exact .refl s
      · split
        · exact .refl s
        · exact .ite (txPacketOut_netted ..) (.refl s)

theorem reportGroups_netted (p s) : NetOnly s (reportGroups p s) := .ite (svSend_netted ..) (.refl s)
theorem linkGreet_netted (p s) : NetOnly s (linkGreet p s) := .ite (.ite (svSend_netted ..) (.refl s)) (reportGroups_netted ..)

theorem linkChange_netted (p up fec lpi s) : NetOnly s (linkChange p up fec lpi s) := by
  unfold linkChange
  extract_lets c n v u
  have hu : NetOnly s u := (pnSet_netted ..).trans (raise_netted ..)
  exact .ite (pnSet_netted ..) (.ite (hu.trans (linkGreet_netted ..)) hu)

theorem lpiEnter_netted (s) : NetOnly s (lpiEnter s) := .ite ((pnSet_netted ..).trans (count_netted ..)) (.refl s)
theorem lpiWake_netted (s) : NetOnly s (lpiWake s) := .ite ((pnSet_netted ..).trans (txSend_netted ..)) (.refl s)

end Sys2Proof.Machine
end

section
/-!
PROOF. What the commands of each kind of port leave alone, obligation O60.
-/
namespace Sys2Proof.Machine

/-! ### Analog ports (chapter 13) -/

/-- The same state but for the analog blocks, events and counters. -/
def AnalogOnly (s t : State) : Prop := ∃ a e c b n l, t = { s with
  ana := a, ev := e, evc := { s.evc with cnt := c }, bus := { s.bus with ctr := b, total := n }
  tcm := { s.tcm with evtLost := l } }

theorem AnalogOnly.refl (s : State) : AnalogOnly s s := ⟨_, _, _, _, _, _, rfl⟩
theorem AnalogOnly.trans {s t u : State} (h : AnalogOnly s t) (k : AnalogOnly t u) : AnalogOnly s u := by
  obtain ⟨_, _, _, _, _, _, rfl⟩ := h
  obtain ⟨_, _, _, _, _, _, rfl⟩ := k
  exact ⟨_, _, _, _, _, _, rfl⟩
theorem AnalogOnly.ite {c : Prop} [Decidable c] {s t u : State} (ht : AnalogOnly s t) (hu : AnalogOnly s u) :
    AnalogOnly s (if c then t else u) := by
  split
  · exact ht
  · exact hu
theorem Sounded.analog {s t : State} (h : Sounded s t) : AnalogOnly s t := by
  obtain ⟨_, _, _, _, _, rfl⟩ := h
  exact ⟨_, _, _, _, _, _, rfl⟩
theorem AnalogOnly.heard {s t : State} (h : AnalogOnly s t) : Heard { s with ana := t.ana } t := by
  obtain ⟨_, _, _, _, _, _, rfl⟩ := h
  rfl

theorem ana_only (s : State) (a) : AnalogOnly s { s with ana := a } := ⟨_, _, _, _, _, _, rfl⟩
theorem dacSet_analog (k v s) : AnalogOnly s (dacSet k v s) := ana_only ..
theorem hsSet_analog (n v s) : AnalogOnly s (hsSet n v s) := ana_only ..
theorem ampSet_analog (k v s) : AnalogOnly s (ampSet k v s) := ana_only ..
theorem count_analog (a i n s) : AnalogOnly s (count a i n s) := (count_sounded ..).analog
theorem raise_analog (c a s) : AnalogOnly s (raise c a s) := (raise_sounded ..).analog

theorem dacCheck_analog (k flow uA mV s) : AnalogOnly s (dacCheck k flow uA mV s) := by
  unfold dacCheck
  extract_lets d op ov opNow ovNow opNew ovNew cleared u v
  have hu : AnalogOnly s u := dacSet_analog ..
  have hv : AnalogOnly u v := .ite ((count_analog ..).trans (raise_analog ..)) (.refl u)
  exact .ite (.refl s) ((hu.trans hv).trans (.ite ((count_analog ..).trans (raise_analog ..)) (.refl v)))

theorem dacMuteEnd_analog (k s) : AnalogOnly s (dacMuteEnd k s) := .ite (.refl s) (dacSet_analog ..)

theorem hsDet_analog (n plug s) : AnalogOnly s (hsDet n plug s) := hsSet_analog ..
theorem hsInsert_analog (n s) : AnalogOnly s (hsInsert n s) := .ite ((hsSet_analog ..).trans (raise_analog ..)) (.refl s)
theorem hsRemove_analog (n s) : AnalogOnly s (hsRemove n s) := .ite ((hsSet_analog ..).trans (raise_analog ..)) (.refl s)
theorem hsClassify_analog (n s) : AnalogOnly s (hsClassify n s) := .ite (hsSet_analog ..) (.refl s)
theorem hsFade_analog (n s) : AnalogOnly s (hsFade n s) := .ite (hsSet_analog ..) (.ite (hsSet_analog ..) (.refl s))
theorem hsResume_analog (n s) : AnalogOnly s (hsResume n s) := .ite (hsSet_analog ..) (.refl s)

theorem hsTypeRule_analog (n r s) : AnalogOnly s (hsTypeRule n r s) :=
  .ite (hsSet_analog ..) (.ite ((hsSet_analog ..).trans (raise_analog ..)) (hsSet_analog ..))

theorem hsButtonRule_analog (n r s) : AnalogOnly s (hsButtonRule n r s) :=
  .ite (((hsSet_analog ..).trans (count_analog ..)).trans (raise_analog ..))
    (.ite ((hsSet_analog ..).trans (raise_analog ..)) (hsSet_analog ..))

theorem hsMeasure_analog (n r s) : AnalogOnly s (hsMeasure n r s) := by
  unfold hsMeasure
  extract_lets h u
  have hu : AnalogOnly s u := hsSet_analog ..
  refine .ite (.refl s) (hu.trans (.ite (hsSet_analog ..) (.ite ?_ (.refl u))))
  exact (hsTypeRule_analog ..).trans (hsButtonRule_analog ..)

theorem ampLatch_analog (k s) : AnalogOnly s (ampLatch k s) := (ampSet_analog ..).trans (raise_analog ..)

theorem ampLimit_analog (k prev s) : AnalogOnly s (ampLimit k prev s) := by
  unfold ampLimit
  extract_lets a n u a' v
  have hu : AnalogOnly s u := count_analog ..
  have hv : AnalogOnly u v := ((ampSet_analog ..).trans (count_analog ..)).trans (raise_analog ..)
  exact .ite (.refl s) (hu.trans (.ite (ampSet_analog ..) (hv.trans (.ite (ampSet_analog ..) (ampLatch_analog ..)))))

theorem ampWaitEnd_analog (k s) : AnalogOnly s (ampWaitEnd k s) := .ite (ampSet_analog ..) (.refl s)
theorem ampResume_analog (k s) : AnalogOnly s (ampResume k s) := .ite (ampSet_analog ..) (.refl s)
theorem ampClean_analog (k s) : AnalogOnly s (ampClean k s) := .ite (ampSet_analog ..) (.refl s)
theorem ampDc_analog (k mV s) : AnalogOnly s (ampDc k mV s) :=
  .ite (.refl s) (.ite (((ampSet_analog ..).trans (ampLatch_analog ..)).trans (raise_analog ..)) (ampSet_analog ..))

theorem pvddRise_analog (s) : AnalogOnly s (pvddRise s) := by
  unfold pvddRise
  extract_lets _ u
  have hu : AnalogOnly s u := ana_only ..
  refine .ite (.refl s) (hu.trans ?_)
  exact foldl_keeps_on (R := fun _ => True) (Q := AnalogOnly _) (fun _ _ _ => trivial)
    (fun t k _ _ h => h.trans (.ite (.refl t) (ampSet_analog ..))) trivial (.refl _)

/-! ### DRAM channels (chapter 14) -/

/-- The same state but for what the DRAM controller holds beside bytes and poison, events and counters. -/
def ChannelsOnly (s t : State) : Prop := ∃ m : Mem, ∃ e c b n l, t = { s with
  mem := { m with
    dram := s.mem.dram, sram := s.mem.sram, fab := s.mem.fab, poison := s.mem.poison, fabPoison := s.mem.fabPoison }
  ev := e, evc := { s.evc with cnt := c }, bus := { s.bus with ctr := b, total := n }, tcm := { s.tcm with evtLost := l } }

theorem ChannelsOnly.refl (s : State) : ChannelsOnly s s := ⟨s.mem, _, _, _, _, _, rfl⟩
theorem ChannelsOnly.trans {s t u : State} (h : ChannelsOnly s t) (k : ChannelsOnly t u) : ChannelsOnly s u := by
  obtain ⟨_, _, _, _, _, _, rfl⟩ := h
  obtain ⟨m, _, _, _, _, _, rfl⟩ := k
  exact ⟨m, _, _, _, _, _, rfl⟩
theorem ChannelsOnly.ite {c : Prop} [Decidable c] {s t u : State} (ht : ChannelsOnly s t) (hu : ChannelsOnly s u) :
    ChannelsOnly s (if c then t else u) := by
  split
  · exact ht
  · exact hu
theorem Sounded.channels {s t : State} (h : Sounded s t) : ChannelsOnly s t := by
  obtain ⟨_, _, _, _, _, rfl⟩ := h
  exact ⟨s.mem, _, _, _, _, _, rfl⟩
theorem ChannelsOnly.heard {s t : State} (h : ChannelsOnly s t) : Heard { s with mem := { t.mem with
    dram := s.mem.dram, sram := s.mem.sram, fab := s.mem.fab, poison := s.mem.poison, fabPoison := s.mem.fabPoison } } t := by
  obtain ⟨m, _, _, _, _, _, rfl⟩ := h
  rfl

theorem hot_channels (s : State) (l te f w) :
    ChannelsOnly s { s with mem := { s.mem with hotLow := l, temp := te, tempFails := f, writeBack := w } } :=
  ⟨{ s.mem with hotLow := l, temp := te, tempFails := f, writeBack := w }, _, _, _, _, _, rfl⟩
theorem refreshMode_channels (on s) : ChannelsOnly s (refreshMode on s) :=
  ⟨{ s.mem with ch0 := setDouble on s.mem.ch0, ch1 := setDouble on s.mem.ch1 }, _, _, _, _, _, rfl⟩
theorem chanSet_channels (i c s) : ChannelsOnly s (chanSet i c s) :=
  .ite ⟨{ s.mem with ch0 := c }, _, _, _, _, _, rfl⟩ ⟨{ s.mem with ch1 := c }, _, _, _, _, _, rfl⟩
theorem onChannel_channels (i f s) : ChannelsOnly s (onChannel i f s) := .ite (chanSet_channels ..) (.refl s)
theorem channelFail_channels (i s) : ChannelsOnly s (channelFail i s) :=
  .ite (.refl s) ((chanSet_channels ..).trans (raise_sounded ..).channels)
theorem refreshRow_channels (i rank w off s) : ChannelsOnly s (refreshRow i rank w off s) :=
  .ite (.refl s) (onChannel_channels ..)
theorem zqCalibration_channels (i s) : ChannelsOnly s (zqCalibration i s) := .ite (.refl s) (onChannel_channels ..)
theorem hotChange_channels (low s) : ChannelsOnly s (hotChange low s) := by
  unfold hotChange
  extract_lets _ u
  have hu : ChannelsOnly s u := hot_channels s ..
  exact .ite hu (hu.trans (refreshMode_channels ..))
theorem tempRead_channels (r s) : ChannelsOnly s (tempRead r s) := by
  unfold tempRead
  refine .ite (.refl s) ?_
  split
  · extract_lets _ u
    have hu : ChannelsOnly s u := hot_channels s ..
    exact .ite (hu.trans (refreshMode_channels ..)) (.ite (hu.trans (refreshMode_channels ..)) hu)
  · extract_lets n _ u
    have hu : ChannelsOnly s u := hot_channels s ..
    exact .ite (hu.trans ((refreshMode_channels ..).trans (raise_sounded ..).channels))
      (.ite (hu.trans (refreshMode_channels ..)) hu)
theorem parityAlert_channels (i again s) : ChannelsOnly s (parityAlert i again s) := by
  unfold parityAlert
  extract_lets u
  have hu : ChannelsOnly s u := onChannel_channels ..
  exact .ite (hu.trans (channelFail_channels ..)) hu
theorem alertReturn_channels (i s) : ChannelsOnly s (alertReturn i s) :=
  .ite (.refl s) (((chanSet_channels ..).trans (count_sounded ..).channels).trans (raise_sounded ..).channels)
theorem alertTimeout_channels (i s) : ChannelsOnly s (alertTimeout i s) := .ite (channelFail_channels ..) (.refl s)
theorem eccWriteBack_channels (addr s) : ChannelsOnly s (eccWriteBack addr s) :=
  (onChannel_channels ..).trans (hot_channels _ ..)

/-! ### The flash (chapter 16) -/

/-- The same state but for the NVM controller, SAFE time, what is to be logged, free values and counters. -/
def LogOnly (s t : State) : Prop := ∃ n c q f b k, t = { s with
  nvm := n, clk := { s.clk with safe := c }, ev := { s.ev with logQ := q }, free := f
  bus := { s.bus with ctr := b, total := k } }

theorem LogOnly.refl (s : State) : LogOnly s s := ⟨_, _, _, _, _, _, rfl⟩
theorem LogOnly.trans {s t u : State} (h : LogOnly s t) (k : LogOnly t u) : LogOnly s u := by
  obtain ⟨_, _, _, _, _, _, rfl⟩ := h
  obtain ⟨_, _, _, _, _, _, rfl⟩ := k
  exact ⟨_, _, _, _, _, _, rfl⟩
theorem LogOnly.ite {c : Prop} [Decidable c] {s t u : State} (ht : LogOnly s t) (hu : LogOnly s u) :
    LogOnly s (if c then t else u) := by
  split
  · exact ht
  · exact hu
theorem LogOnly.framed {s t : State} (h : LogOnly s t) : t = { s with
    nvm := t.nvm, clk := { s.clk with safe := t.clk.safe }, ev := { s.ev with logQ := t.ev.logQ }, free := t.free
    bus := { s.bus with ctr := t.bus.ctr, total := t.bus.total } } := by
  obtain ⟨_, _, _, _, _, _, rfl⟩ := h
  rfl

theorem nvm_log (s : State) (n) : LogOnly s { s with nvm := n } := ⟨_, _, _, _, _, _, rfl⟩
theorem logQ_log (s : State) (q n) : LogOnly s { s with ev := { s.ev with logQ := q }, nvm := n } := ⟨_, _, _, _, _, _, rfl⟩
theorem flashProgram_log (a l s) : LogOnly s (flashProgram a l s) := nvm_log ..
theorem flashErase_log (a n s) : LogOnly s (flashErase a n s) := nvm_log ..

theorem nvmOpDone_log (fail s) : LogOnly s (nvmOpDone fail s) := by
  unfold nvmOpDone
  extract_lets n a s1 m base len
  have h1 : LogOnly s s1 := nvm_log ..
  refine .ite (.refl s) (.ite (h1.trans (nvm_log s1 _)) (h1.trans (.ite ?_ ?_)))
  · exact ⟨_, _, _, _, _, _, rfl⟩
  · exact .ite (flashErase_log ..) (flashProgram_log ..)

theorem flogEntry_log (kind data s) : LogOnly s (flogEntry kind data s) := by
  unfold flogEntry
  extract_lets n seq b s1 s2 head
  have h1 : LogOnly s s1 := .ite (flashErase_log ..) (.refl s)
  have h2 : LogOnly s1 s2 := flashProgram_log ..
  exact (h1.trans h2).trans (nvm_log s2 _)

theorem faultLogWrite_log (safe s) : LogOnly s (faultLogWrite safe s) := by
  unfold faultLogWrite
  extract_lets s1 recent m s2
  have h1 : LogOnly s s1 := ⟨_, _, _, _, _, _, rfl⟩
  have h2 : LogOnly s1 s2 := nvm_log ..
  refine .ite h1 ((h1.trans h2).trans (.ite ?_ (.ite ((nvm_log s2 _).trans (flogEntry_log ..)) ?_)))
  · split
    · exact .refl s2
    · exact ⟨_, _, _, _, _, _, rfl⟩
  · split
    · exact .refl s2
    · exact (logQ_log s2 _ _).trans (flogEntry_log ..)

/-! ### The obligation -/

theorem SerialOnly.heard {s t : State} (h : SerialOnly s t) : Heard { s with
    sap := t.sap, smp := { s.smp with lane := t.smp.lane, wait := t.smp.wait }
    grid := { s.grid with sapSubst := t.grid.sapSubst, met := t.grid.met, lapse := t.grid.lapse }
    twin := { s.twin with serial := t.twin.serial, txq := t.twin.txq, txSeq := t.twin.txSeq } } t := by
  obtain ⟨_, _, _, _, _, _, _, _, _, _, _, _, _, _, rfl⟩ := h
  rfl
theorem TimeOnly.heard {s t : State} (h : TimeOnly s t) :
    Heard { s with net := { s.net with port := t.net.port }, time := t.time } t := by
  obtain ⟨_, _, _, _, _, _, _, rfl⟩ := h
  rfl

/-- The same state but for what the network and the domains may change. -/
def PortsFramed (s t : State) : Prop := Heard { s with
  net := t.net
  time := { s.time with dom0 := t.time.dom0, dom1 := t.time.dom1, gmChange := t.time.gmChange }
  tcm := { s.tcm with input := t.tcm.input, mgmtOut := t.tcm.mgmtOut } } t

theorem NetOnly.framed {s t u : State} (h : NetOnly s t) (k : DomainsOnly t u) : PortsFramed s u := by
  obtain ⟨_, _, _, _, _, _, _, _, rfl⟩ := h
  obtain ⟨_, _, _, _, _, _, _, _, rfl⟩ := k
  rfl

theorem analogCommands {s t : State} (k n : Nat) (b : Bool) (v : Int) {c : Instr} (hc : c ∈ [Instr.complianceCheck k b n v,
    .complianceMuteEnd k, .micMeasure k n, .hsDetChange k b, .hsInsertConfirm k, .hsRemoveConfirm k, .hsClassifyEnd k,
    .hsButtonFade k, .hsOutputResume k, .ampCurrentLimit k b, .ampRetryWaitEnd k, .ampResume k, .ampCleanSecond k,
    .ampDcWindow k v, .pvddLow, .pvddRecover]) (h : exec c s = .next t) : AnalogOnly s t := by
  simp only [List.mem_cons, List.not_mem_nil, or_false] at hc
  rcases hc with rfl | rfl | rfl | rfl | rfl | rfl | rfl | rfl | rfl | rfl | rfl | rfl | rfl | rfl | rfl | rfl
  · rw [(withInstance_next.mp h).2]; exact dacCheck_analog ..
  · rw [(withInstance_next.mp h).2]; exact dacMuteEnd_analog ..
  · rw [(withInstance_next.mp h).2]; exact hsMeasure_analog ..
  · rw [(withInstance_next.mp h).2]; exact hsDet_analog ..
  · rw [(withInstance_next.mp h).2]; exact hsInsert_analog ..
  · rw [(withInstance_next.mp h).2]; exact hsRemove_analog ..
  · rw [(withInstance_next.mp h).2]; exact hsClassify_analog ..
  · rw [(withInstance_next.mp h).2]; exact hsFade_analog ..
  · rw [(withInstance_next.mp h).2]; exact hsResume_analog ..
  · rw [(withInstance_next.mp h).2]; exact ampLimit_analog ..
  · rw [(withInstance_next.mp h).2]; exact ampWaitEnd_analog ..
  · rw [(withInstance_next.mp h).2]; exact ampResume_analog ..
  · rw [(withInstance_next.mp h).2]; exact ampClean_analog ..
  · rw [(withInstance_next.mp h).2]; exact ampDc_analog ..
  · cases h; exact ana_only ..
  · cases h; exact pvddRise_analog s

theorem netCommands {s t : State} (p off ts : Nat) (f : List Byte) (a b d : Bool) {c : Instr} (hc : c ∈ [Instr.frameReceive p f
    a b off ts, .netLinkChange p a ⟨b, d⟩, .txPacketSend p, .lpiEnter, .lpiWake, .lldpFrame f]) (h : exec c s = .next t) :
    PortsFramed s t := by
  simp only [List.mem_cons, List.not_mem_nil, or_false] at hc
  rcases hc with rfl | rfl | rfl | rfl | rfl | rfl
  · rw [(withInstance_next.mp h).2]; exact (frameReceive_netted ..).framed (.refl _)
  · rw [(withInstance_next.mp h).2]
    exact (linkChange_netted ..).framed ((domLink_domains ..).trans (domLink_domains ..))
  · rw [(withInstance_next.mp h).2]; exact (txSend_netted ..).framed (.refl _)
  · cases h; exact (lpiEnter_netted ..).framed (.refl _)
  · cases h; exact (lpiWake_netted ..).framed (.refl _)
  · cases h; exact (lldpFrame_netted ..).framed (.refl _)

theorem timeCommands {s t : State} (k n : Nat) {c : Instr} (hc : c ∈ [Instr.ptpAnnounce k, .ptpSync k, .ptpFollowUp k,
    .ptpDelayReq k, .ptpDelayResp k, .syncSend k n, .announceSend k, .delayReqSend k n, .announceTimeout k, .syncTimeout k,
    .epochHalfEnter n, .ppsEdge n, .ppsTimeout]) (h : exec c s = .next t) : TimeOnly s t := by
  simp only [List.mem_cons, List.not_mem_nil, or_false] at hc
  rcases hc with rfl | rfl | rfl | rfl | rfl | rfl | rfl | rfl | rfl | rfl | rfl | rfl | rfl
  · rw [(withInstance_next.mp h).2]; exact ptpAnnounce_timed ..
  · rw [(withInstance_next.mp h).2]; exact ptpSync_timed ..
  · rw [(withInstance_next.mp h).2]; exact ptpFollowUp_timed ..
  · rw [(withInstance_next.mp h).2]; exact ptpDelayReq_timed ..
  · rw [(withInstance_next.mp h).2]; exact ptpDelayResp_timed ..
  · rw [(withInstance_next.mp h).2]; exact syncSend_timed ..
  · rw [(withInstance_next.mp h).2]; exact announceSend_timed ..
  · rw [(withInstance_next.mp h).2]; exact delayReqSend_timed ..
  · rw [(withInstance_next.mp h).2]; exact announceTimeout_timed ..
  · rw [(withInstance_next.mp h).2]; exact syncTimeout_timed ..
  · cases h; exact timeAdvance_timed ..
  · cases h; exact ppsEdge_timed ..
  · cases h; exact ppsLost_timed ..

theorem serialCommands {s t : State} (g n : Nat) (x : Int) (l : List Nat) {c : Instr} (hc : c ∈ [Instr.serialFrame g x n l,
    .frameAbsentTimeout g, .rateWindowEnd g, .sapAlign g x]) (h : exec c s = .next t) : SerialOnly s t := by
  simp only [List.mem_cons, List.not_mem_nil, or_false] at hc
  rcases hc with rfl | rfl | rfl | rfl
  · rw [(withInstance_next.mp h).2]; exact serialFrame_serial ..
  · rw [(withInstance_next.mp h).2]; exact frameAbsent_serial ..
  · rw [(withInstance_next.mp h).2]; exact rateWindow_serial ..
  · rw [(withInstance_next.mp h).2]; exact sapAlign_serial ..

theorem channelCommands {s t : State} (k n : Nat) (b : Bool) (l : List Int) (r : Option Int) {c : Instr}
    (hc : c ∈ [Instr.refreshDue k n b l, .zqCalibration k, .dramHotChange b, .dramTempRead r, .parityAlert k b,
      .alertTimeout k, .alertNReturn k, .eccWriteBack n]) (h : exec c s = .next t) : ChannelsOnly s t := by
  simp only [List.mem_cons, List.not_mem_nil, or_false] at hc
  rcases hc with rfl | rfl | rfl | rfl | rfl | rfl | rfl | rfl
  · rw [(withInstances_next.mp h).2]; exact refreshRow_channels ..
  · rw [(withInstance_next.mp h).2]; exact zqCalibration_channels ..
  · cases h; exact hotChange_channels ..
  · cases h; exact tempRead_channels ..
  · rw [(withInstance_next.mp h).2]; exact parityAlert_channels ..
  · rw [(withInstance_next.mp h).2]; exact alertTimeout_channels ..
  · rw [(withInstance_next.mp h).2]; exact alertReturn_channels ..
  · cases h; exact eccWriteBack_channels ..

/-- Settles O60: each command's function keeps the frame of its kind. -/
theorem commandFrames : Obligations.CommandFrames := by
  unfold Obligations.CommandFrames
  intro s t
  refine ⟨fun k n b v c hc h => (analogCommands k n b v hc h).heard, fun p off ts f a b d c hc h => netCommands p off ts f a b d hc h,
    fun k n c hc h => (timeCommands k n hc h).heard, fun g n x l c hc h => (serialCommands g n x l hc h).heard,
    fun k n b l r c hc h => (channelCommands k n b l r hc h).heard, fun n b c hc h => ?_⟩
  simp only [List.mem_cons, List.not_mem_nil, or_false] at hc
  rcases hc with rfl | rfl
  · cases h; exact (nvmOpDone_log ..).framed
  · cases h; exact (faultLogWrite_log ..).framed

end Sys2Proof.Machine
end

section
/-!
PROOF. IEEE 1588 messages (chapter 11, "Timestamps and message handling", "Domains", "Leading"), obligation O50.
-/
namespace Sys2Proof.Machine

/-! ### Domains -/

@[simp] theorem domGet_domSet_self (k : Nat) (d : Domain) (s : State) : domGet k (domSet k d s) = d := by
  unfold domGet domSet
  split <;> rfl
theorem domSet_domSet (k : Nat) (d e : Domain) (s : State) : domSet k d (domSet k e s) = domSet k d s := by
  unfold domSet
  split <;> rfl
theorem domGet_of_time {s t : State} (h : t.time = s.time) (k : Nat) : domGet k t = domGet k s := by
  unfold domGet
  rw [h]
@[simp] theorem domSet_img (k : Nat) (d : Domain) (s : State) : (domSet k d s).img = s.img := by
  unfold domSet
  split <;> rfl
@[simp] theorem domSet_net (k : Nat) (d : Domain) (s : State) : (domSet k d s).net = s.net := by
  unfold domSet
  split <;> rfl
@[simp] theorem domSet_twin (k : Nat) (d : Domain) (s : State) : (domSet k d s).twin = s.twin := by
  unfold domSet
  split <;> rfl
@[simp] theorem domSet_ppsOk (k : Nat) (d : Domain) (s : State) : (domSet k d s).time.ppsOk = s.time.ppsOk := by
  unfold domSet
  split <;> rfl
@[simp] theorem domSet_bus (k : Nat) (d : Domain) (s : State) : (domSet k d s).bus = s.bus := by
  unfold domSet
  split <;> rfl
theorem domCfg_of_img {s t : State} (h : t.img = s.img) (k : Nat) : domCfg t k = domCfg s k := by
  unfold domCfg
  rw [h]
theorem pnGet_of_net {s t : State} (h : t.net = s.net) (p : Nat) : pnGet p t = pnGet p s := by
  unfold pnGet
  rw [h]

/-! ### A change of grandmaster keeps the rest of its domain -/

theorem domGm_get (k gm : Nat) (s : State) : domGet k (domGm k gm s) = { domGet k s with gm := gm } := by
  unfold domGm
  dsimp only
  split
  · exact domGet_domSet_self ..
  · rw [domGet_of_time (raise_time ..), domGet_of_time (count_time ..)]
    unfold domGet domSet
    split <;> rfl

theorem domLead_get (k : Nat) (s : State) : (domGet k (domLead k s)).st = 4 ∧ (domGet k (domLead k s)).foreign = (domGet k s).foreign := by
  unfold domLead
  dsimp only
  rw [domGm_get]
  split
  · rename_i h
    exact ⟨h, rfl⟩
  · rw [domGet_domSet_self]
    exact ⟨rfl, rfl⟩

/-- The decision of R402 keeps the foreign leaders heard. -/
theorem domDecide_foreign (expired : Bool) (k : Nat) (s : State) : (domGet k (domDecide expired k s)).foreign = (domGet k s).foreign := by
  unfold domDecide
  dsimp only
  split
  · rfl
  · split
    · split
      · exact (domLead_get k s).2
      · rw [domGet_domSet_self]
    · split
      · exact (domLead_get k s).2
      · rw [domGm_get, domGet_domSet_self]
        split <;> rfl

/-- With no leader in sight and no right to lead, a domain listens. -/
theorem domDecide_listens {k : Nat} {s : State} (hb : bestForeign s k = none) (hl : mayLead s (domGet k s) = false)
    (hst : (domGet k s).st = 1) (hle : (domGet k s).leader = none) :
    (domGet k (domDecide true k s)).st = 1 ∧ (domGet k (domDecide true k s)).leader = none := by
  unfold domDecide
  dsimp only
  rw [hb, hl]
  dsimp only
  split
  · exact ⟨hst, hle⟩
  · rw [Bool.false_and, if_neg Bool.false_ne_true, domGet_domSet_self]
    exact ⟨rfl, rfl⟩

/-- With no leader in sight a unit that may lead does. -/
theorem domDecide_leads {k : Nat} {s : State} (hb : bestForeign s k = none) (hl : mayLead s (domGet k s) = true)
    (hp : (domCfg s k).profile ≠ 0) : (domGet k (domDecide true k s)).st = 4 := by
  unfold domDecide
  dsimp only
  rw [hb, hl, if_neg hp]
  exact (domLead_get k s).1

/-! ### A measurement -/

/-- What a Sync measurement leaves in its domain. -/
theorem ptpMeasure_get (k : Nat) (t1 t2 : Int) (s : State) :
    let d := domGet k s
    let e := domGet k (ptpMeasure k t1 t2 s)
    e.t1 = t1 ∧ e.t2 = t2 ∧ e.measured = true ∧ e.sync = d.sync ∧ e.twoStep = d.twoStep
      ∧ (d.path = none → e.offset = d.offset) ∧ ∀ x, d.path = some x → e.offset = some (t2 - t1 - x) := by
  intro d e
  have he : e = domGet k (ptpMeasure k t1 t2 s) := rfl
  unfold ptpMeasure at he
  dsimp only at he
  split at he
  · rename_i hp
    rw [domGet_domSet_self] at he
    rw [he]
    refine ⟨rfl, rfl, rfl, rfl, rfl, fun _ => rfl, fun x hx => ?_⟩
    cases hp.symm.trans hx
  · rename_i x hp
    have hg : ∀ (c : Bool) (u : State) (l : List Nat),
        domGet k (if c then { u with time := { u.time with incs := l } } else u) = domGet k u := fun c u l => by
      cases c
      · rfl
      · rfl
    rw [hg, domGet_domSet_self] at he
    rw [he]
    refine ⟨rfl, rfl, rfl, rfl, rfl, fun h => ?_, fun y hy => ?_⟩
    · cases hp.symm.trans h
    · cases hp.symm.trans hy
      rfl

/-! ### A message taken from its queue -/

/-- The port's queue with its head taken off. -/
def headTaken (p : Nat) (q : Queue Stored) (s : State) : State :=
  pnSet p { pnGet p s with ptpQ := q }
    (pnSet p { pnGet p s with ptpQ := (pnGet p s).ptpQ.settle (fun y => y.error || y.poison) } s)

section
variable {p : Nat} {x : Stored} {q : Queue Stored} {s : State}

theorem ptpTake_foreign (type : Nat) (hq : ((pnGet p s).ptpQ.settle (fun y => y.error || y.poison)).next = (some x, q))
    (hm : ptpMessage x.frame = none) : ptpTake p type s = (none, count 0x100C0090 0 1 (headTaken p q s)) := by
  unfold ptpTake
  dsimp only
  rw [hq]
  dsimp only
  rw [hm]
  rfl

theorem ptpTake_unknown {m : List Nat} (type : Nat)
    (hq : ((pnGet p s).ptpQ.settle (fun y => y.error || y.poison)).next = (some x, q)) (hm : ptpMessage x.frame = some m)
    (hk : ptpKnown m = false) : ptpTake p type s = (none, count 0x100C0090 0 1 (headTaken p q s)) := by
  unfold ptpTake
  dsimp only
  rw [hq]
  dsimp only
  rw [hm]
  dsimp only
  rw [hk]
  rfl

theorem ptpTake_message {m : List Nat} {type : Nat}
    (hq : ((pnGet p s).ptpQ.settle (fun y => y.error || y.poison)).next = (some x, q)) (hm : ptpMessage x.frame = some m)
    (hk : ptpKnown m = true) (ht : nth 0 m 0 % 16 = type) : ptpTake p type s = (some (m, x.stamp), headTaken p q s) := by
  unfold ptpTake
  dsimp only
  rw [hq]
  dsimp only
  rw [hm]
  dsimp only
  rw [hk, if_neg (by decide), if_pos ht]
  rfl

end

theorem headTaken_get (p : Nat) (q : Queue Stored) (s : State) :
    pnGet p (headTaken p q s) = { pnGet p s with ptpQ := q } := pnGet_pnSet_self ..

/-- A message of no supported kind is discarded and counted by every row. -/
theorem discarded {p : Nat} {s u : State} (hp : p < 4) (ht : ∀ type, ptpTake p type s = (none, u)) :
    ∀ row ∈ [Instr.ptpAnnounce, .ptpSync, .ptpFollowUp, .ptpDelayReq, .ptpDelayResp], exec (row p) s = .next u := by
  intro row hr
  simp only [List.mem_cons, List.not_mem_nil, or_false] at hr
  rcases hr with rfl | rfl | rfl | rfl | rfl
  · refine withInstance_next.mpr ⟨hp, ?_⟩
    unfold ptpAnnounce
    rw [ht]
  · refine withInstance_next.mpr ⟨hp, ?_⟩
    unfold ptpSync
    rw [ht]
  · refine withInstance_next.mpr ⟨hp, ?_⟩
    unfold ptpFollowUp
    rw [ht]
  · refine withInstance_next.mpr ⟨hp, ?_⟩
    unfold ptpDelayReq
    rw [ht]
  · refine withInstance_next.mpr ⟨hp, ?_⟩
    unfold ptpDelayResp
    rw [ht]

/-! ### Messages -/

section
variable {p k : Nat} {x : Stored} {q : Queue Stored} {s : State} {m : List Nat}

theorem domOf_headTaken (p r n : Nat) (q : Queue Stored) (s : State) : domOf (headTaken p q s) r n = domOf s r n := rfl

theorem ptpAnnounce_hears {type : Nat} (ht : ptpTake p 0xB s = (some (m, type), headTaken p q s))
    (hd : domOf s p (nth 0 m 4) = some k) (ha : announceOk m = true) :
    let d := domGet k s
    let id := be (slice 20 10 m)
    let now := ingressTime s p type
    let t := ptpAnnounce p s
    t.net = (headTaken p q s).net
      ∧ (domGet k t).foreign = d.foreign.filter (fun f => decide (f.ident ≠ id) && (decide (d.leader = some f.ident)
          || decide (now - f.last ≤ 4 * intervalOf (domCfg s k).logAnnounce)))
        ++ [⟨id, announceRank m, be (slice 53 8 m), now,
          (d.foreign.find? (fun f => decide (f.ident = id))).map Foreign.last⟩] := by
  intro d id now t
  have he : t = ptpAnnounce p s := rfl
  unfold ptpAnnounce at he
  rw [ht] at he
  dsimp only at he
  rw [domOf_headTaken, hd] at he
  dsimp only at he
  rw [ha, if_neg (by decide)] at he
  refine ⟨?_, ?_⟩
  · obtain ⟨_, _, _, _, _, _, _, _, h⟩ := domDecide_domains false k (domSet k _ (headTaken p q s))
    rw [he, h]
    exact domSet_net ..
  · rw [he, domDecide_foreign, domGet_domSet_self]
    rfl

theorem ptpAnnounce_refused {ts : Nat} (ht : ptpTake p 0xB s = (some (m, ts), headTaken p q s))
    (hd : domOf s p (nth 0 m 4) = some k) (ha : announceOk m = false) : ptpAnnounce p s = headTaken p q s := by
  unfold ptpAnnounce
  rw [ht]
  dsimp only
  rw [domOf_headTaken, hd]
  dsimp only
  rw [ha]
  rfl

theorem fromLeader_iff {d : Domain} : fromLeader d m = true ↔ d.leader = some (be (slice 20 10 m)) := decide_eq_true_iff

theorem ptpSync_two {ts : Nat} (ht : ptpTake p 0 s = (some (m, ts), headTaken p q s))
    (hd : domOf s p (nth 0 m 4) = some k) (hl : (domGet k s).leader = some (be (slice 20 10 m)))
    (h2 : bit 1 (nth 0 m 6) = true) : ptpSync p s = domSet k { domGet k s with
      twoStep := true, sync := some (be (slice 30 2 m), ingressTime s p ts, ptpCorr m) } (headTaken p q s) := by
  have hf : fromLeader (domGet k (headTaken p q s)) m = true := fromLeader_iff.mpr hl
  unfold ptpSync
  rw [ht]
  dsimp only
  rw [domOf_headTaken, hd]
  dsimp only
  rw [hf, if_neg (by decide), if_pos h2]
  rfl

theorem ptpSync_one {ts : Nat} (ht : ptpTake p 0 s = (some (m, ts), headTaken p q s))
    (hd : domOf s p (nth 0 m 4) = some k) (hl : (domGet k s).leader = some (be (slice 20 10 m)))
    (h2 : bit 1 (nth 0 m 6) = false) : ptpSync p s = ptpMeasure k (ptpStamp m + ptpCorr m) (ingressTime s p ts)
      (domSet k { domGet k s with twoStep := false, sync := none } (headTaken p q s)) := by
  have hf : fromLeader (domGet k (headTaken p q s)) m = true := fromLeader_iff.mpr hl
  unfold ptpSync
  rw [ht]
  dsimp only
  rw [domOf_headTaken, hd]
  dsimp only
  rw [hf, if_neg (by decide), if_neg (by rw [h2]; decide)]
  rfl

theorem ptpFollowUp_joins {ts : Nat} {t2 corr : Int} (ht : ptpTake p 8 s = (some (m, ts), headTaken p q s))
    (hd : domOf s p (nth 0 m 4) = some k) (hl : (domGet k s).leader = some (be (slice 20 10 m)))
    (hs : (domGet k s).sync = some (be (slice 30 2 m), t2, corr)) : ptpFollowUp p s =
      ptpMeasure k (ptpStamp m + ptpCorr m + corr) t2 (domSet k { domGet k s with sync := none } (headTaken p q s)) := by
  have hf : fromLeader (domGet k (headTaken p q s)) m = true := fromLeader_iff.mpr hl
  have hs' : (domGet k (headTaken p q s)).sync = some (be (slice 30 2 m), t2, corr) := hs
  unfold ptpFollowUp
  rw [ht]
  dsimp only
  rw [domOf_headTaken, hd]
  dsimp only
  rw [hs']
  dsimp only
  rw [hf, decide_eq_true rfl]
  rfl

/-- What a measurement leaves in a domain that a message just changed. -/
theorem measures (t1 t2 : Int) (d : Domain) (u : State) :
    let e := domGet k (ptpMeasure k t1 t2 (domSet k d u))
    e.t1 = t1 ∧ e.t2 = t2 ∧ e.measured = true ∧ e.sync = d.sync ∧ e.twoStep = d.twoStep
      ∧ (d.path = none → e.offset = d.offset) ∧ ∀ x, d.path = some x → e.offset = some (t2 - t1 - x) := by
  have h := ptpMeasure_get k t1 t2 (domSet k d u)
  rw [domGet_domSet_self] at h
  exact h

/-- A frame sent on a port whose link is up. -/
theorem sendFrame_up {f : List Nat} (h : (pnGet p s).link = true) : sendFrame p f s = count 0x100B0034 p 1 (pnSet p
    { pnGet p s with sent := f, txOctets := octets (pnGet p s).txOctets (max 64 (f.length + 4)) } s) := if_pos h

theorem sendFrame_get {f : List Nat} (h : (pnGet p s).link = true) : pnGet p (sendFrame p f s) = { pnGet p s with
    sent := f, txOctets := octets (pnGet p s).txOctets (max 64 (f.length + 4)) } := by
  rw [sendFrame_up h]
  exact pnGet_pnSet_self ..

theorem sendFrame_counts {f : List Nat} (h : (pnGet p s).link = true) : Counts 0x100B0034 p 1 s (sendFrame p f s) := by
  rw [sendFrame_up h]
  exact cget_count_self ..

theorem sendFrame_time (p : Nat) (f : List Nat) (s : State) : (sendFrame p f s).time = s.time := by
  unfold sendFrame
  dsimp only
  split
  · exact count_time ..
  · exact count_time ..

/-- The Delay_Resp that answers a Delay_Req with ingress time `t`. -/
def delayResp (s : State) (k p : Nat) (m : List Nat) (t : Int) : List Nat :=
  ptpHeader (clockId s p) 9 54 (domCfg s k).domain 0 (ptpCorr m - t % 2 ^ 16) (be (slice 30 2 m)) (domCfg s k).logDelayReq
    ++ stampBytes (t / 2 ^ 16).toNat ++ slice 20 10 m

theorem ptpDelayReq_answers {ts : Nat} (ht : ptpTake p 1 s = (some (m, ts), headTaken p q s))
    (hd : domOf s p (nth 0 m 4) = some k) (h4 : (domGet k s).st = 4) : ptpDelayReq p s =
      sendFrame p (ptpFrame s k p 320 (delayResp s k p m (ingressTime s p ts))) (headTaken p q s) := by
  unfold ptpDelayReq
  rw [ht]
  dsimp only
  rw [domOf_headTaken, hd]
  dsimp only
  have h4' : (domGet k (headTaken p q s)).st = 4 := h4
  rw [if_neg (not_not_intro h4')]
  rfl

theorem ptpDelayResp_measures {ts : Nat} {t3 : Int} (ht : ptpTake p 9 s = (some (m, ts), headTaken p q s))
    (hd : domOf s p (nth 0 m 4) = some k) (hl : (domGet k s).leader = some (be (slice 20 10 m)))
    (hr : (domGet k s).req = some (be (slice 30 2 m), t3)) (hc : slice 44 8 m = clockId s p)
    (hm : (domGet k s).measured = true) : ptpDelayResp p s = domSet k { domGet k s with
      path := some (rhu (((domGet k s).t2 - (domGet k s).t1) + (ptpStamp m - ptpCorr m - t3)) 2), pathAt := t3, req := none }
      (headTaken p q s) := by
  have hf : fromLeader (domGet k (headTaken p q s)) m = true := fromLeader_iff.mpr hl
  have hr' : (domGet k (headTaken p q s)).req = some (be (slice 30 2 m), t3) := hr
  have hm' : (domGet k (headTaken p q s)).measured = true := hm
  have hc' : slice 44 8 m = clockId (headTaken p q s) p := hc
  unfold ptpDelayResp
  rw [ht]
  dsimp only
  rw [domOf_headTaken, hd]
  dsimp only
  rw [hr']
  dsimp only
  exact if_pos (by rw [hf, hm', decide_eq_true rfl, decide_eq_true hc']; rfl)

end

/-! ### Messages that a domain sends -/

section
variable {k : Nat} {s : State}

/-- A frame sent for a domain whose sequence number moves on. -/
theorem sendFrame_domSet {p : Nat} {f : List Nat} {d : Domain} (h : (pnGet p s).link = true) :
    domGet k (sendFrame p f (domSet k d s)) = d ∧ Counts 0x100B0034 p 1 s (sendFrame p f (domSet k d s))
      ∧ (pnGet p (sendFrame p f (domSet k d s))).sent = f := by
  have hl : (pnGet p (domSet k d s)).link = true := by rw [pnGet_of_net (domSet_net ..), h]
  refine ⟨?_, ?_, by rw [sendFrame_get hl]⟩
  · rw [domGet_of_time (sendFrame_time ..), domGet_domSet_self]
  · have hc := sendFrame_counts (f := f) hl
    unfold Counts cget at hc ⊢
    rwa [domSet_bus] at hc

theorem leading_and {d : Domain} (h4 : d.st = 4) (he : s.img.ptp.leaderEn = true) (ha : s.twin.acts = true) :
    (decide (d.st = 4) && s.img.ptp.leaderEn && s.twin.acts) = true := by
  rw [decide_eq_true h4, he, ha]
  rfl

theorem syncSend_leads (ts : Nat) (h4 : (domGet k s).st = 4) (he : s.img.ptp.leaderEn = true) (ha : s.twin.acts = true) :
    let d := domGet k s
    let p := domPort s k
    let e := egressTime s p ts
    syncSend k ts s = sendFrame p (ptpFrame s k p 319 (ptpHeader (clockId s p) 0 44 (domCfg s k).domain 0
      ((e % 2 ^ 32 / 2 ^ 16 : Nat) : Int) d.syncSeq (domCfg s k).logSync ++ stampBytes (e / 2 ^ 32)))
      (domSet k { d with syncSeq := (d.syncSeq + 1) % 65536 } s) := if_pos (leading_and h4 he ha)

theorem announceSend_leads (h4 : (domGet k s).st = 4) (he : s.img.ptp.leaderEn = true) (ha : s.twin.acts = true) :
    let d := domGet k s
    let p := domPort s k
    announceSend k s = sendFrame p (ptpFrame s k p 320 (ptpHeader (clockId s p) 0xB 64 (domCfg s k).domain 0x003C 0 d.annSeq
      (domCfg s k).logAnnounce ++ List.replicate 10 0 ++ beBytes 2 s.img.ptp.utcOffset
      ++ [0, s.img.ptp.prio1, ownClass s, s.img.ptp.accuracy] ++ beBytes 2 s.img.ptp.variance ++ [s.img.ptp.prio2]
      ++ clockId s p ++ [0, 0, 0x20])) (domSet k { d with annSeq := (d.annSeq + 1) % 65536 } s) := if_pos (leading_and h4 he ha)

theorem delayReqSend_asks (ts : Nat) (h : (domGet k s).st = 2 ∨ (domGet k s).st = 3) :
    let d := domGet k s
    let p := domPort s k
    delayReqSend k ts s = sendFrame p (ptpFrame s k p 319 (ptpHeader (clockId s p) 1 44 (domCfg s k).domain 0 0 d.reqSeq 127
      ++ List.replicate 10 0)) (domSet k { d with
        req := some (d.reqSeq, ((egressTime s p ts / 2 ^ 16 : Nat) : Int)), reqSeq := (d.reqSeq + 1) % 65536 } s) := if_pos h

/-- A domain whose chosen leader is gone. -/
def leaderGone (k : Nat) (s : State) : State :=
  let d := domGet k s
  domSet k { d.restart with
    foreign := d.foreign.filter (fun f => decide (d.leader ≠ some f.ident)), leader := none, st := 1 } s

theorem announceTimeout_slave (h : (domGet k s).st = 2 ∨ (domGet k s).st = 3) :
    announceTimeout k s = domDecide true k (leaderGone k s) := if_pos h

theorem syncTimeout_slave (h : (domGet k s).st = 2 ∨ (domGet k s).st = 3) : syncTimeout k s = domSet k { domGet k s with
    measured := false, st := if (domGet k s).leader.isSome then 2 else 1, run := 0, lockRun := 0 } s := by
  unfold syncTimeout
  dsimp only
  rw [if_pos h]
  unfold domDrop
  dsimp only
  rw [domGet_domSet_self, if_neg (show ¬((domGet k s).st = 0 ∨ (domGet k s).st = 4) by omega), domSet_domSet]

/-- The right to lead of a domain that does not lead. -/
theorem mayLead_iff {d : Domain} (h : d.st ≠ 4) : mayLead s d = true ↔
    s.img.ptp.leaderEn = true ∧ s.twin.acts = true ∧ s.time.ppsOk = true := by
  unfold mayLead
  rw [decide_eq_false h, Bool.or_false, Bool.and_eq_true, Bool.and_eq_true, and_assoc]

theorem announceTimeout_facts (h : (domGet k s).st = 2 ∨ (domGet k s).st = 3) :
    let d := domGet k s
    let fs := d.foreign.filter (fun f => decide (d.leader ≠ some f.ident))
    let t := announceTimeout k s
    let leads := s.img.ptp.leaderEn = true ∧ s.twin.acts = true ∧ s.time.ppsOk = true
    (domGet k t).foreign = fs
      ∧ (bestForeign (leaderGone k s) k = none → ¬leads → (domGet k t).st = 1 ∧ (domGet k t).leader = none)
      ∧ (bestForeign (leaderGone k s) k = none → leads → (domCfg s k).profile ≠ 0 → (domGet k t).st = 4) := by
  intro d fs t leads
  have ht : t = domDecide true k (leaderGone k s) := announceTimeout_slave h
  have hg : domGet k (leaderGone k s) = { d.restart with foreign := fs, leader := none, st := 1 } := domGet_domSet_self ..
  have hml : mayLead (leaderGone k s) (domGet k (leaderGone k s)) = true ↔ leads := by
    rw [mayLead_iff (by rw [hg]; exact (show (1 : Nat) ≠ 4 by decide))]
    unfold leaderGone
    rw [domSet_img, domSet_twin, domSet_ppsOk]
  rw [ht]
  refine ⟨?_, fun hb hn => ?_, fun hb hl hp => ?_⟩
  · rw [domDecide_foreign, hg]
  · exact domDecide_listens hb (Bool.eq_false_iff.mpr (fun e => hn (hml.mp e))) (by rw [hg]) (by rw [hg])
  · refine domDecide_leads hb (hml.mpr hl) ?_
    have hc : domCfg (leaderGone k s) k = domCfg s k := domCfg_of_img (domSet_img ..) k
    rw [hc]
    exact hp

end

/-! ### The obligation -/

/-- The head of a queue as a message of the type and domain asked for. -/
theorem ptpRows {p k : Nat} {x : Stored} {q : Queue Stored} {s : State} {m : List Nat} (hp : p < 4)
    (hq : ((pnGet p s).ptpQ.settle (fun y => y.error || y.poison)).next = (some x, q)) (hm : ptpMessage x.frame = some m) :
    let d := domGet k s
    let seq := be (slice 30 2 m)
    let is := fun (type : Nat) => ptpKnown m = true ∧ nth 0 m 0 % 16 = type ∧ domOf s p (nth 0 m 4) = some k
    let ours := d.leader = some (be (slice 20 10 m))
    let found := fun (t : State) (t1 t2 : Int) => (domGet k t).t1 = t1 ∧ (domGet k t).t2 = t2
      ∧ (domGet k t).measured = true ∧ (domGet k t).sync = none
      ∧ (domGet k t).offset = (match d.path with | some x => some (t2 - t1 - x) | none => d.offset)
    (is 0 → ours → bit 1 (nth 0 m 6) = false → ∃ t, exec (.ptpSync p) s = .next t ∧ (domGet k t).twoStep = false
      ∧ found t (ptpStamp m + ptpCorr m) (ingressTime s p x.stamp))
    ∧ (is 8 → ours → ∀ t2 corr, d.sync = some (seq, t2, corr) → ∃ t, exec (.ptpFollowUp p) s = .next t
      ∧ found t (ptpStamp m + ptpCorr m + corr) t2) := by
  intro d seq is ours found
  have hfound : ∀ (t1 t2 : Int) (e : Domain), e.path = d.path → e.offset = d.offset → e.sync = none →
      found (ptpMeasure k t1 t2 (domSet k e (headTaken p q s))) t1 t2 := by
    intro t1 t2 e hpath hoff hsync
    obtain ⟨h1, h2, h3, h4, _, h6, h7⟩ := measures (k := k) t1 t2 e (headTaken p q s)
    refine ⟨h1, h2, h3, h4.trans hsync, ?_⟩
    cases hd : d.path with
    | none => exact (h6 (hpath.trans hd)).trans hoff
    | some y => exact h7 y (hpath.trans hd)
  refine ⟨fun ⟨hk, ht, hd⟩ ho hb => ?_, fun ⟨hk, ht, hd⟩ ho t2 corr hs => ?_⟩
  · refine ⟨_, withInstance_next.mpr ⟨hp, (ptpSync_one (ptpTake_message hq hm hk ht) hd ho hb).symm⟩, ?_, hfound _ _ _ rfl rfl rfl⟩
    obtain ⟨_, _, _, _, h5, _⟩ := measures (k := k) (ptpStamp m + ptpCorr m) (ingressTime s p x.stamp)
      { d with twoStep := false, sync := none } (headTaken p q s)
    exact h5
  · exact ⟨_, withInstance_next.mpr ⟨hp, (ptpFollowUp_joins (ptpTake_message hq hm hk ht) hd ho hs).symm⟩,
      hfound _ _ _ rfl rfl rfl⟩

/-- Settles O50: a message at the head of its queue, the messages that a domain sends, and the time-outs. -/
theorem ptpMessages : Obligations.PtpMessages := by
  unfold Obligations.PtpMessages
  refine ⟨fun s p k x q hp hk => ?_, fun s k hk => ⟨fun h4 he ha hl => ⟨fun ts => ?sync, ?announce⟩,
    fun h => ⟨fun ts hl => ?delayReq, ?timeout, ?syncTimeout⟩, fun h => ?quiet⟩⟩
  case sync => exact ⟨_, withInstance_next.mpr ⟨hk, (syncSend_leads ts h4 he ha).symm⟩, sendFrame_domSet hl⟩
  case announce => exact ⟨_, withInstance_next.mpr ⟨hk, (announceSend_leads h4 he ha).symm⟩, sendFrame_domSet hl⟩
  case delayReq => exact ⟨_, withInstance_next.mpr ⟨hk, (delayReqSend_asks ts h).symm⟩, sendFrame_domSet hl⟩
  case timeout => exact ⟨_, withInstance_next.mpr ⟨hk, rfl⟩, announceTimeout_facts h⟩
  case syncTimeout => exact withInstance_next.mpr ⟨hk, (syncTimeout_slave h).symm⟩
  case quiet =>
    have hnot : ¬((domGet k s).st = 2 ∨ (domGet k s).st = 3) := by omega
    refine ⟨withInstance_next.mpr ⟨hk, ?_⟩, withInstance_next.mpr ⟨hk, (if_neg hnot).symm⟩⟩
    exact ((if_neg hnot).trans (if_neg (by omega))).symm
  intro q0 hq u ts d
  refine ⟨fun hm => discarded hp (fun type => ptpTake_foreign type hq hm), fun m hm => ?_⟩
  intro seq is ours found
  obtain ⟨hsync, hfollow⟩ := ptpRows (k := k) hp hq hm
  refine ⟨fun hk' => discarded hp (fun type => ptpTake_unknown type hq hm hk'), fun ⟨hkn, ht, hd⟩ ha => ?heard,
    fun ⟨hkn, ht, hd⟩ ha => ?refused, fun hi ho => ⟨fun hb => ?two, hsync hi ho⟩, hfollow, fun ⟨hkn, ht, hd⟩ h4 hl => ?asked,
    fun ⟨hkn, ht, hd⟩ ho t3 hr hc hme => ?answered⟩
  case heard => exact ⟨_, withInstance_next.mpr ⟨hp, rfl⟩, ptpAnnounce_hears (ptpTake_message hq hm hkn ht) hd ha⟩
  case refused =>
    exact withInstance_next.mpr ⟨hp, (ptpAnnounce_refused (ptpTake_message hq hm hkn ht) hd ha).symm⟩
  case two =>
    obtain ⟨hkn, ht, hd⟩ := hi
    exact withInstance_next.mpr ⟨hp, (ptpSync_two (ptpTake_message hq hm hkn ht) hd ho hb).symm⟩
  case asked =>
    have hup : (pnGet p (headTaken p q s)).link = true := by rw [headTaken_get]; exact hl
    refine ⟨_, withInstance_next.mpr ⟨hp, (ptpDelayReq_answers (ptpTake_message hq hm hkn ht) hd h4).symm⟩, ?_, ?_, ?_⟩
    · exact counts_of_cget (u := headTaken p q s) rfl (sendFrame_counts hup)
    · rw [sendFrame_get hup, headTaken_get]
    · rw [sendFrame_get hup]
      rfl
  case answered =>
    exact withInstance_next.mpr ⟨hp, (ptpDelayResp_measures (ptpTake_message hq hm hkn ht) hd ho hr hc hme).symm⟩

end Sys2Proof.Machine
end

section
/-!
PROOF. The network ports (chapter 10), obligation O49.
-/
namespace Sys2Proof.Machine

/-! ### Ports -/

section
variable {p : Nat} {s : State}

theorem pnGet_count (q a i n : Nat) (s : State) : pnGet q (count a i n s) = pnGet q s := rfl
theorem pnGet_noteCells (q n : Nat) (s : State) : pnGet q (noteCells n s) = pnGet q s := rfl

/-- The port's octets counted. -/
def heardOctets (p n : Nat) (s : State) : State := pnSet p { pnGet p s with rxOctets := octets (pnGet p s).rxOctets n } s

theorem heardOctets_get (p n : Nat) (s : State) :
    pnGet p (heardOctets p n s) = { pnGet p s with rxOctets := octets (pnGet p s).rxOctets n } := pnGet_pnSet_self ..

/-! ### A frame that arrives -/

theorem frameReceive_off (raw : List Nat) (e po : Bool) (off ts : Nat) (h : (netCfg s p).mode = 0 ∨ (pnGet p s).link = false) :
    frameReceive p raw e po off ts s = s := by
  unfold frameReceive
  dsimp only
  refine if_pos ?_
  rcases h with h | h
  · rw [h]
    rfl
  · rw [h]
    exact Bool.or_true _

theorem frameReceive_on (hm : (netCfg s p).mode ≠ 0)
    (hl : (pnGet p s).link = true) : ¬(decide ((netCfg s p).mode = 0) || !(pnGet p s).link) = true := by
  rw [decide_eq_false hm, hl]
  decide

theorem frameReceive_short {raw : List Nat} (e po : Bool) (off ts : Nat) (hm : (netCfg s p).mode ≠ 0)
    (hl : (pnGet p s).link = true) (hn : raw.length < 64) :
    frameReceive p raw e po off ts s = count 0x100B0024 p 1 (heardOctets p raw.length s) := by
  unfold frameReceive
  dsimp only
  rw [if_neg (frameReceive_on hm hl), if_pos hn]
  rfl

/-- A frame without errors on a port that runs (R351, R352). -/
structure Good (s : State) (p : Nat) (raw : List Nat) : Prop where
  mode : (netCfg s p).mode ≠ 0
  link : (pnGet p s).link = true
  long : 64 ≤ raw.length
  fits : raw.length ≤ (netCfg s p).maxFrame
  crc : le (raw.drop (raw.length - 4)) = crc32 (raw.take (raw.length - 4))
  sums : sumsOk (raw.take (raw.length - 4)) = true

/-- A good frame goes to its queue. -/
theorem Good.receive {raw : List Nat} (h : Good s p raw) (off ts : Nat) :
    frameReceive p raw false false off ts s = classify p
      (storeFrame p false false false ts (raw.take (raw.length - 4)) (heardOctets p raw.length s)) off
      (heardOctets p raw.length s) := by
  have hlong := h.long
  have hfits := h.fits
  unfold frameReceive
  dsimp only
  rw [if_neg (frameReceive_on h.mode h.link), if_neg (by omega), h.sums, decide_eq_false (not_not_intro h.crc),
    decide_eq_false (by omega : ¬(netCfg s p).maxFrame < raw.length)]
  rfl

theorem storeFrame_frame (e t po : Bool) (ts : Nat) (f : List Nat) (u : State) : (storeFrame p e t po ts f u).frame = f := rfl

theorem storeFrame_intact (port ts : Nat) (f : List Nat) (u : State) :
    (storeFrame port false false false ts f u).error = false ∧ (storeFrame port false false false ts f u).trunc = false := by
  unfold Stored.error Stored.trunc storeFrame lengthWord bit bitIf
  refine ⟨decide_eq_false ?_, decide_eq_false ?_⟩
  · simp only [Bool.false_eq_true, if_false]
    omega
  · simp only [Bool.false_eq_true, if_false]
    omega

theorem classify_ptp {st : Stored} (off : Nat) (hp : p < 4) (h : isPtp st.frame = true) :
    classify p st off s = if !admits s p 65536 (cellsUsed s).length then quotaDrop p s
      else noteCells 0 (count 0x100B0020 p 1 (pnSet p { pnGet p s with ptpQ := (pnGet p s).ptpQ.push st } s)) := by
  unfold classify
  dsimp only
  rw [h, decide_eq_true hp]
  rfl

/-- The leg of a receive stream that a frame reaches. -/
def legOf (s : State) (p : Nat) (f : List Nat) : Option (Nat × Bool) :=
  if p < 4 then (udpOf f).bind (fun u => findLeg s p (etherOf f).2.1 u) else none

theorem classify_leg {st : Stored} {k : Nat} {b : Bool} (off : Nat) (h : isPtp st.frame = false)
    (hl : legOf s p st.frame = some (k, b)) : classify p st off s = admitStream p k b st off s := by
  unfold legOf at hl
  unfold classify
  dsimp only
  rw [h, Bool.and_false, if_neg Bool.false_ne_true, hl]

theorem classify_none {st : Stored} (off : Nat) (h : p < 4 → isPtp st.frame = false) (hl : legOf s p st.frame = none)
    (hs : forSupervisor s p st.frame = false) : classify p st off s = count 0x100B0030 p 1 s := by
  unfold legOf at hl
  unfold classify
  dsimp only
  rw [if_neg (by rw [Bool.and_eq_true, decide_eq_true_eq]; exact fun e => by rw [h e.1] at e; exact Bool.false_ne_true e.2), hl]
  dsimp only
  rw [hs]
  rfl

/-! ### A packet of a stream -/

theorem seqNote_get (k : Nat) (b : Bool) (seq : Nat) (s : State) : ∃ x y, rxGet k (seqNote k b seq s) =
    { rxGet k s with seqA := x, seqB := y } := by
  have h : ∀ (c : Bool) (u : State), rxGet k (if c then count 0x100B00B4 k 1 u else u) = rxGet k u := fun c u => by
    cases c <;> rfl
  unfold seqNote
  dsimp only
  cases b
  · exact ⟨some seq, (rxGet k s).seqB, (h ..).trans (rxGet_rxSet_self ..)⟩
  · exact ⟨(rxGet k s).seqA, some seq, (h ..).trans (rxGet_rxSet_self ..)⟩

theorem leg_setLeg (b : Bool) (q : Queue Packet) (r : RxState) : (r.setLeg b q).leg b = q := by
  cases b <;> rfl

theorem rxPush_get (k : Nat) (b : Bool) (x : Packet) (s : State) :
    (rxGet k (rxPush k b x s)).leg b = ((rxGet k s).leg b).push x := by
  have h : rxGet k (rxPush k b x s) = (rxGet k s).setLeg b (((rxGet k s).leg b).push x) := rxGet_rxSet_self ..
  rw [h, leg_setLeg]

theorem seqNote_img (k : Nat) (b : Bool) (seq : Nat) (s : State) : (seqNote k b seq s).img = s.img := by
  obtain ⟨_, _, _, _, _, _, _, _, h⟩ := seqNote_netted k b seq s
  rw [h]

/-- The RTP header and payload of an intact audio packet of a stream (R369). -/
structure Intact (c : RxCfg) (rtp : List Nat) : Prop where
  version : nth 0 rtp 0 / 64 = 2
  sources : nth 0 rtp 0 % 16 = 0
  type : nth 0 rtp 1 % 128 = c.pt
  length : 12 ≤ rtp.length
  ssrc : c.ssrcCheck = true → be (slice 8 4 rtp) = c.ssrc
  payload : (rtpPayload rtp).length = c.ptime * c.channels * sampleBytes c.type

/-- Media time of a packet (R370). -/
def packetTime (s : State) (c : RxCfg) (rtp : List Nat) : Int :=
  extendTs ((be (slice 4 4 rtp) + 2 ^ 32 - c.tsOffset) % 2 ^ 32) ((s.B * blockNow s : Nat) : Int)

theorem Intact.ok {c : RxCfg} {rtp : List Nat} (h : Intact c rtp) : (decide (nth 0 rtp 0 / 64 = 2)
    && decide (nth 0 rtp 0 % 16 = 0) && decide (nth 0 rtp 1 % 128 = c.pt) && decide (12 ≤ rtp.length)) = true := by
  rw [decide_eq_true h.version, decide_eq_true h.sources, decide_eq_true h.type, decide_eq_true h.length]
  rfl

theorem Intact.ssrcOk {c : RxCfg} {rtp : List Nat} (h : Intact c rtp) :
    (!c.ssrcCheck || decide (be (slice 8 4 rtp) = c.ssrc)) = true := by
  cases hc : c.ssrcCheck
  · rfl
  · rw [decide_eq_true (h.ssrc hc)]
    rfl

/-- A packet that is intact, in time and of an audio stream waits in its queue for the merge. -/
theorem streamPacket_waits {k off : Nat} {b : Bool} {st : Stored} {c : RxCfg} {s : State} (hc : s.img.rx[k]? = some c)
    (he : st.error = false) (ht : st.trunc = false) (hp : st.poison = false) (hty : c.type < 4)
    (hi : Intact c (udpBody st.frame)) (hmin : (rxGet k s).minBlock ≤ dueBlock s c (packetTime s c (udpBody st.frame)))
    (hlate : blockNow s < dueBlock s c (packetTime s c (udpBody st.frame)))
    (hearly : dueBlock s c (packetTime s c (udpBody st.frame)) ≤ blockNow s + c.depth + 2) : ∃ r,
    streamPacket k b st off s = rxPush k b
      ⟨st, true, packetTime s c (udpBody st.frame), be (slice 2 2 (udpBody st.frame)), blockNow s⟩ (rxSet k r (seqNote k b
        (be (slice 2 2 (udpBody st.frame))) s)) ∧ r.leg b = (rxGet k s).leg b := by
  obtain ⟨x, y, hr⟩ := seqNote_get k b (be (slice 2 2 (udpBody st.frame))) s
  have hm : (rxGet k (seqNote k b (be (slice 2 2 (udpBody st.frame))) s)).minBlock = (rxGet k s).minBlock := by rw [hr]
  have hd : ∀ t, dueBlock (seqNote k b (be (slice 2 2 (udpBody st.frame))) s) c t = dueBlock s c t := fun t => by
    unfold dueBlock rxDelta State.B State.dbl
    rw [seqNote_img]
  unfold packetTime at hmin hlate hearly ⊢
  unfold streamPacket
  rw [hc]
  dsimp only
  rw [he, ht, hp, hi.ssrcOk, hi.ok, decide_eq_true hi.payload, decide_eq_false (by omega : ¬c.type = 4), if_neg (by decide),
    if_neg Bool.false_ne_true, hd, hm, if_neg (by rw [Bool.and_eq_true, decide_eq_true_eq, decide_eq_true_eq]; omega),
    if_neg (by omega), if_neg (by omega)]
  refine ⟨_, rfl, ?_⟩
  rw [hr]
  cases b <;> rfl

end

theorem cget_rxPush (a i k : Nat) (b : Bool) (x : Packet) (s : State) : cget a i (rxPush k b x s) = cget a i s := rfl
theorem cget_rxSet (a i k : Nat) (r : RxState) (s : State) : cget a i (rxSet k r s) = cget a i s := rfl

theorem admitStream_runs {p k off : Nat} {b : Bool} {st : Stored} {c : RxCfg} {s : State} (hc : s.img.rx[k]? = some c)
    (hst : (fnGet 2 k s).st = 0) (ha : admits s p (if b then c.cellsB else c.cellsA) (legCells b (rxGet k s)) = true) :
    admitStream p k b st off s = streamPacket k b st off (count 0x100B0020 p 1 s) := by
  unfold admitStream
  rw [hc]
  dsimp only
  rw [if_neg (by rw [hst]; exact Bool.false_ne_true), if_neg (by rw [ha]; exact Bool.false_ne_true)]
  have hs : (match startsAt 2 k s with
      | some n => if 2 ≤ (fnGet 2 k s).st then rxSet k { rxGet k s with minBlock := n, fresh := true } s else s
      | none => s) = s := by
    split
    · exact if_neg (by omega)
    · rfl
  exact congrArg (fun u => streamPacket k b st off (count 0x100B0020 p 1 u)) hs

theorem seqNote_counted (k : Nat) (b : Bool) (seq : Nat) (s : State) : Counted [(0x100B00B4, k)] s (seqNote k b seq s) := by
  unfold seqNote
  extract_lets r last gap u
  have hu : Counted [(0x100B00B4, k)] s u := .of_bus rfl
  exact .ite (hu.trans (count_counted (List.mem_singleton.mpr rfl) ..)) hu

/-! ### What counting leaves alone -/

/-- What the classification of a frame and the timing of a packet read is the same. -/
structure SameRx (s t : State) : Prop where
  img : t.img = s.img
  grid : t.grid = s.grid
  time : t.time = s.time
  rx : t.net.rx = s.net.rx
  sched : t.sched = s.sched
  twin : t.twin = s.twin
  regs : t.bus.regs = s.bus.regs

theorem heardOctets_same (p n : Nat) (s : State) : SameRx s (heardOctets p n s) := ⟨rfl, rfl, rfl, rfl, rfl, rfl, rfl⟩
theorem count_same (a i n : Nat) (s : State) : SameRx s (count a i n s) := ⟨rfl, rfl, rfl, rfl, rfl, rfl, rfl⟩
theorem SameRx.trans {s t u : State} (h : SameRx s t) (k : SameRx t u) : SameRx s u :=
  ⟨k.img.trans h.img, k.grid.trans h.grid, k.time.trans h.time, k.rx.trans h.rx, k.sched.trans h.sched,
    k.twin.trans h.twin, k.regs.trans h.regs⟩

section
variable {s t : State} (h : SameRx s t)
include h

theorem SameRx.netCfg (p : Nat) : netCfg t p = netCfg s p := by
  unfold Machine.netCfg
  rw [h.img]
theorem SameRx.rxGet (k : Nat) : rxGet k t = rxGet k s := by
  unfold Machine.rxGet
  rw [h.rx]
theorem SameRx.fnGet (k n : Nat) : fnGet k n t = fnGet k n s := by
  unfold Machine.fnGet
  rw [h.sched]
theorem SameRx.admits (p q n : Nat) : admits t p q n = admits s p q n := by
  unfold Machine.admits
  rw [h.netCfg]
theorem SameRx.legOn (k : Nat) (b : Bool) : legOn t k b = legOn s k b := by
  unfold Machine.legOn rget
  rw [h.regs]
theorem SameRx.findLeg (p : Nat) (tag : Option Nat) (u : Udp) : findLeg t p tag u = findLeg s p tag u := by
  unfold Machine.findLeg
  simp only [h.legOn, h.img]
theorem SameRx.legOf (p : Nat) (f : List Nat) : legOf t p f = legOf s p f := by
  unfold Machine.legOf
  simp only [h.findLeg]
theorem SameRx.portAddr (p : Nat) : portAddr t p = portAddr s p := by
  unfold Machine.portAddr
  rw [h.twin, h.netCfg]
theorem SameRx.forSupervisor (p : Nat) (f : List Nat) : forSupervisor t p f = forSupervisor s p f := by
  unfold Machine.forSupervisor
  rw [h.portAddr]
theorem SameRx.B : t.B = s.B := by
  unfold State.B State.dbl
  rw [h.img]
theorem SameRx.blockNow : blockNow t = blockNow s := by
  unfold Machine.blockNow timeNs extended State.fs
  rw [h.grid, h.time, h.img, h.B]
theorem SameRx.packetTime (c : RxCfg) (rtp : List Nat) : packetTime t c rtp = packetTime s c rtp := by
  unfold Machine.packetTime
  rw [h.B, h.blockNow]
theorem SameRx.dueBlock (c : RxCfg) (x : Int) : dueBlock t c x = dueBlock s c x := by
  unfold Machine.dueBlock rxDelta
  rw [h.B]
end

/-- A good packet of a running stream on a port. -/
theorem frameReceive_stream {p k : Nat} {s : State} {raw : List Nat} {b : Bool} {c : RxCfg} (off ts : Nat) (hp : p < 4)
    (hgood : Good s p raw) (hptp : isPtp (raw.take (raw.length - 4)) = false)
    (hleg : legOf s p (raw.take (raw.length - 4)) = some (k, b)) (hc : s.img.rx[k]? = some c) (hty : c.type < 4)
    (hst : (fnGet 2 k s).st = 0) (ha : admits s p (if b then c.cellsB else c.cellsA) (legCells b (rxGet k s)) = true)
    (hi : Intact c (udpBody (raw.take (raw.length - 4))))
    (hmin : (rxGet k s).minBlock ≤ dueBlock s c (packetTime s c (udpBody (raw.take (raw.length - 4)))))
    (hlate : blockNow s < dueBlock s c (packetTime s c (udpBody (raw.take (raw.length - 4)))))
    (hearly : dueBlock s c (packetTime s c (udpBody (raw.take (raw.length - 4)))) ≤ blockNow s + c.depth + 2) :
    let body := raw.take (raw.length - 4)
    let stored := storeFrame p false false false ts body (heardOctets p raw.length s)
    let t := frameReceive p raw false false off ts s
    Counts 0x100B0020 p 1 s t ∧ (rxGet k t).leg b = ((rxGet k s).leg b).push
      ⟨stored, true, packetTime s c (udpBody body), be (slice 2 2 (udpBody body)), blockNow s⟩ := by
  intro body stored t
  obtain ⟨he, ht⟩ := storeFrame_intact p ts body (heardOctets p raw.length s)
  have hg := heardOctets_same p raw.length s
  have h1 : t = admitStream p k b stored off (heardOctets p raw.length s) :=
    (hgood.receive off ts).trans (classify_leg off hptp ((hg.legOf ..).trans hleg))
  rw [admitStream_runs (s := heardOctets p raw.length s) (hg.img ▸ hc) (by rw [hg.fnGet, hst]) (by rw [hg.admits, hg.rxGet, ha])] at h1
  have hu := hg.trans (count_same 0x100B0020 p 1 (heardOctets p raw.length s))
  generalize hv : count 0x100B0020 p 1 (heardOctets p raw.length s) = v at h1 hu
  obtain ⟨r, h2, hr⟩ := streamPacket_waits (k := k) (off := off) (b := b) (st := stored) (s := v) (hu.img ▸ hc) he ht rfl hty hi
    (by rw [hu.rxGet, hu.packetTime, hu.dueBlock]; exact hmin) (by rw [hu.blockNow, hu.packetTime, hu.dueBlock]; exact hlate)
    (by rw [hu.blockNow, hu.packetTime, hu.dueBlock]; exact hearly)
  rw [h1, h2, hu.packetTime, hu.blockNow]
  refine ⟨?_, ?_⟩
  · have hc : cget 0x100B0020 p v = min (cget 0x100B0020 p s + 1) 0xFFFFFFFF := by
      rw [← hv]
      exact cget_count_self ..
    unfold Counts
    rw [cget_rxPush, cget_rxSet, (seqNote_counted ..).kept 0x100B0020 p, hc]
    intro e hmem
    obtain rfl := List.mem_singleton.mp hmem
    unfold rkey
    omega
  · rw [rxPush_get, rxGet_rxSet_self, hr, hu.rxGet]
    rfl

theorem heardOctets_bus (p n : Nat) (s : State) : (heardOctets p n s).bus = s.bus := rfl
theorem heardOctets_poolMin (p n : Nat) (s : State) : (heardOctets p n s).net.poolMin = s.net.poolMin := rfl

/-- A PTP frame for which the pool has no room. -/
theorem Good.ptpFull {p : Nat} {s : State} {raw : List Nat} (h : Good s p raw) (off ts : Nat) (hp : p < 4)
    (hptp : isPtp (raw.take (raw.length - 4)) = true)
    (ha : admits s p 65536 (cellsUsed (heardOctets p raw.length s)).length = false) :
    frameReceive p raw false false off ts s = quotaDrop p (heardOctets p raw.length s) := by
  rw [h.receive, classify_ptp off hp hptp, (heardOctets_same p raw.length s).admits, ha]
  rfl

/-- A PTP frame that joins its queue. -/
theorem Good.ptpQueued {p : Nat} {s : State} {raw : List Nat} (h : Good s p raw) (off ts : Nat) (hp : p < 4)
    (hptp : isPtp (raw.take (raw.length - 4)) = true)
    (ha : admits s p 65536 (cellsUsed (heardOctets p raw.length s)).length = true) :
    let u := heardOctets p raw.length s
    let st := storeFrame p false false false ts (raw.take (raw.length - 4)) u
    frameReceive p raw false false off ts s =
      noteCells 0 (count 0x100B0020 p 1 (pnSet p { pnGet p u with ptpQ := (pnGet p u).ptpQ.push st } u)) := by
  rw [h.receive, classify_ptp off hp hptp, (heardOctets_same p raw.length s).admits, ha]
  rfl

/-- A frame that no queue takes. -/
theorem Good.unwanted {p : Nat} {s : State} {raw : List Nat} (h : Good s p raw) (off ts : Nat)
    (hptp : p < 4 → isPtp (raw.take (raw.length - 4)) = false) (hl : legOf s p (raw.take (raw.length - 4)) = none)
    (hs : forSupervisor s p (raw.take (raw.length - 4)) = false) :
    frameReceive p raw false false off ts s = count 0x100B0030 p 1 (heardOctets p raw.length s) := by
  have hg := heardOctets_same p raw.length s
  rw [h.receive, classify_none off hptp]
  · rw [storeFrame_frame, hg.legOf]
    exact hl
  · rw [storeFrame_frame, hg.forSupervisor]
    exact hs

end Sys2Proof.Machine
end

section
/-!
PROOF. Links, transmission, LPI and LLDP (chapter 10), obligation O49.
-/
namespace Sys2Proof.Machine

/-! ### Pending events stay -/

/-- No pending event is lost. -/
structure PendUp (s t : State) : Prop where
  kept : ∀ j, s.ev.pend.getLsbD j = true → t.ev.pend.getLsbD j = true

theorem PendUp.refl (s : State) : PendUp s s := ⟨fun _ h => h⟩
theorem PendUp.trans {s t u : State} (h : PendUp s t) (k : PendUp t u) : PendUp s u :=
  ⟨fun j hj => k.kept j (h.kept j hj)⟩
theorem PendUp.of_ev {s t : State} (h : t.ev = s.ev) : PendUp s t := ⟨fun j hj => by rw [h]; exact hj⟩
theorem PendUp.ite {c : Prop} [Decidable c] {s t u : State} (ht : PendUp s t) (hu : PendUp s u) :
    PendUp s (if c then t else u) := by
  split
  · exact ht
  · exact hu
theorem raise_pendUp (code arg : Nat) (s : State) : PendUp s (raise code arg s) := ⟨fun j hj => by
  rw [raise_pend, BitVec.getLsbD_or, hj, Bool.true_or]⟩
theorem domSet_pendUp (k d s) : PendUp s (domSet k d s) := .ite (.of_ev rfl) (.of_ev rfl)

theorem domGm_pendUp (k gm s) : PendUp s (domGm k gm s) := by
  unfold domGm
  extract_lets d u
  have hu : PendUp s u := domSet_pendUp ..
  have hr : ∀ v : State, v.ev = u.ev → PendUp s (raise 0x5A k v) := fun v h => (hu.trans (.of_ev h)).trans (raise_pendUp ..)
  exact .ite hu (hr _ (count_ev ..))

theorem domLead_pendUp (k s) : PendUp s (domLead k s) := by
  unfold domLead
  extract_lets d
  exact (PendUp.ite (.refl s) (domSet_pendUp ..)).trans (domGm_pendUp ..)

theorem domDecide_pendUp (expired k s) : PendUp s (domDecide expired k s) := by
  unfold domDecide
  extract_lets d can
  refine .ite (.refl s) ?_
  split
  · exact .ite (domLead_pendUp ..) (domSet_pendUp ..)
  · exact .ite (domLead_pendUp ..) ((domSet_pendUp ..).trans (domGm_pendUp ..))

theorem domLink_pendUp (k s) : PendUp s (domLink k s) := by
  unfold domLink
  extract_lets c d up secUp u
  have hu : PendUp s u := domSet_pendUp ..
  exact .ite (.refl s) (.ite (.ite (.ite (hu.trans (domDecide_pendUp ..)) hu) (.refl s)) (domSet_pendUp ..))

/-- What a link's change brings about in the domains leaves ports and the rest of the unit alone. -/
theorem domLink_frame (s : State) :
    (domLink 1 (domLink 0 s)).net = s.net ∧ (domLink 1 (domLink 0 s)).mem = s.mem
      ∧ (domLink 1 (domLink 0 s)).twin = s.twin ∧ (domLink 1 (domLink 0 s)).img = s.img := by
  obtain ⟨_, _, _, _, _, _, _, _, h⟩ := (domLink_domains 0 s).trans (domLink_domains 1 _)
  rw [h]
  exact ⟨rfl, rfl, rfl, rfl⟩

theorem cget_pnSet (a i p : Nat) (v : PortNet) (s : State) : cget a i (pnSet p v s) = cget a i s := rfl
theorem txGet_pnSet (k p : Nat) (v : PortNet) (s : State) : txGet k (pnSet p v s) = txGet k s := rfl
theorem txGet_count (k a i n : Nat) (s : State) : txGet k (count a i n s) = txGet k s := rfl
theorem txGet_noteCells (k n : Nat) (s : State) : txGet k (noteCells n s) = txGet k s := rfl
theorem cget_noteCells (a i n : Nat) (s : State) : cget a i (noteCells n s) = cget a i s := rfl

/-! ### A link that changes -/

section
variable {p : Nat} {s : State}

/-- What a port sees of its link. -/
def seen (p : Nat) (up fec lpi : Bool) (s : State) : PortNet :=
  let c := netCfg s p
  { pnGet p s with
    link := up, fecLock := up && fec && decide (c.mode = 3), rxLpi := up && lpi && p = 4 && c.mode = 5 && c.eee }

theorem linkChange_same {up : Bool} (fec lpi : Bool) (h : (pnGet p s).link = up) :
    linkChange p up fec lpi s = pnSet p (seen p up fec lpi s) s := if_pos h

/-- The change of a link noted and raised. -/
def linkNoted (p : Nat) (up fec lpi : Bool) (s : State) : State :=
  raise 0x51 p (pnSet p { seen p up fec lpi s with linkChange := true, txLpi := false } s)

theorem linkChange_flips {up : Bool} (fec lpi : Bool) (h : (pnGet p s).link ≠ up) :
    linkChange p up fec lpi s = if up then linkGreet p (linkNoted p up fec lpi s) else linkNoted p up fec lpi s := if_neg h

theorem linkNoted_get (up fec lpi : Bool) : pnGet p (linkNoted p up fec lpi s) =
    { seen p up fec lpi s with linkChange := true, txLpi := false } := by
  unfold linkNoted
  rw [pnGet_of_net (raise_net ..)]
  exact pnGet_pnSet_self ..

theorem linkNoted_pend (up fec lpi : Bool) : (linkNoted p up fec lpi s).ev.pend.getLsbD 0x51 = true := by
  unfold linkNoted
  rw [raise_pend, BitVec.getLsbD_or, Bool.or_eq_true]
  exact .inr (by decide)

theorem svSend_get (f : List Nat) : pnGet p (svSend p f s) =
    { pnGet p s with svOut := (pnGet p s).svOut.push (storeFrame 7 false false false 0 f s) } := by
  unfold svSend
  rw [pnGet_noteCells]
  exact pnGet_pnSet_self ..

theorem svSend_ev (f : List Nat) : (svSend p f s).ev = s.ev := rfl

/-- Frames of a queue. -/
def framesOf (q : Queue Stored) : List (List Nat) := q.items.map Stored.frame

theorem framesOf_push (q : Queue Stored) (x : Stored) : framesOf (q.push x) = framesOf q ++ [x.frame] := by
  unfold framesOf Queue.push
  rw [List.map_append]
  rfl

theorem portGroups_same {t : State} (h : t.img = s.img) (hr : t.bus.regs = s.bus.regs) (p : Nat) :
    portGroups t p = portGroups s p := by
  unfold portGroups legOn rget
  rw [h, hr]

theorem igmpReport_same {t : State} (h : t.img = s.img) (hr : t.bus.regs = s.bus.regs) (ht : t.twin = s.twin) (p : Nat) :
    igmpReport t p = igmpReport s p := by
  unfold igmpReport portAddr netCfg
  rw [portGroups_same h hr, h, ht]

theorem linkNoted_img (up fec lpi : Bool) : (linkNoted p up fec lpi s).img = s.img := raise_img ..
theorem linkNoted_twin (up fec lpi : Bool) : (linkNoted p up fec lpi s).twin = s.twin := raise_twin ..
theorem linkNoted_regs (up fec lpi : Bool) : (linkNoted p up fec lpi s).bus.regs = s.bus.regs := raiseAt_regs ..

theorem netCfg_of_img {t : State} (h : t.img = s.img) (p : Nat) : netCfg t p = netCfg s p := by
  unfold netCfg
  rw [h]

theorem lldpOwn_noted (up fec lpi : Bool) : lldpOwn (linkNoted p up fec lpi s) = lldpOwn s := by
  have h : (linkNoted p up fec lpi s).net = (pnSet p { seen p up fec lpi s with linkChange := true, txLpi := false } s).net :=
    raise_net ..
  unfold lldpOwn
  rw [h]
  rfl

/-- The first frames of a port whose link has come up. -/
def greeting (s : State) (p : Nat) : List (List Nat) :=
  if p = 4 then (if (netCfg s p).mode = 5 ∧ (netCfg s p).eee = true then [lldpOwn s] else [])
  else if portGroups s p = [] then [] else [igmpReport s p]

/-- A port greets what its link reaches with its first frames, and changes nothing else of itself. -/
theorem linkGreet_noted (fec lpi : Bool) (hp : p < 5) :
    let u := linkNoted p true fec lpi s
    let v := pnGet p (linkGreet p u)
    v = { pnGet p u with svOut := v.svOut } ∧ framesOf v.svOut = framesOf (pnGet p u).svOut ++ greeting s p
      ∧ PendUp u (linkGreet p u) := by
  intro u v
  have hlink : (pnGet p u).link = true := by rw [linkNoted_get]; rfl
  have hsend : ∀ f, linkGreet p u = svSend p f u → greeting s p = [f] →
      v = { pnGet p u with svOut := v.svOut } ∧ framesOf v.svOut = framesOf (pnGet p u).svOut ++ greeting s p
        ∧ PendUp u (linkGreet p u) := by
    intro f h hf
    have hv : v = _ := (congrArg (pnGet p) h).trans (svSend_get f)
    rw [h, hv, hf]
    exact ⟨rfl, framesOf_push .., .of_ev (svSend_ev f)⟩
  have hquiet : linkGreet p u = u → greeting s p = [] →
      v = { pnGet p u with svOut := v.svOut } ∧ framesOf v.svOut = framesOf (pnGet p u).svOut ++ greeting s p
        ∧ PendUp u (linkGreet p u) := by
    intro h hf
    have hv : v = pnGet p u := congrArg (pnGet p) h
    rw [h, hv, hf, List.append_nil]
    exact ⟨rfl, rfl, .refl u⟩
  have hcfg : netCfg u p = netCfg s p := netCfg_of_img (linkNoted_img ..) p
  by_cases h4 : p = 4
  · subst h4
    have he : eeeOn u = (decide ((netCfg s 4).mode = 5) && (netCfg s 4).eee) := by
      unfold eeeOn
      rw [hcfg, hlink, Bool.and_true]
    by_cases hc : (netCfg s 4).mode = 5 ∧ (netCfg s 4).eee = true
    · refine hsend (lldpOwn s) ?_ ?_
      · unfold linkGreet
        rw [if_pos rfl, he, hc.2, decide_eq_true hc.1, lldpOwn_noted]
        rfl
      · unfold greeting
        rw [if_pos rfl, if_pos hc]
    · refine hquiet ?_ ?_
      · unfold linkGreet
        rw [if_pos rfl, he, if_neg]
        rw [Bool.and_eq_true, decide_eq_true_eq]
        exact hc
      · unfold greeting
        rw [if_pos rfl, if_neg hc]
  · have hgroups : portGroups u p = portGroups s p := portGroups_same (linkNoted_img ..) (linkNoted_regs ..) p
    have hreport : igmpReport u p = igmpReport s p :=
      igmpReport_same (linkNoted_img ..) (linkNoted_regs ..) (linkNoted_twin ..) p
    by_cases hg : portGroups s p = []
    · refine hquiet ?_ ?_
      · unfold linkGreet reportGroups
        rw [if_neg h4, hgroups, hg, if_neg]
        rw [List.isEmpty_nil, Bool.not_true, Bool.and_false]
        exact Bool.false_ne_true
      · unfold greeting
        rw [if_neg h4, if_pos hg]
    · refine hsend (igmpReport s p) ?_ ?_
      · unfold linkGreet reportGroups
        rw [if_neg h4, hgroups, hlink, hreport, if_pos]
        rw [decide_eq_true (by omega : p < 4), List.isEmpty_eq_false_iff.mpr hg]
        rfl
      · unfold greeting
        rw [if_neg h4, if_neg hg]

/-- A link that comes up or goes down. -/
theorem linkChange_facts (hp : p < 5) (up fec lpi : Bool) (h : (pnGet p s).link ≠ up) :
    let t := linkChange p up fec lpi s
    t.ev.pend.getLsbD 0x51 = true
      ∧ pnGet p t = { seen p up fec lpi s with linkChange := true, txLpi := false, svOut := (pnGet p t).svOut }
      ∧ framesOf (pnGet p t).svOut = framesOf (pnGet p s).svOut ++ if up = false then [] else greeting s p := by
  intro t
  have ht : t = _ := linkChange_flips fec lpi h
  cases up with
  | false =>
    rw [if_neg Bool.false_ne_true] at ht
    rw [ht, linkNoted_get, if_pos rfl, List.append_nil]
    exact ⟨linkNoted_pend .., rfl, rfl⟩
  | true =>
    rw [if_pos rfl] at ht
    obtain ⟨h1, h2, h3⟩ := linkGreet_noted (p := p) (s := s) fec lpi hp
    rw [linkNoted_get] at h1 h2
    rw [ht, if_neg (by decide)]
    exact ⟨h3.kept _ (linkNoted_pend ..), h1, h2⟩

/-! ### Transmission -/

theorem txSend_supervisor {x : Stored} {q : Queue Stored} (hq : (pnGet p s).svOut.next = (some x, q))
    (hl : p = 4 → (pnGet p s).txLpi = false) :
    txSend p s = sendFrame p x.frame (pnSet p { pnGet p s with svOut := q } s) := by
  unfold txSend
  dsimp only
  rw [if_neg, hq]
  rw [Bool.and_eq_true, decide_eq_true_eq]
  exact fun h => by rw [hl h.1] at h; exact Bool.false_ne_true h.2

/-- A frame of the supervisor that leaves on a port whose link is up. -/
theorem supervisor_leaves {x : Stored} {q : Queue Stored} (v : PortNet) (hl : v.link = true) :
    let t := sendFrame p x.frame (pnSet p { v with svOut := q } s)
    Counts 0x100B0034 p 1 s t ∧ pnGet p t = { v with
      svOut := q, sent := x.frame, txOctets := octets v.txOctets (max 64 (x.frame.length + 4)) } := by
  have hup : (pnGet p (pnSet p { v with svOut := q } s)).link = true := by rw [pnGet_pnSet_self]; exact hl
  refine ⟨counts_of_cget (u := pnSet p { v with svOut := q } s) rfl (sendFrame_counts hup), ?_⟩
  rw [sendFrame_get hup, pnGet_pnSet_self]

theorem txSend_packet {due k m : Nat} {b : Bool} {c : TxCfg} (hp : p < 4) (hq : (pnGet p s).svOut.next.1 = none)
    (hh : txHead s p = some (due, k, b, m)) (hc : s.img.tx[k]? = some c) :
    txSend p s = if due < txReached s then txPacketOut p k b c m s else s := by
  have hn : (pnGet p s).svOut.next = (none, (pnGet p s).svOut.next.2) := Prod.ext hq rfl
  unfold txSend
  dsimp only
  rw [if_neg (by rw [decide_eq_false (by omega : ¬p = 4)]; exact Bool.false_ne_true), hn]
  dsimp only
  rw [if_neg (by omega), hh]
  dsimp only
  rw [hc]

/-- A stream's next packet of a leg counted as sent. -/
def packetTaken (k m : Nat) (b : Bool) (s : State) : State :=
  txSet k (if b then { txGet k s with nextB := m + 1 } else { txGet k s with nextA := m + 1 }) s

theorem txPacketOut_full {k m : Nat} {b : Bool} {c : TxCfg} (h : admits s p c.cells 0 = false) :
    txPacketOut p k b c m s = quotaDrop p (packetTaken k m b s) := by
  have h' : admits (packetTaken k m b s) p c.cells 0 = false := h
  exact if_pos (show (!admits (packetTaken k m b s) p c.cells 0) = true by rw [h']; rfl)

theorem txPacketOut_admitted {k m : Nat} {b : Bool} {c : TxCfg} (h : admits s p c.cells 0 = true) :
    let f := txPacket s k c (if b then c.legB else c.legA) m
    let u := noteCells (cellsOf f.length) (packetTaken k m b s)
    txPacketOut p k b c m s = if emits s b (m * c.ptime) then
      sendFrame p f (if (pnGet p s).link then count 0x100B00C8 k 1 u else u) else u := by
  have h' : admits (packetTaken k m b s) p c.cells 0 = true := h
  exact if_neg (show ¬(!admits (packetTaken k m b s) p c.cells 0) = true by rw [h']; exact Bool.false_ne_true)

/-- A packet that leaves on a port whose link is up. -/
theorem packet_leaves {k n : Nat} (hp : p < 4) (f : List Nat) (u : State) (hl : (pnGet p s).link = true)
    (hu : u.bus = s.bus) (hn : pnGet p u = pnGet p s) :
    let t := sendFrame p f (count 0x100B00C8 k 1 (noteCells n u))
    Counts 0x100B0034 p 1 s t ∧ Counts 0x100B00C8 k 1 s t ∧ (pnGet p t).sent = f ∧ txGet k t = txGet k u := by
  intro t
  have hlink : (pnGet p (count 0x100B00C8 k 1 (noteCells n u))).link = true := by
    rw [pnGet_count, pnGet_noteCells, hn, hl]
  have hk : rkey 0x100B0034 p ≠ rkey 0x100B00C8 k := by
    unfold rkey
    omega
  have hb : ∀ a i, cget a i (noteCells n u) = cget a i s := fun a i => by
    unfold cget
    exact congrArg (fun b : Bus => sget 0 (rkey a i) b.ctr) hu
  have ht : t = _ := sendFrame_up hlink
  refine ⟨counts_of_cget ?_ (sendFrame_counts hlink), ?_, by rw [sendFrame_get hlink], ?_⟩
  · rw [cget_count_of_ne hk, hb]
  · unfold Counts
    rw [ht, cget_count_of_ne hk.symm, cget_pnSet, cget_count_self, hb]
  · rw [ht, txGet_count, txGet_pnSet]
    exact (txGet_count ..).trans (txGet_noteCells ..)

/-! ### LPI -/

theorem lpiEnter_eq (s : State) : lpiEnter s =
    if eeeOn s = true ∧ (pnGet 4 s).txLpi = false ∧ (pnGet 4 s).svOut.items = [] ∧ s.tcm.mgmtOut = [] then
      count 0x100B003C 4 1 (pnSet 4 { pnGet 4 s with txLpi := true } s) else s := by
  have hiff : (eeeOn s && !(pnGet 4 s).txLpi && (pnGet 4 s).svOut.items.isEmpty && s.tcm.mgmtOut.isEmpty) = true ↔
      eeeOn s = true ∧ (pnGet 4 s).txLpi = false ∧ (pnGet 4 s).svOut.items = [] ∧ s.tcm.mgmtOut = [] := by
    rw [Bool.and_eq_true, Bool.and_eq_true, Bool.and_eq_true, Bool.not_eq_true', List.isEmpty_iff, List.isEmpty_iff,
      and_assoc, and_assoc]
  unfold lpiEnter
  dsimp only
  rw [if_congr hiff rfl rfl]

theorem lpiWake_sends {x : Stored} {q : Queue Stored} (hl : (pnGet 4 s).txLpi = true)
    (hq : (pnGet 4 s).svOut.next = (some x, q)) : lpiWake s = sendFrame 4 x.frame
      (pnSet 4 { pnGet 4 s with txLpi := false, svOut := q } (pnSet 4 { pnGet 4 s with txLpi := false } s)) := by
  have hne : (pnGet 4 s).svOut.items.isEmpty = false := by
    have h1 : (pnGet 4 s).svOut.items[(pnGet 4 s).svOut.pos]? = some x := congrArg Prod.fst hq
    cases hi : (pnGet 4 s).svOut.items with
    | nil =>
      rw [hi] at h1
      cases h1
    | cons a l => rfl
  have hw : lpiWake s = txSend 4 (pnSet 4 { pnGet 4 s with txLpi := false } s) := by
    unfold lpiWake
    dsimp only
    rw [hl, hne]
    rfl
  have hg : pnGet 4 (pnSet 4 { pnGet 4 s with txLpi := false } s) = { pnGet 4 s with txLpi := false } := pnGet_pnSet_self ..
  rw [hw, txSend_supervisor (x := x) (q := q) (by rw [hg]; exact hq) (fun _ => by rw [hg]), hg]

/-! ### LLDP -/

/-- The wake times of an EEE TLV taken over. -/
def wakeTimes (w : List Nat) (s : State) : State :=
  { s with net := { s.net with twTx := be (slice 2 2 w), twRx := Config.wakeRx % 65536, peerTw := be (slice 0 2 w) } }

theorem lldpFrame_other {f : List Nat} (h : (etherOf f).1 ≠ 0x88CC ∨ eeeOn s = false ∨ eeeTlv f.length (f.drop (etherOf f).2.2) = none) :
    lldpFrame f s = s := by
  unfold lldpFrame
  dsimp only
  split
  · rfl
  · rename_i hn
    rw [Bool.or_eq_true, decide_eq_true_eq, Bool.not_eq_true', not_or, not_not] at hn
    have h3 : eeeTlv f.length (f.drop (etherOf f).2.2) = none := by
      rcases h with h | h | h
      · exact absurd hn.1 h
      · exact absurd h hn.2
      · exact h
    rw [h3]

theorem lldpFrame_eee {f w : List Nat} (ht : (etherOf f).1 = 0x88CC) (he : eeeOn s = true)
    (hw : eeeTlv f.length (f.drop (etherOf f).2.2) = some w) : lldpFrame f s =
      if (wakeTimes w s).net.twTx = s.net.twTx ∧ (wakeTimes w s).net.peerTw = s.net.peerTw then wakeTimes w s
      else svSend 4 (lldpOwn (wakeTimes w s)) (wakeTimes w s) := by
  unfold lldpFrame
  dsimp only
  rw [if_neg (by rw [ht, he]; decide), hw]
  rfl

end

/-! ### The obligation -/

theorem cellsUsed_poolMin (n : Nat) (s : State) : poolFree (noteCells n s) = poolFree s := rfl

/-- A PTP frame admitted. -/
theorem ptpAdmitted {p : Nat} {s u : State} (st : Stored) (hb : u.bus = s.bus) (hn : u.net.poolMin = s.net.poolMin) :
    let t := noteCells 0 (count 0x100B0020 p 1 (pnSet p { pnGet p u with ptpQ := (pnGet p u).ptpQ.push st } u))
    Counts 0x100B0020 p 1 s t ∧ t.net.poolMin = min s.net.poolMin (poolFree t)
      ∧ pnGet p t = { pnGet p u with ptpQ := (pnGet p u).ptpQ.push st } := by
  have hc : ∀ a i, cget a i (pnSet p { pnGet p u with ptpQ := (pnGet p u).ptpQ.push st } u) = cget a i s := fun a i => by
    unfold cget
    exact congrArg (fun b : Bus => sget 0 (rkey a i) b.ctr) hb
  generalize hv : pnSet p { pnGet p u with ptpQ := (pnGet p u).ptpQ.push st } u = v at hc
  have hm : v.net.poolMin = s.net.poolMin := by rw [← hv]; exact hn
  refine ⟨?_, ?_, ?_⟩
  · unfold Counts
    rw [cget_noteCells, cget_count_self, hc]
  · rw [cellsUsed_poolMin, ← hm]
    rfl
  · rw [pnGet_noteCells, pnGet_count, ← hv, pnGet_pnSet_self]

theorem legOf_some {s : State} {p : Nat} {f : List Nat} {u : Udp} {x : Nat × Bool} (hp : p < 4) (hu : udpOf f = some u)
    (hl : findLeg s p (etherOf f).2.1 u = some x) : legOf s p f = some x := by
  unfold legOf
  rw [if_pos hp, hu]
  exact hl

theorem legOf_none {s : State} {p : Nat} {f : List Nat}
    (h : p < 4 → ∀ u, udpOf f = some u → findLeg s p (etherOf f).2.1 u = none) : legOf s p f = none := by
  unfold legOf
  split
  · rename_i hp
    cases hu : udpOf f with
    | none => rfl
    | some u => exact h hp u hu
  · rfl

theorem udpBody_some {f : List Nat} {u : Udp} (h : udpOf f = some u) : udpBody f = slice (u.off + 8) (u.len - 8) f := by
  unfold udpBody
  rw [h]

/-- What a port does with a frame, by what the frame is. -/
theorem receives {s : State} {p : Nat} (hp : p < 5) (frame : List Byte) (codeError poison : Bool) (offset stamp : Nat) :
    let v := pnGet p s
    let f := bytesOf frame
    let n := f.length
    let body := f.take (n - 4)
    let got := heardOctets p n s
    let stored := storeFrame p false false false stamp body got
    let good := 64 ≤ n ∧ n ≤ (netCfg s p).maxFrame ∧ le (f.drop (n - 4)) = crc32 body ∧ codeError = false
      ∧ poison = false ∧ sumsOk body = true
    let receive := exec (.frameReceive p frame codeError poison offset stamp) s
    ((netCfg s p).mode = 0 ∨ v.link = false → receive = .next s)
    ∧ ((netCfg s p).mode ≠ 0 → v.link = true →
      (n < 64 → receive = .next (count 0x100B0024 p 1 got))
      ∧ (good → p < 4 → isPtp body = true →
        (admits s p 65536 (cellsUsed got).length = false → receive = .next (quotaDrop p got))
        ∧ (admits s p 65536 (cellsUsed got).length = true → ∃ t, receive = .next t ∧ Counts 0x100B0020 p 1 s t
          ∧ t.net.poolMin = min s.net.poolMin (poolFree t)
          ∧ pnGet p t = { v with rxOctets := octets v.rxOctets n, ptpQ := v.ptpQ.push stored }))
      ∧ (∀ u k b c, good → p < 4 → isPtp body = false → udpOf body = some u →
        findLeg s p (etherOf body).2.1 u = some (k, b) → s.img.rx[k]? = some c →
        let rtp := slice (u.off + 8) (u.len - 8) body
        let now := blockNow s
        let ts := extendTs ((be (slice 4 4 rtp) + 2 ^ 32 - c.tsOffset) % 2 ^ 32) ((s.B * now : Nat) : Int)
        c.type < 4 → (fnGet 2 k s).st = 0 →
        admits s p (if b then c.cellsB else c.cellsA) (legCells b (rxGet k s)) = true →
        12 ≤ rtp.length → nth 0 rtp 0 / 64 = 2 → nth 0 rtp 0 % 16 = 0 → nth 0 rtp 1 % 128 = c.pt →
        (c.ssrcCheck = true → be (slice 8 4 rtp) = c.ssrc) →
        (rtpPayload rtp).length = c.ptime * c.channels * sampleBytes c.type →
        (rxGet k s).minBlock ≤ dueBlock s c ts → now < dueBlock s c ts → dueBlock s c ts ≤ now + c.depth + 2 →
        ∃ t, receive = .next t ∧ Counts 0x100B0020 p 1 s t
          ∧ (rxGet k t).leg b = ((rxGet k s).leg b).push ⟨stored, true, ts, be (slice 2 2 rtp), now⟩)
      ∧ (good → forSupervisor s p body = false →
        (p < 4 → isPtp body = false ∧ ∀ u, udpOf body = some u → findLeg s p (etherOf body).2.1 u = none) →
        receive = .next (count 0x100B0030 p 1 got))) := by
  intro v f n body got stored good receive
  have hrec : receive = .next (frameReceive p f codeError poison offset stamp s) := withInstance_next.mpr ⟨hp, rfl⟩
  refine ⟨fun h => hrec.trans (congrArg _ (frameReceive_off f codeError poison offset stamp h)), fun hm hl =>
    ⟨fun h => hrec.trans (congrArg _ (frameReceive_short codeError poison offset stamp hm hl h)), ?ptp, ?stream, ?none⟩⟩
  case ptp =>
    rintro ⟨h1, h2, h3, rfl, rfl, h6⟩ hp4 hptp
    have hgood : Good s p f := ⟨hm, hl, h1, h2, h3, h6⟩
    refine ⟨fun ha => hrec.trans (congrArg _ (hgood.ptpFull offset stamp hp4 hptp ha)), fun ha =>
      ⟨_, hrec.trans (congrArg _ (hgood.ptpQueued offset stamp hp4 hptp ha)), ?_⟩⟩
    obtain ⟨hc, hmin, hq⟩ := ptpAdmitted (p := p) (s := s) (u := got) stored (heardOctets_bus ..) (heardOctets_poolMin ..)
    refine ⟨hc, hmin, hq.trans ?_⟩
    rw [heardOctets_get]
  case stream =>
    rintro u k b c ⟨h1, h2, h3, rfl, rfl, h6⟩ hp4 hptp hu hleg hc
    intro rtp now ts hty hst ha r1 r2 r3 r4 r5 r6 hmin hlate hearly
    have hbody : udpBody body = rtp := udpBody_some hu
    have h := frameReceive_stream offset stamp hp4 ⟨hm, hl, h1, h2, h3, h6⟩ hptp (legOf_some hp4 hu hleg) hc hty hst ha
      (hbody ▸ ⟨r2, r3, r4, r1, r5, r6⟩) (by rw [hbody]; exact hmin) (by rw [hbody]; exact hlate) (by rw [hbody]; exact hearly)
    dsimp only at h
    rw [hbody] at h
    exact ⟨_, hrec, h⟩
  case none =>
    rintro ⟨h1, h2, h3, rfl, rfl, h6⟩ hs hnone
    have hgood : Good s p f := ⟨hm, hl, h1, h2, h3, h6⟩
    exact hrec.trans (congrArg _ (hgood.unwanted offset stamp (fun h4 => (hnone h4).1)
      (legOf_none fun h4 => (hnone h4).2) hs))

/-- Settles O49: frames received, links, transmission, LPI and LLDP. -/
theorem network : Obligations.Network := by
  unfold Obligations.Network
  intro s p hp v
  refine ⟨?receive, ?link, ?supervisor, ?packet, congrArg Host.Outcome.next (lpiEnter_eq s), ?wake, ?lldp⟩
  case receive => exact fun frame ce po off ts => receives hp frame ce po off ts
  case link =>
    intro up fec lpi c w frames
    have hx : exec (.netLinkChange p up ⟨fec, lpi⟩) s = .next (domLink 1 (domLink 0 (linkChange p up fec lpi s))) :=
      withInstance_next.mpr ⟨hp, rfl⟩
    obtain ⟨hnet, hmem, htwin, himg⟩ := domLink_frame (linkChange p up fec lpi s)
    obtain ⟨_, _, _, _, _, _, _, _, hf⟩ := linkChange_netted p up fec lpi s
    refine ⟨_, hx, hmem.trans (by rw [hf]), htwin.trans (by rw [hf]), himg.trans (by rw [hf]), fun h => ?_, fun h => ?_⟩
    · rw [hnet, linkChange_same fec lpi h]
      rfl
    · rw [pnGet_of_net hnet]
      obtain ⟨hpend, hrest⟩ := linkChange_facts hp up fec lpi h
      exact ⟨((domLink_pendUp 0 _).trans (domLink_pendUp 1 _)).kept _ hpend, hrest⟩
  case supervisor =>
    intro x q hq hl
    refine ⟨fun hup => ⟨_, withInstance_next.mpr ⟨hp, (txSend_supervisor hq hl).symm⟩, supervisor_leaves v hup⟩, fun hdown => ?_⟩
    refine withInstance_next.mpr ⟨hp, Eq.symm ((txSend_supervisor hq hl).trans (if_neg ?_))⟩
    rw [pnGet_pnSet_self]
    exact Bool.eq_false_iff.mp hdown
  case packet =>
    intro due k b m c hp4 hq hl hh hc u f
    have htx := txSend_packet hp4 hq hh hc
    refine ⟨fun h => ?_, fun h ha => ?_, fun h ha => ⟨fun he => ?_, fun he => ?_⟩⟩
    · exact withInstance_next.mpr ⟨hp, (htx.trans (if_neg (by omega))).symm⟩
    · exact withInstance_next.mpr ⟨hp, (htx.trans ((if_pos h).trans (txPacketOut_full ha))).symm⟩
    · refine ⟨_, withInstance_next.mpr ⟨hp, (htx.trans ((if_pos h).trans ((txPacketOut_admitted ha).trans (if_pos he)))).symm⟩, ?_⟩
      rw [hl, if_pos rfl]
      exact packet_leaves hp4 f u hl rfl rfl
    · exact withInstance_next.mpr ⟨hp, (htx.trans ((if_pos h).trans ((txPacketOut_admitted ha).trans
        (if_neg (by rw [he]; exact Bool.false_ne_true))))).symm⟩
  case wake =>
    intro x q hlpi hq hl
    refine ⟨_, congrArg Host.Outcome.next (lpiWake_sends hlpi hq), ?_⟩
    exact supervisor_leaves (p := 4) { pnGet 4 s with txLpi := false } hl
  case lldp =>
    intro frame f tlv
    refine ⟨fun w ht he hw => ⟨fun h1 h2 => ?_, fun h => ?_⟩, fun h => congrArg Host.Outcome.next (lldpFrame_other h)⟩
    · exact congrArg Host.Outcome.next ((lldpFrame_eee ht he hw).trans (if_pos ⟨h1, h2⟩))
    · exact congrArg Host.Outcome.next ((lldpFrame_eee ht he hw).trans (if_neg (not_and_or.mpr h)))

end Sys2Proof.Machine
end

section
/-!
SUPPORT. Frames that the twin link takes, and what the twin's frames and its emission write (chapter 09).
-/
namespace Sys2Proof.Machine

/-! ### A frame taken -/

/-- The link takes the frame that is due, whole and of the wanted type: its payload goes on. -/
theorem linkReceive_taken {type : Nat} {frame : List Byte} {s : State} (h : Taken type frame s) {code : Option Nat}
    (hc : ∀ c ∈ code, nth 0 (payload frame) 0 = c) (hk : typeKnown type = true) :
    linkReceive type code (bytesOf frame) s = (some (payload frame), tookFrame type frame s) := by
  obtain ⟨hup, htype, hlen, hmax, hcrc, hlay, hseq⟩ := h
  have hl : (decide ((bytesOf frame).length < be (slice 4 2 (bytesOf frame)) + 12)
      || decide (32768 < be (slice 4 2 (bytesOf frame)))) = false := by simp; omega
  have hw : (code.map (fun c => decide (nth 0 (slice 8 (be (slice 4 2 (bytesOf frame))) (bytesOf frame)) 0 ≠ c))).getD false
      = false := by
    cases code with
    | none => rfl
    | some c => simpa [payload] using hc c rfl
  unfold linkReceive tookFrame
  rw [htype]
  dsimp only
  rw [if_neg (by simp [hup]), if_neg (by simp [hl]), if_neg (not_not.mpr hcrc), if_neg (by simp [hk, hlay]),
    if_neg (show ¬(decide (type ≠ type) || _) = true from by
      rw [hw]
      simp)]
  cases hr : isReliable type with
  | true =>
    have hn : type ≠ 0x3F := by
      rintro rfl
      exact absurd hr (by decide)
    rw [if_pos rfl, if_pos rfl, if_neg hn, if_neg hn, hseq hr]
    exact if_pos rfl
  | false =>
    rw [if_neg Bool.false_ne_true, if_neg Bool.false_ne_true]
    split
    · rfl
    · rfl

/-- A frame of a type without codes has its effect on the state that has taken it. -/
theorem onFrame_taken {type : Nat} {frame : List Byte} {s : State} (h : Taken type frame s) (hk : typeKnown type = true)
    (f : List Nat → State → State) : onFrame type frame f s = f (payload frame) (tookFrame type frame s) := by
  unfold onFrame
  rw [linkReceive_taken h (fun c hc => absurd hc (Option.not_mem_none c)) hk]

/-- A CONTROL message of the wanted code has its effect on the state that has taken it. -/
theorem onControl_taken {frame : List Byte} {s : State} (h : Taken 0x15 frame s) {code : Nat}
    (hc : nth 0 (payload frame) 0 = code) (f : List Nat → State → State) :
    onControl code frame f s = f ((payload frame).drop 4) (tookFrame 0x15 frame s) := by
  have hr := linkReceive_taken h (code := some code) (fun c hx => by
    injection hx with hx
    exact hc.trans hx) rfl
  unfold onControl controlReceive
  rw [hr]
  rfl

/-! ### What is sent, and emission -/

/-- Of the state only the frames to send and the emission on the networks may differ. -/
def WireOnly (s t : State) : Prop := ∃ q n o w k a b e l, t = { s with twin := { s.twin with
  txq := q, txSeq := n, sent := o, hbWord := w, hbSeq := k, emitA := a, emitB := b, emitAt := e, emitLog := l } }

theorem WireOnly.refl (s : State) : WireOnly s s := ⟨_, _, _, _, _, _, _, _, _, rfl⟩
theorem WireOnly.trans {s t u : State} (h : WireOnly s t) (k : WireOnly t u) : WireOnly s u := by
  obtain ⟨_, _, _, _, _, _, _, _, _, rfl⟩ := h
  obtain ⟨_, _, _, _, _, _, _, _, _, rfl⟩ := k
  exact ⟨_, _, _, _, _, _, _, _, _, rfl⟩
theorem WireOnly.ite {c : Prop} [Decidable c] {s t u : State} (ht : WireOnly s t) (hu : WireOnly s u) :
    WireOnly s (if c then t else u) := by
  split
  · exact ht
  · exact hu
theorem WireOnly.foldl {α : Type} {f : State → α → State} (h : ∀ s x, WireOnly s (f s x)) (xs : List α) (s : State) :
    WireOnly s (xs.foldl f s) := by
  induction xs generalizing s with
  | nil => exact .refl s
  | cons x xs ih => exact (h s x).trans (ih _)

theorem linkSend_wire (type payload s) : WireOnly s (linkSend type payload s) := by
  unfold linkSend
  refine .ite (.refl s) (.ite ?_ ?_)
  · exact ⟨_, _, _, _, _, _, _, _, _, rfl⟩
  · exact ⟨_, _, _, _, _, _, _, _, _, rfl⟩

theorem controlSend_wire (code body s) : WireOnly s (controlSend code body s) := linkSend_wire ..
theorem hbSend_wire (s) : WireOnly s (hbSend s) := ⟨_, _, _, _, _, _, _, _, _, rfl⟩
theorem emitFrom_wire (e a b s) : WireOnly s (emitFrom e a b s) := ⟨_, _, _, _, _, _, _, _, _, rfl⟩
theorem emitByState_wire (e s) : WireOnly s (emitByState e s) := ⟨_, _, _, _, _, _, _, _, _, rfl⟩
theorem emitPlan_wire (e a b s) : WireOnly s (emitPlan e a b s) := ⟨_, _, _, _, _, _, _, _, _, rfl⟩
theorem emitLeave_wire (before s) : WireOnly s (emitLeave before s) := .ite (.refl s) (emitByState_wire ..)
theorem peerMoved_wire (before s) : WireOnly s (peerMoved before s) :=
  .ite (.refl s) ((emitPlan_wire ..).trans (controlSend_wire ..))
theorem handoverBegin_wire (h s) :
    WireOnly { s with twin := { s.twin with handover := some ⟨h, 1⟩ } } (handoverBegin h s) :=
  (controlSend_wire ..).trans (controlSend_wire ..)

/-- The state of a unit that begins its resync (R334 to R338). -/
def resyncing (joint : Bool) (s : State) : State := { s with twin := { s.twin with
  st := 4, matchRun := 0, phase := if joint then 5 else 1, level := 0, slice := 0, pieces := [], bulkEnd := none
  relayLog := [], parts := [] } }

theorem enterResync_wire (joint s) : WireOnly (resyncing joint s) (enterResync joint s) := by
  have h : WireOnly (resyncing joint s) (emitLeave s (resyncing joint s)) := emitLeave_wire ..
  unfold enterResync
  exact .ite h (h.trans (controlSend_wire ..))

theorem enterSuspect_wire (s) : WireOnly { s with twin := { s.twin with st := 3, phase := 0 } } (enterSuspect s) :=
  emitLeave_wire ..

/-- Emission by the unit's state, on the two networks. -/
theorem emitByState_emits (e : Nat) (s : State) :
    (emitByState e s).twin.emitA = (emissionOf s).1 ∧ (emitByState e s).twin.emitB = (emissionOf s).2 := ⟨rfl, rfl⟩

end Sys2Proof.Machine
end

section
/-!
PROOF. The twin link, leases and heartbeats (O44).
-/
namespace Sys2Proof.Machine

variable {s : State}

theorem WireOnly.only {s t : State} (h : WireOnly s t) : TwinOnly s t := by
  obtain ⟨_, _, _, _, _, _, _, _, _, rfl⟩ := h
  exact ⟨_, rfl⟩

/-! ### The link up and down -/

/-- The unit asks for resync when the link is back (R334, R338). -/
def asksAgain (s : State) : Bool := decide (s.twin.st = 4) && !s.twin.starting && !s.twin.acts && !s.twin.divergent

/-- The state in which the streams of a restored link start. -/
def streamStarts (s : State) : State := { s with twin := { s.twin with
  txq := [], txSeq := 0, rxSeq := 0, lost := s.twin.lost && decide (s.twin.st = 1) } }

theorem linkRestored_wire (s : State) :
    WireOnly (if asksAgain s then resyncing false (streamStarts s) else streamStarts s) (linkRestored s) := by
  show WireOnly _ (if asksAgain s then enterResync false (streamStarts s) else peerMoved false (streamStarts s))
  split
  · exact enterResync_wire ..
  · exact peerMoved_wire ..

/-- The state of a unit that has lost its link, its emission apart. -/
def linkGone (s : State) : State := { s with twin := { s.twin with
  txq := [], lost := true, phase := if s.twin.st = 4 then 0 else s.twin.phase } }

theorem linkLost_eq (s : State) :
    linkLost s = if s.twin.acts then emitByState (s.grid.block + 1) (linkGone s) else linkGone s := rfl

/-- What an edge of the link leaves alone of what the two lines have told. -/
structure LinkKept (s t : State) : Prop where
  only : TwinOnly s t
  linkUp : t.twin.linkUp = s.twin.linkUp
  lanes : t.twin.lane0 = s.twin.lane0 ∧ t.twin.lane1 = s.twin.lane1
  peerDown : t.twin.peerDown = s.twin.peerDown
  peerHome : t.twin.peerHome = s.twin.peerHome
  hbAt : t.twin.hbAt = s.twin.hbAt
  leaseAt : t.twin.leaseAt = s.twin.leaseAt

theorem WireOnly.linkKept {s t u : State} (hs : LinkKept s t) (h : WireOnly t u) : LinkKept s u := by
  obtain ⟨_, _, _, _, _, _, _, _, _, rfl⟩ := h
  exact ⟨hs.only.trans ⟨_, rfl⟩, hs.linkUp, hs.lanes, hs.peerDown, hs.peerHome, hs.hbAt, hs.leaseAt⟩

theorem linkEdge_linkKept (was : Bool) (s : State) : LinkKept s (linkEdge was s) := by
  have hl : LinkKept s (linkGone s) := ⟨⟨_, rfl⟩, rfl, ⟨rfl, rfl⟩, rfl, rfl, rfl, rfl⟩
  have hr : LinkKept s (streamStarts s) := ⟨⟨_, rfl⟩, rfl, ⟨rfl, rfl⟩, rfl, rfl, rfl, rfl⟩
  have ha : LinkKept s (resyncing false (streamStarts s)) := ⟨⟨_, rfl⟩, rfl, ⟨rfl, rfl⟩, rfl, rfl, rfl, rfl⟩
  unfold linkEdge
  split
  · exact ⟨.refl s, rfl, ⟨rfl, rfl⟩, rfl, rfl, rfl, rfl⟩
  · split
    · refine WireOnly.linkKept ?_ (linkRestored_wire s)
      split
      · exact ha
      · exact hr
    · rw [linkLost_eq]
      split
      · exact WireOnly.linkKept hl (emitByState_wire ..)
      · exact hl

/-- The state with the receive side as it now stands. -/
def sided (up a b : Bool) (s : State) : State :=
  { s with twin := { s.twin with linkUp := up, lane0 := a, lane1 := b } }

theorem linkSide_eq (up a b : Bool) (s : State) : linkSide up a b s = linkEdge (linkOk s) (sided up a b s) := rfl

/-- A receive side that comes up with nothing against it restores the link. -/
theorem linkSide_up (hd : s.twin.linkUp = false) (hp : s.img.twin.pair = true) (hn : s.twin.peerDown = false) (a b : Bool) :
    linkSide true a b s = linkRestored (sided true a b s) := by
  have hw : linkOk s = false := by simp [linkOk, hd]
  have ho : linkOk (sided true a b s) = true := by simp [linkOk, sided, hp, hn]
  rw [linkSide_eq, linkEdge, hw, ho, if_neg Bool.false_ne_true, if_pos rfl]

/-- A receive side that goes down takes a link that carries frames with it. -/
theorem linkSide_down (h : linkOk s = true) (a b : Bool) : linkSide false a b s = linkLost (sided false a b s) := by
  have ho : linkOk (sided false a b s) = false := by simp [linkOk, sided]
  rw [linkSide_eq, linkEdge, h, ho, if_neg Bool.false_ne_true.symm, if_neg Bool.false_ne_true]

theorem linkSide_sided (up a b : Bool) (s : State) : let t := linkSide up a b s
    t = { s with twin := t.twin } ∧ t.twin.linkUp = up ∧ t.twin.lane0 = a ∧ t.twin.lane1 = b := by
  have h := linkEdge_linkKept (linkOk s) (sided up a b s)
  rw [← linkSide_eq] at h
  refine ⟨?_, h.linkUp, h.lanes.1, h.lanes.2⟩
  obtain ⟨w, hw⟩ := h.only
  rw [hw]
  rfl

theorem linkUp_row (s : State) : ∃ t, exec .twinLinkUp s = .next t ∧ t = { s with twin := t.twin }
    ∧ t.twin.linkUp = true ∧ t.twin.lane0 = true ∧ t.twin.lane1 = true
    ∧ (s.twin.linkUp = false → s.img.twin.pair = true → s.twin.peerDown = false → t.twin.rxSeq = 0
      ∧ t.twin.lost = (s.twin.lost && decide (s.twin.st = 1))
      ∧ (s.twin.st = 4 → s.twin.starting = false → s.twin.acts = false → s.twin.divergent = false → t.twin.phase = 1)) := by
  obtain ⟨ht, hup, h0, h1⟩ := linkSide_sided true true true s
  refine ⟨_, rfl, ht, hup, h0, h1, fun hd hp hn => ?_⟩
  have e := linkSide_up hd hp hn true true
  obtain ⟨q, n, o, w, k, a, b, x, l, hw⟩ := linkRestored_wire (sided true true true s)
  rw [e, hw]
  refine ⟨?_, ?_, fun h4 hs ha hv => ?_⟩
  · split
    · rfl
    · rfl
  · split
    · rfl
    · rfl
  · rw [if_pos (show asksAgain (sided true true true s) = true by simp [asksAgain, sided, h4, hs, ha, hv])]
    rfl

theorem linkDown_row (a b : Bool) (s : State) : ∃ t, exec (.twinLinkDown a b) s = .next t ∧ t = { s with twin := t.twin }
    ∧ t.twin.linkUp = false ∧ t.twin.lane0 = a ∧ t.twin.lane1 = b
    ∧ (linkOk s = true → t.twin.txq = [] ∧ t.twin.lost = true) := by
  obtain ⟨ht, hup, h0, h1⟩ := linkSide_sided false a b s
  refine ⟨_, rfl, ht, hup, h0, h1, fun h => ?_⟩
  rw [linkSide_down h, linkLost_eq]
  split
  · exact ⟨rfl, rfl⟩
  · exact ⟨rfl, rfl⟩

/-- The first tick after the loss of the link puts a LATENT unit in RESYNC (R334). -/
theorem linkLoss_row (hl : s.twin.lost = true) (h1 : s.twin.st = 1) (hs : s.twin.starting = false)
    (hd : s.twin.divergent = false) : ∃ t, exec .linkLossResync s = .next t ∧ t.twin.st = 4 ∧ t.twin.lost = false
      ∧ t.twin.phase = (if linkOk s then 1 else 0)
      ∧ t.ev.eseq = (s.ev.eseq + 1) % 2 ^ 32 ∧ t.ev.pend = s.ev.pend ||| 1#256 <<< 0x4F := by
  have e : linkLossTick s = (let u := raiseTick 0x4F 0 (emitByState s.grid.block
      { s with twin := { s.twin with lost := false, st := 4, matchRun := 0, phase := 0 } })
      if linkOk u then enterResync false u else u) := by
    unfold linkLossTick
    rw [if_neg (by simp [hl]), if_pos (by simp [h1, hs, hd])]
  have ho : linkOk (raiseTick 0x4F 0 (emitByState s.grid.block
      { s with twin := { s.twin with lost := false, st := 4, matchRun := 0, phase := 0 } })) = linkOk s := by
    unfold linkOk
    rw [raiseTick_img, raiseTick_twin]
    rfl
  refine ⟨_, rfl, ?_⟩
  rw [e]
  dsimp only
  rw [ho]
  split
  · obtain ⟨q, n, o, w, k, a, b, x, l, hw⟩ := enterResync_wire false (raiseTick 0x4F 0 (emitByState s.grid.block
      { s with twin := { s.twin with lost := false, st := 4, matchRun := 0, phase := 0 } }))
    rw [hw]
    refine ⟨rfl, ?_, rfl, raiseTick_eseq .., raiseTick_pend ..⟩
    show (raiseTick _ _ _).twin.lost = false
    rw [raiseTick_twin]
    rfl
  · rw [raiseTick_twin]
    exact ⟨rfl, rfl, rfl, raiseTick_eseq .., raiseTick_pend ..⟩

theorem linkLoss_standby (hl : s.twin.lost = true) (h1 : s.twin.st ≠ 1) :
    exec .linkLossResync s = .next { s with twin := { s.twin with lost := false } } := by
  refine congrArg Host.Outcome.next ?_
  unfold linkLossTick
  rw [if_neg (by simp [hl]), if_neg (by simp [h1])]

theorem resend_row (hq : s.twin.txq ≠ []) (ho : linkOk s = true) :
    exec .linkResendTimeout s = .next (count 0x1003007C 0 (min 64 s.twin.txq.length) s) := by
  refine congrArg Host.Outcome.next (if_neg ?_)
  simp [hq, ho]

/-! ### FLAGS of the partner -/

/-- The state in which a frame's STATE and the partner's home are noted. -/
def shown (st flags : Nat) (s : State) : State := { s with twin := { s.twin with
  peer := if !(!s.twin.hello.isEmpty) then s.twin.peer else if st = 15 then 7 else st % 8
  peerHome := bit 3 flags } }

/-- Of the state only what FLAGS tell of a hand-over, of a release and of a handshake may differ. -/
def FlagsOnly (s t : State) : Prop :=
  ∃ h r o, t = { s with twin := { s.twin with hello := h, releaseAt := r, hoSeen := o } }

theorem FlagsOnly.refl (s : State) : FlagsOnly s s := ⟨_, _, _, rfl⟩
theorem FlagsOnly.trans {s t u : State} (h : FlagsOnly s t) (k : FlagsOnly t u) : FlagsOnly s u := by
  obtain ⟨_, _, _, rfl⟩ := h
  obtain ⟨_, _, _, rfl⟩ := k
  exact ⟨_, _, _, rfl⟩
theorem FlagsOnly.ite {c : Prop} [Decidable c] {s t u : State} (ht : FlagsOnly s t) (hu : FlagsOnly s u) :
    FlagsOnly s (if c then t else u) := by
  split
  · exact ht
  · exact hu

/-- A frame that shows the partner acting renews the lease; one that shows it standing by ends two holders. -/
def renewed (st flags : Nat) (s : State) : State :=
  if bit 0 flags && (st = 0 || st = 2) then renewal s else if st = 1 || st = 3 || st = 4 then peerStandby s else s

theorem peerFlags_shape (st flags b w : Nat) (s : State) :
    ∃ t, FlagsOnly (shown st flags s) t ∧ WireOnly (renewed st flags t) (peerFlags st flags b w s) := by
  unfold peerFlags
  extract_lets before known _ s1 _ s2 d h _ s3 _ s4 s5
  have h2 : FlagsOnly (shown st flags s) s2 := .ite ⟨_, _, _, rfl⟩ (.refl _)
  have h3 : FlagsOnly s2 s3 := .ite ⟨_, _, _, rfl⟩ (.refl _)
  have h4 : FlagsOnly s3 s4 := by
    unfold s4
    split
    · exact .ite ⟨_, _, _, rfl⟩ (.refl _)
    · exact .refl _
  exact ⟨s4, (h2.trans h3).trans h4, peerMoved_wire ..⟩

/-- A renewal by the partner of a unit that stands by. -/
theorem renewal_standby (ha : s.twin.acts = false) :
    renewal s = { s with twin := { s.twin with leaseAt := s.clk.safe } } := by
  unfold renewal
  simp [ha]

/-- The lease is renewed now; two holders are noted, and that one which is to give up. -/
structure Renewed (s t : State) : Prop where
  only : Sounded { s with twin := t.twin } t
  leaseAt : t.twin.leaseAt = s.clk.safe
  peer : t.twin.peer = s.twin.peer ∧ t.twin.peerHome = s.twin.peerHome ∧ t.twin.peerDown = s.twin.peerDown
  tenures : t.twin.peerTenure = s.twin.peerTenure
  times : t.twin.linkAt = s.twin.linkAt ∧ t.twin.hbAt = s.twin.hbAt
  expired : t.twin.expired = s.twin.expired
  dualRun : s.twin.acts = true → t.twin.dualRun = true
  later : s.twin.acts = true → s.twin.peerTenure < s.twin.tenure → t.twin.dual = true
  earlier : s.twin.acts = true → s.twin.tenure < s.twin.peerTenure → t.twin.dual = false

theorem renewal_renewed (s : State) : Renewed s (renewal s) := by
  cases ha : s.twin.acts with
  | false =>
    rw [renewal_standby ha]
    exact ⟨.refl _, rfl, ⟨rfl, rfl, rfl⟩, rfl, ⟨rfl, rfl⟩, rfl, fun h => absurd (ha.symm.trans h) Bool.false_ne_true,
      fun h => absurd (ha.symm.trans h) Bool.false_ne_true, fun h => absurd (ha.symm.trans h) Bool.false_ne_true⟩
  | true =>
    unfold renewal
    rw [if_pos ha]
    extract_lets loses _ _ u
    have hu : Renewed s u := by
      refine ⟨.refl _, rfl, ⟨rfl, rfl, rfl⟩, rfl, ⟨rfl, rfl⟩, rfl, fun _ => rfl, fun _ h => ?_, fun _ h => ?_⟩
      · simp [u, loses, h]
      · have h1 : ¬ s.twin.peerTenure < s.twin.tenure := by omega
        have h2 : s.twin.peerTenure ≠ s.twin.tenure := by omega
        simp [u, loses, h1, h2]
    split
    · exact hu
    · have hr := raise_sounded 0x47 0 u
      have ht : (raise 0x47 0 u).twin = u.twin := raise_twin ..
      obtain ⟨h1, h2, h3, h4, h5, h6, h7, h8, h9⟩ := hu
      rw [← ht] at h1 h2 h3 h4 h5 h6 h7 h8 h9
      exact ⟨h1.trans hr, h2, h3, h4, h5, h6, h7, h8, h9⟩

/-- What a frame's FLAGS and STATE leave. -/
structure FlagsSeen (st flags : Nat) (s t : State) : Prop where
  clk : t.clk = s.clk
  kept : t.twin.linkAt = s.twin.linkAt ∧ t.twin.hbAt = s.twin.hbAt ∧ t.twin.peerDown = s.twin.peerDown
  expired : t.twin.expired = s.twin.expired
  peerHome : t.twin.peerHome = bit 3 flags
  peer : s.twin.hello ≠ [] → t.twin.peer = if st = 15 then 7 else st % 8
  tenure : s.twin.acts = false ∨ st = 0 ∨ st = 2 → t.twin.peerTenure = s.twin.peerTenure
  silent : bit 0 flags = false → t.twin.leaseAt = s.twin.leaseAt
  lease : bit 0 flags = true → st = 0 ∨ st = 2 → t.twin.leaseAt = s.clk.safe
    ∧ (s.twin.acts = true → t.twin.dualRun = true ∧ (s.twin.peerTenure < s.twin.tenure → t.twin.dual = true)
      ∧ (s.twin.tenure < s.twin.peerTenure → t.twin.dual = false))

theorem WireOnly.seen {st flags : Nat} {s t u : State} (h : WireOnly t u) (k : FlagsSeen st flags s t) :
    FlagsSeen st flags s u := by
  obtain ⟨_, _, _, _, _, _, _, _, _, rfl⟩ := h
  exact ⟨k.clk, k.kept, k.expired, k.peerHome, k.peer, k.tenure, k.silent, k.lease⟩

theorem renewed_seen {st flags : Nat} {s t : State} (h : FlagsOnly (shown st flags s) t) :
    FlagsSeen st flags s (renewed st flags t) := by
  obtain ⟨x, r, o, rfl⟩ := h
  have hp : s.twin.hello ≠ [] → (if !(!s.twin.hello.isEmpty) then s.twin.peer else if st = 15 then 7 else st % 8)
      = if st = 15 then 7 else st % 8 := fun hn => by
    have : s.twin.hello.isEmpty = false := by simpa using hn
    rw [this]
    rfl
  unfold renewed
  split
  case isTrue hc =>
    have hc : bit 0 flags = true ∧ (st = 0 ∨ st = 2) := by simpa using hc
    obtain ⟨k1, k2, k3, k4, k5, k6, k7, k8, k9⟩ := renewal_renewed
      { shown st flags s with twin := { (shown st flags s).twin with hello := x, releaseAt := r, hoSeen := o } }
    refine ⟨?_, ⟨k5.1, k5.2, k3.2.2⟩, k6, k3.2.1, fun hn => k3.1.trans (hp hn), fun _ => k4,
      fun hb => absurd (hb.symm.trans hc.1) Bool.false_ne_true, fun _ _ => ⟨k2, fun ha => ⟨k7 ha, k8 ha, k9 ha⟩⟩⟩
    obtain ⟨_, _, _, _, _, e⟩ := k1
    rw [e]
    rfl
  case isFalse hc =>
    have hl : bit 0 flags = true → ¬(st = 0 ∨ st = 2) := by simpa using hc
    split
    case isTrue hs =>
      refine ⟨rfl, ⟨rfl, rfl, rfl⟩, rfl, rfl, hp, fun hn => ?_, fun _ => rfl, fun hb h2 => absurd h2 (hl hb)⟩
      have ha : s.twin.acts = false := by
        rcases hn with h | rfl | rfl
        · exact h
        · simp at hs
        · simp at hs
      unfold peerStandby shown
      dsimp only
      rw [ha, if_neg Bool.false_ne_true]
    case isFalse => exact ⟨rfl, ⟨rfl, rfl, rfl⟩, rfl, rfl, hp, fun _ => rfl, fun _ => rfl, fun hb h2 => absurd h2 (hl hb)⟩

theorem peerFlags_seen (st flags b w : Nat) (s : State) : FlagsSeen st flags s (peerFlags st flags b w s) := by
  obtain ⟨t, ht, hw⟩ := peerFlags_shape st flags b w s
  exact hw.seen (renewed_seen ht)

/-! ### LEASE and heartbeat frames -/

theorem Taken.setSafe {type : Nat} {frame : List Byte} (h : Taken type frame s) (n : Nat) :
    Taken type frame (setSafe n s) := h

/-- A LEASE frame's effect on the state that has taken it. -/
theorem leaseReceive_taken {frame : List Byte} (h : Taken 0x01 frame s) (safe : Nat) :
    leaseReceive (bytesOf frame) safe s = (let p := payload frame
      let u := tookFrame 0x01 frame (setSafe safe s)
      peerFlags (nth 0 p 0) (nth 0 p 1) (be (slice 4 8 p)) 59
        { u with twin := { u.twin with peerTenure := be (slice 12 8 p) } }) := by
  unfold leaseReceive
  rw [linkReceive_taken (h.setSafe safe) (fun c hc => absurd hc (Option.not_mem_none c)) rfl]

theorem lease_row {frame : List Byte} (h : Taken 0x01 frame s) (safe : Nat) :
    let p := payload frame
    let now := max s.clk.safe safe
    ∃ t, exec (.leaseFrame frame safe) s = .next t ∧ t.clk = { s.clk with safe := now }
      ∧ t.twin.linkAt = now ∧ t.twin.expired = s.twin.expired
      ∧ (s.twin.acts = false ∨ nth 0 p 0 = 0 ∨ nth 0 p 0 = 2 → t.twin.peerTenure = be (slice 12 8 p))
      ∧ (s.twin.hello ≠ [] → t.twin.peer = if nth 0 p 0 = 15 then 7 else nth 0 p 0 % 8)
      ∧ (bit 0 (nth 0 p 1) = true → nth 0 p 0 = 0 ∨ nth 0 p 0 = 2 → t.twin.leaseAt = now
          ∧ (s.twin.acts = true → t.twin.dualRun = true
            ∧ (be (slice 12 8 p) < s.twin.tenure → t.twin.dual = true)
            ∧ (s.twin.tenure < be (slice 12 8 p) → t.twin.dual = false)))
      ∧ (bit 0 (nth 0 p 1) = false → t.twin.leaseAt = s.twin.leaseAt) := by
  intro p now
  have k := peerFlags_seen (nth 0 p 0) (nth 0 p 1) (be (slice 4 8 p)) 59
    { tookFrame 0x01 frame (setSafe safe s) with twin := { (tookFrame 0x01 frame (setSafe safe s)).twin with
      peerTenure := be (slice 12 8 p) } }
  refine ⟨_, congrArg Host.Outcome.next (leaseReceive_taken h safe), k.clk, k.kept.1, k.expired, k.tenure, k.peer, k.lease,
    k.silent⟩

/-- A heartbeat frame is whole (R305). -/
def hbGood (w : Nat) : Prop := w / 2 ^ 56 = 0xD5 ∧ w % 256 = crc8 (beBytes 6 (w / 2 ^ 8 % 2 ^ 48))

theorem heartbeat_bad {w : Nat} (hw : w < 2 ^ 64) (h : ¬hbGood w) (safe : Nat) :
    heartbeatReceive w safe s = count 0x10030080 0 1 (setSafe safe s) := by
  have hm : w / 2 ^ 56 % 256 = w / 2 ^ 56 := by omega
  unfold heartbeatReceive
  dsimp only
  rw [hm]
  refine if_pos ?_
  by_cases h1 : w / 2 ^ 56 = 0xD5
  · have h2 : w % 256 ≠ crc8 (beBytes 6 (w / 2 ^ 8 % 2 ^ 48)) := fun e => h ⟨h1, e⟩
    simp only [ne_eq, h2, not_false_eq_true, decide_true, Bool.or_true]
  · simp only [ne_eq, h1, not_false_eq_true, decide_true, Bool.true_or]

/-- The state in which a heartbeat frame has been heard. -/
def hbHeard (flags safe : Nat) (s : State) : State :=
  { setSafe safe s with twin := { s.twin with hbAt := some (max s.clk.safe safe), peerDown := bit 6 flags } }

theorem heartbeat_good {w : Nat} (h : hbGood w) (safe : Nat) : heartbeatReceive w safe s
    = (let mid := w / 2 ^ 8 % 2 ^ 48
      let flags := mid / 2 ^ 36 % 256
      linkEdge (linkOk (setSafe safe s)) (peerFlags (mid / 2 ^ 44) flags (mid / 2 ^ 20 % 65536) 16 (hbHeard flags safe s))) := by
  obtain ⟨h1, h2⟩ := h
  unfold heartbeatReceive
  dsimp only
  rw [h1, ← h2]
  exact if_neg (by simp)

/-- The bits of FLAGS in a heartbeat frame's word. -/
theorem bit_flags {k : Nat} (h : k < 8) (w : Nat) : bit k (w / 2 ^ 8 % 2 ^ 48 / 2 ^ 36 % 256) = bit (44 + k) w := by
  unfold bit
  rw [Nat.shiftRight_eq_div_pow, Nat.shiftRight_eq_div_pow]
  congr 2
  interval_cases k <;> omega

theorem state_word (w : Nat) : w / 2 ^ 8 % 2 ^ 48 / 2 ^ 44 = w / 2 ^ 52 % 16 := by omega

theorem heartbeat_row (word : BitVec 64) (safe : Nat) (s : State) :
    let w := word.toNat
    let now := max s.clk.safe safe
    let good := w / 2 ^ 56 = 0xD5 ∧ w % 256 = crc8 (beBytes 6 (w / 2 ^ 8 % 2 ^ 48))
    (¬good → exec (.heartbeatFrame word safe) s
      = .next (count 0x10030080 0 1 { s with clk := { s.clk with safe := now } }))
    ∧ (good → ∃ t, exec (.heartbeatFrame word safe) s = .next t ∧ t.clk = { s.clk with safe := now }
      ∧ t.twin.hbAt = some now ∧ t.twin.peerDown = bit 50 w ∧ t.twin.peerHome = bit 47 w
      ∧ (bit 44 w = true → w / 2 ^ 52 % 16 = 0 ∨ w / 2 ^ 52 % 16 = 2 → t.twin.leaseAt = now)) := by
  intro w now good
  refine ⟨fun h => congrArg Host.Outcome.next (heartbeat_bad word.isLt h safe), fun h => ?_⟩
  refine ⟨_, congrArg Host.Outcome.next (heartbeat_good h safe), ?_⟩
  have k := peerFlags_seen (w / 2 ^ 8 % 2 ^ 48 / 2 ^ 44) (w / 2 ^ 8 % 2 ^ 48 / 2 ^ 36 % 256)
    (w / 2 ^ 8 % 2 ^ 48 / 2 ^ 20 % 65536) 16 (hbHeard (w / 2 ^ 8 % 2 ^ 48 / 2 ^ 36 % 256) safe s)
  have e := linkEdge_linkKept (linkOk (setSafe safe s)) (peerFlags (w / 2 ^ 8 % 2 ^ 48 / 2 ^ 44)
    (w / 2 ^ 8 % 2 ^ 48 / 2 ^ 36 % 256) (w / 2 ^ 8 % 2 ^ 48 / 2 ^ 20 % 65536) 16
    (hbHeard (w / 2 ^ 8 % 2 ^ 48 / 2 ^ 36 % 256) safe s))
  have hd : (hbHeard (w / 2 ^ 8 % 2 ^ 48 / 2 ^ 36 % 256) safe s).twin.peerDown = bit 50 w := bit_flags (by omega) w
  have hh : bit 3 (w / 2 ^ 8 % 2 ^ 48 / 2 ^ 36 % 256) = bit 47 w := bit_flags (by omega) w
  have hb : bit 0 (w / 2 ^ 8 % 2 ^ 48 / 2 ^ 36 % 256) = bit 44 w := bit_flags (by omega) w
  obtain ⟨_, hc⟩ := e.only
  refine ⟨?_, e.hbAt.trans k.kept.2.1, (e.peerDown.trans k.kept.2.2).trans hd, (e.peerHome.trans k.peerHome).trans hh,
    fun h0 h1 => e.leaseAt.trans (k.lease (hb.trans h0) ?_).1⟩
  · rw [hc]
    exact k.clk
  · rw [state_word]
    exact h1

/-- The heartbeat timer before audio runs (R305). -/
theorem heartbeatTimer_row (safe : Nat) (hr : s.grid.running = false) (hi : s.clk.inReset = false) :
    exec (.heartbeatTimer safe) s = .next { s with
      clk := { s.clk with safe := max s.clk.safe safe }
      twin := { s.twin with
        hbWord := hbFrame (stateCode s) (hbFlags s) s.grid.block s.twin.hbSeq, hbSeq := (s.twin.hbSeq + 1) % 4096 } } := by
  refine congrArg Host.Outcome.next ?_
  unfold heartbeatTimer
  exact if_neg (by simp [setSafe, hr, hi])

/-! ### Health records and NAKs -/

theorem health_row {frame : List Byte} (h : Taken 0x14 frame s) :
    exec (.healthFrame frame) s = .next { tookFrame 0x14 frame s with
      twin := { (tookFrame 0x14 frame s).twin with
        peerHealth := payload frame, peerDegraded := bit 1 (nth 0 (payload frame) 1) } } :=
  congrArg Host.Outcome.next (onFrame_taken h rfl healthReceive)

theorem nak_row {frame : List Byte} (h : Taken 0x3F frame s) :
    let n := s.twin.txq.length
    ∃ t, exec (.nakFrame frame) s = .next t
      ∧ t = { s with bus := t.bus, twin := { s.twin with txq := t.twin.txq, linkAt := s.clk.safe } }
      ∧ t.twin.txq = s.twin.txq.filter (fun f => !seqLe f.seq ((be (slice 0 2 (payload frame)) + 65535) % 65536))
      ∧ cget 0x1003007C 0 t = if t.twin.txq = [] then cget 0x1003007C 0 s
          else min (cget 0x1003007C 0 s + (min 64 n - (n - t.twin.txq.length))) 0xFFFFFFFF := by
  intro n
  have e : onFrame 0x3F frame nakReceive s = nakReceive (payload frame) (tookFrame 0x3F frame s) := onFrame_taken h rfl _
  refine ⟨_, congrArg Host.Outcome.next e, ?_⟩
  obtain ⟨u, hu⟩ : ∃ u, u = { s with twin := { s.twin with
      linkAt := s.clk.safe
      txq := s.twin.txq.filter (fun f => !seqLe f.seq ((be (slice 0 2 (payload frame)) + 65535) % 65536)) } } := ⟨_, rfl⟩
  have hn : nakReceive (payload frame) (tookFrame 0x3F frame s)
      = if u.twin.txq.isEmpty then u else resend (min 64 n - (n - u.twin.txq.length)) u := by
    rw [hu]
    rfl
  have hg : cget 0x1003007C 0 u = cget 0x1003007C 0 s := by
    rw [hu]
    rfl
  rw [hn]
  split
  case isTrue he =>
    have he : u.twin.txq = [] := by simpa using he
    rw [if_pos he, hg]
    refine ⟨?_, ?_, rfl⟩
    · rw [hu]
    · rw [hu]
  case isFalse he =>
    have he : (resend (min 64 n - (n - u.twin.txq.length)) u).twin.txq ≠ [] := fun h0 => he (List.isEmpty_iff.mpr h0)
    rw [if_neg he]
    refine ⟨?_, ?_, (cget_count_self ..).trans (congrArg (fun c => min (c + _) _) hg)⟩
    · rw [hu]
      rfl
    · rw [hu]
      rfl

/-- Settles O44: the link's edges, the renewals that frames of the partner bring, and the timer of the heartbeat line. -/
theorem twinLink : Obligations.TwinLink := by
  unfold Obligations.TwinLink
  intro s
  exact ⟨linkUp_row s, fun a b => linkDown_row a b s, linkLoss_row, linkLoss_standby, resend_row,
    fun _ safe h => lease_row h safe, fun word safe => heartbeat_row word safe s, fun safe => heartbeatTimer_row safe,
    fun _ => health_row, fun _ => nak_row⟩

end Sys2Proof.Machine
end

section
/-!
PROOF. CONTROL messages of the partner (O46).
-/
namespace Sys2Proof.Machine

variable {s : State} {frame : List Byte}

/-! ### The handshake -/

/-- What a comparison tells leaves of the twin's state all but the frames to send. -/
theorem compatEvent_told (c : Nat) (s : State) : ∃ u, WireOnly u (compatEvent c s) ∧ Sounded s u := by
  unfold compatEvent
  split
  · exact ⟨_, .refl _, raise_sounded ..⟩
  · split
    · exact ⟨_, controlSend_wire .., .refl _⟩
    · split
      · exact ⟨_, controlSend_wire .., raise_sounded ..⟩
      · exact ⟨s, .refl _, .refl _⟩

/-- What the decision of a handshake says of the twin. -/
structure HelloKept (s t : State) : Prop where
  st : t.twin.st = s.twin.st
  peer : t.twin.peer = s.twin.peer ∧ t.twin.peerDie = s.twin.peerDie ∧ t.twin.hello = s.twin.hello
  divergent : t.twin.divergent = s.twin.divergent
  shake : t.twin.starting = s.twin.starting ∧ t.twin.handshake = s.twin.handshake
  proposal : t.twin.proposal = s.twin.proposal

theorem HelloKept.refl (s : State) : HelloKept s s := ⟨rfl, ⟨rfl, rfl, rfl⟩, rfl, ⟨rfl, rfl⟩, rfl⟩
theorem HelloKept.trans {s t u : State} (h : HelloKept s t) (k : HelloKept t u) : HelloKept s u := by
  obtain ⟨h1, ⟨h2, h3, h4⟩, h5, ⟨h6, h7⟩, h8⟩ := h
  obtain ⟨k1, ⟨k2, k3, k4⟩, k5, ⟨k6, k7⟩, k8⟩ := k
  exact ⟨k1.trans h1, ⟨k2.trans h2, k3.trans h3, k4.trans h4⟩, k5.trans h5, ⟨k6.trans h6, k7.trans h7⟩, k8.trans h8⟩
theorem WireOnly.hello {s t : State} (h : WireOnly s t) : HelloKept s t := by
  obtain ⟨_, _, _, _, _, _, _, _, _, rfl⟩ := h
  exact ⟨rfl, ⟨rfl, rfl, rfl⟩, rfl, ⟨rfl, rfl⟩, rfl⟩
theorem Sounded.hello {s t : State} (h : Sounded s t) : HelloKept s t := by
  obtain ⟨_, _, _, _, _, rfl⟩ := h
  exact ⟨rfl, ⟨rfl, rfl, rfl⟩, rfl, ⟨rfl, rfl⟩, rfl⟩
theorem compatEvent_hello (c : Nat) (s : State) : HelloKept s (compatEvent c s) := by
  obtain ⟨u, hw, hs⟩ := compatEvent_told c s
  exact hs.hello.trans hw.hello

/-- A joining unit's state after the comparison. -/
theorem joinState_twin (c : Nat) (s : State) : (joinState c s).twin = { s.twin with
    starting := false, handshake := false, st := if c = 0 then 4 else 3, divergent := false, barred := decide (c ≠ 0) } := by
  unfold joinState
  dsimp only
  split
  · rw [raise_twin]
  · rfl

/-- What the comparison looks at: the image's formats, the flash's hash and TWIN.CTRL. -/
theorem compat_congr {s t : State} (hi : t.img = s.img) (hn : t.nvm = s.nvm) (hb : t.bus.regs = s.bus.regs) (b : List Nat) :
    compat b t = compat b s := by
  have hg : rget 0x10030008 0 t = rget 0x10030008 0 s := by
    unfold rget
    rw [hb]
  unfold compat
  rw [hi, hn, hg]

theorem compat_wire {s t : State} (h : WireOnly s t) (b : List Nat) : compat b t = compat b s := by
  obtain ⟨_, _, _, _, _, _, _, _, _, rfl⟩ := h
  exact compat_congr rfl rfl rfl b

/-- The state of a holder with its new partner, before it answers. -/
def joined (c : Nat) (s : State) : State := { s with twin := { s.twin with
  st := 2, peer := if c = 0 then 4 else if c = 2 then 1 else 3, divergent := decide (c = 2) } }

/-- A holder that acts takes a joining unit in (R309, R346, R550). -/
theorem helloReceive_joins {b : List Nat} (hp : s.img.twin.pair = true) (hs : s.twin.starting = false)
    (ha : s.twin.acts = true) (hb : nth 0 b 45 = 15) :
    HelloKept (joined (compat b s) (noteHello b s)) (helloReceive b s) := by
  have hc : compat b (noteHello b s) = compat b s := compat_congr rfl rfl rfl b
  have e : helloReceive b s = (let w := joined (compat b (noteHello b s)) (noteHello b s)
      let w := controlSend 0x02 (helloBody w ++ beBytes 8 (joinBlock w)) w
      compatEvent (compat b (noteHello b s)) (emitByState (w.grid.block + 1) w)) := by
    unfold helloReceive
    rw [if_neg (by simp [hp])]
    dsimp only
    rw [if_neg (show ¬(noteHello b s).twin.starting = true by simp [noteHello, hs]),
      if_pos (show ((noteHello b s).twin.acts && decide (nth 0 b 45 = 15)) = true by simp [noteHello, ha, hb])]
    rfl
  rw [e, hc]
  refine HelloKept.trans ?_ (compatEvent_hello ..)
  exact (controlSend_wire ..).hello.trans (emitByState_wire ..).hello

/-- What two starting units decide between them (R308, R309). -/
structure Decided (s t : State) : Prop where
  ended : t.twin.starting = false ∧ t.twin.handshake = false
  proposal : t.twin.proposal = max s.twin.proposal (be (slice 52 8 s.twin.hello))
  home : s.twin.home = true → s.twin.peerHome = false → t.twin.st = 2
  away : s.twin.home = false → s.twin.peerHome = true → t.twin.st = if compat s.twin.hello s = 0 then 4 else 3

theorem jointDecide_decided (s : State) : Decided s (jointDecide s) := by
  unfold jointDecide
  extract_lets b c u first _ v _ j
  have hu : u.twin = s.twin := by
    unfold u
    split
    · rw [raise_twin]
    · rfl
  have hw : v.twin = { s.twin with proposal := first } := by
    show { u.twin with proposal := first } = _
    rw [hu]
  clear_value v
  have hf : v.twin.proposal = max s.twin.proposal (be (slice 52 8 s.twin.hello)) := by
    rw [hw]
    show max u.twin.proposal _ = _
    rw [hu]
  have hwin : winsStart v = if s.twin.home = s.twin.peerHome then decide (ownDie < s.twin.peerDie) else s.twin.home := by
    unfold winsStart
    rw [hw]
  split
  case isTrue h =>
    obtain ⟨k1, -, -, ⟨k2, k3⟩, k4⟩ := compatEvent_hello c { v with twin := { v.twin with
      starting := false, handshake := false, st := 2, peer := if c = 0 then 4 else if c = 2 then 1 else 3
      divergent := decide (c = 2) } }
    refine ⟨⟨k2, k3⟩, k4.trans hf, fun _ _ => k1, fun h0 h1 => ?_⟩
    rw [hwin, h0, h1] at h
    exact absurd h (by simp)
  case isFalse h =>
    have hj : j.twin = _ := joinState_twin c { v with twin := { v.twin with peer := 2 } }
    clear_value j
    have hh : s.twin.home = true → s.twin.peerHome = false → False := fun h0 h1 => by
      rw [hwin, h0, h1] at h
      exact h (by simp)
    have k : Decided s j := by
      refine ⟨?_, ?_, fun h0 h1 => absurd (hh h0 h1) id, fun _ _ => ?_⟩
      · rw [hj]
        exact ⟨rfl, rfl⟩
      · rw [hj]
        exact hf
      · rw [hj]
    split
    · exact ⟨k.ended, k.proposal, k.home, k.away⟩
    · exact k

/-- A unit that waits for the handshake answers a HELLO of another one and both decide. -/
theorem helloReceive_decides {b : List Nat} (hp : s.img.twin.pair = true) (hs : s.twin.starting = true)
    (hh : s.twin.handshake = true) (hb : nth 0 b 45 = 15) :
    ∃ v, WireOnly (noteHello b s) v ∧ helloReceive b s = jointDecide v := by
  refine ⟨_, controlSend_wire 0x02 (helloBody (noteHello b s) ++ beBytes 8 0) _, ?_⟩
  unfold helloReceive
  rw [if_neg (by simp [hp])]
  dsimp only
  rw [if_pos (show (noteHello b s).twin.starting = true from hs),
    if_pos (show ((noteHello b s).twin.handshake && decide (nth 0 b 45 = 15)) = true by simp [noteHello, hh, hb])]

/-- The state that has taken a CONTROL message compares as before. -/
theorem compat_took (b : List Nat) (type : Nat) (frame : List Byte) (s : State) :
    compat b (tookFrame type frame s) = compat b s := compat_congr rfl rfl rfl b

theorem hello_row (h : Taken 0x15 frame s) (hc : nth 0 (payload frame) 0 = 0x01) (hp : s.img.twin.pair = true) :
    let b := (payload frame).drop 4
    let c := compat b s
    (s.twin.starting = false → s.twin.acts = true → nth 0 b 45 = 15 → ∃ t, exec (.hello frame) s = .next t
      ∧ t.twin.st = 2 ∧ t.twin.peer = (if c = 0 then 4 else if c = 2 then 1 else 3) ∧ t.twin.divergent = decide (c = 2)
      ∧ t.twin.hello = b ∧ t.twin.peerDie = be (slice 36 8 b))
    ∧ (s.twin.starting = true → s.twin.handshake = true → nth 0 b 45 = 15 → ∃ t, exec (.hello frame) s = .next t
      ∧ t.twin.starting = false ∧ t.twin.handshake = false
      ∧ t.twin.proposal = max s.twin.proposal (be (slice 52 8 b))
      ∧ (s.twin.home = true → bit 0 (nth 0 b 44) = false → t.twin.st = 2)
      ∧ (s.twin.home = false → bit 0 (nth 0 b 44) = true → t.twin.st = if c = 0 then 4 else 3)) := by
  intro b c
  refine ⟨fun hs ha hb => ?_, fun hs hh hb => ?_⟩
  · refine ⟨_, congrArg Host.Outcome.next (onControl_taken h hc helloReceive), ?_⟩
    obtain ⟨k1, ⟨k2, k3, k4⟩, k5, -, -⟩ := helloReceive_joins (s := tookFrame 0x15 frame s) hp hs ha hb
    rw [compat_took] at k1 k2 k3 k4 k5
    exact ⟨k1, k2, k5, k4, k3⟩
  · refine ⟨_, congrArg Host.Outcome.next (onControl_taken h hc helloReceive), ?_⟩
    obtain ⟨v, hw, e⟩ := helloReceive_decides (s := tookFrame 0x15 frame s) hp hs hh hb
    have hcv : compat v.twin.hello v = compat b s := by
      rw [compat_wire hw]
      obtain ⟨_, _, _, _, _, _, _, _, _, rfl⟩ := hw
      exact compat_congr rfl rfl rfl b
    obtain ⟨⟨k1, k2⟩, k3, k4, k5⟩ := jointDecide_decided v
    rw [hcv] at k5
    rw [e]
    obtain ⟨_, _, _, _, _, _, _, _, _, rfl⟩ := hw
    exact ⟨k1, k2, k3, k4, k5⟩

theorem helloReply_row (h : Taken 0x15 frame s) (hc : nth 0 (payload frame) 0 = 0x02) (hp : s.img.twin.pair = true)
    (hs : s.twin.starting = true) (hh : s.twin.handshake = true) (hj : be (slice 68 8 ((payload frame).drop 4)) ≠ 0) :
    let b := (payload frame).drop 4
    ∃ t, exec (.helloReply frame) s = .next t
      ∧ t.twin.starting = false ∧ t.twin.handshake = false ∧ t.twin.proposal = be (slice 68 8 b)
      ∧ t.twin.peer = nth 0 b 45 % 8 ∧ t.twin.st = if compat b s = 0 then 4 else 3 := by
  intro b
  refine ⟨_, congrArg Host.Outcome.next (onControl_taken h hc helloReply), ?_⟩
  have e : helloReply b (tookFrame 0x15 frame s) = joinState (compat b s) { noteHello b (tookFrame 0x15 frame s) with
      twin := { (noteHello b (tookFrame 0x15 frame s)).twin with
        proposal := be (slice 68 8 b), peer := nth 0 b 45 % 8 } } := by
    have hcv : compat b (noteHello b (tookFrame 0x15 frame s)) = compat b s := compat_congr rfl rfl rfl b
    rw [← hcv]
    unfold helloReply
    rw [if_neg (by simp [tookFrame, hp, hs, hh])]
    dsimp only
    exact if_neg hj
  rw [e, joinState_twin]
  exact ⟨rfl, rfl, rfl, rfl, rfl⟩

/-! ### Hand-over, release and take-back -/

theorem handover_row (h : Taken 0x15 frame s) (hc : nth 0 (payload frame) 0 = 0x03) (h1 : s.twin.st = 1)
    (ha : s.twin.acts = false) (hs : s.twin.starting = false) : ∃ t, exec (.handover frame) s = .next t
      ∧ t = { s with twin := t.twin } ∧ t.twin.hoAck = some (be (slice 0 8 ((payload frame).drop 4)))
      ∧ t.twin.hoSeen = false := by
  refine ⟨_, congrArg Host.Outcome.next (onControl_taken h hc handoverReceive), ?_⟩
  unfold handoverReceive
  rw [if_pos (by simp [tookFrame, h1, ha, hs])]
  dsimp only
  obtain ⟨_, _, _, _, _, _, _, _, _, e⟩ := controlSend_wire 0x04 (beBytes 8 (be (slice 0 8 ((payload frame).drop 4))))
    { tookFrame 0x15 frame s with twin := { (tookFrame 0x15 frame s).twin with
      hoAck := some (be (slice 0 8 ((payload frame).drop 4))), hoSeen := false } }
  rw [e]
  exact ⟨rfl, rfl, rfl⟩

theorem handoverAck_row (h : Taken 0x15 frame s) (n : Nat) (hc : nth 0 (payload frame) 0 = 0x04)
    (hh : s.twin.handover = some ⟨n, 1⟩) (hb : be (slice 0 8 ((payload frame).drop 4)) = n) :
    exec (.handoverAck frame) s = .next { tookFrame 0x15 frame s with
      twin := { (tookFrame 0x15 frame s).twin with handover := some ⟨n, 2⟩ } } := by
  refine congrArg Host.Outcome.next ((onControl_taken h hc handoverAck).trans ?_)
  have ht : (tookFrame 0x15 frame s).twin.handover = some ⟨n, 1⟩ := hh
  unfold handoverAck
  rw [ht]
  exact if_pos hb

theorem release_row (h : Taken 0x15 frame s) (hc : nth 0 (payload frame) 0 = 0x05) (hs : standby s = true) :
    exec (.release frame) s = .next { tookFrame 0x15 frame s with
      twin := { (tookFrame 0x15 frame s).twin with releaseAt := some (be (slice 0 8 ((payload frame).drop 4))) } } :=
  congrArg Host.Outcome.next ((onControl_taken h hc releaseReceive).trans
    (if_pos (show standby (tookFrame 0x15 frame s) = true from hs)))

theorem takeback_row (h : Taken 0x15 frame s) (hc : nth 0 (payload frame) 0 = 0x06) (ha : s.twin.acts = true) :
    ∃ t, exec (.takeback frame) s = .next t ∧ t = { s with twin := t.twin }
      ∧ t.twin.handover = if bit 0 (rget 0x10030008 0 s) && !s.twin.degraded && !s.twin.peerDegraded && !s.twin.divergent
          && decide (s.twin.peer = 1) && s.twin.handover.isNone then some ⟨s.grid.block + 8, 1⟩ else s.twin.handover := by
  refine ⟨_, congrArg Host.Outcome.next (onControl_taken h hc (fun _ t => takebackReceive t)), ?_⟩
  obtain ⟨u, hu⟩ : ∃ u, u = tookFrame 0x15 frame s := ⟨_, rfl⟩
  have hg : rget 0x10030008 0 u = rget 0x10030008 0 s := by
    rw [hu]
    rfl
  have hr : takebackReceive u = if bit 0 (rget 0x10030008 0 s) && !s.twin.degraded && !s.twin.peerDegraded
      && !s.twin.divergent && decide (s.twin.peer = 1) && s.twin.handover.isNone then handoverBegin (s.grid.block + 8) u
      else controlSend 0x07 [] u := by
    rw [← hg]
    unfold takebackReceive
    rw [if_neg (by simp [hu, tookFrame, ha]), hu]
    rfl
  rw [← hu, hr]
  split
  · obtain ⟨_, _, _, _, _, _, _, _, _, e⟩ := handoverBegin_wire (s.grid.block + 8) u
    rw [e, hu]
    exact ⟨rfl, rfl⟩
  · obtain ⟨_, _, _, _, _, _, _, _, _, e⟩ := controlSend_wire 0x07 [] u
    rw [e, hu]
    exact ⟨rfl, rfl⟩

theorem takebackRefused_row (h : Taken 0x15 frame s) (hc : nth 0 (payload frame) 0 = 0x07) :
    exec (.takebackRefused frame) s = .next { tookFrame 0x15 frame s with
      twin := { (tookFrame 0x15 frame s).twin with latentAt := s.grid.block } } :=
  congrArg Host.Outcome.next (onControl_taken h hc (fun _ t => takebackRefused t))

theorem emit_row (h : Taken 0x15 frame s) (hc : nth 0 (payload frame) 0 = 0x08) (ha : s.twin.acts = false)
    (hs : s.twin.starting = false) (hn : s.twin.hoAck ≠ some (be (slice 0 8 ((payload frame).drop 4)))) :
    let b := (payload frame).drop 4
    let u := tookFrame 0x15 frame s
    ∃ t, exec (.emit frame) s = .next t ∧ t = { u with twin := { u.twin with
      emitLog := t.twin.emitLog, emitAt := some (be (slice 0 8 b), false, bit 1 (nth 0 b 8)) } } := by
  intro b u
  have e : emitReceive b u = emitPlan (be (slice 0 8 b)) false (bit 1 (nth 0 b 8)) u :=
    if_neg (by simp [u, b, tookFrame, ha, hs, hn])
  refine ⟨_, congrArg Host.Outcome.next ((onControl_taken h hc emitReceive).trans e), rfl⟩

/-! ### The bulk phase and the declared-divergent mode -/

theorem resyncRequest_row (h : Taken 0x15 frame s) (hc : nth 0 (payload frame) 0 = 0x09) (ha : s.twin.acts = true)
    (hp : hasPartner s = true) (hd : s.twin.divergent = false) : ∃ t, exec (.resyncRequest frame) s = .next t
      ∧ t = { s with twin := t.twin } ∧ t.twin.plan = planStart (s.grid.block + 1) s := by
  refine ⟨_, congrArg Host.Outcome.next (onControl_taken h hc (fun _ t => bulkSend t)), ?_⟩
  obtain ⟨u, hu⟩ : ∃ u, u = tookFrame 0x15 frame s := ⟨_, rfl⟩
  have hh : hasPartner u = true := by
    rw [hu]
    exact hp
  have e : ∃ v, WireOnly u v ∧ bulkSend u = { v with twin := { v.twin with plan := planStart (v.grid.block + 1) v } } := by
    unfold bulkSend
    rw [if_neg (by simp [hh, show u.twin.acts = true by rw [hu]; exact ha, show u.twin.divergent = false by rw [hu]; exact hd])]
    exact ⟨_, (WireOnly.foldl (fun _ _ => linkSend_wire ..) _ _).trans (controlSend_wire ..), rfl⟩
  obtain ⟨v, ⟨_, _, _, _, _, _, _, _, _, hv⟩, e⟩ := e
  rw [← hu, e, hv, hu]
  exact ⟨rfl, rfl⟩

theorem bulkEnd_row (h : Taken 0x15 frame s) (hc : nth 0 (payload frame) 0 = 0x0A) (hk : keepsMirror s = true)
    (hp : s.twin.phase = 1) : exec (.bulkEnd frame) s = .next { tookFrame 0x15 frame s with
      twin := { (tookFrame 0x15 frame s).twin with bulkEnd := some (be (slice 0 4 ((payload frame).drop 4))) } } := by
  have hm : keepsMirror (tookFrame 0x15 frame s) = true := hk
  refine congrArg Host.Outcome.next ((onControl_taken h hc bulkEndReceive).trans (if_pos ?_))
  rw [hm]
  simp [tookFrame, hp]

theorem divergent_row (h : Taken 0x15 frame s) (hc : nth 0 (payload frame) 0 = 0x0B) (ha : s.twin.acts = false)
    (hs : s.twin.starting = false) :
    let b := (payload frame).drop 4
    let u := tookFrame 0x15 frame s
    (bit 0 (nth 0 b 0) = true → s.twin.st = 3 ∨ s.twin.st = 4 → exec (.divergent frame) s = .next { u with
      twin := { u.twin with divergent := true, barred := false, st := 1, phase := 0, latentAt := s.grid.block } })
    ∧ (bit 0 (nth 0 b 0) = false → s.twin.divergent = true → s.twin.st = 1 →
      ∃ t, exec (.divergent frame) s = .next t ∧ t.twin.divergent = false ∧ t.twin.st = 4 ∧ t.twin.phase = 1)
    ∧ (bit 0 (nth 0 b 0) = false → s.twin.divergent = false → s.twin.barred = true →
      ∃ t, exec (.divergent frame) s = .next t ∧ Heard u t ∧ Rings 0x4D s t) := by
  intro b u
  have e : ∀ t, divergentReceive b u = t → exec (.divergent frame) s = .next t := fun t ht =>
    congrArg Host.Outcome.next ((onControl_taken h hc divergentReceive).trans ht)
  have hn : ¬(u.twin.acts || u.twin.starting) = true := by simp [u, tookFrame, ha, hs]
  refine ⟨fun hb hst => e _ ?_, fun hb hd h1 => ?_, fun hb hd hr => ?_⟩
  · unfold divergentReceive
    dsimp only
    rw [if_neg hn, if_pos hb, if_pos (by simpa [u, tookFrame] using hst)]
    rfl
  · refine ⟨_, e _ rfl, ?_⟩
    have hv : divergentReceive b u = enterResync false { u with twin := { u.twin with divergent := false } } := by
      unfold divergentReceive
      dsimp only
      rw [if_neg hn, if_neg (by rw [hb]; exact Bool.false_ne_true), if_pos (show u.twin.divergent = true from hd)]
      exact if_pos h1
    obtain ⟨_, _, _, _, _, _, _, _, _, k⟩ := enterResync_wire false { u with twin := { u.twin with divergent := false } }
    rw [hv, k]
    exact ⟨rfl, rfl, rfl⟩
  · have hv : divergentReceive b u = raise 0x4D 0 u := by
      unfold divergentReceive
      dsimp only
      rw [if_neg hn, if_neg (by rw [hb]; exact Bool.false_ne_true),
        if_neg (show ¬u.twin.divergent = true by rw [show u.twin.divergent = false from hd]; exact Bool.false_ne_true)]
      exact if_pos hr
    exact ⟨_, e _ hv, (raise_sounded ..).heard, rings_raise (by decide) ..⟩

/-- Settles O46: each CONTROL message on the state that has taken its frame. -/
theorem controlMessages : Obligations.ControlMessages := by
  unfold Obligations.ControlMessages
  intro s frame h
  exact ⟨hello_row h, helloReply_row h, handover_row h, handoverAck_row h, release_row h, takeback_row h,
    takebackRefused_row h, emit_row h, resyncRequest_row h, bulkEnd_row h, fun hc => divergent_row h hc⟩

end Sys2Proof.Machine
end

section
/-!
PROOF. The token, TWIN.CMD and hand-over (O47).
-/
namespace Sys2Proof.Machine

variable {s : State}

/-! ### Beginning and ending to act -/

theorem DomainsOnly.foldl {α : Type} {f : State → α → State} (h : ∀ s x, DomainsOnly s (f s x)) (xs : List α) (s : State) :
    DomainsOnly s (xs.foldl f s) := by
  induction xs generalizing s with
  | nil => exact .refl s
  | cons x xs ih => exact (h s x).trans (ih _)

theorem PendUp.foldl {α : Type} {f : State → α → State} (h : ∀ s x, PendUp s (f s x)) (xs : List α) (s : State) :
    PendUp s (xs.foldl f s) := by
  induction xs generalizing s with
  | nil => exact .refl s
  | cons x xs ih => exact (h s x).trans (ih _)

/-- A unit that stops acting leaves the lead of the PTP domains, and changes nothing else (R310). -/
theorem stopActing_domains (s : State) : DomainsOnly { s with twin := { s.twin with acts := false } } (stopActing s) :=
  .foldl (fun _ _ => .ite (domDecide_domains ..) (.refl _)) ..

theorem leadersTakeover_sap (s : State) : ∃ a, leadersTakeover s = { s with sap := a } := by
  unfold leadersTakeover
  induction List.range 24 generalizing s with
  | nil => exact ⟨s.sap, rfl⟩
  | cons g l ih =>
    rw [List.foldl_cons]
    split
    · obtain ⟨a, ha⟩ := ih (grpSet g { grpGet g s with aligned := true, ever := true, next := s.B * s.grid.block } s)
      exact ⟨a, ha⟩
    · exact ih s

/-- The state of a unit that begins to act, before it takes the lead of frames and of time (R310). -/
def acting (s : State) : State := { s with twin := { s.twin with
  acts := true, tenure := s.grid.block, expired := false, releaseAt := none, hoAck := none, hoSeen := false
  dualRun := false, renewAt := s.clk.safe } }

theorem startActing_domains (s : State) : ∃ a, DomainsOnly { acting s with sap := a } (startActing s) := by
  obtain ⟨a, ha⟩ := leadersTakeover_sap (acting s)
  have h : DomainsOnly (leadersTakeover (acting s)) (startActing s) := .foldl (fun _ _ => domDecide_domains ..) ..
  rw [ha] at h
  exact ⟨a, h⟩

theorem startActing_pendUp (s : State) : PendUp s (startActing s) := by
  obtain ⟨a, ha⟩ := leadersTakeover_sap (acting s)
  have h : PendUp (leadersTakeover (acting s)) (startActing s) := .foldl (fun _ _ => domDecide_pendUp ..) ..
  rw [ha] at h
  refine PendUp.trans ?_ h
  exact .of_ev rfl

theorem startActing_counted (s : State) : Counted tokenCounters s (startActing s) := by
  obtain ⟨a, ha⟩ := leadersTakeover_sap (acting s)
  have h : Counted tokenCounters (leadersTakeover (acting s)) (startActing s) := .foldl (fun _ _ => domDecide_counted ..) ..
  rw [ha] at h
  refine Counted.trans ?_ h
  exact .of_bus rfl

theorem WireOnly.pendUp {s t : State} (h : WireOnly s t) : PendUp s t := by
  obtain ⟨_, _, _, _, _, _, _, _, _, rfl⟩ := h
  exact .of_ev rfl

/-! ### The lease -/

theorem leaseExpiry_row (h : standby s = true) : exec .leaseExpiry s
    = .next (setSafe (s.twin.leaseAt + leaseLimit s) { s with twin := { s.twin with expired := true } }) :=
  congrArg Host.Outcome.next (if_pos h)

/-- The events of a takeover by a standby unit whose lease has run out (R307, R315). -/
def takeoverTold (s : State) : State := raiseTick 0x40 0 (if s.twin.st = 1 then s else raiseTick 0x41 0 s)

theorem takeoverTold_sounded (s : State) : Sounded s (takeoverTold s) :=
  (Sounded.ite (.refl s) (raiseAt_sounded ..)).trans (raiseAt_sounded ..)

theorem takeoverTold_same (s : State) : (takeoverTold s).grid = s.grid ∧ (takeoverTold s).mem = s.mem
    ∧ (takeoverTold s).pending = s.pending ∧ (takeoverTold s).twin = s.twin := by
  obtain ⟨_, _, _, _, _, h⟩ := takeoverTold_sounded s
  rw [h]
  exact ⟨rfl, rfl, rfl, rfl⟩

theorem takeoverTold_pend (s : State) : (takeoverTold s).ev.pend.getLsbD 0x40 = true
    ∧ (s.twin.st ≠ 1 → (takeoverTold s).ev.pend.getLsbD 0x41 = true) := by
  unfold takeoverTold
  rw [raiseTick_pend]
  refine ⟨?_, fun h => ?_⟩
  · rw [BitVec.getLsbD_or, show ((1#256 <<< (0x40 % 256)).getLsbD 0x40) = true by decide, Bool.or_true]
  · rw [if_neg h, raiseTick_pend, BitVec.getLsbD_or, BitVec.getLsbD_or,
      show ((1#256 <<< (0x41 % 256)).getLsbD 0x41) = true by decide, Bool.or_true, Bool.true_or]

theorem emitByState_token (e : Nat) (s : State) : let t := emitByState e s
    t.twin.acts = s.twin.acts ∧ t.twin.st = s.twin.st ∧ t.twin.peer = s.twin.peer ∧ t.twin.tenure = s.twin.tenure
      ∧ t.twin.expired = s.twin.expired ∧ t.mem = s.mem ∧ t.pending = s.pending := ⟨rfl, rfl, rfl, rfl, rfl, rfl, rfl⟩

theorem takeover_row (he : s.twin.expired = true) (hs : standby s = true) (hr : s.grid.running = true) :
    ∃ t, exec .takeover s = .next t
      ∧ t.twin.acts = true ∧ t.twin.st = 0 ∧ t.twin.peer = 7 ∧ t.twin.tenure = s.grid.block ∧ t.twin.expired = false
      ∧ t.twin.emitA = true ∧ t.twin.emitB = true ∧ t.mem = s.mem ∧ t.pending = s.pending
      ∧ t.ev.pend.getLsbD 0x40 = true ∧ (s.twin.st ≠ 1 → t.ev.pend.getLsbD 0x41 = true) := by
  obtain ⟨u, hu⟩ : ∃ u, u = { takeoverTold s with twin := { (takeoverTold s).twin with
    st := 0, peer := 7, hello := [], phase := 0 } } := ⟨_, rfl⟩
  have e : takeover s = emitByState u.grid.block (startActing u) := by
    rw [hu]
    exact if_pos (by simp [he, hs, hr])
  have hst : s.twin.starting = false := by
    unfold standby at hs
    simp only [Bool.and_eq_true, Bool.not_eq_true'] at hs
    exact hs.1.1.2
  obtain ⟨p0, p1⟩ := takeoverTold_pend s
  refine ⟨_, rfl, ?_⟩
  rw [e]
  have hpu : PendUp (takeoverTold s) (emitByState u.grid.block (startActing u)) := by
    refine PendUp.trans ?_ ((startActing_pendUp u).trans (emitByState_wire ..).pendUp)
    rw [hu]
    exact .of_ev rfl
  obtain ⟨g1, g2, g3, g4⟩ := takeoverTold_same s
  rw [g4] at hu
  obtain ⟨a, _, _, _, _, _, _, _, _, hd⟩ := startActing_domains u
  have hem : emissionOf (startActing u) = (true, true) := by
    rw [hd]
    unfold emissionOf
    simp [acting, hu, hst]
  obtain ⟨ea, eb⟩ := emitByState_emits u.grid.block (startActing u)
  rw [hem] at ea eb
  have key : (startActing u).twin.acts = true ∧ (startActing u).twin.st = 0 ∧ (startActing u).twin.peer = 7
      ∧ (startActing u).twin.tenure = s.grid.block ∧ (startActing u).twin.expired = false
      ∧ (startActing u).mem = s.mem ∧ (startActing u).pending = s.pending := by
    rw [hd]
    refine ⟨rfl, ?_, ?_, ?_, rfl, ?_, ?_⟩
    · exact congrArg (fun x : State => x.twin.st) hu
    · exact congrArg (fun x : State => x.twin.peer) hu
    · exact (congrArg (fun x : State => x.grid.block) hu).trans (congrArg Grid.block g1)
    · exact (congrArg State.mem hu).trans g2
    · exact (congrArg State.pending hu).trans g3
  obtain ⟨k1, k2, k3, k4, k5, k6, k7⟩ := key
  obtain ⟨m1, m2, m3, m4, m5, m6, m7⟩ := emitByState_token u.grid.block (startActing u)
  exact ⟨m1.trans k1, m2.trans k2, m3.trans k3, m4.trans k4, m5.trans k5, ea, eb, m6.trans k6, m7.trans k7,
    hpu.kept _ p0, fun h => hpu.kept _ (p1 h)⟩

theorem ownLeaseGuard_row (ha : s.twin.acts = true) (hp : s.img.twin.pair = true) :
    ∃ t, exec .ownLeaseGuard s = .next t
      ∧ t.clk = { s.clk with safe := max s.clk.safe (s.twin.renewAt + ownGuard s + 1) }
      ∧ t.twin = { s.twin with acts := false } ∧ t.grid = s.grid ∧ t.mem = s.mem := by
  have e : leaseGuard s = stopActing (setSafe (s.twin.renewAt + ownGuard s + 1) s) := if_pos (by simp [ha, hp])
  obtain ⟨_, _, _, _, _, _, _, _, h⟩ := stopActing_domains (setSafe (s.twin.renewAt + ownGuard s + 1) s)
  refine ⟨_, congrArg Host.Outcome.next e, ?_⟩
  rw [h]
  exact ⟨rfl, rfl, rfl, rfl⟩

theorem heartbeatsMissing_row (h2 : s.twin.st = 2) (hs : s.twin.starting = false) :
    (s.twin.acts = true → ∃ t, exec .heartbeatsMissing s = .next t
      ∧ t = { setSafe (max s.twin.linkAt (s.twin.hbAt.getD 0) + leaseLimit s) s with twin := t.twin }
      ∧ t.twin.st = 0 ∧ t.twin.peer = 7 ∧ t.twin.hello = [] ∧ t.twin.handover = none
      ∧ t.twin.emitA = true ∧ t.twin.emitB = true)
    ∧ (s.twin.acts = false → exec .heartbeatsMissing s = .next s) := by
  refine ⟨fun ha => ?_, fun ha => congrArg Host.Outcome.next (if_neg (by simp [ha]))⟩
  obtain ⟨u, hu⟩ : ∃ u, u = (let v := setSafe (max s.twin.linkAt (s.twin.hbAt.getD 0) + leaseLimit s) s
      { v with twin := { v.twin with st := 0, peer := 7, hello := [], handover := none } }) := ⟨_, rfl⟩
  have e : heartbeatsMissing s = emitByState (u.grid.block + 1) u := by
    rw [hu]
    exact if_pos (by simp [h2, ha, hs])
  have hem : emissionOf u = (true, true) := by
    rw [hu]
    simp [emissionOf, setSafe, hs, ha]
  obtain ⟨ea, eb⟩ := emitByState_emits (u.grid.block + 1) u
  rw [hem] at ea eb
  refine ⟨_, congrArg Host.Outcome.next e, ?_, ?_, ?_, ?_, ?_, ea, eb⟩
  · rw [hu]
    rfl
  · rw [hu]
    rfl
  · rw [hu]
    rfl
  · rw [hu]
    rfl
  · rw [hu]
    rfl

/-! ### TWIN.CMD -/

/-- An acting unit with a partner gives the token away and stops emitting (R317). -/
theorem tokenRelease_released (ha : s.twin.acts = true) (hp : hasPartner s = true) (fault : Nat) :
    let t := tokenRelease fault s
    t.twin.acts = false ∧ t.twin.st = 3 ∧ t.twin.releasing = true ∧ t.twin.emitA = false ∧ t.twin.emitB = false
      ∧ t.twin.cmdSeq = s.twin.cmdSeq ∧ t.mem = s.mem := by
  obtain ⟨u, hu⟩ : ∃ u, u = { stopActing s with twin := { (stopActing s).twin with
    st := 3, phase := 0, releasing := true, handover := none } } := ⟨_, rfl⟩
  obtain ⟨v, hv⟩ : ∃ v, v = controlSend 0x05 (beBytes 8 (s.grid.block + 1) ++ [fault, 0, 0, 0]) (hbSend u) := ⟨_, rfl⟩
  have e : tokenRelease fault s = raise 0x44 0 (logEntry 6 fault (emitByState (s.grid.block + 1) v)) := by
    rw [hv, hu]
    exact if_neg (by simp [ha, hp])
  have hw : WireOnly u v := by
    rw [hv]
    exact (hbSend_wire u).trans (controlSend_wire ..)
  obtain ⟨_, _, _, _, _, _, _, _, hd⟩ := stopActing_domains s
  rw [hd] at hu
  obtain ⟨_, _, _, _, _, _, _, _, _, hw⟩ := hw
  rw [hu] at hw
  have hem : emissionOf v = (false, false) := by
    rw [hw]
    simp [emissionOf]
  obtain ⟨ea, eb⟩ := emitByState_emits (s.grid.block + 1) v
  rw [hem] at ea eb
  have key : v.twin.acts = false ∧ v.twin.st = 3 ∧ v.twin.releasing = true ∧ v.twin.cmdSeq = s.twin.cmdSeq
      ∧ v.mem = s.mem := by
    rw [hw]
    exact ⟨rfl, rfl, rfl, rfl, rfl⟩
  obtain ⟨k1, k2, k3, k4, k5⟩ := key
  intro t
  have ht : t.twin = (emitByState (s.grid.block + 1) v).twin := by
    unfold t
    rw [e, raise_twin]
    rfl
  have hm : t.mem = v.mem := by
    unfold t
    rw [e, raise_mem]
    rfl
  rw [ht, hm]
  exact ⟨k1, k2, k3, ea, eb, k4, k5⟩

theorem twinCmd_served {m : Nat} (h : Serves m 0x1003000C true s) {v : Nat} (hv : v < 2 ^ 32) :
    busWrite m 0x1003000C v s = twinCmdWrite m v (answered m s) := busWrite_wo h (by decide) hv

theorem twinCmdRelease_eq {m : Nat} (hm : m < 5) (h : Serves m 0x1003000C true s) :
    exec (.twinCmdRelease m) s = .next (cmdRelease (cmdCount (answered m s))) :=
  withInstance_next.mpr ⟨hm, Eq.symm (twinCmd_served h (by decide))⟩
theorem twinCmdHandover_eq {m : Nat} (hm : m < 5) (h : Serves m 0x1003000C true s) :
    exec (.twinCmdHandover m) s = .next (cmdHandover m (cmdCount (answered m s))) :=
  withInstance_next.mpr ⟨hm, Eq.symm (twinCmd_served h (by decide))⟩
theorem twinCmdRestart_eq {m : Nat} (hm : m < 5) (h : Serves m 0x1003000C true s) :
    exec (.twinCmdRestart m) s = .next (restart (cmdCount (answered m s))) :=
  withInstance_next.mpr ⟨hm, Eq.symm (twinCmd_served h (by decide))⟩
theorem twinCmdResync_eq {m : Nat} (hm : m < 5) (h : Serves m 0x1003000C true s) :
    exec (.twinCmdResync m) s = .next (cmdResync (cmdCount (answered m s))) :=
  withInstance_next.mpr ⟨hm, Eq.symm (twinCmd_served h (by decide))⟩

/-- A restart resets the device, after the token's release where a LATENT partner stands by (R318). -/
theorem restart_resetOf {s u : State} (h : s.clk.inReset = false) (hu : TwinEvent s u) :
    ResetOf 32 s (restart u) ∧ (restart u).clk.inReset = true := by
  have hr : u.clk.inReset = false := by
    obtain ⟨_, _, _, _, _, _, rfl⟩ := hu
    exact h
  refine ⟨resetOf_of_event hu ?_, resetDevice_inReset ..⟩
  unfold restart
  split
  · exact released_resetOf hr ..
  · exact resetDevice_resetOf hr ..

theorem twinCmd_row {m : Nat} (hm : m < 5) (h : Serves m 0x1003000C true s) :
    let seq := (s.twin.cmdSeq + 1) % 65536
    let told := fun (code : Nat) => { answered m s with twin := { s.twin with cmdSeq := seq, cmdCode := code } }
    (s.twin.acts = false → exec (.twinCmdRelease m) s = .next (told 5) ∧ exec (.twinCmdHandover m) s = .next (told 5))
    ∧ (s.twin.acts = true → hasPartner s = false →
        exec (.twinCmdRelease m) s = .next (told 1) ∧ exec (.twinCmdHandover m) s = .next (told 1))
    ∧ (s.twin.acts = true → hasPartner s = true →
        (∃ t, exec (.twinCmdRelease m) s = .next t ∧ t.twin.acts = false ∧ t.twin.st = 3 ∧ t.twin.releasing = true
          ∧ t.twin.emitA = false ∧ t.twin.emitB = false ∧ t.twin.cmdCode = 0 ∧ t.twin.cmdSeq = seq ∧ t.mem = s.mem)
        ∧ (s.twin.hoWait.isSome = true → exec (.twinCmdHandover m) s = .next (told 4))
        ∧ (s.twin.hoWait = none → exec (.twinCmdHandover m) s = .next { answered m s with twin := { s.twin with
            cmdSeq := seq, cmdCode := 0
            hoWait := some (rget 0x10030010 m s + (rget 0x10030014 m s % 2 ^ 27) * 2 ^ 32) } }))
    ∧ (∃ t, exec (.twinCmdRestart m) s = .next t ∧ ResetOf 32 s t ∧ t.clk.inReset = true)
    ∧ (∃ t, exec (.twinCmdResync m) s = .next t ∧ t = { answered m s with twin := t.twin } ∧ t.twin.cmdSeq = seq
        ∧ t.twin.cmdCode = s.twin.cmdCode ∧ t.twin.st = s.twin.st
        ∧ t.twin.phase = if s.twin.st = 4 ∧ s.twin.starting = false ∧ s.twin.acts = false ∧ s.twin.divergent = false
            then 1 else s.twin.phase) := by
  intro seq told
  obtain ⟨u, hu⟩ : ∃ u, u = cmdCount (answered m s) := ⟨_, rfl⟩
  have hua : u.twin.acts = s.twin.acts := by rw [hu]; rfl
  have hup : hasPartner u = hasPartner s := by rw [hu]; rfl
  have huw : u.twin.hoWait = s.twin.hoWait := by rw [hu]; rfl
  rw [twinCmdRelease_eq hm h, twinCmdHandover_eq hm h, twinCmdRestart_eq hm h, twinCmdResync_eq hm h, ← hu]
  refine ⟨fun ha => ?_, fun ha hp => ?_, fun ha hp => ⟨?_, fun hw => ?_, fun hw => ?_⟩, ?_, ?_⟩
  · refine ⟨congrArg Host.Outcome.next ((if_pos (by simp [hua, ha])).trans ?_),
      congrArg Host.Outcome.next ((if_pos (by simp [hua, ha])).trans ?_)⟩
    · rw [hu]
      rfl
    · rw [hu]
      rfl
  · refine ⟨congrArg Host.Outcome.next ((if_neg (by simp [hua, ha])).trans ((if_pos (by simp [hup, hp])).trans ?_)),
      congrArg Host.Outcome.next ((if_neg (by simp [hua, ha])).trans ((if_pos (by simp [hup, hp])).trans ?_))⟩
    · rw [hu]
      rfl
    · rw [hu]
      rfl
  · have e : cmdRelease u = cmdResult 0 (tokenRelease 5 u) :=
      (if_neg (by simp [hua, ha])).trans (if_neg (by simp [hup, hp]))
    obtain ⟨k1, k2, k3, k4, k5, k6, k7⟩ := tokenRelease_released (s := u) (hua.trans ha) (hup.trans hp) 5
    refine ⟨_, rfl, ?_⟩
    rw [e]
    refine ⟨k1, k2, k3, k4, k5, rfl, k6.trans ?_, k7.trans ?_⟩
    · rw [hu]
      rfl
    · rw [hu]
      rfl
  · have e : cmdHandover m u = cmdResult 4 u := (if_neg (by simp [hua, ha])).trans ((if_neg (by simp [hup, hp])).trans
      (if_pos (by rw [huw]; exact hw)))
    rw [e, hu]
    rfl
  · have e : cmdHandover m u = cmdResult 0 { u with twin := { u.twin with
        hoWait := some (rget 0x10030010 m u + (rget 0x10030014 m u % 2 ^ 27) * 2 ^ 32) } } :=
      (if_neg (by simp [hua, ha])).trans ((if_neg (by simp [hup, hp])).trans (if_neg (by simp [huw, hw])))
    rw [e, hu]
    rfl
  · have hi : s.clk.inReset = false := by
      have := h.1
      unfold masterActive at this
      simp only [Bool.and_eq_true, Bool.not_eq_true'] at this
      exact this.1.1.1
    have hev : TwinEvent s u := by
      rw [hu]
      exact ⟨_, _, _, _, _, _, rfl⟩
    exact ⟨_, rfl, restart_resetOf hi hev⟩
  · refine ⟨_, rfl, ?_⟩
    have hb : (decide (u.twin.st = 4) && !u.twin.starting && !u.twin.acts && !u.twin.divergent) = true
        ↔ s.twin.st = 4 ∧ s.twin.starting = false ∧ s.twin.acts = false ∧ s.twin.divergent = false := by
      have hst : u.twin.st = s.twin.st ∧ u.twin.starting = s.twin.starting ∧ u.twin.divergent = s.twin.divergent := by
        rw [hu]
        exact ⟨rfl, rfl, rfl⟩
      simp [hst, hua, and_assoc]
    by_cases hc : s.twin.st = 4 ∧ s.twin.starting = false ∧ s.twin.acts = false ∧ s.twin.divergent = false
    · obtain ⟨_, _, _, _, _, _, _, _, _, hw⟩ := enterResync_wire false u
      have e : cmdResync u = enterResync false u := if_pos (hb.mpr hc)
      rw [e, hw, hu, if_pos hc]
      exact ⟨rfl, rfl, rfl, hc.1.symm, rfl⟩
    · have e : cmdResync u = u := if_neg fun h => hc (hb.mp h)
      rw [e, hu, if_neg hc]
      exact ⟨rfl, rfl, rfl, rfl, rfl⟩

/-! ### Hand-over -/

theorem handoverBegin_queued (h : Nat) (s : State) : ∃ q n, handoverBegin h s
    = { s with twin := { s.twin with handover := some ⟨h, 1⟩, txq := q, txSeq := n } } := by
  unfold handoverBegin
  dsimp only
  obtain ⟨q, n, e⟩ := linkSend_queued (type := 0x15) (by decide) ([0x03, 0, 0, 0] ++ beBytes 8 h)
    { s with twin := { s.twin with handover := some ⟨h, 1⟩ } }
  rw [controlSend, controlSend, e]
  obtain ⟨q', n', e'⟩ := linkSend_queued (type := 0x15) (by decide) ([0x08, 0, 0, 0] ++ (beBytes 8 h
    ++ [bitIf (peerInRegister s) 0 + bitIf (!peerInRegister s) 1, 0, 0, 0]))
    { s with twin := { s.twin with handover := some ⟨h, 1⟩, txq := q, txSeq := n } }
  exact ⟨q', n', e'⟩

theorem handoverRegister_row (h : Nat) (hw : s.twin.hoWait = some h) :
    let told := fun (code : Nat) => { s with twin := { s.twin with hoWait := none, cmdCode := code } }
    (h ≤ s.grid.block + 1 → exec .handoverRegister s = .next (told 3))
    ∧ (s.grid.block + 1 < h →
        (s.twin.peer ≠ 1 → exec .handoverRegister s = .next (told 2))
        ∧ (s.twin.peer = 1 → s.twin.handover.isSome = true → exec .handoverRegister s = .next (told 4))
        ∧ (s.twin.peer = 1 → s.twin.handover = none → s.twin.acts = false → exec .handoverRegister s = .next (told 5))
        ∧ (s.twin.peer = 1 → s.twin.handover = none → s.twin.acts = true → ∃ t, exec .handoverRegister s = .next t
            ∧ t = { told 0 with twin := { (told 0).twin with
                handover := some ⟨h, 1⟩, txq := t.twin.txq, txSeq := t.twin.txSeq } })) := by
  intro told
  have e : ∀ t, (if h ≤ s.grid.block + 1 then told 3 else if s.twin.peer ≠ 1 then told 2
      else if s.twin.handover.isSome then told 4 else if !s.twin.acts then told 5 else handoverBegin h (told 0)) = t →
      exec .handoverRegister s = .next t := fun t ht => by
    refine congrArg Host.Outcome.next (Eq.trans ?_ ht)
    unfold handoverRegister
    rw [hw]
    rfl
  refine ⟨fun hl => e _ (if_pos hl), fun hl => ?_⟩
  have h1 : ¬h ≤ s.grid.block + 1 := by omega
  refine ⟨fun hp => e _ ((if_neg h1).trans (if_pos hp)), fun hp hs => ?_, fun hp hn ha => ?_, fun hp hn ha => ?_⟩
  · exact e _ ((if_neg h1).trans ((if_neg (by simp [hp])).trans (if_pos hs)))
  · exact e _ ((if_neg h1).trans ((if_neg (by simp [hp])).trans ((if_neg (by simp [hn])).trans (if_pos (by simp [ha])))))
  · obtain ⟨q, n, hb⟩ := handoverBegin_queued h (told 0)
    refine ⟨_, e _ ((if_neg h1).trans ((if_neg (by simp [hp])).trans ((if_neg (by simp [hn])).trans
      ((if_neg (by simp [ha])).trans hb)))), rfl⟩

theorem handoverCommit_acknowledged (h : Nat) (hh : s.twin.handover = some ⟨h, 2⟩) (hb : s.grid.block + 1 = h) :
    exec .handoverCommit s = .next { s with twin := { s.twin with handover := some ⟨h, 3⟩ } } := by
  refine congrArg Host.Outcome.next ?_
  unfold handoverCommit
  rw [hh]
  exact (if_neg (by simp; omega)).trans (if_pos (by simp [hb]))

theorem handoverCommit_late (h : Nat) (hh : s.twin.handover = some ⟨h, 1⟩) (hb : s.grid.block + 1 = h) :
    ∃ t, exec .handoverCommit s = .next t ∧ t.twin = { s.twin with handover := none, cmdCode := 6 }
      ∧ t.ev.eseq = (s.ev.eseq + 1) % 2 ^ 32 ∧ t.ev.pend = s.ev.pend ||| 1#256 <<< 0x46 := by
  have e : handoverCommit s = raiseTick 0x46 0 (cmdResult 6 { s with twin := { s.twin with handover := none } }) := by
    unfold handoverCommit
    rw [hh]
    exact (if_neg (by simp; omega)).trans (if_neg (by simp))
  refine ⟨_, congrArg Host.Outcome.next e, ?_⟩
  rw [raiseTick_twin, raiseTick_eseq, raiseTick_pend]
  exact ⟨rfl, rfl, rfl⟩

/-- A switch is counted, and its event counted (R320, R598). -/
def switchDone (s : State) : State := evcOccur 0x107 1 (count 0x1003008C 0 1 s)

theorem switchDone_counts {s u : State} (h : Counted tokenCounters s u) :
    cget 0x1003008C 0 (switchDone u) = min (cget 0x1003008C 0 s + 1) 0xFFFFFFFF := by
  have hk := h.kept 0x1003008C 0 (by decide)
  rw [← hk]
  exact cget_count_self ..

theorem switchDone_same (s : State) : (switchDone s).twin = s.twin ∧ (switchDone s).mem = s.mem := ⟨rfl, rfl⟩

theorem handoverSwitch_gives (h : Nat) (hh : s.twin.handover = some ⟨h, 3⟩) (hb : h ≤ s.grid.block) :
    ∃ t, exec .handoverSwitch s = .next t
      ∧ t.twin.acts = false ∧ t.twin.handover = none ∧ t.twin.st = 1 ∧ t.twin.peer = 2 ∧ t.twin.leaseAt = s.clk.safe
      ∧ t.mem = s.mem
      ∧ cget 0x1003008C 0 t = min (cget 0x1003008C 0 s + 1) 0xFFFFFFFF := by
  obtain ⟨u, hu⟩ : ∃ u, u = stopActing { s with twin := { s.twin with handover := none } } := ⟨_, rfl⟩
  obtain ⟨v, hv⟩ : ∃ v, v = enterLatent { u with twin := { u.twin with peer := 2, leaseAt := u.clk.safe } } := ⟨_, rfl⟩
  have e : handoverSwitch s = switchDone (emitByState s.grid.block v) := by
    rw [hv, hu]
    unfold handoverSwitch
    rw [hh]
    exact if_pos hb
  have hc : Counted tokenCounters s (emitByState s.grid.block v) := by
    refine Counted.trans ?_ (emitByState_only ..).counted
    refine Counted.trans (t := u) ?_ ?_
    · rw [hu]
      refine Counted.trans ?_ (stopActing_counted _)
      exact .of_bus rfl
    · rw [hv]
      exact .of_bus rfl
  refine ⟨_, congrArg Host.Outcome.next e, ?_⟩
  rw [switchDone_counts hc, (switchDone_same _).1, (switchDone_same _).2]
  obtain ⟨_, _, _, _, _, _, _, _, hd⟩ := stopActing_domains { s with twin := { s.twin with handover := none } }
  rw [← hu] at hd
  rw [hv, hd]
  exact ⟨rfl, rfl, rfl, rfl, rfl, rfl, rfl⟩

theorem handoverSwitch_takes (hn : s.twin.handover = none) (hk : s.twin.hoAck = some s.grid.block)
    (hs : s.twin.hoSeen = true) (h1 : s.twin.st = 1) : ∃ t, exec .handoverSwitch s = .next t
      ∧ t.twin.acts = true ∧ t.twin.st = 2 ∧ t.twin.peer = 1
      ∧ t.twin.tenure = s.grid.block ∧ t.twin.hoAck = none ∧ t.mem = s.mem
      ∧ cget 0x1003008C 0 t = min (cget 0x1003008C 0 s + 1) 0xFFFFFFFF := by
  obtain ⟨u, hu⟩ : ∃ u, u = { s with twin := { s.twin with hoAck := none, hoSeen := false, st := 2, peer := 1 } } := ⟨_, rfl⟩
  have e : handoverSwitch s = switchDone (emitByState s.grid.block (startActing u)) := by
    rw [hu]
    unfold handoverSwitch
    rw [hn, hk]
    exact (if_pos (le_refl _)).trans (if_pos (by simp [hs, h1]))
  have hc : Counted tokenCounters s (emitByState s.grid.block (startActing u)) := by
    refine Counted.trans ?_ (emitByState_only ..).counted
    refine Counted.trans (t := u) ?_ (startActing_counted u)
    rw [hu]
    exact .of_bus rfl
  refine ⟨_, congrArg Host.Outcome.next e, ?_⟩
  rw [switchDone_counts hc, (switchDone_same _).1, (switchDone_same _).2]
  obtain ⟨_, _, _, _, _, _, _, _, _, hd⟩ := startActing_domains u
  rw [hd, hu]
  exact ⟨rfl, rfl, rfl, rfl, rfl, rfl, rfl⟩

theorem emissionChange_row (e : Nat) (a b : Bool) (h : s.twin.emitAt = some (e, a, b)) (hb : e ≤ s.grid.block) :
    exec .emissionChange s = .next { s with twin := { s.twin with emitA := a, emitB := b, emitAt := none } } := by
  refine congrArg Host.Outcome.next ?_
  unfold emissionChange
  rw [h]
  exact if_pos hb

/-- Settles O47: the token's moves, TWIN.CMD's four commands and a hand-over to its switch. -/
theorem tokenAndHandOver : Obligations.TokenAndHandOver := by
  unfold Obligations.TokenAndHandOver
  intro s
  exact ⟨leaseExpiry_row, takeover_row, ownLeaseGuard_row, heartbeatsMissing_row, fun _ => twinCmd_row,
    handoverRegister_row, handoverCommit_acknowledged, handoverCommit_late, handoverSwitch_gives, handoverSwitch_takes,
    emissionChange_row⟩

end Sys2Proof.Machine
end

section
/-!
PROOF. Resync, self-test and health (O48).
-/
namespace Sys2Proof.Machine

variable {s : State}

/-! ### Time-outs and waits -/

/-- A block whose comparison is not past waits on (R331). -/
theorem past_iff (n k b : Nat) : (!decide (n + k + 2 ≤ b)) = decide (b < n + k + 2) := by
  rw [← decide_not]
  exact decide_eq_decide.mpr (by omega)

theorem hashTimeout_row
    (h : s.twin.ownHash.any (fun h => decide (h.block + s.img.twin.sealBlocks + 2 ≤ s.grid.block)) = true) :
    exec .hashCompareTimeout s = .next { s with twin := { s.twin with
      matchRun := if compares s && decide (s.twin.st = 4) then 0 else s.twin.matchRun
      ownHash := s.twin.ownHash.filter (fun h => decide (s.grid.block < h.block + s.img.twin.sealBlocks + 2)) } } := by
  have e : (fun h : BlockHash => decide (s.grid.block < h.block + s.img.twin.sealBlocks + 2))
      = fun h => !decide (h.block + s.img.twin.sealBlocks + 2 ≤ s.grid.block) :=
    funext fun h => (past_iff ..).symm
  rw [e]
  exact congrArg Host.Outcome.next (if_pos h)

theorem settle_row (hk : keepsMirror s = true) (hw : s.twin.waitEnd ≤ s.grid.block) :
    (s.twin.phase = 2 → exec .settleExpiry s
      = .next { s with twin := { s.twin with phase := 3, waitEnd := s.grid.block } })
    ∧ (s.twin.phase = 4 → exec .settleExpiry s = .next { s with twin := { s.twin with phase := 5, matchRun := 0 } }) := by
  have hn : ¬(!keepsMirror s || decide (s.grid.block < s.twin.waitEnd)) = true := by
    simp [hk]
    omega
  exact ⟨fun h => congrArg Host.Outcome.next ((if_neg hn).trans (if_pos h)),
    fun h => congrArg Host.Outcome.next ((if_neg hn).trans ((if_neg (by omega)).trans (if_pos h)))⟩

/-! ### Slices -/

/-- The state of units that slices carry (R341): nothing else changes. -/
def UnitsOnly (s t : State) : Prop := ∃ o c g e m a, t = { s with obj := o, chain := c, tg := g, ec := e, smp := m, ana := a }

theorem UnitsOnly.refl (s : State) : UnitsOnly s s := ⟨_, _, _, _, _, _, rfl⟩
theorem UnitsOnly.trans {s t u : State} (h : UnitsOnly s t) (k : UnitsOnly t u) : UnitsOnly s u := by
  obtain ⟨_, _, _, _, _, _, rfl⟩ := h
  obtain ⟨_, _, _, _, _, _, rfl⟩ := k
  exact ⟨_, _, _, _, _, _, rfl⟩
theorem UnitsOnly.foldl {α : Type} {f : State → α → State} (h : ∀ s x, UnitsOnly s (f s x)) (xs : List α) (s : State) :
    UnitsOnly s (xs.foldl f s) := by
  induction xs generalizing s with
  | nil => exact .refl s
  | cons x xs ih => exact (h s x).trans (ih _)

theorem coreWrite_units (k y w l s) : UnitsOnly s (coreWrite k y w l s) := ⟨_, _, _, _, _, _, rfl⟩

theorem unitInstall_units (u : Nat × Nat × Nat) (l : List Nat) (s : State) : UnitsOnly s (unitInstall u l s) := by
  unfold unitInstall
  dsimp only
  split
  · exact ⟨_, _, _, _, _, _, rfl⟩
  · exact ⟨_, _, _, _, _, _, rfl⟩
  · exact ⟨_, _, _, _, _, _, rfl⟩
  · exact ⟨_, _, _, _, _, _, rfl⟩
  · split
    · exact .foldl (fun _ _ => coreWrite_units ..) ..
    · exact .refl s
  · exact .foldl (fun _ _ => ⟨_, _, _, _, _, _, rfl⟩) ..
  · exact ⟨_, _, _, _, _, _, rfl⟩

theorem unitsInstall_units (us : List (Nat × Nat × Nat)) (l : List Nat) (s : State) : UnitsOnly s (unitsInstall us l s) := by
  induction us generalizing l s with
  | nil => exact .refl s
  | cons u us ih => exact (unitInstall_units ..).trans (ih ..)

theorem sliceDue_of (hk : keepsMirror s = true) (hp : s.twin.phase = 3) (hw : s.twin.waitEnd = s.grid.block) :
    sliceDue s = true := by
  unfold sliceDue
  simp [hk, hp, hw]

theorem slice_row (hk : keepsMirror s = true) (hp : s.twin.phase = 3) (hw : s.twin.waitEnd = s.grid.block) :
    (∀ l, sliceWhole s = some l → ∃ t, exec .sliceInstall s = .next t ∧ t.twin.parts = [] ∧ t.grid = s.grid
      ∧ (planNext s.twin.level s.twin.slice (s.grid.block + 1) s = none →
          t.twin.phase = 4 ∧ t.twin.waitEnd = s.grid.block + 1 + s.img.twin.outSettle)
      ∧ ∀ i k e, planNext s.twin.level s.twin.slice (s.grid.block + 1) s = some (i, k, e) → t.twin.level = i
          ∧ t.twin.slice = k ∧ t.twin.waitEnd = e ∧ t.twin.phase = if i = s.twin.level then 3 else 2)
    ∧ exec .sliceTimeout s = .next (count 0x10030088 0 1 { s with twin := { s.twin with
        sliceLate := true, waitEnd := s.grid.block + 1
        parts := s.twin.parts.filter (fun y => decide (s.grid.block < y.block)) } }) := by
  have hd : ¬(!sliceDue s) = true := by simp [sliceDue_of hk hp hw]
  refine ⟨fun l hl => ?_, congrArg Host.Outcome.next (if_neg hd)⟩
  obtain ⟨v, hv⟩ : ∃ v, v = unitsInstall (sliceUnits s.twin.slice s) l s := ⟨_, rfl⟩
  have e : sliceInstall s = sliceNext (s.grid.block + 1) v := by
    rw [hv]
    refine (if_neg hd).trans ?_
    rw [hl]
  obtain ⟨_, _, _, _, _, _, hu⟩ := unitsInstall_units (sliceUnits s.twin.slice s) l s
  rw [← hv] at hu
  have hn : planNext v.twin.level v.twin.slice (s.grid.block + 1) v
      = planNext s.twin.level s.twin.slice (s.grid.block + 1) s := by
    rw [hu]
    rfl
  refine ⟨_, congrArg Host.Outcome.next e, ?_⟩
  unfold sliceNext
  dsimp only
  rw [hn]
  split
  case h_1 i k e hx =>
    rw [hu]
    exact ⟨rfl, rfl, fun h => (Option.some_ne_none _ (hx.symm.trans h)).elim, fun i' k' e' h => by
      obtain ⟨rfl, rfl, rfl⟩ : i = i' ∧ k = k' ∧ e = e' := by simpa using hx.symm.trans h
      exact ⟨rfl, rfl, rfl, rfl⟩⟩
  case h_2 hx =>
    rw [hu]
    exact ⟨rfl, rfl, fun _ => ⟨rfl, rfl⟩, fun i' k' e' h => (Option.some_ne_none _ (h.symm.trans hx)).elim⟩

/-! ### Health -/

theorem selfTest_row (hs : s.twin.starting = false) (h3 : s.twin.st = 3) :
    (s.twin.barred = false → ∃ t, exec (.selfTestDone true true) s = .next t ∧ t = { s with twin := t.twin }
      ∧ t.twin.st = 4 ∧ t.twin.phase = 1)
    ∧ (s.twin.barred = true → exec (.selfTestDone true true) s = .next s)
    ∧ ∀ bist clocks, (bist && clocks) = false → ∃ t, exec (.selfTestDone bist clocks) s = .next t
      ∧ t.twin = { s.twin with
          bistFail := s.twin.bistFail || !bist, clockFault := s.twin.clockFault || !clocks }
      ∧ t.ev.eseq = (s.ev.eseq + 1) % 2 ^ 32 := by
  have hn : ¬(s.twin.starting || decide (s.twin.st ≠ 3)) = true := by simp [hs, h3]
  refine ⟨fun hb => ?_, fun hb => congrArg Host.Outcome.next ((if_neg hn).trans ((if_pos rfl).trans (if_pos hb))),
    fun bist clocks hc => ?_⟩
  · obtain ⟨_, _, _, _, _, _, _, _, _, hw⟩ := enterResync_wire false s
    have e : selfTestDone true true s = enterResync false s :=
      (if_neg hn).trans ((if_pos rfl).trans (if_neg (by simp [hb])))
    refine ⟨_, congrArg Host.Outcome.next e, ?_⟩
    rw [hw]
    exact ⟨rfl, rfl, rfl⟩
  · refine ⟨_, congrArg Host.Outcome.next ((if_neg hn).trans (if_neg (by simp [hc]))), raise_twin .., raise_eseq ..⟩

/-- What the second has counted, for the health record (R344). -/
def secondTotals (s : State) : Nat × Nat × Nat :=
  (total 0x10120030 s + total 0x10120048 s, total 0x10030078 s + total 0x10030090 s, total 0x10030080 s)

/-- The state in which the record of a second is made. -/
def healthNoted (s : State) : State :=
  let now := secondTotals s
  let b := s.twin.healthBase
  { s with twin := { s.twin with healthBase := now, healthDelta := (now.1 - b.1, now.2.1 - b.2.1, now.2.2 - b.2.2) } }

/-- The health record does not tell of itself nor of the frames to send. -/
theorem healthRecord_congr (s : State) (h : List Nat) (q : List RelFrame) (n : Nat) (o : Sparse (List Nat × List Nat)) :
    healthRecord { s with twin := { s.twin with health := h, txq := q, txSeq := n, sent := o } } = healthRecord s := rfl

theorem health_send (s : State) : ∃ t, exec .healthSend s = .next t ∧ t = { s with twin := t.twin }
    ∧ t.twin.health = healthRecord t
    ∧ t.twin.healthBase = (total 0x10120030 s + total 0x10120048 s, total 0x10030078 s + total 0x10030090 s, total 0x10030080 s)
    ∧ (linkOk s = true → t.twin.txSeq = (s.twin.txSeq + 1) % 65536) := by
  obtain ⟨v, hv⟩ : ∃ v, v = { healthNoted s with twin := { (healthNoted s).twin with
    health := healthRecord (healthNoted s) } } := ⟨_, rfl⟩
  have e : healthSend s = linkSend 0x14 v.twin.health v := by
    rw [hv]
    rfl
  refine ⟨_, congrArg Host.Outcome.next e, ?_⟩
  obtain ⟨q, n, hq⟩ := linkSend_queued (type := 0x14) (by decide) v.twin.health v
  have hr : healthRecord (linkSend 0x14 v.twin.health v) = healthRecord (healthNoted s) := by
    rw [hq, hv]
    exact healthRecord_congr (healthNoted s) _ q n _
  refine ⟨?_, ?_, ?_, fun ho => ?_⟩
  · rw [hq, hv]
    rfl
  · rw [hr, hq, hv]
  · rw [hq, hv]
    rfl
  · have hvo : linkOk v = true := by
      rw [hv]
      exact ho
    unfold linkSend
    rw [if_neg (by simp [hvo]), if_pos (by decide), hv]
    rfl

theorem spareRow_row (ha : s.twin.acts = false) (hs : s.twin.starting = false) (pass : Bool) :
    exec (.spareRowTest pass) s = .next { s with
      mem := { s.mem with
        bistNext := (s.mem.bistNext + 1) % 2048, bistRows := s.mem.bistRows + 1
        bistFailed := if pass then s.mem.bistFailed else min 2047 (s.mem.bistFailed + 1) }
      twin := if pass then s.twin else { s.twin with bistFail := true, degraded := true } } := by
  refine congrArg Host.Outcome.next ((if_neg (by simp [ha, hs])).trans ?_)
  cases pass with
  | true => rfl
  | false => rfl

theorem takebackAsk_row (hh : s.twin.home = true) (h1 : s.twin.st = 1) (hs : s.twin.starting = false)
    (hd : s.twin.divergent = false) (hg : s.twin.degraded = false) (hp : s.twin.peerDegraded = false)
    (hb : s.twin.latentAt + secondBlocks s.img.twin.holdoff s ≤ s.grid.block) : ∃ t, exec .takebackHoldoff s = .next t
      ∧ t = { s with twin := { s.twin with latentAt := s.grid.block, txq := t.twin.txq, txSeq := t.twin.txSeq } }
      ∧ (linkOk s = true → t.twin.txq = s.twin.txq ++ [⟨s.twin.txSeq, 0x15, [6, 0, 0, 0]⟩]) := by
  have e : takebackAsk s = linkSend 0x15 ([6, 0, 0, 0] ++ [])
      { s with twin := { s.twin with latentAt := s.grid.block } } := if_pos (by simp [hb, hh, h1, hs, hd, hg, hp])
  refine ⟨_, congrArg Host.Outcome.next e, ?_, fun ho => ?_⟩
  · obtain ⟨q, n, hq⟩ := linkSend_queued (type := 0x15) (by decide) ([6, 0, 0, 0] ++ [])
      { s with twin := { s.twin with latentAt := s.grid.block } }
    rw [hq]
  · have hvo : linkOk { s with twin := { s.twin with latentAt := s.grid.block } } = true := ho
    unfold linkSend
    rw [if_neg (by simp [hvo]), if_pos (by decide)]
    rfl

/-! ### Installing the bulk state -/

/-- The image and the unit's state stay, and equal gain sets stay equal. -/
structure Steady (s t : State) : Prop where
  img : t.img = s.img
  st : t.twin.st = s.twin.st
  sets : s.mx.setA = s.mx.setB → t.mx.setA = t.mx.setB

theorem Steady.refl (s : State) : Steady s s := ⟨rfl, rfl, id⟩
theorem Steady.trans {s t u : State} (h : Steady s t) (k : Steady t u) : Steady s u :=
  ⟨k.img.trans h.img, k.st.trans h.st, k.sets ∘ h.sets⟩
theorem Steady.ite {c : Prop} [Decidable c] {s t u : State} (ht : Steady s t) (hu : Steady s u) :
    Steady s (if c then t else u) := by
  split
  · exact ht
  · exact hu
theorem Steady.foldl {α : Type} {f : State → α → State} (h : ∀ s x, Steady s (f s x)) (xs : List α) (s : State) :
    Steady s (xs.foldl f s) := by
  induction xs generalizing s with
  | nil => exact .refl s
  | cons x xs ih => exact (h s x).trans (ih _)
theorem Steady.of {s t : State} (hi : t.img = s.img) (ht : t.twin = s.twin) (hm : t.mx = s.mx) : Steady s t :=
  ⟨hi, congrArg Twin.st ht, fun h => by rw [hm]; exact h⟩
theorem Sounded.steady {s t : State} (h : Sounded s t) : Steady s t := by
  obtain ⟨_, _, _, _, _, rfl⟩ := h
  exact ⟨rfl, rfl, id⟩
theorem WireOnly.steady {s t : State} (h : WireOnly s t) : Steady s t := by
  obtain ⟨_, _, _, _, _, _, _, _, _, rfl⟩ := h
  exact ⟨rfl, rfl, id⟩
theorem DramOnly.steady {s t : State} (h : DramOnly s t) : Steady s t := by
  obtain ⟨_, _, _, _, _, rfl⟩ := h
  exact ⟨rfl, rfl, id⟩

theorem lapse_steady (s : State) : Steady s (lapse s) := by
  unfold lapse
  rw [lapseAt_frame]
  exact ⟨rfl, rfl, id⟩

theorem mirrorEntry_steady (e : List Nat) (s : State) : Steady s (mirrorEntry e s) := by
  unfold mirrorEntry
  dsimp only
  refine .trans (.trans ?_ (.ite (linkSend_wire ..).steady (.refl _))) (.refl _)
  exact ⟨rfl, rfl, id⟩

theorem stageKey_steady (key v : Nat) (e : List Nat) (s : State) : Steady s (stageKey key v e s) := by
  unfold stageKey
  refine .ite ⟨rfl, rfl, id⟩ (.trans ?_ (mirrorEntry_steady ..))
  exact ⟨rfl, rfl, id⟩

theorem stageNodes_steady (ws : List Nat) (s : State) : Steady s (stageNodes ws s).2 := by
  unfold stageNodes
  extract_lets o room ok _ t u
  have ht : Steady s t := ⟨rfl, rfl, id⟩
  have hu : Steady s u := .ite ht (ht.trans (mirrorEntry_steady ..))
  exact .ite (hu.trans ⟨rfl, rfl, id⟩) hu

theorem stageKf_steady (rec : List Nat) (s : State) : Steady s (stageKf rec s) := by
  unfold stageKf
  refine .ite ⟨rfl, rfl, id⟩ (.trans ?_ (mirrorEntry_steady ..))
  exact ⟨rfl, rfl, id⟩

theorem slotSet_steady (i v s) : Steady s (slotSet i v s) := .of rfl rfl rfl
theorem slotWrite_steady (i off v s) : Steady s (slotWrite i off v s) :=
  (DramOnly.put ..).steady.trans (slotSet_steady ..)

theorem discardSet_steady (s : State) : Steady s (discardSet s) := by
  unfold discardSet
  extract_lets t _ u
  have hu : Steady s u := by
    refine Steady.trans ?_ (.foldl (fun _ _ => slotSet_steady ..) ..)
    exact ⟨rfl, rfl, id⟩
  exact .ite (hu.trans (linkSend_wire ..).steady) hu

theorem takeEntry_steady (e : List Nat) (s : State) : Steady s (takeEntry e s) := by
  unfold takeEntry
  dsimp only
  split
  · exact stageKey_steady ..
  · exact stageNodes_steady ..
  · exact stageKf_steady ..
  · exact (Steady.foldl (fun _ _ => slotWrite_steady ..) ..).trans (mirrorEntry_steady ..)
  · exact stageKey_steady ..
  · exact discardSet_steady s

theorem takeEntries_steady (l : List (List Nat)) (s : State) : Steady s (l.foldl (fun s e => takeEntry e s) s) :=
  .foldl (fun _ _ => takeEntry_steady ..) ..

theorem setOf_steady (l : List Nat) (s : State) : Steady s (setOf l s).2 := by
  unfold setOf
  extract_lets o _ u v
  have hu : Steady s u := ⟨rfl, rfl, id⟩
  have hv : Steady s v := hu.trans (takeEntries_steady ..)
  exact hv.trans ⟨rfl, rfl, id⟩

theorem reqPending_steady (k : ReqKind) (up : Bool) (s : State) : Steady s (reqPending k up s) := by
  unfold reqPending
  cases k with
  | mute => exact .of rfl rfl rfl
  | pause => exact .of rfl rfl rfl
  | hold => exact .refl _

theorem relayRequest_steady (k : ReqKind) (b : Nat) (s : State) : Steady s (relayRequest k b s) := by
  unfold relayRequest
  extract_lets d now at_ act bound u
  have hu : Steady s u := .ite (lapse_steady s) (.refl s)
  have hv : Steady u { u with sched := { u.sched with dl1 := u.sched.dl1 ++ [⟨k, none, act, bound, d, now⟩] } } :=
    ⟨rfl, rfl, id⟩
  exact hu.trans (.ite (raiseAt_sounded ..).steady (hv.trans (reqPending_steady ..)))

theorem fnReview_steady (kind i : Nat) (s : State) : Steady s (fnReview kind i s) := by
  unfold fnReview
  extract_lets f
  split
  · exact .refl s
  · refine .ite (.of rfl rfl rfl) (.ite ?_ (.refl s))
    have hs : ∀ d : List StopReq, Steady s { s with sched := { s.sched with dl3 := d } } := fun _ => ⟨rfl, rfl, id⟩
    have hf : ∀ u : State, Steady u (raiseTick 0x35 i (fnSet kind i { f with deferred := true } u)) := fun u =>
      Steady.trans (t := fnSet kind i { f with deferred := true } u) (.of rfl rfl rfl) (raiseAt_sounded ..).steady
    exact (hs _).trans (hf _)

theorem relayStop_steady (start : Bool) (target b : Nat) (s : State) : Steady s (relayStop start target b s) := by
  unfold relayStop
  extract_lets kind i a act u r
  have hu : Steady s u := .ite (lapse_steady s) (.refl s)
  refine hu.trans (.ite ((count_sounded ..).trans (raiseAt_sounded ..)).steady ?_)
  unfold fnAsked
  refine .trans ?_ (fnReview_steady ..)
  refine .ite ?_ ?_
  · exact ⟨rfl, rfl, id⟩
  · exact ⟨rfl, rfl, id⟩

theorem relayReceive_steady (p : List Nat) (s : State) : Steady s (relayReceive p s) := by
  unfold relayReceive
  dsimp only
  refine .ite (.refl s) (.ite ⟨rfl, rfl, id⟩ ?_)
  split
  · exact relayRequest_steady ..
  · exact relayRequest_steady ..
  · exact relayRequest_steady ..
  · exact relayStop_steady ..
  · exact relayStop_steady ..
  · exact ⟨rfl, rfl, id⟩

theorem takeDl_steady (l : List Nat) (s : State) : Steady s (takeDl l s) := by
  unfold takeDl
  dsimp only
  split
  · refine Steady.trans ?_ (.foldl (fun _ _ => slotSet_steady ..) ..)
    exact (setOf_steady ..).trans ⟨rfl, rfl, id⟩
  · split
    · exact .of rfl rfl rfl
    · exact .of rfl rfl rfl
    · exact .of rfl rfl rfl
    · exact .refl s
  · exact relayReceive_steady ..

theorem takeDls_steady (n : Nat) (l : List Nat) (s : State) : Steady s (takeDls n l s) := by
  induction n generalizing l s with
  | zero => exact .refl s
  | succ n ih => exact .ite (.refl s) ((takeDl_steady ..).trans (ih ..))

theorem pieceLoad_steady (p : Piece) (s : State) : Steady s (pieceLoad p s) := by
  unfold pieceLoad
  split
  · exact (DramOnly.put ..).steady
  · exact .foldl (fun _ _ => slotSet_steady ..) ..
  · exact takeDls_steady ..
  · exact takeEntries_steady ..
  · exact .refl s

theorem installLists_steady (s : State) : Steady s (installLists s) := by
  unfold installLists
  extract_lets _ _ u
  refine Steady.trans (t := u) ?_ (.foldl (fun _ _ => pieceLoad_steady ..) ..)
  exact ⟨rfl, rfl, id⟩

theorem installChain_steady (rs al s sel) : Steady s (installChain rs al s sel) := .of rfl rfl rfl

theorem txStopped_steady (st k b s) : Steady s (txStopped st k b s) := .of rfl rfl rfl

theorem installStops_steady (rs : List (List Nat)) (s : State) : Steady s (installStops rs s) := by
  unfold installStops
  extract_lets u
  have hu : Steady s u := .foldl (fun s _ => .ite (txStopped_steady ..) (.refl s)) ..
  exact hu.trans (.of rfl rfl rfl)

theorem dacSet_steady (k v s) : Steady s (dacSet k v s) := .of rfl rfl rfl

/-- The bulk state's gain sets are one, and the unit's state and image stay (R335). -/
theorem installBulk_steady (s : State) : ∃ v, Steady s v
    ∧ installBulk s = { v with mx := { v.mx with setA := liveSet v.mx, setB := liveSet v.mx } } := by
  unfold installBulk
  extract_lets rs own al nodes conv stops capt s1 ents _ s2 s3 chains s4 s5 s6 s7
  have h1 : Steady s s1 := .of rfl rfl rfl
  clear_value s1 ents conv stops capt
  have h2 : Steady s s2 := h1.trans ⟨rfl, rfl, fun _ => rfl⟩
  clear_value s2
  have h3 : Steady s s3 := h2.trans (.of rfl rfl rfl)
  clear_value s3
  have h4 : Steady s s4 := h3.trans (.foldl (fun _ _ => installChain_steady ..) ..)
  clear_value s4
  have h5 : Steady s s5 := h4.trans (installStops_steady ..)
  clear_value s5
  have h6 : Steady s s6 := by
    refine h5.trans ?_
    unfold s6
    split
    · exact .of rfl rfl rfl
    · exact .refl _
  clear_value s6
  have h7 : Steady s s7 := h6.trans (.foldl (fun s _ => .ite (.refl s) (dacSet_steady ..)) ..)
  exact ⟨s7, h7, rfl⟩

/-- The state with nothing left to assemble. -/
def assembled (s : State) : State := { s with twin := { s.twin with pieces := [], bulkEnd := none, relayLog := [] } }

/-- The state assembled by a unit without kept frames from pieces of the block before (R335). -/
theorem assemble_now {cap : Nat} (hl : s.twin.relayLog = []) (hc : s.grid.block ≤ cap + 1) : ∃ v, Steady s v
    ∧ v.mx.setA = v.mx.setB ∧ assemble cap s = atBlock s.grid.block (assembled (atBlock s.grid.block v)) := by
  unfold assemble
  extract_lets now log _ s1 s2 _ s3
  obtain ⟨u, hu, e⟩ := installBulk_steady s1
  obtain ⟨w, hw⟩ : ∃ w, w = installLists (atBlock cap (installBulk s1)) := ⟨_, rfl⟩
  have k : Steady (atBlock cap (installBulk s1)) w := by
    rw [hw]
    exact installLists_steady _
  have h2 : s2 = atBlock s.grid.block w := by
    rw [hw]
  have h1 : Steady s s1 := ⟨rfl, rfl, id⟩
  clear_value s1 s2
  have hst : Steady s w := by
    refine h1.trans (hu.trans ⟨?_, ?_, ?_⟩)
    · rw [k.img, e]
      rfl
    · rw [k.st, e]
      rfl
    · exact fun _ => k.sets (by
        rw [e]
        rfl)
  have hs : w.mx.setA = w.mx.setB := k.sets (by
    rw [e]
    rfl)
  have h3 : s3 = assembled s2 := by
    unfold s3 log
    rw [hl]
    rfl
  have hz : now - (cap + 1) = 0 := by omega
  refine ⟨w, hst, hs, ?_⟩
  rw [hz, h3, h2]
  rfl

theorem bulkInstall_row (n : Nat) (hn : s.twin.bulkEnd = some n) (hk : keepsMirror s = true) (hp : s.twin.phase = 1)
    (hr : s.grid.running = true) (hw : ∀ k < n, ∃ x ∈ s.twin.pieces, x.num = k) (h4 : s.twin.st = 4)
    (hl : s.twin.relayLog = []) (hc : ∀ x ∈ s.twin.pieces, s.grid.block ≤ x.capture + 1) :
    ∃ t, exec .bulkInstall s = .next t
      ∧ t.twin.pieces = [] ∧ t.twin.bulkEnd = none ∧ t.mx.setA = t.mx.setB ∧ t.grid.block = s.grid.block
      ∧ (s.img.twin.levels = [] → t.twin.phase = 4 ∧ t.twin.waitEnd = s.grid.block + s.img.twin.outSettle)
      ∧ ∀ w f k l, s.img.twin.levels = (w, f, k) :: l →
          t.twin.phase = 2 ∧ t.twin.slice = f ∧ t.twin.waitEnd = s.grid.block + w := by
  have hcap : ∀ (l : List Piece) (b : Nat), s.grid.block ≤ b + 1 → (∀ x ∈ l, s.grid.block ≤ x.capture + 1) →
      s.grid.block ≤ l.foldl (fun m p => min m p.capture) b + 1 := by
    intro l
    induction l with
    | nil => exact fun b hb _ => hb
    | cons x l ih =>
      intro b hb h
      have hx := h x (List.mem_cons_self ..)
      exact ih (min b x.capture) (by omega) fun y hy => h y (List.mem_cons_of_mem _ hy)
  have hwh : (List.range n).all (fun k => s.twin.pieces.any (fun p => decide (p.num = k))) = true := by
    rw [List.all_eq_true]
    intro k hk
    obtain ⟨x, hx, hxk⟩ := hw k (List.mem_range.mp hk)
    exact List.any_eq_true.mpr ⟨x, hx, decide_eq_true hxk⟩
  obtain ⟨v, hv, hs, ha⟩ := assemble_now hl (hcap s.twin.pieces s.grid.block (by omega) hc)
  obtain ⟨u, hu⟩ : ∃ u, u = assemble (s.twin.pieces.foldl (fun m p => min m p.capture) s.grid.block) s := ⟨_, rfl⟩
  have hst : u.twin.st = 4 := by
    rw [hu, ha]
    exact hv.st.trans h4
  have e : bulkInstall s = planWait u.grid.block u := by
    rw [hu]
    unfold bulkInstall
    rw [hn]
    dsimp only
    rw [if_pos (by simp [hk, hp, hwh, hr]), ← hu, if_pos hst]
  refine ⟨_, congrArg Host.Outcome.next e, ?_⟩
  have hui : u.img = s.img := by
    rw [hu, ha]
    exact hv.img
  have hub : u.grid.block = s.grid.block := by
    rw [hu, ha]
    rfl
  have huf : u.twin.pieces = [] ∧ u.twin.bulkEnd = none ∧ u.mx.setA = u.mx.setB := by
    rw [hu, ha]
    exact ⟨rfl, rfl, hs⟩
  obtain ⟨h1, h2, h3⟩ := huf
  rw [hub]
  clear hu ha hst e
  unfold planWait planStart
  rw [hui]
  cases hlev : s.img.twin.levels with
  | nil => exact ⟨h1, h2, h3, hub, fun _ => ⟨rfl, rfl⟩, fun _ _ _ _ h => nomatch h⟩
  | cons x l =>
    obtain ⟨w, f, k⟩ := x
    refine ⟨h1, h2, h3, hub, fun h => (List.cons_ne_nil _ _ h).elim, fun w' f' k' l' h => ?_⟩
    obtain ⟨⟨rfl, rfl, rfl⟩, rfl⟩ : (w = w' ∧ f = f' ∧ k = k') ∧ l = l' := by simpa using h
    exact ⟨rfl, rfl, rfl⟩

/-- Settles O48: resync from the bulk install over the waits and slices, and what tells of a unit's health. -/
theorem resyncAndHealth : Obligations.ResyncAndHealth := by
  unfold Obligations.ResyncAndHealth
  intro s
  exact ⟨hashTimeout_row, bulkInstall_row, settle_row, slice_row, selfTest_row, health_send s, spareRow_row, takebackAsk_row⟩

end Sys2Proof.Machine
end

section
/-!
PROOF. Frames that mirror the holder (O45).
-/
namespace Sys2Proof.Machine

variable {s : State} {frame : List Byte}

/-! ### The holder's samples and slices -/

/-- Of the state only the lanes' samples differ. -/
def LaneSamples (s t : State) : Prop := ∃ l, t = { s with smp := { s.smp with lane := l } }

theorem LaneSamples.refl (s : State) : LaneSamples s s := ⟨_, rfl⟩
theorem LaneSamples.trans {s t u : State} (h : LaneSamples s t) (k : LaneSamples t u) : LaneSamples s u := by
  obtain ⟨_, rfl⟩ := h
  obtain ⟨_, rfl⟩ := k
  exact ⟨_, rfl⟩
theorem LaneSamples.foldl {α : Type} {f : State → α → State} (h : ∀ s x, LaneSamples s (f s x)) (xs : List α) (s : State) :
    LaneSamples s (xs.foldl f s) := by
  induction xs generalizing s with
  | nil => exact .refl s
  | cons x xs ih => exact (h s x).trans (ih _)

theorem adcReceive_lanes {p : List Nat} (hs : standby s = true)
    (ho : adcHas (4 * be (slice 0 8 p) + nth 0 p 8 % 4) true s = false)
    (hn : adcHas (4 * be (slice 0 8 p) + nth 0 p 8 % 4) false s = false) :
    LaneSamples { s with twin := { s.twin with
      adcGot := (2 * (4 * be (slice 0 8 p) + nth 0 p 8 % 4)) :: s.twin.adcGot } } (adcReceive p s) := by
  unfold adcReceive
  dsimp only
  rw [if_neg (by simp [hs, ho, hn])]
  refine .foldl (fun t k => ?_) ..
  split
  · exact ⟨_, rfl⟩
  · exact .refl t

theorem adc_row (h : Taken 0x02 frame s) :
    let p := payload frame
    let q := 4 * be (slice 0 8 p) + nth 0 p 8 % 4
    let u := tookFrame 0x02 frame s
    standby s = true → adcHas q true s = false → adcHas q false s = false →
    ∃ t, exec (.adcSubFrame frame) s = .next t
      ∧ t = { u with smp := { s.smp with lane := t.smp.lane }, twin := { u.twin with adcGot := (2 * q) :: s.twin.adcGot } } := by
  intro p q u hs ho hn
  refine ⟨_, congrArg Host.Outcome.next (onFrame_taken h rfl adcReceive), ?_⟩
  obtain ⟨l, e⟩ := adcReceive_lanes (s := u) (p := p) hs ho hn
  rw [e]
  rfl

theorem slice_kept (h : Taken 0x03 frame s) (hk : keepsMirror s = true) (h2 : 2 ≤ s.twin.phase) (h3 : s.twin.phase ≤ 3) :
    let p := payload frame
    let x : SlicePart := ⟨be (slice 0 2 p), nth 0 p 2, nth 0 p 3, be (slice 4 8 p), p.drop 16⟩
    ∃ t old, exec (.sliceFrame frame) s = .next t
      ∧ t = { tookFrame 0x03 frame s with twin := { (tookFrame 0x03 frame s).twin with parts := old ++ [x] } }
      ∧ ∀ y, y ∈ old ↔ y ∈ s.twin.parts ∧ s.grid.block ≤ y.block
          ∧ ¬(y.slice = x.slice ∧ y.part = x.part ∧ y.block = x.block) := by
  intro p x
  have hm : keepsMirror (tookFrame 0x03 frame s) = true := hk
  have hp : (tookFrame 0x03 frame s).twin.phase = s.twin.phase := rfl
  refine ⟨_, s.twin.parts.filter (fun y => decide (s.grid.block ≤ y.block)
      && !(decide (y.slice = x.slice) && decide (y.part = x.part) && decide (y.block = x.block))),
    congrArg Host.Outcome.next (onFrame_taken h rfl sliceReceive), if_neg ?_, fun y => ?_⟩
  · rw [hm, hp]
    simp [h3]
    omega
  · rw [List.mem_filter]
    simp only [Bool.and_eq_true, Bool.not_eq_true', Bool.and_eq_false_iff, decide_eq_true_eq, decide_eq_false_iff_not]
    tauto

/-! ### Hashes -/

/-- The mask of the groups whose hashes differ (R332). -/
def differMask (a b : List Nat) (n : Nat) : Nat :=
  (List.range n).foldl (fun m g => if nth 0 a g = nth 0 b g then m else m + 2 ^ g) 0

theorem differMask_same (a : List Nat) (n : Nat) : differMask a a n = 0 := by
  unfold differMask
  induction List.range n with
  | nil => rfl
  | cons g l ih => rw [List.foldl_cons, if_pos rfl, ih]

theorem differMask_ne {a b : List Nat} {n : Nat} (h : ∃ g < n, nth 0 a g ≠ nth 0 b g) : differMask a b n ≠ 0 := by
  obtain ⟨g, hg, hne⟩ := h
  have grows : ∀ (l : List Nat) (m : Nat), m ≤ l.foldl (fun m g => if nth 0 a g = nth 0 b g then m else m + 2 ^ g) m
      ∧ (g ∈ l → 0 < l.foldl (fun m g => if nth 0 a g = nth 0 b g then m else m + 2 ^ g) m) := by
    intro l
    induction l with
    | nil => exact fun m => ⟨le_refl m, fun h => absurd h (List.not_mem_nil)⟩
    | cons x l ih =>
      intro m
      rw [List.foldl_cons]
      obtain ⟨h1, h2⟩ := ih (if nth 0 a x = nth 0 b x then m else m + 2 ^ x)
      have hm : m ≤ if nth 0 a x = nth 0 b x then m else m + 2 ^ x := by
        split
        · exact le_refl m
        · exact Nat.le_add_right ..
      refine ⟨hm.trans h1, fun hx => ?_⟩
      rcases List.mem_cons.mp hx with rfl | hx
      · rw [if_neg hne] at h1 ⊢
        have := Nat.two_pow_pos g
        omega
      · exact h2 hx
  have := (grows (List.range n) 0).2 (List.mem_range.mpr hg)
  exact Nat.pos_iff_ne_zero.mp this

/-- The state in which a block has been compared. -/
def comparedAs (a b : BlockHash) (s : State) : State := { s with twin := { s.twin with
  ownHash := s.twin.ownHash.filter (fun h => decide (h.block ≠ a.block))
  peerHash := s.twin.peerHash.filter (fun h => decide (h.block ≠ a.block)), compared := some (a, b) } }

/-- The block of a lapse that still explains a difference (R333). -/
def explains (n k : Nat) (l : Option Nat) : Bool := match l with
  | some m => decide (n ≤ m + k)
  | none => false

theorem explains_iff (n k : Nat) (l : Option Nat) : explains n k l = true ↔ ∃ m, l = some m ∧ n ≤ m + k := by
  cases l with
  | none => simp [explains]
  | some m => simp [explains]

theorem compareBlock_pair {a b : BlockHash} (ha : s.twin.ownHash = [a]) (hb : s.twin.peerHash = [b]) (h : b.block = a.block)
    (hc : compares s = true) : compareBlock a.block s
      = if differMask a.hashes b.hashes s.img.twin.groups = 0 then hashMatch (comparedAs a b s)
        else hashDiffer a.block (differMask a.hashes b.hashes s.img.twin.groups)
          (explains a.block s.img.twin.explain a.lapse || explains a.block s.img.twin.explain b.lapse) (comparedAs a b s) := by
  unfold compareBlock
  rw [ha, hb]
  simp only [List.find?_cons, h, decide_true]
  rw [if_neg (by simp [hc])]
  unfold comparedAs differMask explains
  rw [ha, hb] <;> rfl

/-- The hashes of a HASH frame. -/
def hashesOf (p : List Nat) (s : State) : BlockHash :=
  ⟨be (slice 0 8 p), some (be (slice 8 8 p)), (List.range s.img.twin.groups).map (fun g => be (slice (16 + 8 * g) 8 p))⟩

/-- The state that holds the partner's hashes of one block alone. -/
def withPeerHash (b : BlockHash) (s : State) : State := { s with twin := { s.twin with peerHash := [b] } }

theorem hashReceive_first (hp : s.twin.peerHash = []) (p : List Nat) :
    hashReceive p s = compareBlock (hashesOf p s).block (withPeerHash (hashesOf p s) s) := by
  unfold hashReceive
  rw [hp]
  rfl

theorem compareBlock_alone (ho : s.twin.ownHash = []) (n : Nat) : compareBlock n s = s := by
  unfold compareBlock
  rw [ho]
  rfl

/-- A match in LATENT lengthens the run of matching blocks (R332). -/
theorem hashMatch_latent (h1 : s.twin.st = 1) :
    hashMatch s = { s with twin := { s.twin with matchRun := min (s.twin.matchRun + 1) 0xFFFFFF } } :=
  if_neg (by simp [h1])

/-- The state in which a difference is noted (R333). -/
def differs (n mask : Nat) (s : State) : State := { s with twin := { s.twin with mismatch := mask, mismatchBlk := n } }

theorem decides_latent (h1 : s.twin.st = 1) (n mask : Nat) : ¬(!decides (differs n mask s)) = true := by
  have hu : (differs n mask s).twin.st = 1 := h1
  simp [decides, hu]

/-- A difference in LATENT that a lapse explains takes the unit to RESYNC (R333). -/
theorem hashDiffer_explained (h1 : s.twin.st = 1) (n mask : Nat) :
    (hashDiffer n mask true s).twin.mismatchBlk = n ∧ (hashDiffer n mask true s).twin.st = 4 := by
  have e : ∃ v, v.twin.mismatchBlk = n ∧ hashDiffer n mask true s = raise 0x48 0 (enterResync false v) :=
    ⟨_, rfl, (if_neg (decides_latent h1 n mask)).trans (if_pos rfl)⟩
  obtain ⟨v, hv, e⟩ := e
  obtain ⟨_, _, _, _, _, _, _, _, _, hw⟩ := enterResync_wire false v
  rw [e, raise_twin, hw]
  exact ⟨hv, rfl⟩

/-- Another one takes it to SUSPECT (R333, R339). -/
theorem hashDiffer_unexplained (h1 : s.twin.st = 1) (n mask : Nat) :
    (hashDiffer n mask false s).twin.mismatchBlk = n ∧ (hashDiffer n mask false s).twin.st = 3 := by
  have e : ∃ v, v.twin.mismatchBlk = n ∧ hashDiffer n mask false s = enterSuspect v := by
    refine ⟨_, ?_, (if_neg (decides_latent h1 n mask)).trans (if_neg Bool.false_ne_true)⟩
    split
    · rw [raise_twin]
      show (raise _ _ _).twin.mismatchBlk = n
      rw [raise_twin]
      rfl
    · rw [raise_twin]
      rfl
  obtain ⟨v, hv, e⟩ := e
  obtain ⟨_, _, _, _, _, _, _, _, _, hw⟩ := enterSuspect_wire v
  rw [e, hw]
  exact ⟨hv, rfl⟩

theorem hash_row (h : Taken 0x10 frame s) (hp : s.twin.peerHash = []) :
    let p := payload frame
    let n := be (slice 0 8 p)
    let m := be (slice 8 8 p)
    let hs := (List.range s.img.twin.groups).map (fun g => be (slice (16 + 8 * g) 8 p))
    let u := tookFrame 0x10 frame s
    (s.twin.ownHash = [] → exec (.hashFrame frame) s
      = .next { u with twin := { u.twin with peerHash := [⟨n, some m, hs⟩] } })
    ∧ (∀ a, s.twin.ownHash = [a] → a.block = n → compares s = true → s.twin.st = 1 →
        (a.hashes = hs → ∃ t, exec (.hashFrame frame) s = .next t ∧ t = { u with twin := t.twin }
          ∧ t.twin.matchRun = min (s.twin.matchRun + 1) 0xFFFFFF ∧ t.twin.st = 1 ∧ t.twin.ownHash = []
          ∧ t.twin.peerHash = [] ∧ t.twin.compared = some (a, ⟨n, some m, hs⟩))
        ∧ ((∃ g < s.img.twin.groups, nth 0 a.hashes g ≠ nth 0 hs g) →
          let explained := n ≤ m + s.img.twin.explain ∨ ∃ l, a.lapse = some l ∧ n ≤ l + s.img.twin.explain
          ∃ t, exec (.hashFrame frame) s = .next t ∧ t.twin.mismatchBlk = n
            ∧ (explained → t.twin.st = 4) ∧ (¬explained → t.twin.st = 3))) := by
  intro p n m hs u
  obtain ⟨b, hb⟩ : ∃ b : BlockHash, b = ⟨n, some m, hs⟩ := ⟨_, rfl⟩
  obtain ⟨v, hv⟩ : ∃ v, v = withPeerHash b u := ⟨_, rfl⟩
  have e : onFrame 0x10 frame hashReceive s = compareBlock b.block v := by
    rw [onFrame_taken h rfl, hashReceive_first (s := tookFrame 0x10 frame s) hp, hv, hb]
    rfl
  rw [← hb]
  refine ⟨fun ho => congrArg Host.Outcome.next (e.trans ?_), fun a ho han hc h1 => ?_⟩
  · rw [hv]
    exact compareBlock_alone (s := withPeerHash b u) ho _
  · have hbb : b.block = a.block := by
      rw [hb, han]
    have hvo : v.twin.ownHash = [a] := by
      rw [hv]
      exact ho
    have hvp : v.twin.peerHash = [b] := by
      rw [hv]
      rfl
    have hvc : compares v = true := by
      rw [hv]
      exact hc
    have hv1 : (comparedAs a b v).twin.st = 1 := by
      rw [hv]
      exact h1
    have hvi : v.img = s.img := by
      rw [hv]
      rfl
    have k := compareBlock_pair hvo hvp hbb hvc
    rw [← hbb, hvi] at k
    have e := e.trans k
    refine ⟨fun hah => ?_, fun hd => ?_⟩
    · have hbh : b.hashes = a.hashes := by
        rw [hb, hah]
      rw [hbh, differMask_same, if_pos rfl, hashMatch_latent hv1] at e
      have hco : (comparedAs a b v).twin.ownHash = [] := by
        show v.twin.ownHash.filter _ = []
        rw [hvo]
        simp
      have hcp : (comparedAs a b v).twin.peerHash = [] := by
        show v.twin.peerHash.filter _ = []
        rw [hvp]
        simp [hbb]
      refine ⟨_, congrArg Host.Outcome.next e, ?_, ?_, hv1, hco, hcp, rfl⟩
      · rw [hv]
        rfl
      · rw [hv]
        rfl
    · have hm : differMask a.hashes b.hashes s.img.twin.groups ≠ 0 := by
        rw [hb]
        exact differMask_ne hd
      rw [if_neg hm] at e
      intro explained
      have hex : (explains b.block s.img.twin.explain a.lapse || explains b.block s.img.twin.explain b.lapse) = true
          ↔ explained := by
        rw [Bool.or_eq_true, explains_iff, explains_iff, hb]
        simp only [Option.some.injEq, exists_eq_left']
        exact or_comm
      refine ⟨_, congrArg Host.Outcome.next e, ?_⟩
      cases hx : (explains b.block s.img.twin.explain a.lapse || explains b.block s.img.twin.explain b.lapse) with
      | true =>
        obtain ⟨k1, k2⟩ := hashDiffer_explained hv1 b.block (differMask a.hashes b.hashes s.img.twin.groups)
        rw [k1, k2]
        refine ⟨by rw [hb], fun _ => rfl, fun hn => absurd (hex.mp hx) hn⟩
      | false =>
        obtain ⟨k1, k2⟩ := hashDiffer_unexplained hv1 b.block (differMask a.hashes b.hashes s.img.twin.groups)
        rw [k1, k2]
        refine ⟨by rw [hb], fun hy => absurd (hx.symm.trans (hex.mpr hy)) Bool.false_ne_true, fun _ => rfl⟩

/-! ### Frames kept for the installation -/

theorem keepsMirror_of_holds (hk : holds s = true) : keepsMirror s = true := by
  unfold holds at hk
  simp only [Bool.and_eq_true] at hk
  exact hk.1.1

theorem mirrorReceive_held (hk : holds s = true) (p : List Nat) : mirrorReceive p s = holdFrame 0x11 false p s :=
  (if_neg (by simp [keepsMirror_of_holds hk])).trans (if_pos hk)

theorem sealReceive_held (hk : holds s = true) (p : List Nat) (half : Bool) :
    sealReceive p half s = holdFrame 0x12 half p s :=
  (if_neg (by simp [keepsMirror_of_holds hk])).trans (if_pos hk)

theorem relayReceive_held (hk : holds s = true) (p : List Nat) : relayReceive p s = holdFrame 0x13 false p s :=
  (if_neg (by simp [keepsMirror_of_holds hk])).trans (if_pos hk)

theorem held_row (h : Taken 0x11 frame s ∨ Taken 0x12 frame s ∨ Taken 0x13 frame s) (hk : holds s = true)
    (firstHalf : Bool) (type : Nat) (ht : nth 0 (bytesOf frame) 0 = type) :
    exec (if type = 0x11 then .stageMirrorFrame frame else if type = 0x12 then .fixSealFrame frame firstHalf
      else .reqRelayFrame frame) s
    = .next { tookFrame type frame s with twin := { (tookFrame type frame s).twin with
        relayLog := s.twin.relayLog ++ [(s.grid.block, type, type = 0x12 && firstHalf, payload frame)] } } := by
  have hh : ∀ n, holds (tookFrame n frame s) = true := fun _ => hk
  rcases h with h | h | h
  · obtain rfl : 0x11 = type := h.2.1.symm.trans ht
    exact congrArg Host.Outcome.next ((onFrame_taken h rfl mirrorReceive).trans (mirrorReceive_held (hh _) _))
  · obtain rfl : 0x12 = type := h.2.1.symm.trans ht
    exact congrArg Host.Outcome.next ((onFrame_taken h rfl _).trans (sealReceive_held (hh _) _ _))
  · obtain rfl : 0x13 = type := h.2.1.symm.trans ht
    exact congrArg Host.Outcome.next ((onFrame_taken h rfl relayReceive).trans (relayReceive_held (hh _) _))

/-! ### Staged writes and seals -/

theorem acts_of_keepsMirror (hk : keepsMirror s = true) : s.twin.acts = false := by
  unfold keepsMirror standby at hk
  simp only [Bool.and_eq_true, Bool.not_eq_true'] at hk
  exact hk.1.1.2

/-- A unit that does not act mirrors nothing. -/
theorem mirrorEntry_standby (ha : s.twin.acts = false) (e : List Nat) : mirrorEntry e s
    = { s with mx := { s.mx with open_ := { s.mx.open_ with bytes := s.mx.open_.bytes ++ e } } } :=
  if_neg (by simp [relays, ha])

theorem mirror_row (h : Taken 0x11 frame s) (hk : keepsMirror s = true) (hh : holds s = false) (e : List Nat)
    (he : mirrorEntries ((payload frame).length + 1) (payload frame) = some [e]) (h1 : nth 0 e 0 = 1)
    (hr : s.mx.open_.regCount < 16384) :
    let inst := be (slice 8 2 e)
    ∃ t, exec (.stageMirrorFrame frame) s = .next t
      ∧ t = { tookFrame 0x11 frame s with mx := { s.mx with open_ := { s.mx.open_ with
          regs := upsert (rkey (be (slice 4 4 e)) (if inst = 0xFFFF then 0 else inst)) (be (slice 12 4 e)) s.mx.open_.regs
          regCount := s.mx.open_.regCount + 1, bytes := t.mx.open_.bytes } } } := by
  intro inst
  obtain ⟨u, hu⟩ : ∃ u, u = tookFrame 0x11 frame s := ⟨_, rfl⟩
  have huk : keepsMirror u = true := by rw [hu]; exact hk
  have huh : holds u = false := by rw [hu]; exact hh
  have hur : ¬16384 ≤ u.mx.open_.regCount := by
    rw [hu]
    exact Nat.not_le.mpr hr
  have k : mirrorReceive (payload frame) u
      = stageReg (be (slice 4 4 e)) (if inst = 0xFFFF then 0 else inst) (be (slice 12 4 e)) u := by
    refine (if_neg (by simp [huk])).trans ((if_neg (by simp [huh])).trans ?_)
    rw [he]
    show takeEntry e u = _
    unfold takeEntry
    rw [h1]
    rfl
  refine ⟨_, congrArg Host.Outcome.next (onFrame_taken h rfl mirrorReceive), ?_⟩
  rw [← hu, k]
  unfold stageReg stageKey
  dsimp only
  rw [if_neg hur, mirrorEntry_standby (by exact acts_of_keepsMirror huk), hu]
  rfl

theorem seal_row (firstHalf : Bool) (h : Taken 0x12 frame s) (hk : keepsMirror s = true) (hh : holds s = false) :
    let p := payload frame
    let c := be (slice 0 8 p)
    let act := be (slice 8 8 p)
    let code := nth 0 p 16
    ∃ t, exec (.fixSealFrame frame firstHalf) s = .next t ∧ t.mx.open_ = Staged.empty
      ∧ (sealBytes c act code s.mx.open_ ≠ p → t.twin.st = 3 ∧ t.mx.pending = s.mx.pending)
      ∧ (sealBytes c act code s.mx.open_ = p → t.mx.result = code ∧ t.mx.resultSeq = (s.mx.resultSeq + 1) % 65536
          ∧ t.mx.pending = if code ≤ 1 then s.mx.pending
              ++ [⟨act, sealAct c act code firstHalf s, decide (code = 1), s.mx.open_, c⟩] else s.mx.pending) := by
  intro p c act code
  obtain ⟨u, hu⟩ : ∃ u, u = tookFrame 0x12 frame s := ⟨_, rfl⟩
  have huk : keepsMirror u = true := by rw [hu]; exact hk
  have huh : holds u = false := by rw [hu]; exact hh
  have hum : u.mx = s.mx := by rw [hu]; rfl
  have hug : u.grid = s.grid := by rw [hu]; rfl
  have k : sealReceive p firstHalf u = if sealBytes c act code u.mx.open_ ≠ p
      then enterSuspect (freeSlots (commitsOf u.mx.open_) { u with mx := { u.mx with open_ := Staged.empty } })
      else if code ≤ 1 then admitFix ⟨act, sealAct c act code firstHalf (fixResult code u), decide (code = 1), u.mx.open_, c⟩
        (fixResult code u) else freeSlots (commitsOf u.mx.open_) (fixResult code u) :=
    (if_neg (by simp [huk])).trans (if_neg (by simp [huh]))
  have hsa : sealAct c act code firstHalf (fixResult code u) = sealAct c act code firstHalf s := by
    unfold sealAct
    rw [show (fixResult code u).grid = s.grid from hug]
  rw [hsa, hum] at k
  refine ⟨_, congrArg Host.Outcome.next (onFrame_taken h rfl (fun p t => sealReceive p firstHalf t)), ?_⟩
  rw [← hu]
  show (sealReceive p firstHalf u).mx.open_ = _ ∧ (_ → (sealReceive p firstHalf u).twin.st = 3
    ∧ (sealReceive p firstHalf u).mx.pending = _) ∧ (_ → (sealReceive p firstHalf u).mx.result = _
    ∧ (sealReceive p firstHalf u).mx.resultSeq = _ ∧ (sealReceive p firstHalf u).mx.pending = _)
  rw [k]
  by_cases hs : sealBytes c act code s.mx.open_ = p
  · rw [if_neg (not_not.mpr hs)]
    split
    · rw [(admitFix_mx _ _).1]
      refine ⟨rfl, fun hn => absurd hs hn, fun _ => ⟨rfl, ?_, ?_⟩⟩
      · show (u.mx.resultSeq + 1) % 65536 = _
        rw [hum]
      · show u.mx.pending ++ _ = _
        rw [hum]
    · obtain ⟨⟨x, hx⟩, -⟩ := freeSlots_slots (commitsOf s.mx.open_) (fixResult code u)
      rw [hx]
      refine ⟨rfl, fun hn => absurd hs hn, fun _ => ⟨rfl, ?_, ?_⟩⟩
      · show (u.mx.resultSeq + 1) % 65536 = _
        rw [hum]
      · show u.mx.pending = _
        rw [hum]
  · rw [if_pos hs]
    obtain ⟨v, hv⟩ : ∃ v, v = freeSlots (commitsOf s.mx.open_) { u with mx := { s.mx with open_ := Staged.empty } } := ⟨_, rfl⟩
    obtain ⟨⟨x, hx⟩, -⟩ := freeSlots_slots (commitsOf s.mx.open_) { u with mx := { s.mx with open_ := Staged.empty } }
    obtain ⟨_, _, _, _, _, _, _, _, _, hw⟩ := enterSuspect_wire v
    rw [← hv, hw]
    rw [← hv] at hx
    refine ⟨?_, fun _ => ⟨rfl, ?_⟩, fun hn => absurd hn hs⟩
    · show v.mx.open_ = _
      rw [hx]
    · show v.mx.pending = _
      rw [hx]

/-! ### Relayed requests and pieces -/

/-- A relayed request enters DL1 with its boundary, or at the next one (R327). -/
theorem relayRequest_sched (k : ReqKind) (b : Nat) (hd : s.sched.dl1.length < 1024) : ∃ r,
    (relayRequest k b s).sched = { s.sched with dl1 := s.sched.dl1 ++ [r] } ∧ r.kind = k
    ∧ (reqDirect s k = false →
        r.act = max (((b : Int) - reqOff s k) / (s.B : Int)).toNat (s.grid.block + 1)) := by
  unfold relayRequest
  extract_lets d now at_ act bound u
  have hu : u.sched = s.sched := by
    unfold u lapse
    split
    · rw [lapseAt_frame]
    · rfl
  refine ⟨⟨k, none, act, bound, d, now⟩, ?_, rfl, fun hn => ?_⟩
  · rw [dl1Enter_sched, hu, if_pos hd]
  · have hd : d = false := hn
    show max at_ (now + 1) = _
    unfold at_ now
    rw [hd]
    rfl

/-- A relayed request of one of the three kinds of function. -/
theorem relay_enters (h : Taken 0x13 frame s) (hk : keepsMirror s = true) (hh : holds s = false)
    (hd : s.sched.dl1.length < 1024) {kind : ReqKind}
    (he : ∀ u, keepsMirror u = true → holds u = false →
      relayReceive (payload frame) u = relayRequest kind (be (slice 8 8 (payload frame))) u) :
    ∃ t r, exec (.reqRelayFrame frame) s = .next t
      ∧ t.sched = { s.sched with dl1 := s.sched.dl1 ++ [r] } ∧ r.kind = kind
      ∧ (reqDirect s kind = false →
          r.act = max (((be (slice 8 8 (payload frame)) : Int) - reqOff s kind) / (s.B : Int)).toNat (s.grid.block + 1)) := by
  obtain ⟨r, h1, h2, h3⟩ := relayRequest_sched (s := tookFrame 0x13 frame s) kind (be (slice 8 8 (payload frame))) hd
  refine ⟨_, r, congrArg Host.Outcome.next ((onFrame_taken h rfl relayReceive).trans (he _ hk hh)), h1, h2, h3⟩

theorem relay_row (h : Taken 0x13 frame s) (hk : keepsMirror s = true) (hh : holds s = false)
    (hd : s.sched.dl1.length < 1024) :
    let p := payload frame
    let f := nth 0 p 1
    let target := be (slice 4 4 p)
    let b := be (slice 8 8 p)
    let u := tookFrame 0x13 frame s
    let enters := fun (kind : ReqKind) => ∃ t r, exec (.reqRelayFrame frame) s = .next t
      ∧ t.sched = { s.sched with dl1 := s.sched.dl1 ++ [r] } ∧ r.kind = kind
      ∧ (reqDirect s kind = false →
          r.act = max (((b : Int) - reqOff s kind) / (s.B : Int)).toNat (s.grid.block + 1))
    (nth 0 p 0 = 1 → enters (.mute target (bit 0 f) (bits 4 1 f)))
    ∧ (nth 0 p 0 = 2 → enters (.hold target (bit 0 f) (bit 1 f)))
    ∧ (nth 0 p 0 = 3 → enters (.pause target (bit 0 f)))
    ∧ (nth 0 p 0 = 6 ∨ nth 0 p 0 = 7 → exec (.reqRelayFrame frame) s = .next { u with
        twin := { u.twin with serial := s.twin.serial ++ [(nth 0 p 0, f, target, b, be (slice 16 8 p))] } }) := by
  intro p f target b u enters
  refine ⟨fun hx => relay_enters h hk hh hd fun v hv hw => ?_, fun hx => relay_enters h hk hh hd fun v hv hw => ?_,
    fun hx => relay_enters h hk hh hd fun v hv hw => ?_, fun hx => ?_⟩
  · refine (if_neg (by simp [hv])).trans ((if_neg (by simp [hw])).trans ?_)
    rw [show nth 0 (payload frame) 0 = 1 from hx]
    rfl
  · refine (if_neg (by simp [hv])).trans ((if_neg (by simp [hw])).trans ?_)
    rw [show nth 0 (payload frame) 0 = 2 from hx]
    rfl
  · refine (if_neg (by simp [hv])).trans ((if_neg (by simp [hw])).trans ?_)
    rw [show nth 0 (payload frame) 0 = 3 from hx]
    rfl
  · refine congrArg Host.Outcome.next ((onFrame_taken h rfl relayReceive).trans
      ((if_neg (by simp [show keepsMirror (tookFrame 0x13 frame s) = true from hk])).trans ((if_neg (by simp [show holds (tookFrame 0x13 frame s) = false from hh])).trans ?_)))
    rcases hx with hx | hx
    · rw [show nth 0 (payload frame) 0 = 6 from hx]
      rfl
    · rw [show nth 0 (payload frame) 0 = 7 from hx]
      rfl

theorem piece_row (h : Taken 0x20 frame s) (hk : keepsMirror s = true) (hp : s.twin.phase = 1) :
    let p := payload frame
    ∃ t, exec (.bulkPieceFrame frame) s = .next t ∧ t.twin.pieces = s.twin.pieces
      ++ [⟨be (slice 0 4 p), be (slice 4 8 p), nth 0 p 12, be (slice 16 4 p), p.drop 20⟩] := by
  intro p
  have hn : ¬(!keepsMirror (tookFrame 0x20 frame s) || decide ((tookFrame 0x20 frame s).twin.phase ≠ 1)) = true := by
    have h1 : keepsMirror (tookFrame 0x20 frame s) = true := hk
    have h2 : (tookFrame 0x20 frame s).twin.phase = 1 := hp
    simp [h1, h2]
  exact ⟨_, congrArg Host.Outcome.next ((onFrame_taken h rfl pieceReceive).trans (if_neg hn)), rfl⟩

/-- Settles O45: each frame of the holder on the state that has taken it. -/
theorem mirrorFrames : Obligations.MirrorFrames := by
  unfold Obligations.MirrorFrames
  intro s frame
  exact ⟨adc_row, slice_kept, hash_row, held_row, mirror_row, seal_row, relay_row, piece_row⟩

end Sys2Proof.Machine
end

section
/-!
SUPPORT. What the work of a tick leaves alone: where the grid stands, the load, the clocks, the memory and the token.
-/
namespace Sys2Proof.Machine

/-! ### Where the grid stands -/

/-- The grid stands where it stood, and the load of the class-5 instances is the same. -/
structure Clocked (s t : State) : Prop where
  block : t.grid.block = s.grid.block
  sub : t.grid.sub = s.grid.sub
  running : t.grid.running = s.grid.running
  prevMet : t.grid.prevMet = s.grid.prevMet
  load : t.sched.load = s.sched.load
  loadNow : t.sched.loadNow = s.sched.loadNow

/-- The same, and clocks, memory, token and tenure beside it. -/
structure Ground (s t : State) : Prop extends Clocked s t where
  clk : t.clk = s.clk
  mem : t.mem = s.mem
  acts : t.twin.acts = s.twin.acts
  tenure : t.twin.tenure = s.twin.tenure

theorem Clocked.refl (s : State) : Clocked s s := ⟨rfl, rfl, rfl, rfl, rfl, rfl⟩
theorem Clocked.trans {s t u : State} (h : Clocked s t) (k : Clocked t u) : Clocked s u :=
  ⟨k.block.trans h.block, k.sub.trans h.sub, k.running.trans h.running, k.prevMet.trans h.prevMet, k.load.trans h.load,
    k.loadNow.trans h.loadNow⟩
theorem Clocked.ite {c : Prop} [Decidable c] {s t u : State} (ht : Clocked s t) (hu : Clocked s u) :
    Clocked s (if c then t else u) := by
  split
  · exact ht
  · exact hu
theorem Clocked.foldl {α : Type} {f : State → α → State} (h : ∀ s x, Clocked s (f s x)) (xs : List α) (s : State) :
    Clocked s (xs.foldl f s) := by
  induction xs generalizing s with
  | nil => exact .refl s
  | cons x xs ih => exact (h s x).trans (ih _)
theorem Clocked.of {s t : State} (hg : t.grid = s.grid) (hl : t.sched.load = s.sched.load)
    (hn : t.sched.loadNow = s.sched.loadNow) : Clocked s t :=
  ⟨congrArg Grid.block hg, congrArg Grid.sub hg, congrArg Grid.running hg, congrArg Grid.prevMet hg, hl, hn⟩

theorem Ground.refl (s : State) : Ground s s := ⟨.refl s, rfl, rfl, rfl, rfl⟩
theorem Ground.trans {s t u : State} (h : Ground s t) (k : Ground t u) : Ground s u :=
  ⟨h.toClocked.trans k.toClocked, k.clk.trans h.clk, k.mem.trans h.mem, k.acts.trans h.acts, k.tenure.trans h.tenure⟩
theorem Ground.ite {c : Prop} [Decidable c] {s t u : State} (ht : Ground s t) (hu : Ground s u) :
    Ground s (if c then t else u) := by
  split
  · exact ht
  · exact hu
theorem Ground.foldl {α : Type} {f : State → α → State} (h : ∀ s x, Ground s (f s x)) (xs : List α) (s : State) :
    Ground s (xs.foldl f s) := by
  induction xs generalizing s with
  | nil => exact .refl s
  | cons x xs ih => exact (h s x).trans (ih _)

theorem Sounded.ground {s t : State} (h : Sounded s t) : Ground s t := by
  obtain ⟨_, _, _, _, _, rfl⟩ := h
  exact ⟨.of rfl rfl rfl, rfl, rfl, rfl, rfl⟩
theorem NetOnly.ground {s t : State} (h : NetOnly s t) : Ground s t := by
  obtain ⟨_, _, _, _, _, _, _, _, rfl⟩ := h
  exact ⟨.of rfl rfl rfl, rfl, rfl, rfl, rfl⟩
theorem WireOnly.ground {s t : State} (h : WireOnly s t) : Ground s t := by
  obtain ⟨_, _, _, _, _, _, _, _, _, rfl⟩ := h
  exact ⟨.of rfl rfl rfl, rfl, rfl, rfl, rfl⟩
theorem DomainsOnly.ground {s t : State} (h : DomainsOnly s t) : Ground s t := by
  obtain ⟨_, _, _, _, _, _, _, _, rfl⟩ := h
  exact ⟨.of rfl rfl rfl, rfl, rfl, rfl, rfl⟩
theorem SerialOnly.ground {s t : State} (h : SerialOnly s t) : Ground s t := by
  obtain ⟨_, _, _, _, _, _, _, _, _, _, _, _, _, _, rfl⟩ := h
  exact ⟨⟨rfl, rfl, rfl, rfl, rfl, rfl⟩, rfl, rfl, rfl, rfl⟩

theorem count_ground (a i n s) : Ground s (count a i n s) := (count_sounded ..).ground
theorem raiseTick_ground (code arg s) : Ground s (raiseTick code arg s) := (raiseAt_sounded ..).ground
theorem evcOccur_ground (src n s) : Ground s (evcOccur src n s) := (evcOccur_sounded ..).ground
theorem lapseTick_ground (s) : Ground s (lapseTick s) := (lapseAt_serial ..).ground
theorem rset_ground (a i v s) : Ground s (rset a i v s) := ⟨.of rfl rfl rfl, rfl, rfl, rfl, rfl⟩
theorem ev_ground (s : State) (e) : Ground s { s with ev := e } := ⟨.of rfl rfl rfl, rfl, rfl, rfl, rfl⟩
theorem net_ground (s : State) (n) : Ground s { s with net := n } := ⟨.of rfl rfl rfl, rfl, rfl, rfl, rfl⟩
theorem time_ground (s : State) (t) : Ground s { s with time := t } := ⟨.of rfl rfl rfl, rfl, rfl, rfl, rfl⟩
theorem tcm_ground (s : State) (t) : Ground s { s with tcm := t } := ⟨.of rfl rfl rfl, rfl, rfl, rfl, rfl⟩
theorem smp_ground (s : State) (m) : Ground s { s with smp := m } := ⟨.of rfl rfl rfl, rfl, rfl, rfl, rfl⟩

/-! ### Delivery of events (R595) -/

theorem eventFrame_ground (rs s) : Ground s (eventFrame rs s) := by
  unfold eventFrame
  extract_lets c key addr f _ u v _ _
  have hu : Ground s u := ev_ground s _
  have hv : Ground s v := .ite (hu.trans (tcm_ground u _)) hu
  clear_value v
  refine .ite hv (.ite (hv.trans (tcm_ground v _)) (hv.trans (Ground.trans ?_ (count_ground ..))))
  exact ⟨.of rfl rfl rfl, rfl, rfl, rfl, rfl⟩

theorem eventDelivery_ground (s) : Ground s (eventDelivery s) := by
  unfold eventDelivery
  extract_lets q _ u v n _
  have hu : Ground s u := ev_ground s _
  have hv : Ground s v := .ite (hu.trans (.foldl (fun _ _ => eventFrame_ground ..) ..)) hu
  clear_value v
  exact .ite hv ((hv.trans (ev_ground v _)).trans (raiseTick_ground ..))

/-! ### Received streams (chapter 10) and the keyframes that they carry (R68 to R75) -/

theorem rxSet_ground (k r s) : Ground s (rxSet k r s) := net_ground s _
theorem raiseStream_ground (code k s) : Ground s (raiseStream code k s) := (raiseStream_netted ..).ground

/-- The mark of a late or a missing packet, and that of a poisoned one, fail the guarantee (R366). -/
theorem lateMark_ground (s : State) (late poison : Bool) :
    Ground s (lapseTick { s with grid := { s.grid with latePacket := late, memPoison := poison } }) := by
  refine Ground.trans ?_ (lapseTick_ground _)
  exact ⟨⟨rfl, rfl, rfl, rfl, rfl, rfl⟩, rfl, rfl, rfl, rfl⟩

/-- The same state but for the objects, events and counters. -/
def QueuesOnly (s t : State) : Prop := ∃ o e c b n l, t = { s with
  obj := o
  ev := e, evc := { s.evc with cnt := c }, bus := { s.bus with ctr := b, total := n }, tcm := { s.tcm with evtLost := l } }

theorem QueuesOnly.refl (s : State) : QueuesOnly s s := ⟨_, _, _, _, _, _, rfl⟩
theorem QueuesOnly.trans {s t u : State} (h : QueuesOnly s t) (k : QueuesOnly t u) : QueuesOnly s u := by
  obtain ⟨_, _, _, _, _, _, rfl⟩ := h
  obtain ⟨_, _, _, _, _, _, rfl⟩ := k
  exact ⟨_, _, _, _, _, _, rfl⟩
theorem QueuesOnly.ite {c : Prop} [Decidable c] {s t u : State} (ht : QueuesOnly s t) (hu : QueuesOnly s u) :
    QueuesOnly s (if c then t else u) := by
  split
  · exact ht
  · exact hu
theorem Sounded.queues {s t : State} (h : Sounded s t) : QueuesOnly s t := by
  obtain ⟨_, _, _, _, _, rfl⟩ := h
  exact ⟨_, _, _, _, _, _, rfl⟩
theorem QueuesOnly.ground {s t : State} (h : QueuesOnly s t) : Ground s t := by
  obtain ⟨_, _, _, _, _, _, rfl⟩ := h
  exact ⟨.of rfl rfl rfl, rfl, rfl, rfl, rfl⟩

theorem kfNote_queues (ctr code obj s) : QueuesOnly s (kfNote ctr code obj s) :=
  ((count_sounded ..).trans (raiseAt_sounded ..)).queues
theorem objSet_queues (k o s) : QueuesOnly s (objSet k o s) := ⟨_, _, _, _, _, _, rfl⟩

/-- A keyframe enters its object's queue alone, or is told and counted (R74, R75). -/
theorem enterKeyframe_queues (r k s) : QueuesOnly s (enterKeyframe r k s) := by
  unfold enterKeyframe
  extract_lets o late u kept v
  have hl : ∀ t, QueuesOnly t (late t) := fun t => .ite (kfNote_queues ..) (.refl t)
  have hv : QueuesOnly s v := (kfNote_queues ..).trans (objSet_queues ..)
  clear_value late v
  exact .ite (kfNote_queues ..) (.ite (kfNote_queues ..)
    (.ite (((objSet_queues ..).trans (kfNote_queues ..)).trans (hl _))
      (.ite (.ite (hv.trans (hl v)) hv) ((objSet_queues ..).trans (hl _)))))

theorem enterRecord_queues (r bytes s) : QueuesOnly s (enterRecord r bytes s) := by
  unfold enterRecord
  split
  exact .ite (kfNote_queues ..) (.ite (count_sounded ..).queues (enterKeyframe_queues ..))

theorem rxDecide_ground (k c same t s) : Ground s (rxDecide k c same t s).2 := by
  unfold rxDecide
  extract_lets r one
  have ho : ∀ t, Ground t (one t) := fun t => .ite (count_ground ..) (.refl t)
  clear_value one
  split
  split
  extract_lets u v
  have hu : Ground s u := .ite ((count_ground ..).trans (raiseStream_ground ..)) (.refl s)
  have hv : Ground s v := .ite ((hu.trans (count_ground ..)).trans (raiseStream_ground ..)) hu
  clear_value u v
  split
  · split
    · exact hv
    · exact (hv.trans (count_ground ..)).trans (raiseStream_ground ..)
  · exact hv.trans (ho v)
  · exact hv.trans (ho v)
  · exact hv

theorem opsRelease_ground (n k c s) : Ground s (opsRelease n k c s) := by
  unfold opsRelease
  refine .ite (.refl s) ?_
  extract_lets r keys due u r'
  have hu : Ground s u := by
    refine .foldl (fun t x => ?_) ..
    extract_lets same q first
    split
    rename_i ch w hd
    have h0 : Ground t w := by simpa only [hd] using rxDecide_ground k c same x.1 t
    extract_lets late _ w1 w2 q' _
    have h1 : Ground t w1 := .ite ((h0.trans (lateMark_ground w _ _)).trans (raiseTick_ground ..)) h0
    clear_value w1
    have h2 : Ground t w2 := by
      unfold w2
      split
      · exact h1.trans (.foldl (fun _ _ => (enterRecord_queues ..).ground) ..)
      · exact h1
    exact h2.trans (rxSet_ground ..)
  exact hu.trans (rxSet_ground ..)

theorem rxChoose_ground (k c m1 s) : Ground s (rxChoose k c m1 s) := by
  unfold rxChoose
  extract_lets r ts
  refine .foldl (fun t x => ?_) ..
  split
  rename_i ch w hd
  have h0 : Ground t w := by simpa only [hd] using rxDecide_ground k c (fun p => decide (p.t = x)) x t
  extract_lets q laps w1
  have h1 : Ground t w1 := .ite h0 (h0.trans (count_ground ..))
  exact h1.trans (rxSet_ground ..)

theorem missNote_ground (k c miss s) : Ground s (missNote k c miss s) := by
  unfold missNote
  extract_lets r p slots new u _ v w _
  have hu : Ground s u := (count_ground ..).trans (rxSet_ground ..)
  have hv : Ground s v := hu.trans (lateMark_ground u _ _)
  have hw : Ground s w := .ite hv (hv.trans (raiseTick_ground ..))
  exact .ite (rxSet_ground ..) (.ite (hw.trans (lateMark_ground w _ _)) hw)

theorem rxMerge_ground (n k c s) : Ground s (rxMerge n k c s) := by
  unfold rxMerge
  extract_lets m0 m1 run u1 r idx sup have_ supplied miss0 miss u2 u3 used status j u4 r'
  have h1 : Ground s u1 := rxChoose_ground ..
  have h2 : Ground s u2 := h1.trans (rxSet_ground ..)
  have h3 : Ground s u3 := h2.trans (missNote_ground ..)
  clear_value u1 u2 u3
  have h4 : Ground s u4 := by
    refine .ite h3 (h3.trans (.foldl (fun t ch => ?_) ..))
    split
    · exact .refl t
    · exact smp_ground t _
  exact h4.trans (rxSet_ground ..)

theorem netTick_ground (n s) : Ground s (netTick n s) := by
  unfold netTick
  extract_lets _ u v
  have hu : Ground s u := net_ground s _
  have hv : Ground s v := hu.trans (.foldl (fun _ _ => .ite (opsRelease_ground ..) (.refl _)) ..)
  exact hv.trans (.foldl (fun _ _ => .ite (.refl _) (rxMerge_ground ..)) ..)

/-! ### Time and the media clock (R427 to R434) -/

theorem setInc_ground (v s) : Ground s (setInc v s) := ⟨.of rfl rfl rfl, rfl, rfl, rfl, rfl⟩

theorem lockTick_ground (s) : Ground s (lockTick s) := by
  unfold lockTick
  extract_lets t0 sel lock hold moved enter _ _ u u1 u2 u3 u4
  have hu : Ground s u := time_ground s _
  have h1 : Ground s u1 := .ite (hu.trans (setInc_ground ..)) hu
  have h2 : Ground s u2 := .ite ((h1.trans (count_ground ..)).trans (raiseTick_ground ..)) h1
  have h3 : Ground s u3 := .ite (h2.trans (raiseTick_ground ..)) h2
  have h4 : Ground s u4 := .ite ((h3.trans (count_ground ..)).trans (raiseTick_ground ..)) h3
  exact .ite h4 (h4.trans (lapseTick_ground _))

theorem mediaTick_ground (s) : Ground s (mediaTick s).2 := by
  unfold mediaTick
  extract_lets t n x e far run fault _ u
  have hu : Ground s u := time_ground s _
  exact .ite (hu.trans (raiseTick_ground ..)) hu

theorem mediaServo_ground (s) : Ground s (mediaServo s) :=
  .ite (Ground.trans (t := (nextFree s).2) ⟨.of rfl rfl rfl, rfl, rfl, rfl, rfl⟩ (rset_ground ..)) (.refl s)

theorem serialTick_ground (s) : Ground s (serialTick s) := by
  refine .ite (Ground.trans ?_ (lapseTick_ground _)) (.refl s)
  exact ⟨⟨rfl, rfl, rfl, rfl, rfl, rfl⟩, rfl, rfl, rfl, rfl⟩

/-! ### The frames of a tick (R310, R318) -/

theorem tickFrames_ground (v s) : Ground s (tickFrames v s) := by
  unfold tickFrames
  extract_lets _ u t _ w _
  have hu : Ground s u := ⟨.of rfl rfl rfl, rfl, rfl, rfl, rfl⟩
  have ht : Ground s t := hu.trans (linkSend_wire ..).ground
  clear_value u t
  have hw : Ground s w := .ite (ht.trans ⟨.of rfl rfl rfl, rfl, rfl, rfl, rfl⟩) hu
  clear_value w
  exact hw.trans ⟨.of rfl rfl rfl, rfl, rfl, rfl, rfl⟩

theorem firstTick_ground (s) : Ground s (firstTick s) := by
  unfold firstTick
  extract_lets _ _ u v
  have hu : Ground s u := by
    refine Ground.trans ?_ (eventDelivery_ground _)
    exact ⟨.of rfl rfl rfl, rfl, rfl, rfl, rfl⟩
  have hv : Ground s v :=
    (((hu.trans (netTick_ground ..)).trans (lockTick_ground _)).trans (mediaTick_ground _)).trans (mediaServo_ground _)
  exact (hv.trans (tickFrames_ground ..)).trans (serialTick_ground _)

end Sys2Proof.Machine
end

section
/-!
PROOF. Start without a partner, and the start of audio (O25).
-/
namespace Sys2Proof.Machine

variable {s : State}

/-! ### A unit whose partner stays away (R331, R584) -/

theorem goAlone_only (s : State) : TwinOnly s (goAlone s) := by
  unfold goAlone
  extract_lets _ u
  split
  · exact ⟨_, rfl⟩
  · exact ⟨_, rfl⟩

theorem goAlone_shaken (h : s.twin.handshake = true) :
    (goAlone s).twin = { s.twin with noPartner := true, starting := false, handshake := false, st := 0, peer := 7 } :=
  congrArg State.twin (if_pos h)

theorem goAlone_unshaken (h : s.twin.handshake = false) : (goAlone s).twin = { s.twin with noPartner := true } :=
  congrArg State.twin (if_neg (by simp [h]))

theorem noPartnerTimeout_row (hr : s.clk.inReset = false) (hs : s.twin.starting = true) (hb : s.twin.hbAt = none) :
    ∃ t, exec .noPartnerTimeout s = .next t ∧ t = { setSafe (s.clk.relAt + 32000000) s with twin := t.twin }
      ∧ t.twin.noPartner = true
      ∧ (s.twin.handshake = true → t.twin.starting = false ∧ t.twin.st = 0 ∧ t.twin.peer = 7)
      ∧ (s.twin.handshake = false → t.twin = { s.twin with noPartner := true }) := by
  obtain ⟨u, hu⟩ : ∃ u, u = setSafe (s.clk.relAt + 32000000) s := ⟨_, rfl⟩
  have ht : u.twin = s.twin := (congrArg State.twin hu).trans rfl
  have e : noPartnerTimeout s = goAlone u := hu ▸ if_pos (by simp [hr, hs, hb])
  refine ⟨_, congrArg Host.Outcome.next e, ?_, ?_, fun hh => ?_, fun hh => ?_⟩
  · obtain ⟨w, hw⟩ := goAlone_only u
    rw [hw, ← hu]
  · cases hh : s.twin.handshake with
    | true => rw [goAlone_shaken (ht ▸ hh)]
    | false => rw [goAlone_unshaken (ht ▸ hh)]
  · rw [goAlone_shaken (ht ▸ hh)]
    exact ⟨rfl, rfl, rfl⟩
  · rw [goAlone_unshaken (ht ▸ hh), ht]

theorem helloTimeout_row (hs : s.twin.starting = true) (hh : s.twin.handshake = true) :
    ∃ t, exec .helloTimeout s = .next t ∧ t.twin.starting = false ∧ t.twin.st = 0 ∧ t.twin.peer = 7
      ∧ t.twin.noPartner = true ∧ t.ev.eseq = (s.ev.eseq + 1) % 2 ^ 32 ∧ t.ev.pend = s.ev.pend ||| 1#256 <<< 0x4E
      ∧ t = { setSafe (s.twin.shakeAt + 64000000) s with
          twin := t.twin, ev := t.ev, evc := t.evc, bus := t.bus, tcm := t.tcm } := by
  obtain ⟨u, hu⟩ : ∃ u, u = setSafe (s.twin.shakeAt + 64000000) s := ⟨_, rfl⟩
  have ht : u.twin = s.twin := (congrArg State.twin hu).trans rfl
  have hev : u.ev = s.ev := (congrArg State.ev hu).trans rfl
  have e : helloTimeout s = raise 0x4E 0 (goAlone u) := hu ▸ if_pos (by simp [hs, hh])
  have hg := goAlone_shaken (ht ▸ hh : u.twin.handshake = true)
  obtain ⟨w, hw⟩ := goAlone_only u
  refine ⟨_, congrArg Host.Outcome.next e, ?_, ?_, ?_, ?_, ?_, ?_, ?_⟩
  · rw [raise_twin, hg]
  · rw [raise_twin, hg]
  · rw [raise_twin, hg]
  · rw [raise_twin, hg]
  · rw [raise_eseq, hw, ← hev]
  · rw [raise_pend, hw, ← hev]
  · rw [← hu, raise_frame, hw]

/-! ### The start of audio (R595, R310) -/

/-- The state of a grid that begins at block `a`. -/
def gridBegun (a : Nat) (s : State) : State := { s with
  grid := { s.grid with running := true, block := a, sub := 0, met := true, prevMet := true }
  clk := { s.clk with audio := true, bootMs := (s.clk.safe - s.clk.pgoodAt) / 32000 } }

/-- The same state but for the objects, the memory, events and counters. -/
def ObjectsOnly (s t : State) : Prop := ∃ o m e c b n l, t = { s with
  obj := o, mem := m
  ev := e, evc := { s.evc with cnt := c }, bus := { s.bus with ctr := b, total := n }, tcm := { s.tcm with evtLost := l } }

theorem ObjectsOnly.refl (s : State) : ObjectsOnly s s := ⟨_, _, _, _, _, _, _, rfl⟩
theorem ObjectsOnly.trans {s t u : State} (h : ObjectsOnly s t) (k : ObjectsOnly t u) : ObjectsOnly s u := by
  obtain ⟨_, _, _, _, _, _, _, rfl⟩ := h
  obtain ⟨_, _, _, _, _, _, _, rfl⟩ := k
  exact ⟨_, _, _, _, _, _, _, rfl⟩
theorem ObjectsOnly.ite {c : Prop} [Decidable c] {s t u : State} (ht : ObjectsOnly s t) (hu : ObjectsOnly s u) :
    ObjectsOnly s (if c then t else u) := by
  split
  · exact ht
  · exact hu
theorem ObjectsOnly.foldl {α : Type} {f : State → α → State} (h : ∀ s x, ObjectsOnly s (f s x)) (xs : List α) (s : State) :
    ObjectsOnly s (xs.foldl f s) := by
  induction xs generalizing s with
  | nil => exact .refl s
  | cons x xs ih => exact (h s x).trans (ih _)
theorem Sounded.objects {s t : State} (h : Sounded s t) : ObjectsOnly s t := by
  obtain ⟨_, _, _, _, _, rfl⟩ := h
  exact ⟨_, _, _, _, _, _, _, rfl⟩
theorem DramOnly.objects {s t : State} (h : DramOnly s t) : ObjectsOnly s t := by
  obtain ⟨_, _, _, _, _, rfl⟩ := h
  exact ⟨_, _, _, _, _, _, _, rfl⟩

theorem dramFill_objects (a l s) : ObjectsOnly s (dramFill a l s) := .ite (DramOnly.put a l s).objects ⟨_, _, _, _, _, _, _, rfl⟩
theorem ringZero_objects (k s) : ObjectsOnly s (ringZero k s) := .ite (DramOnly.put ..).objects ⟨_, _, _, _, _, _, _, rfl⟩

theorem noteClamps_sounded (k glide clamp o s) : Sounded s (noteClamps k glide clamp o s).2 := by
  unfold noteClamps
  extract_lets t u v w
  have ht : Sounded s t := .ite (count_sounded ..) (.refl s)
  have hu : Sounded s u := .ite (ht.trans (raise_sounded ..)) ht
  have hv : Sounded s v := .ite (hu.trans (count_sounded ..)) hu
  exact .ite (hv.trans (raise_sounded ..)) hv

theorem objInit_objects (k b0 s) : ObjectsOnly s (objInit k b0 s) := by
  unfold objInit
  split
  · exact .refl s
  · extract_lets p pb d e de _ o
    split
    rename_i o' t h
    have ht : ObjectsOnly s t := by simpa only [h] using (noteClamps_sounded k false (decide (delayRaw p b0 e > p.dmaxDelay)) o s).objects
    exact ((ht.trans (ringZero_objects ..)).trans (dramFill_objects ..)).trans ⟨_, _, _, _, _, _, _, rfl⟩

theorem txStart_netted (b s) : NetOnly s (txStart b s) := by
  unfold txStart
  induction s.img.tx.zipIdx generalizing s with
  | nil => exact .refl s
  | cons x xs ih => exact NetOnly.trans (net_only ..) (ih _)

/-- The state at which a unit in ALONE takes its tenure: objects and streams stand at the grid's first block. -/
def audioReady (s : State) : State :=
  txStart s.twin.proposal ((List.range s.img.objs.length).foldl (fun t k => objInit k (t.j0 s.twin.proposal) t)
    (gridBegun s.twin.proposal s))

theorem audioReady_frame (s : State) : (audioReady s).grid = (gridBegun s.twin.proposal s).grid
    ∧ (audioReady s).clk = (gridBegun s.twin.proposal s).clk ∧ (audioReady s).twin = s.twin
    ∧ (s.img.objs = [] → (audioReady s).mem = s.mem) := by
  obtain ⟨u, hu⟩ : ∃ u, u = (List.range s.img.objs.length).foldl (fun t k => objInit k (t.j0 s.twin.proposal) t)
    (gridBegun s.twin.proposal s) := ⟨_, rfl⟩
  have ho : ObjectsOnly (gridBegun s.twin.proposal s) u := hu ▸ .foldl (fun _ _ => objInit_objects ..) ..
  have hm : s.img.objs = [] → u.mem = s.mem := fun h => by
    rw [hu, h]
    rfl
  have hn : NetOnly u (audioReady s) := hu ▸ txStart_netted ..
  obtain ⟨_, _, _, _, _, _, _, _, hn⟩ := hn
  obtain ⟨_, _, _, _, _, _, _, ho⟩ := ho
  rw [hn]
  exact ⟨(congrArg State.grid ho).trans rfl, (congrArg State.clk ho).trans rfl, (congrArg State.twin ho).trans rfl, hm⟩

theorem audioStart_alone (h1 : s.clk.step = 11) (h2 : s.clk.audio = false) (h3 : s.clk.inReset = false) (h4 : s.twin.st = 0)
    (h5 : (startActing (audioReady s)).twin.st = 0) : audioStart s
      = evcOccur 0x101 1 (evcOccur 0x100 1 (emitByState s.twin.proposal (startActing (audioReady s)))) := by
  have hst : (audioReady s).twin.st = 0 := (congrArg Twin.st (audioReady_frame s).2.2.1).trans h4
  have e : audioStart s = evcOccur 0x101 1 (evcOccur 0x100 1 (
      let joint := decide ((audioReady s).twin.phase = 5)
      let t := if (audioReady s).twin.st = 0 ∨ (audioReady s).twin.st = 2 then startActing (audioReady s) else audioReady s
      if t.twin.st = 4 then enterResync joint t else if t.twin.st = 3 then enterSuspect t
      else emitByState s.twin.proposal t)) := if_neg (by simp [h1, h2, h3])
  rw [e, if_pos (Or.inl hst)]
  dsimp only
  rw [h5, if_neg (by decide), if_neg (by decide)]

theorem startAudio_alone (h1 : s.clk.step = 11) (h2 : s.clk.audio = false) (h3 : s.clk.inReset = false) (h4 : s.twin.st = 0) :
    ∃ t, exec .audioStart s = .next t ∧ t.grid.running = true ∧ t.grid.block = s.twin.proposal ∧ t.grid.sub = 0
      ∧ t.grid.prevMet = true ∧ t.clk.audio = true ∧ t.clk.bootMs = (s.clk.safe - s.clk.pgoodAt) / 32000
      ∧ t.twin.acts = true ∧ t.twin.tenure = s.twin.proposal ∧ t.pending = s.pending
      ∧ (s.img.objs = [] → t.mem = s.mem) := by
  obtain ⟨hg, hc, ht, hm⟩ := audioReady_frame s
  obtain ⟨a, hd⟩ := startActing_domains (audioReady s)
  obtain ⟨u, hu⟩ : ∃ u, u = startActing (audioReady s) := ⟨_, rfl⟩
  have h5 : u.twin.st = 0 := by
    obtain ⟨_, _, _, _, _, _, _, _, hd⟩ := hd
    rw [hu, hd]
    exact (congrArg Twin.st ht).trans h4
  have hG : Ground { acting (audioReady s) with sap := a } (startAudio s) := by
    have e := audioStart_alone h1 h2 h3 h4 (hu ▸ h5)
    have h : Ground { acting (audioReady s) with sap := a } (audioStart s) := by
      rw [e]
      exact ((hd.ground.trans (emitByState_wire ..).ground).trans (evcOccur_ground ..)).trans (evcOccur_ground ..)
    exact .ite h (h.trans (firstTick_ground _))
  refine ⟨_, rfl, ?_, ?_, ?_, ?_, ?_, ?_, ?_, ?_, ?_, ?_⟩
  · exact hG.running.trans (congrArg Grid.running hg)
  · exact hG.block.trans (congrArg Grid.block hg)
  · exact hG.sub.trans (congrArg Grid.sub hg)
  · exact hG.prevMet.trans (congrArg Grid.prevMet hg)
  · exact (congrArg Clk.audio hG.clk).trans (congrArg Clk.audio hc)
  · exact (congrArg Clk.bootMs hG.clk).trans (congrArg Clk.bootMs hc)
  · exact hG.acts
  · exact hG.tenure.trans (congrArg Grid.block hg)
  · exact (startAudio_keeps s).1
  · exact fun h => hG.mem.trans (hm h)

/-- Settles O25: a unit whose partner stays away goes to ALONE; the grid starts at its own proposal, where it begins to act, and
the work of the first tick leaves grid, clocks, memory and token as they then stand. -/
theorem audioStarts : Obligations.AudioStarts := fun _ hr =>
  ⟨noPartnerTimeout_row hr, helloTimeout_row, fun h1 h2 h4 => startAudio_alone h1 h2 hr h4⟩

end Sys2Proof.Machine
end

section
/-!
SUPPORT. What the sections of the engine leave alone: the scheduler's tables, where the grid stands and the count of misses.
-/
namespace Sys2Proof.Machine

/-! ### Work that leaves the schedule alone -/

/-- The scheduler's state, where the grid stands, the counter of time and the count of deadline misses (R245) are the same. -/
structure Working (s t : State) : Prop where
  sched : t.sched = s.sched
  block : t.grid.block = s.grid.block
  sub : t.grid.sub = s.grid.sub
  running : t.grid.running = s.grid.running
  prevMet : t.grid.prevMet = s.grid.prevMet
  cnt : t.time.cnt = s.time.cnt
  inc : t.time.inc = s.time.inc
  misses : cget 0x10040020 0 t = cget 0x10040020 0 s

theorem Working.refl (s : State) : Working s s := ⟨rfl, rfl, rfl, rfl, rfl, rfl, rfl, rfl⟩
theorem Working.trans {s t u : State} (h : Working s t) (k : Working t u) : Working s u :=
  ⟨k.sched.trans h.sched, k.block.trans h.block, k.sub.trans h.sub, k.running.trans h.running, k.prevMet.trans h.prevMet,
    k.cnt.trans h.cnt, k.inc.trans h.inc, k.misses.trans h.misses⟩
theorem Working.ite {c : Prop} [Decidable c] {s t u : State} (ht : Working s t) (hu : Working s u) :
    Working s (if c then t else u) := by
  split
  · exact ht
  · exact hu
theorem Working.foldl {α : Type} {f : State → α → State} (h : ∀ s x, Working s (f s x)) (xs : List α) (s : State) :
    Working s (xs.foldl f s) := by
  induction xs generalizing s with
  | nil => exact .refl s
  | cons x xs ih => exact (h s x).trans (ih _)
theorem Working.of {s t : State} (hs : t.sched = s.sched) (hg : t.grid = s.grid) (ht : t.time = s.time)
    (hb : t.bus.ctr = s.bus.ctr) : Working s t :=
  ⟨hs, congrArg Grid.block hg, congrArg Grid.sub hg, congrArg Grid.running hg, congrArg Grid.prevMet hg,
    congrArg Time.cnt ht, congrArg Time.inc ht, congrArg (sget 0 (rkey 0x10040020 0)) hb⟩
theorem Working.clocked {s t : State} (h : Working s t) : Clocked s t :=
  ⟨h.block, h.sub, h.running, h.prevMet, congrArg Sched.load h.sched, congrArg Sched.loadNow h.sched⟩

theorem Counted.working {l : List (Nat × Nat)} {s t : State} (h : Counted l s t)
    (hl : ∀ e ∈ l, rkey 0x10040020 0 ≠ rkey e.1 e.2) (hs : t.sched = s.sched) (hg : t.grid = s.grid)
    (hc : t.time.cnt = s.time.cnt) (hi : t.time.inc = s.time.inc) : Working s t :=
  ⟨hs, congrArg Grid.block hg, congrArg Grid.sub hg, congrArg Grid.running hg, congrArg Grid.prevMet hg, hc, hi,
    h.kept _ _ hl⟩

theorem count_working {a i : Nat} (h : rkey 0x10040020 0 ≠ rkey a i) (n s) : Working s (count a i n s) :=
  ⟨rfl, rfl, rfl, rfl, rfl, rfl, rfl, cget_count_of_ne h n s⟩
theorem raiseAt_working (tick code arg s) : Working s (raiseAt tick code arg s) := by
  have h : Counted tokenCounters s (raiseAt tick code arg s) := raiseAt_counted (by decide) ..
  exact h.working (by decide) (raiseAt_sched ..) (raiseAt_grid ..) (congrArg Time.cnt (raiseAt_time ..)) (congrArg Time.inc (raiseAt_time ..))
theorem raise_working (code arg s) : Working s (raise code arg s) := raiseAt_working ..
theorem raiseOnce_working (code arg s) : Working s (raiseOnce code arg s) := by
  refine .ite (.refl s) (Working.trans ?_ (raise_working ..))
  exact .of rfl rfl rfl rfl
theorem lapseAt_working (tick s) : Working s (lapseAt tick s) := by
  unfold lapseAt
  refine .ite (.refl s) (.ite ?_ ⟨rfl, rfl, rfl, rfl, rfl, rfl, rfl, rfl⟩)
  extract_lets -underBinder _ t
  have ht : Working s t := ⟨rfl, rfl, rfl, rfl, rfl, rfl, rfl, rfl⟩
  exact .ite (ht.trans (raiseAt_working ..)) ht

theorem smp_working (s : State) (m) : Working s { s with smp := m } := .of rfl rfl rfl rfl
theorem objSet_working (k o s) : Working s (objSet k o s) := .of rfl rfl rfl rfl
theorem chSet_working (k c s) : Working s (chSet k c s) := .of rfl rfl rfl rfl
theorem coreSet_working (k c s) : Working s (coreSet k c s) := .of rfl rfl rfl rfl
theorem dacSet_working (k d s) : Working s (dacSet k d s) := .of rfl rfl rfl rfl
theorem mx_working (s : State) (m) : Working s { s with mx := m } := .of rfl rfl rfl rfl

theorem dramWriteIn_working (a l s) : Working s (dramWriteIn a l s) := by
  unfold dramWriteIn
  refine .ite (.refl s) ?_
  extract_lets -underBinder w marked base _ u
  have hu : Working s u := .of rfl rfl rfl rfl
  exact .ite (hu.trans (count_working (by decide) ..)) hu

theorem dramWrite_working (n a l s) : Working s (dramWrite n a l s) := by
  induction n generalizing a l s with
  | zero => exact .refl s
  | succ n ih =>
    rw [dramWrite]
    exact .ite (.refl s) ((dramWriteIn_working ..).trans (ih ..))

theorem dramPut_working (a l s) : Working s (dramPut a l s) := dramWrite_working ..

/-! ### Objects and panning (classes 0 and 1) -/

theorem noteClamps_working (k glide clamp o s) : Working s (noteClamps k glide clamp o s).2 := by
  unfold noteClamps
  extract_lets -underBinder t u v w
  have ht : Working s t := .ite (count_working (by decide) ..) (.refl s)
  have hu : Working s u := .ite (ht.trans (raise_working ..)) ht
  have hv : Working s v := .ite (hu.trans (count_working (by decide) ..)) hu
  exact .ite (hv.trans (raise_working ..)) hv

theorem evalBoundary_working (k p b o s) : Working s (evalBoundary k p b o s).2.2.2 := by
  unfold evalBoundary
  extract_lets -underBinder o' raw pb g ex t
  have ht : Working s t := dramPut_working ..
  clear_value t
  split
  split
  exact ht

theorem objSubs_working (k p src n b o acc s) : Working s (objSubs k p src n b o acc s).2.2 := by
  induction n generalizing b o acc s with
  | zero => exact .refl s
  | succ n ih =>
    rw [objSubs]
    split
    rename_i o1 glide clamp t h
    have ht : Working s t := by simpa only [h] using evalBoundary_working k p (b + p.S) o s
    split
    rename_i o2 u h'
    have hu : Working s u := ht.trans (by simpa only [h'] using noteClamps_working k glide clamp o1 t)
    split
    exact hu.trans (ih ..)

theorem ringPut_working (k i l s) : Working s (ringPut k i l s) := dramPut_working ..

theorem objSection_working (a k s) : Working s (objSection a k s) := by
  unfold objSection
  split
  · exact .refl s
  · refine .ite (.refl s) ?_
    extract_lets -underBinder j src t
    have ht : Working s t := ringPut_working ..
    clear_value t
    generalize h : objSubs k (objPar t k) src 4 j { objGet k t with handed := [] } [] t = r
    have hu : Working s r.2.2 := ht.trans (h ▸ objSubs_working ..)
    obtain ⟨o, ys, u⟩ := r
    exact (hu.trans (smp_working u _)).trans (objSet_working ..)

theorem panRun_working (code k on o s) : Working s (panRun code k on o s).2 := by
  unfold panRun
  split
  · split
    · exact .refl s
    · exact raise_working ..
  · exact .refl s

theorem panStep_working (k hd o s) : Working s (panStep k hd o s).2 := by
  unfold panStep
  extract_lets -underBinder r g silent slots note t u v w x
  have hn : ∀ on ctr code y, rkey 0x10040020 0 ≠ rkey ctr 0 → Working y (note on ctr code y) := fun _ _ _ y h =>
    .ite ((count_working h ..).trans (raise_working ..)) (.refl y)
  have ht : Working s t := hn _ _ _ _ (by decide)
  have hu : Working s u := ht.trans (hn _ _ _ _ (by decide))
  have hv : Working s v := hu.trans (hn _ _ _ _ (by decide))
  have hw : Working s w := hv.trans (hn _ _ _ _ (by decide))
  have hx : Working s x := .ite (hw.trans (count_working (by decide) ..)) hw
  clear_value x
  split
  rename_i o' y h
  exact hx.trans (by simpa only [h] using panRun_working 0x25 k silent o x)

theorem panSteps_working (k : Nat) (l : List Handed) (o : ObjState) (s : State) :
    Working s (l.foldl (fun p hd => panStep k hd p.1 p.2) (o, s)).2 := by
  induction l generalizing o s with
  | nil => exact .refl s
  | cons hd l ih => exact (panStep_working k hd o s).trans (ih ..)

theorem panSection_working (k s) : Working s (panSection k s) := by
  unfold panSection
  refine .ite (.refl s) ?_
  extract_lets -underBinder o
  split
  rename_i o' t h
  have ht : Working s t := by simpa only [h] using panSteps_working k o.handed { o with panSub := [], handed := [] } s
  exact ht.trans (objSet_working ..)

/-! ### The matrix (class 2) -/

theorem noteBusSat_working (k s) : Working s (noteBusSat k s) := by
  refine .ite (.refl s) (Working.trans ?_ (raiseOnce_working ..))
  exact (count_working (by decide) 1 s).trans (mx_working ..)

theorem busReplace_working (a k ys s) : Working s (busReplace a k ys s) := by
  unfold busReplace
  extract_lets -underBinder j _ t
  have ht : Working s t := smp_working s _
  exact ht.trans (.foldl (fun u _ => smp_working u _) ..)

theorem matrixSection_working (a k s) : Working s (matrixSection a k s) := by
  unfold matrixSection
  refine .ite (.refl s) ?_
  extract_lets -underBinder j
  split
  extract_lets -underBinder ys _ t u
  have ht : Working s t := smp_working s _
  have hu : Working s u := ht.trans (.foldl (fun v _ => smp_working v _) ..)
  exact .ite (hu.trans (noteBusSat_working ..)) hu

theorem fixReplay_working (s) : Working s (fixReplay s) := .ite (.refl s) (mx_working s _)
theorem prepareFix_working (f s) : Working s (prepareFix f s) := by
  refine .ite (.refl s) ((fixReplay_working s).trans ?_)
  exact mx_working ..
theorem fixPrepare_working (s) : Working s (fixPrepare s) := by
  unfold fixPrepare
  extract_lets -underBinder t
  have ht : Working s t := fixReplay_working s
  split
  · exact ht.trans (prepareFix_working ..)
  · exact ht
theorem matrixReport_working (a s) : Working s (matrixReport a s) := mx_working s _

/-! ### Speaker chains (classes 3, 4 and 7) -/

theorem setPoison_working (s) : Working s (setPoison s) := by
  refine Working.trans ?_ (lapseAt_working ..)
  exact ⟨rfl, rfl, rfl, rfl, rfl, rfl, rfl, rfl⟩

theorem noteSpkSat_working (sel b sat s) : Working s (noteSpkSat sel b sat s) := by
  unfold noteSpkSat
  extract_lets -underBinder c first c' t _ u
  have ht : Working s t := (chSet_working ..).trans (count_working (by decide) ..)
  have hu : Working s u := ht.trans (.of rfl rfl rfl rfl)
  exact .ite (.ite (hu.trans (raise_working ..)) hu) (.refl s)

theorem spkDynamics_working (a sel s) : Working s (spkDynamics a sel s) := by
  unfold spkDynamics
  split
  · exact .refl s
  · extract_lets -underBinder st c j xs
    refine .ite (.refl s) ?_
    split
    extract_lets -underBinder trimS d dynS al _ s' c' before
    have hs : Working s s' := smp_working s _
    exact ((hs.trans (chSet_working ..)).trans (noteSpkSat_working ..)).trans (noteSpkSat_working ..)

theorem genOutput_working (a sel s) : Working s (genOutput a sel s) := by
  unfold genOutput
  split
  · exact .refl s
  · extract_lets -underBinder j c ys _ t
    have ht : Working s t := smp_working s _
    exact ht.trans (.foldl (fun u _ => smp_working u _) ..)

theorem spkOutput_working (a sel cs s) : Working s (spkOutput a sel cs s) := by
  unfold spkOutput
  extract_lets -underBinder o c
  split
  exact ((smp_working s _).trans (chSet_working ..)).trans (noteSpkSat_working ..)

theorem convSection_working (a sel s) : Working s (convSection a sel s) := by
  unfold convSection
  refine .ite (.refl s) ?_
  split
  extract_lets -underBinder bad t
  have ht : Working s t := .ite (.refl s) ((count_working (by decide) ..).trans (setPoison_working _))
  exact (ht.trans (noteSpkSat_working ..)).trans (spkOutput_working ..)

theorem directSection_working (q ch s) : Working s (directSection q ch s) := by
  unfold directSection
  extract_lets -underBinder sel
  split
  · exact .refl s
  · refine .ite (.refl s) ?_
    extract_lets -underBinder j c
    split
    split
    extract_lets -underBinder trimS d o
    split
    extract_lets -underBinder _ t u
    have ht : Working s t := smp_working s _
    have hu : Working s u := ht.trans (chSet_working ..)
    exact Working.trans (.ite (hu.trans (noteBusSat_working ..)) hu) (noteSpkSat_working ..)

theorem sectionOne_working (cls i a sub k s) : Working s (sectionOne cls i a sub k s) := by
  unfold sectionOne
  extract_lets -underBinder own
  split
  · extract_lets -underBinder t
    have ht : Working s t := objSection_working ..
    clear_value t
    split
    · exact ht.trans (smp_working t _)
    · exact ht
  · exact panSection_working ..
  · extract_lets -underBinder t
    have ht : Working s t := matrixSection_working ..
    exact .ite (ht.trans (busReplace_working ..)) ht
  · extract_lets -underBinder t
    have ht : Working s t := spkDynamics_working ..
    exact .ite (ht.trans (genOutput_working ..)) ht
  · exact convSection_working ..
  · exact directSection_working ..
  · exact .refl s

/-! ### Programs of the effect cores (class 6) -/

theorem logEntry_working (k a s) : Working s (logEntry k a s) := .of rfl rfl rfl rfl

theorem sramPoison_working (array word now s) : Working s (sramPoison array word now s) := by
  unfold sramPoison
  extract_lets -underBinder t _ u
  have ht : Working s t := count_working (by decide) ..
  have hu : Working s u := ht.trans (.of rfl rfl rfl rfl)
  exact ((hu.trans (setPoison_working _)).trans (logEntry_working ..)).trans (raise_working ..)

theorem TwinOnly.time {s t : State} (h : TwinOnly s t) : t.time = s.time := by
  obtain ⟨_, rfl⟩ := h
  rfl

/-- A fault of the token leaves the counter of time alone. -/
theorem tokenFault_cnt (fault : Nat) (s : State) :
    (tokenFault fault s).time.cnt = s.time.cnt ∧ (tokenFault fault s).time.inc = s.time.inc := by
  have hl : (latentFault s).time = s.time := (latentFault_only s).time
  have hr : (tokenRelease fault s).time = s.time ∨ (tokenRelease fault s).time = (stopActing s).time := by
    unfold tokenRelease
    extract_lets h _ t u v w
    split
    · exact .inl rfl
    · refine .inr ((raise_time ..).trans ?_)
      have hv : TwinOnly u v := (hbSend_only u).trans (controlSend_only ..)
      exact (emitByState_only h v).time.trans hv.time
  have hd : (stopActing s).time.cnt = s.time.cnt ∧ (stopActing s).time.inc = s.time.inc := by
    obtain ⟨_, _, _, _, _, _, _, _, h⟩ := stopActing_domains s
    rw [h]
    exact ⟨rfl, rfl⟩
  unfold tokenFault
  split
  · obtain hr | hr := hr
    · rw [hr]
      exact ⟨rfl, rfl⟩
    · rw [hr]
      exact hd
  · rw [hl]
    exact ⟨rfl, rfl⟩

theorem burstCheck_cnt (s : State) : (burstCheck s).time.cnt = s.time.cnt ∧ (burstCheck s).time.inc = s.time.inc := by
  unfold burstCheck
  split
  · exact tokenFault_cnt ..
  · exact ⟨rfl, rfl⟩

theorem burstCheck_working (s) : Working s (burstCheck s) := by
  obtain ⟨_, _, _, _, _, _, h⟩ := burstCheck_event s
  obtain ⟨hc, hi⟩ := burstCheck_cnt s
  exact (burstCheck_counted s).working (by decide) (by rw [h]) (by rw [h]) hc hi

theorem deliverWord_working (k y w s) : Working s (deliverWord k y w s) :=
  (sramPoison_working ..).trans (burstCheck_working _)

theorem deliverMarked_working (k y w n s) : Working s (deliverMarked k y w n s) :=
  .ite (.refl s) (.foldl (fun _ _ => deliverWord_working ..) ..)

theorem outputCopy_working (k c p node block sub s) : Working s (outputCopy k c p node block sub s) := by
  unfold outputCopy
  extract_lets -underBinder n o
  refine .foldl (fun t r => .ite (.refl t) (.foldl (fun u l => ?_) ..)) ..
  extract_lets -underBinder v xs ys
  have hv : Working u v := .ite (deliverMarked_working ..) (.refl u)
  exact hv.trans (smp_working v _)

theorem dropCtx_working (k node s) : Working s (dropCtx k node s) := coreSet_working ..

theorem ecAddr_ne_misses (k off : Nat) : rkey 0x10040020 0 ≠ rkey (ecAddr k off) 0 := by
  unfold rkey ecAddr
  omega

theorem ecFinish_working (k node s) : Working s (ecFinish k node s) := by
  unfold ecFinish
  split
  · extract_lets -underBinder t e u v
    have ht : Working s t := outputCopy_working ..
    have hu : Working s u := ht.trans (coreSet_working ..)
    have hv : Working s v := hu.trans (count_working (ecAddr_ne_misses _ _) ..)
    exact Working.trans (.ite (hv.trans (count_working (ecAddr_ne_misses _ _) ..)) hv) (dropCtx_working ..)
  · exact .refl s

theorem coreWrite_working (k y w l s) : Working s (coreWrite k y w l s) := .of rfl rfl rfl rfl

theorem inputCopy_working (k p block sub s) : Working s (inputCopy k p block sub s) :=
  .foldl (fun t _ => .ite (.refl t) (coreWrite_working ..)) ..

/-! ### Held-back outputs, and what an abandoned instance owes (R248, R251) -/

theorem heldApply_working (h s) : Working s (heldApply h s) := by
  unfold heldApply
  extract_lets -underBinder _ t u
  have ht : Working s t := smp_working s _
  have hu : Working s u := ht.trans (.foldl (fun _ _ => objSet_working ..) ..)
  exact hu.trans (.foldl (fun _ _ => objSet_working ..) ..)

theorem streamed_working (n s) : Working s (streamed n s) := by
  refine .foldl (fun t e => .ite ?_ (.refl t)) ..
  split
  · exact heldApply_working ..
  · exact .refl t

theorem withhold_working (cls work s t) : Working t (withhold cls work s t) := by
  unfold withhold
  extract_lets -underBinder _ u
  have hu : Working t u := smp_working t _
  clear_value u
  split
  · exact hu.trans (.foldl (fun _ _ => objSet_working ..) ..)
  · exact hu.trans (.foldl (fun _ _ => objSet_working ..) ..)
  · exact hu

theorem zeroOne_working (cls a sub k s) : Working s (zeroOne cls a sub k s) := by
  unfold zeroOne
  extract_lets -underBinder z
  split
  · split
    · exact smp_working s _
    · exact .refl s
  · exact objSet_working ..
  · exact busReplace_working ..
  · exact chSet_working ..
  · exact chSet_working ..
  · exact smp_working s _
  · exact .refl s

theorem oweBefore_working (n x i block work s) : Working s (oweBefore n x i block work s) := by
  refine .ite (.refl s) ?_
  split
  · exact .ite (heldApply_working ..) (.foldl (fun _ _ => sectionOne_working ..) ..)
  · exact .foldl (fun _ _ => sectionOne_working ..) ..

end Sys2Proof.Machine
end

section
/-!
PROOF. Dispatch, completion, release and deadlines of instances (O40).
-/
namespace Sys2Proof.Machine

variable {s : State}

theorem foldl_smp {α : Type} {f : State → α → State} (h : ∀ s x, (f s x).smp = s.smp) (l : List α) (s : State) :
    (l.foldl f s).smp = s.smp := foldl_keeps State.smp f h l s

/-! ### The states of graph nodes -/

theorem statGet_congr {s t : State} (h : t.sched.stat = s.sched.stat) (i : Nat) : statGet i t = statGet i s := by
  unfold statGet
  rw [h]
theorem statGet_statSet_self (i : Nat) (v : NodeStat) (s : State) : statGet i (statSet i v s) = v := sget_sset_self ..
theorem statGet_statSet_of_ne {i j : Nat} (h : i ≠ j) (v : NodeStat) (s : State) :
    statGet i (statSet j v s) = statGet i s := sget_sset_of_ne _ _ h _ _

/-- A node whose instance of the period has begun is not passed over. -/
theorem skipNodes_statGet {n : GNode} {i : Nat} (hn : s.sched.graph[i]? = some n) (ha : atNow s n i = true) :
    statGet i (skipNodes s) = statGet i s := by
  have hl : ∀ e ∈ s.sched.graph.zipIdx, e.2 = i → e.1 = n := fun e he hi => by
    have h := List.mem_zipIdx_iff_getElem?.mp he
    rw [hi, hn] at h
    exact (Option.some.inj h).symm
  unfold skipNodes
  refine (List.foldlRecOn (motive := fun t => t.grid = s.grid ∧ statGet i t = statGet i s) _ _ ⟨rfl, rfl⟩ ?_).2
  intro t ⟨hg, ht⟩ e he
  have hat : ready t n i = false := by
    have h : atNow t n i = true := by
      unfold atNow nodeSub at ha ⊢
      rw [ht, hg]
      exact ha
    unfold ready
    rw [h]
    rfl
  split
  next h =>
    refine ⟨hg, ?_⟩
    rw [statGet_statSet_of_ne ?_, ht]
    rintro rfl
    rw [hl e he rfl, hat] at h
    cases h
  next => exact ⟨hg, ht⟩

/-- The same state but for the states of the graph's nodes. -/
def StatOnly (s t : State) : Prop := ∃ st, t = { s with sched := { s.sched with stat := st } }

theorem StatOnly.refl (s : State) : StatOnly s s := ⟨_, rfl⟩
theorem StatOnly.trans {s t u : State} (h : StatOnly s t) (k : StatOnly t u) : StatOnly s u := by
  obtain ⟨_, rfl⟩ := h
  obtain ⟨_, rfl⟩ := k
  exact ⟨_, rfl⟩

theorem skipNodes_stat (s : State) : StatOnly s (skipNodes s) := by
  unfold skipNodes
  refine List.foldlRecOn (motive := StatOnly s) _ _ (.refl s) fun t ht e _ => ?_
  split
  · exact ht.trans ⟨_, rfl⟩
  · exact ht

/-- The same state but for the capture, DRAM's bytes, the marks of its words and counters. -/
def CaptureOnly (s t : State) : Prop := ∃ k d p w c n, t = { s with
  cap := k, mem := { s.mem with dram := d, poison := p, writeBack := w }, bus := { s.bus with ctr := c, total := n } }

theorem captureTry_only (s : State) : CaptureOnly s (captureTry s) := by
  unfold captureTry
  extract_lets c m due pos taps t _
  split
  · obtain ⟨_, _, _, _, _, h⟩ : DramOnly s t := DramOnly.put ..
    clear_value t
    rw [h]
    exact ⟨_, _, _, _, _, _, rfl⟩
  · exact ⟨_, _, _, _, _, _, rfl⟩

theorem captureTry_working (s : State) : Working s (captureTry s) := by
  unfold captureTry
  extract_lets c m due pos taps t _
  have ht : Working s t := dramPut_working ..
  exact .ite (ht.trans (.of rfl rfl rfl rfl)) (.refl s)

/-- Nodes that the stop bath skips, and the capture's frame, change nothing else (R242, R227). -/
theorem settleNow_only (s : State) : ∃ st, CaptureOnly { s with sched := { s.sched with stat := st } } (settleNow s) := by
  obtain ⟨st, hs⟩ := skipNodes_stat s
  exact ⟨st, hs ▸ captureTry_only (skipNodes s)⟩

theorem settleNow_statGet {n : GNode} {i : Nat} (hn : s.sched.graph[i]? = some n) (ha : atNow s n i = true) :
    statGet i (settleNow s) = statGet i s :=
  (statGet_congr (congrArg Sched.stat (captureTry_working (skipNodes s)).sched) i).trans (skipNodes_statGet hn ha)

/-! ### Dispatch (R240, R241) -/

theorem adcNeed_working (q s) : Working s (adcNeed q s) := by
  unfold adcNeed
  extract_lets note run _ t _ u
  have hn : ∀ x b y, Working y (note x b y) := fun _ _ _ => .of rfl rfl rfl rfl
  clear_value note
  have ht : Working s t := (hn ..).trans (count_working (by decide) ..)
  clear_value t
  have hu : Working s u := by
    refine ht.trans (Working.trans ?_ (lapseAt_working ..))
    exact .of rfl rfl rfl rfl
  clear_value u
  exact .ite (.refl s) (.ite (.of rfl rfl rfl rfl) (.ite hu (hu.trans (raise_working ..))))

theorem adcCheck_working (n i s) : Working s (adcCheck n i s) :=
  .ite (.refl s) (.ite (.ite (.refl s) (adcNeed_working ..)) (.ite (.refl s) (.foldl (fun _ _ => adcNeed_working ..) ..)))

/-- The instances in flight are the same, and of each node the start, the block and the mark of its release. -/
structure Begun (s t : State) : Prop where
  inFlight : t.sched.inFlight = s.sched.inFlight
  start : ∀ i, (statGet i t).start = (statGet i s).start
  released : ∀ i, (statGet i t).released = (statGet i s).released
  block : ∀ i, (statGet i t).block = (statGet i s).block

theorem Begun.refl (s : State) : Begun s s := ⟨rfl, fun _ => rfl, fun _ => rfl, fun _ => rfl⟩
theorem Begun.trans {s t u : State} (h : Begun s t) (k : Begun t u) : Begun s u :=
  ⟨k.inFlight.trans h.inFlight, fun i => (k.start i).trans (h.start i), fun i => (k.released i).trans (h.released i),
    fun i => (k.block i).trans (h.block i)⟩
theorem Working.begun {s t : State} (h : Working s t) : Begun s t := by
  have e : ∀ i, statGet i t = statGet i s := statGet_congr (congrArg Sched.stat h.sched)
  exact ⟨congrArg Sched.inFlight h.sched, fun i => congrArg NodeStat.start (e i), fun i => congrArg NodeStat.released (e i),
    fun i => congrArg NodeStat.block (e i)⟩

theorem preempted_begun (j : Nat) (s : State) : Begun s (statSet j { statGet j s with preempted := true } s) := by
  have e : ∀ i, ∃ p, statGet i (statSet j { statGet j s with preempted := true } s) = { statGet i s with preempted := p } := by
    intro i
    by_cases h : i = j
    · exact ⟨true, h ▸ statGet_statSet_self ..⟩
    · exact ⟨(statGet i s).preempted, statGet_statSet_of_ne h ..⟩
  refine ⟨rfl, fun i => ?_, fun i => ?_, fun i => ?_⟩
  · obtain ⟨p, h⟩ := e i
    rw [h]
  · obtain ⟨p, h⟩ := e i
    rw [h]
  · obtain ⟨p, h⟩ := e i
    rw [h]

theorem notePreempt_begun (k s) : Begun s (notePreempt k s) := by
  unfold notePreempt
  split
  · exact .refl s
  · extract_lets t
    have ht : Working s t := (count_working (by decide) ..).trans (count_working (ecAddr_ne_misses _ _) ..)
    exact ht.begun.trans (preempted_begun ..)

theorem ecStart_begun (k node block sub s) : Begun s (ecStart k node block sub s) := by
  unfold ecStart
  split
  · extract_lets t c
    have ht : Begun s t := (notePreempt_begun ..).trans (inputCopy_working ..).begun
    exact ht.trans (coreSet_working ..).begun
  · exact .refl s

/-- The head of the ready list takes its place in flight, its ADC blocks checked before. -/
theorem dispatch_launches {cls time n j core} (hr : s.grid.running = true) (hf : (readied s).sched.inFlight.length < 256)
    (hp : pick cls time (readied s) = some (n, j, core)) : ∃ v t, Working (readied s) v
      ∧ t.sched.inFlight = v.sched.inFlight ++ [⟨j, v.grid.block, nodeSub v n, false, core, Held.none⟩]
      ∧ statGet j t = statStart v n j time ∧ Begun t (dispatch cls time s) := by
  generalize he : dispatch cls time s = d
  unfold dispatch at he
  rw [if_neg (by simp [hr])] at he
  generalize readied s = a at hf hp he ⊢
  extract_lets -underBinder b at he
  rw [if_neg (Nat.not_le.mpr hf : ¬256 ≤ b.sched.inFlight.length), (hp : pick cls time b = _)] at he
  dsimp -zeta only at he
  extract_lets v w fl _ t at he
  have hw : Working a v := adcCheck_working ..
  have hs : statGet j w = statStart v n j time := statGet_statSet_self ..
  have hn : nodeSub w n = nodeSub v n := rfl
  have hfl : t.sched.inFlight = v.sched.inFlight ++ [⟨j, v.grid.block, nodeSub v n, false, core, Held.none⟩] := rfl
  refine ⟨v, t, hw, hfl, hs, he ▸ ?_⟩
  split
  · exact ecStart_begun ..
  · exact .refl _

theorem instanceDispatch_row {cls time n j core} (hc : cls < 8) (hr : s.grid.running = true)
    (hf : (readied s).sched.inFlight.length < 256) (hp : pick cls time (readied s) = some (n, j, core)) :
    ∃ t, exec (.instanceDispatch cls time) s = .next t
      ∧ t.sched.inFlight
        = (readied s).sched.inFlight ++ [⟨j, (readied s).grid.block, nodeSub (readied s) n, false, core, Held.none⟩]
      ∧ (statGet j t).start = time % 256 ∧ (statGet j t).released = false ∧ (statGet j t).block = (readied s).grid.block := by
  obtain ⟨v, t, hw, hfl, hs, hb⟩ := dispatch_launches hr hf hp
  have hn : nodeSub v n = nodeSub (readied s) n := by
    unfold nodeSub
    rw [hw.sub]
  refine ⟨_, withInstance_next.mpr ⟨hc, rfl⟩, ?_, ?_, ?_, ?_⟩
  · rw [hb.inFlight, hfl, hw.sched, hw.block, hn]
  · rw [hb.start, hs]
    rfl
  · rw [hb.released, hs]
    rfl
  · rw [hb.block, hs, ← hw.block]
    rfl

/-! ### Completion (R246, R248) -/

theorem runSection_stat (n : GNode) (x : Inst) (work : List Nat) (s : State) :
    ∃ st, (runSection n x work s).sched = { s.sched with stat := st } := by
  unfold runSection
  extract_lets t _ u
  have ht : Working s t := .foldl (fun _ _ => sectionOne_working ..) ..
  obtain ⟨st, hu⟩ : ∃ st, u.sched = { s.sched with stat := st } := by
    rw [← ht.sched]
    exact ⟨_, rfl⟩
  refine ⟨st, ?_⟩
  clear_value u
  split
  · exact ((matrixReport_working ..).trans (fixPrepare_working _)).sched.trans hu
  · exact hu

theorem withhold_smp (cls : Nat) (work : List Nat) (s t : State) : let u := withhold cls work s t
    u.smp.lane = s.smp.lane ∧ u.smp.bus = s.smp.bus ∧ u.smp.out = s.smp.out := by
  have h : (withhold cls work s t).smp = { t.smp with
      lane := s.smp.lane, bus := s.smp.bus, align := s.smp.align, out := s.smp.out } := by
    unfold withhold
    extract_lets _ u
    split
    · exact Eq.trans (foldl_smp (by intros; rfl) ..) rfl
    · exact Eq.trans (foldl_smp (by intros; rfl) ..) rfl
    · rfl
  dsimp only
  rw [h]
  exact ⟨rfl, rfl, rfl⟩

/-- What an instance's operations leave, with the outputs of its STREAM producers before it. -/
def worked (n : GNode) (x : Inst) (i : Nat) (work : List Nat) (s : State) : State :=
  if n.kind = 1 then ecFinish x.core i (streamed n s) else if n.kind = 0 then runSection n x work (streamed n s) else streamed n s

theorem worked_stat (n : GNode) (x : Inst) (i : Nat) (work : List Nat) (s : State) :
    ∃ st, (worked n x i work s).sched = { s.sched with stat := st } := by
  have hs := (streamed_working n s).sched
  unfold worked
  split
  · exact ⟨s.sched.stat, (ecFinish_working ..).sched.trans hs⟩
  · split
    · obtain ⟨st, h⟩ := runSection_stat n x work (streamed n s)
      exact ⟨st, hs ▸ h⟩
    · exact ⟨s.sched.stat, hs⟩

theorem instanceComplete_row {i : Nat} {work : List Nat} {x : Inst} {n : GNode} (hi : i < 4096) (hx : flightOf i s = some x)
    (hn : s.sched.graph[i]? = some n) (hc : x.complete = false) (hd : streamsDone n s = true)
    (hk : n.kind ≠ 1 ∨ ecFinished x.core i s = true) :
    ∃ t held, exec (.instanceComplete i work) s = .next t
      ∧ t.sched.inFlight = s.sched.inFlight.map (fun y => if y.node = i then { y with complete := true, held := held } else y)
      ∧ t.sched.graph = s.sched.graph ∧ t.smp.lane = s.smp.lane ∧ t.smp.bus = s.smp.bus ∧ t.smp.out = s.smp.out := by
  obtain ⟨w, hw⟩ : ∃ w, w = withhold n.cls work s (worked n x i work s) := ⟨_, rfl⟩
  obtain ⟨held, hh⟩ : ∃ h, h = heldOf n.cls work (streamed n s) (worked n x i work s) := ⟨_, rfl⟩
  have e : complete i work s = flightSet i (fun x => { x with complete := true, held := held }) w := by
    unfold complete
    rw [hx, hn, hw, hh]
    exact if_neg (by
      obtain h | h := hk
      · simp [hc, hd, h]
      · simp [hc, hd, h])
  obtain ⟨st, hst⟩ := worked_stat n x i work s
  have hsched : w.sched = { s.sched with stat := st } := hw ▸ (withhold_working ..).sched.trans hst
  obtain ⟨h1, h2, h3⟩ := withhold_smp n.cls work s (worked n x i work s)
  rw [← hw] at h1 h2 h3
  refine ⟨_, held, withInstance_next.mpr ⟨hi, rfl⟩, ?_⟩
  rw [e]
  refine ⟨?_, ?_, h1, h2, h3⟩
  · have h := (congrArg Sched.inFlight hsched).trans rfl
    exact congrArg (List.map _) h
  · exact (congrArg Sched.graph hsched).trans rfl

/-! ### Release (R247, R248) -/

theorem heldApply_smp (h : Held) (s : State) : (heldApply h s).smp = { s.smp with
    lane := putAll h.lane s.smp.lane, bus := putAll h.bus s.smp.bus
    align := putAll h.align s.smp.align, out := putAll h.out s.smp.out } :=
  Eq.trans (foldl_smp (by intros; rfl) ..) (Eq.trans (foldl_smp (by intros; rfl) ..) rfl)

theorem heldApply_only (h : Held) (s : State) : ∃ m o, heldApply h s = { s with smp := m, obj := o } := by
  have hf : ∀ {α : Type} (f : State → α → State) (_ : ∀ s x, ∃ o, f s x = { s with obj := o }) (l : List α) (s : State),
      ∃ o, l.foldl f s = { s with obj := o } := fun f h l s => by
    induction l generalizing s with
    | nil => exact ⟨_, rfl⟩
    | cons x l ih =>
      obtain ⟨o, ho⟩ := h s x
      obtain ⟨o', ho'⟩ := ih (f s x)
      rw [List.foldl_cons, ho', ho]
      exact ⟨o', rfl⟩
  unfold heldApply
  extract_lets _ t u
  obtain ⟨o, hu⟩ : ∃ o, u = { t with obj := o } := hf _ (fun _ _ => ⟨_, rfl⟩) ..
  obtain ⟨o', hv⟩ := hf (fun s e => objSet e.1 { objGet e.1 s with panSub := e.2 } s) (fun _ _ => ⟨_, rfl⟩) h.pan u
  rw [hv, hu]
  exact ⟨_, o', rfl⟩

theorem sliceSend_only (s : State) : TwinOnly s (sliceSend s) := by
  unfold sliceSend
  split
  · exact .refl s
  · split
    · exact ⟨_, rfl⟩
    · split
      · split
        · exact ⟨_, rfl⟩
        · exact .refl s
      · extract_lets b bytes cuts t next _
        split
        · exact .refl s
        · have ht : TwinOnly s t := List.foldlRecOn (motive := TwinOnly s) _ _ (.refl s) fun _ h _ _ => h.trans (linkSend_only ..)
          exact ht.trans ⟨_, rfl⟩

theorem atNow_congr {s t : State} {n : GNode} {i : Nat} (hg : t.grid = s.grid) (ha : (statGet i t).any = (statGet i s).any)
    (hb : (statGet i t).block = (statGet i s).block) (hs : (statGet i t).sub = (statGet i s).sub) :
    atNow t n i = atNow s n i := by
  unfold atNow nodeSub
  dsimp only
  rw [hg, ha, hb, hs]

/-- An instance that is released, before its outputs become visible. -/
def leaves (n : GNode) (i time : Nat) (s : State) : State :=
  { statSet i { statGet i s with released := true, release := time % 256 } s with
    sched := { (statSet i { statGet i s with released := true, release := time % 256 } s).sched with
      inFlight := s.sched.inFlight.filter (fun y => decide (y.node ≠ i))
      loadNow := if n.subBlock then s.sched.loadNow else time % 256 } }

theorem release_clear {i time : Nat} {x : Inst} {n : GNode} (hx : flightOf i s = some x)
    (hn : s.sched.graph[i]? = some n) (hc : x.complete = true) (hf : flowClear s n = true) (hp : n.past time = false) :
    release i time s = settleNow (heldApply x.held (leaves n i time s)) := by
  unfold release
  rw [hx, hn]
  exact (if_pos (by simp [hc, hf])).trans (if_neg (by simp [hp]))

theorem leaves_statGet (n : GNode) (i time : Nat) (s : State) :
    statGet i (leaves n i time s) = { statGet i s with released := true, release := time % 256 } := statGet_statSet_self ..

theorem instanceRelease_row {i time : Nat} {x : Inst} {n : GNode} (hi : i < 4096) (hx : flightOf i s = some x)
    (hn : s.sched.graph[i]? = some n) (hc : x.complete = true) (hf : flowClear s n = true) (hp : n.past time = false)
    (ha : atNow s n i = true) :
    ∃ t, exec (.instanceRelease i time) s = .next t
      ∧ t = { s with sched := t.sched, smp := t.smp, obj := t.obj, mem := t.mem, cap := t.cap, twin := t.twin, bus := t.bus }
      ∧ t.bus.regs = s.bus.regs
      ∧ t.smp.lane = putAll x.held.lane s.smp.lane ∧ t.smp.bus = putAll x.held.bus s.smp.bus
      ∧ t.smp.align = putAll x.held.align s.smp.align ∧ t.smp.out = putAll x.held.out s.smp.out
      ∧ t.sched.inFlight = s.sched.inFlight.filter (fun y => decide (y.node ≠ i))
      ∧ statGet i t = { statGet i s with released := true, release := time % 256 }
      ∧ t.sched.loadNow = if n.subBlock then s.sched.loadNow else time % 256 := by
  obtain ⟨u, hu⟩ : ∃ u, u = heldApply x.held (leaves n i time s) := ⟨_, rfl⟩
  have hsmp : u.smp = _ := hu ▸ heldApply_smp x.held (leaves n i time s)
  obtain ⟨m, o, ho⟩ := heldApply_only x.held (leaves n i time s)
  rw [← hu] at ho
  have hsg : statGet i u = { statGet i s with released := true, release := time % 256 } := by
    rw [← leaves_statGet n i time s]
    exact statGet_congr ((congrArg (fun y : State => y.sched.stat) ho).trans rfl) i
  have hat : atNow u n i = true := by
    rw [← ha]
    exact atNow_congr ((congrArg State.grid ho).trans rfl) ((congrArg NodeStat.any hsg).trans rfl)
      ((congrArg NodeStat.block hsg).trans rfl) ((congrArg NodeStat.sub hsg).trans rfl)
  have hug : u.sched.graph[i]? = some n := by
    rw [← hn]
    exact (congrArg (fun y : State => y.sched.graph[i]?) ho).trans rfl
  have hst : statGet i (settleNow u) = _ := (settleNow_statGet hug hat).trans hsg
  obtain ⟨st, _, _, _, _, _, _, hk⟩ := settleNow_only u
  obtain ⟨w, hw⟩ := sliceSend_only (settleNow u)
  have e : exec (.instanceRelease i time) s = .next (sliceSend (settleNow u)) :=
    withInstance_next.mpr ⟨hi, by rw [release_clear hx hn hc hf hp, hu]⟩
  have hm : (settleNow u).smp = u.smp := (congrArg State.smp hk).trans rfl
  refine ⟨_, e, ?_⟩
  have hsg' : statGet i (sliceSend (settleNow u)) = statGet i (settleNow u) :=
    statGet_congr ((congrArg (fun y : State => y.sched.stat) hw).trans rfl) i
  rw [hsg', hst, hw]
  dsimp only
  rw [hm, hsmp]
  refine ⟨?_, ?_, rfl, rfl, rfl, rfl, ?_, rfl, ?_⟩
  · rw [hk, ho]
    rfl
  · rw [hk, ho]
    rfl
  · rw [hk, ho]
    rfl
  · rw [hk, ho]
    rfl

/-! ### Deadlines (R245, R251, R252) -/

/-- An abandoned instance leaves flight and counts as released; its owed outputs are computed or zeroed first (R251). -/
theorem abandon_settles {i : Nat} {n : GNode} (hn : s.sched.graph[i]? = some n) (b sub : Nat) (missed : Bool) (work : List Nat) :
    ∃ v u, Working s v ∧ u = statSet i { statGet i v with
        block := b, sub := sub, any := true, released := true, release := 0xFF, missed := missed } v
      ∧ abandon i b sub missed work s
        = settleNow { u with sched := { u.sched with inFlight := u.sched.inFlight.filter (fun y => decide (y.node ≠ i)) } } := by
  generalize he : abandon i b sub missed work s = d
  unfold abandon at he
  rw [hn] at he
  dsimp -zeta only at he
  extract_lets core v t u _ at he
  refine ⟨v, u, ?_, rfl, he.symm⟩
  refine .ite ?_ (.ite ((oweBefore_working ..).trans (.foldl (fun _ _ => zeroOne_working ..) ..)) (.refl s))
  split
  · exact (dropCtx_working ..).trans (outputCopy_working ..)
  · exact .refl s

/-- The state after an instance is abandoned, before the miss is told (R252). -/
theorem abandon_row {i : Nat} {n : GNode} (hn : s.sched.graph[i]? = some n) (b sub : Nat) (missed : Bool) (work : List Nat) :
    let t := abandon i b sub missed work s
    t.grid.block = s.grid.block ∧ t.grid.sub = s.grid.sub ∧ t.grid.running = s.grid.running
      ∧ t.sched.inFlight = s.sched.inFlight.filter (fun y => decide (y.node ≠ i))
      ∧ (b = s.grid.block → sub = nodeSub s n → statGet i t = { statGet i s with
          block := b, sub := sub, any := true, released := true, release := 0xFF, missed := missed })
      ∧ cget 0x10040020 0 t = cget 0x10040020 0 s := by
  obtain ⟨v, u, hv, hu, he⟩ := abandon_settles hn b sub missed work
  obtain ⟨w, hw⟩ : ∃ w : State, w = { u with sched := { u.sched with
    inFlight := u.sched.inFlight.filter (fun y => decide (y.node ≠ i)) } } := ⟨_, rfl⟩
  have hsg : statGet i v = statGet i s := statGet_congr (congrArg Sched.stat hv.sched) i
  have hwg : w.grid = v.grid := by
    rw [hw, hu]
    rfl
  have hwi : w.sched.inFlight = s.sched.inFlight.filter (fun y => decide (y.node ≠ i)) := by
    rw [hw, hu, ← hv.sched]
    rfl
  have hws : statGet i w = { statGet i s with
      block := b, sub := sub, any := true, released := true, release := 0xFF, missed := missed } := by
    have h : statGet i w = statGet i u := statGet_congr (hw ▸ rfl) i
    rw [h, hu, statGet_statSet_self, hsg]
  have hwc : cget 0x10040020 0 w = cget 0x10040020 0 s := by
    rw [← hv.misses, hw, hu]
    rfl
  have hwn : w.sched.graph[i]? = some n := by
    rw [← hn, ← hv.sched, hw, hu]
    rfl
  rw [← hw] at he
  have hk := captureTry_working (skipNodes w)
  obtain ⟨st, hst⟩ := skipNodes_stat w
  have hg : (skipNodes w).grid = v.grid := (congrArg State.grid hst).trans hwg
  rw [he]
  refine ⟨?_, ?_, ?_, ?_, fun hb hs => ?_, ?_⟩
  · exact hk.block.trans ((congrArg Grid.block hg).trans hv.block)
  · exact hk.sub.trans ((congrArg Grid.sub hg).trans hv.sub)
  · exact hk.running.trans ((congrArg Grid.running hg).trans hv.running)
  · exact (congrArg Sched.inFlight hk.sched).trans (((congrArg (fun x : State => x.sched.inFlight) hst).trans rfl).trans hwi)
  · have hat : atNow w n i = true := by
      unfold atNow nodeSub
      dsimp only
      rw [hws, hwg, hv.block, hv.sub, hb, hs]
      unfold nodeSub
      simp
    exact (settleNow_statGet hwn hat).trans hws
  · refine hk.misses.trans (Eq.trans ?_ hwc)
    rw [hst]
    rfl

theorem lapseAt_met (tick : Bool) (h : s.grid.running = true) : (lapseAt tick s).grid.met = false := by
  unfold lapseAt
  rw [if_neg (by simp [h])]
  split
  · extract_lets _ t
    split
    · rw [raiseAt_grid]
    · rfl
  next hm => exact Bool.eq_false_iff.mpr hm

theorem lapseAt_overload (tick : Bool) (s : State) : (lapseAt tick s).grid.overload = s.grid.overload := by
  unfold lapseAt
  split
  · rfl
  · split
    · extract_lets _ t
      split
      · rw [raiseAt_grid]
      · rfl
    · rfl

theorem deadlineMiss_row {i b sub : Nat} {work : List Nat} (hi : i < 4096) (hr : s.grid.running = true)
    (ho : overdue i s = some (b, sub)) :
    ∃ t, exec (.deadlineMiss i work []) s = .next t ∧ t.grid.overload = true ∧ t.grid.met = false
      ∧ t.sched.missLast = i + 2 ^ 31
      ∧ t.sched.inFlight = s.sched.inFlight.filter (fun y => decide (y.node ≠ i))
      ∧ (∀ n, s.sched.graph[i]? = some n → b = s.grid.block → sub = nodeSub s n → statGet i t = { statGet i s with
          block := b, sub := sub, any := true, released := true, release := 0xFF, missed := true })
      ∧ cget 0x10040020 0 t = min (cget 0x10040020 0 s + 1) 0xFFFFFFFF := by
  obtain ⟨n, hn⟩ : ∃ n, s.sched.graph[i]? = some n := by
    unfold overdue at ho
    cases hn : s.sched.graph[i]? with
    | none =>
      rw [hn] at ho
      cases ho
    | some n => exact ⟨n, rfl⟩
  obtain ⟨_, _, hrun, hfl, hsg, hcm⟩ := abandon_row hn b sub true work
  obtain ⟨a, ha⟩ : ∃ a, a = abandon i b sub true work s := ⟨_, rfl⟩
  obtain ⟨u, hu⟩ : ∃ u : State, u = { a with
    grid := { a.grid with overload := true }, sched := { a.sched with missLast := i % 4096 + 2 ^ 31 } } := ⟨_, rfl⟩
  have e : deadlineMiss i work [] s = raiseOnce 0x32 i (lapse (count 0x10040020 0 1 u)) := by
    unfold deadlineMiss
    rw [if_neg (by simp [hr]), ho, hu, ha]
    rfl
  rw [← ha] at hrun hfl hsg hcm
  have hw : Working (count 0x10040020 0 1 u) (raiseOnce 0x32 i (lapse (count 0x10040020 0 1 u))) :=
    (lapseAt_working ..).trans (raiseOnce_working ..)
  have hsched : (raiseOnce 0x32 i (lapse (count 0x10040020 0 1 u))).sched = u.sched := hw.sched
  have hstat : (raiseOnce 0x32 i (lapse (count 0x10040020 0 1 u))).sched.stat = a.sched.stat := by
    rw [hsched, hu]
  refine ⟨_, withInstance_next.mpr ⟨hi, rfl⟩, ?_⟩
  rw [e]
  refine ⟨?_, ?_, ?_, ?_, fun m hm hb hs => ?_, ?_⟩
  · rw [raiseOnce_grid]
    refine (lapseAt_overload ..).trans ?_
    rw [hu]
    rfl
  · rw [raiseOnce_grid]
    refine lapseAt_met _ ?_
    rw [hu]
    exact hrun.trans hr
  · rw [hsched, hu]
    exact congrArg (· + 2 ^ 31) (Nat.mod_eq_of_lt hi)
  · rw [hsched, hu]
    exact hfl
  · rw [hn] at hm
    cases hm
    exact (statGet_congr hstat i).trans (hsg hb hs)
  · rw [hw.misses, cget_count_self, ← hcm, hu]
    rfl

/-- Settles O40: dispatch, completion and release change the instances in flight and their node's state as the tables say, since the
sections themselves leave the schedule alone; an abandoned instance leaves flight and is counted. -/
theorem scheduling : Obligations.Scheduling := fun _ _ _ _ hi =>
  ⟨fun _ _ _ _ hc hr hf hp => instanceDispatch_row hc hr hf hp, fun _ _ hx hn hc hd hk => instanceComplete_row hi hx hn hc hd hk,
    fun _ _ hx hn hc hf hp ha => instanceRelease_row hi hx hn hc hf hp ha, fun _ _ hr ho => deadlineMiss_row hi hr ho⟩

end Sys2Proof.Machine
end

section
/-!
SUPPORT. What the delay lists, the stop bath and missed deadlines leave alone: where the grid stands, the load, and the counter
of time.
-/
namespace Sys2Proof.Machine

/-- The grid stands where it stood, the load is the same, and so are the counter of time and its increment. -/
structure Paced (s t : State) : Prop extends Clocked s t where
  cnt : t.time.cnt = s.time.cnt
  inc : t.time.inc = s.time.inc

theorem Paced.refl (s : State) : Paced s s := ⟨.refl s, rfl, rfl⟩
theorem Paced.trans {s t u : State} (h : Paced s t) (k : Paced t u) : Paced s u :=
  ⟨h.toClocked.trans k.toClocked, k.cnt.trans h.cnt, k.inc.trans h.inc⟩
theorem Paced.ite {c : Prop} [Decidable c] {s t u : State} (ht : Paced s t) (hu : Paced s u) :
    Paced s (if c then t else u) := by
  split
  · exact ht
  · exact hu
theorem Paced.foldl {α : Type} {f : State → α → State} (h : ∀ s x, Paced s (f s x)) (xs : List α) (s : State) :
    Paced s (xs.foldl f s) := by
  induction xs generalizing s with
  | nil => exact .refl s
  | cons x xs ih => exact (h s x).trans (ih _)
theorem Paced.of {s t : State} (hg : t.grid = s.grid) (hl : t.sched.load = s.sched.load)
    (hn : t.sched.loadNow = s.sched.loadNow) (ht : t.time = s.time) : Paced s t :=
  ⟨.of hg hl hn, congrArg Time.cnt ht, congrArg Time.inc ht⟩

theorem Working.paced {s t : State} (h : Working s t) : Paced s t := ⟨h.clocked, h.cnt, h.inc⟩
theorem Sounded.paced {s t : State} (h : Sounded s t) : Paced s t := by
  obtain ⟨_, _, _, _, _, rfl⟩ := h
  exact .of rfl rfl rfl rfl
theorem FixOnly.paced {s t : State} (h : FixOnly s t) : Paced s t := by
  obtain ⟨_, _, _, _, _, _, _, rfl⟩ := h
  exact .of rfl rfl rfl rfl
theorem ObjectsOnly.paced {s t : State} (h : ObjectsOnly s t) : Paced s t := by
  obtain ⟨_, _, _, _, _, _, _, rfl⟩ := h
  exact .of rfl rfl rfl rfl
theorem QueuesOnly.paced {s t : State} (h : QueuesOnly s t) : Paced s t := by
  obtain ⟨_, _, _, _, _, _, rfl⟩ := h
  exact .of rfl rfl rfl rfl
theorem StatOnly.paced {s t : State} (h : StatOnly s t) : Paced s t := by
  obtain ⟨_, rfl⟩ := h
  exact .of rfl rfl rfl rfl

theorem count_paced (a i n s) : Paced s (count a i n s) := (count_sounded ..).paced
theorem raiseTick_paced (code arg s) : Paced s (raiseTick code arg s) := (raiseAt_sounded ..).paced
theorem raise_paced (code arg s) : Paced s (raise code arg s) := (raise_sounded ..).paced
theorem sched_paced (s : State) (d3 d1 f) : Paced s { s with sched := { s.sched with dl3 := d3, dl1 := d1, fn := f } } :=
  .of rfl rfl rfl rfl
theorem fnSet_paced (k i f s) : Paced s (fnSet k i f s) := sched_paced ..
theorem objSet_paced (k o s) : Paced s (objSet k o s) := .of rfl rfl rfl rfl
theorem chSet_paced (k c s) : Paced s (chSet k c s) := .of rfl rfl rfl rfl
theorem portSet_paced (p v s) : Paced s (portSet p v s) := .of rfl rfl rfl rfl
theorem net_paced (s : State) (n) : Paced s { s with net := n } := .of rfl rfl rfl rfl
theorem txSet_paced (k v s) : Paced s (txSet k v s) := net_paced s _
theorem tgSet_paced (k g s) : Paced s (tgSet k g s) := .of rfl rfl rfl rfl
theorem convSet_paced (k c s) : Paced s (convSet k c s) := .of rfl rfl rfl rfl
theorem smp_paced (s : State) (m) : Paced s { s with smp := m } := .of rfl rfl rfl rfl
theorem mx_paced (s : State) (m) : Paced s { s with mx := m } := .of rfl rfl rfl rfl

/-! ### Fixes (R166, R167) -/

theorem fixFactors_paced (a t before s) : Paced s (fixFactors a t before s) := by
  obtain ⟨m, hm⟩ := fixFactors_only a t before s
  rw [hm]
  exact mx_paced s _
theorem reportChanges_paced (before s) : Paced s (reportChanges before s) := by
  obtain ⟨n, hn⟩ := reportChanges_only before s
  rw [hn]
  exact net_paced s n

theorem actFix_paced (f s) : Paced s (actFix f s) := by
  unfold actFix
  extract_lets a before t rs _ u v w x y
  have ht : Paced s t := (prepareFix_working ..).paced
  have hu : Paced s u := ht.trans (mx_paced t _)
  have ho : Paced u (overlay f.set u) := .of rfl rfl rfl rfl
  have hv : Paced s v := (hu.trans ho).trans (fixFactors_paced ..)
  have hw : Paced s w := hv.trans (fixRegs_only ..).paced
  have hx : Paced s x := hw.trans (.foldl (fun _ _ => (enterRecord_queues ..).paced) ..)
  clear_value x
  have hy : Paced s y := ((hx.trans (count_paced ..)).trans (evcOccur_sounded ..).paced).trans (reportChanges_paced ..)
  exact .ite (hy.trans (lapseAt_working ..).paced) hy

theorem fixAct_paced (s) : Paced s (fixAct s) := .ite (.refl s) (.foldl (fun _ _ => actFix_paced ..) ..)

/-! ### Requests and timers (R241, R228 to R230) -/

theorem reqPending_paced (k up s) : Paced s (reqPending k up s) := by
  unfold reqPending
  extract_lets step
  split
  · exact chSet_paced ..
  · exact tgSet_paced ..
  · exact .refl s

theorem actRequest_paced (r s) : Paced s (actRequest r s) := by
  unfold actRequest
  split
  · exact chSet_paced ..
  · exact portSet_paced ..
  · exact .ite (.ite (tgSet_paced ..) (.refl s)) (.ite (tgSet_paced ..) (.refl s))

theorem actRequests_paced (l s) : Paced s (actRequests l s) := by
  induction l generalizing s with
  | nil => exact .refl s
  | cons r l ih =>
    rw [actRequests]
    have ht : Paced s (reqPending r.kind false s) := reqPending_paced ..
    exact (Paced.ite ht (ht.trans (actRequest_paced ..))).trans (ih _)

theorem requestAct_paced (s) : Paced s (requestAct s) := by
  unfold requestAct
  extract_lets t due _ u
  have ht : Paced s t := fixAct_paced s
  exact .ite (.refl s) ((ht.trans (sched_paced t _ _ _)).trans (actRequests_paced ..))

theorem crossfadeEnd_paced (sel s) : Paced s (crossfadeEnd sel s) := .ite (.refl s) (convSet_paced ..)
theorem toneStart_paced (k s) : Paced s (toneStart k s) := .ite (tgSet_paced ..) (.refl s)
theorem sweepStart_paced (k s) : Paced s (sweepStart k s) := .ite (tgSet_paced ..) (.refl s)
theorem captureStart_paced (s) : Paced s (captureStart s) := .ite (.of rfl rfl rfl rfl) (.refl s)
theorem captureEnd_paced (s) : Paced s (captureEnd s) := by
  unfold captureEnd
  split
  · exact .ite (.of rfl rfl rfl rfl) (.refl s)
  · exact .refl s

theorem timersAct_paced (s) : Paced s (timersAct s) := by
  unfold timersAct
  extract_lets t u
  have ht : Paced s t := .foldl (fun _ _ => crossfadeEnd_paced ..) ..
  have hu : Paced s u := ht.trans (.foldl (fun _ _ => (toneStart_paced ..).trans (sweepStart_paced ..)) ..)
  exact (hu.trans (captureStart_paced _)).trans (captureEnd_paced _)

theorem listsFirst_paced (s) : Paced s (listsFirst s) := (requestAct_paced s).trans (timersAct_paced _)

/-! ### The stop bath (R254 to R260) -/

theorem chainInit_paced (sel m s) : Paced s (chainInit sel m s) := (smp_paced s _).trans (chSet_paced ..)
theorem chainRestart_paced (sel s) : Paced s (chainRestart sel s) := (chainInit_paced ..).trans (chSet_paced ..)

theorem objClear_paced (k s) : Paced s (objClear k s) := by
  unfold objClear
  extract_lets ends t
  have h : ObjectsOnly (ringZero k s) t := .ite (DramOnly.put ..).objects ⟨_, _, _, _, _, _, _, rfl⟩
  have ht : Paced s t := (ringZero_objects ..).paced.trans h.paced
  exact ht.trans (objSet_paced ..)

theorem nodeClear_paced (n work s) : Paced s (nodeClear n work s) := by
  refine .foldl (fun t k => ?_) ..
  split
  · exact objClear_paced ..
  · exact objSet_paced ..
  · exact mx_paced t _
  · exact chainRestart_paced ..
  · exact smp_paced t _
  · exact chainRestart_paced ..
  · exact .refl t

theorem restorePersistent_paced (p s) : Paced s (restorePersistent p s) := by
  refine .foldl (fun t _ => .ite (.refl t) (.foldl (fun u _ => .ite (.refl u) ?_) ..)) ..
  exact .of rfl rfl rfl rfl

theorem fnClear_paced (c kind i s) : Paced s (fnClear c kind i s) := by
  unfold fnClear
  split
  · exact portSet_paced ..
  · exact net_paced s _
  · exact objClear_paced ..
  · extract_lets f _ t
    have ht : Paced s t := mx_paced s _
    clear_value t
    split
    · exact .ite ((ht.trans (chainRestart_paced ..)).trans (chSet_paced ..)) ht
    · exact ht
  · split
    · refine .ite (.ite ?_ (.refl s)) (.ite (.refl s) (nodeClear_paced ..))
      exact (nodeClear_paced ..).trans (.foldl (fun _ _ => chSet_paced ..) ..)
    · exact .refl s
  · split
    · exact restorePersistent_paced ..
    · exact .refl s
  · exact .refl s

theorem fnReview_paced (kind i s) : Paced s (fnReview kind i s) := by
  unfold fnReview
  extract_lets f
  split
  · exact .refl s
  · refine .ite (fnSet_paced ..) (.ite ?_ (.refl s))
    exact ((sched_paced s _ _ _).trans (fnSet_paced ..)).trans (raiseTick_paced ..)

theorem cancelEntry_paced (r s) : Paced s (cancelEntry r s) :=
  .ite (.ite (.refl s) (fnSet_paced ..)) (.ite (fnSet_paced ..) (.refl s))

theorem dl3Settle_paced (s) : Paced s (dl3Settle s) :=
  (sched_paced s _ _ _).trans (.foldl (fun _ _ => cancelEntry_paced ..) ..)

theorem stopClear_paced (s) : Paced s (stopClear s) :=
  .foldl (fun t _ => .ite ((fnSet_paced ..).trans (fnClear_paced ..)) (.refl t)) ..

theorem stopDone_paced (s) : Paced s (stopDone s) := by
  refine (stopClear_paced s).trans (.foldl (fun t e => .ite ?_ (.refl t)) ..)
  extract_lets kind i u
  have hu : Paced t u := .ite (fnClear_paced ..) (.refl t)
  exact ((hu.trans (fnSet_paced ..)).trans (raiseTick_paced ..)).trans (fnReview_paced ..)

theorem fadeLanes_paced (out a l s) : Paced s (fadeLanes out a l s) := .foldl (fun t _ => smp_paced t _) ..
theorem chainFade_paced (out a sel s) : Paced s (chainFade out a sel s) := chSet_paced ..

theorem fnFade_paced (out a kind i s) : Paced s (fnFade out a kind i s) := by
  unfold fnFade
  extract_lets w
  split
  · exact .ite (portSet_paced ..) (fadeLanes_paced ..)
  · exact fadeLanes_paced ..
  · exact txSet_paced ..
  · split
    · exact chainFade_paced ..
    · exact .refl s
  · split
    · exact .foldl (fun _ _ => chainFade_paced ..) ..
    · exact .refl s
  · exact .refl s

theorem actStop_paced (r s) : Paced s (actStop r s) :=
  .ite ((fnSet_paced ..).trans (fnFade_paced ..)) (.refl s)

theorem stopBathAct_paced (s) : Paced s (stopBathAct s) := by
  unfold stopBathAct
  refine .ite (.refl s) ?_
  extract_lets t due u
  have ht : Paced s t := (listsFirst_paced s).trans (dl3Settle_paced _)
  have hu : Paced s u := ht.trans (.foldl (fun _ _ => actStop_paced ..) ..)
  exact hu.trans (sched_paced u _ _ _)

theorem actStart_paced (kind i s) : Paced s (actStart kind i s) := by
  unfold actStart
  extract_lets a t
  have ht : Paced s t := fnSet_paced ..
  clear_value t
  refine ht.trans ?_
  split
  · refine .ite (fnFade_paced ..) ?_
    exact (Paced.foldl (fun u _ => smp_paced u _) ..).trans (.foldl (fun u _ => smp_paced u _) ..)
  · exact (objInit_objects ..).paced
  · split
    · exact (chainRestart_paced ..).trans (fnFade_paced ..)
    · exact .refl t
  · split
    · refine Paced.trans ?_ (fnFade_paced ..)
      exact .ite (.foldl (fun _ _ => (objInit_objects ..).paced) ..) (.refl t)
    · exact .refl t
  · exact fnFade_paced ..

theorem startOne_paced (r s) : Paced s (startOne r s) := by
  unfold startOne
  extract_lets f done
  have hd : ∀ t, Paced t (done t) := fun t => sched_paced t _ _ _
  clear_value done
  exact .ite ((actStart_paced ..).trans (hd _)) (.ite (.refl s) (hd s))

theorem startAct_paced (s) : Paced s (startAct s) := by
  unfold startAct
  refine .ite (.refl s) ?_
  extract_lets t
  have ht : Paced s t := ((listsFirst_paced s).trans (stopDone_paced _)).trans (dl3Settle_paced _)
  exact ht.trans (.foldl (fun _ _ => startOne_paced ..) ..)

theorem allLists_paced (s) : Paced s (allLists s) := (stopBathAct_paced s).trans (startAct_paced _)

/-! ### Missed deadlines (R245) -/

theorem settleNow_paced (s) : Paced s (settleNow s) :=
  (skipNodes_stat s).paced.trans (captureTry_working _).paced

theorem abandon_paced (i b sub missed work s) : Paced s (abandon i b sub missed work s) := by
  cases hn : s.sched.graph[i]? with
  | none =>
    unfold abandon
    rw [hn]
    exact .refl s
  | some n =>
    obtain ⟨v, u, hv, hu, he⟩ := abandon_settles hn b sub missed work
    rw [he]
    refine Paced.trans ?_ (settleNow_paced _)
    have h : Paced v u := hu ▸ StatOnly.paced ⟨_, rfl⟩
    exact (hv.paced.trans h).trans (.of rfl rfl rfl rfl)

theorem dacUnderrun_paced (k o n s) : Paced s (dacUnderrun k o n s) := by
  unfold dacUnderrun
  extract_lets d t taken
  have ht : Paced s t := .of rfl rfl rfl rfl
  exact .ite (.refl s) (((ht.trans (smp_paced t _)).trans (count_paced ..)).trans (raise_paced ..))

theorem deadlineMiss_paced (i work missing s) : Paced s (deadlineMiss i work missing s) := by
  unfold deadlineMiss
  refine .ite (.refl s) ?_
  split
  · exact .refl s
  · extract_lets t _ _ u v
    have ht : Paced s t := abandon_paced ..
    have hu : Paced s u := by
      refine ht.trans (Paced.trans ?_ (count_paced ..))
      exact ⟨⟨rfl, rfl, rfl, rfl, rfl, rfl⟩, rfl, rfl⟩
    have hv : Paced s v := (hu.trans (lapseAt_working ..).paced).trans (raiseOnce_working ..).paced
    exact hv.trans (.foldl (fun _ _ => dacUnderrun_paced ..) ..)

theorem missAll_paced (p s) : Paced s (missAll p s) :=
  .foldl (fun t _ => .ite (deadlineMiss_paced ..) (.refl t)) ..

theorem closePeriod_paced (s) : Paced s (closePeriod s) := (allLists_paced s).trans (missAll_paced ..)
theorem closeBlock_paced (s) : Paced s (closeBlock s) := (allLists_paced s).trans (missAll_paced ..)

end Sys2Proof.Machine
end

section
/-!
PROOF. Block ticks and sub-block boundaries (O41).
-/
namespace Sys2Proof.Machine

variable {s : State}

/-! ### Rows of the tick that leave the grid alone -/

theorem blockEnd_grid (s : State) : (blockEnd s).grid = s.grid := by
  obtain ⟨c, h, -⟩ := blockEnd_only s
  rw [h]

theorem blockEnd_clocked (s) : Clocked s (blockEnd s) := by
  obtain ⟨c, h, -⟩ := blockEnd_only s
  rw [h]
  exact .of rfl rfl rfl

theorem TwinEvent.clocked {s t : State} (h : TwinEvent s t) : Clocked s t := by
  obtain ⟨_, _, _, _, _, _, rfl⟩ := h
  exact .of rfl rfl rfl
theorem TwinOnly.clocked {s t : State} (h : TwinOnly s t) : Clocked s t := h.event.clocked
theorem TimeOnly.clocked {s t : State} (h : TimeOnly s t) : Clocked s t := by
  obtain ⟨_, _, _, _, _, _, _, rfl⟩ := h
  exact .of rfl rfl rfl
theorem count_clocked (a i n s) : Clocked s (count a i n s) := (count_ground ..).toClocked
theorem raiseTick_clocked (code arg s) : Clocked s (raiseTick code arg s) := (raiseTick_ground ..).toClocked
theorem raise_clocked (code arg s) : Clocked s (raise code arg s) := (raise_working ..).clocked
theorem twin_clocked (s : State) (w) : Clocked s { s with twin := w } := .of rfl rfl rfl

theorem slotTick_clocked (s) : Clocked s (slotTick s) := .of rfl rfl rfl
theorem healthTick_clocked (s) : Clocked s (healthTick s) := twin_clocked s _
theorem matrixTick_clocked (a s) : Clocked s (matrixTick a s) := (mx_working s _).clocked

theorem startActing_clocked (s) : Clocked s (startActing s) := by
  obtain ⟨a, hd⟩ := startActing_domains s
  refine Clocked.trans ?_ hd.ground.toClocked
  exact .of rfl rfl rfl

theorem takeToken_clocked (alone s) : Clocked s (takeToken alone s) := by
  unfold takeToken
  extract_lets t u _ v
  have ht : Clocked s t := .ite (.refl s) (raiseTick_clocked ..)
  have hu : Clocked s u := .ite (ht.trans (raiseTick_clocked ..)) ht
  have hv : Clocked s v := hu.trans (twin_clocked u _)
  exact (hv.trans (startActing_clocked _)).trans (emitByState_only ..).clocked

theorem twinTick_clocked (s) : Clocked s (twinTick s) := by
  unfold twinTick
  extract_lets t _ u
  have ht : Clocked s t := by
    unfold t
    split
    · exact .ite (takeToken_clocked ..) (.refl s)
    · exact .refl s
  clear_value t
  have hu : Clocked s u := (ht.trans (twin_clocked t _)).trans (stopActing_event _).clocked
  exact .ite (hu.trans (enterResync_only ..).clocked) ht

theorem clk_clocked (s : State) (c) : Clocked s { s with clk := c } := .of rfl rfl rfl
theorem ctrlToSafe_clocked (s) : Clocked s (ctrlToSafe s) := .ite (.refl s) (clk_clocked s _)

theorem clockFault_clocked (code ctrl audio s) : Clocked s (clockFault code ctrl audio s) := by
  unfold clockFault
  extract_lets _ t u v
  have ht : Clocked s t := (clk_clocked s _).trans (count_clocked ..)
  have hu : Clocked s u := .ite ht (ht.trans (logEntry_working ..).clocked)
  have hv : Clocked s v := .ite (hu.trans (tokenFault_event ..).clocked) hu
  exact .ite (hv.trans (ctrlToSafe_clocked _)) hv

theorem mediaFault_clocked (s) : Clocked s (mediaFault s) := by
  unfold mediaFault
  extract_lets v t
  have ht : Clocked s t := .ite (clk_clocked s _) (.refl s)
  exact ((ht.trans (clk_clocked t _)).trans (raiseTick_clocked ..)).trans (clockFault_clocked ..)

theorem mediaStep_clocked (s) : Clocked s (mediaStep s) := by
  unfold mediaStep
  split
  rename_i fault t h
  extract_lets u
  have ht : Clocked s t := ((congrArg (fun x => Ground s x.2) h).mp (mediaTick_ground s)).toClocked
  have hu : Clocked s u := ht.trans (mediaServo_ground _).toClocked
  exact .ite (hu.trans (mediaFault_clocked _)) hu

theorem enterSuspect_clocked (s) : Clocked s (enterSuspect s) := (twin_clocked s _).trans (enterSuspect_wire s).only.clocked

theorem hashMatch_clocked (s) : Clocked s (hashMatch s) := by
  unfold hashMatch
  extract_lets run _ t
  have ht : Clocked s t := twin_clocked s _
  exact .ite (ht.trans (twin_clocked t _)) ht

theorem hashDiffer_clocked (n mask e s) : Clocked s (hashDiffer n mask e s) := by
  unfold hashDiffer
  extract_lets _ t _ u l v _ w
  have ht : Clocked s t := twin_clocked s _
  have hu : Clocked s u := (ht.trans (twin_clocked t _)).trans (count_clocked ..)
  have hv : Clocked s v := ((ht.trans (twin_clocked t _)).trans (count_clocked ..)).trans (raise_clocked ..)
  have hw : Clocked s w := .ite ((hv.trans (twin_clocked v _)).trans (raise_clocked ..)) hv
  exact .ite (ht.trans (twin_clocked t _)) (.ite ((hu.trans (enterResync_only ..).clocked).trans (raise_clocked ..))
    (hw.trans (enterSuspect_clocked _)))

theorem compareBlock_clocked (n s) : Clocked s (compareBlock n s) := by
  unfold compareBlock
  split
  · refine .ite (.refl s) ((twin_clocked s _).trans (.ite (hashMatch_clocked _) (hashDiffer_clocked ..)))
  · exact .refl s

theorem hashSeal_clocked (s) : Clocked s (hashSeal s) := by
  unfold hashSeal
  extract_lets k n hs _ t u
  have ht : Clocked s t := twin_clocked s _
  have hu : Clocked s u := ht.trans (linkSend_only ..).clocked
  exact .ite (.refl s) (hu.trans (compareBlock_clocked ..))

theorem planWait_clocked (b s) : Clocked s (planWait b s) := by
  unfold planWait
  split
  · exact twin_clocked s _
  · exact twin_clocked s _

theorem planLapse_clocked (s) : Clocked s (planLapse s) := by
  unfold planLapse
  extract_lets t
  refine .ite ?_ (.ite (.refl s) (.ite (planWait_clocked ..) (.ite (twin_clocked s _) (.refl s))))
  split
  · exact .ite (twin_clocked s _) (twin_clocked s _)
  · exact .refl s

/-! ### Samples of the analog ports (chapter 13) -/

theorem ana_working (s : State) (a) : Working s { s with ana := a } := .of rfl rfl rfl rfl
theorem adcSet_working (k v s) : Working s (adcSet k v s) := ana_working s _
theorem ampSet_working (k v s) : Working s (ampSet k v s) := ana_working s _
theorem rkey_ne_misses {a : Nat} (i : Nat) (h : 0x10040021 ≤ a) : rkey 0x10040020 0 ≠ rkey a i := by
  unfold rkey
  omega

theorem adcSub_working (k i raw c o keep s) : Working s (adcSub k i raw c o keep s) := by
  unfold adcSub
  split
  · exact .refl s
  · extract_lets -underBinder a ctrl
    split
    extract_lets -underBinder f ls _ t
    have ht : Working s t := .ite (smp_working s _) (.refl s)
    exact ht.trans (adcSet_working ..)

theorem adcArrive_working (q l keep s) : Working s (adcArrive q l keep s) :=
  .ite (.refl s) (.foldl (fun _ _ => adcSub_working ..) ..)

theorem linkSend_working (type payload s) : Working s (linkSend type payload s) := by
  obtain ⟨_, _, _, _, _, _, _, _, _, h⟩ := linkSend_wire type payload s
  rw [h]
  exact .of rfl rfl rfl rfl

theorem adcShare_working (q s) : Working s (adcShare q s) := .ite (.refl s) (linkSend_working ..)

theorem adcBoundary_working (l s) : Working s (adcBoundary l s) :=
  .ite (.refl s) ((adcArrive_working ..).trans (adcShare_working ..))

theorem dacSub_working (q k s) : Working s (dacSub q k s) := by
  unfold dacSub
  split
  · exact .refl s
  · extract_lets o d
    split
    exact (smp_working s _).trans (dacSet_working ..)

theorem ampSub_working (q k s) : Working s (ampSub q k s) := by
  unfold ampSub
  split
  · exact .refl s
  · exact .ite ((ampSet_working ..).trans (count_working (rkey_ne_misses _ (by decide)) ..)) (.refl s)

theorem analogSub_working (q s) : Working s (analogSub q s) :=
  (Working.foldl (fun _ _ => dacSub_working ..) ..).trans (.foldl (fun _ _ => ampSub_working ..) ..)

theorem adcBlock_working (k s) : Working s (adcBlock k s) := by
  unfold adcBlock
  extract_lets a peak ms t u
  have ht : Working s t := adcSet_working ..
  have hu : Working s u := .ite (ht.trans (count_working (rkey_ne_misses _ (by decide)) ..)) ht
  exact .ite (.refl s) (.ite (hu.trans (raiseAt_working ..)) hu)

theorem analogTick_working (pvdd s) : Working s (analogTick pvdd s) := by
  unfold analogTick
  extract_lets t _ u
  have ht : Working s t := .foldl (fun _ _ => adcBlock_working ..) ..
  exact (ht.trans (ana_working t _)).trans (.foldl (fun _ _ => ampSet_working ..) ..)

theorem pruneSamples_working (s) : Working s (pruneSamples s) := smp_working s _
theorem adcTrim_working (s) : Working s (adcTrim s) := .of rfl rfl rfl rfl

/-! ### The tick (R9 to R12) -/

/-- The end of a block before the grid moves on. -/
def blockClosed (env : TickEnv) (s : State) : State := blockEnd (closeBlock (setSafe env.safe s))

theorem blockClosed_clocked (env : TickEnv) (s : State) : Clocked s (blockClosed env s) :=
  ((clk_clocked s _).trans (closeBlock_paced _).toClocked).trans (blockEnd_clocked _)

/-- The next block, before its tick's rows. -/
def blockBegun (env : TickEnv) (s : State) : State :=
  evcOccur 0x101 1 (evcOccur 0x100 1 (gridAdvance (timeAdvance env.cycles (blockClosed env s))))

theorem blockBegun_grid (env : TickEnv) (s : State) : let u := blockBegun env s
    u.grid.block = s.grid.block + 1 ∧ u.grid.sub = 0 ∧ u.grid.running = s.grid.running
      ∧ u.grid.prevMet = (closeBlock (setSafe env.safe s)).grid.met
      ∧ u.sched.load = s.sched.load ∧ u.sched.loadNow = s.sched.loadNow := by
  obtain ⟨v, hv⟩ : ∃ v, v = timeAdvance env.cycles (blockClosed env s) := ⟨_, rfl⟩
  have hm : v.grid.met = (closeBlock (setSafe env.safe s)).grid.met := by
    obtain ⟨_, _, _, _, _, _, _, h⟩ := timeAdvance_timed env.cycles (blockClosed env s)
    rw [hv, h]
    exact congrArg Grid.met (blockEnd_grid _)
  have hc : Clocked s v := hv ▸ (blockClosed_clocked env s).trans (timeAdvance_timed ..).clocked
  have hg : Clocked (gridAdvance v) (blockBegun env s) :=
    hv ▸ (evcOccur_ground ..).toClocked.trans (evcOccur_ground ..).toClocked
  exact ⟨hg.block.trans (congrArg (· + 1) hc.block), hg.sub, hg.running.trans hc.running, hg.prevMet.trans hm,
    hg.load.trans hc.load, hg.loadNow.trans hc.loadNow⟩

/-- The state that takes up the load of the block that ended. -/
theorem schedTick_row (s : State) : (schedTick s).grid = s.grid ∧ (schedTick s).sched.load = s.sched.loadNow
    ∧ (schedTick s).sched.loadNow = 0 := ⟨rfl, rfl, rfl⟩

/-- The rows of a tick before and after the load moves on leave the grid and the load alone. -/
theorem blockTick_rows (env : TickEnv) (hr : s.grid.running = true) :
    ∃ m, Clocked (blockBegun env s) m ∧ Clocked (schedTick m) (blockTick env s) := by
  generalize he : blockTick env s = d
  unfold blockTick at he
  rw [if_neg (by simp [hr])] at he
  extract_lets s1 lapsed s2 n s3 s4 s5 s6 s7 s8 s9 s10 at he
  have h3 : Clocked s2 s3 := (eventDelivery_ground _).toClocked
  have h4 : Clocked s2 s4 :=
    ((h3.trans (netTick_ground ..).toClocked).trans (slotTick_clocked _)).trans (lockTick_ground _).toClocked
  have h5 : Clocked s2 s5 := ((h4.trans (mediaStep_clocked _)).trans (twinTick_clocked _)).trans (healthTick_clocked _)
  have h6 : Clocked s2 s6 := h5.trans (tickFrames_ground ..).toClocked
  have h7 : Clocked s2 s7 := h6.trans (hashSeal_clocked _)
  have h8 : Clocked s2 s8 := .ite (h7.trans (planLapse_clocked _)) h7
  have h9 : Clocked s2 (matrixTick n (serialTick s8)) := (h8.trans (serialTick_ground _).toClocked).trans (matrixTick_clocked ..)
  have h10 : Working s9 s10 := (adcBoundary_working ..).trans (adcTrim_working _)
  have h11 : Working s10 d :=
    he ▸ ((analogTick_working ..).trans (analogSub_working ..)).trans (pruneSamples_working _)
  exact ⟨matrixTick n (serialTick s8), h9, (h10.trans h11).clocked⟩

theorem blockTick_row (env : TickEnv) (hr : s.grid.running = true) :
    ∃ t, exec (.blockTick env) s = .next t ∧ t.grid.block = s.grid.block + 1 ∧ t.grid.sub = 0 ∧ t.grid.running = true
      ∧ t.grid.prevMet = (closeBlock (setSafe env.safe s)).grid.met ∧ t.pending = s.pending ∧ t.sched.loadNow = 0
      ∧ t.sched.load = s.sched.loadNow := by
  obtain ⟨m, hm, ht⟩ := blockTick_rows env hr
  obtain ⟨hb, hs, hrun, hp, -, hl⟩ := blockBegun_grid env s
  refine ⟨_, rfl, ?_, ?_, ?_, ?_, (blockTick_keeps env s).1, ht.loadNow, ?_⟩
  · exact ht.block.trans (hm.block.trans hb)
  · exact ht.sub.trans (hm.sub.trans hs)
  · exact ht.running.trans (hm.running.trans (hrun.trans hr))
  · exact ht.prevMet.trans (hm.prevMet.trans hp)
  · exact ht.load.trans (hm.loadNow.trans hl)

theorem halvesEntered_cnt (n b : Nat) (s : State) :
    (halvesEntered n b s).time.cnt = s.time.cnt ∧ (halvesEntered n b s).time.inc = s.time.inc := by
  induction n generalizing b s with
  | zero => exact ⟨rfl, rfl⟩
  | succ n ih =>
    have h : (halfEnter b s).time.cnt = s.time.cnt ∧ (halfEnter b s).time.inc = s.time.inc := by
      unfold halfEnter
      extract_lets t armed v u
      split
      · split
        · exact ⟨rfl, rfl⟩
        · exact ⟨rfl, rfl⟩
      · rw [raise_time]
        unfold u
        split
        · exact ⟨rfl, rfl⟩
        · exact ⟨rfl, rfl⟩
    obtain ⟨hc, hi⟩ := ih (1 - b) (halfEnter b s)
    exact ⟨hc.trans h.1, hi.trans h.2⟩

theorem timeAdvance_cnt (n : Nat) (s : State) : (timeAdvance n s).time.cnt = (s.time.cnt + n * s.time.inc) % 2 ^ 64 :=
  (halvesEntered_cnt ..).1

theorem timeAdvance_frame (n : Nat) (s : State) : (timeAdvance n s).grid = s.grid ∧ (timeAdvance n s).sched = s.sched := by
  obtain ⟨_, _, _, _, _, _, _, h⟩ := timeAdvance_timed n s
  rw [h]
  exact ⟨rfl, rfl⟩

theorem evcOccur_working (src n s) : Working s (evcOccur src n s) := .of rfl rfl rfl rfl

theorem subBlock_row (cycles : Nat) (adc : List AdcIn) (hr : s.grid.running = true) (hs : s.grid.sub < 3) :
    ∃ t, exec (.subBlockBoundary cycles adc) s = .next t ∧ t.grid.block = s.grid.block ∧ t.grid.sub = s.grid.sub + 1
      ∧ t.time.cnt = (s.time.cnt + cycles * s.time.inc) % 2 ^ 64 ∧ t.sched = (closePeriod s).sched ∧ t.pending = s.pending := by
  obtain ⟨v, hv⟩ : ∃ v : State, v = { closePeriod s with
    grid := { (closePeriod s).grid with sub := (closePeriod s).grid.sub + 1 } } := ⟨_, rfl⟩
  have hp := closePeriod_paced s
  have hw : Working (timeAdvance cycles v) (subBlock cycles adc s) := by
    have e : subBlock cycles adc s = (fun t => analogSub (period t) t) (adcBoundary adc (evcOccur 0x101 1 (timeAdvance cycles v))) :=
      hv ▸ if_neg (by simp [hr, hs])
    rw [e]
    exact ((evcOccur_working ..).trans (adcBoundary_working ..)).trans (analogSub_working ..)
  obtain ⟨hg, hc⟩ := timeAdvance_frame cycles v
  have hvb : v.grid.block = s.grid.block := (congrArg (fun x : State => x.grid.block) hv).trans hp.block
  have hvs : v.grid.sub = s.grid.sub + 1 := (congrArg (fun x : State => x.grid.sub) hv).trans (congrArg (· + 1) hp.sub)
  have hvt : v.time = (closePeriod s).time := (congrArg State.time hv).trans rfl
  have hvd : v.sched = (closePeriod s).sched := (congrArg State.sched hv).trans rfl
  refine ⟨_, rfl, ?_, ?_, ?_, ?_, (subBlock_keeps cycles adc s).1⟩
  · exact hw.block.trans ((congrArg Grid.block hg).trans hvb)
  · exact hw.sub.trans ((congrArg Grid.sub hg).trans hvs)
  · rw [hw.cnt, timeAdvance_cnt, hvt, hp.cnt, hp.inc]
  · exact hw.sched.trans (hc.trans hvd)

/-- Settles O41: a tick and a boundary close their period, move the grid on, and leave it and the load alone in all their rows. -/
theorem ticks : Obligations.Ticks := fun _ env cycles adc =>
  ⟨fun hr => blockTick_row env hr, fun hr hs => subBlock_row cycles adc hr hs, fun hr =>
    ⟨congrArg Host.Outcome.next (if_pos (by simp [hr])), congrArg Host.Outcome.next (if_pos (by simp [hr]))⟩⟩

end Sys2Proof.Machine
end
